-- ==== Sys2Proof/Word.lean ====
section
/-! DEFINITION. The words of the manual (R0 notation): bytes, 32-bit register words, 48-bit package addresses,
and the sparse maps in one canonical form that hold everything numerous (bytes, registers, cores, engines). -/

set_option Elab.async false

namespace Sys2Proof

/-- A byte of memory or of a line. -/
abbrev Byte := BitVec 8
/-- A 32-bit register word. -/
abbrev Word := BitVec 32
/-- A 64-bit word. -/
abbrev Word64 := BitVec 64
/-- A 48-bit package address (R340). -/
abbrev Addr := BitVec 48

/-- A sparse map: pairs of a key and a value, keys strictly rising, no value equal to the default of its key. -/
abbrev SMap (α : Type) := List (Nat × α)

/-- The value at key `k`, `d` where the map lists none. -/
def SMap.get {α : Type} (m : SMap α) (d : α) (k : Nat) : α :=
  match m with
  | [] => d
  | p :: r => if p.1 = k then p.2 else SMap.get r d k

/-- The map without key `k`. -/
def SMap.erase {α : Type} (m : SMap α) (k : Nat) : SMap α := m.filter fun p => decide (p.1 ≠ k)

/-- The map with `v` at key `k`, the keys kept rising. -/
def SMap.insert {α : Type} (m : SMap α) (k : Nat) (v : α) : SMap α :=
  match m with
  | [] => [(k, v)]
  | p :: r =>
    if k < p.1 then (k, v) :: p :: r
    else if p.1 = k then (k, v) :: r
    else p :: SMap.insert r k v

/-- The map with `v` at key `k`; writing the default `d` removes the entry, so equal maps are equal data. -/
def SMap.put {α : Type} [DecidableEq α] (m : SMap α) (d : α) (k : Nat) (v : α) : SMap α :=
  if v = d then SMap.erase m k else SMap.insert m k v

/-- The map with its entries of keys in [lo, lo + n) removed. -/
def SMap.clearRange {α : Type} (m : SMap α) (lo n : Nat) : SMap α :=
  m.filter fun p => decide (p.1 < lo ∨ lo + n ≤ p.1)

/-- The map with the entries whose key satisfies `f` removed. -/
def SMap.dropKeys {α : Type} (m : SMap α) (f : Nat → Bool) : SMap α :=
  m.filter fun p => !f p.1

/-- The keys rise strictly. -/
def SMap.sorted {α : Type} : SMap α → Bool
  | [] => true
  | [_] => true
  | p :: q :: r => decide (p.1 < q.1) && SMap.sorted (q :: r)

/-- The canonical form with a default by key. -/
def SMap.wf {α : Type} [DecidableEq α] (m : SMap α) (d : Nat → α) : Bool :=
  SMap.sorted m && m.all fun p => decide (p.2 ≠ d p.1)

end Sys2Proof
end

