-- ==== Sys2Proof/Syntax.lean ====
section
/-! DEFINITION. The commands: one constructor for each row of spec/opcode_table.json, in its order. The table gives the
rows no operands; the operands name the unit the step happens on and the values that come from outside the package
(sensor values, frames, flits, training results, register write data). -/

set_option Elab.async false

namespace Sys2Proof

/-- The privilege a register access arrives with (R363): M, S, or U of beat slot `k`. -/
inductive Priv where
  | m
  | s
  | u (k : Nat)
  deriving DecidableEq, Repr

/-- The line of a queue whose access failed (R503). -/
inductive RingLine where
  | command
  | control
  | completion
  | event
  deriving DecidableEq, Repr

/-- The clocks a block may use (R19). -/
inductive Clock where
  | aclk
  | fclk
  | sclk
  deriving DecidableEq, Repr

/-- The commands of the block (spec/opcode_table.json). -/
inductive Instr where
  /-- COMMAND_LINE_WRITE (R286). A host write to a watched command line is seen as a coherence event, and the device accepts the command in slot H when its PHASE equals the expected phase. -/
  | commandLineWrite (addr : Addr) (line : List Byte)
  /-- CONTROL_LINE_WRITE (R289). A host write to a queue's control line updates EV_CONS, which frees event-ring space and can release ALERT_N. -/
  | controlLineWrite (q : Nat) (evCons : Word)
  /-- RING_ACCESS_FAIL (R503). A failed completion, event, command-line or control-line access stops the queue and reports it with an ETYPE 0x11 event or MGR_AQ_STS.FLT. -/
  | ringAccessFail (q : Nat) (which : RingLine) (unreachable : Bool)
  /-- NOP (R292). The NOP host command completes with DONE and does nothing else. -/
  | nopCommand (q slot : Nat)
  /-- QCREATE (R293). QCREATE checks the QID and that the rings do not overlap, then creates command queue QID. -/
  | qcreate (q slot : Nat)
  /-- QDESTROY (R293). QDESTROY stops accepting commands on the queue and destroys it once its accepted commands have completed. -/
  | qdestroy (q slot : Nat)
  /-- CTX_CREATE (R299). CTX_CREATE reads the context block, allocates sync objects, writes the ownership copies, derives lane states and makes the context live. -/
  | ctxCreate (q slot : Nat)
  /-- CTX_DESTROY (R293). CTX_DESTROY waits until no step or billeted command of the context runs, then releases its sync objects, partition, floor and schedule entries. -/
  | ctxDestroy (q slot : Nat)
  /-- CTX_SAVE (R300). CTX_SAVE is a billeted command that writes the context image, including persistent regions when DATA = 1, while no step of the context runs. -/
  | ctxSave (q slot : Nat)
  /-- CTX_RESTORE (R301). CTX_RESTORE is a billeted command that checks the image, creates the context, restores its regions, beat, generators, local syncs and cores, and reports GEOM_CHANGED when the geometry differs. -/
  | ctxRestore (q slot : Nat)
  /-- STEP (R282). The STEP command starts step s of its context with a program table, and optionally a batch, once the previous step of the context has ended. -/
  | stepCommand (q slot : Nat)
  /-- ABORT (R296). ABORT decides against its target, named by QID, SLOT and TAG, and produces exactly one target completion line under Table 11.7. -/
  | abortCommand (q slot : Nat)
  /-- SYNC_SIG (R275). SYNC_SIG adds ADD to a package sync object, or with RST = 1 increments its epoch and zeroes its count. -/
  | syncSig (q slot : Nat)
  /-- SCHED_CANCEL (R315). A SCHED of KIND 0x00 removes schedule entry IDX. -/
  | schedCancel (q slot : Nat)
  /-- SCHED_CKPT_COPY (R317). A SCHED of KIND 0x01 arms a checkpoint-copy entry for a target beat. -/
  | schedCkptCopy (q slot : Nat)
  /-- SCHED_PREFETCH (R355). A SCHED of KIND 0x02 arms an activation-prefetch entry with SRC, DST, LEN, SYNC, NEED and ADD. -/
  | schedPrefetch (q slot : Nat)
  /-- SCHED_FREEZE (R474). A SCHED of KIND 0x03 arms a counter freeze or thaw entry of slot or package scope. -/
  | schedFreeze (q slot : Nat)
  /-- SCHED_FW_ACTIVATE (R455). A SCHED of KIND 0x04 arms a firmware activation entry at a commit beat for a staged and verified bank. -/
  | schedFwActivate (q slot : Nat)
  /-- SCHED_SYNC_SIGNAL (R317). A SCHED of KIND 0x05 arms an entry that adds ADD to a sync object when it fires. -/
  | schedSyncSignal (q slot : Nat)
  /-- CKPT_COPY (R351). CKPT_COPY is a billeted command in which near-memory engines copy 2 MiB pieces from source to destination, optionally holding the commit phase. -/
  | ckptCopy (q slot : Nat)
  /-- SCRUB (R349). SCRUB is a billeted command that runs one pass over the stacks named in its cord mask and returns the corrected count. -/
  | scrub (q slot : Nat)
  /-- PAGE_REQ_OPEN (R243). PAGE_REQ OPEN makes a free sequence slot active with LEN 0 and an empty page list. -/
  | pageReqOpen (q slot : Nat)
  /-- PAGE_REQ_FORK (R244). PAGE_REQ FORK shares the parent's entries below len with slot d, raising REF and sealing those pages, unless some page already has REF 65,535. -/
  | pageReqFork (q slot : Nat)
  /-- PAGE_REQ_SEAL (R243). PAGE_REQ SEAL makes every page of an active sequence sealed. -/
  | pageReqSeal (q slot : Nat)
  /-- PAGE_REQ_GROW (R243). PAGE_REQ GROW makes every position below len writable for every lh, allocating or copying pages as needed. -/
  | pageReqGrow (q slot : Nat)
  /-- PAGE_REQ_TRIM (R243). PAGE_REQ TRIM sets LEN to len and drops the entries that cover only positions at or above len. -/
  | pageReqTrim (q slot : Nat)
  /-- PAGE_REQ_FREE (R243). PAGE_REQ FREE frees the slot and drops every reference of its list. -/
  | pageReqFree (q slot : Nat)
  /-- PAGE_REQ_RESUME (R243). PAGE_REQ RESUME makes a parked sequence active again. -/
  | pageReqResume (q slot : Nat)
  /-- PAGE_REQ_SWAPIN (R243). PAGE_REQ SWAPIN allocates and fills pages from the swap area and makes the slot active, or returns the pages and parks the request when the pool runs short. -/
  | pageReqSwapin (q slot : Nat)
  /-- POOL_COMPACT (R292). POOL_COMPACT is a billeted command that compacts the KV page pool and returns the number of pages moved. -/
  | poolCompact (q slot : Nat)
  /-- PAGE_REFRESH (R251). PAGE_REFRESH is a billeted command that rewrites invalid list entries of one slot, or of all slots, as none. -/
  | pageRefresh (q slot : Nat)
  /-- TABLE_REBUILD_OWNERSHIP (R462). TABLE_REBUILD with identifier 0x01 rewrites every cord ownership copy from the master table. -/
  | tableRebuildOwnership (q slot : Nat)
  /-- TABLE_REBUILD_FUSES (R462). TABLE_REBUILD with identifier 0x02 reloads the fuse shadows. -/
  | tableRebuildFuses (q slot : Nat)
  /-- FW_STAGE (R454). FW_STAGE is a billeted command that stages a firmware image from host memory into the non-committed bank and verifies it. -/
  | fwStage (q slot : Nat)
  /-- BILLET_END (R295). At a billet boundary, reached by the end of its work or by the 64 µs limit, the manager serves every accepted immediate command and then runs one billet of the next billeted command. -/
  | billetEnd
  /-- DISPATCH_NOP (R264). The dispatch word NOP does nothing and advances PC. -/
  | dispatchNop (core : Nat)
  /-- ISSUE (R265). The dispatch word ISSUE forms and checks a descriptor address and becomes pending on the named engine's window. -/
  | issueWord (core time : Nat)
  /-- ISSUE_ADMIT (R150). When a window has a free entry, the scheduler admits the ready pending ISSUE of greatest effective age, or a DMA ISSUE in arrival order, and copies its descriptor. -/
  | issueAdmit (u time : Nat)
  /-- WAIT (R266). The dispatch word WAIT stalls the core until the sync condition of R274 holds. -/
  | waitWord (core : Nat)
  /-- WAIT_RELEASE (R274). A stalled WAIT, or a header wait, is released when a change of its sync object meets the count or epoch condition. -/
  | waitRelease (core : Nat)
  /-- SIGNAL (R267). The dispatch word SIGNAL adds to a sync object or resets it, after a drain when DRAIN = 1. -/
  | signalWord (core : Nat)
  /-- DRAIN_COMPLETE (R267). When every descriptor issued by the core has completed, a draining SIGNAL or an END proceeds. -/
  | drainComplete (core : Nat)
  /-- WAITBEAT (R268). The dispatch word WAITBEAT stalls the core until the beat reaches or passes its target. -/
  | waitbeatWord (core : Nat)
  /-- LOOP (R269). The dispatch word LOOP increments LC[c] and branches, or clears LC[c] and falls through. -/
  | loopWord (core : Nat)
  /-- JUMP (R264). The dispatch word JUMP adds 16 × TGT to PC. -/
  | jumpWord (core : Nat)
  /-- SETBASE (R264). The dispatch word SETBASE sets BASE[BSEL], or adds to it. -/
  | setbaseWord (core : Nat)
  /-- TRAP (R270). The dispatch word TRAP writes a trap event record carrying CODE and PC, then continues. -/
  | trapWord (core : Nat)
  /-- END (R271). The dispatch word END drains the core's descriptors, optionally signals SYNC, and leaves the core idle. -/
  | endWord (core : Nat)
  /-- DESCRIPTOR_COMPLETE (R281). A descriptor ends with a status: it signals SIG_SYNC on DONE, returns its credits and forwards the status to the manager firmware where required. -/
  | descriptorComplete (u idx : Nat)
  /-- FTA_TABLE_PRODUCT (R83). FTA OP 0x01 forms bit-plane table-lookup products with zero-point correction into A48 slots. -/
  | ftaTableProduct (u : Nat)
  /-- FTA_TVA7200_PRODUCT (R97). FTA OP 0x02 runs the TVA7200 product with weight tables indexed by activation planes. -/
  | ftaTva7200Product (u : Nat)
  /-- LANE_GROUP_PASS (R102). Once its lane-group credit is granted, an FTA lane group runs one plane pass. -/
  | laneGroupPass (u group : Nat)
  /-- OUTPUT_TILE_DRAIN (R95). When all columns of an output tile are deposited and a slot is free, the tile drains with its corrections and side-path sums and retires in tile order. -/
  | outputTileDrain (u : Nat)
  /-- BWA_PRODUCT (R134). BWA OP 0x01 forms exact W16 or W12 products, with Q edge widening and masking, into A576 or A192 slots. -/
  | bwaProduct (u : Nat)
  /-- ROW_GROUP_PASS (R156). Once its row-group credit is granted, a BWA row group runs one tile pass. -/
  | rowGroupPass (u group : Nat)
  /-- BWA_TILE_RETIRE (R146). After its last chunk, a BWA output tile with DACC = 0 is rounded once to OF and written, and its slots are freed. -/
  | bwaTileRetire (u : Nat)
  /-- STORE_CLASS_CHANGE (R110). A descriptor at a window head that needs a class other than its store's repartitions the store, draining, waiting for or swapping old-class tiles. -/
  | storeClassChange (u : Nat)
  /-- FIT (R53). CVE FIT converts rows to Q with fitted scales, outliers, MSE, width fall-back or adaptation, and the width map. -/
  | fit (u : Nat)
  /-- TRACK (R68). CVE TRACK converts W or accumulator tiles to Q with the tracker's predicted scale and judges high misses. -/
  | track (u : Nat)
  /-- WIDEN (R37). CVE WIDEN converts Q codes to a W format. -/
  | widen (u : Nat)
  /-- WCONV (R32). CVE WCONV converts between the W formats. -/
  | wconv (u : Nat)
  /-- W12C (R69). CVE W12C compresses to W12 with the tracker shift and writes SHIFT. -/
  | w12c (u : Nat)
  /-- ACT (R170). ROW ACT writes a correctly rounded activation function of each element. -/
  | act (u : Nat)
  /-- ACTB (R171). ROW ACTB writes dy times the derivative taken from the saved value. -/
  | actb (u : Nat)
  /-- SMX (R165). ROW SMX computes the softmax through LV values and the lse2 log-sum tree. -/
  | smx (u : Nat)
  /-- SMXB (R166). ROW SMXB computes the softmax backward pass with an exact row reduction. -/
  | smxb (u : Nat)
  /-- NORM (R168). ROW NORM computes layer or RMS normalisation and writes the row statistics. -/
  | norm (u : Nat)
  /-- NORMB (R169). ROW NORMB computes the normalisation backward pass, optionally writing x-hat. -/
  | normb (u : Nat)
  /-- XENT (R167). ROW XENT computes the cross-entropy loss and its gradient against labels. -/
  | xent (u : Nat)
  /-- EMUL (R172). ROW EMUL writes the scaled elementwise product. -/
  | emul (u : Nat)
  /-- BITS (R197). RNG BITS writes random 16-byte blocks from the indexed or lane-stream generator. -/
  | bits (u : Nat)
  /-- BERN (R197). RNG BERN writes a keep-mask bit stream with threshold KEEPM. -/
  | bern (u : Nat)
  /-- RNG_WORD_REQUEST (R199). The RNG serves consumers' random-word requests ahead of its own descriptors, oldest first. -/
  | rngWordRequest (u : Nat)
  /-- SMP_SAMPLE (R201). SMP OP 0x01 draws one index per row by log-domain Gumbel-max, optionally top-k, greedy and with lp. -/
  | smpSample (u : Nat)
  /-- OPT (R209). UPD OPT updates weights, tail and moments by AdamW or SGD during commit only, and contributes norms. -/
  | opt (u : Nat)
  /-- TIESUM (R213). UPD TIESUM sums the gradient slots of a tied weight in use order. -/
  | tiesum (u : Nat)
  /-- ADD (R119). XRE ADD adds NSRC accumulator images exactly into a handle, as its producer when ZERO = 1. -/
  | xreAdd (u : Nat)
  /-- EXPORT (R114). XRE EXPORT writes a handle's tiles as a full or compact image. -/
  | exportImage (u : Nat)
  /-- RETIRE (R126). XRE RETIRE converts a handle's tiles once to OFMT. -/
  | retire (u : Nat)
  /-- REDUCE (R122). XRE REDUCE takes part in the fixed intra-partition tree, granting children, adding arrivals and uploading to its parent. -/
  | reduce (u : Nat)
  /-- REDUCE_LEVEL_PROCEED (R122). A REDUCE participant proceeds when its parent's grant arrives, or when RSYNC has counted every child arrival of a level. -/
  | reduceLevelProceed (u : Nat)
  /-- PKGSUM (R127). XRE PKGSUM is one node of the cross-package W24 sum over the reduction ports. -/
  | pkgsum (u : Nat)
  /-- PKGSUM_GRANT (R430). A child receives its parent's grant flit, checks format and N, and uploads its result. -/
  | pkgsumGrant (u : Nat) (addr : Addr) (fmt : Byte) (count : Nat)
  /-- PKGSUM_ERROR_FLIT (R430). Receipt of an error control flit fails the parent's PKGSUM with BUS_ERR. -/
  | pkgsumErrorFlit (u : Nat)
  /-- PKGSUM_CHILD_ARRIVAL (R430). When every child's array has arrived, the node forms its result by R127. -/
  | pkgsumChildArrival (u child : Nat) (bytes : List Byte) (dst : Addr)
  /-- PKGSUM_BROADCAST (R430). A child whose DST has received the whole broadcast forwards it to its own children and completes. -/
  | pkgsumBroadcast (u : Nat) (bytes : List Byte)
  /-- RELEASE (R107). XRE RELEASE frees a handle's slots or drained tiles. -/
  | release (u : Nat)
  /-- COPY (R352). DMA COPY moves, or zero-fills, ROWS strided rows. -/
  | dmaCopy (u : Nat)
  /-- STREAM (R358). DMA STREAM is an expert prefetch stream into a ring buffer of DIST chunks. -/
  | stream (u : Nat)
  /-- STREAM_CHUNK (R358). A stream chunk starts once CSYNC shows room, and after it lands ASYNC is signalled. -/
  | streamChunk (u : Nat)
  /-- KVREAD (R246). DMA KVREAD pins a sequence's pages and gathers its K and V rows into the buffer for each work entry. -/
  | kvread (u : Nat)
  /-- KVWRITE (R247). DMA KVWRITE writes K and V rows for each work entry, requesting pages or copies where needed. -/
  | kvwrite (u : Nat)
  /-- PAGE_ALLOCATION_REQUEST (R247). The page service allocates a page from the ring head for a list entry of none, or swaps or parks when no page can be had. -/
  | pageAllocationRequest
  /-- COPY_ON_WRITE (R248). A write to a sealed page allocates P', copies P, rewrites the writer's entry and drops P's reference. -/
  | copyOnWrite
  /-- LIST_REFRESH (R251). When POOL_FREES − REFSTAMP reaches 2^22, the page service refreshes the sequence's list in billets. -/
  | listRefresh (ctx slot : Nat)
  /-- PHASE_DONE (R283). A package whose cores are idle or stalled on later WAITBEATs, with no descriptor running, reports the current beat done. -/
  | phaseDone (ctx : Nat)
  /-- REPORT_MARKER (R428). A package receives a worker's report marker and sends its combined report up UPP once all three conditions of R428 hold. -/
  | reportMarker (port : Nat) (copies : List (List Byte))
  /-- REPLAY (R224). Once every prefetch of the attempt has completed, the replay service discards outputs, clears statistics, updates trackers, restores shadows, sync objects and cores, writes overrides and returns the beat to (s, 0x0000). -/
  | replay (ctx : Nat)
  /-- COMMIT_FINALISE (R230). When every commit-phase descriptor in the tree has completed, trackers are pushed, statistics finalised, stores cleared, the completion line written and the beat advanced. -/
  | commitFinalise (ctx : Nat)
  /-- ADVANCE_MARKER (R311). A worker receiving an advance marker on UPP forwards it on its DNPs with reduced RD and schedules the beat's application. -/
  | advanceMarker (copies : List (List Byte))
  /-- SET_MARKER (R311). A set marker from the manager sets the beat and re-judges the schedule table. -/
  | setMarker (copies : List (List Byte))
  /-- ROOT_MARKER_REPEAT (R427). Every 10 µs the root resends an advance marker of the current beat. -/
  | rootMarkerRepeat
  /-- BEAT_APPLY (R311). At the end of the delay, or at once, a package applies the new beat to its slot. -/
  | beatApply (slot : Nat)
  /-- BEAT_OUT_REPEAT (R313). Every 10 µs BEAT_OUT repeats the current frame. -/
  | beatOutRepeat
  /-- BEAT_IN_FRAME (R313). A BEAT_IN frame is CRC-checked and its beat applied RD − BEAT_PINLAT SCLK after its last bit. -/
  | beatInFrame (frame : List Byte)
  /-- BEAT_SOURCE_LOST (R314). When UPP is down or no BEAT_IN frame arrives for 50 µs, the beat is held, HELD is set and a LINK_DOWN beat event is written. -/
  | beatSourceLost
  /-- PREFETCH_COMPLETE (R355). When every piece has landed, or one fails, the manager signals SYNC, or writes a failure event and raises MEM_UE. -/
  | prefetchComplete (i : Nat)
  /-- NEW_FIRMWARE_START (R459). The new firmware migrates settings, takes over the contexts and queues, writes a KIND 0x03 event and releases the beat. -/
  | newFirmwareStart
  /-- CHUNK_REQUEST (R327). A die store that cannot meet a request asks the manager for a chunk; the manager grants within the limit, enters a surge or posts a reclaim. -/
  | chunkRequest (die : Nat)
  /-- CHUNK_GRANT (R327). A chunk of 256 credits, or the remainder, arrives at the die store. -/
  | chunkGrant (die : Nat)
  /-- HEARTH_POOL_DRAW (R327). A hearth pool draws a block of 16 credits from its die store. -/
  | hearthPoolDraw (hearth : Nat)
  /-- ENGINE_CREDIT_GRANT (R327). An engine draws its class, or a lane-group or row-group credit, from the hearth pool, and a DMA engine draws from the die store. -/
  | engineCreditGrant (u idx group : Nat)
  /-- CREDIT_RETURN (R328). Returned credits flow up the tiers above their caps and reduce committed on arrival. -/
  | creditReturn (die : Nat)
  /-- SURGE_END (R326). A surge ends 19 ms after entry, or when committed falls to B, and a reclaim is posted. -/
  | surgeEnd
  /-- RECOVERY_END (R326). 200 ms after recovery began, surges are permitted again. -/
  | recoveryEnd
  /-- SENSOR_SAMPLE (R334). Every 1 µs the controller sums the converter currents into DRT_DRAW and judges the trip condition. -/
  | sensorSample (draw : BitVec 20)
  /-- ACLK_HALVE_END (R334). 1 ms after the last over-limit run, ACLK returns to full rate. -/
  | aclkHalveEnd
  /-- SENSOR_LIMIT_WIDEN_END (R325). 10 ms after a budget lowering, the sensor limit returns to the new budget. -/
  | sensorLimitWidenEnd
  /-- DRAUGHT_TIMEOUT (R335). A credit wait longer than TMO writes one DRT_TIMEOUT draught event per descriptor, and the wait continues. -/
  | draughtTimeout (u idx : Nat)
  /-- DRT_BUDGET_WRITE (R325). A write of DRT_BUDGET clamps the new budget, applies it, and on a lowering posts a reclaim and ends any surge. -/
  | drtBudgetWrite (prv : Priv) (val : Word)
  /-- DRT_SURGE_WRITE (R338). A write of DRT_SURGE sets SEN and a LIM clamped to its range. -/
  | drtSurgeWrite (prv : Priv) (val : Word)
  /-- DRT_PRSV_WRITE (R337). A write of DRT_PRSVk sets or refuses the partition floor of slot k. -/
  | drtPrsvWrite (prv : Priv) (k : Nat) (val : Word)
  /-- BACKGROUND_SCRUB (R348). The base-die scrubber reads each line once per SCRHRS hours, writing corrected lines back conditionally and logging uncorrectable ones. -/
  | backgroundScrub (cord line : Nat) (err : Option (Nat × List Nat))
  /-- PG_LOCK_WRITE (R371). A write of PG_LOCK arms, opens or closes the page's expert unlock through the two-key sequence. -/
  | pgLockWrite (prv : Priv) (pg : Nat) (val : Word)
  /-- UNLOCK_ARM_EXPIRY (R371). ARM clears by itself 64 SCLK after it was set. -/
  | unlockArmExpiry (pg : Nat)
  /-- PG_CTL_SRST (R373). Writing PG_CTL.SRST asserts a block soft reset of reach BLOCK. -/
  | pgCtlSrst (prv : Priv) (pg : Nat)
  /-- PG_CTL_PINJ (R373). In test mode, writing PG_CTL.PINJ makes the next protected write store inverted parity. -/
  | pgCtlPinj (prv : Priv) (pg : Nat)
  /-- PG_CTL_CNTCLR (R373). Writing PG_CTL.CNTCLR clears the page's live counters. -/
  | pgCtlCntclr (prv : Priv) (pg : Nat)
  /-- PG_ERR_CLEAR (R375). Writing 1 to PG_ERR.V clears the recorded error. -/
  | pgErrClear (prv : Priv) (pg : Nat)
  /-- PG_IRQ_RAW_CLEAR (R377). A W1C write of PG_IRQ_RAW clears latched conditions, ending a page-event episode once PG_IRQ_STS is zero. -/
  | pgIrqRawClear (prv : Priv) (pg : Nat) (val : Word)
  /-- PG_SNAP_WRITE (R382). A write of PG_SNAP with GO = 1 queues a snapshot request of the given scope at the snapshot unit. -/
  | pgSnapWrite (prv : Priv) (pg : Nat) (val : Word)
  /-- SNAPSHOT_CAPTURE (R382). At the request's capture edge, every counter of the active captured pages is copied to its holding copy and the snapshot beat recorded. -/
  | snapshotCapture
  /-- PARITY_SCAN (R379). The background scan and the descriptor-start check find parity mismatches, setting PG_PARITY and PG_ERR and making the block refuse descriptors. -/
  | parityScan (pg : Nat) (upset : List (Nat × Nat))
  /-- COUNTER_LOW_READ (R383). A 4-byte read of a counter's or holding copy's low word latches its high word for the next read. -/
  | counterLowRead (prv : Priv) (pg off : Nat)
  /-- BEAT_SLOT_LO_READ (R320). A read of BEAT_SLOTk_LO latches BEAT_SLOTk_HI so that the pair reads one beat. -/
  | beatSlotLoRead (prv : Priv) (k : Nat)
  /-- TRC_LO_READ (R484). A read of a TRC LO register latches its HI register. -/
  | trcLoRead (prv : Priv) (pg off : Nat)
  /-- BEAT_SLOT_WRITE (R320). Under expert unlock, with no live context and the own source in use, a write sets a slot's beat. -/
  | beatSlotWrite (prv : Priv) (k : Nat) (hi : Bool) (val : Word)
  /-- MGR_AQ_CFG_WRITE (R304). A write of MGR_AQ_CFG enables the admin queue, resetting H, P and the event count, or disables it once no admin command is uncompleted. -/
  | mgrAqCfgWrite (prv : Priv) (val : Word)
  /-- REGISTER_WRITE (R367). A write to a register without behaviour of its own is checked for privilege, lock and reservation, then applied at its stated point with fresh parity. -/
  | registerWrite (prv : Priv) (addr : Addr) (size : Nat) (val : Word64)
  /-- VIN56_GOOD (R390). VIN56 judged good starts K1, or the end of K0 does so later. -/
  | vin56Good (sample : BitVec 16)
  /-- VIN56_LOST (R390). VIN56 judged not good asserts COLD, and the ember domain keeps its contents. -/
  | vin56Lost (sample : BitVec 16)
  /-- VSTBY_GOOD (R392). VSTBY judged good starts K0, which clears the ember contents and sets the VSTBY cause count. -/
  | vstbyGood (sample : BitVec 12)
  /-- VSTBY_LOST (R390). VSTBY judged not good asserts COLD including the ember domain and shuts the converters down. -/
  | vstbyLost (sample : BitVec 12)
  /-- EMBER (R410). Kindling phase K0 starts the ember regulator and oscillator. -/
  | ember
  /-- CONVERTERS (R410). Kindling phase K1 soft-starts the converters, reserves base draw, applies the thermal hold and starts the chain relay. -/
  | converters (hot : Bool)
  /-- OPTION_LOADING (R410). Kindling phase K2 reads fuses, samples straps and reads settings into a shadow committed at its end. -/
  | optionLoading (bad : Option Nat)
  /-- DIE_ENUMERATION (R410). Kindling phase K3 enumerates the dies, checks their identities, locks the PLLs, qualifies the clocks and starts trace time. -/
  | dieEnumeration (missing unlocked : Option Nat)
  /-- STACK_TRAINING (R410). Kindling phase K4 trains the stacks and zero-fills or scrubs them. -/
  | stackTraining (bad : Option Nat)
  /-- FIRMWARE_START (R451). Kindling phase K5 chooses, loads and authenticates the image from its source and enables the watchdog. -/
  | firmwareStart
  /-- LINK_TRAINING (R410). Kindling phase K6 trains the ports and enumerates the chain, then the package reaches K7. -/
  | linkTraining (upLock downLock : Bool)
  /-- PWR_DOM_WRITE (R394). A write of PWR_DOMk.REQ is checked and starts a domain transition after reserving base draw. -/
  | pwrDomWrite (prv : Priv) (k : Nat) (val : Word)
  /-- DOMAIN_TRANSITION_DONE (R394). A domain reaches its requested state and BUSY clears; a lowering returns its base-draw difference. -/
  | domainTransitionDone (k : Nat)
  /-- RSTN_PIN (R398). RSTN held low asserts a COLD reset source. -/
  | rstnPin
  /-- WRSTN_PIN (R398). WRSTN held low asserts a WARM reset source. -/
  | wrstnPin
  /-- HOST_LINK_RESET (R423). A link-layer reset request on either Larfort port asserts cause 5, WARM. -/
  | hostLinkReset (port : Nat)
  /-- REFCLK_LOSS (R398). No REFCLK edge for 10 µs asserts cause 11, WARM. -/
  | refclkLoss
  /-- THERMAL_TRIP (R408). A sensor at 115 °C or more for 10 µs holds the package in COLD for 10 s. -/
  | thermalTrip (die temp : Nat)
  /-- TJ_WARNING (R408). From 105 °C the package counts the time and writes a power event at most once per second. -/
  | tjWarning (die temp : Nat)
  /-- RST_PART_GO (R399). Writing RST_PART.GO asserts a partition reset on MASK, or is ignored if the mask is not allowed. -/
  | rstPartGo (prv : Priv) (val : Word)
  /-- RST_DIE_GO (R399). Writing RST_DIE.GO asserts a die reset, widened to PART for a die of a live context. -/
  | rstDieGo (prv : Priv) (val : Word)
  /-- RST_WDTK_WRITE (R409). A write of RST_WDTK kicks the watchdog with 0x6B1C, or asserts WARM at once with any other value at M. -/
  | rstWdtkWrite (prv : Priv) (val : Word)
  /-- WATCHDOG_TIMEOUT (R409). Without a kick for TMO ms, the watchdog asserts WARM. -/
  | watchdogTimeout
  /-- RST_RCLR_WRITE (R415). Writing RST_RCLR.CLR clears every cause counter and the total. -/
  | rstRclrWrite (prv : Priv) (val : Word)
  /-- RESET_SOURCE_RELEASE (R400). A source releases; when none covers the scope record any more, recovery performs the recorded reach. -/
  | resetSourceRelease (cause pg : Nat)
  /-- CLOCK_QUALIFIED (R405). After lock and 4,096 clean cycles, a clock qualifies and its blocks are released. -/
  | clockQualified (die : Nat) (clk : Clock)
  /-- CLOCK_QUAL_LOSS (R406). A clock that loses qualification puts its blocks in BLOCK reset and fails their descriptors with CLK_UNQUAL. -/
  | clockQualLoss (die : Nat) (clk : Clock)
  /-- FLIT_RECEIVE (R418). A received flit is corrected and CRC-checked, then delivered in sequence, or discarded with a NAK. -/
  | flitReceive (port : Nat) (flit : List Byte) (corrected : Bool)
  /-- NAK_RECEIVE (R418). A NAK makes the transmitter resend every flit after ACK, and RETRAIN follows when a flit exceeds RETRYMAX. -/
  | nakReceive (port : Nat) (ack : BitVec 12)
  /-- LINK_DETECT (R419). Far-end detection, repeated every 1 ms, moves a port to EQUALISE when the far end is found. -/
  | linkDetect (port : Nat) (found : Bool)
  /-- LINK_EQUALISE_DONE (R419). Equalisation ends, moving the port to ALIGN or DOWN. -/
  | linkEqualiseDone (port : Nat) (ok : Bool)
  /-- LINK_ALIGN_DONE (R420). Alignment decides the port width, with width fall-back or DOWN, and moves the port to IDENTIFY. -/
  | linkAlignDone (port : Nat) (bad : Word)
  /-- LINK_IDENTIFY_DONE (R424). Identification checks port kind and part type, measures latency and moves the port to ACTIVE or DOWN. -/
  | linkIdentifyDone (port peer : Nat) (part : BitVec 16) (rtt : Nat)
  /-- LINK_RETRAIN_TIMEOUT (R419). A port not back to ACTIVE within 10 ms of RETRAIN goes DOWN and reports LINK_DOWN. -/
  | linkRetrainTimeout (port : Nat)
  /-- LINK_DOWN_RETRY (R419). 100 ms after going DOWN, a port returns to DETECT. -/
  | linkDownRetry (port : Nat)
  /-- HLK_CFG_RETRAIN (R442). Writing HLK_CFG.RETRAIN moves an ACTIVE Larfort port to RETRAIN. -/
  | hlkCfgRetrain (prv : Priv) (port : Nat)
  /-- HLK_CFG_EN (R442). A write of HLK_CFG.EN disables the port and moves its traffic, or enables it into DETECT. -/
  | hlkCfgEn (prv : Priv) (port : Nat) (val : Word)
  /-- RDP_CFG_RETRAIN (R443). Writing RDP_CFG.RETRAIN moves an ACTIVE reduction port to RETRAIN. -/
  | rdpCfgRetrain (prv : Priv) (port : Nat)
  /-- RDP_CFG_EN (R443). A write of RDP_CFG.EN disables or enables a reduction port, and is ignored on a manager's UPP. -/
  | rdpCfgEn (prv : Priv) (port : Nat) (val : Word)
  /-- WATCHED_LINE_SNOOP (R421). Invalidation of a watched host line makes the host-link die reread it and deliver it to the manager die. -/
  | watchedLineSnoop (addr : Addr)
  /-- FRAME_RELAY (R435). A chain frame not addressed to the package is forwarded unchanged by cut-through. -/
  | frameRelay (fromUp : Bool) (frame : List Byte)
  /-- ENUM (R437). An ENUM frame assigns the package its chain address and is passed down with ARG + 1, or hits the address limit. -/
  | enumFrame (fromUp : Bool) (frame : List Byte)
  /-- ENUM_DONE (R437). A package whose down port has no block lock for 1 ms after addressing sends ENUM_DONE up, and the head records the count. -/
  | enumDone (received : Option (List Byte))
  /-- SVC_CFG_ENUM (R437). Writing SVC_CFG.ENUM on the head starts a fresh chain enumeration. -/
  | svcCfgEnum (prv : Priv)
  /-- REG_RD (R435). A REG_RD frame performs a register read at privilege S and answers with RESP, with duplicates answered from the stored response. -/
  | regRd (frame : List Byte)
  /-- REG_WR (R435). A REG_WR frame performs a register write at privilege S once per (SRC, SEQ) and answers with RESP. -/
  | regWr (frame : List Byte)
  /-- CHAIN_RESET (R436). A RESET frame is forwarded if broadcast and then asserts cause 4 with the reach it names. -/
  | chainReset (frame : List Byte)
  /-- IMG (R453). An IMG frame delivers image data into the staging buffer or the boot loader. -/
  | imgFrame (frame : List Byte)
  /-- FWCTL_BEGIN (R453). FWCTL BEGIN starts staging into the non-committed bank. -/
  | fwctlBegin (frame : List Byte)
  /-- FWCTL_STATUS (R452). FWCTL STATUS answers with FW_STS and FW_STG. -/
  | fwctlStatus (frame : List Byte)
  /-- FWCTL_ACTIVATE (R455). FWCTL ACTIVATE schedules an activation at a beat, or activates at once when NOW = 1 and no context is live. -/
  | fwctlActivate (frame : List Byte)
  /-- FWCTL_ABORT (R453). FWCTL ABORT discards staging and sets SSTATE to 0. -/
  | fwctlAbort (frame : List Byte)
  /-- FWCTL_COMMIT (R457). FWCTL COMMIT commits the pending trial, rewriting the boot record and blowing fuses. -/
  | fwctlCommit (frame : List Byte)
  /-- FWCTL_SETWR (R459). FWCTL SETWR writes one settings record into the other slot with SGEN + 1 and updates CSGEN. -/
  | fwctlSetwr (frame : List Byte)
  /-- PING (R434). A PING frame is answered with RESP carrying PWR_KSTS. -/
  | ping (frame : List Byte)
  /-- CHAIN_UP_PORT_LOST (R438). An up port without block lock for 1 ms writes a chain event, and the package keeps its address. -/
  | chainUpPortLost
  /-- FW_CTL_COMMIT (R457). Writing FW_CTL.COMMIT commits the pending trial. -/
  | fwCtlCommit (prv : Priv)
  /-- FW_CTL_ACTNOW (R455). Writing FW_CTL.ACTNOW activates the staged image at once while no context is live. -/
  | fwCtlActnow (prv : Priv)
  /-- FW_CTL_ABORT (R465). Writing FW_CTL.ABORT acts as FWCTL ABORT. -/
  | fwCtlAbort (prv : Priv)
  /-- SMB_READ_VIN (R440). SMBus command 0x01 reads PWR_VIN.VIN. -/
  | smbReadVin
  /-- SMB_READ_VSTBY (R440). SMBus command 0x02 reads PWR_VIN.VSTBY. -/
  | smbReadVstby
  /-- SMB_READ_TJ (R440). SMBus command 0x03 reads PWR_TJ[15:0]. -/
  | smbReadTj
  /-- SMB_READ_DRAW (R440). SMBus command 0x04 reads DRT_DRAW. -/
  | smbReadDraw
  /-- SMB_READ_BUDGET (R440). SMBus command 0x05 reads DRT_BUDGET. -/
  | smbReadBudget
  /-- SMB_READ_KSTS (R440). SMBus command 0x06 reads PWR_KSTS. -/
  | smbReadKsts
  /-- SMB_READ_CAUSE (R440). SMBus command 0x07 reads RST_CAUSE, also without VIN56. -/
  | smbReadCause
  /-- SMB_READ_RTOTAL (R440). SMBus command 0x08 reads RST_RTOTAL, also without VIN56. -/
  | smbReadRtotal
  /-- SMB_READ_STRAP (R440). SMBus command 0x09 reads RST_STRAP[15:0], also without VIN56. -/
  | smbReadStrap
  /-- SMB_READ_CADDR (R440). SMBus command 0x0A reads RST_CADDR[7:0], also without VIN56. -/
  | smbReadCaddr
  /-- SMB_READ_RCNT (R440). SMBus commands 0x10 to 0x1B read RST_RCNTc, also without VIN56. -/
  | smbReadRcnt (c : Nat)
  /-- SMB_READ_IDCODE (R440). SMBus command 0x20 reads the JTAG IDCODE, also without VIN56. -/
  | smbReadIdcode
  /-- SMB_WRITE (R440). Every SMBus write command is answered with NACK. -/
  | smbWrite (code : Byte)
  /-- EXTEST (R441). JTAG instruction EXTEST selects the boundary-scan register for driving the pins. -/
  | extest
  /-- SAMPLE_PRELOAD (R441). JTAG instruction SAMPLE/PRELOAD selects the boundary-scan register for sampling. -/
  | samplePreload
  /-- IDCODE (R441). JTAG instruction IDCODE selects the 32-bit identification register. -/
  | idcode
  /-- BYPASS (R441). JTAG instruction BYPASS, and every undefined code, selects the 1-bit bypass register. -/
  | bypass (code : Byte)
  /-- REGACC_UPDATE (R441). At Update-DR of REGACC with JREG = 1, the TAP issues a 4-byte register access at privilege S. -/
  | regaccUpdate (dr : BitVec 83)
  /-- REGACC_CAPTURE (R441). At Capture-DR of REGACC, DONE, ERR and the read data are loaded. -/
  | regaccCapture
  /-- TRC_FCTL_GO (R473). Writing TRC_FCTL.GO freezes the package state. -/
  | trcFctlGo (prv : Priv) (val : Word)
  /-- TRC_FCTL_THAW (R476). Writing TRC_FCTL.THAW thaws the package state. -/
  | trcFctlThaw (prv : Priv) (val : Word)
  /-- TRC_FCTL_SGO (R473). Writing TRC_FCTL.SGO freezes the state of slot SLOT. -/
  | trcFctlSgo (prv : Priv) (val : Word)
  /-- TRC_FCTL_STHAW (R476). Writing TRC_FCTL.STHAW thaws the state of slot SLOT. -/
  | trcFctlSthaw (prv : Priv) (val : Word)
  /-- FRZN_EDGE (R477). A falling edge on FRZN with PINEN = 1 freezes the package state. -/
  | frznEdge
  /-- TRC_CTL_WRITE (R482). A write of TRC_CTL enables the trace unit, checking the ring and resetting WPTR, or disables it with a flush. -/
  | trcCtlWrite (prv : Priv) (die : Nat) (val : Word)
  /-- TRACE_FLUSH (R482). With no further record for 1 µs, the unit flushes an odd record padded with a PAD record. -/
  | traceFlush (die : Nat)
  /-- TRACE_LINE_WRITE (R483). A buffered 64-byte line of records is written to the ring, or discarded and counted if the write fails. -/
  | traceLineWrite (die : Nat) (ok : Bool)
  /-- LINK_ALIGNMENT_LOST (R419). A port in ACTIVE whose receiver loses lane alignment or flit alignment enters RETRAIN. -/
  | linkAlignmentLost (port : Nat)
  /-- FLASH_PROGRAM_DONE (R453). A staged block's flash erase and program (about 28 ms) completes, freeing its staging-buffer place; after the last block the full R449 check of the target bank runs and sets SSTATE 3 or 4 with a firmware event. -/
  | flashProgramDone
  /-- APERTURE_PLACEMENT (R422). The host firmware's configuration exchange over the Larfort link places the supervisor and user register apertures, setting HLK_APB. -/
  | aperturePlacement (sapb : BitVec 7) (uapb : BitVec 2)
  deriving DecidableEq, Repr

end Sys2Proof
end

