-- ==== Sys2Proof/Decode.lean ====
section
/-! DEFINITION. Decode: spec/opcode_table.json gives its rows no bits (`fields` is empty in every row), so no word spells a
command. -/

set_option Elab.async false

namespace Sys2Proof

/-- The command that a word spells by the table's bits: none, since no row of the table gives bits. -/
def decodeTableWord (nbits w : Nat) : Option Instr :=
  match nbits, w with
  | _, _ => none

end Sys2Proof
end

