-- ==== Sys2Proof/Config.lean ====
section
/-! DEFINITION. What an implementation fixes and what the manual leaves open: the free values (opaque, without a body)
and the cryptographic functions the manual names by their standards (log 10, 12). -/

set_option Elab.async false

namespace Sys2Proof.Config

/-- Free bytes: the n-th value the manual leaves unspecified in memory (log 10). -/
opaque freeByte : Nat → BitVec 8
/-- Free accumulator elements: the n-th element the manual leaves unspecified in a live slot (log 10). -/
opaque freeInt : Nat → Int
/-- Free result of a correctly rounded function where the enclosures of this model do not decide (log 11). -/
opaque freeNat : Nat → Nat

/-- Which neighbour a correctly rounded function takes where the enclosures do not decide, by the lower bound (log 11). -/
opaque roundUp : Int → Nat → Bool
/-- The result of an operation whose value the manual does not state for its operands, by their codes (log 43). -/
opaque unstated : Nat → Nat → Nat

/-- SHA-384 (FIPS 180-4) of a byte string: named by the manual, not defined there (log 12). -/
opaque sha384 : List (BitVec 8) → BitVec 384
/-- ECDSA P-384 verification (FIPS 186-5): key, signature, message (log 12). -/
opaque ecdsaP384 : List (BitVec 8) → List (BitVec 8) → List (BitVec 8) → Bool
/-- LMS verification (RFC 8554, SP 800-208): key, signature, message (log 12). -/
opaque lms : List (BitVec 8) → List (BitVec 8) → List (BitVec 8) → Bool

/-- Which settings records the new firmware knows and how it migrates one: not defined by the manual for records
beyond Table 18.6 (log 12). Answers the migrated data of a record, by identifier and old version. -/
opaque migrate : Nat → Nat → List (BitVec 8) → List (BitVec 8)
/-- The VER of a settings record that a firmware VERSION knows, 0 for a record it does not know (log 12). -/
opaque knownVer : Nat → Nat → Nat
/-- The settings records that a firmware VERSION needs (log 12). -/
opaque neededIds : Nat → List Nat

end Sys2Proof.Config
end

