-- ==== Sys2Proof/Machine/State.lean ====
section
/-! DEFINITION. The state of the package: every register, queue, buffer, counter, mode and pin the manual names, as plain
data. Numerous things (bytes, pages, cores, engines, sync objects) are sparse maps in canonical form. -/

set_option Elab.async false

namespace Sys2Proof.Machine

/-- Why the model stops with a fault: no command of this block does (a block has no exception entry; every failure the
manual describes is an effect on the state). -/
inductive Fault where
  /-- No meaning raises it: the manual gives every failure an effect. Safe. -/
  | unreachable
  deriving DecidableEq, Repr

/-- Why the model refuses a command. -/
inductive Refusal where
  /-- The command has no meaning yet; raised by Dispatch alone. Safe. -/
  | notModelled (mnemonic : String)
  deriving DecidableEq, Repr

/-- The beat: STEP and PHASE (R305; bits [63:56] are always 0). -/
structure Beat where
  step : BitVec 40
  phase : BitVec 16
  deriving DecidableEq, Repr

/-- Outcome codes of descriptors and commands (Table 11.4). -/
inductive Result where
  | done
  | doneBeforeAbort
  | aborted
  | failed
  | parked
  | doneAfterReplay
  deriving DecidableEq, Repr

/-- The status with which a descriptor ends (R281). -/
structure Status where
  res : Result
  code : BitVec 16
  addr : Addr
  /-- A partial write of an uncorrectable line was refused (R347); with ISO_ERR, the block itself refused its descriptor (R403). -/
  pw : Bool := false
  deriving DecidableEq, Repr

/-- A sync object: 32-bit count, 16-bit epoch (R274). -/
structure SyncObj where
  count : BitVec 32
  epoch : BitVec 16
  deriving DecidableEq, Repr

/-- PG_ERR (R375). -/
structure PgErr where
  v : Bool
  more : Bool
  code : BitVec 16
  off : BitVec 12
  deriving DecidableEq, Repr

/-- One register page (R365 to R384): the common registers, configuration words over their reset values, counters. -/
structure Page where
  unl : Bool
  arm : Bool
  pinj : Bool
  early : Bool
  err : PgErr
  irqRaw : BitVec 6
  irqEn : BitVec 6
  badPar : List Nat
  /-- The mismatching words that a check has found (R380). -/
  found : List Nat
  snapScope : BitVec 3
  snapBusy : Nat
  snapBeat : Beat
  latch : Option (Nat × Word)
  cfg : SMap Word
  cnt : SMap Word64
  hold : SMap Word64
  deriving DecidableEq, Repr

/-- What a sequencer core is doing (R263 to R272). -/
inductive CoreRun where
  /-- Idle: no list (R271, R282). -/
  | idle
  /-- Ready to execute the word at PC. -/
  | running
  /-- An ISSUE pending on an engine's window, before admission (R265). -/
  | issuing
  /-- Stalled on a WAIT (R266). -/
  | waiting
  /-- A SIGNAL with DRAIN = 1 waiting for the core's descriptors (R267). -/
  | draining
  /-- Stalled on a WAITBEAT (R268). -/
  | onBeat
  /-- An END waiting for the core's descriptors (R271). -/
  | ending
  /-- Stopped on a dispatch fault or with its block (R272, R404). -/
  | stopped
  deriving DecidableEq, Repr

/-- A sequencer core (R263). -/
structure Core where
  pc : Addr
  base : Vector Addr 8
  lc : Vector Word 4
  lstep : BitVec 40
  run : CoreRun
  /-- The dispatch word on which the core is stalled (R266 to R268, R271). -/
  word : List Byte
  deriving DecidableEq, Repr

/-- The walk of a KVREAD work entry (R246): LEN, BASE and CAP of the record it read, and the pages it has pinned, in order. -/
structure Walk where
  len : Nat
  base : Nat
  cap : Nat
  pins : List Nat
  deriving DecidableEq, Repr

/-- How far a running descriptor has come. Fields not used by its operation stay at their start values. -/
structure Progress where
  /-- Passes completed by each lane group (R102) or row group (R156); tiles deposited. -/
  groups : List Nat
  /-- Groups that hold a pass credit. -/
  held : List Nat
  /-- Output tiles drained or retired, REDUCE level, or stream chunks landed. -/
  tiles : Nat
  /-- STREAM: chunks started; KV walks: next work entry; PKGSUM: stage. -/
  pos : Nat
  /-- REDUCE: the parent's grant has come; PKGSUM: the result has been uploaded. -/
  granted : Bool
  /-- Sync count and epoch recorded at the start (R358), or RSYNC at the start of a REDUCE. -/
  c0 : BitVec 32
  e0 : BitVec 16
  /-- PKGSUM: the parent's grant (address, format, N). -/
  grant : Option (Addr × Byte × Nat)
  /-- PKGSUM: child arrivals, with the child's announced DST. -/
  arrived : List (Nat × Addr)
  /-- The random words this descriptor asked for have been served (R199). -/
  served : Bool
  /-- Lane-stream draws by their value of e div 4 (or e div 2, domain 0x01), in the order of first request (R188). -/
  draws : List (Nat × BitVec 64)
  /-- Counts kept until the end (parked work entries, flags). -/
  parked : Nat
  /-- FTA: ragged retire as sampled at the start (R88, R104, R367). -/
  ragged : Bool
  /-- FTA: weight tiles processed and counted; BWA: output tiles passed and counted (R103, R157). -/
  wdone : Nat
  /-- KVREAD: the walk that waits on a page whose PIN is 255 (R249). -/
  walk : Option Walk
  /-- DMA_CFG.PORT at the start of a stream (R360). -/
  port : Nat
  deriving DecidableEq, Repr

/-- A contribution to a statistics entry (R60, R219): its key, EFLG bits, the W16 maximum, the integer fields of Table 9.4 in
their order (L, NOUTX, NCLMP, NP2R, NOVFR, NREF, NNAR, NUPD, NNARV), the sums S, SSE, WSQ, GSQ, USQ in units of 2^−412. -/
structure Contrib where
  stream : BitVec 32
  eflg : BitVec 2
  rmax : BitVec 16
  ints : List Nat
  sums : List Nat
  deriving DecidableEq, Repr

/-- A descriptor in an issue window (R277): the copied descriptor and what its run needs. -/
structure Entry where
  desc : List Byte
  addr : Addr
  core : Nat
  ctx : Nat
  credits : Nat
  started : Bool
  startBeat : Beat
  tmo : Bool
  prog : Progress
  /-- Trouble flags raised, reported at completion (R75). -/
  flags : List (BitVec 16)
  contrib : Option Contrib
  ended : Option Status
  deriving DecidableEq, Repr

/-- An ISSUE pending on a window (R265, R150): core, descriptor address, FCLK time at which it became pending. -/
structure Pend where
  core : Nat
  addr : Addr
  time : Nat
  deriving DecidableEq, Repr

/-- An engine: its issue window of at most 8 descriptors and the ISSUEs pending on it. -/
structure Engine where
  win : List Entry
  pend : List Pend
  deriving DecidableEq, Repr

/-- An element of an accumulator tile: integer, NaR flag, overflow flag (R105). -/
structure Elem where
  val : Int
  nar : Bool
  ovf : Bool
  deriving DecidableEq, Repr

/-- A live or drained tile of a store: its class, handle, elements over the zero element (R105, R110). A drained tile keeps
its flags here (the tag memory); its limbs are read from the drain region. -/
structure Tile where
  cls : Nat
  handle : BitVec 24
  drained : Bool
  elems : SMap Elem
  deriving DecidableEq, Repr

/-- An accumulator store (R105): the class in force, its tiles by key class × 64 + index, the split in force (R113). -/
structure Store where
  cls : Option Nat
  tiles : SMap Tile
  split : Word
  deriving DecidableEq, Repr

/-- A trouble flag or counted flag of a step: code, TAG and STREAM (none for a low miss, R71, R75), attempt, raised in phase
0xFFFF (R222). -/
structure Flag where
  code : BitVec 16
  tag : Option (BitVec 32)
  stream : Option (BitVec 32)
  att : Nat
  commit : Bool
  deriving DecidableEq, Repr

/-- The step in progress of a context (R221 to R230). -/
structure StepRec where
  step : BitVec 40
  att : Nat
  q : Nat
  slot : Nat
  /-- The non-zero entries of the program table: global core and list start (R282). -/
  entries : List (Nat × Addr)
  /-- The batch array (0 for none), NSEQ, the bucket bounds and BOUT (R255). -/
  batch : Addr
  nseq : Nat
  bnd : List Nat
  bout : Addr
  /-- LEN of each batch slot before the step (R255). -/
  lens : List (Nat × Nat)
  flags : List Flag
  /-- The lowest code of the first attempt's flags in the tree as far as it has reported them, and of the commit's (R223). -/
  treeCode : BitVec 16
  /-- Trackers found low in this attempt (R71). -/
  judged : List Addr
  nue : Nat
  ueAddr : Addr
  /-- The error that failed the attempt or the step, once known. -/
  failed : Option (BitVec 16)
  /-- The failing address reported with that error. -/
  failAddr : Addr
  /-- Commit has been decided (R501). -/
  decided : Bool
  /-- The attempt is the forced one (R227). -/
  forced : Bool
  /-- A replay has been decided and waits for the replay service (R224). -/
  replaying : Bool
  /-- The attempt's lists have been started (R276, R282). -/
  begun : Bool
  /-- The beat reported done, once the report has been made (R283, R428). -/
  reported : Option Beat
  /-- An ABORT waiting for the root's answering marker (R501): its queue and slot. -/
  abortWait : Option (Nat × Nat)
  deriving DecidableEq, Repr

/-- A context (R299). -/
structure Ctx where
  block : List Byte
  seed : Word64
  slot : Nat
  syncBase : Nat
  lane : Bool
  rseq : BitVec 32
  queue : Nat
  /-- Addresses of tracker records whose USED bit a descriptor of the context has set (R67). -/
  used : List Addr
  step : Option StepRec
  /-- No further step until the host restores a context (R227, R231). -/
  dead : Bool
  /-- The last STEP was aborted: the next one runs the step again (R296). -/
  redo : Bool
  /-- Array domains banked while idle (R396). -/
  idleBanked : Bool
  deriving DecidableEq, Repr

/-- An accepted host command (R286) and how far its billets have come (R294). -/
structure Cmd where
  slot : Nat
  line : List Byte
  order : Nat
  started : Bool
  pos : Nat
  count : Nat
  aux : Nat
  deriving DecidableEq, Repr

/-- A host queue (R284 to R289, R503). -/
structure Queue where
  live : Bool
  ownU : Bool
  octx : Nat
  cmd : Addr
  cpl : Addr
  ev : Addr
  ctl : Addr
  logN : Nat
  logEv : Nat
  head : Nat
  phase : Bool
  evCount : BitVec 32
  evCons : BitVec 32
  lost : BitVec 32
  /-- Records lost since the queue was enabled (MGR_AQ_STS.EVLOST). -/
  lostAll : Nat
  /-- ETYPEs of the records written and not yet consumed, oldest first (R291). -/
  unread : List Byte
  stopped : Bool
  closing : Bool
  cmds : List Cmd
  /-- TAG last completed in each slot (R296), plus one; 0 for none. -/
  lastTag : SMap Nat
  deriving DecidableEq, Repr

/-- A fired checkpoint copy, billeted at the moment it fired (R317). -/
structure FiredCopy where
  ctx : Nat
  slot : Nat
  idx : Nat
  q : Nat
  tag : BitVec 32
  src : Addr
  dst : Addr
  len : Nat
  hold : Bool
  pos : Nat
  order : Nat
  deriving DecidableEq, Repr

/-- An entry of a slot's schedule table (R315, R316). -/
structure SchedEnt where
  target : Beat
  anchor : BitVec 40
  kind : Nat
  kargs : List Byte
  q : Nat
  tag : BitVec 32
  ctx : Nat
  fired : Bool
  deriving DecidableEq, Repr

/-- A prefetch transfer in flight (R355). -/
structure Prefetch where
  ctx : Nat
  slot : Nat
  idx : Nat
  q : Nat
  tag : BitVec 32
  src : Addr
  dst : Addr
  len : Nat
  sync : BitVec 16
  need : BitVec 16
  add : BitVec 32
  step : BitVec 40
  late : Bool
  /-- Compute dies whose DMA engine 7 holds its credit. -/
  held : List Nat
  deriving DecidableEq, Repr

/-- A page request raised by a KVWRITE (R247, R248): the engine, the entry's address in its window, the list entry. -/
structure PageReq where
  u : Nat
  desc : Addr
  ctx : Nat
  seq : Nat
  lh : Nat
  pos : Nat
  copy : Bool
  deriving DecidableEq, Repr

/-- A flit kept for replay: sequence number, control or data, payload, times sent (R418). -/
structure SentFlit where
  seq : BitVec 12
  ctl : Bool
  bytes : List Byte
  sent : Nat
  deriving DecidableEq, Repr

/-- A Larfort or reduction port (R417 to R425). -/
structure Port where
  tstate : Nat
  deg : Bool
  lanes : Nat
  peer : Nat
  sub : Nat
  lat : BitVec 16
  txSeq : BitVec 12
  rxSeq : BitVec 12
  nak : Bool
  kept : Bool
  replay : List SentFlit
  deriving DecidableEq, Repr

/-- The service chain (R433 to R438). -/
structure Chain where
  relay : Bool
  upLock : Bool
  downLock : Bool
  cstate : Nat
  cnt : Nat
  answered : List (Byte × BitVec 16 × List Byte)
  deriving DecidableEq, Repr

/-- The ember domain (R392, R401, R413, R415). -/
structure Ember where
  rcnt : SMap Nat
  rtotal : Nat
  k2r : Bool
  reach : Nat
  causes : BitVec 12
  straps : BitVec 12
  caddr : Option (BitVec 6)
  deriving DecidableEq, Repr

/-- An asserted reset source: cause, reach (0 COLD to 4 BLOCK), dies covered, page for BLOCK (R398). -/
structure Source where
  cause : Nat
  reach : Nat
  dies : List Nat
  pg : Nat
  deriving DecidableEq, Repr

/-- The reset controller's episode (R400). -/
structure Rst where
  asserted : List Source
  latch : Option Nat
  scope : List Nat
  causes : BitVec 12
  blocks : List Nat
  deriving DecidableEq, Repr

/-- Kindling (R410 to R412). -/
structure Kind where
  phase : Nat
  halt : Bool
  hcode : Nat
  hdie : Nat
  /-- Converters on: the domains are powered (K1 done). -/
  pwr : Bool
  /-- Clocks qualified (K3 done). -/
  qual : Bool
  /-- Options of K2 in force (R411). -/
  opts : Bool
  /-- Settings records that K2 applied: ID and value (R458). -/
  settings : List (Nat × Nat)
  /-- The kindling in progress follows a COLD reset. -/
  cold : Bool
  /-- Dies being rekindled after PART or DIE; none for the whole package. -/
  scope : Option (List Nat)
  /-- The phase to which the kindling of `scope` returns: 7, or that of the package's own kindling (Table 16.5). -/
  back : Nat
  /-- A K2 restart is wanted when the episode ends (R411). -/
  k2r : Bool
  deriving DecidableEq, Repr

/-- A power domain (R393, R394): requested and present state (0 off, 1 active, 2 banked), transition in progress. -/
structure Dom where
  req : BitVec 2
  state : BitVec 2
  busy : Bool
  deriving DecidableEq, Repr

/-- Supplies and sensors (R389, R408, R414). -/
structure Supply where
  vinGood : Bool
  vstbyGood : Bool
  vin : BitVec 16
  vstby : BitVec 12
  tj : BitVec 8
  tdie : BitVec 8
  /-- K1 has found a sensor above 95 °C and waits (R408, R490). -/
  hot : Bool
  deriving DecidableEq, Repr

/-- Input pins (R398, R413, R477) and the pins the package drives as lists of events in `out`. -/
structure Pins where
  straps : BitVec 12
  rstn : Bool
  wrstn : Bool
  refclk : Bool
  deriving DecidableEq, Repr

/-- Fuses (R450). `arb` is the number of anti-rollback fuses blown. -/
structure Fuses where
  part : BitVec 16
  uid : BitVec 128
  digests : Vector (BitVec 384) 4
  revoked : BitVec 4
  arb : Nat
  deriving DecidableEq, Repr

/-- A credit request of an engine (R327): its page, the descriptor's address, the lane group or row group that asks for a pass;
none for the descriptor's class or fixed part. -/
structure CreditReq where
  u : Nat
  addr : Addr
  group : Option Nat
  deriving DecidableEq, Repr

/-- A request at a die store: a block of 16 for a hearth pool, or the credits of a DMA descriptor (R327). -/
inductive DieReq where
  | pool (hearth : Nat)
  | dma (r : CreditReq)
  deriving DecidableEq, Repr

/-- Draught (R323 to R338). -/
structure Draught where
  budget : Option (BitVec 19)
  lim : Option (BitVec 19)
  sen : Bool
  dieFree : SMap Nat
  poolFree : SMap Nat
  inflight : SMap Nat
  returning : SMap Nat
  waiting : List Nat
  floorUsed : SMap Nat
  domWait : List Nat
  act : Bool
  rcv : Bool
  /-- A surge has ended and recovery begins when committed reaches B (R326). -/
  owed : Bool
  /-- The old budgets of lowerings whose 10 ms still run, oldest first (R325). -/
  widen : List Nat
  overRun : Nat
  half : Bool
  draw : BitVec 20
  /-- Requests waiting at each hearth pool and at each die store, oldest first (R329). -/
  poolQ : SMap (List CreditReq)
  dieQ : SMap (List DieReq)
  deriving DecidableEq, Repr

/-- A report received on a DNP (R428), by its 60 payload bytes. -/
structure Report where
  att : Nat
  done : Bool
  target : Option Beat
  failed : Bool
  sub : Nat
  beat : Beat
  nflag : List Nat
  lcode : BitVec 16
  fcode : BitVec 16
  deriving DecidableEq, Repr

/-- The beat unit (R306 to R320). -/
structure BeatUnit where
  slots : SMap Beat
  /-- Beats decided or received whose delay still runs. -/
  next : SMap Beat
  actsrc : BitVec 2
  held : Bool
  aligned : Bool
  pinSeen : Bool
  reports : SMap (Option Report)
  /-- The package's own done report on the root (R307). -/
  own : Option Report
  /-- The STEP that CTX_RESTORE set on a worker's tree slot, until the next marker governs (R309). -/
  restored : Option (BitVec 40)
  /-- The beat received last came late and is still to be applied (R311). -/
  late : Bool
  deriving DecidableEq, Repr

/-- A freeze state (R472, R485). -/
structure Freeze where
  v : Bool
  more : Bool
  src : BitVec 3
  err : BitVec 16
  beat : Beat
  deriving DecidableEq, Repr

/-- A trace unit (R479 to R484). -/
structure TraceUnit where
  wptr : Nat
  full : Bool
  buf : List (List Byte)
  lost : Nat
  deriving DecidableEq, Repr

/-- An activation in progress (R456): the slot whose beat it holds, and the SCHED entry that fired it: queue, context, TAG and
index. -/
structure Activation where
  hold : Option Nat
  fired : Option (Nat × Nat × BitVec 32 × Nat)
  deriving DecidableEq, Repr

/-- Firmware and staging (R451 to R459, R465). -/
structure Firmware where
  sstate : Nat
  target : Bool
  nblk : Nat
  fromHost : Bool
  manifestOk : Bool
  part : SMap Byte
  got : List (Nat × Nat)
  present : List Nat
  programming : List Nat
  staged : Word64
  arm : Bool
  version : Word64
  runb : Bool
  chain : Bool
  trial : Bool
  csgen : BitVec 32
  boot : SMap Byte
  /-- 1,024-byte pieces of the K5 image received. -/
  bootGot : List Nat
  bootEnd : Bool
  /-- The activation in progress (R456). -/
  activating : Option Activation
  deriving DecidableEq, Repr

/-- JTAG (R441): instruction, REGACC data register, boundary-scan register. -/
structure Jtag where
  ir : Byte
  dr : BitVec 83
  /-- ERR and the read data of the last REGACC, until its capture. -/
  res : Option (Bool × Option Word)
  bsr : Nat
  deriving DecidableEq, Repr

/-- What leaves the package (log 15). -/
inductive Out where
  | frame (up : Bool) (bytes : List Byte)
  | marker (port : Nat) (payload : List Byte)
  | flit (port : Nat) (bytes : List Byte)
  | delivered (port : Nat) (payload : List Byte)
  | grant (port : Nat) (addr : Addr) (fmt : Byte) (count : Nat)
  | upload (port : Nat) (addr : Addr) (bytes : List Byte) (dst : Addr)
  | errorFlit (port : Nat)
  | broadcast (port : Nat) (addr : Addr) (bytes : List Byte)
  | beatFrame (bytes : List Byte)
  /-- The data of an SMBus read, and the PEC that a Read Word or Block Read gives where the host asks for it (R440). -/
  | smbus (data : List Byte) (pec : Option Byte)
  | smbusNack
  | read (value : Word64)
  | refused
  deriving DecidableEq, Repr

/-- The state of the package. -/
structure State where
  pending : List Instr
  fuses : Fuses
  shadow : Fuses
  pins : Pins
  supply : Supply
  ember : Ember
  rst : Rst
  kind : Kind
  doms : SMap Dom
  lostClk : List (Nat × Clock)
  pages : SMap Page
  ownBad : List (Nat × Nat)
  queues : SMap Queue
  order : Nat
  rr : Nat
  copies : List FiredCopy
  held : List (Addr × List Byte)
  ctxs : SMap (Option Ctx)
  psync : SMap SyncObj
  psnap : SMap SyncObj
  lsync : SMap SyncObj
  lsnap : SMap SyncObj
  cores : SMap Core
  engines : SMap Engine
  stores : SMap Store
  /-- Lane states (R186), over the states derived from seed, generation and lane (R187). -/
  lanes : SMap (BitVec 128)
  /-- Lane shadows copied at the step's start (R191). -/
  shadows : SMap (BitVec 128)
  drt : Draught
  beat : BeatUnit
  sched : SMap (Option SchedEnt)
  prefetch : List Prefetch
  pageReqs : List PageReq
  mem : SMap Byte
  ue : List Nat
  ueSeen : List Nat
  scrubPos : SMap Nat
  ports : SMap Port
  chain : Chain
  jtag : Jtag
  flash : SMap Byte
  fw : Firmware
  trc : SMap TraceUnit
  freeze : SMap Freeze
  snapQ : List (Nat × Nat)
  out : List Out
  /-- The model's own: how many free values have been taken (log 10). -/
  fresh : Nat
  /-- The XRE_DRAIN in force on a hearth whose register has been written while one of its tiles is drained (R132). -/
  drains : SMap Word
  /-- Errors that the code still corrects: the symbols in error of a stack line, the bits of a hearth word, by its address (R343, R345). -/
  errs : SMap (List Nat)
  deriving DecidableEq, Repr

/-- The beat of reset, (0, 0x0000) (R306). -/
def Beat.zero : Beat := { step := 0, phase := 0 }

def SyncObj.zero : SyncObj := { count := 0, epoch := 0 }

def PgErr.none : PgErr := { v := false, more := false, code := 0, off := 0 }

/-- A page at reset (R371 to R384). -/
def Page.reset : Page :=
  { unl := false, arm := false, pinj := false, early := false, err := PgErr.none, irqRaw := 0, irqEn := 0x0F,
    badPar := [], found := [], snapScope := 0, snapBusy := 0, snapBeat := Beat.zero, latch := none,
    cfg := [], cnt := [], hold := [] }

/-- A core before any list (log 8). -/
def Core.reset : Core :=
  { pc := 0, base := Vector.replicate 8 0, lc := Vector.replicate 4 0, lstep := 0, run := .idle, word := [] }

def Progress.start : Progress :=
  { groups := [], held := [], tiles := 0, pos := 0, granted := false, c0 := 0, e0 := 0, grant := none, arrived := [],
    served := false, draws := [], parked := 0, ragged := false, wdone := 0, walk := none,
    port := 0 }

def Engine.empty : Engine := { win := [], pend := [] }

def Elem.zero : Elem := { val := 0, nar := false, ovf := false }

/-- A store that holds no class (R110). -/
def Store.empty : Store := { cls := none, tiles := [], split := 0 }

/-- A queue that is not live (R286: H = 0, P = 1 when enabled). -/
def Queue.none : Queue :=
  { live := false, ownU := false, octx := 0xFF, cmd := 0, cpl := 0, ev := 0, ctl := 0, logN := 4, logEv := 4, head := 0,
    phase := true, evCount := 0, evCons := 0, lost := 0, lostAll := 0, unread := [], stopped := false, closing := false, cmds := [],
    lastTag := [] }

/-- A port before training (R442, R443). -/
def Port.reset : Port :=
  { tstate := 0, deg := false, lanes := 0, peer := 0, sub := 0, lat := 0, txSeq := 0, rxSeq := 0xFFF, nak := false,
    kept := false, replay := [] }

def Chain.reset : Chain :=
  { relay := false, upLock := false, downLock := false, cstate := 0, cnt := 0, answered := [] }

def Ember.reset : Ember :=
  { rcnt := [], rtotal := 0, k2r := false, reach := 0, causes := 0, straps := 0, caddr := none }

def Rst.reset : Rst := { asserted := [], latch := none, scope := [], causes := 0, blocks := [] }

/-- Before either supply is good (R390). -/
def Kind.reset : Kind :=
  { phase := 0, halt := false, hcode := 0, hdie := 0, pwr := false, qual := false, opts := false, settings := [],
    cold := true, scope := none, back := 7, k2r := false }

def Dom.off : Dom := { req := 1, state := 0, busy := false }

def Supply.reset : Supply :=
  { vinGood := false, vstbyGood := false, vin := 0, vstby := 0, tj := 0, tdie := 0, hot := false }

/-- Straps at the internal biases of R489 (HLW 1, DRT 7), pins released (log 5). -/
def Pins.reset : Pins := { straps := 0x1E0, rstn := true, wrstn := true, refclk := true }

/-- The fuses of the modelled unit (log 4). -/
def Fuses.reset : Fuses :=
  { part := 0x9172, uid := 0, digests := Vector.replicate 4 0, revoked := 0, arb := 0 }

def Draught.reset : Draught :=
  { budget := none, lim := none, sen := true, dieFree := [], poolFree := [], inflight := [], returning := [], waiting := [],
    floorUsed := [], domWait := [], act := false, rcv := false, owed := false, widen := [], overRun := 0, half := false,
    draw := 0, poolQ := [], dieQ := [] }

def BeatUnit.reset : BeatUnit :=
  { slots := [], next := [], actsrc := 1, held := false, aligned := false, pinSeen := false, reports := [],
    own := none, restored := none, late := false }

def Freeze.reset : Freeze := { v := false, more := false, src := 0, err := 0, beat := Beat.zero }

def TraceUnit.reset : TraceUnit := { wptr := 0, full := false, buf := [], lost := 0 }

def Firmware.reset : Firmware :=
  { sstate := 0, target := false, nblk := 0, fromHost := false, manifestOk := false, part := [], got := [], present := [],
    programming := [], staged := 0, arm := false, version := 0, runb := false, chain := false, trial := false, csgen := 0,
    boot := [], bootGot := [], bootEnd := false, activating := none }

/-- JTAG after Test-Logic-Reset: IDCODE selected (log 31). -/
def Jtag.reset : Jtag := { ir := 0x02, dr := 0, res := none, bsr := 0 }

/-- The package before its supplies are judged good: nothing has begun, every register at its reset value (log 3). -/
def State.reset : State :=
  { pending := [], fuses := Fuses.reset, shadow := Fuses.reset, pins := Pins.reset, supply := Supply.reset,
    ember := Ember.reset, rst := Rst.reset, kind := Kind.reset, doms := [], lostClk := [], pages := [], ownBad := [],
    queues := [], order := 0, rr := 0, copies := [], held := [], ctxs := [], psync := [], psnap := [],
    lsync := [], lsnap := [], cores := [], engines := [], stores := [], lanes := [], shadows := [], drt := Draught.reset,
    beat := BeatUnit.reset, sched := [], prefetch := [], pageReqs := [], mem := [], ue := [], ueSeen := [],
    scrubPos := [], ports := [], chain := Chain.reset, jtag := Jtag.reset, flash := [], fw := Firmware.reset, trc := [],
    freeze := [], snapQ := [], out := [], fresh := 0, drains := [], errs := [] }

end Sys2Proof.Machine
end

