-- ==== Sys2Proof/Machine/Flags.lean ====
section
/-! DEFINITION. Codes, comparisons and conditions: error codes and outcomes (Table 11.4), serial-number comparison (R319),
the wait condition of sync objects (R274), PHASE bits of lines, statuses. -/

set_option Elab.async false

namespace Sys2Proof.Machine

/-! Error codes (Table 11.4). -/

def eMemUe : BitVec 16 := 0x0001
def eIso : BitVec 16 := 0x0002
def eCfgParity : BitVec 16 := 0x0003
def eScaleMiss : BitVec 16 := 0x0004
def eOutlOvf : BitVec 16 := 0x0005
def eWidthRefused : BitVec 16 := 0x0006
def eNoPage : BitVec 16 := 0x0007
def eGeomChanged : BitVec 16 := 0x0008
def eClkUnqual : BitVec 16 := 0x0009
def eDrtTimeout : BitVec 16 := 0x000A
def eLinkDown : BitVec 16 := 0x000B
def eAuthFail : BitVec 16 := 0x000C
def eBusErr : BitVec 16 := 0x000D

/-- The OUTCOME code (Table 11.4). -/
def Result.code : Result → Nat
  | .done => 0
  | .doneBeforeAbort => 1
  | .aborted => 2
  | .failed => 3
  | .parked => 4
  | .doneAfterReplay => 5

/-- A failure met by an access: error code and address. -/
structure Fail where
  code : BitVec 16
  addr : Addr
  /-- A partial write of an uncorrectable line was refused (R347). -/
  pw : Bool := false
  deriving DecidableEq, Repr

/-- `good` of what `x` answers, `bad` of its failure. -/
def onOk {α β : Type} (x : Except Fail α) (bad : Fail → β) (good : α → β) : β :=
  match x with
  | .error f => bad f
  | .ok a => good a

def Fail.bus (a : Nat) : Fail := { code := eBusErr, addr := BitVec.ofNat 48 a }

/-- The status of a descriptor that completes DONE with warning code `c` (0 for none). -/
def Status.ok (c : BitVec 16) : Status := { res := .done, code := c, addr := 0 }

def Status.fail (f : Fail) : Status := { res := .failed, code := f.code, addr := f.addr, pw := f.pw }

def Status.abort : Status := { res := .aborted, code := 0, addr := 0 }

/-- Serial-number comparison of R319: `a` is after `b` for `n`-bit counters. -/
def after (n a b : Nat) : Bool :=
  let d := (a + 2 ^ n - b % 2 ^ n) % 2 ^ n
  decide (0 < d ∧ d < 2 ^ (n - 1))

/-- The 56-bit value of a beat, STEP above PHASE (R305). -/
def Beat.toNat (b : Beat) : Nat := b.step.toNat * 65536 + b.phase.toNat

/-- The beat of a 64-bit value (R305: bits [63:56] must be 0, checked where a beat is received). -/
def Beat.ofNat (v : Nat) : Beat := { step := BitVec.ofNat 40 (v / 65536), phase := BitVec.ofNat 16 v }

/-- `b` is after `a`: STEP by R319, then PHASE within one step (R268). -/
def Beat.isAfter (b a : Beat) : Bool :=
  if b.step = a.step then decide (a.phase.toNat < b.phase.toNat) else after 40 b.step.toNat a.step.toNat

/-- The beat `b` reaches or passes the target `t`; a target exactly 2^39 steps ahead counts as reached (Table 12.4). -/
def Beat.reaches (b t : Beat) : Bool := !(t.isAfter b)

/-- The phase of commit (R208). -/
def phaseCommit : BitVec 16 := 0xFFFF

/-- The condition of a wait on a sync object (R274). -/
def waitMet (o : SyncObj) (count epochLo : Nat) : Bool :=
  let de := (o.epoch.toNat + 256 - epochLo % 256) % 256
  let dc := (o.count.toNat % 2 ^ 24 + 2 ^ 24 - count % 2 ^ 24) % 2 ^ 24
  decide (1 ≤ de ∧ de ≤ 127) || (decide (de = 0) && decide (dc < 2 ^ 23))

/-- A signal by R275: with `rst` the epoch rises and the count is zeroed, else `add` is added modulo 2^32. -/
def SyncObj.signal (o : SyncObj) (rst : Bool) (add : BitVec 32) : SyncObj :=
  if rst then { count := 0, epoch := o.epoch + 1 } else { o with count := o.count + add }

/-- The lower of two flag codes, 0 standing for none (R223, R428). -/
def lowCode (a b : BitVec 16) : BitVec 16 :=
  if a = 0 then b else if b = 0 then a else if a.toNat ≤ b.toNat then a else b

/-- A trouble flag's code (R222). -/
def isFlagCode (c : BitVec 16) : Bool := decide (c = eScaleMiss ∨ c = eOutlOvf ∨ c = eWidthRefused)

/-- CRC-32 of IEEE 802.3 over a byte list: reflected polynomial 0xEDB88320, initial and final inversion (log 13). -/
def crc32Step (n : Nat) (c : BitVec 32) : BitVec 32 :=
  match n with
  | 0 => c
  | n + 1 => crc32Step n (if c.getLsbD 0 then (c >>> 1) ^^^ 0xEDB88320 else c >>> 1)

def crc32Aux (c : BitVec 32) : List Byte → BitVec 32
  | [] => c
  | b :: r => crc32Aux (crc32Step 8 (c ^^^ b.setWidth 32)) r

def crc32 (bs : List Byte) : BitVec 32 := ~~~ (crc32Aux 0xFFFFFFFF bs)

/-- CRC-16/CCITT-FALSE: polynomial 0x1021, initial 0xFFFF, no reflection (R313, log 13). -/
def crc16Step (n : Nat) (c : BitVec 16) : BitVec 16 :=
  match n with
  | 0 => c
  | n + 1 => crc16Step n (if c.getLsbD 15 then (c <<< 1) ^^^ 0x1021 else c <<< 1)

def crc16Aux (c : BitVec 16) : List Byte → BitVec 16
  | [] => c
  | b :: r => crc16Aux (crc16Step 8 (c ^^^ (b.setWidth 16 <<< 8))) r

def crc16 (bs : List Byte) : BitVec 16 := crc16Aux 0xFFFF bs

/-- CRC-8 of SMBus: polynomial 0x07, initial 0 (R440, log 149). -/
def crc8Step (n : Nat) (c : BitVec 8) : BitVec 8 :=
  match n with
  | 0 => c
  | n + 1 => crc8Step n (if c.getLsbD 7 then (c <<< 1) ^^^ 0x07 else c <<< 1)

def crc8 (bs : List Byte) : BitVec 8 := bs.foldl (fun c b => crc8Step 8 (c ^^^ b)) 0

end Sys2Proof.Machine
end

