-- ==== Sys2Proof/Machine/Operands.lean ====
section
/-! DEFINITION. Operand forms: little-endian fields of byte strings, command lines (Table 11.3), dispatch words
(Table 11.1), the common descriptor header (Table 11.2), the context block (Table 11.8). -/

set_option Elab.async false

namespace Sys2Proof.Machine

/-- The value of a little-endian byte string. -/
def leVal : List Byte → Nat
  | [] => 0
  | b :: r => b.toNat + 256 * leVal r

/-- The field of `n` bytes at byte `off`, little-endian; bytes beyond the string read 0. -/
def fld (bs : List Byte) (off n : Nat) : Nat := leVal ((bs.drop off).take n)

/-- The `n` low bytes of `v`, little-endian. -/
def leBytes (n v : Nat) : List Byte :=
  match n with
  | 0 => []
  | n + 1 => BitVec.ofNat 8 v :: leBytes n (v / 256)

def zeros (n : Nat) : List Byte := List.replicate n 0

/-- `bs` with the field of `n` bytes at `off` holding `v`. -/
def setFld (bs : List Byte) (off n v : Nat) : List Byte :=
  bs.take off ++ leBytes n v ++ bs.drop (off + n)

/-- Bits [hi:lo] of a number. -/
def bits (v hi lo : Nat) : Nat := v / 2 ^ lo % 2 ^ (hi + 1 - lo)

/-- Bit `i` of a number. -/
def bit (v i : Nat) : Bool := v.testBit i

def b2n (b : Bool) : Nat := if b then 1 else 0

/-- Every byte in [lo, hi) is 0. -/
def zeroAt (bs : List Byte) (lo hi : Nat) : Bool := ((bs.drop lo).take (hi - lo)).all fun b => b == 0

/-- Two's-complement value of the `n` low bits. -/
def sx (n v : Nat) : Int := if v % 2 ^ n < 2 ^ (n - 1) then (v % 2 ^ n : Nat) else ((v % 2 ^ n : Nat) : Int) - (2 ^ n : Nat)

/-- Up to a multiple of 64. -/
def align64 (n : Nat) : Nat := (n + 63) / 64 * 64

def ceilDiv (a b : Nat) : Nat := if b = 0 then 0 else (a + b - 1) / b

/-! The common descriptor header (Table 11.2). -/

def hEng (d : List Byte) : Nat := fld d 0 1
def hOp (d : List Byte) : Nat := fld d 1 1
def hIrq (d : List Byte) : Bool := bit (fld d 2 1) 7
def hBwd (d : List Byte) : Bool := bit (fld d 2 1) 6
def hFence (d : List Byte) : Bool := bit (fld d 2 1) 5
def hExpert (d : List Byte) : Bool := bit (fld d 2 1) 4
def hCcls (d : List Byte) : Nat := bits (fld d 2 1) 3 0
def hTag (d : List Byte) : BitVec 32 := BitVec.ofNat 32 (fld d 4 4)
def hWait (d : List Byte) : Nat := fld d 8 2
def hSig (d : List Byte) : Nat := fld d 10 2
def hCount (d : List Byte) : Nat := fld d 12 3
def hEpoch (d : List Byte) : Nat := fld d 15 1

/-! Command lines (Table 11.3). -/

def cOpc (l : List Byte) : Nat := fld l 0 1
def cPhase (l : List Byte) : Bool := bit (fld l 1 1) 7
def cIrq (l : List Byte) : Bool := bit (fld l 1 1) 6
def cCtx (l : List Byte) : Nat := fld l 2 1
def cTag (l : List Byte) : BitVec 32 := BitVec.ofNat 32 (fld l 4 4)

/-! Dispatch words (Table 11.1). -/

def wOpc (w : List Byte) : Nat := fld w 0 1
def wEng (w : List Byte) : Nat := bits (fld w 1 1) 3 0
def wInst (w : List Byte) : Nat := bits (fld w 1 1) 7 4
def wSync (w : List Byte) : Nat := fld w 2 2
/-- TGT, signed, in words. -/
def wTgt (w : List Byte) : Int := sx 32 (fld w 8 4)

/-- Every byte and bit not named for the word's opcode is 0, and each field is in the range of Table 11.1 (R264, R272). -/
def wordForm (w : List Byte) : Bool :=
  let b1 := fld w 1 1
  match wOpc w with
  | 0 => zeroAt w 1 16
  | 1 => decide (bits (fld w 2 1) 7 3 = 0) && decide (bits (fld w 3 1) 6 2 = 0) && zeroAt w 6 8 && zeroAt w 14 16
  | 2 => decide (b1 = 0) && zeroAt w 8 16
  | 3 => decide (b1 < 4) && zeroAt w 8 16 && !(bit b1 0 && decide (fld w 4 4 ≠ 0))
  | 4 => decide (b1 < 2) && zeroAt w 9 16
  | 5 => decide (b1 < 4) && zeroAt w 2 4 && zeroAt w 12 16 && decide (fld w 4 4 ≠ 0)
  | 6 => zeroAt w 1 8 && zeroAt w 12 16
  | 7 => decide (b1 < 16) && zeroAt w 2 8 && zeroAt w 14 16
  | 8 => zeroAt w 1 4 && zeroAt w 8 16
  | 9 => decide (b1 < 2) && zeroAt w 4 16
  | _ => false

/-! The context block (Table 11.8). -/

def blkCords (b : List Byte) : Nat := fld b 0 3
def blkFlags (b : List Byte) : Nat := fld b 3 1
def blkNpreg (b : List Byte) : Nat := fld b 4 1
def blkNwin (b : List Byte) : Nat := fld b 5 1
def blkNsync (b : List Byte) : Nat := fld b 6 2
def blkSeed (b : List Byte) : Nat := fld b 8 8
def blkStat (b : List Byte) : Nat := fld b 16 6
def blkNent (b : List Byte) : Nat := fld b 24 4
def blkSeqt (b : List Byte) : Nat := fld b 28 6
def blkPcy (b : List Byte) : Nat := fld b 34 6
/-- Base and length of host window i. -/
def blkWin (b : List Byte) (i : Nat) : Nat × Nat := (fld b (64 + 16 * i) 6, fld b (64 + 16 * i + 8) 8)
/-- Base and length of persistent region i. -/
def blkPreg (b : List Byte) (i : Nat) : Nat × Nat := (fld b (192 + 16 * i) 6, fld b (192 + 16 * i + 8) 8)

/-- The cords named by a mask, ascending. -/
def cordsOf (mask : Nat) : List Nat := (List.range 24).filter fun c => bit mask c

def Ctx.cords (c : Ctx) : List Nat := cordsOf (blkCords c.block)
def Ctx.expert (c : Ctx) : Bool := bit (blkFlags c.block) 3
def Ctx.swapen (c : Ctx) : Bool := bit (blkFlags c.block) 2
def Ctx.nsync (c : Ctx) : Nat := blkNsync c.block
/-- The lane count of the partition (R15). -/
def Ctx.geom (c : Ctx) : Nat := 9216 * c.cords.length

/-- The partition's dies, ascending (R7, R15). -/
def Ctx.dies (c : Ctx) : List Nat := c.cords.flatMap fun k => [3 * k, 3 * k + 1, 3 * k + 2]

/-- The rank of `x` in a list. -/
def rank (l : List Nat) (x : Nat) : Option Nat :=
  match l with
  | [] => none
  | y :: r => if y = x then some 0 else (rank r x).map (· + 1)

/-- The partition-local number of global hearth `g` (R15). -/
def Ctx.localHearth (c : Ctx) (g : Nat) : Option Nat := (rank c.dies (g / 48)).map fun i => i * 48 + g % 48

/-- The global hearth number of partition-local hearth `p` (R15). -/
def Ctx.globalHearth (c : Ctx) (p : Nat) : Option Nat := (c.dies[p / 48]?).map fun d => d * 48 + p % 48

end Sys2Proof.Machine
end

