-- ==== Sys2Proof/Machine/Ops.lean ====
section
/-! DEFINITION. Named operations over the state: the part and its dies, power and clock state of a block, pages and their
counters, the address map (R340 to R347), memory reads and writes with every check of R17, R346, R395, R461. -/

set_option Elab.async false

namespace Sys2Proof.Machine

/-! The part (R1, R6, R7, R22). -/

/-- The part is a TVF9148-LQ (R22). -/
def State.small (s : State) : Bool := decide (s.fuses.part = 0x9148)

def State.nCords (s : State) : Nat := if s.small then 16 else 24

/-- The part holds die `d` (R6, R22). -/
def State.hasDie (s : State) (d : Nat) : Bool :=
  if s.small then decide (d < 48 ∨ (72 ≤ d ∧ d < 88) ∨ (96 ≤ d ∧ d ≤ 99)) else decide (d ≤ 99)

/-- Every die of the part. -/
def State.dies (s : State) : List Nat := (List.range 100).filter fun d => s.hasDie d

/-- The cord of a die 0 to 95 (R7). -/
def dieCord (d : Nat) : Option Nat := if d < 72 then some (d / 3) else if d < 96 then some (d - 72) else none

/-- The dies of cord `c` (R7). -/
def cordDies (c : Nat) : List Nat := [3 * c, 3 * c + 1, 3 * c + 2, 72 + c]

/-! Straps (R413). -/

def State.strap (s : State) (i : Nat) : Bool := s.ember.straps.getLsbD i
def State.testMode (s : State) : Bool := s.strap 10
def State.isManager (s : State) : Bool := s.strap 2
def State.isHead (s : State) : Bool := s.strap 1
def State.hlw32 (s : State) : Bool := s.strap 5
def State.strapRngm (s : State) : Bool := s.strap 9
def State.strapBoot (s : State) : Nat := bits s.ember.straps.toNat 4 3
def State.strapDrt (s : State) : Nat := bits s.ember.straps.toNat 8 6

/-! Power domains (R393, R394). -/

/-- The part has domain `k` (R393). -/
def State.hasDom (s : State) (k : Nat) : Bool :=
  if k < 216 then s.hasDie (k / 3) else if k < 264 then s.hasDie (72 + (k - 216) / 2) else decide (k < 290)

/-- A lane domain of lanes 16 to 31, disabled by STRAP_HLW = 0 (R413, R393). -/
def laneHi (k : Nat) : Bool := decide (k = 268 ∨ k = 269 ∨ k = 274 ∨ k = 275)

/-- The request of a domain after reset (R414). -/
def State.domReq0 (s : State) (k : Nat) : BitVec 2 := if laneHi k && !s.hlw32 then 0 else 1

/-- A domain's reset value, and its state once kindling has powered it (R410, R414); a halt keeps the service die's domains (R412). -/
def State.domDflt (s : State) (k : Nat) : Dom :=
  let on := s.kind.pwr || (s.kind.halt && decide (276 ≤ k ∧ k ≤ 281))
  { req := s.domReq0 k, state := if on then s.domReq0 k else 0, busy := false }

def State.dom (s : State) (k : Nat) : Dom := SMap.get s.doms (s.domDflt k) k

def State.setDom (s : State) (k : Nat) (d : Dom) : State := { s with doms := SMap.put s.doms (s.domDflt k) k d }

/-- Domain `k` is active (R394). -/
def State.active (s : State) (k : Nat) : Bool := s.hasDom k && decide ((s.dom k).state = 1)

/-- The uncore domain of a die (R376, R393). -/
def uncoreDom (d : Nat) : Nat :=
  if d < 72 then 3 * d + 2 else if d < 96 then 217 + 2 * (d - 72) else if d = 96 then 264 else if d = 97 then 270
  else if d = 98 then 276 else 282

/-! Register pages (R364, Tables 15.1, 15.2, 15.4). -/

/-- What a page number names: die, hearth of a hearth page, block code, instance. -/
structure PageInfo where
  die : Nat
  hearth : Option Nat
  blk : Nat
  inst : Nat
  deriving DecidableEq, Repr

/-- Block codes of the hearth pages by page index q (Tables 15.2, 15.4). -/
def hearthBlk (q : Nat) : Option (Nat × Nat) :=
  if q = 0 then some (0x03, 0) else if q = 1 then some (0x04, 0) else if q ≤ 5 then some (0x05, q - 2)
  else if q ≤ 7 then some (0x06, q - 6) else if q = 8 then some (0x07, 0) else if q = 9 then some (0x08, 0)
  else if q = 10 then some (0x09, 0) else if q = 11 then some (0x0A, 0) else if q = 12 then some (0x0B, 0) else none

/-- The page of page number `pg` in the register space (R364); none returns BUS_ERR. -/
def State.pageInfo (s : State) (pg : Nat) : Option PageInfo :=
  let r := pg / 16384
  let p := pg % 16384
  if r = 0 then
    match p with
    | 0 => some ⟨99, none, 0x01, 0⟩
    | 1 => some ⟨99, none, 0x11, 0⟩
    | 2 => some ⟨99, none, 0x12, 0⟩
    | 3 => some ⟨99, none, 0x0D, 0⟩
    | 4 => some ⟨99, none, 0x14, 0⟩
    | 5 => some ⟨99, none, 0x15, 0⟩
    | _ => none
  else
    let d := r - 1
    if !(s.hasDie d) || decide (98 < d) then none
    else if d < 72 then
      if p < 4096 then
        if p = 0 then some ⟨d, none, 0x02, 0⟩ else if p ≤ 8 then some ⟨d, none, 0x0C, p - 1⟩
        else if p = 9 then some ⟨d, none, 0x15, 0⟩ else none
      else
        let h := (p - 4096) / 128
        if h < 48 then (hearthBlk ((p - 4096) % 128)).map fun b => ⟨d, some h, b.1, b.2⟩ else none
    else if d < 96 then if p = 0 then some ⟨d, none, 0x0D, 0⟩ else none
    else if d < 98 then
      if p = 0 then some ⟨d, none, 0x0E, 0⟩ else if p = 1 then some ⟨d, none, 0x15, 0⟩ else none
    else
      match p with
      | 0 => some ⟨98, none, 0x10, 0⟩
      | 1 => some ⟨98, none, 0x13, 0⟩
      | 2 => some ⟨98, none, 0x16, 0⟩
      | 3 => some ⟨98, none, 0x0F, 0⟩
      | 4 => some ⟨98, none, 0x0F, 1⟩
      | 5 => some ⟨98, none, 0x0F, 2⟩
      | 6 => some ⟨98, none, 0x0F, 3⟩
      | 7 => some ⟨98, none, 0x15, 0⟩
      | _ => none

/-- The page number of hearth page `q` of global hearth `g` (R364). -/
def hearthPage (g q : Nat) : Nat := (g / 48 + 1) * 16384 + 4096 + g % 48 * 128 + q

/-- The page number of page `p` of die `d` (R364). -/
def diePage (d p : Nat) : Nat := if d = 99 then p else (d + 1) * 16384 + p

def pgMgr : Nat := 0
def pgDrt : Nat := 1
def pgBeat : Nat := 2
def pgStkSvc : Nat := 3
def pgPwr : Nat := 4
def pgTrcMgr : Nat := 5
def pgSvc : Nat := diePage 98 0
def pgRst : Nat := diePage 98 1
def pgFw : Nat := diePage 98 2
/-- The RDP page of reduction port 0 (UPP) to 3 (DNP2). -/
def pgRdp (i : Nat) : Nat := diePage 98 (3 + i)
/-- The HLK page of Larfort port 0 (A) or 1 (B). -/
def pgHlk (i : Nat) : Nat := diePage (96 + i) 0
def pgStk (cord : Nat) : Nat := diePage (72 + cord) 0
/-- The TRC page of a die that has a trace unit (Table 15.1). -/
def pgTrc (d : Nat) : Nat := if d < 72 then diePage d 9 else if d = 99 then 5 else if d = 98 then diePage 98 7 else diePage d 1

/-- The register-space address of a page (R364). -/
def pageAddr (pg : Nat) : Nat := 0x0C0000000000 + pg * 4096

/-- The power domain of a page's block (R393; log 32). -/
def PageInfo.dom (i : PageInfo) : Nat :=
  if i.die < 72 then
    if i.blk = 0x04 ∨ i.blk = 0x05 ∨ i.blk = 0x06 ∨ i.blk = 0x0B then 3 * i.die
    else if i.hearth.isSome then 3 * i.die + 1 else 3 * i.die + 2
  else if i.die < 98 then uncoreDom i.die
  else if i.die = 98 then
    if i.blk = 0x0F then 278 + i.inst else if i.blk = 0x10 ∨ i.blk = 0x16 then 277 else 276
  else if i.blk = 0x0D then 289 else if i.blk = 0x15 then 288 else 282

/-- The clocks a block uses (R19): SCLK for its registers, ACLK or FCLK for its work. -/
def PageInfo.clocks (i : PageInfo) : List Clock :=
  if i.die < 72 then
    if i.blk = 0x04 ∨ i.blk = 0x05 ∨ i.blk = 0x06 ∨ i.blk = 0x0B then [.aclk, .sclk] else [.fclk, .sclk]
  else [.sclk]

/-- The die is held in reset by the episode in progress (R400). -/
def State.dieHeld (s : State) (d : Nat) : Bool := s.rst.latch.isSome && decide (d ∈ s.rst.scope)

/-- The die's clocks have qualified in kindling (R405, R410). -/
def State.dieQual (s : State) (d : Nat) : Bool :=
  match s.kind.scope with
  | none => s.kind.qual
  | some l => s.kind.qual && !(decide (d ∈ l) && decide (s.kind.phase ≤ 3))

/-- The phase that the package as a whole has reached, also while some of its dies are kindled again (Table 16.5). -/
def State.pkgPhase (s : State) : Nat := if s.kind.scope.isSome then s.kind.back else s.kind.phase

/-- The block's clocks are qualified (PG_STS.CLKQ). -/
def State.clkq (s : State) (i : PageInfo) : Bool :=
  s.dieQual i.die && i.clocks.all fun c => !decide ((i.die, c) ∈ s.lostClk)

def State.page (s : State) (pg : Nat) : Page := SMap.get s.pages Page.reset pg

def State.setPage (s : State) (pg : Nat) (p : Page) : State := { s with pages := SMap.put s.pages Page.reset pg p }

/-- The block is held in reset (PG_STS.SRSTA; R400, R405, R407). -/
def State.blkHeld (s : State) (pg : Nat) (i : PageInfo) : Bool :=
  s.dieHeld i.die || decide (pg ∈ s.rst.blocks) || (!s.clkq i && !(s.page pg).early)

/-- The block's isolation wrapper is closed (PG_STS.ISO; R403, R407). -/
def State.iso (s : State) (pg : Nat) (i : PageInfo) : Bool :=
  s.blkHeld pg i || !s.clkq i || (s.page pg).early || !decide ((s.dom i.dom).state = 1)

/-- The wrapper of a page's block is open: transfers to and from it go through (R403). -/
def State.isOpen (s : State) (pg : Nat) : Bool :=
  match s.pageInfo pg with
  | some i => !s.iso pg i
  | none => false

/-! Contexts and slots (R299, R306). -/

def State.ctx? (s : State) (c : Nat) : Option Ctx := SMap.get s.ctxs none c

def State.setCtx (s : State) (c : Nat) (x : Option Ctx) : State := { s with ctxs := SMap.put s.ctxs none c x }

/-- The live contexts: identifier and record. -/
def State.liveCtxs (s : State) : List (Nat × Ctx) := s.ctxs.filterMap fun p => p.2.map fun c => (p.1, c)

/-- The live context that owns a cord (R15, R461). -/
def State.cordCtx (s : State) (cord : Nat) : Option (Nat × Ctx) :=
  s.liveCtxs.find? fun p => bit (blkCords p.2.block) cord

def State.slotCtx (s : State) (slot : Nat) : Option (Nat × Ctx) := s.liveCtxs.find? fun p => decide (p.2.slot = slot)

def State.slotBeat (s : State) (slot : Nat) : Beat := SMap.get s.beat.slots Beat.zero slot

/-- The page is of a block that takes descriptors (Table 15.4: FTA to DMA). -/
def State.takesDesc (s : State) (pg : Nat) : Bool :=
  match s.pageInfo pg with
  | some i => decide (0x04 ≤ i.blk ∧ i.blk ≤ 0x0C)
  | none => false

/-- Configuration words (R365): the stored word of a page at an offset, over the given reset value; a block that takes no
descriptors uses the reset value of a word whose parity mismatches (R380). -/
def State.cfg (s : State) (pg off : Nat) (reset : Word) : Word :=
  let p := s.page pg
  if decide (off ∈ p.badPar) && !s.takesDesc pg then reset else SMap.get p.cfg reset off

/-- BEAT_CFG.TSLOT (R320). -/
def State.tslot (s : State) : Nat := bits (s.cfg pgBeat 0x100 0).toNat 12 8

/-- The slot whose beat a page's snapshot and freeze record take (R382): the owner's, the cord's own, or TSLOT. -/
def State.pageSlot (s : State) (die : Nat) : Nat :=
  match dieCord die with
  | none => s.tslot
  | some c =>
    match s.cordCtx c with
    | some p => p.2.slot
    | none => c

/-! Freeze coverage and counters (R467, R471, R472). -/

def State.fz (s : State) (k : Nat) : Freeze := SMap.get s.freeze Freeze.reset k

/-- A page is frozen while a state that covers it is frozen; TRC pages never are (R471, R472). -/
def State.frozen (s : State) (i : PageInfo) : Bool :=
  if i.blk = 0x15 then false
  else (s.fz 24).v ||
    match dieCord i.die with
    | none => false
    | some c =>
      match s.cordCtx c with
      | some p => (s.fz p.2.slot).v
      | none => false

/-- A page with counters (Table 15.4: every page but MGR). -/
def PageInfo.counts (i : PageInfo) : Bool := decide (i.blk ≠ 0x01)

/-! Host links (R417 to R423). -/

/-- Port codes: 0 Larfort A, 1 Larfort B, 2 UPP, 3 to 5 DNP0 to DNP2 (R439). -/
def State.port (s : State) (p : Nat) : Port := SMap.get s.ports Port.reset p

def State.setPort (s : State) (p : Nat) (x : Port) : State := { s with ports := SMap.put s.ports Port.reset p x }

/-- The page and the block of a port. -/
def portPage (p : Nat) : Nat := if p < 2 then pgHlk p else pgRdp (p - 2)

def portInfo (p : Nat) : PageInfo := if p < 2 then ⟨96 + p, none, 0x0E, 0⟩ else ⟨98, none, 0x0F, p - 2⟩

/-- The port's block has its wrapper open (R403). -/
def State.portOpen (s : State) (p : Nat) : Bool := !s.iso (portPage p) (portInfo p)

/-- The port is ACTIVE (TSTATE 5), and its block not isolated. -/
def State.portUp (s : State) (p : Nat) : Bool := decide ((s.port p).tstate = 5) && s.portOpen p

/-- A Larfort port that has its link: ACTIVE, or in RETRAIN, where it keeps its transactions (R419). -/
def State.portLinked (s : State) (p : Nat) : Bool := decide ((s.port p).tstate = 5 ∨ (s.port p).tstate = 6)

/-- Some Larfort port carries host traffic (R423). -/
def State.hostUp (s : State) : Bool := [0, 1].any fun p => s.portLinked p && s.portOpen p

/-- Host traffic meets a closed wrapper: of a port with a link, or of link dies whose link layers are not active (R395, R403). -/
def State.hostClosed (s : State) : Bool :=
  s.portLinked 0 || s.portLinked 1 || (!s.active 265 && !s.active 271)

/-! The address map (R340, Table 14.1). -/

/-- What a package address names. -/
inductive Place where
  | stack (cord : Nat)
  | hearth (g : Nat)
  | host
  | bad
  deriving DecidableEq, Repr

/-- The place of a direct package address (R340); register and reserved ranges are bad. -/
def State.place (s : State) (a : Nat) : Place :=
  if a < 0x030000000000 then
    let c := a / 0x2000000000
    if c < s.nCords then .stack c else .bad
  else if 0x080000000000 ≤ a ∧ a < 0x080900000000 then
    let x := a - 0x080000000000
    let d := x / 0x20000000
    let h := x % 0x20000000 / 0x800000
    if d < 72 ∧ s.hasDie d ∧ h < 48 ∧ x % 0x800000 < 0x600000 then .hearth (d * 48 + h) else .bad
  else if 0x800000000000 ≤ a ∧ a < 0x1000000000000 then .host
  else .bad

/-- The base of a hearth's memory window (R263, R340). -/
def hearthBase (g : Nat) : Nat := 0x080000000000 + g / 48 * 0x20000000 + g % 48 * 0x800000

/-- STK_ILVk of a slot (R342, R362). -/
def State.ilv (s : State) (slot : Nat) : Bool := (s.cfg pgStkSvc (0x100 + 4 * slot) 0).getLsbD 0

/-- The direct address of a partition-window offset for cords `cs` (R342); none beyond the window. -/
def windowMap (cs : List Nat) (ilv : Bool) (x : Nat) : Option Nat :=
  if cs.length * 2 ^ 37 ≤ x then none
  else if ilv then
    let u := x / 2 ^ 21
    (cs[u % cs.length]?).map fun c => c * 2 ^ 37 + u / cs.length * 2 ^ 21 + x % 2 ^ 21
  else (cs[x / 2 ^ 37]?).map fun c => c * 2 ^ 37 + x % 2 ^ 37

def isWindow (a : Nat) : Bool := decide (0x040000000000 ≤ a ∧ a < 0x070000000000)

/-- Who makes an access: a descriptor of a context, a command of a context, a command of no context, or the manager's
own services and trace (R17, R461, R502, R483). -/
inductive Who where
  | desc (c : Ctx)
  | cmd (c : Ctx)
  | cmdHost
  | service (c : Ctx)
  | manager
  deriving DecidableEq, Repr

def Who.ctx : Who → Option Ctx
  | .desc c => some c
  | .cmd c => some c
  | .service c => some c
  | _ => none

/-- The access may reach the place (R17, R502, R461). -/
def Who.allowed (w : Who) (p : Place) (a : Nat) : Bool :=
  match w, p with
  | _, .bad => false
  | .manager, _ => true
  | .cmdHost, .host => true
  | .cmdHost, _ => false
  | .cmd _, .host => true
  | .cmd c, .stack k => bit (blkCords c.block) k
  | .cmd _, .hearth _ => false
  | .service _, .host => true
  | .service c, .stack k => bit (blkCords c.block) k
  | .service c, .hearth g => bit (blkCords c.block) (g / 144)
  | .desc c, .stack k => bit (blkCords c.block) k
  | .desc c, .hearth g => bit (blkCords c.block) (g / 144)
  | .desc c, .host => (List.range (blkNwin c.block)).any fun i =>
      decide ((blkWin c.block i).1 ≤ a ∧ a < (blkWin c.block i).1 + (blkWin c.block i).2)

/-- The domains of a place are active (R395), and the wrapper of the block that serves it is open (R402, R403). -/
def State.placeUp (s : State) (p : Place) : Bool :=
  match p with
  | .stack c => s.active (216 + 2 * c) && s.active (217 + 2 * c) && !s.iso (pgStk c) ⟨72 + c, none, 0x0D, 0⟩
  | .hearth g => s.active (3 * (g / 48) + 1) && !s.iso (hearthPage g 0) ⟨g / 48, some (g % 48), 0x03, 0⟩
  | _ => true

/-- The direct address that an agent names by `a` (R342). -/
def State.phys (s : State) (w : Who) (a : Nat) : Option Nat :=
  if isWindow a then
    match w.ctx with
    | some c => windowMap c.cords (s.ilv c.slot) (a - 0x040000000000)
    | none => none
  else some a

/-- The direct address behind byte `a`, or why the access fails: BUS_ERR outside what the agent may name, CFG_PARITY on a
bad ownership copy of the cord (R462), ISO_ERR on a place that is not active or isolated (R395, R403), LINK_DOWN with no host port
(R423).
The address is reported as named (R504). -/
def State.resolve (s : State) (w : Who) (a : Nat) : Except Fail Nat :=
  match s.phys w a with
  | none => .error (Fail.bus a)
  | some p =>
    let pl := s.place p
    if !(w.allowed pl p) then .error (Fail.bus a)
    else
      let bad := match pl, w with
        | .stack k, .desc _ => s.ownBad.any fun x => decide (x.2 = k)
        | .hearth g, .desc _ => s.ownBad.any fun x => decide (x.2 = g / 144)
        | _, _ => false
      if bad then .error { code := eCfgParity, addr := BitVec.ofNat 48 a }
      else if !(s.placeUp pl) then .error { code := eIso, addr := BitVec.ofNat 48 a }
      else if decide (pl = .host) && !s.hostUp then
        .error { code := if s.hostClosed then eIso else eLinkDown, addr := BitVec.ofNat 48 a }
      else .ok p

/-! Bytes of memory. Unlisted bytes read 0 (R350; host memory by log 6). -/

def State.byte (s : State) (a : Nat) : Byte := SMap.get s.mem 0 a

def State.setByte (s : State) (a : Nat) (b : Byte) : State := { s with mem := SMap.put s.mem 0 a b }

/-- Bytes written in rising address order from `a`. -/
def SMap.putBytes (m : SMap Byte) (a : Nat) : List Byte → SMap Byte
  | [] => m
  | b :: r => SMap.putBytes (SMap.put m 0 a b) (a + 1) r

def State.setBytes (s : State) (a : Nat) (bs : List Byte) : State := { s with mem := SMap.putBytes s.mem a bs }

def State.bytes (s : State) (a n : Nat) : List Byte := (List.range n).map fun i => s.byte (a + i)

/-- The unit of an uncorrectable error that holds direct address `a`: a hearth word or a line, by its address (R346). -/
def State.ueKey (s : State) (p : Nat) : Nat :=
  match s.place p with
  | .hearth _ => p / 8 * 8
  | _ => p / 64 * 64

def State.isUe (s : State) (p : Nat) : Bool := decide (s.ueKey p ∈ s.ue)

/-- The code of a unit corrects errors in these of its parts: one bit of a hearth word (R343); of a line the symbols of one DRAM die, or
at most 8 (R345). -/
def correctable (pl : Place) (l : List Nat) : Bool :=
  match pl with
  | .hearth _ => decide (l.length ≤ 1)
  | _ => decide (l.length ≤ 8) || l.all fun i => decide (i / 5 = l.headD 0 / 5)

/-- Errors come about in parts `l` of the unit at direct address `a` (R343, R345): the unit stays correctable, or is uncorrectable from
now on. -/
def State.upset (s : State) (a : Nat) (l : List Nat) : State :=
  let k := s.ueKey a
  let e := SMap.get s.errs [] k
  let n := e ++ l.filter fun i => !decide (i ∈ e)
  if k ∈ s.ue then s
  else if correctable (s.place a) n then { s with errs := SMap.put s.errs [] k n }
  else { s with errs := SMap.erase s.errs k, ue := s.ue ++ [k] }

/-- One byte read by an agent at the address it names; MEM_UE reports the 64-byte line of that address (R346, R504). -/
def State.readByte (s : State) (w : Who) (a : Nat) : Except Fail Byte :=
  match s.resolve w a with
  | .error f => .error f
  | .ok p => if s.isUe p then .error { code := eMemUe, addr := BitVec.ofNat 48 (a / 64 * 64) } else .ok (s.byte p)

/-- `n` bytes read in rising address order; the first failing byte fails the read (R346). -/
def State.read (s : State) (w : Who) (a n : Nat) : Except Fail (List Byte) :=
  match n with
  | 0 => .ok []
  | n + 1 =>
    match s.readByte w a with
    | .error f => .error f
    | .ok b =>
      match s.read w (a + 1) n with
      | .error f => .error f
      | .ok r => .ok (b :: r)

/-- The direct addresses of `n` bytes from `a`, or the first failure. -/
def State.resolveAll (s : State) (w : Who) (a n : Nat) : Except Fail (List Nat) :=
  match n with
  | 0 => .ok []
  | n + 1 =>
    match s.resolve w a with
    | .error f => .error f
    | .ok p =>
      match s.resolveAll w (a + 1) n with
      | .error f => .error f
      | .ok r => .ok (p :: r)

/-- Bytes written at listed direct addresses. -/
def State.setAt (s : State) : List Nat → List Byte → State
  | p :: ps, b :: bs => (s.setByte p b).setAt ps bs
  | _, _ => s

/-- The size of the uncorrectable unit of a direct address (R347). -/
def State.ueSize (s : State) (p : Nat) : Nat :=
  match s.place p with
  | .hearth _ => 8
  | _ => 64

/-- Bytes written by an agent: whole units heal, a partial write of an uncorrectable unit fails with MEM_UE at the line and
nothing is written (R347). -/
def State.write (s : State) (w : Who) (a : Nat) (bs : List Byte) : Except Fail State :=
  match s.resolveAll w a bs.length with
  | .error f => .error f
  | .ok ps =>
    let cover := fun k n => (List.range n).all fun i => decide (k + i ∈ ps)
    let bad := ps.zipIdx.find? fun x => s.isUe x.1 && !(cover (s.ueKey x.1) (s.ueSize x.1))
    match bad with
    | some x => .error { code := eMemUe, addr := BitVec.ofNat 48 ((a + x.2) / 64 * 64), pw := true }
    | none =>
      let healed := s.ue.filter fun k => !(decide (k ∈ ps))
      .ok ({ s with ue := healed, ueSeen := s.ueSeen.filter fun k => !(decide (k ∈ ps)),
                    errs := SMap.dropKeys s.errs fun k => cover k (s.ueSize k) }.setAt ps bs)

/-- Free bytes (log 10): `n` values taken from the counter of free values. -/
def State.takeFree (s : State) (n : Nat) : List Byte × State :=
  ((List.range n).map fun i => Config.freeByte (s.fresh + i), { s with fresh := s.fresh + n })

/-- The bytes of a destination range that a failure leaves unspecified become free values where the agent can write them;
units that cannot be merged keep theirs. -/
def State.scramble (s : State) (w : Who) (a n : Nat) : State :=
  let f := s.takeFree n
  (List.range n).zip f.1 |>.foldl (fun t x =>
    match t.resolve w (a + x.1) with
    | .ok p => if t.isUe p then t else t.setByte p x.2
    | .error _ => t) f.2

/-- Byte `old` with its bits [lo, hi) taken from `new`. -/
def mixBits (old new : Byte) (lo hi : Nat) : Byte :=
  BitVec.ofNat 8 (old.toNat % 2 ^ lo + bits new.toNat (hi - 1) lo * 2 ^ lo + old.toNat / 2 ^ hi * 2 ^ hi)

/-- The same for `n` bits from bit address `b` (8 times a byte address, and the bit): the other bits keep theirs. -/
def State.scrambleBits (s : State) (w : Who) (b n : Nat) : State :=
  let a := b / 8
  let k := (b + n + 7) / 8 - a
  let f := s.takeFree k
  (List.range k).zip f.1 |>.foldl (fun t x =>
    match t.resolve w (a + x.1) with
    | .ok p =>
      let o := 8 * (a + x.1)
      if t.isUe p then t else t.setByte p (mixBits (t.byte p) x.2 (b - o) (min 8 (b + n - o)))
    | .error _ => t) f.2

/-! Field reads of memory, by agents. -/

def State.readVal (s : State) (w : Who) (a n : Nat) : Except Fail Nat := (s.read w a n).map leVal

/-! Lists of records. -/

/-- The list with element `i` changed by `f`. -/
def modifyAt {α : Type} (l : List α) (i : Nat) (f : α → α) : List α :=
  match l, i with
  | [], _ => []
  | x :: r, 0 => f x :: r
  | x :: r, i + 1 => x :: modifyAt r i f

/-- The list without element `i`. -/
def dropAt {α : Type} (l : List α) (i : Nat) : List α :=
  match l, i with
  | [], _ => []
  | _ :: r, 0 => r
  | x :: r, i + 1 => x :: dropAt r i

/-- Memory keeps its canonical form: addresses strictly rising, no entry equal to the 0 an unlisted byte reads as. -/
def Memory.wf (m : SMap Byte) : Bool := SMap.wf m fun _ => 0

end Sys2Proof.Machine
end

