-- ==== Sys2Proof/Machine/Events.lean ====
section
/-! DEFINITION. Lines the manager die writes into host memory: event records (Table 11.5), completion lines (Table 11.4),
the records held while both Larfort ports are down (R423); page errors, interrupts and page events (R375 to R378);
counters (R467); chain frames the package sends itself (Table 17.5). -/

set_option Elab.async false

namespace Sys2Proof.Machine

def State.queue (s : State) (q : Nat) : Queue := SMap.get s.queues Queue.none q

def State.setQueue (s : State) (q : Nat) (x : Queue) : State := { s with queues := SMap.put s.queues Queue.none q x }

def State.addOut (s : State) (o : Out) : State := { s with out := s.out ++ [o] }

/-- A line the manager writes to host memory, or holds while both ports are down, up to 4,096 (R423). Answers whether the
line was written or held. -/
def State.hostLine (s : State) (a : Addr) (bs : List Byte) : State × Bool :=
  if s.hostUp then (s.setBytes a.toNat bs, true)
  else if s.held.length < 4096 then ({ s with held := s.held ++ [(a, bs)] }, true)
  else (s, false)

/-- The held lines are written in their original order when a port returns (R423). -/
def State.flushHeld (s : State) : State :=
  if s.hostUp then { s.held.foldl (fun t x => t.setBytes x.1.toNat x.2) s with held := [] } else s

/-- An event record before its PHASE is known (Table 11.5). -/
structure EventRec where
  etype : Nat
  res : Result
  ctx : Nat
  eng : Nat
  tag : BitVec 32
  err : BitVec 16
  hearth : Nat
  unit : Nat
  addr : Addr
  beat : Beat
  data : List Byte
  deriving DecidableEq, Repr

/-- A package event with its "none" fields (R289, R290). -/
def EventRec.package (etype : Nat) (err : BitVec 16) (addr : Addr) (b : Beat) (data : List Byte) : EventRec :=
  { etype := etype, res := .done, ctx := 0xFF, eng := 0, tag := 0, err := err, hearth := 0xFFFF, unit := 0, addr := addr,
    beat := b, data := data }

/-- The 64 bytes of an event record (Table 11.5). -/
def EventRec.bytes (r : EventRec) (phase : Bool) : List Byte :=
  leBytes 1 r.etype ++ leBytes 1 (128 * b2n phase + r.res.code) ++ leBytes 1 r.ctx ++ leBytes 1 r.eng
    ++ leBytes 4 r.tag.toNat ++ leBytes 2 r.err.toNat ++ leBytes 2 r.hearth ++ leBytes 1 r.unit ++ zeros 3
    ++ leBytes 6 r.addr.toNat ++ zeros 2 ++ leBytes 8 r.beat.toNat ++ (r.data ++ zeros 32).take 32

/-- The event ring is full: k − EV_CONS = NEV (R289). -/
def Queue.evFull (x : Queue) : Bool := decide ((x.evCount - x.evCons).toNat = 2 ^ x.logEv)

/-- The slot address and PHASE of the next event record (R289). -/
def Queue.evSlot (x : Queue) : Addr := x.ev + BitVec.ofNat 48 (64 * (x.evCount.toNat % 2 ^ x.logEv))
def Queue.evPhase (x : Queue) : Bool := decide (x.evCount.toNat / 2 ^ x.logEv % 2 = 0)

/-- A record counted as lost (R289). -/
def Queue.lose (x : Queue) : Queue := { x with lost := x.lost + 1, lostAll := x.lostAll + 1 }

/-- One record written to a ring that is not full, or held or lost by R423. -/
def State.putEvent (s : State) (q : Nat) (r : EventRec) : State :=
  let x := s.queue q
  if x.evFull then s.setQueue q x.lose
  else
    let w := s.hostLine x.evSlot (r.bytes x.evPhase)
    if w.2 then
      w.1.setQueue q { x with evCount := x.evCount + 1, unread := x.unread ++ [BitVec.ofNat 8 r.etype] }
    else s.setQueue q x.lose

/-- An event record on a queue's ring: at the first write after space frees, the lost-events record goes first (R289; it names no
context and carries the beat of slot TSLOT, log 33); nothing is written to a queue that is not live or has stopped (R503). -/
def State.event (s : State) (q : Nat) (r : EventRec) : State :=
  let x := s.queue q
  if !x.live || x.stopped then s
  else if x.lost ≠ 0 ∧ !x.evFull then
    let s1 := s.putEvent q (EventRec.package 0x07 0 0 (s.slotBeat s.tslot) (leBytes 4 x.lost.toNat))
    let y := s1.queue q
    -- the count goes with the record that carries it; a record that could not be written carries nothing
    if y.evCount = x.evCount + 1 then (s1.setQueue q { y with lost := 0 }).putEvent q r else s.putEvent q r
  else s.putEvent q r

/-- The beat that package events carry: that of slot TSLOT (log 33). -/
def State.pkgBeat (s : State) : Beat := s.slotBeat s.tslot

/-- A package event on the admin queue (R289). -/
def State.pkgEvent (s : State) (etype : Nat) (err : BitVec 16) (addr : Addr) (data : List Byte) : State :=
  s.event 0 (EventRec.package etype err addr s.pkgBeat data)

/-! Page errors, interrupts, counters. -/

def PgErr.word (e : PgErr) : Nat :=
  b2n e.v * 2 ^ 31 + b2n e.more * 2 ^ 30 + e.code.toNat * 2 ^ 12 + e.off.toNat

/-- PG_IRQ_STS of a page (R377); a block that takes no descriptors uses the reset value of a mismatching PG_IRQ_EN (R380). -/
def State.irqSts (s : State) (pg : Nat) (p : Page) : BitVec 6 :=
  p.irqRaw &&& if decide (0x24 ∈ p.badPar) && !s.takesDesc pg then 0x0F else p.irqEn

/-- The page after a change of its interrupt registers: a change of PG_IRQ_STS from zero to non-zero writes one page event of
ETYPE 0x0B (R378). -/
def State.pageIrq (s : State) (pg : Nat) (p : Page) : State :=
  let old := s.irqSts pg (s.page pg)
  let new := s.irqSts pg p
  let t := s.setPage pg p
  if old = 0 ∧ new ≠ 0 then
    t.pkgEvent 0x0B p.err.code (BitVec.ofNat 48 (pageAddr pg)) (leBytes 4 new.toNat ++ leBytes 4 p.err.word)
  else t

/-- Conditions latched in PG_IRQ_RAW (R377). -/
def State.raise (s : State) (pg : Nat) (m : BitVec 6) : State :=
  let p := s.page pg
  s.pageIrq pg { p with irqRaw := p.irqRaw ||| m }

/-- A register error recorded in PG_ERR: the first is kept, a further one sets MORE (R375). -/
def State.pgErr (s : State) (pg : Nat) (code : BitVec 16) (off : Nat) : State :=
  let p := s.page pg
  if p.err.v then s.setPage pg { p with err := { p.err with more := true } }
  else s.pageIrq pg { p with err := { v := true, more := false, code := code, off := BitVec.ofNat 12 off },
                             irqRaw := p.irqRaw ||| 1 }

/-- Counter `i` of a page rises by `n`, unless the page is frozen (R471); at its maximum it stays there and sets
PG_IRQ_RAW.SAT (R467). -/
def State.count (s : State) (pg i n : Nat) : State :=
  match s.pageInfo pg with
  | none => s
  | some info =>
    if s.frozen info || decide (n = 0) then s
    else
      let p := s.page pg
      let v := (SMap.get p.cnt 0 i).toNat + n
      if v < 2 ^ 64 - 1 then s.setPage pg { p with cnt := SMap.put p.cnt 0 i (BitVec.ofNat 64 v) }
      else
        (s.setPage pg { p with cnt := SMap.put p.cnt 0 i (BitVec.ofNat 64 (2 ^ 64 - 1)) }).raise pg 0x10

/-! Completion lines. -/

/-- The beat a command's completion line carries: that of its context's slot, else of TSLOT (log 33). -/
def State.cmdBeat (s : State) (ctx : Nat) : Beat :=
  match s.ctx? ctx with
  | some c => s.slotBeat c.slot
  | none => s.pkgBeat

/-- The 64 bytes of a completion line (Table 11.4). -/
def completionLine (line : List Byte) (res : Result) (err : BitVec 16) (addr : Addr) (b : Beat) (result : List Byte) :
    List Byte :=
  leBytes 4 (cTag line).toNat ++ leBytes 1 (128 * b2n (cPhase line) + res.code) ++ leBytes 1 (cOpc line)
    ++ leBytes 2 err.toNat ++ leBytes 6 addr.toNat ++ zeros 2 ++ leBytes 8 b.toNat ++ (result ++ zeros 40).take 40

/-- The accepted command of a queue's slot. -/
def State.cmd? (s : State) (q slot : Nat) : Option Cmd := (s.queue q).cmds.find? fun c => decide (c.slot = slot)

/-- A word of a page is stored with its parity: a mismatch there ends (R381). -/
def Page.mend (p : Page) (off : Nat) : Page :=
  { p with badPar := p.badPar.filter (fun o => decide (o ≠ off)), found := p.found.filter fun o => decide (o ≠ off) }

/-- MGR_AQ_CFG.EN reads 0 (R304). -/
def State.clearAqEn (s : State) : State :=
  let p := (s.page pgMgr).mend 0x120
  s.setPage pgMgr { p with cfg := SMap.put p.cfg 0x44 0x120 (SMap.get p.cfg 0x44 0x120 &&& 0x7FFFFFFF) }

/-- A queue destroyed once it is closing and nothing of it is uncompleted (R293). The admin queue is disabled then: its head, phase,
counts and FLT stay until it is enabled again (R304). -/
def State.reapQueue (s : State) (q : Nat) : State :=
  let x := s.queue q
  if x.closing && x.cmds.isEmpty then
    if q = 0 then (s.setQueue 0 { x with live := false, closing := false }).clearAqEn else s.setQueue q Queue.none
  else s

/-- The command's single commit point (R287): its completion line is written in the ring slot of its command, with the
command's PHASE, and with IRQ a completion event follows; a stopped queue writes nothing (R503). RESULT begins at byte 24. -/
def State.complete (s : State) (q slot : Nat) (res : Result) (err : BitVec 16) (addr : Addr) (result : List Byte) : State :=
  match s.cmd? q slot with
  | none => s
  | some c =>
    let x := s.queue q
    let b := s.cmdBeat (cCtx c.line)
    let y := { x with cmds := x.cmds.filter (fun d => decide (d.slot ≠ slot)),
                      lastTag := SMap.put x.lastTag 0 slot ((cTag c.line).toNat + 1) }
    let s1 := s.setQueue q y
    let s2 :=
      if x.stopped then s1
      else
        let w := s1.hostLine (x.cpl + BitVec.ofNat 48 (64 * slot)) (completionLine c.line res err addr b result)
        if w.2 then w.1 else s1.setQueue q y.lose
    let s3 :=
      if cIrq c.line then
        s2.event q { etype := 0x01, res := res, ctx := cCtx c.line, eng := 0, tag := cTag c.line, err := err,
                     hearth := 0xFFFF, unit := 0, addr := addr, beat := b, data := [] }
      else s2
    s3.reapQueue q

/-- The address of a command's own line (R288). -/
def State.cmdAddr (s : State) (q slot : Nat) : Addr := (s.queue q).cmd + BitVec.ofNat 48 (64 * slot)

def State.done (s : State) (q slot : Nat) (result : List Byte) : State := s.complete q slot .done 0 0 result

/-- The command fails with FAILED and the given code and address. -/
def State.failCmd (s : State) (q slot : Nat) (f : Fail) : State := s.complete q slot .failed f.code f.addr []

/-- A malformed command fails with FAILED and BUS_ERR at its own line and changes nothing (R288). -/
def State.malformed (s : State) (q slot : Nat) : State := s.failCmd q slot { code := eBusErr, addr := s.cmdAddr q slot }

/-- The accepted command changed in place. -/
def State.setCmd (s : State) (q slot : Nat) (f : Cmd → Cmd) : State :=
  let x := s.queue q
  s.setQueue q { x with cmds := x.cmds.map fun c => if c.slot = slot then f c else c }

/-! Chain frames (Table 17.5). -/

/-- The bytes of a chain frame, its CRC last. -/
def chainFrame (dst src type seq arg : Nat) (payload : List Byte) : List Byte :=
  let h := leBytes 1 dst ++ leBytes 1 src ++ leBytes 1 type ++ zeros 1 ++ leBytes 2 seq ++ leBytes 2 payload.length
    ++ leBytes 8 arg ++ payload
  h ++ leBytes 4 (crc32 h).toNat

/-- The SRC of the package's own frames: its address, or 0xFD without one. -/
def State.chainSrc (s : State) : Nat :=
  match s.ember.caddr with
  | some a => a.toNat
  | none => 0xFD

/-- A frame of the package's own on the chain while the relay runs; counts SVC_CNT_TXF. -/
def State.sendFrame (s : State) (up : Bool) (bytes : List Byte) : State :=
  if s.chain.relay then (s.addOut (.frame up bytes)).count pgSvc 1 1 else s

/-- A firmware event (R464): on the admin queue and as a chain EVENT frame to 0xFE, whose SEQ the manual leaves open. -/
def State.fwEvent (s : State) (kind : Nat) (err : BitVec 16) (version : Word64) : State :=
  let data := leBytes 1 kind ++ zeros 7 ++ leBytes 8 version.toNat
  let s1 := s.pkgEvent 0x0F err 0 data
  let f := s1.takeFree 2
  let r := EventRec.package 0x0F err 0 s.pkgBeat data
  f.2.sendFrame true (chainFrame 0xFE s.chainSrc 0x09 (leVal f.1) 0 (r.bytes true))

/-- A link event (R439): KIND and port; LINK_DOWN for KIND 0x01. -/
def State.linkEvent (s : State) (kind port : Nat) : State :=
  s.pkgEvent 0x0D (if kind = 1 then eLinkDown else 0) 0 (leBytes 1 kind ++ leBytes 1 port)

/-- A chain event (R439). -/
def State.chainEvent (s : State) (kind port : Nat) : State := s.pkgEvent 0x0E 0 0 (leBytes 1 kind ++ leBytes 1 port)

/-- A memory event (R348): KIND and cord, at the line's direct address. -/
def State.memEvent (s : State) (kind cord line : Nat) : State :=
  (s.pkgEvent 0x09 eMemUe (BitVec.ofNat 48 line) (leBytes 1 kind ++ leBytes 1 cord)).count pgStkSvc 7 1

/-- An uncorrectable stack line found: counted, logged while the log holds none, and reported with KIND (R348, R361). -/
def State.ueFound (s : State) (kind cord line : Nat) : State :=
  let pg := pgStk cord
  let s1 := s.count pg 3 1
  let p := s1.page pg
  let s2 :=
    if (SMap.get p.cfg (0 : Word) 0x10C).getLsbD 31 then s1
    else
      let lo := SMap.put p.cfg (0 : Word) 0x108 (BitVec.ofNat 32 (line / 64 * 64))
      s1.setPage pg { p with cfg := SMap.insert lo 0x10C (BitVec.ofNat 32 (2 ^ 31 + line / 2 ^ 32)) }
  s2.memEvent kind cord line

/-- An ISO_ERR response of a closed wrapper, one for each descriptor or access that fails with it (R403). -/
def State.isoResponse (s : State) (pg : Nat) : State := (s.count pgRst 3 1).raise pg 0x08

/-- What a failed access does beside its report (R347, R348): a refused partial write counts, the first read of an uncorrectable
stack line is found; a closed wrapper answers (R403). -/
def State.memFail (s : State) (w : Who) (f : Fail) : State :=
  if f.code = eMemUe then
    match s.resolve w f.addr.toNat with
    | .ok p =>
      match s.place p with
      | .stack k =>
        if f.pw then s.count (pgStk k) 7 1
        else if p / 64 * 64 ∈ s.ueSeen then s
        else { s with ueSeen := s.ueSeen ++ [p / 64 * 64] }.ueFound 3 k (p / 64 * 64)
      | _ => s
    | .error _ => s
  else if f.code = eIso && !f.pw then
    match (s.phys w f.addr.toNat).map s.place with
    | some (.stack k) => s.isoResponse (pgStk k)
    | some (.hearth g) => s.isoResponse (hearthPage g 0)
    | some .host => s.isoResponse (pgHlk (if s.portLinked 1 && !s.portLinked 0 then 1 else 0))
    | _ => s
  else s

/-- A beat event (R318) on a queue: TAG of the SCHED command or 0, outcome and error, DATA from byte 32. -/
def State.beatEvent (s : State) (q ctx : Nat) (tag : BitVec 32) (res : Result) (err : BitVec 16) (addr : Addr) (b : Beat)
    (data : List Byte) : State :=
  s.event q { etype := 0x0A, res := res, ctx := ctx, eng := 0, tag := tag, err := err, hearth := 0xFFFF, unit := 0,
              addr := addr, beat := b, data := data }

/-- ALERT_N is asserted: some queue holds an unconsumed record whose ETYPE bit is set in MGR_ALERT_EN (R291). -/
def State.alert (s : State) : Bool :=
  let en := s.cfg pgMgr 0x128 0x00B0
  s.queues.any fun p => p.2.live && p.2.unread.any fun t => decide (t.toNat < 16) && en.getLsbD t.toNat

end Sys2Proof.Machine
end

