-- ==== Sys2Proof/Machine/Trace.lean ====
section
/-! DEFINITION. Trace units (R479 to R484) and freeze states (R471 to R478). Trace local time is not modelled: the TIME field
of a record is free (log 9). -/

set_option Elab.async false

namespace Sys2Proof.Machine

/-- The map with `f` applied to every listed value, entries that become the default removed. -/
def SMap.mapVals {α : Type} [DecidableEq α] (m : SMap α) (d : Nat → α) (f : Nat → α → α) : SMap α :=
  m.filterMap fun p => let v := f p.1 p.2; if v = d p.1 then none else some (p.1, v)

def State.trcUnit (s : State) (die : Nat) : TraceUnit := SMap.get s.trc TraceUnit.reset die

def State.setTrc (s : State) (die : Nat) (t : TraceUnit) : State := { s with trc := SMap.put s.trc TraceUnit.reset die t }

/-- TRC_CTL of a die (Table 19.5: TSTOP 1, ENGM 0x1FF at reset). -/
def trcCtlReset : Word := 0x21FF0000

def State.trcCtl (s : State) (die : Nat) : Nat := (s.cfg (pgTrc die) 0x100 trcCtlReset).toNat

def State.hasTrc (s : State) (die : Nat) : Bool := s.hasDie die && (decide (die < 72) || decide (96 ≤ die))

/-- TRC_SIZE.LOG2 (16 at reset). -/
def State.trcLog2 (s : State) (die : Nat) : Nat := bits (s.cfg (pgTrc die) 0x10C 16).toNat 4 0

def State.trcBase (s : State) (die : Nat) : Nat :=
  (s.cfg (pgTrc die) 0x104 0).toNat / 64 * 64 + bits (s.cfg (pgTrc die) 0x108 0).toNat 15 0 * 2 ^ 32

/-- Freeze state `k` covers die `d` (R472). -/
def State.fzCovers (s : State) (k d : Nat) : Bool :=
  if k = 24 then true
  else
    match dieCord d, s.slotCtx k with
    | some c, some p => bit (blkCords p.2.block) c
    | _, _ => false

/-- A state that covers the die is frozen (TRC_STS.FRZ). -/
def State.dieFrozen (s : State) (d : Nat) : Bool := (List.range 25).any fun k => (s.fz k).v && s.fzCovers k d

/-- The 32 bytes of a record (Table 19.3), PASS still 0. -/
def traceBytes (rtype blk unit ctx hearth : Nat) (time : List Byte) (b : Beat) (tag : BitVec 32) (data : List Byte) : List Byte :=
  leBytes 1 rtype ++ leBytes 1 blk ++ leBytes 1 unit ++ leBytes 1 ctx ++ leBytes 2 hearth ++ (time ++ zeros 6).take 6
    ++ leBytes 8 b.toNat ++ leBytes 4 tag.toNat ++ (data ++ zeros 8).take 8

/-- A record into the unit's buffer: dropped and counted when 256 are buffered or stop mode is full; the next record written
after drops is preceded by a LOST record (R483). -/
def State.traceBuf (s : State) (die : Nat) (r : List Byte) : State :=
  let t := s.trcUnit die
  if t.full || decide (256 ≤ t.buf.length) then
    (s.setTrc die { t with lost := t.lost + 1 }).count (pgTrc die) 2 1
  else if t.lost ≠ 0 then
    let f := s.takeFree 6
    let l := traceBytes 0x06 0x15 0 0xFF 0xFFFF f.1 s.pkgBeat 0 (leBytes 4 t.lost)
    f.2.setTrc die { t with lost := 0, buf := t.buf ++ [l, r] }
  else s.setTrc die { t with buf := t.buf ++ [r] }

/-- A record is wanted: the unit is enabled, its type unmasked (LOST, FREEZE and PAD cannot be masked), the unit not stopped by
a freeze with TSTOP (R481 to R483). -/
def State.traceOn (s : State) (die rtype : Nat) : Bool :=
  let c := s.trcCtl die
  s.hasTrc die && bit c 31 && (decide (rtype = 5) || decide (rtype = 6) || bit c rtype)
    && !(s.dieFrozen die && bit c 29 && decide (rtype ≠ 5))

/-- A traced happening (R481). -/
def State.trace (s : State) (die rtype blk unit ctx hearth : Nat) (b : Beat) (tag : BitVec 32) (data : List Byte) : State :=
  if s.traceOn die rtype then
    let f := s.takeFree 6
    f.2.traceBuf die (traceBytes rtype blk unit ctx hearth f.1 b tag data)
  else s

/-- The same for a descriptor of engine code `e`, which ENGM must enable (R481). -/
def State.traceEng (s : State) (e die rtype blk unit ctx hearth : Nat) (b : Beat) (tag : BitVec 32) (data : List Byte) :
    State :=
  if bit (s.trcCtl die) (16 + (e - 1)) then s.trace die rtype blk unit ctx hearth b tag data else s

/-- An odd buffered record is completed to a line with a PAD record (R482). -/
def State.traceFlush (s : State) (die : Nat) : State :=
  let t := s.trcUnit die
  if t.buf.length % 2 = 1 then
    let f := s.takeFree 6
    f.2.setTrc die { t with buf := t.buf ++ [traceBytes 0x7F 0x15 0 0xFF 0xFFFF f.1 s.pkgBeat 0 []] }
  else s

/-- A line of two records written at `a`: counted, a wrap with it; a failed write discards the line and counts it (R483). -/
def State.traceStored (s : State) (die a : Nat) (bs : List Byte) (ok wrap : Bool) (pads : Nat) : State :=
  match s.write .manager a bs with
  | .ok t =>
    if ok then
      let t1 := ((t.count (pgTrc die) 0 (2 - pads)).count (pgTrc die) 1 pads).count (pgTrc die) 3 1
      if wrap then t1.count (pgTrc die) 4 1 else t1
    else s.count (pgTrc die) 5 1
  | .error _ => s.count (pgTrc die) 5 1

/-- One buffered line of two records goes to the ring (R482): record n at TRC_BASE + (n mod R) × 32 with its PASS bit; a failed
write discards the line and counts it (R483). Stop mode sets FULL once n reaches R. -/
def State.traceLine (s : State) (die : Nat) (ok : Bool) : State :=
  let t := s.trcUnit die
  match t.buf with
  | a :: b :: rest =>
    let r := 2 ^ s.trcLog2 die / 32
    let pass := fun n => if n / r % 2 = 0 then 128 else 0
    let put := fun (x : List Byte) n => setFld x 0 1 (fld x 0 1 % 128 + pass n)
    let at_ := s.trcBase die + t.wptr % r * 32
    let n := t.wptr + 2
    let pads := b2n (decide (fld b 0 1 % 128 = 0x7F)) + b2n (decide (fld a 0 1 % 128 = 0x7F))
    let full := bit (s.trcCtl die) 30 && decide (r ≤ n)
    let s1 := s.setTrc die { t with buf := if full then [] else rest, wptr := n, full := full }
    let s2 := if full then s1.count (pgTrc die) 2 rest.length else s1
    s2.traceStored die at_ (put a t.wptr ++ put b (t.wptr + 1)) ok (decide (n / r ≠ t.wptr / r)) pads
  | _ => s

/-- The dies with trace units that a freeze state covers. -/
def State.fzDies (s : State) (k : Nat) : List Nat := (List.range 100).filter fun d => s.hasTrc d && s.fzCovers k d

/-- Counter pages of a die other than its TRC page (Table 19.1). -/
def fzPages (d : Nat) : Nat := if d < 72 then 633 else if d < 98 then 1 else if d = 98 then 7 else 4

/-- On every covered unit with TSTOP = 1: on a freeze the unit flushes, then comes the FREEZE record (R483). -/
def State.fzTrace (s : State) (k action src : Nat) : State :=
  (s.fzDies k).foldl (fun t d =>
    if bit (t.trcCtl d) 29 then
      let u := if action = 0 then t.traceFlush d else t
      u.trace d 0x05 0x15 0 0xFF 0xFFFF (u.slotBeat (u.pageSlot d)) 0
        (leBytes 1 action ++ leBytes 1 src ++ leBytes 1 (b2n (decide (k = 24))))
    else t) s

/-- The event of a change of V (R478). -/
def State.fzEvent (s : State) (k action src idx q ctx : Nat) (tag : BitVec 32) : State :=
  let f := s.fz k
  s.beatEvent q ctx tag .done (if action = 0 then f.err else 0) 0 f.beat (leBytes 2 idx ++ zeros 1 ++ leBytes 1 1 ++ leBytes 1 action ++ leBytes 1 src
    ++ leBytes 1 (b2n (decide (k = 24))) ++ zeros 1 ++ leBytes 8 f.beat.toNat)

/-- The queue of a freeze event: the SCHED's queue for source 1, else the context's queue or the admin queue (R478). -/
def State.fzQueue (s : State) (k : Nat) : Nat × Nat :=
  if k = 24 then (0, 0xFF)
  else
    match s.slotCtx k with
    | some p => (p.2.queue, p.1)
    | none => (0, 0xFF)

/-- State `k` freezes from a source (R472, R473): a frozen state only takes MORE (R476). -/
def State.fzSet (s : State) (k src : Nat) (err : BitVec 16) (q ctx : Nat) (tag : BitVec 32) (idx : Nat) : State :=
  let f := s.fz k
  if f.v then { s with freeze := SMap.put s.freeze Freeze.reset k { f with more := true } }
  else
    let b := s.slotBeat (if k = 24 then s.tslot else k)
    let s0 := s.fzTrace k 0 src
    let g : Freeze := { v := true, more := false, src := BitVec.ofNat 3 src, err := err, beat := b }
    let s1 := { s0 with freeze := SMap.put s0.freeze Freeze.reset k g }
    let s2 := (s1.fzDies k).foldl (fun t d => t.count (pgTrc d) 6 (fzPages d)) s1
    s2.fzEvent k 0 src idx q ctx tag

/-- Every counter that a state covers is cleared (R474). -/
def State.fzClear (s : State) (k : Nat) : State :=
  { s with pages := SMap.mapVals s.pages (fun _ => Page.reset) fun pg p =>
      match s.pageInfo pg with
      | some i => if s.fzCovers k i.die && decide (i.blk ≠ 0x15) then { p with cnt := [] } else p
      | none => p }

/-- State `k` thaws: V and MORE clear, SRC, ERR and the beat stay (R476). -/
def State.fzThaw (s : State) (k src : Nat) (q ctx : Nat) (tag : BitVec 32) (idx : Nat) : State :=
  let f := s.fz k
  if f.v then
    let s1 := { s with freeze := SMap.put s.freeze Freeze.reset k { f with v := false, more := false } }
    (s1.fzTrace k 1 src).fzEvent k 1 src idx q ctx tag
  else s

/-- FRZN is driven low: POUT is set and the package state is frozen (R477). -/
def State.frznLow (s : State) : Bool := (s.cfg pgTrcMgr 0x140 0).getLsbD 26 && (s.fz 24).v

/-- The error freeze of R473: a forwarded status whose code has its bit set in TRC_FERR. -/
def State.fzError (s : State) (slot : Nat) (code : BitVec 16) : State :=
  let m := (s.cfg pgTrcMgr 0x144 0).toNat
  if decide (code.toNat ≤ 13) && bit m code.toNat && decide (code ≠ 0) then
    let k := if bit (s.cfg pgTrcMgr 0x140 0).toNat 25 then 24 else slot
    let qc := s.fzQueue k
    s.fzSet k 3 code qc.1 qc.2 0 0xFFFF
  else s

end Sys2Proof.Machine
end

