-- ==== Sys2Proof/Machine/Mesh.lean ====
section
/-! DEFINITION. The compute mesh (R9 to R12): attachments, routes, entry dies, host ports (R360, R423), and what moving bytes shows
in the counters of dies and stacks (R345, R362, R387). -/

set_option Elab.async false

namespace Sys2Proof.Machine

/-! Places and routes. -/

/-- Mesh column of a compute die (R9). -/
def meshX (d : Nat) : Nat := d / 9

/-- Mesh row of a compute die (R9). -/
def meshY (d : Nat) : Nat := d % 9

/-- An edge of a compute die, by the DIE counter that shows its bytes (Table 15.6). -/
inductive Edge where
  | north
  | south
  | west
  | east
  deriving DecidableEq, Repr

def Edge.cnt : Edge → Nat
  | .north => 2
  | .south => 3
  | .west => 4
  | .east => 5

/-- The compute dies that a die beside the mesh attaches to, and through which edge of theirs (Table 1.3). -/
def attach (d : Nat) : List Nat × Edge :=
  if d = 96 then ([0, 1, 2], .west) else if d = 99 then ([3, 4, 5], .west) else if d = 98 then ([6, 7, 8], .west)
  else ([18, 27, 36], .north)

/-- The distance of two numbers. -/
def gap (a b : Nat) : Nat := (a - b) + (b - a)

/-- The length of the route between two compute dies (R11). -/
def hops (a b : Nat) : Nat := gap (meshX a) (meshX b) + gap (meshY a) (meshY b)

/-- The edges that a transfer crosses from compute die `a` to `b`, each with the die it leaves: along the row first, then along the
column (R11). -/
def route (a b : Nat) : List (Nat × Edge) :=
  let x := meshX a
  let y := meshY a
  let u := meshX b
  let v := meshY b
  (if x ≤ u then (List.range (u - x)).map fun i => ((x + i) * 9 + y, Edge.east)
   else (List.range (x - u)).map fun i => ((x - i) * 9 + y, Edge.west))
    ++ if y ≤ v then (List.range (v - y)).map fun i => (u * 9 + (y + i), Edge.south)
       else (List.range (y - v)).map fun i => (u * 9 + (y - i), Edge.north)

/-- Of the dies `l`, the one nearest to `a`, the first of those equally near. -/
def nearest (a : Nat) (l : List Nat) : Nat := l.foldl (fun m d => if hops a d < hops a m then d else m) (l.headD 0)

/-- The compute die at which a transfer from compute die `a` leaves the mesh for die `d` beside it (R11). -/
def attachDie (a d : Nat) : Nat := nearest a (attach d).1

/-- The die whose stack edge an access of compute die `a` to the stack of cord `c` uses: its own, or the entry die, whose row is
nearest (R12). -/
def entryDie (a c : Nat) : Nat :=
  let l := [3 * c, 3 * c + 1, 3 * c + 2]
  if a / 3 = c then a
  else l.foldl (fun m d => if gap (meshY a) (meshY d) < gap (meshY a) (meshY m) then d else m) (3 * c)

/-- The Larfort port that carries host traffic of compute die `d` under DMA_CFG.PORT (R360); a port that is down leaves it to the
other (R423). -/
def State.hostPort (s : State) (d port a : Nat) : Nat :=
  let want :=
    if port = 1 then 0 else if port = 2 then 1 else if port = 3 then a / 4096 % 2
    else if hops d (attachDie d 96) ≤ hops d (attachDie d 97) then 0 else 1
  if s.portUp want || !s.portUp (1 - want) then want else 1 - want

/-! Ranges of memory. -/

/-- Bytes that one billet moves, and the pieces of a prefetch (R294, R351, R355). -/
def pieceLen : Nat := 2097152

/-- A piece of a prefetch: offset and length. -/
def Prefetch.pieces (f : Prefetch) : List (Nat × Nat) :=
  (List.range (ceilDiv f.len pieceLen)).map fun k => (k * pieceLen, min pieceLen (f.len - k * pieceLen))

/-- The compute dies whose DMA engine 7 runs pieces of a prefetch: the first ones of the partition (R355). -/
def Prefetch.dies (f : Prefetch) (c : Ctx) : List Nat := c.dies.take f.pieces.length

/-- The page of DMA engine 7 of a compute die (Table 15.4). -/
def dma7 (d : Nat) : Nat := diePage d 8

/-- The range of `n` bytes that an agent names at `a`, cut where `step` divides the named address, each piece with its direct
address (R342): a piece within 2 MiB lies whole in one place. -/
def State.physRuns (s : State) (w : Who) (step : Nat) : Nat → Nat → Nat → List (Nat × Nat)
  | 0, _, _ => []
  | fuel + 1, a, n =>
    if n = 0 then []
    else
      let m := min n (step - a % step)
      (match s.phys w a with
        | some p => [(p, m)]
        | none => []) ++ s.physRuns w step fuel (a + m) (n - m)

/-- The pieces of a range, whole in one place each; of 4 KiB where host ports alternate (R360). -/
def State.runs (s : State) (w : Who) (port a n : Nat) : List (Nat × Nat) :=
  let step := if port = 3 ∧ 0x800000000000 ≤ a then 4096 else 2 ^ 21
  s.physRuns w step (n / step + 2) a n

/-- Two ranges that an agent names share a byte, however they name it (R342, R351). -/
def State.sharesBytes (s : State) (w : Who) (a b n : Nat) : Bool :=
  (s.runs w 0 a n).any fun x => (s.runs w 0 b n).any fun y => decide (x.1 < y.1 + y.2 ∧ y.1 < x.1 + x.2)

/-! What is counted. -/

/-- Bytes over the stack edge of die `d` (Table 15.6). -/
def State.overStack (s : State) (d n : Nat) : State := s.count (diePage d 0) 6 n

/-- Bytes over the edges of a route (Table 15.6). -/
def State.overMesh (s : State) (l : List (Nat × Edge)) (n : Nat) : State :=
  l.foldl (fun t e => t.count (diePage e.1 0) e.2.cnt n) s

/-- Lines of the piece `r`. -/
def runLines (r : Nat × Nat) : Nat := (r.1 + r.2 + 63) / 64 - r.1 / 64

/-- A unit whose errors the code has corrected holds a good code again; a stack line counts (R345). -/
def State.corrected (s : State) (k : Nat) : State :=
  let t := { s with errs := SMap.erase s.errs k }
  match s.place k with
  | .stack c => t.count (pgStk c) 2 1
  | _ => t

/-- The correctable units of the piece `r` are corrected by its read (R345). -/
def State.readRun (s : State) (r : Nat × Nat) : State :=
  ((s.errs.map fun p => p.1).filter fun k => decide (r.1 < k + s.ueSize k ∧ k < r.1 + r.2)).foldl State.corrected s

/-- The piece `r` read into compute die `d`. -/
def State.fetchRun (s : State) (d port : Nat) (r : Nat × Nat) : State :=
  let t := s.readRun r
  match s.place r.1 with
  | .stack c =>
    let e := entryDie d c
    ((t.count (pgStk c) 0 (runLines r)).overStack e r.2).overMesh (route e d) r.2
  | .hearth g => t.overMesh (route (g / 48) d) r.2
  | .host => t.overMesh (route (attachDie d (96 + s.hostPort d port r.1)) d) r.2
  | .bad => t

/-- The piece `r` written from compute die `d`. -/
def State.sendRun (s : State) (d port : Nat) (r : Nat × Nat) : State :=
  match s.place r.1 with
  | .stack c =>
    let e := entryDie d c
    ((s.count (pgStk c) 1 (runLines r)).overMesh (route d e) r.2).overStack e r.2
  | .hearth g => s.overMesh (route d (g / 48)) r.2
  | .host =>
    let l := 96 + s.hostPort d port r.1
    let x := attachDie d l
    s.overMesh (route d x ++ [(x, (attach l).2)]) r.2
  | .bad => s

/-- The compute die of a hearth place. -/
def State.hearthOf (s : State) (p : Nat) : Option Nat :=
  match s.place p with
  | .hearth g => some (g / 48)
  | _ => none

/-- Bytes of hearth memory of one die sent to another die: read by an engine of die `d` for the place at direct address `q`
(Table 15.6). -/
def State.leftDie (s : State) (d q : Nat) (r : Nat × Nat) : State :=
  match s.hearthOf r.1 with
  | some h => if h ≠ d ∨ s.hearthOf q ≠ some h then s.count (diePage h 0) 7 r.2 else s
  | none => s

/-- `n` bytes copied by an engine of compute die `d` from `src` to `dst`, as an agent names them; a source of zeros is not read. -/
def State.moved (s : State) (w : Who) (d port : Nat) (src : Option Nat) (dst n : Nat) : State :=
  let q := (s.phys w dst).getD 0
  let t := match src with
    | some a => (s.runs w port a n).foldl (fun t r => (t.fetchRun d port r).leftDie d q r) s
    | none => s
  (s.runs w port dst n).foldl (fun t r => t.sendRun d port r) t

/-- `n` bytes copied by the near-memory engine of cord `k` (R351): over a stack edge of the cord, which the manual does not name
(log 143), where the other side is not its own stack. -/
def State.nearMoved (s : State) (w : Who) (k src dst n : Nat) : State :=
  let e := 3 * k + Config.freeNat s.fresh % 3
  let own := fun (t : State) (r : Nat × Nat) => decide (t.place r.1 = .stack k)
  let s1 := (s.runs w 0 src n).foldl (fun t r =>
    if own t r then (t.readRun r).count (pgStk k) 0 (runLines r) else (t.fetchRun e 0 r).overStack e r.2) { s with fresh := s.fresh + 1 }
  (s.runs w 0 dst n).foldl (fun t r =>
    if own t r then t.count (pgStk k) 1 (runLines r) else (t.overStack e r.2).sendRun e 0 r) s1

/-- A near-memory atomic or add at an address counts with its base die (R362). -/
def State.countAtomic (s : State) (w : Who) (a : Nat) : State :=
  match (s.phys w a).map s.place with
  | some (.stack k) => s.count (pgStk k) 6 1
  | _ => s

/-- A free number of lines or bytes. -/
def State.countFree (s : State) (pg i : Nat) : State := { s with fresh := s.fresh + 1 }.count pg i (Config.freeNat s.fresh)

/-- The lines and bytes that a descriptor's operands moved: the manual does not say how often an engine fetches a line, so the
stacks of the partition and the mesh count free numbers, and a correctable unit of the partition may have been met (log 143). -/
def State.operandsMoved (s : State) (c : Ctx) : State :=
  let s1 := c.cords.foldl (fun t k => (t.countFree (pgStk k) 0).countFree (pgStk k) 1) s
  let s2 := ((List.range 72).filter fun d => s.hasDie d).foldl
    (fun t d => [2, 3, 4, 5, 6, 7].foldl (fun t i => t.countFree (diePage d 0) i) t) s1
  (s2.errs.map fun p => p.1).foldl (fun t k =>
    if Config.freeNat t.fresh % 2 = 1 ∧ Who.allowed (.desc c) (t.place k) k = true then { t with fresh := t.fresh + 1 }.corrected k
    else { t with fresh := t.fresh + 1 }) s2

end Sys2Proof.Machine
end

