-- ==== Sys2Proof/Machine/Draught.lean ====
section
/-! DEFINITION. The draught (R322 to R338): the ledger, grants through the three tiers, surge, reclaim, sensors. -/

set_option Elab.async false

namespace Sys2Proof.Machine

/-- Base draw of a domain in a state (Table 13.3). -/
def domDraw (k : Nat) (st : BitVec 2) : Nat :=
  let p : Nat × Nat :=
    if k < 216 then if k % 3 = 0 then (60, 6) else if k % 3 = 1 then (180, 30) else (200, 20)
    else if k < 264 then if k % 2 = 0 then (900, 120) else (250, 30)
    else if k < 282 then (150, 15) else (100, 10)
  if st = 1 then p.1 else if st = 2 then p.2 else 0

/-- What a domain reserves: the higher draw of its state and, while a granted transition runs, of its request (R333). -/
def State.domReserve (s : State) (k : Nat) : Nat :=
  let d := s.dom k
  if d.busy && !(decide (k ∈ s.drt.domWait)) then max (domDraw k d.state) (domDraw k d.req) else domDraw k d.state

def State.domIdx (s : State) : List Nat := (List.range 290).filter fun k => s.hasDom k

/-- The base reservation, DRT_BASE (R323, R332). -/
def State.drtBase (s : State) : Nat := (s.domIdx.map s.domReserve).sum

/-- DRT_PRSVk (R337). -/
def State.prsv (s : State) (k : Nat) : Nat := (s.cfg pgDrt (0x800 + 4 * k) 0).toNat

/-- The floor in force of slot `k`. -/
def State.floor (s : State) (k : Nat) : Nat := if bit (s.prsv k) 31 then bits (s.prsv k) 16 0 else 0

def State.floors (s : State) : Nat := ((List.range 24).map s.floor).sum

def SMap.total (m : SMap Nat) : Nat := (m.map fun p => p.2).sum

/-- Credits held outside the manager die (R323): in die stores, hearth pools, engines, and on their way. -/
def State.drtOutside (s : State) : Nat :=
  SMap.total s.drt.dieFree + SMap.total s.drt.poolFree + SMap.total s.drt.inflight + SMap.total s.drt.returning
    + (s.engines.map fun p => (p.2.win.map fun e => e.credits).sum).sum + (s.prefetch.map fun f => f.held.length).sum

/-- Credits held outside the manager that count inside a floor in force (R337). -/
def State.floorCover (s : State) : Nat := (s.drt.floorUsed.map fun p => min p.2 (s.floor p.1)).sum

/-- Committed, DRT_COMMIT (R323): credits drawn on a floor count once, in the floor (R337). -/
def State.committed (s : State) : Nat := s.drtBase + s.floors + (s.drtOutside - s.floorCover)

/-- The highest budget (R325). -/
def State.maxBudget (s : State) : Nat := if s.small then 190000 else 270000
def State.minBudget (s : State) : Nat := if s.small then 70000 else 100000
def State.maxLim (s : State) : Nat := if s.small then 225000 else 320000

/-- The budget that STRAP_DRT gives (Table 13.1). -/
def State.strapBudget (s : State) : Nat :=
  min s.maxBudget (min (150000 + 20000 * s.strapDrt) 270000)

/-- The budget in force (R323, R324, R325). -/
def State.budget (s : State) : Nat :=
  match s.drt.budget with
  | some b => b.toNat
  | none => s.strapBudget

/-- DRT_SURGE.LIM in force, never below B (R326, R338). -/
def State.surgeLim (s : State) : Nat :=
  match s.drt.lim with
  | some l => max s.budget (min s.maxLim l.toNat)
  | none => s.maxLim

/-- The limit of R323. -/
def State.drtLimit (s : State) : Nat := if s.drt.act then s.surgeLim else s.budget

/-- DRT_STS.OVER (R325). -/
def State.drtOver (s : State) : Bool := decide (s.budget < s.committed)

def State.setDrt (s : State) (d : Draught) : State := { s with drt := d }

/-- A draught event (R336). -/
def State.drtEvent (s : State) (kind : Nat) : State :=
  s.pkgEvent 0x08 0 0 (leBytes 1 kind ++ zeros 3 ++ leBytes 4 s.committed ++ leBytes 4 s.drt.draw.toNat)

/-- The caps of a hearth pool and a die store: lower while the manager holds a request that it cannot grant (R328). -/
def State.poolCap (s : State) : Nat := if s.drt.waiting.isEmpty && s.drt.domWait.isEmpty then 96 else 16
def State.dieCap (s : State) : Nat := if s.drt.waiting.isEmpty && s.drt.domWait.isEmpty then 512 else 64

/-- Free credits of one die above `pc` in a hearth pool and `dc` in the die store flow up its tiers at once (R328). -/
def State.capDieAt (s : State) (pc dc d : Nat) : State :=
  let pools := (List.range 48).map fun h => (d * 48 + h, SMap.get s.drt.poolFree 0 (d * 48 + h))
  let up := (pools.map fun p => p.2 - pc).sum
  let pf := pools.foldl (fun m p => if pc < p.2 then SMap.put m 0 p.1 pc else m) s.drt.poolFree
  let df := SMap.get s.drt.dieFree 0 d + up
  let ret := df - dc
  s.setDrt { s.drt with poolFree := pf, dieFree := SMap.put s.drt.dieFree 0 d (df - ret),
                        returning := SMap.put s.drt.returning 0 d (SMap.get s.drt.returning 0 d + ret) }

/-- Credits above the caps in force flow up (R328). -/
def State.capDie (s : State) (d : Nat) : State := s.capDieAt s.poolCap s.dieCap d

/-- A posted reclaim reaches every die store and hearth pool: what they hold above 64 and 16 returns (R328); counted in DRT_CNT_RECL. -/
def State.reclaim (s : State) : State :=
  ((List.range 72).foldl (fun t d =>
    if decide (SMap.get t.drt.dieFree 0 d = 0) && !(t.drt.poolFree.any fun p => decide (p.1 / 48 = d)) then t
    else t.capDieAt 16 64 d) s).count pgDrt 2 1

/-- An engine returns credits to its hearth pool, a DMA engine to its die store (R328). -/
def State.returnCredits (s : State) (u n : Nat) : State :=
  match s.pageInfo u with
  | none => s
  | some i =>
    if n = 0 then s
    else
      let s1 := match i.hearth with
        | some h => s.setDrt { s.drt with poolFree := SMap.put s.drt.poolFree 0 (i.die * 48 + h) (SMap.get s.drt.poolFree 0 (i.die * 48 + h) + n) }
        | none => s.setDrt { s.drt with dieFree := SMap.put s.drt.dieFree 0 i.die (SMap.get s.drt.dieFree 0 i.die + n) }
      s1.capDie i.die

/-- The slot whose floor the dies of a partition draw on (R337). -/
def State.dieSlot (s : State) (d : Nat) : Option Nat :=
  match dieCord d with
  | none => none
  | some c => (s.cordCtx c).map fun p => p.2.slot

/-- The unused part of the floor that die `d` may draw on. -/
def State.floorFree (s : State) (d : Nat) : Nat :=
  match s.dieSlot d with
  | none => 0
  | some k => s.floor k - SMap.get s.drt.floorUsed 0 k

/-- What the manager can grant to a chunk request of die `d` now: 256 credits, or the remainder of at least 16 (R327);
nothing while committed is above B outside a surge (R325). -/
def State.chunk (s : State) (d : Nat) : Option Nat :=
  if s.drtOver && !s.drt.act then none
  else
    let avail := s.floorFree d + (s.drtLimit - s.committed)
    if 256 ≤ avail then some 256 else if 16 ≤ avail then some avail else none

/-- A chunk on its way to a die store, its floor part counted in the floor (R327, R337). -/
def State.grantChunk (s : State) (d n : Nat) : State :=
  let ff := min n (s.floorFree d)
  let fu := match s.dieSlot d with
    | some k => SMap.put s.drt.floorUsed 0 k (SMap.get s.drt.floorUsed 0 k + ff)
    | none => s.drt.floorUsed
  let s1 := s.setDrt { s.drt with inflight := SMap.put s.drt.inflight 0 d (SMap.get s.drt.inflight 0 d + n),
                                  floorUsed := fu, waiting := s.drt.waiting.filter fun x => x ≠ d }
  let s2 := s1.count pgDrt 0 1
  s2.trace 99 0x09 0x11 0 0xFF 0xFFFF s2.pkgBeat 0 (leBytes 4 n ++ leBytes 1 d)

/-- Waiting requests are served oldest first: domain raises ahead of chunks (R329, R333). -/
def State.serveDraught (fuel : Nat) (s : State) : State :=
  match fuel with
  | 0 => s
  | fuel + 1 =>
    match s.drt.domWait with
    | k :: r =>
      let dom := s.dom k
      let need := domDraw k dom.req - domDraw k dom.state
      if s.committed + need ≤ s.drtLimit then (s.setDrt { s.drt with domWait := r }).serveDraught fuel else s
    | [] =>
      match s.drt.waiting with
      | [] => s
      | d :: _ =>
        match s.chunk d with
        | some n => (s.grantChunk d n).serveDraught fuel
        | none => s

/-- A surge ends: the limit returns to B and a reclaim is posted; recovery begins once committed is at B or below, and a
surge that ends above B is counted and reported (R326). -/
def State.endSurge (s : State) : State :=
  let s1 := (s.setDrt { s.drt with act := false }).reclaim
  if s1.drtOver then ((s1.setDrt { s1.drt with owed := true }).count pgDrt 7 1).drtEvent 3
  else s1.setDrt { s1.drt with rcv := true }

/-- What a fall of committed brings about (R326). -/
def State.ledgerFell (s : State) : State :=
  let s1 := if s.drt.act && !s.drtOver then s.endSurge else s
  let s2 := if s1.drt.owed && !s1.drtOver then s1.setDrt { s1.drt with owed := false, rcv := true } else s1
  s2.serveDraught (s2.drt.domWait.length + s2.drt.waiting.length)

/-- K7: engine credits are granted (R333, R410). -/
def State.ready (s : State) : Bool := decide (s.pkgPhase = 7) && !s.kind.halt

/-- The waiting requests are served; where a chunk request still waits that the controller cannot grant, a surge is entered (R326)
or, in recovery or where no surge may be, a reclaim is posted (R328). -/
def State.serveOrSurge (s : State) : State :=
  let s1 := s.serveDraught (s.drt.domWait.length + s.drt.waiting.length)
  if s1.drt.waiting.isEmpty then s1
  else if !s1.drt.rcv && s1.drt.sen && !s1.drt.act && !s1.drt.owed then
    let s2 := (s1.setDrt { s1.drt with act := true }).count pgDrt 3 1
    let s3 := s2.serveDraught (s2.drt.domWait.length + s2.drt.waiting.length)
    if s3.drt.waiting.isEmpty then s3 else s3.reclaim
  else s1.reclaim

/-- The draught controller's wrapper is closed: the transfer ends with ISO_ERR (R403), and nothing else happens. -/
def State.drtRefuses (s : State) : Bool := !s.isOpen pgDrt

/-- CHUNK_GRANT (R327): the credits in flight arrive at the die store. -/
def execChunkGrant (die : Nat) (s : State) : Host.Outcome State Fault Refusal :=
  let n := SMap.get s.drt.inflight 0 die
  .next ((s.setDrt { s.drt with inflight := SMap.put s.drt.inflight 0 die 0,
                                dieFree := SMap.put s.drt.dieFree 0 die (SMap.get s.drt.dieFree 0 die + n) }).capDie die)

/-- CREDIT_RETURN (R328): returned credits of a die reach the manager, the floor refilled first (R337). -/
def execCreditReturn (die : Nat) (s : State) : Host.Outcome State Fault Refusal :=
  if s.drtRefuses then .next (s.isoResponse pgDrt)
  else
  let n := SMap.get s.drt.returning 0 die
  let fu := match s.dieSlot die with
    | some k => SMap.put s.drt.floorUsed 0 k (SMap.get s.drt.floorUsed 0 k - n)
    | none => s.drt.floorUsed
  .next ((s.setDrt { s.drt with returning := SMap.put s.drt.returning 0 die 0, floorUsed := fu }).ledgerFell)

/-- SURGE_END (R326): 19 ms after entry. -/
def execSurgeEnd (s : State) : Host.Outcome State Fault Refusal :=
  if s.drt.act then let t := s.endSurge; .next (t.serveDraught (t.drt.domWait.length + t.drt.waiting.length)) else .next s

/-- RECOVERY_END (R326): 200 ms after recovery began; a chunk request that still waits may enter a surge now. -/
def execRecoveryEnd (s : State) : Host.Outcome State Fault Refusal :=
  let t := s.setDrt { s.drt with rcv := false }
  .next (if t.drt.waiting.isEmpty then t else t.serveOrSurge)

/-- The sensor limit (R334): the limit, the old budget for 10 ms after each lowering (R325), LIM after a long surge. -/
def State.sensorLimit (s : State) : Nat :=
  s.drt.widen.foldl max (if s.drt.owed then s.surgeLim else s.drtLimit)

/-- SENSOR_SAMPLE (R334): the summed converter currents; the tenth consecutive sample above 1.05 × the limit trips, and a run
that ends while ACLK is already halved only restarts the halving. -/
def execSensorSample (draw : BitVec 20) (s : State) : Host.Outcome State Fault Refusal :=
  if s.drtRefuses then .next s
  else
  let s1 := s.setDrt { s.drt with draw := draw }
  if draw.toNat * 100 ≤ 105 * s1.sensorLimit then .next (s1.setDrt { s1.drt with overRun := 0 })
  else if s1.drt.overRun + 1 < 10 then .next (s1.setDrt { s1.drt with overRun := s1.drt.overRun + 1 })
  else
    let s2 := s1.setDrt { s1.drt with overRun := 0 }
    if s2.drt.half then .next s2
    else
      let s3 := (s2.setDrt { s2.drt with half := true }).count pgDrt 5 1
      let s4 := if s3.drt.act then s3.endSurge else s3
      .next (s4.drtEvent 2)

/-- ACLK_HALVE_END (R334). -/
def execAclkHalveEnd (s : State) : Host.Outcome State Fault Refusal := .next (s.setDrt { s.drt with half := false })

/-- SENSOR_LIMIT_WIDEN_END (R325): the 10 ms of the oldest lowering are over. -/
def execSensorLimitWidenEnd (s : State) : Host.Outcome State Fault Refusal :=
  .next (s.setDrt { s.drt with widen := s.drt.widen.tail })

/-- The effect of a write of DRT_BUDGET (R325): clamped; a lowering widens the sensor limit, ends a surge, and posts a reclaim
when committed exceeds the new budget. -/
def State.setBudget (s : State) (v : Nat) : State :=
  let old := s.budget
  let b := max s.minBudget (min s.maxBudget v)
  let s1 := s.setDrt { s.drt with budget := some (BitVec.ofNat 19 b), widen := if b < old then s.drt.widen ++ [old] else s.drt.widen }
  let s2 := if s1.drt.act then s1.endSurge else s1
  if b < old then if s2.drtOver then s2.reclaim else s2
  else s2.ledgerFell

/-- The effect of a write of DRT_SURGE (R338): SEN, and LIM clamped to [BUDGET, 320,000]; a chunk request that waits may enter a
surge now, or be granted under the new ceiling (R326). -/
def State.setSurge (s : State) (w : Nat) : State :=
  let t := s.setDrt { s.drt with sen := bit w 31, lim := some (BitVec.ofNat 19 (max s.budget (min s.maxLim (bits w 18 0)))) }
  if t.drt.waiting.isEmpty then t else t.serveOrSurge

/-- The effect of a write of DRT_PRSVk under expert unlock (R337): ignored, EN reading 0, without a live context on the slot or
when the floors, the base reservation and 16,384 would exceed B. A floor that is no longer in force has nothing drawn on it. -/
def State.setPrsv (s : State) (k w : Nat) : State :=
  let put := fun (t : State) (v : Nat) =>
    let p := t.page pgDrt
    t.setPage pgDrt { p with cfg := SMap.put p.cfg 0 (0x800 + 4 * k) (BitVec.ofNat 32 v) }
  let off := s.setDrt { s.drt with floorUsed := SMap.put s.drt.floorUsed 0 k 0 }
  let floor := if bit w 31 then bits w 16 0 else 0
  if (s.slotCtx k).isSome && decide (s.floors - s.floor k + floor + s.drtBase + 16384 ≤ s.budget) then
    if bit w 31 then put s (2 ^ 31 + bits w 16 0) else put off (bits w 16 0)
  else put off (bits (s.prsv k) 16 0)

end Sys2Proof.Machine
end

