-- ==== Sys2Proof/Machine/Queue.lean ====
section
/-! DEFINITION. Acceptance of host commands (R284 to R289, R502, R503): the command line's form, the order in which commands
start (R286, R295), control lines, stopped queues. -/

set_option Elab.async false

namespace Sys2Proof.Machine

/-! The form of a command line (Tables 11.3, 11.6). -/

/-- Kind of a command (R292). -/
inductive CmdKind where
  | immediate
  | step
  | billeted
  deriving DecidableEq, Repr

def cmdKind (opc : Nat) : CmdKind :=
  match opc with
  | 0x06 => .billeted
  | 0x07 => .billeted
  | 0x08 => .step
  | 0x0C => .billeted
  | 0x0D => .billeted
  | 0x0F => .billeted
  | 0x10 => .billeted
  | 0x11 => .billeted
  | 0x12 => .billeted
  | _ => .immediate

/-- Command of the admin queue alone. -/
def cmdAdmin (opc : Nat) : Bool := decide (opc = 2 ∨ opc = 3)

/-- Command of a queue of privilege S or above (Table 11.6). -/
def cmdSuper (opc : Nat) : Bool := decide (opc = 4 ∨ opc = 5 ∨ opc = 7 ∨ opc = 0x0D ∨ opc = 0x11 ∨ opc = 0x12)

/-- Command that acts on its context. -/
def cmdNeedsCtx (opc : Nat) : Bool :=
  decide (opc = 5 ∨ opc = 6 ∨ opc = 8 ∨ opc = 0x0A ∨ opc = 0x0B ∨ opc = 0x0E ∨ opc = 0x0F ∨ opc = 0x10)

/-- A package address of host memory, 64-byte aligned (R284, R341). -/
def hostAligned (a : Nat) : Bool := decide (a % 64 = 0 ∧ 0x800000000000 ≤ a ∧ a < 0x1000000000000)

/-- The arguments of Table 11.6: reserved bytes and bits 0, fields in their ranges. -/
def cmdForm (l : List Byte) : Bool :=
  match cOpc l with
  | 0x01 => zeroAt l 8 64
  | 0x02 => decide (1 ≤ fld l 8 1 ∧ fld l 8 1 ≤ 63) && decide (4 ≤ fld l 9 1 ∧ fld l 9 1 ≤ 12) && decide (fld l 10 1 % 128 = 0)
      && decide (4 ≤ fld l 12 1 ∧ fld l 12 1 ≤ 12) && zeroAt l 13 16 && zeroAt l 22 24 && zeroAt l 30 32 && zeroAt l 38 40
      && zeroAt l 46 64 && hostAligned (fld l 16 6) && hostAligned (fld l 24 6) && hostAligned (fld l 32 6)
      && hostAligned (fld l 40 6)
  | 0x03 => decide (1 ≤ fld l 8 1 ∧ fld l 8 1 ≤ 63) && zeroAt l 9 64
  | 0x04 => decide (fld l 8 6 % 64 = 0) && zeroAt l 14 64
  | 0x05 => zeroAt l 8 64
  | 0x06 => decide (fld l 14 1 < 2) && zeroAt l 15 16 && zeroAt l 24 64
  | 0x07 => decide (fld l 16 6 % 64 = 0) && zeroAt l 14 16 && zeroAt l 22 64
  | 0x08 => zeroAt l 14 16 && zeroAt l 30 32 && zeroAt l 38 64
  | 0x09 => decide (fld l 8 1 ≤ 63) && zeroAt l 9 10 && zeroAt l 16 64
  | 0x0A => decide (fld l 8 2 ≤ 0x1FFF) && decide (fld l 10 1 < 2) && zeroAt l 11 12 && zeroAt l 16 64
      && !(bit (fld l 10 1) 0 && decide (fld l 12 4 ≠ 0))
  | 0x0B => decide (fld l 15 1 = 0) && decide (fld l 16 1 ≤ 5) && zeroAt l 17 18 && zeroAt l 20 24
      && (match fld l 16 1 with
        | 0 => zeroAt l 24 64
        | 1 => zeroAt l 18 20 && zeroAt l 30 32 && zeroAt l 38 40 && decide (fld l 48 1 < 2) && zeroAt l 49 64
        | 2 => zeroAt l 18 20 && zeroAt l 30 32 && zeroAt l 38 40 && zeroAt l 56 64
            && decide (fld l 40 8 % 64 = 0 ∧ 64 ≤ fld l 40 8 ∧ fld l 40 8 ≤ 2 ^ 40) && decide (fld l 48 2 ≤ 0x1FFF)
        | 3 => zeroAt l 18 20 && decide (fld l 24 1 < 8) && zeroAt l 25 64
        | 4 => zeroAt l 18 20 && decide (fld l 24 1 < 2) && zeroAt l 25 28 && zeroAt l 36 64
        | _ => zeroAt l 18 20 && decide (fld l 24 2 ≤ 0x1FFF) && zeroAt l 26 28 && zeroAt l 32 64)
  | 0x0C => zeroAt l 14 16 && zeroAt l 22 24 && decide (fld l 32 1 < 2) && zeroAt l 33 64
  | 0x0D => zeroAt l 11 64
  | 0x0E => decide (1 ≤ fld l 8 1 ∧ fld l 8 1 ≤ 8) && zeroAt l 9 12 && zeroAt l 25 32 && zeroAt l 38 40 && zeroAt l 44 48
      && zeroAt l 54 64
  | 0x0F => zeroAt l 8 64
  | 0x10 => zeroAt l 12 64
  | 0x11 => decide (1 ≤ fld l 8 1 ∧ fld l 8 1 ≤ 2) && zeroAt l 9 64
  | 0x12 => zeroAt l 14 16 && decide (fld l 20 1 < 2) && zeroAt l 21 64
  | _ => false

/-- What R288 refuses whatever the state of the contexts: the form, and the queue's privilege. -/
def Queue.refuses (q : Nat) (x : Queue) (l : List Byte) : Bool :=
  !(cmdForm l) || decide (fld l 1 1 % 64 ≠ 0) || decide (fld l 3 1 ≠ 0)
    || (cmdAdmin (cOpc l) && decide (q ≠ 0)) || (cmdSuper (cOpc l) && x.ownU)

/-- The CTX field names what the command may name (R288). -/
def State.ctxFieldOk (s : State) (x : Queue) (l : List Byte) : Bool :=
  if cCtx l = 0xFF then !cmdNeedsCtx (cOpc l)
  else (s.ctx? (cCtx l)).isSome && (!x.ownU || decide (cCtx l = x.octx))

/-! Acceptance (R286). -/

/-- Commands are served (R295, R456): in K7, and by no firmware that is being replaced. -/
def State.serving (s : State) : Bool := s.ready && s.fw.activating.isNone && s.isOpen pgMgr

/-- Slot `h` of the command ring. -/
def Queue.slotAddr (x : Queue) (h : Nat) : Nat := x.cmd.toNat + 64 * h

/-- The command in slot H is accepted where the line carries the expected phase; one whose form is refused fails at once
(R286, R288). A queue that waits for its QDESTROY accepts none (R293); the admin queue does until its disable takes effect (R304). -/
def State.acceptOne (s : State) (q : Nat) : Option State :=
  let x := s.queue q
  if !x.live || x.stopped || (x.closing && decide (q ≠ 0)) || !s.hostUp || !s.serving then none
  else
    let l := s.bytes (x.slotAddr x.head) 64
    if cPhase l ≠ x.phase then none
    else
      let last := decide (x.head + 1 = 2 ^ x.logN)
      let c : Cmd := { slot := x.head, line := l, order := s.order, started := false, pos := 0, count := 0, aux := 0 }
      let y := { x with cmds := x.cmds ++ [c], head := if last then 0 else x.head + 1, phase := x.phase != last }
      let s1 := { s with order := s.order + 1 }.setQueue q y
      some (if y.refuses q l then s1.malformed q x.head else s1)

/-- Commands of a queue are accepted in ring order until a line does not carry the expected phase. -/
def State.pollQueue (fuel : Nat) (s : State) (q : Nat) : State :=
  match fuel with
  | 0 => s
  | fuel + 1 =>
    match s.acceptOne q with
    | some t => t.pollQueue fuel q
    | none => s

/-- Every queue is read (after an activation, or when a Larfort port returns). -/
def State.pollAll (s : State) : State :=
  (List.range 64).foldl (fun t q => t.pollQueue (2 ^ (t.queue q).logN) q) s

/-- The queue whose slot H the line at `a` is. -/
def State.watchedBy (s : State) (a : Nat) : Option Nat :=
  (List.range 64).find? fun q => let x := s.queue q; x.live && decide (x.slotAddr x.head = a)

/-- A coherence event, on the port that carries the manager die's traffic (R421, R423). -/
def State.cohEvent (s : State) : State := s.count (pgHlk (if s.portUp 0 then 0 else 1)) 6 1

/-- COMMAND_LINE_WRITE (R286): the host writes a line; where it is slot H of a queue, the device reads it. -/
def execCommandLineWrite (addr : Addr) (line : List Byte) (s : State) : Host.Outcome State Fault Refusal :=
  if line.length = 64 ∧ hostAligned addr.toNat = true then
    let s1 := s.setBytes addr.toNat line
    match s1.watchedBy addr.toNat with
    | some q => .next (if s1.hostUp then s1.cohEvent.pollQueue (2 ^ (s1.queue q).logN) q else s1)
    | none => .next s1
  else .next s

/-- The queue's view of EV_CONS (R289, R291). -/
def State.takeControl (s : State) (q : Nat) (v : BitVec 32) : State :=
  let x := s.queue q
  let n := (x.evCount - v).toNat
  s.setQueue q { x with evCons := v, unread := x.unread.drop (x.unread.length - n) }

/-- CONTROL_LINE_WRITE (R289): the host writes a queue's control line, and the device sees EV_CONS. -/
def execControlLineWrite (q : Nat) (evCons : Word) (s : State) : Host.Outcome State Fault Refusal :=
  let x := s.queue q
  if x.live then
    let s1 := s.setBytes x.ctl.toNat (leBytes 4 evCons.toNat ++ zeros 60)
    .next (if !s1.hostUp then s1 else if x.stopped then s1.cohEvent else s1.cohEvent.takeControl q evCons)
  else .next s

/-- The line of a queue that a failed access named (R503; log 14): the slot H, the slot of the oldest uncompleted command, the slot of
the next record, the control line. -/
def Queue.failLine (x : Queue) (w : RingLine) : Addr :=
  match w with
  | .command => BitVec.ofNat 48 (x.slotAddr x.head)
  | .control => x.ctl
  | .completion => x.cpl + BitVec.ofNat 48 (64 * (x.cmds.head?.map fun c => c.slot).getD 0)
  | .event => x.evSlot

/-- RING_ACCESS_FAIL (R503): the queue stops and the admin queue learns of it, by MGR_AQ_STS.FLT where it is the admin queue. -/
def execRingAccessFail (q : Nat) (which : RingLine) (unreachable : Bool) (s : State) : Host.Outcome State Fault Refusal :=
  let x := s.queue q
  if x.live && !x.stopped && s.hostUp then
    let s1 := s.setQueue q { x with stopped := true }
    if q = 0 then .next s1
    else .next (s1.event 0
      { EventRec.package 0x11 (if unreachable then eBusErr else eMemUe) (x.failLine which) s1.pkgBeat (leBytes 1 q) with
        res := .failed })
  else .next s

/-! The order in which commands start (R286, R295). -/

/-- The first command of a queue that has not started (R286). -/
def Queue.nextCmd (x : Queue) : Option Cmd := x.cmds.find? fun c => !c.started

/-- The older of two commands. -/
def olderCmd (a b : Option (Nat × Cmd)) : Option (Nat × Cmd) :=
  match a, b with
  | none, y => y
  | x, none => x
  | some x, some y => if y.2.order < x.2.order then some y else some x

end Sys2Proof.Machine
end

