-- ==== Sys2Proof/Machine/Flit.lean ====
section
/-! DEFINITION. Flits (R417, R418): their bytes, the replay buffer of a port, what a port sends. -/

set_option Elab.async false

namespace Sys2Proof.Machine

/-- A flit (R417, Table 17.2): header, payload, CRC-32, and check symbols, whose field polynomial the manual does not give. -/
def flitBytes (ty seq ack : Nat) (nak : Bool) (payload fec : List Byte) : List Byte :=
  let b := leBytes 4 (ty * 2 ^ 30 + seq * 2 ^ 18 + ack * 2 ^ 6 + b2n nak * 2 ^ 5) ++ (payload ++ zeros 240).take 240
  b ++ leBytes 4 (crc32 b).toNat ++ (fec ++ zeros 8).take 8

/-- A flit leaves on port `p`, its check symbols free (log 10); a Larfort port counts flits, a reduction port the payload bytes of data
and control flits (Table 17.9, log 98). -/
def State.putFlit (s : State) (p ty seq : Nat) (payload : List Byte) : State :=
  let f := s.takeFree 8
  let x := s.port p
  (f.2.addOut (.flit p (flitBytes ty seq x.rxSeq.toNat x.nak payload f.1))).count (portPage p) 0 (if p < 2 then 1 else if ty ≤ 1 then 240 else 0)

/-- Flits with the given payloads enter the replay buffer, which keeps the last 256 (R418). -/
def Port.push (x : Port) (ctl : Bool) (n : Nat) (payload : Nat → List Byte) : Port :=
  let new := ((List.range n).drop (n - 256)).map fun k =>
    { seq := x.txSeq + BitVec.ofNat 12 k, ctl := ctl, bytes := payload k, sent := 1 : SentFlit }
  let all := x.replay ++ new
  { x with txSeq := x.txSeq + BitVec.ofNat 12 n, replay := all.drop (all.length - 256) }

/-- Data flits that carry a byte string on a reduction port; what they carry is in `out` (log 15). -/
def State.sendData (s : State) (p : Nat) (data : List Byte) : State :=
  let n := ceilDiv data.length 240
  (s.setPort p ((s.port p).push false n fun k => (data.drop (240 * k)).take 240)).count (portPage p) 0 (240 * n)

/-- A control flit, whose layout the manual does not give (log 10). -/
def State.sendControl (s : State) (p : Nat) : State :=
  let f := s.takeFree 240
  (f.2.setPort p ((s.port p).push true 1 fun _ => f.1)).count (portPage p) 0 240

end Sys2Proof.Machine
end

