-- ==== Sys2Proof/Machine/Num.lean ====
section
/-! DEFINITION. Number formats (R23 to R43, R500): decoding to exact rationals, rounding by RNE and SR, saturation and
underflow, Q codes and their metadata words. NaR is `none`; −0 and +0 are the same value 0. -/

set_option Elab.async false

namespace Sys2Proof.Machine

/-- 2 to an integer power. -/
def pow2 (e : Int) : Rat := if 0 ≤ e then ((2 ^ e.toNat : Nat) : Rat) else mkRat 1 (2 ^ (-e).toNat)

/-- A W format: fraction bits, exponent bits, bias (Table 2.2). -/
structure WFmt where
  p : Nat
  e : Nat
  bias : Nat
  deriving DecidableEq, Repr

def w16 : WFmt := ⟨7, 8, 192⟩
def w24 : WFmt := ⟨15, 8, 192⟩
def w12 : WFmt := ⟨5, 6, 40⟩

/-- The W format of a format code (Table 2.1). -/
def wFmt? (code : Nat) : Option WFmt :=
  match code with
  | 1 => some w16
  | 2 => some w24
  | 3 => some w12
  | _ => none

/-- Bits of an element in memory. -/
def WFmt.width (f : WFmt) : Nat := f.p + f.e + 1

/-- The value of a code (R24): `none` for NaR. -/
def WFmt.value (f : WFmt) (code : Nat) : Option Rat :=
  let s := bit code (f.p + f.e)
  let e := bits code (f.p + f.e - 1) f.p
  let fr := code % 2 ^ f.p
  if e = 0 then if s && decide (fr = 0) then none else some 0
  else
    let m : Rat := ((2 ^ f.p + fr : Nat) : Rat) * pow2 ((e : Int) - f.bias - f.p)
    some (if s then -m else m)

/-- The NaR code (Table 2.2). -/
def WFmt.nar (f : WFmt) : Nat := 2 ^ (f.p + f.e)

/-- The largest magnitude of a format. -/
def WFmt.maxVal (f : WFmt) : Rat := ((2 ^ (f.p + 1) - 1 : Nat) : Rat) * pow2 ((2 ^ f.e - 1 : Nat) - (f.bias : Int) - f.p)

/-- floor(log2 x) of a positive rational. -/
def floorLog2 (x : Rat) : Int :=
  let g : Int := (Nat.log2 x.num.natAbs : Int) - Nat.log2 x.den
  if pow2 g ≤ x then g else g - 1

/-- floor of a non-negative rational. -/
def floorNat (q : Rat) : Nat := q.num.natAbs / q.den

/-- Round to nearest even of a non-negative rational (R29). -/
def rneNat (q : Rat) : Nat :=
  let k := q.num.natAbs / q.den
  let r := q.num.natAbs % q.den
  if 2 * r < q.den then k else if q.den < 2 * r then k + 1 else if k % 2 = 0 then k else k + 1

/-- Stochastic rounding of a non-negative rational with the random word `u` (R30). -/
def srNat (q : Rat) (u : Nat) : Nat :=
  let k := q.num.natAbs / q.den
  let t := q.num.natAbs % q.den * 65536 / q.den
  if 65536 ≤ t + u then k + 1 else k

/-- The rounding in force: RNE, or SR with a random word. -/
inductive Rnd where
  | rne
  | sr (u : Nat)
  deriving DecidableEq, Repr

def Rnd.nat (r : Rnd) (q : Rat) : Nat :=
  match r with
  | .rne => rneNat q
  | .sr u => srNat q u

/-- Rounding of a signed quotient by magnitude (R29, R30). -/
def Rnd.int (r : Rnd) (q : Rat) : Int := if q < 0 then -(r.nat (-q) : Int) else (r.nat q : Int)

/-- A rounded result: code, saturation, underflow (R28). -/
structure Rounded where
  code : Nat
  sat : Bool
  unf : Bool
  deriving DecidableEq, Repr

/-- Rounding of an exact value to a W format (R28 to R30). -/
def WFmt.round (f : WFmt) (r : Rnd) (x : Rat) : Rounded :=
  if x = 0 then ⟨0, false, false⟩
  else
    let neg := decide (x < 0)
    let m := if neg then -x else x
    let e := floorLog2 m
    let k := r.nat (m / pow2 (e - f.p))
    let e' := if k = 2 ^ (f.p + 1) then e + 1 else e
    let fr := if k = 2 ^ (f.p + 1) then 0 else k - 2 ^ f.p
    let sign := if neg then 2 ^ (f.p + f.e) else 0
    if (2 ^ f.e : Nat) ≤ e' + f.bias then ⟨sign + (2 ^ (f.p + f.e) - 1), true, false⟩
    else if e' + f.bias < 1 then ⟨if neg then sign + 1 else 0, false, true⟩
    else ⟨sign + (e' + f.bias).toNat * 2 ^ f.p + fr, false, false⟩

/-- Rounding that keeps NaR (R27, R32). -/
def WFmt.roundOpt (f : WFmt) (r : Rnd) (x : Option Rat) : Rounded :=
  match x with
  | none => ⟨f.nar, false, false⟩
  | some v => f.round r v

/-- The value of a W24 rounding by RNE (R209, R213, R127). -/
def rneW24 (x : Rat) : Rounded := w24.round .rne x

/-- The smallest W16 code not less than x ≥ 0 (R500): +0 for 0, 0x0080 up to 2^−191, 0x7FFF above the largest value. -/
def upW16 (x : Rat) : Nat :=
  if x ≤ 0 then 0
  else if x ≤ pow2 (-191) then 0x0080
  else if w16.maxVal < x then 0x7FFF
  else
    let e := floorLog2 x
    let q := x / pow2 (e - 7)
    let k := floorNat q
    let k' := if (k : Rat) < q then k + 1 else k
    if k' = 256 then (e + 1 + 192).toNat * 128 else (e + 192).toNat * 128 + (k' - 128)

/-- Element `i` of a W array in its bytes (R26): W16 2 bytes, W24 3 bytes, W12 12 bits of the little-endian stream. -/
def WFmt.get (f : WFmt) (bs : List Byte) (i : Nat) : Nat :=
  if f.width = 12 then
    let v := fld bs (3 * (i / 2)) 3
    if i % 2 = 0 then v % 4096 else v / 4096 % 4096
  else fld bs (f.width / 8 * i) (f.width / 8)

/-- Bytes of `n` elements (R26). -/
def WFmt.bytesFor (f : WFmt) (n : Nat) : Nat := (f.width * n + 7) / 8

/-- The number whose bits are the elements in order (R26, R40). -/
def packNat (w : Nat) : List Nat → Nat
  | [] => 0
  | c :: r => c % 2 ^ w + 2 ^ w * packNat w r

/-- Elements packed as a little-endian bit stream of `w` bits each. -/
def packBits (w : Nat) (cs : List Nat) : List Byte := leBytes ((w * cs.length + 7) / 8) (packNat w cs)

def WFmt.pack (f : WFmt) (cs : List Nat) : List Byte := packBits f.width cs

/-! Q formats (R34 to R37). -/

/-- A row metadata word (Table 2.3). -/
structure Meta where
  p2 : Bool
  n : Nat
  zp : Nat
  scale : Nat
  deriving DecidableEq, Repr

def Meta.ofNat (v : Nat) : Meta := { p2 := bit v 31, n := bits v 26 24 + 1, zp := bits v 23 16, scale := bits v 15 0 }

/-- The word the device writes: reserved bits 0, ZP 0 and SCALE[15:8] 0 in the fall-back. -/
def Meta.toNat (m : Meta) : Nat :=
  b2n m.p2 * 2 ^ 31 + (m.n - 1) * 2 ^ 24 + (if m.p2 then m.scale % 256 else m.zp * 65536 + m.scale)

/-- The first two conditions of R35 do not hold: SCALE not negative, z in range. -/
def Meta.ok (m : Meta) : Bool := m.p2 || (decide (m.scale < 0x8000) && decide (m.zp < 2 ^ m.n))

/-- The code of value zero: z, or 2^(n−1) under the fall-back. -/
def Meta.zero (m : Meta) : Nat := if m.p2 then 2 ^ (m.n - 1) else m.zp

/-- The unit of a code: SCALE, or 2^k (R34). -/
def Meta.unit (m : Meta) : Rat := if m.p2 then pow2 (sx 8 m.scale) else (w16.value m.scale).getD 0

/-- The value of a code (R34). -/
def Meta.value (m : Meta) (c : Nat) : Rat := m.unit * (((c : Int) - (m.zero : Int) : Int) : Rat)

/-- Conversion of an exact value to a Q code (R36): the rounded quotient and the clamped code. -/
def Meta.encode (m : Meta) (r : Rnd) (v : Rat) : Int × Nat :=
  let q : Int := if m.unit = 0 then 0 else r.int (v / m.unit)
  let c := q + (m.zero : Int)
  (q, if c < 0 then 0 else if (2 ^ m.n : Nat) ≤ c then 2 ^ m.n - 1 else c.toNat)

/-- The code before the clamp lies outside [0, 2^n − 1] (R55). -/
def Meta.clamps (m : Meta) (q : Int) : Bool :=
  let c := q + (m.zero : Int)
  decide (c < 0) || decide (((2 ^ m.n : Nat) : Int) ≤ c)

/-- Width n of a Q format code 0x10 to 0x1F, and whether it is the fall-back variant (Table 2.1). -/
def qFmt? (code : Nat) : Option (Nat × Bool) :=
  if 0x10 ≤ code ∧ code ≤ 0x17 then some (code - 0x0F, false)
  else if 0x18 ≤ code ∧ code ≤ 0x1F then some (code - 0x17, true)
  else none

/-- Code `j` of a packed activation row of width n (R40): bits [nj + n − 1 : nj] of the stream. -/
def qGet (n : Nat) (bs : List Byte) (j : Nat) : Nat :=
  fld bs (n * j / 8) 2 / 2 ^ (n * j % 8) % 2 ^ n

/-! Accumulators (R41, R42). -/

/-- Limbs and unit exponent of an accumulator class code (Tables 2.4, 5.1): A48, A192, A576. -/
def clsLimbs (c : Nat) : Nat := if c < 0x10 then 1 else if c < 0x20 then 3 else 9
def clsBits (c : Nat) : Nat := if c < 0x10 then 48 else if c < 0x20 then 192 else 576
def clsUnit (c : Nat) : Rat := if c < 0x10 then 1 else if c < 0x20 then pow2 (-88) else pow2 (-396)

/-- Elements (rows, columns) of a class's tile (Table 5.1). -/
def clsShape (c : Nat) : Nat × Nat :=
  match c with
  | 0x00 => (64, 64)
  | 0x01 => (64, 32)
  | 0x02 => (32, 32)
  | 0x21 => (32, 16)
  | _ => (32, 32)

/-- The capacity limit nearest an integer outside the format's capacity, or the integer itself (Table 2.4). -/
def capacity (b : Nat) (v : Int) : Int :=
  let hi : Int := (2 ^ (b - 1) : Nat) - 1
  let lo : Int := -((2 ^ (b - 1) : Nat) : Int)
  if hi < v then hi else if v < lo then lo else v

/-- One term added to an element (R42, R115): an element with its overflow flag set does not change; a term that takes it
outside the capacity leaves the nearest limit with the flag set. -/
def Elem.add (e : Elem) (b : Nat) (t : Int) (tn tovf : Bool) : Elem :=
  if e.ovf then { e with nar := e.nar || tn }
  else if tovf then
    { val := if t < 0 then -((2 ^ (b - 1) : Nat) : Int) else (2 ^ (b - 1) : Nat) - 1, nar := e.nar || tn, ovf := true }
  else
    let v := e.val + t
    { val := capacity b v, nar := e.nar || tn, ovf := decide (capacity b v ≠ v) }

/-- An element retires as NaR, as the largest value of its sign, or as its value times the unit (R42, R126). -/
def Elem.retire (e : Elem) (f : WFmt) (r : Rnd) (unit : Rat) : Rounded :=
  if e.nar then ⟨f.nar, false, false⟩
  else if e.ovf then ⟨(if e.val < 0 then 2 ^ (f.p + f.e) else 0) + (2 ^ (f.p + f.e) - 1), true, false⟩
  else f.round r ((e.val : Rat) * unit)

end Sys2Proof.Machine
end

