-- ==== Sys2Proof/Machine/Sync.lean ====
section
/-! DEFINITION. Sync objects (R273 to R276), engines and their windows, sequencer cores: lookup and update. -/

set_option Elab.async false

namespace Sys2Proof.Machine

/-- An engine instance: die, global hearth (0 for a DMA engine), ENG code (Table 1.4), instance. -/
structure EngUnit where
  die : Nat
  g : Nat
  eng : Nat
  inst : Nat
  deriving DecidableEq, Repr

/-- ENG code of a block code (Tables 1.4, 15.4). -/
def blkEng (b : Nat) : Option Nat :=
  match b with
  | 0x04 => some 1
  | 0x05 => some 2
  | 0x06 => some 3
  | 0x07 => some 4
  | 0x08 => some 5
  | 0x09 => some 6
  | 0x0A => some 7
  | 0x0B => some 9
  | 0x0C => some 8
  | _ => none

/-- Block code of an ENG code. -/
def engBlk (e : Nat) : Nat :=
  match e with
  | 1 => 0x04
  | 2 => 0x05
  | 3 => 0x06
  | 4 => 0x07
  | 5 => 0x08
  | 6 => 0x09
  | 7 => 0x0A
  | 9 => 0x0B
  | _ => 0x0C

/-- The engine of page number `u`; none for a page that is no engine's. -/
def State.unit (s : State) (u : Nat) : Option EngUnit :=
  match s.pageInfo u with
  | none => none
  | some i =>
    match blkEng i.blk with
    | none => none
    | some e =>
      match i.hearth with
      | some h => some { die := i.die, g := i.die * 48 + h, eng := e, inst := i.inst }
      | none => some { die := i.die, g := 0, eng := e, inst := i.inst }

/-- The page number of an engine of a hearth (or of the die of that hearth, for DMA); none where the hearth has none
(R265: BWA 0 to 3, CVE 0 to 1, DMA 0 to 7, every other engine instance 0). -/
def engPage (g e inst : Nat) : Option Nat :=
  match e with
  | 1 => if inst = 0 then some (hearthPage g 1) else none
  | 2 => if inst < 4 then some (hearthPage g (2 + inst)) else none
  | 3 => if inst < 2 then some (hearthPage g (6 + inst)) else none
  | 4 => if inst = 0 then some (hearthPage g 8) else none
  | 5 => if inst = 0 then some (hearthPage g 9) else none
  | 6 => if inst = 0 then some (hearthPage g 10) else none
  | 7 => if inst = 0 then some (hearthPage g 11) else none
  | 8 => if inst < 8 then some (diePage (g / 48) (1 + inst)) else none
  | 9 => if inst = 0 then some (hearthPage g 12) else none
  | _ => none

def State.engine (s : State) (u : Nat) : Engine := SMap.get s.engines Engine.empty u

def State.setEngine (s : State) (u : Nat) (e : Engine) : State := { s with engines := SMap.put s.engines Engine.empty u e }

def State.entry? (s : State) (u i : Nat) : Option Entry := (s.engine u).win[i]?

def State.setEntry (s : State) (u i : Nat) (f : Entry → Entry) : State :=
  let e := s.engine u
  s.setEngine u { e with win := modifyAt e.win i f }

def State.core (s : State) (c : Nat) : Core := SMap.get s.cores Core.reset c

def State.setCore (s : State) (c : Nat) (x : Core) : State := { s with cores := SMap.put s.cores Core.reset c x }

/-- The target of the WAITBEAT word on which a core is stalled (R268). -/
def Core.goal (x : Core) : Beat :=
  let st := BitVec.ofNat 40 (fld x.word 4 5)
  { step := if bit (fld x.word 1 1) 0 then x.lstep + st else st, phase := BitVec.ofNat 16 (fld x.word 2 2) }

/-- The context whose partition holds global hearth `g`. -/
def State.hearthCtx (s : State) (g : Nat) : Option (Nat × Ctx) := s.cordCtx (g / 144)

/-- Global core numbers of a context's partition (R13, R15). -/
def Ctx.coreIn (c : Ctx) (core : Nat) : Bool := bit (blkCords c.block) (core / 1152)

/-- Engine pages of a context's partition. -/
def State.unitIn (s : State) (c : Ctx) (u : Nat) : Bool :=
  match s.unit u with
  | some x => bit (blkCords c.block) (x.die / 3)
  | none => false

/-! Sync numbers (R273). -/

/-- What a sync number names for an issuer on global hearth `g`. -/
inductive SyncRef where
  | package (i : Nat)
  | loc (i : Nat)
  | none
  | invalid
  deriving DecidableEq, Repr

/-- R273: 0x0000 to 0x1FFF package objects below NSYNC, at SYNC_BASE + i; 0x8000 to 0x803F local objects; 0xFFFF none. -/
def syncRef (c : Ctx) (g n : Nat) : SyncRef :=
  if n ≤ 0x1FFF then if n < c.nsync then .package (c.syncBase + n) else .invalid
  else if 0x8000 ≤ n ∧ n ≤ 0x803F then .loc (g * 64 + (n - 0x8000))
  else if n = 0xFFFF then .none
  else .invalid

def State.syncObj (s : State) (r : SyncRef) : SyncObj :=
  match r with
  | .package i => SMap.get s.psync SyncObj.zero i
  | .loc i => SMap.get s.lsync SyncObj.zero i
  | _ => SyncObj.zero

def State.setSync (s : State) (r : SyncRef) (o : SyncObj) : State :=
  match r with
  | .package i => { s with psync := SMap.put s.psync SyncObj.zero i o }
  | .loc i => { s with lsync := SMap.put s.lsync SyncObj.zero i o }
  | _ => s

/-- One atomic signal (R275). -/
def State.signal (s : State) (r : SyncRef) (rst : Bool) (add : BitVec 32) : State :=
  s.setSync r ((s.syncObj r).signal rst add)

/-- A signal sent by a word or a descriptor of hearth `g`, counted in HRT_CNT_SIG. -/
def State.signalFrom (s : State) (c : Ctx) (g n : Nat) (rst : Bool) (add : BitVec 32) : State :=
  match syncRef c g n with
  | .none => s
  | .invalid => s
  | r => (s.signal r rst add).count (hearthPage g 0) 5 1

/-- The condition of a wait on sync number `n`: "none" is always met (R274). -/
def State.waitOk (s : State) (c : Ctx) (g n count epochLo : Nat) : Bool :=
  match syncRef c g n with
  | .none => true
  | .invalid => false
  | r => waitMet (s.syncObj r) count epochLo

/-- The step snapshot of every sync object of a context, package and local (R276). -/
def State.snapSync (s : State) (c : Ctx) : State :=
  let pIn := fun k => decide (c.syncBase ≤ k ∧ k < c.syncBase + c.nsync)
  let lIn := fun k => bit (blkCords c.block) (k / 64 / 144)
  { s with psnap := (s.psync.filter fun p => pIn p.1).foldl (fun m p => SMap.insert m p.1 p.2) (SMap.dropKeys s.psnap pIn),
           lsnap := (s.lsync.filter fun p => lIn p.1).foldl (fun m p => SMap.insert m p.1 p.2) (SMap.dropKeys s.lsnap lIn) }

/-- Every sync object of a context restored from the step snapshot (R276). -/
def State.restoreSync (s : State) (c : Ctx) : State :=
  let pIn := fun k => decide (c.syncBase ≤ k ∧ k < c.syncBase + c.nsync)
  let lIn := fun k => bit (blkCords c.block) (k / 64 / 144)
  { s with psync := (s.psnap.filter fun p => pIn p.1).foldl (fun m p => SMap.insert m p.1 p.2) (SMap.dropKeys s.psync pIn),
           lsync := (s.lsnap.filter fun p => lIn p.1).foldl (fun m p => SMap.insert m p.1 p.2) (SMap.dropKeys s.lsync lIn) }

/-- Every sync object of a context, live and snapshot, at count 0 and epoch 0 (R299). -/
def State.zeroSync (s : State) (c : Ctx) : State :=
  let pIn := fun k => decide (c.syncBase ≤ k ∧ k < c.syncBase + c.nsync)
  let lIn := fun k => bit (blkCords c.block) (k / 64 / 144)
  { s with psync := SMap.dropKeys s.psync pIn, psnap := SMap.dropKeys s.psnap pIn,
           lsync := SMap.dropKeys s.lsync lIn, lsnap := SMap.dropKeys s.lsnap lIn }

/-- Descriptors issued by the core since its list started and not yet completed (R267). -/
def State.outstanding (s : State) (core : Nat) : Nat :=
  (s.engines.map fun p => (p.2.win.filter fun e => decide (e.core = core)).length).sum

/-- The lane states copied to the shadows at (s, 0x0000) (R191), lanes of the context's partition. -/
def State.copyShadows (s : State) (c : Ctx) : State :=
  let inP := fun k => bit (blkCords c.block) (k / 9216)
  { s with shadows := (s.lanes.filter fun p => inP p.1).foldl (fun m p => SMap.insert m p.1 p.2) (SMap.dropKeys s.shadows inP) }

/-- The lane states restored from the shadows (R191). -/
def State.restoreLanes (s : State) (c : Ctx) : State :=
  let inP := fun k => bit (blkCords c.block) (k / 9216)
  { s with lanes := (s.shadows.filter fun p => inP p.1).foldl (fun m p => SMap.insert m p.1 p.2) (SMap.dropKeys s.lanes inP) }

/-- The lane states and shadows of a partition back to those derived from seed and generation (R187). -/
def State.deriveLanes (s : State) (c : Ctx) : State :=
  let inP := fun k => bit (blkCords c.block) (k / 9216)
  { s with lanes := SMap.dropKeys s.lanes inP, shadows := SMap.dropKeys s.shadows inP }

end Sys2Proof.Machine
end

