-- ==== Sys2Proof/Machine/Rand.lean ====
section
/-! DEFINITION. The two random generators (R184 to R191): the indexed output, the lane states and their draws, the words a
descriptor is given. -/

set_option Elab.async false

namespace Sys2Proof.Machine

/-! The indexed generator (R185, Table 8.2). -/

/-- x rotated left by n mod 32 (R185). -/
def rotl32 (x : BitVec 32) (n : Nat) : BitVec 32 := x.rotateLeft (n % 32)

def rngRA : List Nat := [13, 26, 7, 19, 11, 29, 5, 23, 17, 9]
def rngRB : List Nat := [22, 3, 16, 27, 8, 14, 31, 2, 20, 25]

/-- One round of the indexed generator on (x0, x1, x2, x3) under the key words (R185). -/
def rngRound (k : Vector (BitVec 32) 3) (x : BitVec 32 × BitVec 32 × BitVec 32 × BitVec 32) (r : Nat) :
    BitVec 32 × BitVec 32 × BitVec 32 × BitVec 32 :=
  let kr := fun i => match i % 3 with
    | 0 => k[0]
    | 1 => k[1]
    | _ => k[2]
  let ka := rotl32 (kr r) r + BitVec.ofNat 32 r * 0x6C8E9CF5
  let kb := kr (r + 1) ^^^ rotl32 0x3D29B7A1 (3 * r)
  let x0 := x.1 + (x.2.1 ^^^ ka)
  let x2 := x.2.2.1 + (x.2.2.2 ^^^ kb)
  let x1 := rotl32 x.2.1 (rngRA.getD r 0) ^^^ x0
  let x3 := rotl32 x.2.2.2 (rngRB.getD r 0) ^^^ x2
  let y0 := x0 * 0xA3C59E27
  let y2 := x2 * 0xE1F37A4D
  let z0 := y0 ^^^ (y0 >>> 16)
  let z2 := y2 ^^^ (y2 >>> 15)
  (z0, x3, z2, x1)

/-- The 128-bit indexed output of seed, stream, step, counter element index and domain (R185). -/
def rngOut (seed : BitVec 64) (stream : BitVec 32) (step : BitVec 40) (c : Nat) (dm : Nat) : BitVec 128 :=
  let c := c % 2 ^ 48
  let st := step.toNat
  let x0 := BitVec.ofNat 32 c
  let x1 := BitVec.ofNat 32 (st % 65536 * 65536 + c / 2 ^ 32)
  let x2 := BitVec.ofNat 32 (dm * 2 ^ 24 + st / 65536)
  let k : Vector (BitVec 32) 3 := #v[seed.extractLsb' 0 32, seed.extractLsb' 32 32, stream]
  let y := (List.range 10).foldl (rngRound k) (x0, x1, x2, 0)
  y.2.2.2 ++ y.2.2.1 ++ y.2.1 ++ y.1

/-! The lane-stream generator (R186, R187, Table 8.3). -/

def laneA : BitVec 128 := 0x2D99787E4C3FA1B56F1EC3A75D8B9E21
def laneC : BitVec 128 := 0x6A3B92F1C8D448570B1DE2A97F356C1B
def laneMO : BitVec 64 := 0x9FB21C651E98DF25

def laneNext (x : BitVec 128) : BitVec 128 := laneA * x + laneC

/-- The draw D formed from the advanced state (R186). -/
def laneD (x : BitVec 128) : BitVec 64 :=
  let hi := x.extractLsb' 64 64
  let lo := x.extractLsb' 0 64
  let d := (hi ^^^ lo.rotateRight (hi.toNat / 2 ^ 58)) * laneMO
  d ^^^ (d >>> 31)

/-- jump(x, n) by repeated squaring over the `fuel` low bits of n (R187). -/
def laneJump (fuel n : Nat) (a c ma mc x : BitVec 128) : BitVec 128 :=
  match fuel with
  | 0 => ma * x + mc
  | fuel + 1 =>
    if n % 2 = 1 then laneJump fuel (n / 2) (a * a) ((a + 1) * c) (ma * a) (mc * a + c) x
    else laneJump fuel (n / 2) (a * a) ((a + 1) * c) ma mc x

/-- The derived state of partition-local lane l (R187): jump(x0, l × 2^96). -/
def laneInit (seed : BitVec 64) (rseq : BitVec 32) (l : Nat) : BitVec 128 :=
  laneJump 128 (l * 2 ^ 96) laneA laneC 1 0 (seed ++ (0 : BitVec 32) ++ rseq)

/-- The partition-local number of global lane `gl` (R15). -/
def Ctx.localLane (c : Ctx) (gl : Nat) : Nat := (c.localHearth (gl / 64)).getD 0 * 64 + gl % 64

/-- The state of global lane `gl`, derived where nothing has drawn from it (R186, R187; log 16). -/
def State.lane (s : State) (c : Ctx) (gl : Nat) : BitVec 128 :=
  match s.lanes.find? fun p => decide (p.1 = gl) with
  | some p => p.2
  | none => laneInit c.seed c.rseq (c.localLane gl)

/-- The shadow of global lane `gl` (R191), the derived state where none was stored. -/
def State.laneShadow (s : State) (c : Ctx) (gl : Nat) : BitVec 128 :=
  match s.shadows.find? fun p => decide (p.1 = gl) with
  | some p => p.2
  | none => laneInit c.seed c.rseq (c.localLane gl)

/-- One draw of a lane (R186). -/
def State.laneDraw (s : State) (c : Ctx) (gl : Nat) : BitVec 64 × State :=
  let x := laneNext (s.lane c gl)
  (laneD x, { s with lanes := SMap.insert s.lanes gl x })

/-! The words of a descriptor (Table 8.1, R188). -/

/-- What the words of a descriptor are formed from. -/
structure Words where
  lsm : Bool
  seed : BitVec 64
  stream : BitVec 32
  step : BitVec 40
  draws : List (Nat × BitVec 64)
  deriving DecidableEq, Repr

/-- Draw cached for the group `k` of elements. A group that was not asked for, because its operands changed between the request
and the start, has a free value (R191: software orders them; log 34). -/
def Words.draw (w : Words) (k : Nat) : Nat :=
  match w.draws.find? fun p => decide (p.1 = k) with
  | some p => p.2.toNat
  | none => Config.unstated k 0 % 2 ^ 64

/-- The 16-bit word of element index `e` in domain `dm` (Table 8.1, R188). -/
def Words.w16 (w : Words) (dm e : Nat) : Nat :=
  let e := e % 2 ^ 48
  if w.lsm then bits (w.draw (e / 4)) (13 * (e % 4) + 15) (13 * (e % 4))
  else bits (rngOut w.seed w.stream w.step (e / 8 * 8) dm).toNat (16 * (e % 8) + 15) (16 * (e % 8))

/-- The 32-bit sampler word of element index `e` (domain 0x01; Table 8.1, R188). -/
def Words.w32 (w : Words) (e : Nat) : Nat :=
  let e := e % 2 ^ 48
  if w.lsm then
    let d := w.draw (e / 2)
    let i := 2 * (e % 2)
    bits d (13 * i + 15) (13 * i) + 65536 * bits d (13 * (i + 1) + 15) (13 * (i + 1))
  else bits (rngOut w.seed w.stream w.step (e / 4 * 4) 1).toNat (32 * (e % 4) + 31) (32 * (e % 4))

/-- The word source of a running entry under stream `st`. -/
def Entry.words (e : Entry) (c : Ctx) (st : Nat) : Words :=
  { lsm := c.lane, seed := c.seed, stream := BitVec.ofNat 32 st, step := e.startBeat.step, draws := e.prog.draws }

/-- The page of the RNG of hearth `g`. -/
def rngPage (g : Nat) : Nat := hearthPage g 9

/-- The groups of a list of element indices, each once, in the order of the first request (R188). -/
def groupsOf (d : Nat) (es : List Nat) : List Nat :=
  es.foldl (fun l e => let k := e % 2 ^ 48 / d; if k ∈ l then l else l ++ [k]) []

/-- The draws that serve a request for `es` on hearth `g` in lane-stream mode: lane k mod 64 for group k (R188). -/
def State.drawGroups (s : State) (c : Ctx) (g : Nat) : List Nat → List (Nat × BitVec 64) × State
  | [] => ([], s)
  | k :: r =>
    let d := s.laneDraw c (g * 64 + k % 64)
    let q := d.2.drawGroups c g r
    ((k, d.1) :: q.1, q.2)

/-- A request for the words of `es` served by the RNG of hearth `g` (R199): 16-bit words (`wide` false: groups of 4) or 32-bit
words (groups of 2). Answers the draws, with outputs, draws and words counted (Table 8.11). -/
def State.serveWords (s : State) (c : Ctx) (g : Nat) (wide : Bool) (es : List Nat) : List (Nat × BitVec 64) × State :=
  let pg := rngPage g
  let s1 := s.count pg 2 es.length
  if c.lane then
    let q := s1.drawGroups c g (groupsOf (if wide then 2 else 4) es)
    (q.1, q.2.count pg 1 q.1.length)
  else ([], s1.count pg 0 (groupsOf (if wide then 4 else 8) es).length)

end Sys2Proof.Machine
end

