-- ==== Sys2Proof/Machine/Window.lean ====
section
/-! DEFINITION. Issue windows (R277 to R281): current classes and their credits (R330), the checks at a descriptor's start
(R280, R380, R395, R406), the start itself, the end of a descriptor, its event and trace records. -/

set_option Elab.async false

namespace Sys2Proof.Machine

/-- The operations of an engine (Tables 3.1, 5.5, 9.1 and the engines' chapters). -/
def engOps (e : Nat) : List Nat :=
  match e with
  | 1 => [1, 2]
  | 2 => [1]
  | 3 => [1, 2, 3, 4, 5]
  | 4 => [1, 2, 3, 4, 5, 6, 7, 8]
  | 5 => [1, 2]
  | 6 => [1]
  | 7 => [1, 2]
  | 8 => [1, 2, 0x10, 0x11]
  | 9 => [1, 2, 3, 4, 5, 6]
  | _ => []

/-! Fields of the FTA and BWA bodies that the current classes depend on (Tables 4.1, 4.2, 6.2, 6.3). -/

def ftaCtl (d : List Byte) : Nat := fld d 58 2
def ftaShape (d : List Byte) : Nat := bits (ftaCtl d) 11 10
def ftaMin (d : List Byte) : Nat := if ftaShape d = 0 then 9 else 5

def bwaCtl (d : List Byte) : Nat := fld d 54 2
def bwaCls (d : List Byte) : Nat := bits (bwaCtl d) 11 10
def bwaMmode (d : List Byte) : Nat := bits (bwaCtl d) 9 8
def bwaMin (d : List Byte) : Nat := if bwaCls d = 0 then 0xB else 7
def bwaMT (d : List Byte) : Nat := fld d 44 2
def bwaNT (d : List Byte) : Nat := fld d 46 2
def bwaC (d : List Byte) : Nat := if bwaCls d = 1 then 16 else 32
def bwaMaskBits (d : List Byte) : Nat :=
  if bwaMmode d = 1 then 32 * bwaMT d else bwaMT d * ceilDiv (bwaNT d * bwaC d) 32

/-- The global hearth that issued the entry (R13). -/
def Entry.hearth (e : Entry) : Nat := e.core / 8

/-- The issuing hearth's memory base (R263, R340). -/
def Entry.base (e : Entry) : Nat := hearthBase e.hearth

/-- Bit `i` of a little-endian bit stream. -/
def streamBit (bs : List Byte) (i : Nat) : Bool := bit (fld bs (i / 8) 1) (i % 8)

/-- Every element of a BWA descriptor is masked (R145). -/
def State.bwaAllMasked (s : State) (c : Ctx) (e : Entry) : Bool :=
  let d := e.desc
  if bwaMmode d = 1 ∨ bwaMmode d = 2 then
    match s.read (.desc c) (e.base + fld d 37 3) ((bwaMaskBits d + 7) / 8) with
    | .ok m => (List.range (bwaMaskBits d)).all fun i => streamBit m i
    | .error _ => false
  else false

/-- The credits a descriptor holds from its start (R330, R102, R145, R156): its fixed part where its class is the minimum of an
array engine, its whole class otherwise. -/
def State.need (s : State) (c : Ctx) (e : Entry) : Nat :=
  let d := e.desc
  match hEng d with
  | 1 => if hCcls d = ftaMin d then 1 else hCcls d
  | 2 => if s.bwaAllMasked c e then 0 else if hCcls d = bwaMin d then 3 else hCcls d
  | _ => hCcls d

/-- The credit of one lane group or row group for a pass; 0 where the class is held whole (R102, R156). -/
def Entry.perPass (e : Entry) : Nat :=
  let d := e.desc
  match hEng d with
  | 1 => if hCcls d = ftaMin d then 1 else 0
  | 2 => if hCcls d = bwaMin d then (if bwaCls d = 0 then 2 else 1) else 0
  | _ => 0

/-! Start. -/

/-- The header passes R280 on hearth `g`. -/
def headerOk (c : Ctx) (g : Nat) (d : List Byte) : Bool :=
  decide (fld d 3 1 = 0) && decide (syncRef c g (hWait d) ≠ .invalid) && decide (syncRef c g (hSig d) ≠ .invalid)
    && (decide (hSig d ≠ hWait d) || decide (hSig d = 0xFFFF)) && (!hExpert d || c.expert)

/-- The first descriptor of a window that has not started, once every earlier one has ended (log 35). -/
def headOf (i : Nat) : List Entry → Option (Nat × Entry)
  | [] => none
  | e :: r => if !e.started then some (i, e) else if e.ended.isSome then headOf (i + 1) r else none

def Engine.head (e : Engine) : Option (Nat × Entry) := headOf 0 e.win

/-- The running descriptor of an engine: started and not ended. -/
def runOf (i : Nat) : List Entry → Option (Nat × Entry)
  | [] => none
  | e :: r => if e.started && e.ended.isNone then some (i, e) else runOf (i + 1) r

def Engine.running (e : Engine) : Option (Nat × Entry) := runOf 0 e.win

def Entry.bus (e : Entry) : Fail := { code := eBusErr, addr := e.addr }

/-- The lowest mismatching word of a page (R380). -/
def Page.lowBad (p : Page) : Nat := p.badPar.foldl min 4096

/-- The mismatching words that no check has found yet. -/
def Page.newBad (p : Page) : List Nat := p.badPar.filter fun o => !decide (o ∈ p.found)

/-- The checks of R379: every mismatch that had not been found sets PAR and is recorded, and stands until its word is rewritten
(R380, R381). -/
def State.parityFound (s : State) (pg : Nat) : State :=
  let p := s.page pg
  if p.newBad.isEmpty then s
  else
    let e : PgErr := if p.err.v then { p.err with more := true }
      else { v := true, more := false, code := eCfgParity, off := BitVec.ofNat 12 (p.newBad.foldl min 4096) }
    s.pageIrq pg { p with err := e, irqRaw := p.irqRaw ||| (if p.err.v then 2 else 3), found := p.badPar }

/-- A protected word has been written: fresh parity, or inverted parity where PINJ is set (R373, R381). -/
def Page.freshPar (p : Page) (off : Nat) : Page :=
  let q := p.mend off
  { q with badPar := if p.pinj then q.badPar ++ [off] else q.badPar, pinj := false }

def Page.putWord (p : Page) (off reset w : Nat) : Page :=
  { p.freshPar off with cfg := SMap.put p.cfg (BitVec.ofNat 32 reset) off (BitVec.ofNat 32 w) }

/-- Why the block refuses the descriptor at its window's head: parity (R380), clocks (R406, R407), domain or wrapper
(R395, R404). -/
def State.blockFail (s : State) (u : Nat) (e : Entry) : Option Fail :=
  match s.pageInfo u with
  | none => some e.bus
  | some i =>
    if !(s.page u).badPar.isEmpty then
      some { code := eCfgParity, addr := BitVec.ofNat 48 (pageAddr u + (s.page u).lowBad) }
    else if !s.clkq i || (s.page u).early then some { code := eClkUnqual, addr := e.addr }
    else if s.iso u i then some { code := eIso, addr := e.addr, pw := true }
    else none

def State.setProg (s : State) (u i : Nat) (f : Progress → Progress) : State :=
  s.setEntry u i fun e => { e with prog := f e.prog }

/-- UNIT of an entry: engine instance above issuing core (Tables 11.5, 19.3). -/
def Entry.unitByte (e : Entry) (x : EngUnit) : Nat := 16 * x.inst + e.core % 8

def State.ctxBeat (s : State) (ctx : Nat) : Beat :=
  match s.ctx? ctx with
  | some c => s.slotBeat c.slot
  | none => s.pkgBeat

/-- The descriptor has the status of its end (R281). One that a check refuses before its start takes the beat of that moment
(R222, R231). -/
def State.endEntry (s : State) (u i : Nat) (st : Status) : State :=
  s.setEntry u i fun e =>
    { e with started := true, startBeat := if e.started then e.startBeat else s.ctxBeat e.ctx, ended := some st }

/-- A trace record of a descriptor's die (R481). -/
def State.traceEntry (s : State) (x : EngUnit) (e : Entry) (rtype : Nat) (data : List Byte) : State :=
  s.traceEng x.eng x.die rtype (engBlk x.eng) (e.unitByte x) e.ctx e.hearth (s.ctxBeat e.ctx) (hTag e.desc) data

/-- The start of a descriptor: its STEP is kept (R184), a DSTART record is generated (Table 19.4). -/
def State.startEntry (s : State) (u i : Nat) (x : EngUnit) (e : Entry) : State :=
  let s1 := s.setEntry u i fun e => { e with started := true, startBeat := s.ctxBeat e.ctx }
  s1.traceEntry x e 0x01 (leBytes 6 e.addr.toNat ++ leBytes 1 (fld e.desc 2 1) ++ leBytes 1 (hOp e.desc))

/-- The command `op` of engine code `eng` on engine `u`: the descriptor at the window's head is checked and, once its wait is
met, its credits and its random words are there, runs as `run` says (R14, R280); `run` answers none while the descriptor must
still wait before its start. A descriptor whose OP the engine does not have fails under any command of the engine. -/
def State.startEngine (s : State) (u eng op : Nat) (words : Ctx → Entry → List Nat)
    (run : EngUnit → Ctx → Nat → Entry → State → Option State) : State :=
  match s.unit u, (s.engine u).head with
  | some x, some (i, e) =>
    match s.ctx? e.ctx with
    | none => s
    | some c =>
      if decide (x.eng = eng) && (decide (hOp e.desc = op) || !decide (hOp e.desc ∈ engOps eng))
          && (!hFence e.desc || decide (i = 0)) then
        match s.blockFail u e with
        | some f => (if f.code = eIso then s.isoResponse u else s.parityFound u).endEntry u i (.fail f)
        | none =>
          if !headerOk c e.hearth e.desc then s.endEntry u i (.fail e.bus)
          else if s.waitOk c e.hearth (hWait e.desc) (hCount e.desc) (hEpoch e.desc)
              && decide (s.need c e ≤ e.credits) then
            let s1 := s.startEntry u i x e
            let e1 := { e with started := true, startBeat := s.ctxBeat e.ctx }
            if !decide (hOp e.desc ∈ engOps eng) then s1.endEntry u i (.fail e.bus)
            else if (words c e1).isEmpty || e.prog.served then
              match run x c i e1 s1 with
              | some t => t
              | none => s
            else s
          else s
      else s
  | _, _ => s

/-! Credits (R327, R335). -/

/-- Free credits that engine `u` draws on: its hearth pool, or the die store for a DMA engine (R327). -/
def State.freeCredits (s : State) (x : EngUnit) : Nat :=
  if x.eng = 8 then SMap.get s.drt.dieFree 0 x.die else SMap.get s.drt.poolFree 0 x.g

def State.drawCredits (s : State) (x : EngUnit) (n : Nat) : State :=
  if x.eng = 8 then s.setDrt { s.drt with dieFree := SMap.put s.drt.dieFree 0 x.die (SMap.get s.drt.dieFree 0 x.die - n) }
  else s.setDrt { s.drt with poolFree := SMap.put s.drt.poolFree 0 x.g (SMap.get s.drt.poolFree 0 x.g - n) }

/-- A group's credit returns at the end of its pass (R102, R156). -/
def State.returnPass (s : State) (u i group : Nat) : State :=
  match s.entry? u i with
  | some e =>
    if decide (group ∈ e.prog.held) then
      (s.setEntry u i fun e => { e with credits := e.credits - e.perPass,
                                        prog := { e.prog with held := e.prog.held.filter fun g => g ≠ group } }).returnCredits u e.perPass
    else s
  | none => s

/-! The end of a descriptor (R281, R298). -/

/-- A descriptor whose moved bytes are counted as it moves them: a DMA copy or stream. -/
def movesExactly (d : List Byte) : Bool := decide (hEng d = 8 ∧ (hOp d = 1 ∨ hOp d = 2))

/-- The entry leaves its window with its status: DEND record, credits returned, an event record for IRQ = 1 and for every FAILED
status, the error freeze of R473, HRT_CNT_ABORT for an abort. -/
def State.leaveWindow (s : State) (u i : Nat) (e : Entry) (st : Status) : State :=
  match s.unit u with
  | none => s
  | some x =>
    let w := s.engine u
    let s1 := s.setEngine u { w with win := dropAt w.win i }
    let s2 := s1.returnCredits u e.credits
    let f := s2.takeFree 4
    let s3 := if e.started then
        f.2.traceEntry x e 0x02 (leBytes 1 st.res.code ++ zeros 1 ++ leBytes 2 st.code.toNat ++ f.1) else s2
    let s4 := if st.res = .aborted then s3.count (hearthPage e.hearth 0) 7 1 else s3
    match s.ctx? e.ctx with
    | none => s4
    | some c =>
      let s5 :=
        if hIrq e.desc || decide (st.res = .failed) then
          s4.event c.queue
          { etype := 0x02, res := st.res, ctx := e.ctx, eng := x.eng, tag := hTag e.desc, err := st.code,
            hearth := (c.localHearth e.hearth).getD 0xFFFF, unit := e.unitByte x, addr := st.addr,
            beat := s.slotBeat c.slot, data := [] }
        else s4
      let s6 := if e.started && !movesExactly e.desc then s5.operandsMoved c else s5
      if decide (st.res ≠ .done) || decide (st.code ≠ 0) || hIrq e.desc then s6.fzError c.slot st.code else s6

end Sys2Proof.Machine
end

