-- ==== Sys2Proof/Machine/Store.lean ====
section
/-! DEFINITION. Accumulator stores (R105 to R113): handles, live and drained tiles, class changes, the clear of R109. -/

set_option Elab.async false

namespace Sys2Proof.Machine

/-- A handle (Table 5.2). -/
structure Handle where
  st : Nat
  base : Nat
  cls : Nat
  cnt : Nat
  rsv : Nat
  deriving DecidableEq, Repr

def Handle.ofNat (v : Nat) : Handle :=
  { st := bits v 23 21, base := bits v 20 16, cls := bits v 15 8, cnt := bits v 4 0 + 1, rsv := bits v 7 5 }

/-- The class belongs to the store (Table 5.1). -/
def clsOfStore (st cls : Nat) : Bool :=
  if st = 0 then decide (cls < 3) else decide (cls = 0x20 ∨ cls = 0x21 ∨ cls = 0x10)

/-- Units of a class's tile: 8 KiB in the FTA store, 12 KiB in a BWA store (R113). -/
def clsUnits (cls : Nat) : Nat :=
  match cls with
  | 0x00 => 4
  | 0x01 => 2
  | 0x02 => 1
  | 0x20 => 6
  | 0x21 => 3
  | _ => 2

def storeUnits (st : Nat) : Nat := if st = 0 then 32 else 24

/-- Elements and bytes of a class's tile. -/
def clsElems (cls : Nat) : Nat := (clsShape cls).1 * (clsShape cls).2
def clsBytes (cls : Nat) : Nat := clsElems cls * clsLimbs cls * 8

/-- The key of store `st` of hearth `g`. -/
def storeKey (g st : Nat) : Nat := g * 5 + st

def xrePage (g : Nat) : Nat := hearthPage g 12

/-- XRE_SPLITs as written (R133). -/
def State.splitCfg (s : State) (g st : Nat) : Word := s.cfg (xrePage g) (0x800 + 4 * st) 0

/-- The array engine of the store (Table 5.1) runs a descriptor: its tiles are in the store. -/
def State.storeRuns (s : State) (g st : Nat) : Bool :=
  match engPage g (if st = 0 then 1 else 2) (st - 1) with
  | some v => (s.engine v).running.isSome
  | none => false

/-- A store with no tile, live or drained or of the running descriptor, takes the pending split (R113); a change of split
leaves no class. -/
def State.settled (s : State) (g st : Nat) (x : Store) : Store :=
  let w := s.splitCfg g st
  if x.tiles.isEmpty && decide (x.split ≠ w) && !s.storeRuns g st then { x with split := w, cls := none } else x

def State.store (s : State) (g st : Nat) : Store := s.settled g st (SMap.get s.stores Store.empty (storeKey g st))

/-- Some tile of the hearth's stores is drained. -/
def State.anyDrained (s : State) (g : Nat) : Bool :=
  s.stores.any fun p => decide (p.1 / 5 = g) && p.2.tiles.any fun t => t.2.drained

/-- A written XRE_DRAIN takes effect once no tile is drained (R132). -/
def State.settleDrain (s : State) (g : Nat) : State :=
  if s.anyDrained g then s else { s with drains := SMap.erase s.drains g }

def State.putStore (s : State) (g st : Nat) (x : Store) : State :=
  { s with stores := SMap.put s.stores Store.empty (storeKey g st) (s.settled g st x) }.settleDrain g

def Store.splitEn (x : Store) : Bool := x.split.getLsbD 31
def Store.splitA (x : Store) : Nat := bits x.split.toNat 23 16
def Store.splitB (x : Store) : Nat := bits x.split.toNat 15 8
def Store.unitsA (x : Store) : Nat := bits x.split.toNat 4 0

/-- Tiles in flight of a class (Table 5.1, R113). -/
def Store.cap (x : Store) (st cls : Nat) : Nat :=
  if x.splitEn then
    if cls = x.splitA then x.unitsA / clsUnits cls
    else if cls = x.splitB then (storeUnits st - x.unitsA) / clsUnits cls else 0
  else storeUnits st / clsUnits cls

/-- The handle passes R106 on hearth `g`. -/
def State.handleOk (s : State) (g : Nat) (h : Handle) : Bool :=
  decide (h.st < 5) && decide (h.rsv = 0) && clsOfStore h.st h.cls
    && decide (h.base + h.cnt ≤ (s.store g h.st).cap h.st h.cls)

def tileKey (cls i : Nat) : Nat := cls * 64 + i

def Store.tile? (x : Store) (cls i : Nat) : Option Tile :=
  (x.tiles.find? fun p => decide (p.1 = tileKey cls i)).map fun p => p.2

/-- The tile indices of a handle. -/
def Handle.idx (h : Handle) : List Nat := (List.range h.cnt).map fun i => h.base + i

/-- Every tile of the handle is free. -/
def State.handleFree (s : State) (g : Nat) (h : Handle) : Bool :=
  h.idx.all fun i => ((s.store g h.st).tile? h.cls i).isNone

/-- Every tile of the handle is live or drained with the handle's class. -/
def State.handleLive (s : State) (g : Nat) (h : Handle) : Bool :=
  h.idx.all fun i => ((s.store g h.st).tile? h.cls i).isSome

/-- Some tile of the handle is drained. -/
def State.handleDrained (s : State) (g : Nat) (h : Handle) : Bool :=
  h.idx.any fun i => match (s.store g h.st).tile? h.cls i with
    | some t => t.drained
    | none => false

/-- Live tiles of a store (its free slots are the rest). -/
def Store.liveCount (x : Store) : Nat := (x.tiles.filter fun p => !p.2.drained).length

/-- A free slot of the class (R107). -/
def Store.hasSlot (x : Store) (st cls : Nat) : Bool :=
  decide ((x.tiles.filter fun p => decide (p.2.cls = cls) && !p.2.drained).length < x.cap st cls)

/-- The slots of a handle made live and zero (R107). -/
def State.openHandle (s : State) (g : Nat) (h : Handle) (hv : BitVec 24) : State :=
  let x := s.store g h.st
  s.putStore g h.st { x with tiles := h.idx.foldl (fun m i =>
    SMap.insert m (tileKey h.cls i) { cls := h.cls, handle := hv, drained := false, elems := [] }) x.tiles }

/-- The handle's slots, or its drained tiles, freed (R107, R111). -/
def State.freeHandle (s : State) (g : Nat) (h : Handle) : State :=
  let x := s.store g h.st
  s.putStore g h.st { x with tiles := h.idx.foldl (fun m i => SMap.erase m (tileKey h.cls i)) x.tiles }

def State.setTile (s : State) (g st : Nat) (cls i : Nat) (f : Tile → Tile) : State :=
  let x := s.store g st
  match x.tile? cls i with
  | some t => s.putStore g st { x with tiles := SMap.insert x.tiles (tileKey cls i) (f t) }
  | none => s

/-! Limbs (R41, R114). -/

/-- The two's-complement number of an element's limbs. -/
def limbsVal (n : Nat) (v : Int) : Nat := (v % (2 ^ (64 * n) : Nat)).toNat

/-- The bytes of a tile's elements from limb LO to HI, row-major. -/
def tileLimbs (cls lo hi : Nat) (m : SMap Elem) : List Byte :=
  (List.range (clsElems cls)).flatMap fun i =>
    leBytes (8 * (hi + 1 - lo)) (limbsVal (clsLimbs cls) (SMap.get m Elem.zero i).val / 2 ^ (64 * lo))

/-- Element `i` of limbs LO to HI of a class: limbs below are 0, limbs above copy the top bit (R114); bits [63:48] of an A48
slot are ignored (R41). -/
def limbElem (cls : Nat) (bs : List Byte) (lo hi i : Nat) : Int :=
  let n := hi + 1 - lo
  sx (min (clsBits cls) (64 * n)) (fld bs (8 * n * i) (8 * n)) * ((2 ^ (64 * lo) : Nat) : Int)

/-! The drain region (R110, R132). -/

/-- XRE_DRAIN as written. -/
def State.drainCfg (s : State) (g : Nat) : Word := s.cfg (xrePage g) 0x100 0x8000004A

/-- XRE_DRAIN in force on a hearth (R132). -/
def State.xreDrain (s : State) (g : Nat) : Nat := (SMap.get s.drains (s.drainCfg g) g).toNat

/-- The address of a store's part of the drain region. -/
def State.drainPart (s : State) (g st : Nat) : Nat :=
  hearthBase g + min 74 (bits (s.xreDrain g) 6 0) * 65536 + (if st = 0 then 0 else 262144 + (st - 1) * 294912)

/-- The elements of a tile: a drained tile's integers come from its limbs in the drain region (R111). -/
def State.tileElems (s : State) (c : Ctx) (g st i : Nat) (t : Tile) : Except Fail (SMap Elem) :=
  if t.drained then
    match s.read (.service c) (s.drainPart g st + i * clsBytes t.cls) (clsBytes t.cls) with
    | .error f => .error f
    | .ok bs => .ok ((List.range (clsElems t.cls)).foldl (fun m j =>
        let e := SMap.get t.elems Elem.zero j
        SMap.put m Elem.zero j { e with val := limbElem t.cls bs 0 (clsLimbs t.cls - 1) j }) [])
  else .ok t.elems

/-- One live tile evicted to the drain region (R110 step 2): its limbs written, its flags kept in the tag memory. -/
def State.evict (s : State) (c : Ctx) (g st i : Nat) (t : Tile) : Except Fail State :=
  match s.write (.service c) (s.drainPart g st + i * clsBytes t.cls) (tileLimbs t.cls 0 (clsLimbs t.cls - 1) t.elems) with
  | .error f => .error f
  | .ok s1 =>
    let m := SMap.mapVals t.elems (fun _ => Elem.zero) fun _ e => { e with val := 0 }
    .ok ((s1.setTile g st t.cls i fun t => { t with drained := true, elems := m }).count (xrePage g) 1 (clsBytes t.cls))

/-- Every live tile evicted. -/
def State.evictAll (s : State) (c : Ctx) (g st : Nat) : List (Nat × Tile) → Except Fail State
  | [] => .ok s
  | p :: r =>
    match s.evict c g st (p.1 % 64) p.2 with
    | .error f => .error f
    | .ok s1 => s1.evictAll c g st r

/-- The listed tiles become live with the elements read from the drain region before it was overwritten (R110 step 4). -/
def State.reloadAll (s : State) (g st : Nat) : List (Nat × Tile × SMap Elem) → State
  | [] => s
  | p :: r => (s.setTile g st p.2.1.cls (p.1 % 64) fun t => { t with drained := false, elems := p.2.2 }).reloadAll g st r

/-- The drained tiles with their elements. -/
def State.drainedElems (s : State) (c : Ctx) (g st : Nat) : List (Nat × Tile) → Except Fail (List (Nat × Tile × SMap Elem))
  | [] => .ok []
  | p :: r =>
    match s.tileElems c g st (p.1 % 64) p.2 with
    | .error f => .error f
    | .ok m =>
      match s.drainedElems c g st r with
      | .error f => .error f
      | .ok l => .ok ((p.1, p.2, m) :: l)

/-- The store holds class `cls` after a repartition (R110). -/
def State.repartition (s : State) (g st cls : Nat) : State :=
  let x := s.store g st
  (s.putStore g st { x with cls := some cls }).count (xrePage g) 2 1

/-- What a class change does now (R110, R112): none while it must wait. -/
def State.classChange (s : State) (c : Ctx) (g st cls : Nat) : Option (Except Fail State) :=
  let x := s.store g st
  let live := x.tiles.filter fun p => !p.2.drained
  let drained := x.tiles.filter fun p => p.2.drained
  let mine := drained.filter fun p => decide (p.2.cls = cls)
  if x.tiles.isEmpty then some (.ok (s.repartition g st cls))
  else if drained.any fun p => decide (p.2.cls ≠ cls) then none
  else if !live.isEmpty && !bit (s.xreDrain g) 31 then none
  else
    match s.drainedElems c g st mine with
    | .error f => some (.error f)
    | .ok l =>
      match s.evictAll c g st live with
      | .error f => some (.error f)
      | .ok s1 => some (.ok ((s1.reloadAll g st l).repartition g st cls))

/-! What a descriptor needs of a store. -/

/-- The FTA class of a shape and the BWA class of a CLS (R141, Table 5.1). -/
def ftaClass (d : List Byte) : Nat := ftaShape d
def bwaClass (d : List Byte) : Nat :=
  match bwaCls d with
  | 0 => 0x20
  | 1 => 0x21
  | _ => 0x10

/-- The store and class that must be in force before the descriptor starts (R110, R111): an array engine's own class, a
producer's class, and the class of a drained handle that an ADD with ZERO = 0 or a REDUCE adds into. -/
def State.classNeed (s : State) (x : EngUnit) (e : Entry) : Option (Nat × Nat) :=
  let d := e.desc
  let h := Handle.ofNat (fld d 16 3)
  match hEng d, hOp d with
  | 1, _ => if ftaShape d < 3 then some (0, ftaClass d) else none
  | 2, 1 => if bwaCls d < 3 then some (1 + x.inst, bwaClass d) else none
  | 9, 1 =>
    if !s.handleOk x.g h then none
    else if bit (fld d 52 2) 14 then some (h.st, h.cls)
    else if s.handleLive x.g h && s.handleDrained x.g h then some (h.st, h.cls) else none
  | 9, 4 => if s.handleOk x.g h && s.handleLive x.g h && s.handleDrained x.g h then some (h.st, h.cls) else none
  | _, _ => none

/-- The class is in force: the store holds it, or its split names it. -/
def Store.inForce (y : Store) (cls : Nat) : Bool :=
  if y.splitEn then decide (cls = y.splitA ∨ cls = y.splitB) else decide (y.cls = some cls)

/-- A class change stands between the descriptor and its start; under a split a foreign class is no change but a failure
(R113). -/
def State.classReady (s : State) (x : EngUnit) (e : Entry) : Bool :=
  match s.classNeed x e with
  | some p => let y := s.store x.g p.1; y.splitEn || (y.inForce p.2 && !(y.tiles.any fun q => decide (q.2.cls = p.2) && q.2.drained))
  | none => true

/-- The class the descriptor needs is outside its store's split (R113). -/
def State.classForeign (s : State) (x : EngUnit) (e : Entry) : Bool :=
  match s.classNeed x e with
  | some p => let y := s.store x.g p.1; y.splitEn && !y.inForce p.2
  | none => false

/-- The array engine of the store is running another descriptor, whose tiles a change of class would take from under it
(R108; log 40). -/
def State.storeBusy (s : State) (u : Nat) (x : EngUnit) (e : Entry) : Bool :=
  match s.classNeed x e with
  | some p => decide (engPage x.g (if p.1 = 0 then 1 else 2) (p.1 - 1) ≠ some u) && s.storeRuns x.g p.1
  | none => false

/-- STORE_CLASS_CHANGE (R110): for the descriptor at the head of engine `u`'s window, once its wait is met and its credits are
granted. -/
def execStoreClassChange (u : Nat) (s : State) : Host.Outcome State Fault Refusal :=
  match s.unit u, (s.engine u).head with
  | some x, some (i, e) =>
    match s.ctx? e.ctx with
    | none => .next s
    | some c =>
      if (s.blockFail u e).isNone && headerOk c e.hearth e.desc && (!hFence e.desc || decide (i = 0))
          && s.waitOk c e.hearth (hWait e.desc) (hCount e.desc) (hEpoch e.desc) && decide (s.need c e ≤ e.credits)
          && !s.classReady x e && !s.storeBusy u x e then
        match s.classNeed x e with
        | none => .next s
        | some p =>
          match s.classChange c x.g p.1 p.2 with
          | none => .next s
          | some (.ok s1) => .next s1
          | some (.error f) => .next (s.endEntry u i (.fail f))
      else .next s
  | _, _ => .next s

/-- A tile whose contents are unspecified (log 10). -/
def State.freeTile (s : State) (g st cls i : Nat) : State :=
  let n := clsElems cls
  let m : SMap Elem := (List.range n).foldl (fun m j =>
    SMap.put m Elem.zero j
      { val := capacity (clsBits cls) (Config.freeInt (s.fresh + j)), nar := decide (Config.freeNat (s.fresh + j) % 2 = 1),
        ovf := decide (Config.freeNat (s.fresh + j) / 2 % 2 = 1) }) []
  { s with fresh := s.fresh + n }.setTile g st cls i fun t => { t with elems := m }

/-- The tiles of a handle left live with unspecified contents after a failure (R94, R118, R143). -/
def State.freeHandleTiles (s : State) (g : Nat) (h : Handle) : State :=
  h.idx.foldl (fun t i => t.freeTile g h.st h.cls i) s

/-- The clear of R109 over a context's partition, keeping each store's class: answers the state, the lowest partition-local
hearth that held a tile, and how many tiles were freed. -/
def State.clearStores (s : State) (c : Ctx) : State × Nat × Nat :=
  let inP := fun k => bit (blkCords c.block) (k / 5 / 144)
  let held := s.stores.filter fun p => inP p.1 && !p.2.tiles.isEmpty
  let n := (held.map fun p => p.2.tiles.length).sum
  let lo := match held with
    | [] => 0xFFFF
    | p :: _ => (c.localHearth (p.1 / 5)).getD 0xFFFF
  (held.foldl (fun t p => t.putStore (p.1 / 5) (p.1 % 5) { p.2 with tiles := [] }) s, lo, n)

end Sys2Proof.Machine
end

