-- ==== Sys2Proof/Machine/Stats.lean ====
section
/-! DEFINITION. The statistics table and step records (R218 to R221), scale trackers (R66 to R74), persistent regions (R222),
the replay override table (R226). -/

set_option Elab.async false

namespace Sys2Proof.Machine

/-! Square roots, exactly rounded. -/

/-- floor of the square root, from bit `b` down. -/
def isqrtAux : Nat → Nat → Nat → Nat
  | 0, r, n => if (r + 1) * (r + 1) ≤ n then r + 1 else r
  | b + 1, r, n =>
    let q := r + 2 ^ (b + 1)
    if q * q ≤ n then isqrtAux b q n else isqrtAux b r n

def isqrt (n : Nat) : Nat := isqrtAux (Nat.log2 n / 2 + 1) 0 n

/-- RNE of the square root of a non-negative rational (R29). -/
def rneSqrtNat (y : Rat) : Nat :=
  let n := isqrt (floorNat y)
  let t : Rat := (((2 * n + 1) * (2 * n + 1) : Nat) : Rat)
  if 4 * y < t then n else if t < 4 * y then n + 1 else if n % 2 = 0 then n else n + 1

/-- RNE of √x to a W format (R29, R28), x ≥ 0. -/
def WFmt.roundSqrt (f : WFmt) (x : Rat) : Rounded :=
  if x ≤ 0 then ⟨0, false, false⟩
  else
    let e := floorLog2 x / 2
    let k := rneSqrtNat (x / pow2 (2 * (e - f.p)))
    f.round .rne ((k : Rat) * pow2 (e - f.p))

/-! Fields of records in memory, by the services. -/

/-- The half of the table for a step, and the address of its step record and of an entry (R218). -/
def stepHalf (step : BitVec 40) : Nat := step.toNat % 2
def recAddr (c : Ctx) (h : Nat) : Nat := blkStat c.block + 64 * h
def entAddr (c : Ctx) (h k : Nat) : Nat := blkStat c.block + 128 + (h * blkNent c.block + k) * 512

/-- Limit of an exact sum: 640 bits (R218). -/
def sumMax : Nat := 2 ^ 639 - 1

/-- Offsets and sizes of the integer fields of an entry, in the order of Contrib.ints, and offsets of the sums (Table 9.4). -/
def entInts : List (Nat × Nat) := [(8, 8), (16, 4), (20, 4), (24, 4), (28, 4), (32, 4), (36, 4), (40, 8), (48, 4)]
def entSums : List Nat := [64, 144, 224, 304, 384]

/-- A contribution added to the 512 bytes of an entry (R219). -/
def addEntry (b : List Byte) (k : Contrib) : List Byte :=
  let b1 := setFld b 2 2 (max (fld b 2 2) k.rmax.toNat)
  let b2 := (entInts.zip k.ints).foldl (fun b p =>
    setFld b p.1.1 p.1.2 (min (2 ^ (8 * p.1.2) - 1) (fld b p.1.1 p.1.2 + p.2))) b1
  let ovr := (entSums.zip k.sums).any fun p => decide (sumMax < fld b p.1 80 + p.2)
  let b3 := (entSums.zip k.sums).foldl (fun b p => setFld b p.1 80 (min sumMax (fld b p.1 80 + p.2))) b2
  setFld b3 0 2 (fld b 0 2 ||| k.eflg.toNat ||| (if ovr then 4 else 0))

/-- The near-memory add of R219, into the half of step `step`; a key at or above NENT counts in DROP. -/
def State.addContrib (s : State) (c : Ctx) (step : BitVec 40) (k : Contrib) : Except Fail State :=
  let h := stepHalf step
  let key := k.stream.toNat % 65536
  if blkNent c.block ≤ key then
    match s.readVal (.service c) (recAddr c h + 24) 4 with
    | .error f => .error f
    | .ok v => s.write (.service c) (recAddr c h + 24) (leBytes 4 (min (2 ^ 32 - 1) (v + 1)))
  else
    match s.read (.service c) (entAddr c h key) 512 with
    | .error f => .error f
    | .ok b =>
      match s.write (.service c) (entAddr c h key) (addEntry b k) with
      | .error f => .error f
      | .ok t => .ok (t.countAtomic (.service c) (entAddr c h key))

/-- Every entry of half `h` and its record's DROP field cleared (R220). -/
def State.clearHalf (s : State) (c : Ctx) (h : Nat) : Except Fail State := do
  let s1 ← (List.range (blkNent c.block)).foldlM (fun (t : State) k => t.write (.service c) (entAddr c h k) (zeros 512)) s
  s1.write (.service c) (recAddr c h + 24) (zeros 4)

/-- The rounded fields of one entry (R220): nothing where EFLG is 0. -/
def finEntry (step : BitVec 40) (b : List Byte) : Option (List Byte) :=
  if fld b 0 2 = 0 then none
  else
    let u := pow2 (-412)
    let v := fun o => ((fld b o 80 : Nat) : Rat) * u
    let b1 := setFld b 464 5 step.toNat
    let b2 := setFld b1 472 3 (w24.roundSqrt (v 224)).code
    let b3 := setFld b2 475 3 (w24.roundSqrt (v 304)).code
    let b4 := setFld b3 478 3 (w24.roundSqrt (v 384)).code
    some (setFld b4 481 3 (if fld b 64 80 = 0 then 0 else (rneW24 (v 144 / v 64)).code))

/-- Finalisation of half s mod 2 (R220 step 1). -/
def State.finEntries (s : State) (c : Ctx) (step : BitVec 40) : List Nat → Except Fail State
  | [] => .ok s
  | k :: r =>
    let a := entAddr c (stepHalf step) k
    match s.read (.service c) a 512 with
    | .error f => .error f
    | .ok b =>
      match finEntry step b with
      | none => s.finEntries c step r
      | some b' =>
        match s.write (.service c) a b' with
        | .error f => .error f
        | .ok s1 => s1.finEntries c step r

/-- Flags of a code in a step record's count. -/
def StepRec.nflags (r : StepRec) (code : BitVec 16) : Nat := (r.flags.filter fun f => decide (f.code = code)).length

/-- The step record of Table 9.5 (R221), DROP kept as the memory holds it. -/
def State.stepRecord (s : State) (c : Ctx) (r : StepRec) (fin : Nat) (ecode : BitVec 16) : Except Fail State :=
  let a := recAddr c (stepHalf r.step)
  let drop := match s.readVal (.service c) (a + 24) 4 with
    | .ok v => v
    | .error _ => 0
  let b := leBytes 5 r.step.toNat ++ leBytes 1 r.att ++ leBytes 1 fin ++ zeros 1 ++ leBytes 4 (r.nflags eScaleMiss)
    ++ leBytes 4 (r.nflags eOutlOvf) ++ leBytes 4 (r.nflags eWidthRefused) ++ leBytes 4 r.nue ++ leBytes 4 drop
    ++ leBytes 2 ecode.toNat ++ zeros 2 ++ leBytes 6 r.ueAddr.toNat ++ zeros 26
  s.write (.service c) a b

/-! Trackers. -/

/-- PRED recomputed from HIST (R67). -/
def trkPred (b : List Byte) : Nat :=
  let n := min 16 (fld b 38 1)
  let m := ((List.range n).map fun i => fld b (2 * i) 2).foldl max 0
  upW16 ((w16.value (fld b 34 2)).getD 0 * (w16.value m).getD 0)

/-- The push of R74 at commit. -/
def trkPush (step : BitVec 40) (b : List Byte) : List Byte :=
  let b1 := leBytes 2 (fld b 36 2) ++ (b.take 30) ++ b.drop 32
  let b2 := setFld b1 38 1 (min 16 (fld b 38 1 + 1))
  let b3 := setFld b2 40 5 step.toNat
  let b4 := setFld b3 32 2 (trkPred b3)
  setFld (setFld b4 36 2 0) 39 1 (fld b 39 1 % 2)

/-- The just-in-time update of R74 before a replay. -/
def trkJit (b : List Byte) : List Byte :=
  setFld (setFld (setFld b 32 2 (fld b 36 2)) 36 2 0) 39 1 (fld b 39 1 ||| 4)

def trkUsed (b : List Byte) : Bool := bit (fld b 39 1) 3
def trkMiss (b : List Byte) : Bool := bit (fld b 39 1) 1

/-- PENDMAX < PRED / 256 (R71). -/
def trkLow (b : List Byte) : Bool :=
  decide ((w16.value (fld b 36 2)).getD 0 < (w16.value (fld b 32 2)).getD 0 / 256)

/-- MISS set and MISSES raised (R70, R71). -/
def trkMissed (b : List Byte) : List Byte :=
  setFld (setFld b 39 1 (fld b 39 1 ||| 2)) 48 4 (min (2 ^ 32 - 1) (fld b 48 4 + 1))

/-- Every listed tracker record rewritten by `f` where it answers one. -/
def State.mapTrackers (s : State) (c : Ctx) (f : List Byte → Option (List Byte)) : List Addr → Except Fail State
  | [] => .ok s
  | a :: r =>
    match s.read (.service c) a.toNat 64 with
    | .error e => .error e
    | .ok b =>
      match f b with
      | none => s.mapTrackers c f r
      | some b' =>
        match s.write (.service c) a.toNat b' with
        | .error e => .error e
        | .ok s1 => s1.mapTrackers c f r

/-- The listed trackers that are used and low (R71). -/
def State.lowTrackers (s : State) (c : Ctx) : List Addr → Except Fail (List Addr)
  | [] => .ok []
  | a :: r =>
    match s.read (.service c) a.toNat 64 with
    | .error e => .error e
    | .ok b =>
      match s.lowTrackers c r with
      | .error e => .error e
      | .ok l => .ok (if trkUsed b && trkLow b then a :: l else l)

/-! Persistent regions (R222, R504). -/

/-- Byte `a`, in whichever view, lies in a persistent region of the context. -/
def State.persistent (s : State) (c : Ctx) (a : Nat) : Bool :=
  let phys := fun (x : Nat) => if isWindow x then windowMap c.cords (s.ilv c.slot) (x - 0x040000000000) else some x
  match phys a with
  | none => false
  | some p =>
    (List.range (blkNpreg c.block)).any fun i =>
      let r := blkPreg c.block i
      let inDirect := fun (x : Nat) => decide (r.1 ≤ x ∧ x < r.1 + r.2)
      inDirect p || inDirect a ||
        (isWindow r.1 &&
          match s.place p with
          | .stack k =>
            match rank c.cords k with
            | some i =>
              let o := p % 2 ^ 37
              let x := if s.ilv c.slot then (o / 2 ^ 21 * c.cords.length + i) * 2 ^ 21 + o % 2 ^ 21 else i * 2 ^ 37 + o
              inDirect (0x040000000000 + x)
            | none => false
          | _ => false)

/-! The replay override table (R225, R226). -/

/-- Overrides in force for a TAG: bit 0 CAP63, bit 1 FORCE_P2. -/
abbrev Overrides := List (Nat × Nat)

/-- The hearths of a context's partition. -/
def Ctx.hearths (c : Ctx) : List Nat := c.cords.flatMap fun k => (List.range 144).map fun i => 144 * k + i

/-- The override entries of one hearth page cleared (R226). -/
def State.clearOverrides (s : State) (c : Ctx) : State :=
  c.hearths.foldl (fun t g =>
    let pg := hearthPage g 0
    let p := t.page pg
    t.setPage pg { p with cfg := p.cfg.filter fun x => !decide (0x900 ≤ x.1 ∧ x.1 < 0xB00) && !decide (x.1 = 0x820) }) s

/-- The override table written on every hearth of a partition: flagged TAGs in ascending order, the 64 lowest and ALL beyond 64
(R226). Entries whose TAG has no override are written valid with none. -/
def State.writeOverrides (s : State) (c : Ctx) (o : Overrides) : State :=
  let all := if 64 < o.length then 2 ^ 31 else 0
  let union := o.foldl (fun u p => u ||| p.2) 0
  let cfg0 : SMap Word := (o.take 64).zipIdx.foldl (fun m x =>
    SMap.put (SMap.put m 0 (0x900 + 8 * x.2) (BitVec.ofNat 32 x.1.1)) 0 (0x904 + 8 * x.2)
      (BitVec.ofNat 32 (2 ^ 31 + x.1.2))) []
  let cfg := SMap.put cfg0 0 0x820 (BitVec.ofNat 32 (all + union))
  let s0 := s.clearOverrides c
  c.hearths.foldl (fun t g =>
    let pg := hearthPage g 0
    let p := t.page pg
    t.setPage pg { p with cfg := cfg.foldl (fun m x => SMap.insert m x.1 x.2) p.cfg }) s0

/-- The overrides that a CVE descriptor of hearth `g` takes (R226, R75). -/
def State.overridesOf (s : State) (g : Nat) (tag : BitVec 32) : Nat :=
  let pg := hearthPage g 0
  let ctl := (s.cfg pg 0x820 0).toNat
  if bit ctl 31 then ctl % 4
  else
    match (List.range 64).find? fun n =>
        (s.cfg pg (0x904 + 8 * n) 0).getLsbD 31 && decide (s.cfg pg (0x900 + 8 * n) 0 = tag) with
    | some n => (s.cfg pg (0x904 + 8 * n) 0).toNat % 4
    | none => 0

end Sys2Proof.Machine
end

