-- ==== Sys2Proof/Machine/Access.lean ====
section
/-! DEFINITION. What the engines read and write: numbers, elements of W arrays (R26), metadata words (R35), width-map bytes
(R63), outlier entries (R56, R58, R136), Q codes (R40). -/

set_option Elab.async false

namespace Sys2Proof.Machine

/-- A number of `n` bytes read by a descriptor of context `c`. -/
def State.rd (s : State) (c : Ctx) (a n : Nat) : Except Fail Nat := s.readVal (.desc c) a n

def State.wr (s : State) (c : Ctx) (a : Nat) (bs : List Byte) : Except Fail State := s.write (.desc c) a bs

/-- Element `i` of a W array (R26). -/
def State.wAt (s : State) (c : Ctx) (f : WFmt) (base i : Nat) : Except Fail Nat :=
  if f.width = 12 then (s.rd c (base + 12 * i / 8) 2).map fun v => v / 2 ^ (12 * i % 8) % 4096
  else s.rd c (base + f.width / 8 * i) (f.width / 8)

/-- Elements `i`, `i` + 1, … of a W array, `n` of them. -/
def State.wRow (s : State) (c : Ctx) (f : WFmt) (base i n : Nat) : Except Fail (List Nat) :=
  (List.range n).mapM fun j => s.wAt c f base (i + j)

/-- Codes written from element `i`, even, of a W array; of a byte that W12 shares with a further element, only this half
(R26). -/
def State.putW (s : State) (c : Ctx) (f : WFmt) (base i : Nat) (codes : List Nat) : Except Fail State :=
  let a := base + f.width * i / 8
  let bs := f.pack codes
  if f.width = 12 ∧ codes.length % 2 = 1 then
    match s.rd c (a + (bs.length - 1)) 1 with
    | .error e => .error e
    | .ok old => s.wr c a (setFld bs (bs.length - 1) 1 (fld bs (bs.length - 1) 1 % 16 + old / 16 * 16))
  else s.wr c a bs

/-- The metadata word at `a`, malformed unless `ok` and the first two conditions of R35 hold. -/
def State.metaAt (s : State) (c : Ctx) (a : Nat) (ok : Meta → Bool) : Except Fail Meta :=
  match s.rd c a 4 with
  | .error f => .error f
  | .ok v => let m := Meta.ofNat v; if m.ok && ok m then .ok m else .error (Fail.bus a)

/-- The width of the width-map byte at `a`, at most `rw` (R63). -/
def State.widthAt (s : State) (c : Ctx) (a rw : Nat) : Except Fail Nat :=
  match s.rd c a 1 with
  | .error f => .error f
  | .ok v => if bit v 7 || decide (rw < v % 8 + 1) then .error (Fail.bus a) else .ok (v % 8 + 1)

/-- The integer that a W16 excess is, of magnitude at most `lim` where one is given (R58, R136). -/
def excOf (lim : Option Nat) (code : Nat) : Option Int :=
  match w16.value code with
  | none => none
  | some v =>
    if v.den ≠ 1 then none
    else match lim with
      | some l => if v.num.natAbs ≤ l then some v.num else none
      | none => some v.num

/-- The applied entries among entries `i` to `n` of an outlier region: the first of each index, those of indices in [lo, hi).
`seen` lists the indices met. -/
def State.outlFrom (s : State) (c : Ctx) (region lo hi : Nat) (lim : Option Nat) :
    Nat → Nat → List Nat → Except Fail (List (Nat × Int))
  | 0, _, _ => .ok []
  | n + 1, i, seen =>
    let a := region + 8 + 8 * i
    match s.rd c a 3 with
    | .error f => .error f
    | .ok idx =>
      if idx ∈ seen ∨ idx < lo ∨ hi ≤ idx then s.outlFrom c region lo hi lim n (i + 1) (idx :: seen)
      else
        match s.rd c (a + 4) 2 with
        | .error f => .error f
        | .ok code =>
          match excOf lim code with
          | none => .error (Fail.bus a)
          | some e =>
            match s.outlFrom c region lo hi lim n (i + 1) (idx :: seen) with
            | .error f => .error f
            | .ok l => .ok ((idx, e) :: l)

/-- The applied outlier entries of a region (R58, R136): index and excess. -/
def State.outliers (s : State) (c : Ctx) (region lo hi : Nat) (lim : Option Nat) : Except Fail (List (Nat × Int)) :=
  match s.rd c region 1 with
  | .error f => .error f
  | .ok v => s.outlFrom c region lo hi lim (v % 64) 0 []

/-- The excess of index `k`, 0 where the row has no entry. -/
def excAt (l : List (Nat × Int)) (k : Nat) : Int :=
  match l.find? fun p => decide (p.1 = k) with
  | some p => p.2
  | none => 0

/-- Code `j` of a packed row of reserve width `rw` at width n (R40). -/
def State.codeAt (s : State) (c : Ctx) (row rw n j : Nat) : Except Fail Nat :=
  let b := n * (j % 64)
  (s.rd c (row + j / 64 * rw * 8 + b / 8) (if b % 8 + n ≤ 8 then 1 else 2)).map fun v => v / 2 ^ (b % 8) % 2 ^ n

/-- The 64 codes of a block of a packed row (R40). -/
def State.blockCodes (s : State) (c : Ctx) (a n : Nat) : Except Fail (List Nat) :=
  (s.read (.desc c) a (8 * n)).map fun bs => (List.range 64).map fun j => qGet n bs j

/-- The fall-back kind and CCLS of a descriptor are at least the minimum. -/
def cclsOk (d : List Byte) (min : Nat) : Bool := decide (min ≤ hCcls d)

/-- The descriptor ends with FAILED; its own body failed a check. -/
def State.refuse (s : State) (u i : Nat) (e : Entry) : Option State := some (s.endEntry u i (.fail e.bus))

def aligned (n a : Nat) : Bool := decide (a % n = 0)

end Sys2Proof.Machine
end

