-- ==== Sys2Proof/Machine/Fta.lean ====
section
/-! DEFINITION. The forward table array (R83 to R104). -/

set_option Elab.async false

namespace Sys2Proof.Machine

/-! Body (Tables 4.1, 4.2). -/

def ftaWgt (d : List Byte) : Nat := fld d 16 6
def ftaWmeta (d : List Byte) : Nat := fld d 22 6
def ftaWoutl (d : List Byte) : Nat := fld d 28 6
def ftaAoutl (d : List Byte) : Nat := fld d 40 3
def ftaKlen (d : List Byte) : Nat := fld d 46 3
def ftaMrows (d : List Byte) : Nat := fld d 49 1
def ftaNtiles (d : List Byte) : Nat := fld d 50 2
def ftaKtstr (d : List Byte) : Nat := fld d 52 2
def ftaWmoff (d : List Byte) : Nat := fld d 54 2
def ftaAmoff (d : List Byte) : Nat := fld d 56 2
def ftaDfmt (d : List Byte) : Nat := fld d 60 1
def ftaKb0 (d : List Byte) : Nat := fld d 62 2
def ftaRagged (d : List Byte) : Bool := bit (ftaCtl d) 14
def ftaWblk (d : List Byte) : Bool := bit (ftaCtl d) 13
def ftaDacc (d : List Byte) : Bool := bit (ftaCtl d) 12
def ftaAccin (d : List Byte) : Bool := bit (ftaCtl d) 9
def ftaArw (d : List Byte) : Nat := bits (fld d 61 1) 6 4 + 1
def ftaWw (d : List Byte) : Nat := bits (fld d 61 1) 2 0 + 1
def ftaKt (d : List Byte) : Nat := ceilDiv (ftaKlen d) 64
def ftaKts (d : List Byte) : Nat := if ftaKtstr d = 0 then ftaKt d else ftaKtstr d
/-- Rows and columns of the shape. -/
def ftaRows (d : List Byte) : Nat := if ftaShape d = 2 then 32 else 64
def ftaCols (d : List Byte) : Nat := if ftaShape d = 0 then 64 else 32
def ftaNoWoutl (d : List Byte) : Bool := decide (ftaWoutl d = 2 ^ 48 - 1)
def ftaNoAoutl (d : List Byte) : Bool := decide (ftaAoutl d = 2 ^ 24 - 1)
def ftaHandle (d : List Byte) : Handle := Handle.ofNat (fld d 43 3)

/-- The body checks of R93, of the handle by R106. -/
def State.ftaBody (s : State) (x : EngUnit) (d : List Byte) : Bool :=
  let h := ftaHandle d
  decide (ftaKlen d ≠ 0 ∧ ftaMrows d ≠ 0 ∧ ftaNtiles d ≠ 0 ∧ ftaMrows d ≤ ftaRows d)
    && decide (ftaShape d < 3) && !bit (ftaCtl d) 15 && decide (bits (ftaCtl d) 8 0 = 0)
    && !bit (fld d 61 1) 7 && !bit (fld d 61 1) 3
    && decide (ftaDfmt d = 1 ∨ ftaDfmt d = 2 ∨ ftaDfmt d = 0x20)
    && decide ((ftaDfmt d = 0x20) ↔ (ftaDacc d = true)) && (!ftaAccin d || ftaDacc d)
    && (!ftaDacc d || (s.handleOk x.g h && decide (h.st = 0) && decide (h.cls = ftaClass d)
          && decide (ftaNtiles d ≤ h.cnt) && decide (ftaNtiles d ≤ (s.store x.g 0).cap 0 h.cls)))
    && (!hBwd d || decide (ftaDfmt d = 0x20))
    && (if ftaKtstr d = 0 then decide (ftaKb0 d = 0) else decide (ftaKb0 d + ftaKt d ≤ ftaKtstr d))
    && aligned 64 (ftaWgt d) && aligned 64 (fld d 34 3) && (ftaDacc d || aligned 64 (fld d 43 3))
    && (ftaNoWoutl d || aligned 64 (ftaWoutl d)) && (ftaNoAoutl d || aligned 64 (ftaAoutl d))
    && aligned 4 (ftaWmeta d) && aligned 4 (fld d 37 3)
    && (decide (hOp d ≠ 2) || (!ftaWblk d && ftaNoWoutl d && ftaNoAoutl d))
    && cclsOk d (ftaMin d)

/-- Ragged retire is honoured (R88), as sampled at the descriptor's start (R104, R367). -/
def State.ftaRaggedOn (s : State) (u : Nat) (d : List Byte) : Bool :=
  ftaRagged d && hExpert d && (s.cfg u 0x800 0).getLsbD 0

/-- The start of an FTA descriptor: its checks, its store's class (R110), its handle (R107). -/
def State.ftaStart (s : State) (x : EngUnit) (i : Nat) (e : Entry) (u : Nat) : Option State :=
  let d := e.desc
  let h := ftaHandle d
  if !s.ftaBody x d || s.classForeign x e then s.refuse u i e
  else if !s.classReady x e then none
  else
    let lanes := List.replicate 64 0
    let go := fun (t : State) => some (t.setProg u i fun p => { p with groups := lanes, ragged := t.ftaRaggedOn u d })
    if !ftaDacc d then go s
    else if ftaAccin d then if s.handleLive x.g h then go s else s.refuse u i e
    else if s.handleFree x.g h then go (s.openHandle x.g h (BitVec.ofNat 24 (fld d 43 3)))
    else none

/-- FTA_TABLE_PRODUCT (R83, R91). -/
def execFtaTableProduct (u : Nat) (s : State) : Host.Outcome State Fault Refusal :=
  .next (s.startEngine u 1 1 (fun _ _ => []) fun x _ i e t => t.ftaStart x i e u)

/-- FTA_TVA7200_PRODUCT (R97). -/
def execFtaTva7200Product (u : Nat) (s : State) : Host.Outcome State Fault Refusal :=
  .next (s.startEngine u 1 2 (fun _ _ => []) fun x _ i e t => t.ftaStart x i e u)

/-! Operands (R92, R96). -/

/-- The width in force of channel `i` (R90). -/
def State.ftaWidth (s : State) (c : Ctx) (d : List Byte) (i : Nat) : Except Fail Nat :=
  if ftaWblk d then s.widthAt c (ftaWmeta d + 64 * ftaWmoff d + i / 128) (ftaWw d) else .ok (ftaWw d)

/-- The start of weight-tile row `u` (R92). -/
def State.ftaTileRow (s : State) (c : Ctx) (d : List Byte) : Nat → Except Fail Nat
  | 0 => .ok (ftaWgt d)
  | u + 1 => do
    let a ← s.ftaTileRow c d u
    let n ← s.ftaWidth c d (64 * u)
    pure (a + ftaKts d * n * 520)

/-- The admitted codes of row `r` of a weight tile of width n (R38, R39). -/
def State.ftaWeightRow (s : State) (c : Ctx) (tile n r : Nat) : Except Fail (List Nat) := do
  let ws ← (List.range n).mapM fun p => do
    let occ ← s.rd c (tile + p * 520) 8
    if bit occ r then s.rd c (tile + p * 520 + 8 + 8 * r) 8 else pure 0
  pure ((List.range 64).map fun j => ((List.range n).zip ws).foldl (fun a x => a + 2 ^ x.1 * b2n (bit x.2 j)) 0)

/-- An activation row: its metadata word and its codes over the K range (R40, R90). -/
def State.ftaActRow (s : State) (c : Ctx) (e : Entry) (r : Nat) : Except Fail (Meta × List Nat) := do
  let d := e.desc
  let a := e.base + fld d 37 3
  let m ← s.metaAt c (a + 4 * r) fun m => decide (m.n ≤ ftaArw d)
  if ftaAmoff d ≠ 0 then
    let w ← s.widthAt c (a + 64 * ftaAmoff d + r / 32) (ftaArw d)
    if w ≠ m.n then Except.error (Fail.bus (a + 4 * r))
  let blocks ← (List.range (ftaKt d)).mapM fun b =>
    s.blockCodes c (e.base + fld d 34 3 + (r * ftaKts d + ftaKb0 d + b) * ftaArw d * 8) m.n
  pure (m, blocks.flatten)

/-- The excesses of an outlier region over the K range, by position (R58, R92). -/
def State.ftaExc (s : State) (c : Ctx) (d : List Byte) (none? : Bool) (region : Nat) : Except Fail (List (Nat × Int)) :=
  if none? then .ok []
  else
    let lo := 64 * ftaKb0 d
    (s.outliers c region lo (lo + 64 * ftaKt d) none).map fun l => l.map fun p => (p.1 - lo, p.2)

/-- The largest activation width among the rows (R97). -/
def State.ftaPA (s : State) (c : Ctx) (e : Entry) : Except Fail Nat :=
  (List.range (ftaMrows e.desc)).foldlM (init := 0) fun m r => do
    let w ← s.metaAt c (e.base + fld e.desc 37 3 + 4 * r) fun m => decide (m.n ≤ ftaArw e.desc)
    pure (max m w.n)

/-- Planes of each lane for weight tile `w` in running order (R85, R86), all of them under OP 0x02. -/
def State.ftaPlanes (s : State) (c : Ctx) (e : Entry) (w : Nat) : Except Fail (List Nat) := do
  let d := e.desc
  let first := w / ftaKt d * ftaCols d
  if hOp d = 2 then
    let p ← s.ftaPA c e
    pure ((List.range 64).map fun l => if l < ftaCols d then p else 0)
  else
    let n ← s.ftaWidth c d first
    let a ← s.ftaTileRow c d (first / 64)
    let tile := a + (ftaKb0 d + w % ftaKt d) * n * 520
    let occ ← (List.range n).mapM fun p => s.rd c (tile + p * 520) 8
    pure ((List.range 64).map fun l =>
      if l < ftaCols d then (occ.map fun o => b2n (bit o (first % 64 + l))).sum else 0)

/-- The weight tiles of a descriptor. -/
def ftaWtiles (d : List Byte) : Nat := ftaNtiles d * ftaKt d

/-- The first weight tile that a lane with `done` passes has not finished. -/
def laneTile (lane : Nat) : List (List Nat) → Nat → Nat
  | [], _ => 0
  | t :: r, done => if t.getD lane 0 ≤ done then laneTile lane r (done - t.getD lane 0) + 1 else 0

/-- Every lane has finished the listed weight tiles. -/
def lanesDone (planes : List (List Nat)) (done : List Nat) : Bool :=
  (List.range 64).all fun l => decide (planes.length ≤ laneTile l planes (done.getD l 0))

/-- How far the array has come in the order of R85: the planes of the weight tiles it has taken up, the first one that some
lane has not finished, and the failure of reading its occupancy or width map. -/
structure FtaFront where
  planes : List (List Nat)
  tile : Nat
  err : Option Fail
  deriving DecidableEq

/-- Weight tiles are taken up one after another, each once every lane has finished the one before (R87). -/
def State.ftaFrom (s : State) (c : Ctx) (e : Entry) (done : List Nat) : Nat → List (List Nat) → FtaFront
  | 0, acc => { planes := acc, tile := acc.length, err := none }
  | n + 1, acc =>
    match s.ftaPlanes c e acc.length with
    | .error f => { planes := acc, tile := acc.length, err := some f }
    | .ok p =>
      let next := acc ++ [p]
      if lanesDone next done then s.ftaFrom c e done n next else { planes := next, tile := acc.length, err := none }

/-- The front of a running descriptor after `done` passes of each lane; under ragged retire with the next tile for the lanes that
lead (R88). -/
def State.ftaFront (s : State) (c : Ctx) (e : Entry) (done : List Nat) : FtaFront :=
  let x := s.ftaFrom c e done (ftaWtiles e.desc) []
  if !e.prog.ragged || x.err.isSome || decide (ftaWtiles e.desc ≤ x.planes.length) then x
  else
    match s.ftaPlanes c e x.planes.length with
    | .ok p => { x with planes := x.planes ++ [p] }
    | .error f =>
      if (List.range 64).any fun l => decide (x.planes.length ≤ laneTile l x.planes (done.getD l 0)) then { x with err := some f }
      else x

/-- A lane may run its next plane: the fence of R87 or the lead and the FIFO of R88. -/
def laneReady (planes : List (List Nat)) (ragged : Bool) (kt drained : Nat) (done : List Nat) (l : Nat) : Bool :=
  let t := laneTile l planes (done.getD l 0)
  decide (t < planes.length) && decide (t / kt ≤ drained + 2)
    && (List.range 64).all fun k => decide (t ≤ laneTile k planes (done.getD k 0) + (if ragged then 1 else 0))

/-- The lanes of a group. -/
def groupLanes (group : Nat) : List Nat := (List.range 8).map fun k => 8 * group + k

/-- The lanes of a group that may run a plane pass now (R87, R88). -/
def ftaReady (e : Entry) (x : FtaFront) (done : List Nat) (group : Nat) : List Nat :=
  (groupLanes group).filter (laneReady x.planes e.prog.ragged (ftaKt e.desc) e.prog.tiles done)

/-- The lane group has a plane pass to run: only such a group requests a credit (R87, R101, R102). -/
def State.ftaDue (s : State) (c : Ctx) (e : Entry) (group : Nat) : Bool :=
  let x := s.ftaFront c e e.prog.groups
  x.err.isNone && !(ftaReady e x e.prog.groups group).isEmpty

/-- Plane passes that occupancy skips in a weight tile (R86); none under OP 0x02 (R97). -/
def State.ftaSkips (s : State) (c : Ctx) (e : Entry) (w : Nat) (planes : List Nat) : Nat :=
  if hOp e.desc = 2 then 0
  else
    match s.ftaWidth c e.desc (w / ftaKt e.desc * ftaCols e.desc) with
    | .ok n => ftaCols e.desc * n - planes.sum
    | .error _ => 0

/-- FTA_CNT_TILE and FTA_CNT_SKIP take in the weight tiles before `upto` that every lane has finished (R103). -/
def State.ftaCount (s : State) (c : Ctx) (u i : Nat) (e : Entry) (planes : List (List Nat)) (upto : Nat) : State :=
  let k := e.prog.wdone
  let new := (planes.zipIdx.take upto).drop k
  ((s.count u 0 (upto - k)).count u 2 (new.map fun p => s.ftaSkips c e p.2 p.1).sum).setProg u i fun p =>
    { p with wdone := max p.wdone upto }

/-- The bytes of the destination from output tile `j` on become unspecified, or the handle's tiles (R94). -/
def State.ftaSpoil (s : State) (c : Ctx) (x : EngUnit) (e : Entry) (j : Nat) : State :=
  let d := e.desc
  if ftaDacc d then s.freeHandleTiles x.g (ftaHandle d)
  else
    let sz := if ftaDfmt d = 2 then 3 else 2
    let w := ftaNtiles d * ftaCols d
    (List.range (ftaMrows d)).foldl (fun t r =>
      t.scramble (.desc c) (e.base + fld d 43 3 + (r * w + j * ftaCols d) * sz) ((ftaNtiles d - j) * ftaCols d * sz)) s

def State.ftaFail (s : State) (c : Ctx) (x : EngUnit) (u i : Nat) (e : Entry) (f : Fail) : State :=
  (s.ftaSpoil c x e e.prog.tiles).endEntry u i (.fail f)

/-- The group's next pass begins in the next ACLK: in the tile it stands in or the one after it, since a tile without a plane
between takes 2 ACLK (R87, R102, R331). -/
def ftaGoesOn (e : Entry) (x y : FtaFront) (done : List Nat) (group : Nat) : Bool :=
  y.err.isNone && (ftaReady e y done group).any fun l =>
    e.prog.ragged || decide (laneTile l y.planes (done.getD l 0) ≤ x.tile + 1)

/-- LANE_GROUP_PASS (R102, R86 to R88): every lane of the group that may run runs its next plane pass; the group's credit is kept
only for a pass that begins at once. -/
def execLaneGroupPass (u group : Nat) (s : State) : Host.Outcome State Fault Refusal :=
  match s.unit u, (s.engine u).running with
  | some x, some (i, e) =>
    match s.ctx? e.ctx with
    | none => .next s
    | some c =>
      if !decide (x.eng = 1) || !decide (group < 8) then .next s
      else
        let fr := s.ftaFront c e e.prog.groups
        match fr.err with
        | some f =>
          if fr.tile / ftaKt e.desc ≤ e.prog.tiles + 2 then .next ((s.ftaCount c u i e fr.planes fr.tile).ftaFail c x u i e f)
          else .next s
        | none =>
          let run := ftaReady e fr e.prog.groups group
          if run.isEmpty || !(decide (e.perPass = 0) || decide (group ∈ e.prog.held)) then .next s
          else
            let done := (List.range 64).map fun l => e.prog.groups.getD l 0 + b2n (decide (l ∈ run))
            let s1 := (s.setProg u i fun p => { p with groups := done }).count u 1 run.length
            let fr1 := s.ftaFront c e done
            let s2 := s1.ftaCount c u i e fr1.planes fr1.tile
            .next (if ftaGoesOn e fr fr1 done group then s2 else s2.returnPass u i group)
  | _, _ => .next s

/-! Drain and retire (R84, R95). -/

/-- A scale of a weight channel: its metadata word, or its TVA scale (R96; a scale with its sign bit set is malformed). -/
def State.ftaWeightMeta (s : State) (c : Ctx) (d : List Byte) (i : Nat) : Except Fail Meta :=
  if hOp d = 2 then do
    let v ← s.rd c (ftaWmeta d + 2 * i) 2
    if v < 0x8000 then pure { p2 := false, n := 8, zp := 0, scale := v } else Except.error (Fail.bus (ftaWmeta d + 2 * i))
  else do
    let n ← s.ftaWidth c d i
    s.metaAt c (ftaWmeta d + 4 * i) fun m => decide (m.n = n)

/-- The table entries of channel row `r` of a TVA7200 tile (R96). -/
def State.tvaRow (s : State) (c : Ctx) (tile r : Nat) : Except Fail (List Int) :=
  (s.read (.desc c) (tile + r * 512) 512).map fun bs => (List.range 256).map fun k => sx 16 (fld bs (2 * k) 2)

/-- The table sum of R97 for one channel and one activation row over the K range, before its correction. -/
def tvaRaw (pa : Nat) (acts : List Nat) (tabs : List (List Int)) : Int :=
  (tabs.zipIdx.map fun t => ((List.range 16).map fun g =>
    ((List.range pa).map fun p =>
      let q := (acts.drop (64 * t.2 + 4 * g)).take 4
      let nib := (q.zipIdx.map fun z => b2n (bit z.1 p) * 2 ^ z.2).sum
      ((2 ^ p : Nat) : Int) * t.1.getD (16 * g + nib) 0).sum).sum).sum

/-- SW_c of a TVA7200 channel (R96). -/
def tvaSw (tabs : List (List Int)) : Int :=
  (tabs.map fun t => ((List.range 16).map fun g => t.getD (16 * g + 15) 0).sum).sum

/-- A tile's elements: the terms added, the units for retire, the outlier entries processed. -/
structure FtaTile where
  terms : List Int
  units : List Rat
  outx : Nat
  deriving DecidableEq

/-- The centred restored codes of a row: (c − z) + e at each position (R58, R84). -/
def centred (z : Nat) (codes : List Nat) (exc : List (Nat × Int)) : List Int :=
  codes.zipIdx.map fun p => (p.1 : Int) - z + excAt exc p.2

/-- Output tile `j` of a running descriptor (R84, R97, R58): rows at and above MROWS add nothing. -/
def State.ftaTile (s : State) (c : Ctx) (e : Entry) (j : Nat) : Except Fail FtaTile := do
  let d := e.desc
  let cols := ftaCols d
  let acts ← (List.range (ftaMrows d)).mapM fun r => s.ftaActRow c e r
  let aexc ← (List.range (ftaMrows d)).mapM fun r => s.ftaExc c d (ftaNoAoutl d) (e.base + ftaAoutl d + 512 * r)
  let wm ← (List.range cols).mapM fun k => s.ftaWeightMeta c d (j * cols + k)
  let unit := fun (r k : Nat) => match acts[r]?, wm[k]? with
    | some a, some m => a.1.unit * m.unit
    | _, _ => 0
  let rows := ftaRows d
  let units := (List.range rows).flatMap fun r => (List.range cols).map fun k => unit r k
  if hOp d = 2 then
    let pa ← s.ftaPA c e
    let tabs ← (List.range cols).mapM fun k => (List.range (ftaKt d)).mapM fun b =>
      s.tvaRow c (ftaWgt d + (j * cols / 64 * ftaKts d + ftaKb0 d + b) * 32768) (j * cols % 64 + k)
    pure { terms := (List.range rows).flatMap fun r => tabs.map fun t => match acts[r]? with
             | some a => tvaRaw pa a.2 t - a.1.zero * tvaSw t
             | none => 0
           units := units, outx := 0 }
  else
    let n ← s.ftaWidth c d (j * cols)
    let a ← s.ftaTileRow c d (j * cols / 64)
    let wrows ← (List.range cols).mapM fun k => do
      let bl ← (List.range (ftaKt d)).mapM fun b => s.ftaWeightRow c (a + (ftaKb0 d + b) * n * 520) n (j * cols % 64 + k)
      pure bl.flatten
    let wexc ← (List.range cols).mapM fun k => s.ftaExc c d (ftaNoWoutl d) (ftaWoutl d + 512 * (j * cols + k))
    let ws := (wm.zip (wrows.zip wexc)).map fun p => centred p.1.zero p.2.1 p.2.2
    let as := (acts.zip aexc).map fun p => centred p.1.1.zero p.1.2 p.2
    pure { terms := (List.range rows).flatMap fun r => ws.map fun w => match as[r]? with
             | some a => ((a.zip w).map fun p => p.1 * p.2).sum
             | none => 0
           units := units, outx := (aexc.map List.length).sum + (wexc.map List.length).sum }

/-- Terms added into the elements of a live tile; answers the elements and how many overflow flags were set (R42). -/
def addTerms (bits : Nat) (m : SMap Elem) (ts : List Int) : SMap Elem × Nat :=
  ts.zipIdx.foldl (fun a p =>
    let e := SMap.get a.1 Elem.zero p.2
    let e' := e.add bits p.1 false false
    (SMap.put a.1 Elem.zero p.2 e', a.2 + b2n (e'.ovf && !e.ovf))) (m, 0)

/-- The rows of a tile converted to DFMT and written (R92, R43). -/
def State.ftaWrite (s : State) (c : Ctx) (e : Entry) (j : Nat) (t : FtaTile) : Except Fail State :=
  let d := e.desc
  let f := if ftaDfmt d = 2 then w24 else w16
  let cols := ftaCols d
  let codes := (t.terms.zip t.units).map fun p =>
    ((Elem.zero.add 48 p.1 false false).retire f .rne p.2).code
  (List.range (ftaMrows d)).foldlM (fun s r =>
    s.wr c (e.base + fld d 43 3 + (r * (ftaNtiles d * cols) + j * cols) * (f.width / 8))
      (f.pack ((codes.drop (r * cols)).take cols))) s

/-- OUTPUT_TILE_DRAIN (R95): the next output tile, its columns all deposited, with a slot of its class free. -/
def execOutputTileDrain (u : Nat) (s : State) : Host.Outcome State Fault Refusal :=
  match s.unit u, (s.engine u).running with
  | some x, some (i, e) =>
    match s.ctx? e.ctx with
    | none => .next s
    | some c =>
      let d := e.desc
      let j := e.prog.tiles
      let h := ftaHandle d
      if decide (x.eng = 1) then
        let last := (j + 1) * ftaKt d
        let fr := s.ftaFrom c e e.prog.groups last []
        match fr.err with
        | some f => .next ((s.ftaCount c u i e fr.planes fr.tile).ftaFail c x u i e f)
        | none =>
          let slot := if ftaDacc d then true else (s.store x.g 0).hasSlot 0 (ftaClass d)
          if decide (fr.tile < last) || !slot || !(s.store x.g 0).inForce (ftaClass d) then .next s
          else
            let s0 := s.ftaCount c u i e fr.planes last
            match s.ftaTile c e j with
            | .error f => .next (s0.ftaFail c x u i e f)
            | .ok t =>
              let s1 := s0.count (hearthPage x.g 7) 3 t.outx
              let fin := fun (w : State) =>
                let s3 := w.setProg u i fun p => { p with tiles := j + 1 }
                if j + 1 = ftaNtiles d then s3.endEntry u i (.ok 0) else s3
              if ftaDacc d then
                let old := match (s1.store x.g 0).tile? h.cls (h.base + j) with
                  | some z => z.elems
                  | none => []
                let a := addTerms 48 old t.terms
                .next (fin ((s1.setTile x.g 0 h.cls (h.base + j) fun z => { z with elems := a.1 }).count u 6 a.2))
              else
                let s2 := s1.count u 6 (addTerms 48 [] t.terms).2
                match s2.ftaWrite c e j t with
                | .error f => .next (s2.ftaFail c x u i e f)
                | .ok w => .next (fin w)
      else .next s
  | _, _ => .next s

end Sys2Proof.Machine
end

