-- ==== Sys2Proof/Machine/Bwa.lean ====
section
/-! DEFINITION. The backward arrays (R134 to R157). -/

set_option Elab.async false

namespace Sys2Proof.Machine

/-! Body (Tables 6.2, 6.3). -/

def bwaAf (d : List Byte) : Nat := bits (fld d 43 1) 7 4
def bwaBf (d : List Byte) : Nat := bits (fld d 43 1) 3 0
def bwaKlen (d : List Byte) : Nat := fld d 40 3
def bwaLda (d : List Byte) : Nat := 32 * fld d 48 2
def bwaLdb (d : List Byte) : Nat := 32 * fld d 50 2
def bwaBcb (d : List Byte) : Nat := fld d 52 2
def bwaTa (d : List Byte) : Bool := bit (bwaCtl d) 15
def bwaTb (d : List Byte) : Bool := bit (bwaCtl d) 14
def bwaDacc (d : List Byte) : Bool := bit (bwaCtl d) 13
def bwaAccin (d : List Byte) : Bool := bit (bwaCtl d) 12
def bwaBrw (d : List Byte) : Nat := bits (bwaCtl d) 6 4 + 1
def bwaOf (d : List Byte) : Nat := bits (bwaCtl d) 3 2
def bwaSr (d : List Byte) : Bool := bit (bwaCtl d) 7 || hBwd d
def bwaHandle (d : List Byte) : Handle := Handle.ofNat (fld d 28 3)
def bwaOfmt (d : List Byte) : WFmt := if bwaOf d = 0 then w16 else if bwaOf d = 1 then w24 else w12
def bwaTiles (d : List Byte) : Nat := bwaMT d * bwaNT d

/-- The body checks of R142, of the handle by R106 and R141. -/
def State.bwaBody (s : State) (x : EngUnit) (d : List Byte) : Bool :=
  let h := bwaHandle d
  let q := decide (bwaBf d = 8)
  decide (bwaKlen d ≠ 0 ∧ bwaMT d ≠ 0 ∧ bwaNT d ≠ 0 ∧ bwaLda d ≠ 0 ∧ bwaLdb d ≠ 0)
    && decide (bits (bwaCtl d) 1 0 = 0) && decide (bwaCls d < 3 ∧ bwaMmode d < 3 ∧ bwaOf d < 3)
    && decide (bwaAf d = 1 ∨ bwaAf d = 3) && decide (bwaBf d = 1 ∨ bwaBf d = 3 ∨ bwaBf d = 8)
    && (decide (bwaCls d ≠ 2) || decide (bwaAf d = 3 ∧ bwaBf d = 3))
    && (if q then !bwaTb d && decide (fld d 50 2 % 2 = 0) && aligned 4 (fld d 31 3)
          && (decide (fld d 34 3 = 2 ^ 24 - 1) || aligned 64 (fld d 34 3))
        else decide (fld d 31 3 = 0 ∧ fld d 34 3 = 0 ∧ bwaBcb d = 0 ∧ bwaBrw d = 1))
    && (!bwaAccin d || bwaDacc d) && (!bwaDacc d || decide (bwaOf d = 0))
    && (!bwaDacc d || (s.handleOk x.g h && decide (h.st = 1 + x.inst) && decide (h.cls = bwaClass d)
          && decide (bwaTiles d ≤ h.cnt)))
    && (decide (bwaMmode d ≠ 0) || decide (fld d 37 3 = 0)) && (decide (bwaMmode d = 0) || aligned 8 (fld d 37 3))
    && aligned 64 (fld d 16 6) && aligned 64 (fld d 22 6) && (bwaDacc d || aligned 64 (fld d 28 3))
    && cclsOk d (bwaMin d)

/-! Masks (R144, R145). -/

/-- The mask's bytes. -/
def State.bwaMask (s : State) (c : Ctx) (e : Entry) : Except Fail (List Byte) :=
  if bwaMmode e.desc = 0 then .ok []
  else s.read (.desc c) (e.base + fld e.desc 37 3) ((bwaMaskBits e.desc + 7) / 8)

/-- Row `r` of tile `t` is masked. -/
def bwaMasked (d m : List Byte) (t r : Nat) : Bool :=
  let ti := t / bwaNT d
  let tj := t % bwaNT d
  match bwaMmode d with
  | 1 => streamBit m (32 * ti + r)
  | 2 => streamBit m (ti * ceilDiv (bwaNT d * bwaC d) 32 + tj * bwaC d / 32)
  | _ => false

/-- Row group `g` runs a pass for tile `t`. -/
def bwaActive (d m : List Byte) (t g : Nat) : Bool := (List.range 8).any fun r => !bwaMasked d m t (8 * g + r)

def bwaTileMasked (d m : List Byte) (t : Nat) : Bool := (List.range 4).all fun g => !bwaActive d m t g

/-- The first tile that some row group has still to pass. -/
def curTile (act : Nat → Nat → Bool) : Nat → Nat → List Nat → Nat
  | 0, t, _ => t
  | fuel + 1, t, g =>
    if (List.range 4).all fun k => !act t k || decide (0 < g.getD k 0) then
      curTile act fuel (t + 1) ((List.range 4).map fun k => g.getD k 0 - b2n (act t k))
    else t

/-- Whether row group `g` may run its pass of tile `t` after `done` passes of each group. -/
def bwaNext (act : Nat → Nat → Bool) (total : Nat) (done : List Nat) (g : Nat) : Option Nat :=
  let t := curTile act total 0 done
  let upto := ((List.range (t + 1)).map fun k => b2n (act k g)).sum
  if t < total ∧ act t g = true ∧ done.getD g 0 < upto then some t else none

/-! Start. -/

/-- The element index of output element (i, j) of the descriptor (R146). -/
def bwaElem (d : List Byte) (i j : Nat) : Nat := fld d 60 4 * 1024 + i * (bwaNT d * bwaC d) + j

/-- The words a retire under SR asks for: one for each element that is not masked. -/
def State.bwaWords (s : State) (x : EngUnit) (c : Ctx) (e : Entry) : List Nat :=
  let d := e.desc
  if !s.bwaBody x d || bwaDacc d || !bwaSr d then []
  else
    match s.bwaMask c e with
    | .error _ => []
    | .ok m =>
      (List.range (32 * bwaMT d)).flatMap fun i => (List.range (bwaNT d * bwaC d)).filterMap fun j =>
        if bwaMasked d m (i / 32 * bwaNT d + j / bwaC d) (i % 32) then none else some (bwaElem d i j)

/-! Failure (R143). -/

def State.bwaFail (s : State) (c : Ctx) (x : EngUnit) (u i : Nat) (e : Entry) (f : Fail) : State :=
  let d := e.desc
  let t := e.prog.tiles
  let w := (bwaOfmt d).width
  let n := bwaNT d * bwaC d
  let s1 :=
    if bwaDacc d then s.freeHandleTiles x.g (bwaHandle d)
    else (List.range (bwaTiles d - t)).foldl (fun s k =>
      (List.range 32).foldl (fun s r =>
        let idx := ((t + k) / bwaNT d * 32 + r) * n + (t + k) % bwaNT d * bwaC d
        s.scramble (.desc c) (e.base + fld d 28 3 + w * idx / 8) (w * bwaC d / 8)) s) s
  s1.endEntry u i (.fail f)

/-- The start of a BWA descriptor: its checks, its store's class (R110), its handle (R107), its mask. A mask that cannot be read
fails the run that has begun: the tiles of its handle are live then (R143). -/
def State.bwaStart (s : State) (x : EngUnit) (c : Ctx) (i : Nat) (e : Entry) (u : Nat) : Option State :=
  let d := e.desc
  let h := bwaHandle d
  if !s.bwaBody x d || s.classForeign x e then s.refuse u i e
  else if !s.classReady x e then none
  else
    let go := fun (t : State) => match t.bwaMask c e with
      | .error f => some (t.bwaFail c x u i e f)
      | .ok _ => some (t.setProg u i fun p => { p with groups := List.replicate 4 0 })
    if !bwaDacc d then go s
    else if bwaAccin d then if s.handleLive x.g h then go s else s.refuse u i e
    else if s.handleFree x.g h then go (s.openHandle x.g h (BitVec.ofNat 24 (fld d 28 3)))
    else none

/-- BWA_PRODUCT (R134, R139). -/
def execBwaProduct (u : Nat) (s : State) : Host.Outcome State Fault Refusal :=
  .next (s.startEngine u 2 1 (fun c e => match s.unit u with
    | some x => s.bwaWords x c e
    | none => []) fun x c i e t => t.bwaStart x c i e u)

/-- A slot is there for tile `t` of a descriptor that retires its own tiles (R155). -/
def State.bwaSlot (s : State) (x : EngUnit) (e : Entry) (t : Nat) : Bool :=
  let y := s.store x.g (1 + x.inst)
  y.inForce (bwaClass e.desc) && (bwaDacc e.desc
    || decide ((y.tiles.filter fun p => decide (p.2.cls = bwaClass e.desc) && !p.2.drained).length + (t - e.prog.tiles)
        < y.cap (1 + x.inst) (bwaClass e.desc)))

/-! Operands (R136, R140). -/

/-- Element (i, l) of A, none for NaR. -/
def State.bwaA (s : State) (c : Ctx) (d : List Byte) (i l : Nat) : Except Fail (Option Rat) :=
  let f := if bwaAf d = 1 then w16 else w12
  (s.wAt c f (fld d 16 6) (if bwaTa d then l * bwaLda d + i else i * bwaLda d + l)).map f.value

/-- Columns j0 to j0 + C − 1 of row l of B. -/
def State.bwaB (s : State) (c : Ctx) (e : Entry) (l j0 : Nat) : Except Fail (List (Option Rat)) :=
  let d := e.desc
  if bwaBf d = 8 then do
    let mw ← s.metaAt c (e.base + fld d 31 3 + 4 * l) fun m => decide (m.n ≤ bwaBrw d) && (!m.p2 || decide (sx 8 m.scale ≤ 64))
    let lo := 64 * bwaBcb d + j0
    let exc ← if fld d 34 3 = 2 ^ 24 - 1 then pure [] else
      s.outliers c (e.base + fld d 34 3 + 512 * l) lo (lo + bwaC d) (some 32768)
    (List.range (bwaC d)).mapM fun k => do
      let code ← s.codeAt c (fld d 22 6 + l * (bwaLdb d / 64) * bwaBrw d * 8) (bwaBrw d) mw.n (lo + k)
      pure (some ((((code : Int) - mw.zero + excAt exc (lo + k) : Int) : Rat) * mw.unit))
  else
    let f := if bwaBf d = 1 then w16 else w12
    (List.range (bwaC d)).mapM fun k =>
      (s.wAt c f (fld d 22 6) (if bwaTb d then (j0 + k) * bwaLdb d + l else l * bwaLdb d + (j0 + k))).map f.value

/-- Exact sum of products in units of the class, whether a product is NaR, and how many are. -/
def bwaDot (unit : Rat) (a b : List (Option Rat)) : Int × Nat :=
  (a.zip b).foldl (fun q p => match p.1, p.2 with
    | some v, some w => (q.1 + (v * w / unit).num, q.2)
    | _, _ => (q.1, q.2 + 1)) (0, 0)

/-- The terms of tile `t` in the row groups `gs`: for each element its mask bit, its sum and its count of NaR products; the rows of
a gated group and of the other groups read nothing. -/
def State.bwaTerms (s : State) (c : Ctx) (e : Entry) (m : List Byte) (t : Nat) (gs : List Nat) :
    Except Fail (List (Bool × Int × Nat)) :=
  let d := e.desc
  let ti := t / bwaNT d
  let tj := t % bwaNT d
  let cols := bwaC d
  let k := List.range (bwaKlen d)
  let on := fun r => decide (r / 8 ∈ gs) && !bwaMasked d m t r
  if !(List.range 32).any on then .ok (List.replicate (32 * cols) (true, 0, 0))
  else do
    let a ← (List.range 32).mapM fun r =>
      if decide (r / 8 ∈ gs) && bwaActive d m t (r / 8) then k.mapM fun l => s.bwaA c d (32 * ti + r) l else pure []
    let b ← k.mapM fun l => s.bwaB c e l (tj * cols)
    pure ((List.range 32).flatMap fun r => (List.range cols).map fun j =>
      if on r then
        let q := bwaDot (clsUnit (bwaClass d)) (a.getD r []) (b.map fun row => row.getD j none)
        (false, q.1, q.2)
      else (true, 0, 0))

/-! Passes. -/

/-- The pass that a row group may run now: the array's present tile, with a slot for it. -/
def State.bwaGo (s : State) (x : EngUnit) (e : Entry) (m : List Byte) (done : List Nat) (group : Nat) : Option Nat :=
  (bwaNext (bwaActive e.desc m) (bwaTiles e.desc) done group).filter fun t => s.bwaSlot x e t

/-- The row group has a pass to run: only such a group requests a credit (R145, R156). -/
def State.bwaDue (s : State) (x : EngUnit) (c : Ctx) (e : Entry) (group : Nat) : Bool :=
  match s.bwaMask c e with
  | .ok m => (s.bwaGo x e m e.prog.groups group).isSome
  | .error _ => false

/-- The counts of tiles that the array has passed, up to tile `upto`: passes run, tiles skipped as fully masked, row-group passes
gated by the row mask (Table 6.7). -/
def State.bwaCount (s : State) (u i : Nat) (e : Entry) (m : List Byte) (upto : Nat) : State :=
  let d := e.desc
  let k := e.prog.wdone
  let new := (List.range (upto - k)).map fun n => k + n
  let run := new.filter fun t => !bwaTileMasked d m t
  let gated := (run.map fun t => ((List.range 4).filter fun g => !bwaActive d m t g).length).sum
  (((s.count u 1 run.length).count u 2 (new.length - run.length)).count u 3 (if bwaMmode d = 1 then gated else 0)).setProg u i
    fun p => { p with wdone := max p.wdone upto }

/-- ROW_GROUP_PASS (R156): the row group runs its pass of the array's present tile; its credit is kept only for a pass that begins
at once, with no fully masked tile between (R145, R331). -/
def execRowGroupPass (u group : Nat) (s : State) : Host.Outcome State Fault Refusal :=
  match s.unit u, (s.engine u).running with
  | some x, some (i, e) =>
    match s.ctx? e.ctx with
    | none => .next s
    | some c =>
      if !decide (x.eng = 2) || !decide (group < 4) then .next s
      else
        match s.bwaMask c e with
        | .error f => .next (s.bwaFail c x u i e f)
        | .ok m =>
          match s.bwaGo x e m e.prog.groups group with
          | none => .next s
          | some t =>
            if !(decide (e.perPass = 0) || decide (group ∈ e.prog.held)) then .next s
            else
              let done := (List.range 4).map fun k => e.prog.groups.getD k 0 + b2n (decide (k = group))
              match s.bwaTerms c e m t [group] with
              | .error f => .next (s.bwaFail c x u i e f)
              | .ok ts =>
                let s1 := s.setProg u i fun p => { p with groups := done }
                let s2 := (s1.count u 0 ((ts.filter fun p => !p.1).length * bwaKlen e.desc)).count u 4
                  (ts.map fun p => p.2.2).sum
                let s3 := s2.bwaCount u i e m (curTile (bwaActive e.desc m) (bwaTiles e.desc) 0 done)
                .next (if s.bwaGo x e m done group = some (t + 1) then s3 else s3.returnPass u i group)
  | _, _ => .next s

/-! Retire (R146, R144). -/

/-- The retired elements of a tile. -/
def bwaRetire (d : List Byte) (w : Words) (t : Nat) (ts : List (Bool × Int × Nat)) : List Rounded :=
  let f := bwaOfmt d
  let cls := bwaClass d
  let cols := bwaC d
  ts.zipIdx.map fun p =>
    if p.1.1 then ⟨0, false, false⟩
    else
      let i := t / bwaNT d * 32 + p.2 / cols
      let j := t % bwaNT d * cols + p.2 % cols
      let r := if bwaSr d then Rnd.sr (w.w16 0 (bwaElem d i j)) else .rne
      (Elem.zero.add (clsBits cls) p.1.2.1 (decide (p.1.2.2 ≠ 0)) false).retire f r (clsUnit cls)

def State.bwaWrite (s : State) (c : Ctx) (e : Entry) (t : Nat) (rs : List Rounded) : Except Fail State :=
  let d := e.desc
  let f := bwaOfmt d
  let cols := bwaC d
  (List.range 32).foldlM (fun s r =>
    let idx := (t / bwaNT d * 32 + r) * (bwaNT d * cols) + t % bwaNT d * cols
    s.wr c (e.base + fld d 28 3 + f.width * idx / 8) (f.pack (((rs.drop (r * cols)).take cols).map fun x => x.code))) s

/-- BWA_TILE_RETIRE (R146, R144): the next tile, its last chunk added; under DACC = 1 its terms are in the handle's tile. -/
def execBwaTileRetire (u : Nat) (s : State) : Host.Outcome State Fault Refusal :=
  match s.unit u, (s.engine u).running with
  | some x, some (i, e) =>
    match s.ctx? e.ctx with
    | none => .next s
    | some c =>
      let d := e.desc
      let t := e.prog.tiles
      let st := 1 + x.inst
      let h := bwaHandle d
      if decide (x.eng = 2) then
        match s.bwaMask c e with
        | .error f => .next (s.bwaFail c x u i e f)
        | .ok m =>
          if curTile (bwaActive d m) (bwaTiles d) 0 e.prog.groups ≤ t ∨ !(s.store x.g st).inForce (bwaClass d) then .next s
          else
            let s1 := s.bwaCount u i e m (t + 1)
            match s.bwaTerms c e m t [0, 1, 2, 3] with
            | .error f => .next (s1.bwaFail c x u i e f)
            | .ok ts =>
              let fin := fun (w : State) =>
                let s3 := w.setProg u i fun p => { p with tiles := t + 1 }
                if t + 1 = bwaTiles d then s3.endEntry u i (.ok 0) else s3
              if bwaDacc d then
                let old := match (s1.store x.g st).tile? h.cls (h.base + t) with
                  | some z => z.elems
                  | none => []
                let a := ts.zipIdx.foldl (fun (a : SMap Elem × Nat) p =>
                  let e0 := SMap.get a.1 Elem.zero p.2
                  let e1 := if p.1.1 then e0 else e0.add (clsBits h.cls) p.1.2.1 (decide (p.1.2.2 ≠ 0)) false
                  (SMap.put a.1 Elem.zero p.2 e1, a.2 + b2n (e1.ovf && !e0.ovf))) (old, 0)
                .next (fin ((s1.setTile x.g st h.cls (h.base + t) fun z => { z with elems := a.1 }).count u 5 a.2))
              else
                let rs := bwaRetire d (e.words c (fld d 56 4)) t ts
                let s2 := s1.count u 5 (rs.map fun q => b2n q.sat + b2n q.unf).sum
                match s2.bwaWrite c e t rs with
                | .error f => .next (s2.bwaFail c x u i e f)
                | .ok w => .next (fin w)
      else .next s
  | _, _ => .next s

end Sys2Proof.Machine
end

