-- ==== Sys2Proof/Machine/Fit.lean ====
section
/-! DEFINITION. The arithmetic of a converted row (R51 to R59): the statistics of pass 1, the clip range, the asymmetric fit,
the power-of-two fall-back, the codes, outliers and errors; the bytes of rows and tiles (R38, R40, R56). -/

set_option Elab.async false

namespace Sys2Proof.Machine

/-- A source element: its exact value, none for NaR, and its accumulator overflow flag (R42). -/
structure SrcElem where
  v : Option Rat
  ovf : Bool
  deriving DecidableEq, Repr

/-- A converted row. Entries are index, W16 excess, EFLG (Table 3.4). -/
structure RowFit where
  m : Meta
  codes : List Nat
  entries : List (Nat × Nat × Nat)
  left : Nat
  ovf : Bool
  count : Nat
  sumSq : Nat
  sse : Nat
  rmax : Nat
  nar : Nat
  sat : Nat
  unf : Nat
  deriving DecidableEq

/-- The square of a value rounded to W24 by RNE, in units of 2^−412 (R51, R59). -/
def sq24 (x : Rat) : Nat :=
  let q := ((w24.value (rneW24 x).code).getD 0 / pow2 (-206)).num.natAbs
  q * q

def rowVals (vals : List SrcElem) : List Rat := vals.filterMap fun x => x.v

/-- S of pass 1 (R51). -/
def rowS (vals : List SrcElem) : Nat := ((rowVals vals).map sq24).sum

def ratMin (l : List Rat) : Rat := l.foldl min 0
def ratMax (l : List Rat) : Rat := l.foldl max 0

/-- The clip threshold; none for unbounded (R52). -/
def clipT (vals : List SrcElem) (ocap oth : Nat) : Option Rat :=
  if oth = 0 ∨ ocap = 0 then none
  else
    let n := (rowVals vals).length
    if n = 0 then some 0
    else
      let y : Rat := (oth * oth : Nat) / 16 * ((rowS vals : Nat) * pow2 (-412)) / (n : Nat)
      some ((w16.value (w16.roundSqrt y).code).getD 0)

/-- The clip range (R52). -/
def clipRange (vals : List SrcElem) (t : Option Rat) : Rat × Rat :=
  let v := rowVals vals
  match t with
  | none => (ratMin v, ratMax v)
  | some t =>
    let hi := if (v.filter fun x => decide (t < x)).length ≤ 63 then ratMax (v.filter fun x => decide (x ≤ t)) else t
    let lo := if (v.filter fun x => decide (x < -t)).length ≤ 63 then ratMin (v.filter fun x => decide (-t ≤ x)) else -t
    (lo, hi)

/-- The asymmetric fit of R53; none where R54 refuses it. -/
def asymFit (lo hi : Rat) (n : Nat) : Option Meta :=
  if lo = 0 ∧ hi = 0 then some { p2 := false, n := n, zp := 0, scale := 0 }
  else if n = 1 ∧ lo < 0 ∧ 0 < hi then none
  else
    let top := 2 ^ n - 1
    let z0 := rneNat ((top : Nat) * (-lo) / (hi - lo))
    let zmin := if lo < 0 then 1 else 0
    let zmax := if 0 < hi then top - 1 else top
    let z := min (max z0 zmin) zmax
    let a : Rat := if 0 < hi then hi / ((top - z : Nat) : Rat) else 0
    let b : Rat := if lo < 0 then -lo / (z : Rat) else 0
    let s := max a b
    if w16.maxVal < s ∨ s < pow2 (-191) then none
    else some { p2 := false, n := n, zp := z, scale := upW16 s }

/-- The smallest k of R54, 127 where none in range serves. -/
def p2Exp (mn mx : Rat) (n : Nat) : Int :=
  match (List.range 256).find? fun (i : Nat) =>
      let u := pow2 ((i : Int) - 128)
      (decide (n = 1) || decide (mx ≤ ((2 ^ (n - 1) - 1 : Nat) : Rat) * u)) && decide (-mn ≤ ((2 ^ (n - 1) : Nat) : Rat) * u) with
  | some i => (i : Int) - 128
  | none => 127

def p2Fit (mn mx : Rat) (n : Nat) : Meta := { p2 := true, n := n, zp := 0, scale := (p2Exp mn mx n % 256).toNat }

/-- The metadata word of a fitted row at width n (R52 to R54). -/
def fitMeta (vals : List SrcElem) (n ocap oth : Nat) (forceP2 : Bool) : Meta :=
  let p2 := p2Fit (ratMin (rowVals vals)) (ratMax (rowVals vals)) n
  if forceP2 then p2
  else
    let r := clipRange vals (clipT vals ocap oth)
    match asymFit r.1 r.2 n with
    | some m => m
    | none => p2

/-- Insertion into a list ordered by `le`. -/
def insertBy {α : Type} (le : α → α → Bool) (x : α) : List α → List α
  | [] => [x]
  | y :: r => if le x y then x :: y :: r else y :: insertBy le x r

def sortBy {α : Type} (le : α → α → Bool) : List α → List α
  | [] => []
  | x :: r => insertBy le x (sortBy le r)

/-- The stored excess of a clamped element (R55, R57): W16 code, EFLG, saturation, underflow. -/
def storeExc (r : Rnd) (e : Int) : Nat × Nat × Nat × Nat :=
  let q := w16.round r (e : Rat)
  let v := (w16.value q.code).getD 0
  let inexact := b2n (decide (v ≠ (e : Rat)))
  let lim : Rat := 32768
  if lim < v then ((w16.round .rne lim).code, inexact + 2, b2n q.sat, b2n q.unf)
  else if v < -lim then ((w16.round .rne (-lim)).code, inexact + 2, b2n q.sat, b2n q.unf)
  else (q.code, inexact, b2n q.sat, b2n q.unf)

/-- The running maximum of values rounded up to W16 (R59). -/
def runMax (v : List Rat) : Nat := upW16 ((v.map fun x => if x < 0 then -x else x).foldl max 0)

/-- A row converted by its metadata word (R36, R55 to R59). An overflowed A48 element takes the clamp code of its exact
value's sign, the upper one where a scale of +0 makes that value 0 (R42, log 25). -/
def convertRow (vals : List SrcElem) (m : Meta) (cap : Nat) (rnd : Nat → Rnd) : RowFit :=
  let conv : List (Int × Nat × Bool) := vals.zipIdx.map fun p => match p.1.v with
    | none => ((0 : Int), m.zero, false)
    | some v =>
      if p.1.ovf then (0, if v < 0 then 0 else 2 ^ m.n - 1, false)
      else let q := m.encode (rnd p.2) v; (q.1, q.2, m.clamps q.1)
  let clamped : List (Nat × Int) := conv.zipIdx.filterMap fun p =>
    if p.1.2.2 then some (p.2, p.1.1 - ((p.1.2.1 : Int) - m.zero)) else none
  let chosen : List Nat := ((sortBy (fun (a b : Nat × Int) => decide (b.2.natAbs < a.2.natAbs ∨ (a.2.natAbs = b.2.natAbs ∧ a.1 ≤ b.1))) clamped).take cap).map
    fun p => p.1
  let stored : List (Nat × Nat × Nat × Nat × Nat) := (clamped.filter fun p => decide (p.1 ∈ chosen)).map fun p => (p.1, storeExc (rnd p.1) p.2)
  let ovfs := (vals.filter fun x => x.ovf && x.v.isSome).length
  let exc := fun j => match stored.find? fun p => decide (p.1 = j) with
    | some p => (w16.value p.2.1).getD 0
    | none => 0
  let codes := conv.map fun p => p.2.1
  let errs := (vals.zip codes).zipIdx.filterMap fun p => p.1.1.v.map fun v =>
    v - m.unit * ((((p.1.2 : Int) - m.zero : Int) : Rat) + exc p.2)
  let v := rowVals vals
  { m := m, codes := codes, entries := stored.map fun p => (p.1, p.2.1, p.2.2.1),
    left := clamped.length - stored.length + ovfs,
    ovf := decide (cap < clamped.length) || decide (0 < ovfs) || stored.any fun p => decide (2 ≤ p.2.2.1),
    count := v.length, sumSq := rowS vals, sse := (errs.map sq24).sum, rmax := runMax v,
    nar := (vals.filter fun x => x.v.isNone).length,
    sat := (stored.map fun p => p.2.2.2.1).sum + ovfs, unf := (stored.map fun p => p.2.2.2.2).sum }

/-- A row fitted and converted at width n (R51 to R59). -/
def fitRow (vals : List SrcElem) (n ocap oth : Nat) (forceP2 : Bool) (rnd : Nat → Rnd) : RowFit :=
  convertRow vals (fitMeta vals n ocap oth forceP2) ocap rnd

/-- The row's power-of-two fit (R64). -/
def p2Row (vals : List SrcElem) (n ocap : Nat) (rnd : Nat → Rnd) : RowFit := fitRow vals n ocap 0 true rnd

/-- The row MSE, RNE_W16(SSE / L) (R59). -/
def RowFit.mse (f : RowFit) : Rounded :=
  if f.count = 0 then ⟨0, false, false⟩ else w16.round .rne ((f.sse : Nat) * pow2 (-412) / (f.count : Nat))

/-- The bytes of a row's outlier region that are written (R56). -/
def RowFit.outlBytes (f : RowFit) : List Byte :=
  leBytes 1 (f.entries.length % 64 + 64 * b2n f.ovf + 128 * b2n f.m.p2) ++ leBytes 2 (min f.left 0xFFFF) ++ zeros 5
    ++ f.entries.flatMap fun p => leBytes 3 p.1 ++ leBytes 1 p.2.2 ++ leBytes 2 p.2.1 ++ zeros 2

/-- The codes of a row padded to a multiple of 64 with its zero code (R40). -/
def RowFit.padded (f : RowFit) : List Nat :=
  f.codes ++ List.replicate (align64 f.codes.length - f.codes.length) f.m.zero

/-- A weight tile of width n of rows of 64 codes; rows not given are code 0 (R38). -/
def planeTile (n : Nat) (rows : List (List Nat)) : List Byte :=
  (List.range n).flatMap fun p =>
    let words := (List.range 64).map fun r => packNat 1 ((rows.getD r []).map fun c => b2n (bit c p))
    leBytes 8 (packNat 1 (words.map fun w => b2n (decide (w ≠ 0)))) ++ words.flatMap (leBytes 8)

/-- The block meets its target (R61). -/
def blockMet (tgt : Nat) (fits : List RowFit) : Bool :=
  decide (tgt = 0) || decide ((fits.map fun f => f.sse).sum * 2 ^ tgt ≤ (fits.map fun f => f.sumSq).sum)

/-- The width-map byte of a converted block (Table 3.6). -/
def widthByte (n tgt : Nat) (refused : Bool) (fits : List RowFit) : Nat :=
  n - 1 + 8 * b2n (blockMet tgt fits) + 16 * b2n (fits.any fun f => f.m.p2) + 32 * b2n refused + 64 * b2n (fits.any fun f => f.ovf)

/-- The better of two fits of each row, the first on equality (R64). -/
def betterFits (a b : List RowFit) : List RowFit := (a.zip b).map fun p => if p.2.sse < p.1.sse then p.2 else p.1

end Sys2Proof.Machine
end

