-- ==== Sys2Proof/Machine/Cve.lean ====
section
/-! DEFINITION. The conversion engines (R47 to R82). A CVE operation is one command: its descriptor starts and ends in it. -/

set_option Elab.async false

namespace Sys2Proof.Machine

/-! Body (Tables 3.2, 3.3). -/

def cveSrc (d : List Byte) : Nat := fld d 16 6
def cveDst (d : List Byte) : Nat := fld d 22 6
def cveMetaF (d : List Byte) : Nat := fld d 28 6
def cveOutl (d : List Byte) : Nat := fld d 34 6
def cveSfmt (d : List Byte) : Nat := fld d 40 1
def cveDfmt (d : List Byte) : Nat := fld d 41 1
def cveLen (d : List Byte) : Nat := fld d 42 3
def cveLenp (d : List Byte) : Nat := align64 (cveLen d)
def cveElem0 (d : List Byte) : Nat := fld d 45 6
def cveRows (d : List Byte) : Nat := fld d 51 2
def cveCtl (d : List Byte) : Nat := fld d 53 2
def cveOcap (d : List Byte) : Nat := bits (fld d 55 1) 5 0
def cveOth (d : List Byte) : Nat := fld d 56 1
def cveTgt (d : List Byte) : Nat := fld d 57 1
def cveStream (d : List Byte) : Nat := fld d 60 4
def cveWmin (d : List Byte) : Bool := bit (cveCtl d) 15 && bit (cveCtl d) 11
def cveLayout (d : List Byte) : Bool := bit (cveCtl d) 11
def cveCstep (d : List Byte) : Nat := bits (cveCtl d) 9 8
def cveRw (d : List Byte) : Nat := bits (cveCtl d) 2 0 + 1
def cveSr (d : List Byte) : Bool := bit (cveCtl d) 13 || hBwd d
def cveHandle (d : List Byte) : Handle := Handle.ofNat (cveSrc d)
def isAcc (f : Nat) : Bool := decide (f = 0x20 ∨ f = 0x21 ∨ f = 0x22)
def isW (f : Nat) : Bool := (wFmt? f).isSome
def isQ (f : Nat) : Bool := (qFmt? f).isSome

/-- Formats accepted (Table 3.1). -/
def cveFmts (d : List Byte) : Bool :=
  let s := cveSfmt d
  let t := cveDfmt d
  match hOp d with
  | 1 => isW s && isQ t
  | 2 => (decide (s = 1 ∨ s = 2) || isAcc s) && isQ t && decide (t % 8 ≠ 0)
  | 3 => isQ s && isW t
  | 4 => isW s && isW t
  | 5 => decide ((s = 1 ∨ s = 2) ∧ t = 3)
  | _ => false

/-- ADAPT is honoured, whatever the OP (Table 3.3). -/
def State.cveAdapt (s : State) (u : Nat) (d : List Byte) : Bool :=
  bit (cveCtl d) 10 && hExpert d && (s.cfg u 0x800 0).getLsbD 0

/-- The Q format that the descriptor names (R50). -/
def cveQ (d : List Byte) : Option (Nat × Bool) := if hOp d = 3 then qFmt? (cveSfmt d) else qFmt? (cveDfmt d)

def cveMinCcls (adapt : Bool) (d : List Byte) : Nat :=
  match hOp d with
  | 1 => if adapt then 3 else 2
  | 2 => 2
  | 5 => 2
  | _ => 1

/-- Classes of a format (Table 5.1). -/
def clsFmt (cls : Nat) : Nat := if cls < 0x10 then 0x20 else if cls < 0x20 then 0x21 else 0x22

/-- The tile and element of row r, column k of an accumulator source: tiles in rows of ceil(LEN / C) (log 41). -/
def accTile (cls len r k : Nat) : Nat × Nat :=
  let sh := clsShape cls
  (r / sh.1 * ceilDiv len sh.2 + k / sh.2, r % sh.1 * sh.2 + k % sh.2)

/-- The checks of R47 and R50; answers the failing address. A handle of fewer tiles than the shape needs fails here too
(log 134). -/
def State.cveBody (s : State) (u : Nat) (x : EngUnit) (e : Entry) : Option Addr :=
  let d := e.desc
  let h := cveHandle d
  let acc := isAcc (cveSfmt d)
  let op := hOp d
  let base := fun (used : Bool) a => used && !aligned 64 a
  let adapt := s.cveAdapt u d
  let bad := !cveFmts d || ((decide (op = 2) || decide (op = 5)) && !hExpert d) || decide (cveLen d = 0 ∨ cveRows d = 0)
    || decide (fld d 58 2 ≠ 0) || decide (64 ≤ fld d 55 1) || decide (bits (cveCtl d) 7 3 ≠ 0)
    || (match cveQ d with
        | some q => decide (cveRw d < q.1) || (cveLayout d && decide (q.1 ≠ cveRw d))
        | none => false)
    || (adapt && (decide (cveCstep d = 0) || cveLayout d))
    || !cclsOk d (cveMinCcls adapt d)
    || (acc && (decide (2 ^ 24 ≤ cveSrc d) || !s.handleOk x.g h || decide (clsFmt h.cls ≠ cveSfmt d)
          || decide (h.cnt < ceilDiv (cveRows d) (clsShape h.cls).1 * ceilDiv (cveLen d) (clsShape h.cls).2)
          || !s.handleLive x.g h))
  if bad then some e.addr
  else if base (!acc) (cveSrc d) then some (BitVec.ofNat 48 (cveSrc d))
  else if base true (cveDst d) then some (BitVec.ofNat 48 (cveDst d))
  else if base (decide (op ≠ 4)) (cveMetaF d) then some (BitVec.ofNat 48 (cveMetaF d))
  else if base (decide (op = 1 ∨ op = 2)) (cveOutl d) then some (BitVec.ofNat 48 (cveOutl d))
  else none

/-! Arrays (R49). -/

def cveMetaArr (d : List Byte) : Nat := cveMetaF d + if hOp d = 2 then 64 else 0
def cveMse (d : List Byte) : Nat := cveMetaArr d + align64 (4 * cveRows d)
def cveWmap (d : List Byte) : Nat := cveMse d + align64 (2 * cveRows d)
def cveBlock (d : List Byte) : Nat := if cveLayout d then 128 else 32
def cveScales (d : List Byte) : Nat := cveWmap d + align64 (ceilDiv (cveRows d) (cveBlock d))

/-- The rounding of element (r, j) (R31, R76). -/
def cveRnd (d : List Byte) (w : Words) (r j : Nat) : Rnd :=
  if cveSr d then .sr (w.w16 0 (cveElem0 d + r * cveLenp d + j)) else .rne

/-- The words a descriptor under SR asks for. -/
def State.cveWords (s : State) (u : Nat) (x : EngUnit) (e : Entry) : List Nat :=
  let d := e.desc
  if (s.cveBody u x e).isSome || !cveSr d then []
  else (List.range (cveRows d)).flatMap fun r => (List.range (cveLen d)).map fun j => cveElem0 d + r * cveLenp d + j

/-! Sources. -/

/-- The tiles of a handle that a running producer has still to deposit (R108). -/
def State.deposited (s : State) (g : Nat) (h : Handle) : Bool :=
  match engPage g (if h.st = 0 then 1 else 2) (h.st - 1) with
  | none => true
  | some v =>
    match (s.engine v).running with
    | none => true
    | some (_, e) =>
      let p := if h.st = 0 then ftaHandle e.desc else bwaHandle e.desc
      let dacc := if h.st = 0 then ftaDacc e.desc else bwaDacc e.desc
      !dacc || decide (p.cls ≠ h.cls) || h.idx.all fun i => decide (i < p.base + e.prog.tiles ∨ p.base + p.cnt ≤ i)

/-- The elements of every tile of a handle, in order; a drained tile's limbs are read (R111). -/
def State.handleElems (s : State) (c : Ctx) (g : Nat) (h : Handle) : Except Fail (List (SMap Elem)) :=
  h.idx.mapM fun i =>
    match (s.store g h.st).tile? h.cls i with
    | some t => s.tileElems c g h.st i t
    | none => .ok []

/-- Source row `r` (R49, R68). -/
def State.cveRow (s : State) (c : Ctx) (d : List Byte) (tiles : List (SMap Elem)) (r : Nat) : Except Fail (List SrcElem) :=
  if isAcc (cveSfmt d) then
    let cls := (cveHandle d).cls
    let el := fun k => let p := accTile cls (cveLen d) r k; SMap.get (tiles.getD p.1 []) Elem.zero p.2
    if cveSfmt d = 0x20 then do
      let sa ← s.metaAt c (cveScales d + 4 * r) fun _ => true
      (List.range (cveLen d)).mapM fun k => do
        let sw ← s.metaAt c (cveScales d + align64 (4 * cveRows d) + 4 * k) fun _ => true
        let e := el k
        pure { v := if e.nar then none else some ((e.val : Rat) * sa.unit * sw.unit), ovf := e.ovf }
    else
      .ok ((List.range (cveLen d)).map fun k =>
        let e := el k
        { v := if e.nar then none else some ((e.val : Rat) * clsUnit cls), ovf := e.ovf })
  else
    match wFmt? (cveSfmt d) with
    | some f => (s.wRow c f (cveSrc d) (r * cveLenp d) (cveLen d)).map fun l => l.map fun k => { v := f.value k, ovf := false }
    | none => .ok []

/-! Writing (R49, R38, R40, R56, R59). -/

/-- The metadata word, row MSE and outlier region of a row. -/
def State.putRowInfo (s : State) (c : Ctx) (d : List Byte) (r : Nat) (f : RowFit) : Except Fail State := do
  let s1 ← s.wr c (cveMetaArr d + 4 * r) (leBytes 4 f.m.toNat)
  let s2 ← s1.wr c (cveMse d + 2 * r) (leBytes 2 f.mse.code)
  s2.wr c (cveOutl d + 512 * r) f.outlBytes

/-- A packed row at reserve width rw (R40). -/
def State.putPacked (s : State) (c : Ctx) (d : List Byte) (r : Nat) (f : RowFit) : Except Fail State :=
  let kt := cveLenp d / 64
  (List.range kt).foldlM (fun s b =>
    s.wr c (cveDst d + (r * kt + b) * cveRw d * 8) (packBits f.m.n ((f.padded.drop (64 * b)).take 64))) s

/-- The 64-row groups of a converted block as weight tiles from `pos` (R38, R50). -/
def State.putTiles (s : State) (c : Ctx) (d : List Byte) (pos n : Nat) (fits : List RowFit) : Except Fail State :=
  let kt := cveLenp d / 64
  (List.range (ceilDiv fits.length 64)).foldlM (fun s g =>
    (List.range kt).foldlM (fun s k =>
      s.wr c (pos + (g * kt + k) * n * 520)
        (planeTile n (((fits.drop (64 * g)).take 64).map fun f => (f.padded.drop (64 * k)).take 64))) s) s

/-- What a converted block adds to the descriptor's totals; `first`: saturations and underflows of roundings that were written
and then overwritten (R59). -/
structure CveSum where
  fits : List RowFit
  refused : Nat
  elems : Nat
  pos : Nat
  first : Nat × Nat
  deriving DecidableEq

/-- Saturations and underflows of the roundings that writing rows writes (R59). -/
def fitSats (l : List RowFit) : Nat × Nat :=
  ((l.map fun f => f.sat + b2n f.mse.sat).sum, (l.map fun f => f.unf + b2n f.mse.unf).sum)

/-- The rows from row `r0` on written: packed rows or tiles, their words and regions. -/
def State.putFits (s : State) (c : Ctx) (d : List Byte) (r0 n pos : Nat) (fits : List RowFit) : Except Fail State := do
  let s1 ← fits.zipIdx.foldlM (fun (s : State) p => do
    let s1 ← s.putRowInfo c d (r0 + p.2) p.1
    if cveLayout d then pure s1 else s1.putPacked c d (r0 + p.2) p.1) s
  if cveLayout d then s1.putTiles c d pos n fits else pure s1

/-- The metadata words of the padding rows, 0 (R40, R50): those for which the array of R49 has place before the row MSE array
(log 134). -/
def State.putPadWords (s : State) (c : Ctx) (d : List Byte) : Except Fail State :=
  s.wr c (cveMetaArr d + 4 * cveRows d) (zeros (align64 (4 * cveRows d) - 4 * cveRows d))

/-- A converted block written, with its width-map byte and, where it is the last of a descriptor in tiles, its padding rows. -/
def State.putBlock (s : State) (c : Ctx) (d : List Byte) (b n pos : Nat) (refused : Bool) (fits : List RowFit) : Except Fail State := do
  let s1 ← s.putFits c d (b * cveBlock d) n pos fits
  let s2 ← if cveLayout d && decide (cveRows d ≤ (b + 1) * cveBlock d) then s1.putPadWords c d else pure s1
  s2.wr c (cveWmap d + b) (leBytes 1 (widthByte n (cveTgt d) refused fits))

/-- The rows of block `b`. -/
def cveRowsOf (d : List Byte) (b : Nat) : List Nat :=
  (List.range (min (cveBlock d) (cveRows d - b * cveBlock d))).map fun i => b * cveBlock d + i

/-- FIT of block `b` (R61, R62, R64, R75). A width fall-back overwrites what the first conversion at n has written. -/
def State.fitBlock (s : State) (u : Nat) (c : Ctx) (d : List Byte) (w : Words) (ov b : Nat) (a : CveSum) :
    Except Fail (State × CveSum) := do
  let rw := cveRw d
  let rows := cveRowsOf d b
  let fp2 := bit ov 1
  let ocap := if bit ov 0 then 63 else cveOcap d
  let p2f := bit (cveCtl d) 12 || decide (0x18 ≤ cveDfmt d) || fp2
  let n0 ← if cveWmin d then s.widthAt c (cveWmap d + b) rw
    else if cveLayout d || fp2 then pure rw else pure (cveDfmt d % 8 + 1)
  let vals ← rows.mapM fun r => s.cveRow c d [] r
  let at_ := fun n => (vals.zip rows).map fun p => fitRow p.1 n ocap (cveOth d) p2f (cveRnd d w p.2)
  let met := fun n => blockMet (cveTgt d) (at_ n)
  let elems := rows.length * cveLen d
  let cands := [rw - 2 * cveCstep d, rw - cveCstep d, rw].filter fun n => decide (0 < n)
  let adapt := s.cveAdapt u d && !fp2
  let falls := !adapt && !cveLayout d && decide (n0 < rw) && !met n0
  let s0 ← if falls then s.putBlock c d b n0 a.pos false (at_ n0) else pure s
  let first := if falls then fitSats (at_ n0) else (0, 0)
  let n := if adapt then (cands.find? met).getD rw else if falls then rw else n0
  let fits := at_ n
  let refused := !blockMet (cveTgt d) fits
  let final := if refused then betterFits fits ((vals.zip rows).map fun p => p2Row p.1 n ocap (cveRnd d w p.2)) else fits
  let s1 ← s0.putBlock c d b n a.pos refused final
  pure (s1, { fits := a.fits ++ final, refused := a.refused + b2n refused,
              elems := a.elems + elems + (if falls then elems else 0) + (if refused then elems else 0),
              first := (a.first.1 + first.1, a.first.2 + first.2),
              pos := a.pos + ceilDiv rows.length 64 * (cveLenp d / 64) * n * 520 })

/-- The statistics contribution (R60). -/
def cveContrib (d : List Byte) (a : CveSum) : Contrib :=
  let t := fun (g : RowFit → Nat) => (a.fits.map g).sum
  { stream := BitVec.ofNat 32 (cveStream d), eflg := 1, rmax := BitVec.ofNat 16 ((a.fits.map fun f => f.rmax).foldl max 0),
    ints := [t fun f => f.count, t fun f => f.entries.length, t fun f => f.left, t fun f => b2n f.m.p2, t fun f => b2n f.ovf,
             a.refused, 0, 0, 0],
    sums := [t fun f => f.sumSq, t fun f => f.sse, 0, 0, 0] }

/-- The counters of converted rows (Table 3.11): of roundings all whose result was written (R59), of outliers, clamped
elements and NaR those of the conversion that stays (log 133). -/
def State.cveCount (s : State) (u : Nat) (a : CveSum) : State :=
  let t := fun (g : RowFit → Nat) => (a.fits.map g).sum
  let q := fitSats a.fits
  ((((((s.count u 0 a.elems).count u 1 (q.1 + a.first.1)).count u 2 (q.2 + a.first.2)).count u 3
    (t fun f => f.entries.length)).count u 4 (t fun f => f.left)).count u 5 (t fun f => f.nar))

/-- The descriptor ends DONE with its flags, the lowest as its warning, and its contribution (R75, R60). -/
def State.cveDone (s : State) (u i : Nat) (flags : List (BitVec 16)) (k : Option Contrib) : State :=
  s.setEntry u i fun e => { e with flags := flags, contrib := k, ended := some (.ok (flags.foldl lowCode 0)) }

/-- The destination from byte `lo` of its `n` bytes is unspecified (R50). -/
def State.cveFail (s : State) (c : Ctx) (u i : Nat) (d : List Byte) (lo n : Nat) (f : Fail) : State :=
  (s.scramble (.desc c) (cveDst d + lo) (n - lo)).endEntry u i (.fail f)

/-- OUTL_OVF is due (R57, R81). -/
def State.outlOvf (s : State) (u : Nat) (a : CveSum) : Bool :=
  decide (bits (s.cfg u 0x100 0).toNat 15 8 < (a.fits.map fun f => b2n f.ovf).sum)

/-- FIT of blocks `b` onward, `n` of them. -/
def State.fitBlocks (s : State) (u i : Nat) (c : Ctx) (d : List Byte) (w : Words) (ov : Nat) : Nat → Nat → CveSum → State
  | 0, _, a =>
    (s.cveCount u a).cveDone u i ((if s.outlOvf u a then [eOutlOvf] else []) ++ (if 0 < a.refused then [eWidthRefused] else []))
      (some (cveContrib d a))
  | n + 1, b, a =>
    match s.fitBlock u c d w ov b a with
    | .error f =>
      let kt := cveLenp d / 64
      if cveLayout d then
        (s.cveCount u a).cveFail c u i d (a.pos - cveDst d)
          (a.pos - cveDst d + ceilDiv (cveRows d - b * 128) 64 * kt * cveRw d * 520) f
      else (s.cveCount u a).cveFail c u i d (b * 32 * kt * cveRw d * 8) (cveRows d * kt * cveRw d * 8) f
    | .ok r => r.1.fitBlocks u i c d w ov n (b + 1) r.2

def cveNone (d : List Byte) : CveSum := { fits := [], refused := 0, elems := 0, pos := cveDst d, first := (0, 0) }

def cveBlocks (d : List Byte) : Nat := ceilDiv (cveRows d) (cveBlock d)

/-- A CVE descriptor whose body fails. -/
def State.cveRefuse (s : State) (u i : Nat) (a : Addr) : Option State :=
  some (s.endEntry u i (.fail { code := eBusErr, addr := a }))

/-- FIT (R53, R61). -/
def execFit (u : Nat) (s : State) : Host.Outcome State Fault Refusal :=
  .next (s.startEngine u 3 1 (fun _ e => match s.unit u with
    | some x => s.cveWords u x e
    | none => []) fun x c i e t =>
    match t.cveBody u x e with
    | some a => t.cveRefuse u i a
    | none => some (t.fitBlocks u i c e.desc (e.words c (cveStream e.desc)) (t.overridesOf e.hearth (hTag e.desc))
        (cveBlocks e.desc) 0 (cveNone e.desc)))

/-! TRACK (R68 to R73). -/

/-- The metadata of TRACK: the predicted scale, or the fall-back of R54 from PRED (R68). -/
def trackMeta (rw : Nat) (p2 : Bool) (pred : Rat) : Meta :=
  if p2 then p2Fit (-pred) pred rw
  else { p2 := false, n := rw, zp := 2 ^ (rw - 1), scale := upW16 (pred / ((2 ^ (rw - 1) - 1 : Nat) : Rat)) }

/-- Local re-convert applies (R73). -/
def State.cveLrc (s : State) (u : Nat) (d : List Byte) : Bool :=
  let h := cveHandle d
  bit (cveCtl d) 14 && hExpert d && (s.cfg u 0x800 0).getLsbD 1 && isAcc (cveSfmt d)
    && decide (h.cnt ≤ storeUnits h.st / clsUnits h.cls)

/-- Rows `r` onward, `n` of them at most, until a row's source fails: what was read, and the failure. -/
def readRows (src : Nat → Except Fail (List SrcElem)) : Nat → Nat → List (List SrcElem) × Option Fail
  | 0, _ => ([], none)
  | n + 1, r =>
    match src r with
    | .error f => ([], some f)
    | .ok v => let q := readRows src n (r + 1); (v :: q.1, q.2)

/-- The blocks of the rows `fits`, all at the reserve width, written from block `b` on, `n` of them. -/
def State.trackBlocks (s : State) (c : Ctx) (d : List Byte) (fits : List RowFit) :
    Nat → Nat → Nat → Except (Fail × State × Nat) (State × Nat)
  | 0, _, pos => .ok (s, pos)
  | n + 1, b, pos =>
    let l := (fits.drop (b * cveBlock d)).take (cveBlock d)
    match s.putBlock c d b (cveRw d) pos false l with
    | .error f => .error (f, s, pos)
    | .ok t => t.trackBlocks c d fits n (b + 1)
        (if cveLayout d then pos + ceilDiv l.length 64 * (cveLenp d / 64) * cveRw d * 520
         else pos + l.length * (cveLenp d / 64) * cveRw d * 8)

/-- The destination's bytes from row `r` on, `r` not a multiple of the block: of a 64-row group in tiles, the occupancy words
and the row words from `r` on; and all that follows (R50). -/
def trackRest (d : List Byte) (r : Nat) : List (Nat × Nat) :=
  let kt := cveLenp d / 64
  if cveLayout d then
    let size := kt * cveRw d * 520
    let pos := cveDst d + r / 64 * size
    if r % 64 = 0 then [(pos, (ceilDiv (cveRows d) 64 - r / 64) * size)]
    else ((List.range (kt * cveRw d)).flatMap fun p =>
        [(pos + 520 * p, 8), (pos + 520 * p + 8 + 8 * (r % 64), 512 - 8 * (r % 64))])
      ++ [(pos + size, (ceilDiv (cveRows d) 64 - r / 64 - 1) * size)]
  else [(cveDst d + r * kt * cveRw d * 8, (cveRows d - r) * kt * cveRw d * 8)]

/-- TRACK stopped by the source of row `fits.length`: the rows before it are written, the rest of the destination is
unspecified (R49, R50). -/
def State.trackStop (s : State) (c : Ctx) (d : List Byte) (fits : List RowFit) : Except (Fail × State × Nat) State :=
  let b := fits.length / cveBlock d
  match s.trackBlocks c d fits b 0 (cveDst d) with
  | .error q => .error q
  | .ok p =>
    match p.1.putFits c d (b * cveBlock d) (cveRw d) p.2 (fits.drop (b * cveBlock d)) with
    | .error f => .error (f, p.1, p.2)
    | .ok t => .ok ((trackRest d fits.length).foldl (fun (t : State) r => t.scramble (.desc c) r.1 r.2) t)

/-- The running maximum exceeds 16 × PRED (R70). -/
def highMiss (rmax pred : Nat) : Bool :=
  decide (16 * (w16.value pred).getD 0 < (w16.value rmax).getD 0)

/-- The tracker record after a descriptor (R67, R70): PENDMAX, USED, and on a miss MISS and MISSES; SHIFT where given. -/
def trkAfter (b : List Byte) (rmax : Nat) (miss : Bool) (shift : Option Int) : List Byte :=
  let b1 := setFld b 36 2 (max (fld b 36 2) rmax)
  let b2 := setFld b1 39 1 (fld b1 39 1 ||| 8)
  let b3 := match shift with
    | some k => setFld b2 45 1 (k % 256).toNat
    | none => b2
  if miss then trkMissed b3 else b3

/-- The tracker's address is remembered for the step's services (R71, R74). -/
def State.useTracker (s : State) (ctx : Nat) (a : Addr) : State :=
  match s.ctx? ctx with
  | some c => if a ∈ c.used then s else s.setCtx ctx (some { c with used := c.used ++ [a] })
  | none => s

/-- The tracker's address for its services, which read it by the same name (R67). -/
def State.putTracker (s : State) (c : Ctx) (ctx : Nat) (a rmax : Nat) (miss : Bool) (shift : Option Int) : Except Fail State :=
  match s.read (.desc c) a 64 with
  | .error f => .error f
  | .ok b => (s.wr c a (trkAfter b rmax miss shift)).map fun t => t.useTracker ctx (BitVec.ofNat 48 a)

/-- The bytes of a Q destination. -/
def cveQBytes (d : List Byte) : Nat :=
  let kt := cveLenp d / 64
  if cveLayout d then ceilDiv (cveRows d) 64 * kt * cveRw d * 520 else cveRows d * kt * cveRw d * 8

/-- TRACK run (R68 to R73). A local re-convert overwrites the first conversion and raises no flag. -/
def State.trackRun (s : State) (x : EngUnit) (c : Ctx) (u i : Nat) (e : Entry) (trk : List Byte) : State :=
  let d := e.desc
  let w := e.words c (cveStream d)
  let pred := fld trk 32 2
  let ov := s.overridesOf e.hearth (hTag d)
  let ocap := if bit ov 0 then 63 else cveOcap d
  let p2 := bit (cveCtl d) 12 || decide (0x18 ≤ cveDfmt d) || bit ov 1
  let fail := fun (s : State) (lo : Nat) f => s.cveFail c u i d lo (cveQBytes d) f
  let tiles := if isAcc (cveSfmt d) then s.handleElems c x.g (cveHandle d) else .ok []
  match tiles with
  | .error f => fail s 0 f
  | .ok tiles =>
    let m := trackMeta (cveRw d) p2 ((w16.value pred).getD 0)
    let read := readRows (s.cveRow c d tiles) (cveRows d) 0
    let conv := fun (g : List SrcElem → Nat → RowFit) => read.1.zipIdx.map fun p => g p.1 p.2
    let fits := conv fun v r => convertRow v m ocap (cveRnd d w r)
    let sum : CveSum := { cveNone d with fits := fits, elems := fits.length * cveLen d }
    match read.2 with
    | some f =>
      match s.trackStop c d fits with
      | .error q => fail q.2.1 (q.2.2 - cveDst d) q.1
      | .ok t => (t.cveCount u sum).endEntry u i (.fail f)
    | none =>
      match s.trackBlocks c d fits (cveBlocks d) 0 (cveDst d) with
      | .error q => fail q.2.1 (q.2.2 - cveDst d) q.1
      | .ok p =>
        let rmax := (fits.map fun f => f.rmax).foldl max 0
        let miss := highMiss rmax pred
        let again := miss && s.cveLrc u d
        let fits2 := conv fun v r => fitRow v (cveRw d) ocap (cveOth d) p2 (cveRnd d w r)
        let a := if again then { sum with fits := fits2, elems := 2 * sum.elems, first := fitSats fits } else sum
        match if again then p.1.trackBlocks c d fits2 (cveBlocks d) 0 (cveDst d) else .ok p with
        | .error q => fail q.2.1 (q.2.2 - cveDst d) q.1
        | .ok z =>
          match z.1.putTracker c e.ctx (cveMetaF d) rmax miss none with
          | .error f => fail z.1 0 f
          | .ok t =>
            ((t.cveCount u a).count u 6 (b2n miss)).cveDone u i
              (if again then [] else (if miss then [eScaleMiss] else []) ++ (if t.outlOvf u a then [eOutlOvf] else []))
              (some (cveContrib d a))

/-- TRACK (R68, R70, R73). -/
def execTrack (u : Nat) (s : State) : Host.Outcome State Fault Refusal :=
  .next (s.startEngine u 3 2 (fun _ e => match s.unit u with
    | some x => s.cveWords u x e
    | none => []) fun x c i e t =>
    match t.cveBody u x e with
    | some a => t.cveRefuse u i a
    | none =>
      if isAcc (cveSfmt e.desc) && !t.deposited x.g (cveHandle e.desc) then none
      else
        match t.read (.desc c) (cveMetaF e.desc) 64 with
        | .error f => some (t.endEntry u i (.fail f))
        | .ok trk => if bit (fld trk 39 1) 0 then some (t.trackRun x c u i e trk) else t.refuse u i e)

/-! WIDEN, WCONV, W12C. -/

/-- One rounded element; a −0 input keeps its sign among W formats (R32). -/
def wconvElem (f t : WFmt) (r : Rnd) (code : Nat) : Rounded :=
  if f.value code = some 0 ∧ bit code (f.p + f.e) = true then ⟨t.nar + 1, false, false⟩ else t.roundOpt r (f.value code)

/-- The rows of a W destination: `row` gives each row's rounded elements and NaR count. -/
def State.wRows (s : State) (c : Ctx) (u i : Nat) (d : List Byte) (t : WFmt) (row : Nat → Except Fail (List Rounded × Nat)) :
    Nat → Nat → State
  | 0, _ => s.endEntry u i (.ok 0)
  | n + 1, r =>
    let fail := fun f => s.cveFail c u i d (t.width * (r * cveLenp d) / 8) (t.bytesFor (cveRows d * cveLenp d)) f
    match row r with
    | .error f => fail f
    | .ok q =>
      match s.putW c t (cveDst d) (r * cveLenp d) (q.1.map fun z => z.code) with
      | .error f => fail f
      | .ok s1 =>
        let s2 := (((s1.count u 0 (cveLen d)).count u 1 (q.1.map fun z => b2n z.sat).sum).count u 2
          (q.1.map fun z => b2n z.unf).sum).count u 5 q.2
        s2.wRows c u i d t row n (r + 1)

/-- The codes of row `r` of a Q source of width n in force for its block (R37, R50); of tiles, the codes that the occupancy
words admit (log 134). -/
def State.widenCodes (s : State) (c : Ctx) (d : List Byte) (r n pos : Nat) (m : Meta) : Except Fail (List Nat) :=
  let kt := cveLenp d / 64
  if cveLayout d then
    (List.range kt).mapM (fun k => s.ftaWeightRow c (pos + k * n * 520) n (r % 64)) |>.map fun l => l.flatten
  else (List.range kt).mapM (fun k => s.blockCodes c (cveSrc d + (r * kt + k) * cveRw d * 8) m.n) |>.map fun l => l.flatten

/-- The width in force of 64-row group `g` of a Q source in tiles, and the group's address. -/
def State.widenGroup (s : State) (c : Ctx) (d : List Byte) : Nat → Except Fail (Nat × Nat)
  | 0 => do
    let n ← if cveWmin d then s.widthAt c (cveWmap d) (cveRw d) else pure (cveRw d)
    pure (n, cveSrc d)
  | g + 1 => do
    let p ← s.widenGroup c d g
    let n ← if cveWmin d then s.widthAt c (cveWmap d + (g + 1) / 2) (cveRw d) else pure (cveRw d)
    pure (n, p.2 + cveLenp d / 64 * p.1 * 520)

/-- One row of WIDEN (R37). -/
def State.widenRow (s : State) (c : Ctx) (d : List Byte) (t : WFmt) (w : Words) (r : Nat) : Except Fail (List Rounded × Nat) := do
  let g ← if cveLayout d then s.widenGroup c d (r / 64) else pure (cveRw d, 0)
  let m ← s.metaAt c (cveMetaArr d + 4 * r) fun m => if cveLayout d then decide (m.n = g.1) else decide (m.n ≤ cveRw d)
  let codes ← s.widenCodes c d r g.1 g.2 m
  pure ((codes.take (cveLen d)).zipIdx.map (fun p => t.round (cveRnd d w r p.2) (m.value p.1)), 0)

/-- One row of WCONV (R32). -/
def State.wconvRow (s : State) (c : Ctx) (d : List Byte) (f t : WFmt) (w : Words) (r : Nat) : Except Fail (List Rounded × Nat) :=
  (s.wRow c f (cveSrc d) (r * cveLenp d) (cveLen d)).map fun l =>
    (l.zipIdx.map fun p => wconvElem f t (cveRnd d w r p.2) p.1, (l.filter fun k => decide (f.value k = none)).length)

/-- WIDEN (R37). -/
def execWiden (u : Nat) (s : State) : Host.Outcome State Fault Refusal :=
  .next (s.startEngine u 3 3 (fun _ e => match s.unit u with
    | some x => s.cveWords u x e
    | none => []) fun x c i e t =>
    match t.cveBody u x e, wFmt? (cveDfmt e.desc) with
    | some a, _ => t.cveRefuse u i a
    | none, some f =>
      some (t.wRows c u i e.desc f (t.widenRow c e.desc f (e.words c (cveStream e.desc))) (cveRows e.desc) 0)
    | none, none => t.refuse u i e)

/-- WCONV (R32). -/
def execWconv (u : Nat) (s : State) : Host.Outcome State Fault Refusal :=
  .next (s.startEngine u 3 4 (fun _ e => match s.unit u with
    | some x => s.cveWords u x e
    | none => []) fun x c i e t =>
    match t.cveBody u x e, wFmt? (cveSfmt e.desc), wFmt? (cveDfmt e.desc) with
    | some a, _, _ => t.cveRefuse u i a
    | none, some g, some f =>
      some (t.wRows c u i e.desc f (t.wconvRow c e.desc g f (e.words c (cveStream e.desc))) (cveRows e.desc) 0)
    | none, _, _ => t.refuse u i e)

/-- The shift of W12C (R69). -/
def w12cShift (pred : Rat) : Int :=
  if pred = 0 then 127 else
    let s := 18 - floorLog2 pred
    if s < -128 then -128 else if 127 < s then 127 else s

/-- W12C's elements of one row: rounded codes, and the source's values (R69). A −0 has the value 0 and gives +0 (log 134). -/
def State.w12cRow (s : State) (c : Ctx) (d : List Byte) (f : WFmt) (k : Int) (w : Words) (r : Nat) :
    Except Fail (List Rounded × List (Option Rat)) :=
  (s.wRow c f (cveSrc d) (r * cveLenp d) (cveLen d)).map fun l =>
    (l.zipIdx.map fun p => w12.roundOpt (cveRnd d w r p.2) ((f.value p.1).map fun v => v * pow2 k), l.map f.value)

/-- W12C run (R69, R70): the header, the elements from DST + 64, SHIFT, the running maximum of what the output stands for
(log 42), the squares of the converted elements in S (R60). -/
def State.w12cRun (s : State) (c : Ctx) (u i : Nat) (e : Entry) (f : WFmt) (trk : List Byte) : State :=
  let d := e.desc
  let pred := fld trk 32 2
  let k := w12cShift ((w16.value pred).getD 0)
  let w := e.words c (cveStream d)
  let n := 64 + w12.bytesFor (cveRows d * cveLenp d)
  let body : Except Fail (State × List (List Rounded × List (Option Rat))) := do
    let rows ← (List.range (cveRows d)).mapM fun r => s.w12cRow c d f k w r
    let s1 ← s.wr c (cveDst d) (leBytes 1 (k % 256).toNat ++ zeros 63)
    let s2 ← rows.zipIdx.foldlM (fun (s : State) p =>
      s.putW c w12 (cveDst d + 64) (p.2 * cveLenp d) (p.1.1.map fun z => z.code)) s1
    pure (s2, rows)
  match body with
  | .error q => s.cveFail c u i d 0 n q
  | .ok p =>
    let out := p.2.flatMap fun z => z.1
    let vals := out.filterMap fun z => w12.value z.code
    let src := p.2.flatMap fun z => z.2
    let rmax := upW16 ((vals.map fun v => (if v < 0 then -v else v) * pow2 (-k)).foldl max 0)
    let miss := highMiss rmax pred
    match p.1.putTracker c e.ctx (cveMetaF d) rmax miss (some k) with
    | .error q => p.1.cveFail c u i d 0 n q
    | .ok t =>
      let t1 := (((((t.count u 0 (cveRows d * cveLen d)).count u 1 (out.map fun z => b2n z.sat).sum).count u 2
        (out.map fun z => b2n z.unf).sum).count u 5 (src.filter Option.isNone).length).count u 6 (b2n miss))
      t1.cveDone u i (if miss then [eScaleMiss] else [])
        (some { stream := BitVec.ofNat 32 (cveStream d), eflg := 1, rmax := BitVec.ofNat 16 rmax,
                ints := [vals.length, 0, 0, 0, 0, 0, 0, 0, 0], sums := [((src.filterMap id).map sq24).sum, 0, 0, 0, 0] })

/-- W12C (R69, R70). -/
def execW12c (u : Nat) (s : State) : Host.Outcome State Fault Refusal :=
  .next (s.startEngine u 3 5 (fun _ e => match s.unit u with
    | some x => s.cveWords u x e
    | none => []) fun x c i e t =>
    match t.cveBody u x e, wFmt? (cveSfmt e.desc) with
    | some a, _ => t.cveRefuse u i a
    | none, some f =>
      match t.read (.desc c) (cveMetaF e.desc) 64 with
      | .error q => some (t.endEntry u i (.fail q))
      | .ok trk => if bit (fld trk 39 1) 0 then some (t.w12cRun c u i e f trk) else t.refuse u i e
    | none, none => t.refuse u i e)

end Sys2Proof.Machine
end

