-- ==== Sys2Proof/Machine/Reals.lean ====
section
/-! DEFINITION. Correct rounding of transcendental values (R159): enclosures of exp, ln, square roots, π and the normal
distribution by exact rationals, at rising precision, until the rounding is decided (log 11). An enclosure whose bounds differ
is taken as open; one whose bounds are equal is the exact value. -/

set_option Elab.async false

namespace Sys2Proof.Machine

/-- An enclosure. -/
structure Iv where
  lo : Rat
  hi : Rat
  deriving DecidableEq, Repr

def Iv.pt (x : Rat) : Iv := ⟨x, x⟩
def Iv.isPt (a : Iv) : Bool := decide (a.lo = a.hi)

/-- floor and ceiling to multiples of 2^−p. -/
def rdn (p : Nat) (q : Rat) : Rat := mkRat (q.num * (2 ^ p : Nat) / (q.den : Int)) (2 ^ p)
def rup (p : Nat) (q : Rat) : Rat := mkRat (-(-(q.num * (2 ^ p : Nat)) / (q.den : Int))) (2 ^ p)

/-- Outward rounding to multiples of 2^−p; an exact value stays exact. -/
def Iv.out (p : Nat) (a : Iv) : Iv := if a.isPt then a else ⟨rdn p a.lo, rup p a.hi⟩

def Iv.neg (a : Iv) : Iv := ⟨-a.hi, -a.lo⟩
def Iv.add (a b : Iv) : Iv := ⟨a.lo + b.lo, a.hi + b.hi⟩
def Iv.addR (a : Iv) (x : Rat) : Iv := ⟨a.lo + x, a.hi + x⟩
def Iv.scale (a : Iv) (x : Rat) : Iv := if x < 0 then ⟨a.hi * x, a.lo * x⟩ else ⟨a.lo * x, a.hi * x⟩
def Iv.mul (p : Nat) (a b : Iv) : Iv :=
  let x := [a.lo * b.lo, a.lo * b.hi, a.hi * b.lo, a.hi * b.hi]
  Iv.out p ⟨x.foldl min (a.lo * b.lo), x.foldl max (a.lo * b.lo)⟩
/-- Quotient by a positive enclosure. -/
def Iv.div (p : Nat) (a b : Iv) : Iv :=
  if b.lo ≤ 0 then ⟨0, 0⟩
  else
    let x := [a.lo / b.lo, a.lo / b.hi, a.hi / b.lo, a.hi / b.hi]
    Iv.out p ⟨x.foldl min (a.lo / b.lo), x.foldl max (a.lo / b.lo)⟩

/-- Σ t^n / n! in units of 2^−w for 0 ≤ t = tn / td ≤ 1/2: a lower bound. -/
def expSum (tn td : Nat) : Nat → Nat → Nat → Nat → Nat
  | 0, _, _, acc => acc
  | f + 1, n, term, acc => expSum tn td f (n + 1) (term * tn / (td * (n + 1))) (acc + term)

/-- Bounds squared m times in fixed point. -/
def sqTimes (w : Nat) : Nat → Nat × Nat → Nat × Nat
  | 0, x => x
  | m + 1, x => sqTimes w m (x.1 * x.1 / 2 ^ w, x.2 * x.2 / 2 ^ w + 1)

/-- e^x of a rational. Beyond ±1,000 a bound stands for the value: every W result saturates or flushes there. -/
def expPt (p : Nat) (x : Rat) : Iv :=
  if x = 0 then .pt 1
  else if x < -1000 then ⟨0, pow2 (-1000)⟩
  else if 1000 < x then .pt (pow2 1000)
  else
    let a := if x < 0 then -x else x
    let m := if a ≤ 1 / 2 then 0 else (floorLog2 a + 2).toNat
    let w := p + 2 * m + 2 * (floorNat a + 1) + 64
    let t := a / pow2 m
    let n := w / 4 + 12
    let s := expSum t.num.natAbs t.den n 0 (2 ^ w) 0
    let q := sqTimes w m (s, s + n + 8)
    if x < 0 then Iv.out p ⟨mkRat (2 ^ w : Nat) q.2, mkRat (2 ^ w : Nat) q.1⟩
    else Iv.out p ⟨mkRat q.1 (2 ^ w), mkRat q.2 (2 ^ w)⟩

/-- Σ z^(2k+1) / (2k + 1) in units of 2^−w: a lower bound (0 ≤ z ≤ 1/3). -/
def atanhSum (zn zd : Nat) : Nat → Nat → Nat → Nat → Nat
  | 0, _, _, acc => acc
  | f + 1, k, term, acc => atanhSum zn zd f (k + 1) (term * zn * zn / (zd * zd)) (acc + term / (2 * k + 1))

def atanhPt (p : Nat) (z : Rat) : Iv :=
  if z = 0 then .pt 0
  else
    let w := p + 32
    let n := w / 3 + 4
    let s := atanhSum z.num.natAbs z.den n 0 (z.num.natAbs * 2 ^ w / z.den) 0
    ⟨mkRat s (2 ^ w), mkRat (s + 8 * n + 8 : Nat) (2 ^ w)⟩

def ln2Iv (p : Nat) : Iv := (atanhPt (p + 4) (1 / 3)).scale 2

/-- ln of a positive rational. -/
def lnPt (p : Nat) (y : Rat) : Iv :=
  if y = 1 then .pt 0
  else
    let e := floorLog2 y
    let m := y / pow2 e
    Iv.out p (((ln2Iv (p + 12)).scale e).add ((atanhPt (p + 12) ((m - 1) / (m + 1))).scale 2))

/-- The square root of a rational ≥ 0; exact where it is rational. -/
def sqrtPt (p : Nat) (x : Rat) : Iv :=
  let a := isqrt x.num.natAbs
  let b := isqrt x.den
  if a * a = x.num.natAbs ∧ b * b = x.den then .pt (mkRat a b)
  else
    let k := isqrt (floorNat (x * pow2 (2 * p)))
    ⟨mkRat k (2 ^ p), mkRat (k + 1 : Nat) (2 ^ p)⟩

/-- Σ (−1)^k / ((2k + 1) n^(2k+1)) in units of 2^−w, rounded down at each term. -/
def atanInvSum (n : Nat) : Nat → Nat → Nat → Int → Int
  | 0, _, _, acc => acc
  | f + 1, k, term, acc =>
    atanInvSum n f (k + 1) (term / (n * n)) (if k % 2 = 0 then acc + (term / (2 * k + 1) : Nat) else acc - (term / (2 * k + 1) : Nat))

def piIv (p : Nat) : Iv :=
  let w := p + 32
  let n := w / 4 + 4
  let s := 16 * atanInvSum 5 n 0 (2 ^ w / 5) 0 - 4 * atanInvSum 239 n 0 (2 ^ w / 239) 0
  ⟨mkRat (s - (64 * n : Nat)) (2 ^ w), mkRat (s + (64 * n : Nat)) (2 ^ w)⟩

/-- Σ x^(2n+1) / (2n + 1)!! in units of 2^−w: a lower bound. -/
def erfSum (xn xd : Nat) : Nat → Nat → Nat → Nat → Nat
  | 0, _, _, acc => acc
  | f + 1, n, term, acc => erfSum xn xd f (n + 1) (term * xn * xn / (xd * xd * (2 * n + 3))) (acc + term)

/-- The density φ(x) = e^(−x²/2) / √(2π). -/
def pdfPt (p : Nat) (x : Rat) : Iv :=
  let q := p + 8
  let tp := (piIv q).scale 2
  Iv.div p (expPt q (-(x * x) / 2)) ⟨(sqrtPt q tp.lo).lo, (sqrtPt q tp.hi).hi⟩

/-- Φ(x), the standard normal distribution: Φ(x) = 1/2 + φ(x) Σ x^(2n+1) / (2n + 1)!!; a tail bound beyond 20. -/
def cdfPt (p : Nat) (x : Rat) : Iv :=
  if x = 0 then .pt (1 / 2)
  else
    let a := if x < 0 then -x else x
    if 20 ≤ a then
      let b := pow2 (-((min (floorNat (a * a * 7 / 10)) 5000 : Nat) : Int))
      if x < 0 then ⟨0, b⟩ else ⟨1 - b, 1⟩
    else
      let w := p + 420
      let n := w + 720
      let s := erfSum a.num.natAbs a.den n 0 (a.num.natAbs * 2 ^ w / a.den) 0
      let t := Iv.mul (p + 4) (pdfPt (p + 310) a) ⟨mkRat s (2 ^ w), mkRat (s + n * 2 ^ 300 : Nat) (2 ^ w)⟩
      Iv.out p (if x < 0 then (t.neg).addR (1 / 2) else t.addR (1 / 2))

/-- σ(x) = 1 / (1 + e^−x). -/
def sigPt (p : Nat) (x : Rat) : Iv :=
  let q := p + 8
  if x < 0 then let e := expPt q x; Iv.out p ⟨(Iv.div p (.pt e.lo) (.pt (1 + e.lo))).lo, (Iv.div p (.pt e.hi) (.pt (1 + e.hi))).hi⟩
  else Iv.div p (.pt 1) ((expPt q (-x)).addR 1)

/-- σ of an enclosure (σ rises). -/
def sigIv (p : Nat) (x : Iv) : Iv := ⟨(sigPt p x.lo).lo, (sigPt p x.hi).hi⟩

/-- tanh x = (1 − e^(−2|x|)) / (1 + e^(−2|x|)) with the sign of x. -/
def tanhPt (p : Nat) (x : Rat) : Iv :=
  if x = 0 then .pt 0
  else
    let a := if x < 0 then -x else x
    let e := expPt (p + 8) (-(2 * a))
    let t : Iv := Iv.out p ⟨(1 - e.hi) / (1 + e.hi), (1 - e.lo) / (1 + e.lo)⟩
    if x < 0 then t.neg else t

/-- ln(1 + e^x). -/
def softplusPt (p : Nat) (x : Rat) : Iv :=
  let e := expPt (p + 8) (if x < 0 then x else -x)
  let l : Iv := ⟨(lnPt p (1 + e.lo)).lo, (lnPt p (1 + e.hi)).hi⟩
  if x < 0 then l else l.addR x

/-- tanh(ln(1 + e^x)) and one minus it. -/
def mishPt (p : Nat) (x : Rat) : Iv × Iv :=
  let q := p + 8
  let f : Rat → Rat × Rat := fun e =>
    if x ≤ 0 then ((e * e + 2 * e) / (e * e + 2 * e + 2), 2 / (e * e + 2 * e + 2))
    else ((1 + 2 * e) / (1 + 2 * e + 2 * e * e), 2 * e * e / (1 + 2 * e + 2 * e * e))
  let e := expPt q (if x ≤ 0 then x else -x)
  let a := f e.lo
  let b := f e.hi
  (Iv.out p ⟨min a.1 b.1, max a.1 b.1⟩, Iv.out p ⟨min a.2 b.2, max a.2 b.2⟩)

/-- 2^(k / 65536) of an integer k: exact where the exponent is an integer. -/
def exp2Lv (p : Nat) (k : Int) : Iv :=
  if k % 65536 = 0 ∧ -65536000 ≤ k ∧ k ≤ 65536000 then .pt (pow2 (k / 65536))
  else if k < -65536000 then ⟨0, pow2 (-1000)⟩
  else if 65536000 < k then .pt (pow2 1000)
  else
    let f : Rat := mkRat (k % 65536) 65536
    let l := (ln2Iv (p + 1040)).scale f
    Iv.out p (Iv.scale ⟨(expPt (p + 1030) l.lo).lo, (expPt (p + 1030) l.hi).hi⟩ (pow2 (k / 65536)))

/-! Rounding of enclosures. -/

/-- A representative of the cell, of size 2^−20 of the kept unit, that holds values just above (`up`) or just below a
positive bound: no rounding changes inside a cell (R29, R30). -/
def cellOf (f : WFmt) (up : Bool) (x : Rat) : Rat :=
  if x ≤ 0 then pow2 (-2000)
  else
    let u := pow2 (floorLog2 x - f.p - 20)
    let g := x / u
    let k := floorNat g
    if up || decide (g ≠ (k : Rat)) then ((k : Rat) + 1 / 2) * u else ((k : Rat) - 1 / 2) * u

/-- The rounding of the values inside an enclosure, where it is decided. -/
def roundIv? (f : WFmt) (r : Rnd) (a : Iv) : Option Rounded :=
  if a.isPt then some (f.round r a.lo)
  else if a.lo < 0 ∧ 0 < a.hi then none
  else
    let neg := decide (a.lo < 0)
    let lo := if neg then -a.hi else a.lo
    let hi := if neg then -a.lo else a.hi
    if lo = 0 ∧ pow2 (-210) ≤ hi then none
    else
      let sg : Rat := if neg then -1 else 1
      let x := f.round r (sg * cellOf f true lo)
      let y := f.round r (sg * cellOf f false hi)
      if x = y then some x else none

def precisions : List Nat := [160, 320, 640, 1280]

/-- The correctly rounded value of a real given by its enclosures; where none of the precisions decides, one of the two
neighbouring roundings, which is free (log 11). -/
def roundReal (f : WFmt) (r : Rnd) (g : Nat → Iv) : Rounded :=
  match precisions.findSome? fun p => roundIv? f r (g p) with
  | some x => x
  | none =>
    let a := g 1280
    if Config.roundUp a.lo.num a.lo.den then f.round r a.hi else f.round r a.lo

/-- RNE of a real to an integer. -/
def rneInt (q : Rat) : Int := Rnd.int .rne q

/-- The correctly rounded integer of a real given by its enclosures. -/
def intReal (g : Nat → Iv) : Int :=
  match precisions.findSome? fun p =>
      let a := g p
      if rneInt a.lo = rneInt a.hi then some (rneInt a.lo) else none with
  | some x => x
  | none =>
    let a := g 1280
    if Config.roundUp a.lo.num a.lo.den then rneInt a.hi else rneInt a.lo

end Sys2Proof.Machine
end

