-- ==== Sys2Proof/Machine/Row.lean ====
section
/-! DEFINITION. The row engine (R158 to R183). A ROW operation is one command: its descriptor starts and ends in it. -/

set_option Elab.async false

namespace Sys2Proof.Machine

/-! Body (Tables 7.4, 7.5). -/

def rowLen (d : List Byte) : Nat := fld d 34 3
def rowLenp (d : List Byte) : Nat := align64 (rowLen d)
def rowRows (d : List Byte) : Nat := fld d 37 2
def rowFn (d : List Byte) : Nat := fld d 39 1
def rowIfmt (d : List Byte) : Nat := fld d 40 1
def rowI2fmt (d : List Byte) : Nat := fld d 41 1
def rowOfmt (d : List Byte) : Nat := fld d 42 1
def rowCtl (d : List Byte) : Nat := fld d 43 2
def rowSr (d : List Byte) : Bool := bit (rowCtl d) 15 || hBwd d
def rowCausal (d : List Byte) : Bool := bit (rowCtl d) 14
def rowRms (d : List Byte) : Bool := bit (rowCtl d) 13
def rowAffine (d : List Byte) : Bool := bit (rowCtl d) 12
def rowLseo (d : List Byte) : Bool := bit (rowCtl d) 11
def rowXho (d : List Byte) : Bool := bit (rowCtl d) 10
def rowQrw (d : List Byte) : Nat := bits (rowCtl d) 2 0 + 1
def rowParam (d : List Byte) : Nat := fld d 45 2
def rowP (d : List Byte) : Rat := (w16.value (rowParam d)).getD 0
def rowCoff (d : List Byte) : Int := sx 16 (fld d 47 2)
def rowElem0 (d : List Byte) : Nat := fld d 49 6
def rowO (d : List Byte) : WFmt := (wFmt? (rowOfmt d)).getD w16

/-- Formats accepted (Table 7.1). -/
def rowFmts (d : List Byte) : Bool :=
  let i := rowIfmt d
  let j := rowI2fmt d
  isW (rowOfmt d) && match hOp d with
  | 1 => isW i && decide (j = 0)
  | 2 => (isW i || isQ i) && decide (j = 1 ∨ j = 2)
  | 3 => isW i && decide (j = 0)
  | 4 => decide (i = 1 ∨ i = 2) && decide (j = 1 ∨ j = 2)
  | 5 => isW i && decide (j = 0)
  | 6 => isW i && decide (j = 1 ∨ j = 2)
  | 7 => isW i && decide (j = 0) && hBwd d
  | 8 => isW i && isW j
  | _ => false

def rowMinCcls (d : List Byte) : Nat := if hOp d ≤ 2 ∨ hOp d = 8 then 1 else 2

/-- FN is in Table 7.3, with a positive α for a function that reads it (R170). -/
def rowFnOk (d : List Byte) : Bool :=
  decide ((1 ≤ rowFn d ∧ rowFn d ≤ 8) ∨ (0x10 ≤ rowFn d ∧ rowFn d ≤ 0x13))
    && (!decide (rowFn d = 6 ∨ rowFn d = 8) || decide (0 < rowP d))

/-- The checks of R158, R170, R176. -/
def rowBody (d : List Byte) : Bool :=
  let op := hOp d
  let q := decide (op = 2) && isQ (rowIfmt d)
  let off := fun (used : Bool) o => !used || aligned 64 (fld d o 3)
  rowFmts d && cclsOk d (rowMinCcls d) && decide (bits (rowCtl d) 9 3 = 0) && decide (fld d 62 2 = 0)
    && decide (1 ≤ rowLen d ∧ rowLen d ≤ 1048576 ∧ rowRows d ≠ 0)
    && (if op = 1 ∨ op = 2 then rowFnOk d else decide (rowFn d = 0))
    && (!rowCausal d || decide (op = 3 ∨ op = 4)) && (!rowXho d || decide (op = 6))
    && (if q then decide (((qFmt? (rowIfmt d)).getD (0, false)).1 ≤ rowQrw d) else decide (rowQrw d = 1))
    && (w16.value (rowParam d)).isSome && (decide (op ≠ 3) || decide (0 < rowP d))
    && (!decide (op = 5 ∨ op = 6) || !bit (rowParam d) 15)
    && aligned 64 (fld d 16 6) && off true 25 && off (decide (op = 2 ∨ op = 4 ∨ op = 6 ∨ op = 7 ∨ op = 8)) 22
    && off (decide (op = 7) || (decide (op = 3) && rowLseo d) || (decide (op = 5 ∨ op = 6) && rowAffine d)) 28
    && off (decide (op = 5 ∨ op = 6) || q) 31 && off (rowXho d) 59

/-! LV values (R161 to R163). -/

/-- An LV value. -/
inductive Lv where
  | nar
  | empty
  | val (k : Int)
  deriving DecidableEq, Repr

def Lv.word (l : Lv) : Nat :=
  match l with
  | .nar => 0x80000000
  | .empty => 0x80000001
  | .val k => (k % 2 ^ 32).toNat

def Lv.ofWord (w : Nat) : Lv := if w = 0x80000000 then .nar else if w = 0x80000001 then .empty else .val (sx 32 w)

/-- Saturation to the range of LV: the value and whether it saturated (R161). -/
def lvSat (k : Int) : Int × Bool :=
  if 0x7FFFFFFF < k then (0x7FFFFFFF, true) else if k < -0x7FFFFFFE then (-0x7FFFFFFE, true) else (k, false)

/-- LV(x × log2 e) (R165). -/
def lvOf (x : Rat) : Int × Bool :=
  if x = 0 then (0, false) else lvSat (intReal fun p => Iv.div p (.pt (x * 65536)) (ln2Iv p))

/-- The correction table: RNE(2^16 × log2(1 + 2^(−i/64))) (R162). -/
def lvCorr (i : Nat) : Int :=
  intReal fun p =>
    let e := exp2Lv (p + 8) (-((1024 * i : Nat) : Int))
    (Iv.div p ⟨(lnPt (p + 8) (1 + e.lo)).lo, (lnPt (p + 8) (1 + e.hi)).hi⟩ (ln2Iv (p + 8))).scale 65536

/-- lse2 of two values other than empty and NaR, before its cap (R162). -/
def lse2Sum (a b : Int) : Int :=
  let m := max a b
  let d := (m - min a b).toNat
  if 1310720 ≤ d then m
  else
    let i := d / 1024
    let f := d % 1024
    m + lvCorr i + ((lvCorr (i + 1) - lvCorr i) * f + 512) / 1024

/-- lse2 of two values other than empty and NaR (R162). -/
def lse2 (a b : Int) : Int := min (lse2Sum a b) 0x7FFFFFFF

/-- One level of the tree of R163. -/
def lseLevel : List Int → List Int
  | a :: b :: r => lse2 a b :: lseLevel r
  | l => l

def lseTree : Nat → List Int → Lv
  | _, [] => .empty
  | _, [a] => .val a
  | 0, a :: _ => .val a
  | n + 1, l => lseTree n (lseLevel l)

/-- L of a row's valid elements (R163). -/
def lseOf (l : List Int) : Lv := lseTree l.length l

/-- The additions of one level that saturate (R161, R162). -/
def lseLevelSats : List Int → Nat
  | a :: b :: r => b2n (decide (0x7FFFFFFF < lse2Sum a b)) + lseLevelSats r
  | _ => 0

def lseTreeSats : Nat → List Int → Nat
  | n + 1, a :: b :: r => lseLevelSats (a :: b :: r) + lseTreeSats n (lseLevel (a :: b :: r))
  | _, _ => 0

/-- The saturations of the tree that forms L, each counted in ROW_CNT_SAT (R161). -/
def lseSats (l : List Int) : Nat := lseTreeSats l.length l

/-! Activation functions (Tables 6.4, 7.3). -/

/-- √(2/π)(x + 0.044715 x³). -/
def geluU (p : Nat) (x : Rat) : Iv :=
  let q := p + 300
  let k := Iv.div q (.pt 2) (piIv q)
  (Iv.mk (sqrtPt q k.lo).lo (sqrtPt q k.hi).hi).scale (x + 44715 / 1000000 * x * x * x)

/-- An enclosure of f(x) (R170). -/
def actIv (fn : Nat) (al x : Rat) (p : Nat) : Iv :=
  match fn with
  | 0x01 => sigPt p x
  | 0x02 => tanhPt p x
  | 0x03 => expPt p x
  | 0x04 => softplusPt p x
  | 0x05 => .pt (max x 0)
  | 0x06 => .pt (if 0 < x then x else al * x)
  | 0x07 => .pt (max x 0 * max x 0)
  | 0x08 => if 0 < x then .pt x else ((expPt p x).addR (-1)).scale al
  | 0x10 => (cdfPt p x).scale x
  | 0x11 => (sigIv p ((geluU p x).scale 2)).scale x
  | 0x12 => (sigPt p x).scale x
  | _ => (mishPt p x).1.scale x

/-- Where |s| is so large that D(s) of the input class lies within 2^−280 of its limit: from 20 for the erf form of GELU
(|D − limit| ≤ 20 φ(20) < 2^−285), from 16 for its tanh form (e^−317), from 300 for SiLU and Mish (300 e^−300). -/
def tailFrom (fn : Nat) : Rat := if fn = 0x10 then 20 else if fn = 0x11 then 16 else 300

/-- D(s) of the input class beyond `tailFrom`: just below 0 on the left, just above 1 on the right. In each of the four
functions the term s f₁′(s) outweighs the tail of the other one there, so the derivative passes its limits from these sides. -/
def tailIv (s : Rat) : Iv := if s < 0 then ⟨-pow2 (-280), 0⟩ else ⟨1, 1 + pow2 (-280)⟩

/-- An enclosure of D(s) between the tails, or of the output class (R171); none where the manual states no value (√ of a
negative saved output). -/
def actDIn (fn : Nat) (al s : Rat) : Option (Nat → Iv) :=
  match fn with
  | 0x01 => some fun _ => .pt (s * (1 - s))
  | 0x02 => some fun _ => .pt (1 - s * s)
  | 0x03 => some fun _ => .pt s
  | 0x04 => some fun p => ((expPt p (-s)).neg).addR 1
  | 0x05 => some fun _ => .pt (if 0 < s then 1 else 0)
  | 0x06 => some fun _ => .pt (if 0 < s then 1 else al)
  | 0x07 => if s < 0 then none else some fun p => (sqrtPt p s).scale 2
  | 0x08 => some fun _ => .pt (if 0 < s then 1 else s + al)
  | 0x10 => some fun p => (cdfPt p s).add ((pdfPt p s).scale s)
  | 0x11 => some fun p =>
    let q := p + 300
    let u := (geluU q s).scale 2
    let a := sigIv q u
    let b := sigIv q u.neg
    let k := Iv.div q (.pt 2) (piIv q)
    let du := (Iv.mk (sqrtPt q k.lo).lo (sqrtPt q k.hi).hi).scale (1 + 3 * 44715 / 1000000 * s * s)
    Iv.out p (a.add ((Iv.mul q (Iv.mul q a b) du).scale (2 * s)))
  | 0x12 => some fun p =>
    let a := sigPt (p + 100) s
    Iv.mul p a (((sigPt (p + 100) (-s)).scale s).addR 1)
  | _ => some fun p =>
    let q := p + 100
    let t := mishPt q s
    t.1.add ((Iv.mul q (sigPt q s) (Iv.mul q t.2 (t.1.addR 1))).scale s)

/-- An enclosure of D(s) (R171): in the tails of the input class its side of 0 or 1 is fixed at every precision. -/
def actD (fn : Nat) (al s : Rat) : Option (Nat → Iv) :=
  if 0x10 ≤ fn ∧ (s ≤ -tailFrom fn ∨ tailFrom fn ≤ s) then some fun _ => tailIv s else actDIn fn al s

/-! Reading rows (R175). -/

/-- Row `r` of a W array at `base`. -/
def State.rowW (s : State) (c : Ctx) (d : List Byte) (fmt base r : Nat) : Except Fail (List (Option Rat)) :=
  let f := (wFmt? fmt).getD w16
  (s.wRow c f base (r * rowLenp d) (rowLen d)).map fun l => l.map f.value

/-- Row `r` of a Q input, restored exactly (R136, R175, R177). -/
def State.rowQ (s : State) (c : Ctx) (e : Entry) (r : Nat) : Except Fail (List (Option Rat)) := do
  let d := e.desc
  let rw := rowQrw d
  let stat := e.base + fld d 31 3
  let m ← s.metaAt c (stat + 4 * r) fun m => decide (m.n ≤ rw) && (!m.p2 || decide (sx 8 m.scale ≤ 64))
  let ex ← s.outliers c (stat + align64 (4 * rowRows d) + 512 * r) 0 (rowLen d) (some 32768)
  (List.range (rowLen d)).mapM fun j => do
    let code ← s.codeAt c (fld d 16 6 + r * (rowLenp d / 64) * rw * 8) rw m.n j
    pure (some (m.unit * (((code : Int) - m.zero + excAt ex j : Int) : Rat)))

def State.rowSrc (s : State) (c : Ctx) (e : Entry) (r : Nat) : Except Fail (List (Option Rat)) :=
  if isQ (rowIfmt e.desc) then s.rowQ c e r else s.rowW c e.desc (rowIfmt e.desc) (fld e.desc 16 6) r

def State.rowSrc2 (s : State) (c : Ctx) (e : Entry) (r : Nat) : Except Fail (List (Option Rat)) :=
  s.rowW c e.desc (rowI2fmt e.desc) (e.base + fld e.desc 22 3) r

/-! Rows. -/

/-- The result of a row: rounded elements, elements excluded, further saturations, underflows and NaRs counted, and further
bytes written. -/
structure RowRes where
  out : List Rounded
  excl : Nat
  sat : Nat
  unf : Nat
  nar : Nat
  more : List (Nat × List Byte)
  deriving DecidableEq, Repr

def RowRes.of (out : List Rounded) : RowRes := { out := out, excl := 0, sat := 0, unf := 0, nar := 0, more := [] }

/-- The rounding of element (r, j) (R159, R180). -/
def rowRnd (d : List Byte) (w : Words) (r j : Nat) : Rnd :=
  if rowSr d then .sr (w.w16 0 (rowElem0 d + r * rowLenp d + j)) else .rne

/-- An exact value rounded, none for NaR. -/
def rowPut (d : List Byte) (w : Words) (r j : Nat) (v : Option Rat) : Rounded := (rowO d).roundOpt (rowRnd d w r j) v

/-- The valid elements of row r (R165). -/
def rowValid (d : List Byte) (r j : Nat) : Bool := !rowCausal d || decide ((j : Int) ≤ (r : Int) + rowCoff d)

def zeroR : Rounded := ⟨0, false, false⟩

/-- ACT (R170). -/
def State.actRow (s : State) (c : Ctx) (e : Entry) (w : Words) (r : Nat) : Except Fail RowRes :=
  let d := e.desc
  (s.rowSrc c e r).map fun x => .of (x.zipIdx.map fun p => match p.1 with
    | none => rowPut d w r p.2 none
    | some v => roundReal (rowO d) (rowRnd d w r p.2) (actIv (rowFn d) (rowP d) v))

/-- ACTB (R171). -/
def State.actbRow (s : State) (c : Ctx) (e : Entry) (w : Words) (r : Nat) : Except Fail RowRes := do
  let d := e.desc
  let x ← s.rowSrc c e r
  let dy ← s.rowSrc2 c e r
  pure (.of ((x.zip dy).zipIdx.map fun p => match p.1.1, p.1.2 with
    | some a, some b =>
      match actD (rowFn d) (rowP d) a with
      | some g => roundReal (rowO d) (rowRnd d w r p.2) fun q => (g q).scale b
      | none => ⟨Config.unstated a.num.natAbs b.num.natAbs % 2 ^ (rowO d).width, false, false⟩
    | _, _ => rowPut d w r p.2 none))

/-- The LV values of valid elements under scale `sc`, none for a row with NaR; and the saturations of its LV values, those of
the tree among them (R161, R165). -/
def lvRow (sc : Rat) (x : List (Option Rat)) (valid : Nat → Bool) : Option (List (Nat × Int)) × Nat :=
  let v := x.zipIdx.filter fun p => valid p.2
  let l := v.filterMap fun p => p.1.map fun y => (p.2, lvOf (y * sc))
  let n := (l.filter fun p => p.2.2).length
  if v.any fun p => p.1.isNone then (none, n)
  else (some (l.map fun p => (p.1, p.2.1)), n + lseSats (l.map fun p => p.2.1))

def lvAt (l : List (Nat × Int)) (j : Nat) : Int :=
  match l.find? fun p => decide (p.1 = j) with
  | some p => p.2
  | none => 0

/-- SMX (R165). -/
def State.smxRow (s : State) (c : Ctx) (e : Entry) (w : Words) (r : Nat) : Except Fail RowRes :=
  let d := e.desc
  (s.rowSrc c e r).map fun x =>
    let q := lvRow (rowP d) x (rowValid d r)
    let lv := match q.1 with
      | none => Lv.nar
      | some l => lseOf (l.map Prod.snd)
    let out := (List.range (rowLen d)).map fun j =>
      if !rowValid d r j then zeroR
      else match q.1, lv with
        | some l, .val L => roundReal (rowO d) (rowRnd d w r j) fun p => exp2Lv p (lvAt l j - L)
        | _, _ => rowPut d w r j none
    { out := out, excl := ((List.range (rowLen d)).filter fun j => !rowValid d r j).length, sat := q.2, unf := 0, nar := 0,
      more := if rowLseo d then [(e.base + fld d 28 3 + 4 * r, leBytes 4 lv.word)] else [] }

/-- Sum of products, none with a NaR operand. -/
def dotOpt (a b : List (Option Rat)) : Option Rat :=
  (a.zip b).foldl (fun q p => match q, p.1, p.2 with
    | some t, some u, some v => some (t + u * v)
    | _, _, _ => none) (some 0)

/-- SMXB (R166). -/
def State.smxbRow (s : State) (c : Ctx) (e : Entry) (w : Words) (r : Nat) : Except Fail RowRes := do
  let d := e.desc
  let y ← s.rowSrc c e r
  let dy ← s.rowSrc2 c e r
  let v := ((y.zip dy).zipIdx.filter fun p => rowValid d r p.2).map fun p => p.1
  let sum := dotOpt (v.map fun p => p.1) (v.map fun p => p.2)
  let out := (y.zip dy).zipIdx.map fun p =>
    if !rowValid d r p.2 then zeroR
    else rowPut d w r p.2 (match sum, p.1.1, p.1.2 with
      | some t, some a, some b => some (a * (b - t))
      | _, _, _ => none)
  pure { RowRes.of out with excl := ((List.range (rowLen d)).filter fun j => !rowValid d r j).length }

/-- The label of row r (R167). -/
def rowLabel (e : Entry) (r : Nat) : Nat := e.base + fld e.desc 22 3 + 4 * r

/-- XENT (R167). -/
def State.xentRow (s : State) (c : Ctx) (e : Entry) (w : Words) (r : Nat) : Except Fail RowRes := do
  let d := e.desc
  let n := rowLen d
  let lse := e.base + fld d 28 3 + 4 * r
  let loss := e.base + fld d 28 3 + align64 (4 * rowRows d) + 3 * r
  let lseo := fun (l : Lv) => if rowLseo d then [(lse, leBytes 4 l.word)] else []
  let lam ← s.rd c (rowLabel e r) 4
  if n ≤ lam ∧ lam ≠ 0xFFFFFFFF then Except.error (Fail.bus (rowLabel e r))
  else
    let x ← s.rowSrc c e r
    if lam = 0xFFFFFFFF then
      return { RowRes.of (List.replicate n zeroR) with excl := n, more := (loss, zeros 3) :: lseo .empty }
    let q := lvRow 1 x fun _ => true
    match q.1 with
    | none =>
      pure { RowRes.of ((List.range n).map fun j => rowPut d w r j none) with
             nar := 1, more := (loss, leBytes 3 w24.nar) :: lseo .nar }
    | some l =>
      let lv := lseOf (l.map fun p => p.2)
      let top := match lv with
        | .val k => k
        | _ => 0
      let z := roundReal w24 .rne fun p => (ln2Iv p).scale (mkRat (top - lvAt l lam) 65536)
      let out := (List.range n).map fun j => roundReal (rowO d) (rowRnd d w r j) fun p =>
        ((exp2Lv p (lvAt l j - top)).addR (if j = lam then -1 else 0)).scale (rowP d)
      pure { out := out, excl := 0, sat := q.2 + b2n z.sat, unf := b2n z.unf, nar := 0,
             more := (loss, leBytes 3 z.code) :: lseo lv }

/-- γ and β of the descriptor (R168). -/
def State.rowAffineArr (s : State) (c : Ctx) (e : Entry) (k : Nat) : Except Fail (List (Option Rat)) :=
  let d := e.desc
  let a := e.base + fld d 28 3
  if !rowAffine d || (decide (k = 1) && rowRms d) then .ok (List.replicate (rowLen d) (some (if k = 0 then 1 else 0)))
  else (s.wRow c w16 (a + if k = 0 then 0 else align64 (2 * rowLen d)) 0 (rowLen d)).map fun l => l.map w16.value

/-- A product of optional values, none with NaR. -/
def mulOpt (a b : Option Rat) : Option Rat :=
  match a, b with
  | some x, some y => some (x * y)
  | _, _ => none

def subOpt (a b : Option Rat) : Option Rat :=
  match a, b with
  | some x, some y => some (x - y)
  | _, _ => none

def sumOpt (l : List (Option Rat)) : Option Rat := dotOpt l (l.map fun _ => some 1)

/-- NORM (R168). -/
def State.normRow (s : State) (c : Ctx) (e : Entry) (w : Words) (r : Nat) : Except Fail RowRes := do
  let d := e.desc
  let n : Rat := (rowLen d : Nat)
  let ga ← s.rowAffineArr c e 0
  let be ← s.rowAffineArr c e 1
  let x ← s.rowSrc c e r
  let st : Rounded × Rounded := match sumOpt x, dotOpt x x with
    | some a, some b =>
      let mu := if rowRms d then 0 else a / n
      let y := b / n - mu * mu + rowP d
      (w24.round .rne mu, if y = 0 then ⟨2 ^ 23 - 1, true, false⟩ else w24.roundSqrt (1 / y))
    | _, _ => (⟨w24.nar, false, false⟩, ⟨w24.nar, false, false⟩)
  let mu := w24.value st.1.code
  let rr := w24.value st.2.code
  let out := (x.zip (ga.zip be)).zipIdx.map fun p =>
    let v := mulOpt (mulOpt (subOpt p.1.1 mu) rr) p.1.2.1
    rowPut d w r p.2 (match v, p.1.2.2 with
      | some a, some b => some (a + b)
      | _, _ => none)
  pure { out := out, excl := 0, sat := b2n st.2.sat, unf := b2n st.1.unf + b2n st.2.unf, nar := 0,
         more := [(e.base + fld d 31 3 + 8 * r, leBytes 3 st.1.code ++ leBytes 3 st.2.code ++ zeros 2)] }

/-- A value rounded to W24 by RNE and read back (R169). -/
def viaW24 (x : Option Rat) : Option Rat :=
  match x with
  | none => none
  | some v => w24.value (rneW24 v).code

/-- NORMB (R169). -/
def State.normbRow (s : State) (c : Ctx) (e : Entry) (w : Words) (r : Nat) : Except Fail RowRes := do
  let d := e.desc
  let n : Rat := (rowLen d : Nat)
  let ga ← s.rowAffineArr c e 0
  let x ← s.rowSrc c e r
  let dy ← s.rowSrc2 c e r
  let st ← s.rd c (e.base + fld d 31 3 + 8 * r) 6
  let mu := w24.value (st % 2 ^ 24)
  let rr := w24.value (st / 2 ^ 24)
  let xh := x.map fun v => viaW24 (mulOpt (subOpt v mu) rr)
  let g := (dy.zip ga).map fun p => viaW24 (mulOpt p.1 p.2)
  let a := sumOpt g
  let b := dotOpt g xh
  let out := (g.zip xh).zipIdx.map fun p =>
    rowPut d w r p.2 (match a, b, rr, p.1.1, p.1.2 with
      | some a, some b, some rr, some gi, some xi => some (rr * (gi - (if rowRms d then 0 else a / n) - xi * b / n))
      | _, _, _, _, _ => none)
  let xo := xh.map fun v => w16.roundOpt .rne v
  pure (if rowXho d then
      { out := out, excl := 0, sat := (xo.map fun z => b2n z.sat).sum, unf := (xo.map fun z => b2n z.unf).sum,
        nar := (xh.filter fun v => v.isNone).length,
        more := [(e.base + fld d 59 3 + 2 * (r * rowLenp d), w16.pack (xo.map fun z => z.code))] }
    else .of out)

/-- EMUL (R172). -/
def State.emulRow (s : State) (c : Ctx) (e : Entry) (w : Words) (r : Nat) : Except Fail RowRes := do
  let d := e.desc
  let a ← s.rowSrc c e r
  let b ← s.rowSrc2 c e r
  pure (.of ((a.zip b).zipIdx.map fun p => rowPut d w r p.2 (mulOpt (mulOpt p.1.1 p.1.2) (some (rowP d)))))

/-! The run (R177). -/

/-- The elements of DST from row `r` on: bit address and bits of each row; padding elements are not among them (R175). -/
def rowDst (e : Entry) (r : Nat) : List (Nat × Nat) :=
  let d := e.desc
  let w := (rowO d).width
  (List.range (rowRows d - r)).map fun k => (8 * (e.base + fld d 25 3) + w * ((r + k) * rowLenp d), w * rowLen d)

/-- What is unspecified from row r on after a failure: destination, statistics, LSE, loss and x̂ (R177), as bit ranges. -/
def rowRanges (e : Entry) (r : Nat) : List (Nat × Nat) :=
  let d := e.desc
  let k := rowRows d - r
  let aux := e.base + fld d 28 3
  rowDst e r
    ++ (if hOp d = 5 then [(8 * (e.base + fld d 31 3 + 8 * r), 64 * k)] else [])
    ++ (if rowLseo d && decide (hOp d = 3 ∨ hOp d = 7) then [(8 * (aux + 4 * r), 32 * k)] else [])
    ++ (if hOp d = 7 then [(8 * (aux + align64 (4 * rowRows d) + 3 * r), 24 * k)] else [])
    ++ (if rowXho d then (List.range k).map fun q => (8 * (e.base + fld d 59 3 + 2 * ((r + q) * rowLenp d)), 16 * rowLen d) else [])

def State.rowFail (s : State) (c : Ctx) (u i : Nat) (e : Entry) (r : Nat) (f : Fail) : State :=
  ((rowRanges e r).foldl (fun t p => t.scrambleBits (.desc c) p.1 p.2) s).endEntry u i (.fail f)

/-- The further writes of a row. -/
def State.putMore (s : State) (c : Ctx) (l : List (Nat × List Byte)) : Except Fail State :=
  l.foldlM (fun s p => s.wr c p.1 p.2) s

/-- The arrays a descriptor reads, as byte ranges: address, pitch and bytes of each of `n` rows, with the element bits that an
exempt overlap compares (0 for an array whose element is no W element). A Q row counts with its whole reserve width. -/
structure RowSrc where
  addr : Nat
  pitch : Nat
  len : Nat
  rows : Nat
  bits : Nat
  deriving DecidableEq, Repr

/-- Every array that the operation reads (Tables 7.1 and 7.4, R168, R169, R175). -/
def rowSrcs (e : Entry) : List RowSrc :=
  let d := e.desc
  let n := rowRows d
  let w := fun (f : WFmt) a => RowSrc.mk a (f.width * rowLenp d / 8) ((f.width * rowLen d + 7) / 8) n f.width
  let stat := e.base + fld d 31 3
  let aux := e.base + fld d 28 3
  let nrm := decide (hOp d = 5 ∨ hOp d = 6) && rowAffine d
  (if isQ (rowIfmt d) then
      let row := rowLenp d / 64 * rowQrw d * 8
      [⟨fld d 16 6, row, row, n, 0⟩, ⟨stat, 4, 4, n, 0⟩, ⟨stat + align64 (4 * n), 512, 512, n, 0⟩]
    else [w ((wFmt? (rowIfmt d)).getD w16) (fld d 16 6)])
    ++ (if hOp d = 7 then [⟨e.base + fld d 22 3, 4, 4, n, 0⟩]
        else match wFmt? (rowI2fmt d) with
          | some f => [w f (e.base + fld d 22 3)]
          | none => [])
    ++ (if nrm then [⟨aux, 0, 2 * rowLen d, 1, 0⟩] else [])
    ++ (if nrm && decide (hOp d = 5) && !rowRms d then [⟨aux + align64 (2 * rowLen d), 0, 2 * rowLen d, 1, 0⟩] else [])
    ++ (if hOp d = 6 then [⟨stat, 8, 6, n, 0⟩] else [])

/-- The destination elements that the byte range [p, p + m) overlaps, as bit ranges of the rows it meets. -/
def dstMeets (e : Entry) (p m : Nat) : List (Nat × Nat) :=
  let d := e.desc
  let w := (rowO d).width
  let dst := e.base + fld d 25 3
  let pitch := w * rowLenp d / 8
  let r0 := (p - dst) / pitch
  let r1 := min (rowRows d) (ceilDiv (p + m - dst) pitch)
  (List.range (r1 - r0)).filterMap fun k =>
    let a := 8 * (dst + (r0 + k) * pitch)
    let j0 := (8 * p - a) / w
    let j1 := min (rowLen d) (ceilDiv (8 * (p + m) - a) w)
    if j1 ≤ j0 then none else some (a + w * j0, w * (j1 - j0))

/-- The destination elements that a source overlaps other than as R177 allows, as bit ranges. -/
def rowOverlap (e : Entry) : List (Nat × Nat) :=
  let d := e.desc
  let onePass := decide (hOp d = 1 ∨ hOp d = 2 ∨ hOp d = 8)
  (rowSrcs e).flatMap fun x =>
    if decide (x.addr = e.base + fld d 25 3 ∧ x.bits = (rowO d).width) && (onePass || decide (rowLen d ≤ 8192)) then []
    else (List.range x.rows).flatMap fun k => dstMeets e (x.addr + k * x.pitch) x.len

/-- Rows r onward, `n` of them; `row` reads the state of the start. -/
def State.rowRun (s : State) (c : Ctx) (u i : Nat) (e : Entry) (row : Nat → Except Fail RowRes) : Nat → Nat → State
  | 0, _ => ((rowOverlap e).foldl (fun t p => t.scrambleBits (.desc c) p.1 p.2) s).endEntry u i (.ok 0)
  | n + 1, r =>
    let d := e.desc
    match row r with
    | .error f => s.rowFail c u i e r f
    | .ok q =>
      match s.putW c (rowO d) (e.base + fld d 25 3) (r * rowLenp d) (q.out.map fun z => z.code) with
      | .error f => s.rowFail c u i e r f
      | .ok s1 =>
        match s1.putMore c q.more with
        | .error f => s1.rowFail c u i e r f
        | .ok s2 =>
          let s3 := ((s2.count u 0 (rowLen d)).count u 1 1).count u 2 (q.sat + (q.out.map fun z => b2n z.sat).sum)
          let s4 := (s3.count u 3 (q.unf + (q.out.map fun z => b2n z.unf).sum)).count u 4
            (q.nar + (q.out.filter fun z => decide (z.code = (rowO d).nar)).length)
          let s5 := (s4.count u 5 q.excl).count u 6 (b2n (decide (8192 < rowLen d)))
          s5.rowRun c u i e row n (r + 1)

/-- The words a descriptor under SR asks for: those of its valid elements, but for ignored XENT rows (log 34). -/
def State.rowWords (s : State) (c : Ctx) (e : Entry) : List Nat :=
  let d := e.desc
  if !rowBody d || !rowSr d then []
  else (List.range (rowRows d)).flatMap fun r =>
    let skip := decide (hOp d = 7) && (match s.rd c (rowLabel e r) 4 with
      | .ok l => decide (l = 0xFFFFFFFF)
      | .error _ => false)
    if skip then []
    else (List.range (rowLen d)).filterMap fun j => if rowValid d r j then some (rowElem0 d + r * rowLenp d + j) else none

/-- The ROW command of an operation with its row function. -/
def State.rowOp (s : State) (u op : Nat) (row : State → Ctx → Entry → Words → Nat → Except Fail RowRes) : State :=
  s.startEngine u 4 op (fun c e => s.rowWords c e) fun _ c i e t =>
    if rowBody e.desc then some (t.rowRun c u i e (row t c e (e.words c (fld e.desc 55 4))) (rowRows e.desc) 0)
    else t.refuse u i e

def execAct (u : Nat) (s : State) : Host.Outcome State Fault Refusal := .next (s.rowOp u 1 State.actRow)
def execActb (u : Nat) (s : State) : Host.Outcome State Fault Refusal := .next (s.rowOp u 2 State.actbRow)
def execSmx (u : Nat) (s : State) : Host.Outcome State Fault Refusal := .next (s.rowOp u 3 State.smxRow)
def execSmxb (u : Nat) (s : State) : Host.Outcome State Fault Refusal := .next (s.rowOp u 4 State.smxbRow)
def execNorm (u : Nat) (s : State) : Host.Outcome State Fault Refusal := .next (s.rowOp u 5 State.normRow)
def execNormb (u : Nat) (s : State) : Host.Outcome State Fault Refusal := .next (s.rowOp u 6 State.normbRow)
def execXent (u : Nat) (s : State) : Host.Outcome State Fault Refusal := .next (s.rowOp u 7 State.xentRow)
def execEmul (u : Nat) (s : State) : Host.Outcome State Fault Refusal := .next (s.rowOp u 8 State.emulRow)

end Sys2Proof.Machine
end

