-- ==== Sys2Proof/Machine/Rng.lean ====
section
/-! DEFINITION. RNG descriptors (R197, R198) and the sampler (R201 to R204). -/

set_option Elab.async false

namespace Sys2Proof.Machine

/-! RNG body (Table 8.6). -/

def rngDst (d : List Byte) : Nat := fld d 16 6
def rngElem0 (d : List Byte) : Nat := fld d 22 6
def rngCount (d : List Byte) : Nat := fld d 28 4
def rngKeep (d : List Byte) : Nat := fld d 36 2

/-- The checks of R198. -/
def rngBody (c : Ctx) (d : List Byte) : Bool :=
  decide (rngCount d ≠ 0) && (decide (hOp d ≠ 1) || decide (rngCount d ≤ 2 ^ 28 ∧ rngKeep d = 0)) && zeroAt d 38 64
    && aligned 64 (rngDst d) && cclsOk d (if c.lane then 1 else 2)

/-- Block `i` of BITS (R197), with the lanes' state after it. -/
def State.bitsBlock (s : State) (c : Ctx) (g i : Nat) (e : Entry) : List Byte × State :=
  let k := (rngElem0 e.desc + i) % 2 ^ 48
  if c.lane then
    let a := s.laneDraw c (g * 64 + k % 64)
    let b := a.2.laneDraw c (g * 64 + k % 64)
    (leBytes 8 a.1.toNat ++ leBytes 8 b.1.toNat, b.2.count (rngPage g) 1 2)
  else
    (leBytes 16 (rngOut c.seed (BitVec.ofNat 32 (fld e.desc 32 4)) e.startBeat.step k 2).toNat, s.count (rngPage g) 0 1)

/-- Blocks `i` onward, `n` of them; those written before a failure keep their values (R198). -/
def State.bitsRun (s : State) (c : Ctx) (u w g : Nat) (e : Entry) : Nat → Nat → State
  | 0, _ => (s.count u 3 1).endEntry u w (.ok 0)
  | n + 1, i =>
    let b := s.bitsBlock c g i e
    match b.2.wr c (rngDst e.desc + 16 * i) b.1 with
    | .error f => b.2.endEntry u w (.fail f)
    | .ok t => t.bitsRun c u w g e n (i + 1)

/-- BITS (R197). -/
def execBits (u : Nat) (s : State) : Host.Outcome State Fault Refusal :=
  .next (s.startEngine u 5 1 (fun _ _ => []) fun x c i e t =>
    if rngBody c e.desc then some (t.bitsRun c u i x.g e (rngCount e.desc) 0) else t.refuse u i e)

/-- Byte `i` of the mask stream: elements 8i to 8i + 7, bits beyond COUNT 0 (R197, R198). -/
def bernByte (w : Words) (d : List Byte) (i : Nat) : Byte :=
  BitVec.ofNat 8 (((List.range 8).map fun j =>
    b2n (decide (8 * i + j < rngCount d) && decide (w.w16 3 (rngElem0 d + 8 * i + j) ≤ rngKeep d)) * 2 ^ j).sum)

def State.bernRun (s : State) (c : Ctx) (u k : Nat) (e : Entry) (w : Words) : Nat → Nat → State
  | 0, _ => (s.count u 3 1).endEntry u k (.ok 0)
  | n + 1, i =>
    match s.wr c (rngDst e.desc + i) [bernByte w e.desc i] with
    | .error f => s.endEntry u k (.fail f)
    | .ok t => t.bernRun c u k e w n (i + 1)

/-- The draws or outputs of a BERN descriptor, made before its first write, with their count (R188, R206). -/
def State.bernDraws (s : State) (c : Ctx) (g : Nat) (e : Entry) : List (Nat × BitVec 64) × State :=
  let es := (List.range (rngCount e.desc)).map fun j => rngElem0 e.desc + j
  if c.lane then
    let q := s.drawGroups c g (groupsOf 4 es)
    (q.1, q.2.count (rngPage g) 1 q.1.length)
  else ([], s.count (rngPage g) 0 (groupsOf 8 es).length)

/-- BERN (R197). -/
def execBern (u : Nat) (s : State) : Host.Outcome State Fault Refusal :=
  .next (s.startEngine u 5 2 (fun _ _ => []) fun x c i e t =>
    if rngBody c e.desc then
      let q := t.bernDraws c x.g e
      let w : Words := { Entry.words e c (fld e.desc 32 4) with draws := q.1 }
      some (q.2.bernRun c u i e w (ceilDiv (rngCount e.desc) 8) 0)
    else t.refuse u i e)

/-! SMP body (Table 8.9). -/

def smpLen (d : List Byte) : Nat := fld d 28 3
def smpRows (d : List Byte) : Nat := fld d 31 2
def smpFmt (d : List Byte) : Nat := fld d 33 1
def smpTau (d : List Byte) : Rat := (w16.value (fld d 34 2)).getD 0
def smpTopk (d : List Byte) : Nat := fld d 36 2
def smpLvin (d : List Byte) : Bool := bit (fld d 38 2) 15
def smpLpo (d : List Byte) : Bool := bit (fld d 38 2) 14
def smpGreedy (d : List Byte) : Bool := decide (smpTau d = 0)

/-- The checks of R204. -/
def smpBody (d : List Byte) : Bool :=
  decide (1 ≤ smpLen d ∧ smpLen d ≤ 1048576 ∧ smpRows d ≠ 0 ∧ smpTopk d ≤ 256) && !bit (fld d 34 2) 15
    && !(smpLpo d && smpGreedy d) && (if smpLvin d then decide (smpFmt d = 0) else isW (smpFmt d))
    && decide (fld d 38 2 % 2 ^ 14 = 0) && zeroAt d 50 64 && aligned 64 (fld d 16 6) && aligned 4 (fld d 22 3)
    && aligned 4 (fld d 25 3) && cclsOk d 2

/-- A valid score: an exact value, or an LV value (R201). -/
inductive Score where
  | w (x : Rat)
  | lv (k : Int)
  deriving DecidableEq, Repr

def Score.rat : Score → Rat
  | .w x => x
  | .lv k => (k : Rat)

/-- Score `j` of row `r`, none where it is not valid (R201 step 1). -/
def State.smpScore (s : State) (c : Ctx) (d : List Byte) (r j : Nat) : Except Fail (Option Score) :=
  let i := r * align64 (smpLen d) + j
  if smpLvin d then
    (s.rd c (fld d 16 6 + 4 * i) 4).map fun v => match Lv.ofWord v with
      | .val k => some (.lv k)
      | _ => none
  else
    let f := (wFmt? (smpFmt d)).getD w16
    (s.wAt c f (fld d 16 6) i).map fun v => (f.value v).map .w

/-- The valid scores of row `r` with their indices. -/
def State.smpValid (s : State) (c : Ctx) (d : List Byte) (r : Nat) : Except Fail (List (Nat × Score)) :=
  ((List.range (smpLen d)).mapM fun j => s.smpScore c d r j).map fun l =>
    l.zipIdx.filterMap fun p => p.1.map fun x => (p.2, x)

/-- v_j (R201 step 2). -/
def smpV (d : List Byte) (x : Score) : Int :=
  match x with
  | .w y => (lvOf (y / smpTau d)).1
  | .lv k => (lvSat (rneInt ((k : Rat) / smpTau d))).1

/-- The `n` largest by value, the lower index first on equal values: the place of each is the number that come before it. -/
def topOf (n : Nat) (l : List (Nat × Int)) : List (Nat × Int) :=
  l.filter fun p => decide ((l.filter fun q => decide (p.2 < q.2) || (decide (q.2 = p.2) && decide (q.1 < p.1))).length < n)

/-- The candidates of a row with their v, ascending (R201 step 3). -/
def smpCands (d : List Byte) (l : List (Nat × Score)) : List (Nat × Int) :=
  let v := l.map fun p => (p.1, smpV d p.2)
  if smpTopk d = 0 then v else topOf (smpTopk d) v

/-- g of a 32-bit word (R201 step 4). -/
def smpG (w : Nat) : Int :=
  let uu : Rat := mkRat (2 * w + 1 : Nat) (2 ^ 33)
  (lvSat (intReal fun p =>
    let a := (lnPt (p + 64) uu).neg
    Iv.div p ((Iv.mk (lnPt (p + 8) a.lo).lo (lnPt (p + 8) a.hi).hi).scale 65536) (ln2Iv (p + 8)))).1

/-- The first of the largest keys, and whether it ties (R201 step 5). -/
def smpBest : List (Nat × Rat) → Option (Nat × Rat × Bool)
  | [] => none
  | p :: r =>
    match smpBest r with
    | none => some (p.1, p.2, false)
    | some b => if p.2 < b.2.1 then some b else if p.2 = b.2.1 then some (p.1, p.2, true) else some (p.1, p.2, false)

def smpElem (d : List Byte) (r j : Nat) : Nat := fld d 40 6 + r * align64 (smpLen d) + j

/-- The result of a row: index, lp, and what is counted (Table 8.11). -/
structure SmpRow where
  idx : Nat
  lp : Lv
  cand : Nat
  excl : Nat
  empty : Bool
  tie : Bool
  deriving DecidableEq, Repr

/-- Row `r` (R201, R202). -/
def State.smpRow (s : State) (c : Ctx) (d : List Byte) (w : Words) (r : Nat) : Except Fail SmpRow :=
  (s.smpValid c d r).map fun l =>
    let excl := smpLen d - l.length
    if smpGreedy d then
      match smpBest (l.map fun p => (p.1, p.2.rat)) with
      | none => { idx := 0xFFFFFFFF, lp := .empty, cand := 0, excl := excl, empty := true, tie := false }
      | some b => { idx := b.1, lp := .empty, cand := 0, excl := excl, empty := false, tie := false }
    else
      let cs := smpCands d l
      match smpBest (cs.map fun p => (p.1, ((p.2 - smpG (w.w32 (smpElem d r p.1)) : Int) : Rat))) with
      | none => { idx := 0xFFFFFFFF, lp := .empty, cand := 0, excl := excl, empty := true, tie := false }
      | some b =>
        let lp := match lseOf (cs.map fun p => p.2) with
          | .val k => Lv.val (lvSat (lvAt cs b.1 - k)).1
          | x => x
        { idx := b.1, lp := lp, cand := cs.length, excl := excl, empty := false, tie := b.2.2 }

/-- The words that the descriptor asks for: those of its candidates, row by row up to a row that cannot be read (log 34). -/
def State.smpWords (s : State) (c : Ctx) (e : Entry) : List Nat :=
  let d := e.desc
  if !smpBody d || smpGreedy d then []
  else ((List.range (smpRows d)).map fun r => match s.smpValid c d r with
    | .ok l => (smpCands d l).map fun p => smpElem d r p.1
    | .error _ => []).flatten

/-- The rest of the index and lp arrays is unspecified after a failure (R204). -/
def State.smpFail (s : State) (c : Ctx) (u i : Nat) (e : Entry) (r : Nat) (f : Fail) : State :=
  let d := e.desc
  let s1 := s.scramble (.desc c) (e.base + fld d 22 3 + 4 * r) (4 * (smpRows d - r))
  let s2 := if smpLpo d then s1.scramble (.desc c) (e.base + fld d 25 3 + 4 * r) (4 * (smpRows d - r)) else s1
  s2.endEntry u i (.fail f)

/-- The index and, where LPO asks for it, the lp of row `r` (R201 step 5, R202). -/
def State.smpPut (s : State) (c : Ctx) (e : Entry) (r : Nat) (q : SmpRow) : Except Fail State :=
  (s.wr c (e.base + fld e.desc 22 3 + 4 * r) (leBytes 4 q.idx)).bind fun s1 =>
    if smpLpo e.desc then s1.wr c (e.base + fld e.desc 25 3 + 4 * r) (leBytes 4 q.lp.word) else .ok s1

/-- What a row counts (Table 8.11). -/
def State.smpCount (s : State) (u : Nat) (d : List Byte) (q : SmpRow) : State :=
  let s2 := ((s.count u 0 1).count u 1 (smpLen d)).count u 2 q.cand
  let s3 := ((s2.count u 3 q.excl).count u 4 (b2n q.empty)).count u 5 (b2n q.tie)
  s3.count u 6 (b2n (smpGreedy d))

/-- The rows from row `r` on, `n` of them (R201); a row that cannot be read or written ends the descriptor. -/
def State.smpRun (s : State) (c : Ctx) (u i : Nat) (e : Entry) (w : Words) : Nat → Nat → State
  | 0, _ => s.endEntry u i (.ok 0)
  | n + 1, r =>
    onOk (s.smpRow c e.desc w r) (s.smpFail c u i e r) fun q =>
      onOk (s.smpPut c e r q) (s.smpFail c u i e r) fun s1 => (s1.smpCount u e.desc q).smpRun c u i e w n (r + 1)

/-- SMP_SAMPLE (R201). -/
def execSmpSample (u : Nat) (s : State) : Host.Outcome State Fault Refusal :=
  .next (s.startEngine u 6 1 (fun c e => s.smpWords c e) fun _ c i e t =>
    if smpBody e.desc then some (t.smpRun c u i e (e.words c (fld e.desc 46 4)) (smpRows e.desc) 0)
    else t.refuse u i e)

end Sys2Proof.Machine
end

