-- ==== Sys2Proof/Machine/Upd.lean ====
section
/-! DEFINITION. The update engine (R208 to R217): OPT and TIESUM. -/

set_option Elab.async false

namespace Sys2Proof.Machine

/-! Body (Table 9.2). -/

def updW (d : List Byte) : Nat := fld d 16 6
def updT (d : List Byte) : Nat := fld d 22 6
def updM (d : List Byte) : Nat := fld d 28 6
def updG (d : List Byte) : Nat := fld d 34 6
def updP (d : List Byte) : Nat := fld d 40 6
def updN (d : List Byte) : Nat := fld d 46 4
def updMask (d : List Byte) : Nat := fld d 50 3
def updRowlen (d : List Byte) : Nat := fld d 53 2
def updSfmt (d : List Byte) : Nat := bits (fld d 55 1) 7 4
def updDfmt (d : List Byte) : Nat := bits (fld d 55 1) 3 0
def updMmode (d : List Byte) : Nat := bits (fld d 56 1) 7 6
def updNorms (d : List Byte) : Bool := bit (fld d 56 1) 5
def updNslot (d : List Byte) : Nat := bits (fld d 56 1) 4 2 + 1
def updStream (d : List Byte) : Nat := fld d 57 4

/-- Address of the second moment (Table 9.2). -/
def updM2 (d : List Byte) : Nat := updM d + align64 (3 * updN d)

/-- The first base of a list that is not 64-byte aligned, else none (R216). -/
def misaligned (l : List Nat) : Option Fail := (l.find? fun a => !aligned 64 a).map Fail.bus

/-- Why an OPT descriptor fails before its parameter block is read (R208, R216). -/
def optBody (e : Entry) : Option Fail :=
  let d := e.desc
  let ok := decide (e.startBeat.phase = phaseCommit) && decide (fld d 56 1 % 32 = 0) && zeroAt d 61 64 && decide (updMmode d < 3)
    && decide (updN d ≠ 0) && decide (updSfmt d = 1 ∨ updSfmt d = 2) && decide (updDfmt d = 0) && cclsOk d 4
    && (if updMmode d = 0 then decide (updMask d = 0 ∧ updRowlen d = 0)
        else decide (updRowlen d ≠ 0 ∧ updN d % updRowlen d = 0))
  if ok then misaligned [updW d, updT d, updM d, updG d, updP d] else some e.bus

/-- Why a TIESUM descriptor fails before its slot list is read (R216). -/
def tieBody (e : Entry) : Option Fail :=
  let d := e.desc
  let ok := zeroAt d 28 34 && zeroAt d 40 46 && zeroAt d 50 55 && decide (bits (fld d 56 1) 7 5 = 0 ∧ fld d 56 1 % 4 = 0)
    && zeroAt d 61 64 && decide (updN d ≠ 0) && decide (updSfmt d = 1 ∨ updSfmt d = 2)
    && decide (updDfmt d = 1 ∨ updDfmt d = 2) && cclsOk d 2
  if ok then misaligned [updW d, updT d] else some e.bus

/-! The parameter block (Table 9.3). -/

/-- Parameters of an update. -/
structure OptParams where
  sgd : Bool
  biasc : Bool
  nest : Bool
  lr : Rat
  b1 : Rat
  b2 : Rat
  eps : Rat
  wd : Rat
  gscl : Rat
  gclip : Rat
  sstep0 : Nat
  deriving DecidableEq, Repr

/-- A W24 field that is +0 or positive. -/
def optNonneg (b : List Byte) (o : Nat) : Option Rat := if bit (fld b o 3) 23 then none else w24.value (fld b o 3)

/-- The parameters of a block, none where it breaks Table 9.3. -/
def OptParams.of? (b : List Byte) : Option OptParams :=
  let sgd := decide (fld b 0 1 = 1)
  if decide (1 < fld b 0 1) || decide (3 < fld b 1 1) || !zeroAt b 2 4 || !zeroAt b 30 64 then none
  else
    let beta2 := if sgd then some 0 else optNonneg b 10
    match optNonneg b 4, optNonneg b 7, beta2, optNonneg b 13, optNonneg b 16, w24.value (fld b 19 3), optNonneg b 22 with
    | some lr, some b1, some b2, some eps, some wd, some gscl, some gclip =>
      if b1 < 1 ∧ b2 < 1 then
        some { sgd := sgd, biasc := bit (fld b 1 1) 0, nest := bit (fld b 1 1) 1, lr := lr, b1 := b1, b2 := b2, eps := eps,
               wd := wd, gscl := gscl, gclip := gclip, sstep0 := fld b 25 5 }
      else none
    | _, _, _, _, _, _, _ => none

/-! One element (R209 to R211). -/

/-- An enclosure of x^n for 0 ≤ x < 1: exact while it stays short, else rounded outward (R209, log 11). -/
def powIv (p : Nat) : Nat → Rat → Nat → Iv
  | 0, _, _ => .pt 1
  | f + 1, x, n =>
    if n = 0 then .pt 1
    else
      let cut := fun (a : Iv) => if a.isPt && decide (Nat.log2 a.lo.den < 4 * p) then a else ⟨rdn p a.lo, rup p a.hi⟩
      let h := powIv p f x (n / 2)
      let q := cut ⟨h.lo * h.lo, h.hi * h.hi⟩
      if n % 2 = 1 then cut ⟨q.lo * x, q.hi * x⟩ else q

/-- 1 − β^n. -/
def biasIv (p : Nat) (b : Rat) (n : Nat) : Iv := ((powIv p 42 b n).neg).addR 1

/-- u of AdamW for m2 / b2 ≥ 0 and a positive denominator (R209). -/
def adamU (o : OptParams) (n : Nat) (m1 m2 : Rat) : Rounded :=
  roundReal w24 .rne fun p =>
    let q := p + 512
    let c1 := if o.biasc then biasIv q o.b1 n else .pt 1
    let c2 := if o.biasc then biasIv q o.b2 n else .pt 1
    let v := Iv.div q (.pt m2) c2
    Iv.div q (Iv.div q (.pt m1) c1) ((Iv.mk (sqrtPt q v.lo).lo (sqrtPt q v.hi).hi).addR o.eps)

/-- The master value of a weight and its tail (R33). -/
def master (w t : Nat) : Option Rat :=
  match w16.value w with
  | none => none
  | some v => if bits w 14 7 = 0 then some v else some (v + (sx 8 t : Rat) * pow2 ((bits w 14 7 : Int) - 206))

/-- split(x') (R210): w', t', and the rounding of w'. -/
def splitMaster (x : Option Rat) : Rounded × Nat :=
  let w := w16.roundOpt .rne x
  match x with
  | none => (w, 0)
  | some v =>
    let e := bits w.code 14 7
    if w.sat || decide (e = 0) then (w, 0)
    else
      let t := rneInt ((v - (w16.value w.code).getD 0) / pow2 ((e : Int) - 206))
      (w, (t % 256).toNat)

/-- What OPT does to one element: codes to write (none for a skipped element), counts and norm terms. -/
structure OptElem where
  wr : Option (Nat × Nat × Nat × Nat)
  sat : Nat
  unf : Nat
  nar : Bool
  narv : Bool
  wsq : Nat
  gsq : Nat
  usq : Nat
  deriving DecidableEq, Repr

/-- RNE_W24(x)² in units of 2^−412, 0 for NaR (Table 9.4). -/
def normTerm (x : Option Rat) : Nat :=
  match x with
  | none => 0
  | some v =>
    let r := (w24.value (rneW24 v).code).getD 0
    floorNat (r * r * pow2 412)

def addOpt (a b : Option Rat) : Option Rat :=
  match a, b with
  | some x, some y => some (x + y)
  | _, _ => none

/-- R209 and R211 for an unmasked element: weight, tail, moments and gradient codes; n is the optimiser count. -/
def optElem (o : OptParams) (n : Nat) (w t m1 m2 : Nat) (grad : Option Rat) : OptElem :=
  let x := master w t
  match grad with
  | none =>
    { wr := none, sat := 0, unf := 0, nar := true,
      narv := x.isNone || (w24.value m1).isNone || (!o.sgd && (w24.value m2).isNone), wsq := normTerm x, gsq := 0, usq := 0 }
  | some gr =>
    let g0 := o.gscl * gr
    let g := if o.gclip = 0 then g0 else min (max g0 (-o.gclip)) o.gclip
    let a1 := w24.roundOpt .rne ((w24.value m1).map fun v => o.b1 * v + (if o.sgd then 1 else 1 - o.b1) * g)
    let a2 : Rounded := if o.sgd then ⟨m2, false, false⟩
      else w24.roundOpt .rne ((w24.value m2).map fun v => o.b2 * v + (1 - o.b2) * g * g)
    let v1 := w24.value a1.code
    let v2 := if o.sgd then some 0 else w24.value a2.code
    let u : Rounded × Nat :=
      match v1, v2 with
      | some y1, some y2 =>
        if o.sgd then (if o.nest then rneW24 (g + o.b1 * y1) else ⟨a1.code, false, false⟩, 0)
        else if decide (y2 < 0) || (decide (y2 = 0) && decide (o.eps = 0)) then (⟨0, false, false⟩, 1)
        else (adamU o n y1 y2, 0)
      | _, _ => (⟨w24.nar, false, false⟩, 0)
    let x' := match x, w24.value u.1.code with
      | some xv, some uv => some (xv - o.lr * (uv + o.wd * xv))
      | _, _ => none
    let sp := splitMaster x'
    let xn := master sp.1.code sp.2
    let l := [a1, a2, u.1, sp.1]
    { wr := some (sp.1.code, sp.2, a1.code, a2.code), sat := u.2 + (l.filter fun z => z.sat).length,
      unf := (l.filter fun z => z.unf).length, nar := false,
      narv := xn.isNone || v1.isNone || v2.isNone, wsq := normTerm xn, gsq := normTerm (some g), usq := normTerm (subOpt xn x) }

/-! The run of OPT. -/

/-- Element `i` is masked (R212). -/
def updMasked (d : List Byte) (m : List Byte) (i : Nat) : Bool :=
  if updMmode d = 0 then false
  else
    let r := i / updRowlen d
    let k := i % updRowlen d
    streamBit m (if updMmode d = 1 then r else r / 32 * ceilDiv (updRowlen d) 32 + k / 32)

def updMaskBits (d : List Byte) : Nat :=
  if updMmode d = 0 then 0
  else
    let r := updN d / updRowlen d
    if updMmode d = 1 then r else ceilDiv r 32 * ceilDiv (updRowlen d) 32

/-- What a run has gathered. -/
structure OptAcc where
  nnar : Nat
  nupd : Nat
  nnarv : Nat
  wsq : Nat
  gsq : Nat
  usq : Nat
  deriving DecidableEq, Repr

def updGrad (d : List Byte) : WFmt := (wFmt? (updSfmt d)).getD w16

/-- Element `i` of OPT, with its counts (Table 9.10). -/
def State.optStep (s : State) (c : Ctx) (u : Nat) (e : Entry) (o : OptParams) (m : List Byte) (i : Nat) (k : OptAcc) :
    Except Fail (State × OptAcc) := do
  let d := e.desc
  let w ← s.rd c (updW d + 2 * i) 2
  if updMasked d m i then
    pure (s.count u 1 1, { k with wsq := k.wsq + normTerm (w16.value w) })
  else
    let t ← s.rd c (updT d + i) 1
    let m1 ← s.rd c (updM d + 3 * i) 3
    let m2 ← if o.sgd then .ok 0 else s.rd c (updM2 d + 3 * i) 3
    let g ← s.wAt c (updGrad d) (updG d) i
    let n := (e.startBeat.step.toNat + 2 ^ 40 - o.sstep0) % 2 ^ 40 + 1
    let x := optElem o n w t m1 m2 ((updGrad d).value g)
    let k1 := { k with nnar := k.nnar + b2n x.nar, nupd := k.nupd + b2n x.wr.isSome, nnarv := k.nnarv + b2n x.narv,
                       wsq := k.wsq + x.wsq, gsq := k.gsq + x.gsq, usq := k.usq + x.usq }
    let s1 ← match x.wr with
      | none => .ok s
      | some q => do
        let s1 ← s.wr c (updW d + 2 * i) (leBytes 2 q.1)
        let s2 ← s1.wr c (updT d + i) (leBytes 1 q.2.1)
        let s3 ← s2.wr c (updM d + 3 * i) (leBytes 3 q.2.2.1)
        if o.sgd then pure s3 else s3.wr c (updM2 d + 3 * i) (leBytes 3 q.2.2.2)
    pure ((((s1.count u 0 (b2n x.wr.isSome)).count u 2 (b2n x.nar)).count u 3 x.sat).count u 4 x.unf, k1)

/-- The arrays from the 64-byte run of element `i` onward are unspecified (R216). -/
def State.optFail (s : State) (c : Ctx) (u k : Nat) (e : Entry) (sgd : Bool) (i : Nat) (f : Fail) : State :=
  let d := e.desc
  let tail := fun (s : State) (a w : Nat) => s.scramble (.desc c) (a + w * i / 64 * 64) (w * updN d - w * i / 64 * 64)
  let s1 := tail (tail (tail s (updW d) 2) (updT d) 1) (updM d) 3
  (if sgd then s1 else tail s1 (updM2 d) 3).endEntry u k (.fail f)

def State.optRun (s : State) (c : Ctx) (u k : Nat) (e : Entry) (o : OptParams) (m : List Byte) : Nat → Nat → OptAcc → State
  | 0, _, a =>
    let q : Contrib := { stream := BitVec.ofNat 32 (updStream e.desc), eflg := 2, rmax := 0,
                         ints := [0, 0, 0, 0, 0, 0, a.nnar, a.nupd, a.nnarv], sums := [0, 0, a.wsq, a.gsq, a.usq] }
    let s1 := if updNorms e.desc then s.setEntry u k fun x => { x with contrib := some q } else s
    s1.endEntry u k (.ok 0)
  | n + 1, i, a =>
    match s.optStep c u e o m i a with
    | .error f => s.optFail c u k e o.sgd i f
    | .ok q => q.1.optRun c u k e o m n (i + 1) q.2

/-- OPT (R209). -/
def execOpt (u : Nat) (s : State) : Host.Outcome State Fault Refusal :=
  .next (s.startEngine u 7 1 (fun _ _ => []) fun _ c i e t =>
    let d := e.desc
    match optBody e with
    | some f => some (t.endEntry u i (.fail f))
    | none =>
      match t.read (.desc c) (updP d) 64 with
      | .error f => some (t.endEntry u i (.fail f))
      | .ok b =>
        match OptParams.of? b with
        | none => some (t.endEntry u i (.fail (Fail.bus (updP d))))
        | some o =>
          match t.read (.desc c) (e.base + updMask d) (ceilDiv (updMaskBits d) 8) with
          | .error f => some (t.optFail c u i e o.sgd 0 f)
          | .ok m => some (t.optRun c u i e o m (updN d) 0 ⟨0, 0, 0, 0, 0, 0⟩))

/-! TIESUM (R213). -/

/-- The slot addresses, or why the list fails (R216). -/
def State.tieSlots (s : State) (c : Ctx) (d : List Byte) : Except Fail (List Nat) :=
  (List.range (updNslot d)).mapM fun k =>
    match s.rd c (updW d + 8 * k) 8 with
    | .error f => .error f
    | .ok v =>
      if 2 ^ 48 ≤ v then .error (Fail.bus (updW d + 8 * k))
      else if aligned 64 v then .ok v else .error (Fail.bus v)

/-- The W24 sum in slot order: code, saturation, underflow. -/
def tieSum : Rounded → List Rounded → Rounded
  | a, [] => a
  | a, x :: r =>
    let y := w24.roundOpt .rne (addOpt (w24.value a.code) (w24.value x.code))
    tieSum ⟨y.code, a.sat || y.sat, a.unf || y.unf⟩ r

/-- Element `i` of TIESUM. -/
def State.tieElem (s : State) (c : Ctx) (d : List Byte) (w : Words) (slots : List Nat) (i : Nat) : Except Fail Rounded := do
  let f := (wFmt? (updSfmt d)).getD w16
  let l ← slots.mapM fun a => (s.wAt c f a i).map fun v => wconvElem f w24 .rne v
  let acc := match l with
    | [] => zeroR
    | x :: r => tieSum x r
  if updDfmt d = 2 then pure acc
  else
    let y := wconvElem w24 w16 (if hBwd d then .sr (w.w16 0 (updG d + i)) else .rne) acc.code
    pure ⟨y.code, acc.sat || y.sat, acc.unf || y.unf⟩

def State.tieRun (s : State) (c : Ctx) (u k : Nat) (e : Entry) (w : Words) (slots : List Nat) : Nat → Nat → State
  | 0, _ => s.endEntry u k (.ok 0)
  | n + 1, i =>
    let d := e.desc
    let b := if updDfmt d = 2 then 3 else 2
    let fail := fun f => (s.scramble (.desc c) (updT d + b * i / 64 * 64) (b * updN d - b * i / 64 * 64)).endEntry u k (.fail f)
    match s.tieElem c d w slots i with
    | .error f => fail f
    | .ok y =>
      match s.wr c (updT d + b * i) (leBytes b y.code) with
      | .error f => fail f
      | .ok s1 =>
        (((s1.count u 5 1).count u 3 (b2n y.sat)).count u 4 (b2n y.unf)).tieRun c u k e w slots n (i + 1)

/-- The words of a TIESUM under SR (R213). -/
def State.tieWords (s : State) (c : Ctx) (e : Entry) : List Nat :=
  let d := e.desc
  let ok := match s.tieSlots c d with
    | .ok _ => true
    | .error _ => false
  if hBwd d && decide (updDfmt d = 1) && (tieBody e).isNone && ok then (List.range (updN d)).map fun i => updG d + i else []

/-- TIESUM (R213). -/
def execTiesum (u : Nat) (s : State) : Host.Outcome State Fault Refusal :=
  .next (s.startEngine u 7 2 (fun c e => s.tieWords c e) fun _ c i e t =>
    match tieBody e with
    | some f => some (t.endEntry u i (.fail f))
    | none =>
      match t.tieSlots c e.desc with
      | .error f => some (t.endEntry u i (.fail f))
      | .ok l => some (t.tieRun c u i e (e.words c (updStream e.desc)) l (updN e.desc) 0))

end Sys2Proof.Machine
end

