-- ==== Sys2Proof/Machine/Xre.lean ====
section
/-! DEFINITION. The exchange and reduction engine (R114 to R131, R429 to R431): images, ADD, EXPORT, RETIRE, RELEASE, the
intra-partition tree, the cross-package sum. -/

set_option Elab.async false

namespace Sys2Proof.Machine

/-! Body (Tables 5.6, 5.7). -/

def xreHandle (d : List Byte) : Handle := Handle.ofNat (fld d 16 3)
def xreOfmt (d : List Byte) : Nat := fld d 19 1
def xreSrc (d : List Byte) : Nat := fld d 20 6
def xreDst (d : List Byte) : Nat := fld d 26 6
def xreAux1 (d : List Byte) : Nat := fld d 32 6
def xreAux2 (d : List Byte) : Nat := fld d 38 6
def xreHbase (d : List Byte) : Nat := fld d 44 2
def xreHcnt (d : List Byte) : Nat := fld d 46 2
def xreRxoff (d : List Byte) : Nat := fld d 48 3
def xreRsync (d : List Byte) : Nat := fld d 51 1
def xreCtl (d : List Byte) : Nat := fld d 52 2
def xreRel (d : List Byte) : Bool := bit (xreCtl d) 15
def xreZero (d : List Byte) : Bool := bit (xreCtl d) 14
def xreRnd (d : List Byte) : Bool := bit (xreCtl d) 13
def xreCmpct (d : List Byte) : Bool := bit (xreCtl d) 12
def xreNsrc (d : List Byte) : Nat := fld d 54 1
def xreCmask (d : List Byte) : Nat := fld d 55 1
def xreStream (d : List Byte) : Nat := fld d 56 4

/-- Bytes of the body that an operation uses, CTL apart, and the CTL bits it uses (R117, Tables 5.6, 5.7). -/
def xreUsed (op : Nat) : List (Nat × Nat) × Nat :=
  match op with
  | 1 => ([(16, 19), (20, 26), (54, 55)], 0x4000)
  | 2 => ([(16, 19), (26, 32)], 0x9000)
  | 3 => ([(16, 20), (26, 44), (56, 60)], 0xA000)
  | 4 => ([(16, 19), (44, 52)], 0x1000)
  | 5 => ([(19, 44), (55, 60)], 0)
  | _ => ([(16, 19)], 0)

def xreMin (op : Nat) : Nat :=
  match op with
  | 1 => 3
  | 4 => 3
  | 6 => 1
  | _ => 2

/-- Unused fields are 0 and CCLS is at least the minimum (R117, R130). -/
def xreForm (d : List Byte) : Bool :=
  let u := xreUsed (hOp d)
  ((List.range 48).all fun i => let o := 16 + i
    decide (o = 52 ∨ o = 53) || (u.1.any fun p => decide (p.1 ≤ o ∧ o < p.2)) || decide (fld d o 1 = 0))
    && decide (xreCtl d &&& u.2 = xreCtl d) && cclsOk d (xreMin (hOp d))

/-! Images (R114, Table 5.4). -/

/-- Limb range of a tile's image: whole, or compact by R114. -/
def limbRange (cls : Nat) (cmpct : Bool) (m : SMap Elem) : Nat × Nat :=
  let n := clsLimbs cls
  if !cmpct then (0, n - 1)
  else
    let limb := fun (v : Int) k => limbsVal n v / 2 ^ (64 * k) % 2 ^ 64
    let lo := (List.range n).find? fun k => m.any fun p => decide (limb p.2.val k ≠ 0)
    match lo with
    | none => (0, 0)
    | some l =>
      let fits := fun h => m.all fun p =>
        (List.range n).all fun k => decide (k ≤ h)
          || decide (limb p.2.val k = if (limb p.2.val h).testBit 63 then 2 ^ 64 - 1 else 0)
      (l, ((List.range n).find? fun h => decide (l ≤ h) && fits h).getD (n - 1))

/-- The flag map of a tile (R114). -/
def flagMap (cls : Nat) (m : SMap Elem) : List Byte :=
  let e := clsElems cls
  leBytes (align64 (e / 4)) ((m.map fun p => (b2n p.2.nar + 2 * b2n p.2.ovf) * 4 ^ p.1).sum)

/-- The image of tile `i` of a handle. -/
def tileImage (cls : Nat) (cmpct : Bool) (i : Nat) (m : SMap Elem) : List Byte :=
  let r := limbRange cls cmpct m
  leBytes 1 cls ++ leBytes 1 r.1 ++ leBytes 1 r.2
    ++ leBytes 1 (b2n (m.any fun p => p.2.nar) + 2 * b2n (m.any fun p => p.2.ovf))
    ++ leBytes 2 (clsElems cls) ++ leBytes 2 i ++ zeros 56 ++ flagMap cls m ++ tileLimbs cls r.1 r.2 m

def handleImage (cls : Nat) (cmpct : Bool) (ts : List (SMap Elem)) : List Byte :=
  (ts.zipIdx.map fun p => tileImage cls cmpct p.2 p.1).flatten

/-- Bytes of a full image of one tile. -/
def fullImage (cls : Nat) : Nat := 64 + align64 (clsElems cls / 4) + clsBytes cls

/-- A tile image read and checked (R114): its elements, its limbs, the address after it. -/
def State.readTile (s : State) (c : Ctx) (cls i a : Nat) : Except Fail (List Elem × Nat × Nat) := do
  let hd ← s.read (.desc c) a 64
  let lo := fld hd 1 1
  let hi := fld hd 2 1
  let e := clsElems cls
  if fld hd 0 1 ≠ cls ∨ fld hd 4 2 ≠ e ∨ fld hd 6 2 ≠ i ∨ hi < lo ∨ clsLimbs cls ≤ hi then .error (Fail.bus a)
  else
    let fb := align64 (e / 4)
    let fl ← s.read (.desc c) (a + 64) fb
    let lb := e * (hi + 1 - lo) * 8
    let bs ← s.read (.desc c) (a + 64 + fb) lb
    pure ((List.range e).map fun k =>
      { val := limbElem cls bs lo hi k, nar := streamBit fl (2 * k), ovf := streamBit fl (2 * k + 1) },
      e * (hi + 1 - lo), a + 64 + fb + lb)

/-- One tile's terms added by R115; answers the elements and how many overflow flags were set. -/
def addTile (cls : Nat) (m : SMap Elem) (ts : List Elem) : SMap Elem × Nat :=
  ts.zipIdx.foldl (fun a p =>
    let e := SMap.get a.1 Elem.zero p.2
    let e' := e.add (clsBits cls) p.1.val p.1.nar p.1.ovf
    (SMap.put a.1 Elem.zero p.2 e', a.2 + b2n (e'.ovf && !e.ovf))) (m, 0)

/-- What a sequence of steps leaves when one of them fails: the work of the steps before it stands (R467). -/
def State.each {α : Type} (f : State → α → Except Fail State) : State → List α → State × Option Fail
  | s, [] => (s, none)
  | s, a :: r =>
    match f s a with
    | .error e => (s, some e)
    | .ok t => State.each f t r

/-- Tiles `k` onward of an image at `a` added into a live handle, `n` of them, with the counts of Table 5.11; what is added before a
failure stays. -/
def State.addImage (s : State) (c : Ctx) (u g : Nat) (h : Handle) : Nat → Nat → Nat → State × Option Fail
  | 0, _, _ => (s, none)
  | n + 1, k, a =>
    match s.readTile c h.cls k a with
    | .error f => (s, some f)
    | .ok q =>
      let old := match (s.store g h.st).tile? h.cls (h.base + k) with
        | some t => t.elems
        | none => []
      let r := addTile h.cls old q.1
      let s1 := s.setTile g h.st h.cls (h.base + k) fun t => { t with elems := r.1 }
      ((s1.count u 0 q.2.1).count u 5 r.2).addImage c u g h n (k + 1) q.2.2

/-- An image address that is not 64-byte aligned fails at that address (R114; log 44). -/
def imageAt (a : Nat) : Except Fail Unit := if aligned 64 a then .ok () else .error (Fail.bus a)

/-! ADD (R119). -/

/-- The source list of an ADD (Table 5.6). -/
def State.addList (s : State) (c : Ctx) (d : List Byte) : Except Fail (List Nat) :=
  (List.range (xreNsrc d)).mapM fun k =>
    match s.rd c (xreSrc d + 8 * k) 8 with
    | .error f => .error f
    | .ok v => if 2 ^ 48 ≤ v then .error (Fail.bus (xreSrc d + 8 * k)) else .ok v

def State.addImages (s : State) (c : Ctx) (u g : Nat) (h : Handle) : List Nat → State × Option Fail
  | [] => (s, none)
  | a :: r =>
    match imageAt a with
    | .error f => (s, some f)
    | .ok _ =>
      let q := s.addImage c u g h h.cnt 0 a
      match q.2 with
      | some f => (q.1, some f)
      | none => q.1.addImages c u g h r

/-- The additions of an ADD whose handle is live: a failure leaves the handle's contents unspecified (R118). -/
def State.addRun (s : State) (c : Ctx) (u i g : Nat) (e : Entry) (h : Handle) : State :=
  match s.addList c e.desc with
  | .error f => s.endEntry u i (.fail f)
  | .ok l =>
    let q := s.addImages c u g h l
    match q.2 with
    | some f => (q.1.freeHandleTiles g h).endEntry u i (.fail f)
    | none => q.1.endEntry u i (.ok 0)

/-- ADD (R119, R107): as a producer it waits until its slots are free. -/
def execXreAdd (u : Nat) (s : State) : Host.Outcome State Fault Refusal :=
  .next (s.startEngine u 9 1 (fun _ _ => []) fun x c i e t =>
    let d := e.desc
    let h := xreHandle d
    if !xreForm d || !decide (1 ≤ xreNsrc d ∧ xreNsrc d ≤ 8) || !t.handleOk x.g h || t.classForeign x e then t.refuse u i e
    else if !t.classReady x e then none
    else if xreZero d then
      if t.handleFree x.g h then some ((t.openHandle x.g h (BitVec.ofNat 24 (fld d 16 3))).addRun c u i x.g e h) else none
    else if t.handleLive x.g h then (if t.deposited x.g h then some (t.addRun c u i x.g e h) else none)
    else t.refuse u i e)

/-! EXPORT, RETIRE, RELEASE. -/

/-- A consumer of a handle (R107, R108): refused on a free tile, waiting until its tiles are deposited. -/
def State.consume (s : State) (u i : Nat) (x : EngUnit) (e : Entry) (run : Option State) : Option State :=
  let h := xreHandle e.desc
  if !s.handleLive x.g h then s.refuse u i e else if s.deposited x.g h then run else none

/-- The handle freed where REL is set (Table 5.7). -/
def State.relHandle (s : State) (g : Nat) (d : List Byte) : State := if xreRel d then s.freeHandle g (xreHandle d) else s

/-- EXPORT (R114). -/
def execExportImage (u : Nat) (s : State) : Host.Outcome State Fault Refusal :=
  .next (s.startEngine u 9 2 (fun _ _ => []) fun x c i e t =>
    let d := e.desc
    let h := xreHandle d
    if !xreForm d || !t.handleOk x.g h then t.refuse u i e
    else t.consume u i x e
      (match imageAt (xreDst d) with
       | .error f => some (t.endEntry u i (.fail f))
       | .ok _ =>
         match t.handleElems c x.g h with
         | .error f => some ((t.scramble (.desc c) (xreDst d) (h.cnt * fullImage h.cls)).endEntry u i (.fail f))
         | .ok l =>
           let bs := handleImage h.cls (xreCmpct d) l
           match t.wr c (xreDst d) bs with
           | .error f => some ((t.scramble (.desc c) (xreDst d) bs.length).endEntry u i (.fail f))
           | .ok t1 => some (((t1.count u 1 bs.length).relHandle x.g d).endEntry u i (.ok 0))))

/-- Why a RETIRE fails before it reads anything (R116 to R118, R26). -/
def State.retireBody (s : State) (x : EngUnit) (e : Entry) : Option Fail :=
  let d := e.desc
  let h := xreHandle d
  if !xreForm d || !isW (xreOfmt d) || !s.handleOk x.g h || (decide (h.cls < 0x10) && hBwd d)
      || (!decide (h.cls < 0x10) && decide (xreAux2 d ≠ 0)) then some e.bus
  else if decide (xreOfmt d ≠ 1) && !aligned 64 (xreDst d) then some (Fail.bus (xreDst d)) else none

def retireElem0 (d : List Byte) : Nat := if (xreHandle d).cls < 0x10 then 0 else xreAux1 d

/-- The words of a RETIRE under SR (R126). -/
def State.retireWords (s : State) (x : EngUnit) (e : Entry) : List Nat :=
  let d := e.desc
  let h := xreHandle d
  if (s.retireBody x e).isSome || !(xreRnd d || hBwd d) || !s.handleLive x.g h then []
  else (List.range (h.cnt * clsElems h.cls)).map fun k => retireElem0 d + k

/-- The units of rows and columns of an A48 handle (R84, R118), else the class's unit (R126). -/
def State.retireUnits (s : State) (c : Ctx) (d : List Byte) : Except Fail (List Rat × List Rat) :=
  let h := xreHandle d
  let sh := clsShape h.cls
  if h.cls < 0x10 then do
    let a ← (List.range sh.1).mapM fun r => (s.metaAt c (xreAux1 d + 4 * r) fun _ => true).map Meta.unit
    let w ← (List.range (h.cnt * sh.2)).mapM fun k => (s.metaAt c (xreAux2 d + 4 * k) fun _ => true).map Meta.unit
    pure (a, w)
  else .ok (List.replicate sh.1 (clsUnit h.cls), List.replicate (h.cnt * sh.2) 1)

/-- The rows of the tiles, converted and written as an FTA W destination (R92, R126), each counted. -/
def State.retireRun (s : State) (c : Ctx) (u : Nat) (e : Entry) (w : Words) (ts : List (SMap Elem)) (un : List Rat × List Rat) :
    State × Option Fail :=
  let d := e.desc
  let h := xreHandle d
  let sh := clsShape h.cls
  let f := (wFmt? (xreOfmt d)).getD w16
  s.each (fun (s : State) (p : SMap Elem × Nat × Nat) =>
    let out := (List.range sh.2).map fun k =>
      let rnd : Rnd := if xreRnd d || hBwd d then .sr (w.w16 0 (retireElem0 d + (p.2.1 * sh.1 + p.2.2) * sh.2 + k)) else .rne
      (SMap.get p.1 Elem.zero (p.2.2 * sh.2 + k)).retire f rnd (un.1.getD p.2.2 0 * un.2.getD (p.2.1 * sh.2 + k) 0)
    (s.putW c f (xreDst d) (p.2.2 * (h.cnt * sh.2) + p.2.1 * sh.2) (out.map fun z => z.code)).map fun t =>
      t.count u 6 (out.filter fun z => z.sat).length)
    (ts.zipIdx.flatMap fun p => (List.range sh.1).map fun r => (p.1, p.2, r))

/-- RETIRE (R126). -/
def execRetire (u : Nat) (s : State) : Host.Outcome State Fault Refusal :=
  .next (s.startEngine u 9 3 (fun _ e => match s.unit u with
    | some x => s.retireWords x e
    | none => []) fun x c i e t =>
    let d := e.desc
    let h := xreHandle d
    let f := (wFmt? (xreOfmt d)).getD w16
    match t.retireBody x e with
    | some f => some (t.endEntry u i (.fail f))
    | none => t.consume u i x e
      (let fail := fun (t : State) q =>
         some ((t.scramble (.desc c) (xreDst d) (f.bytesFor (h.cnt * clsElems h.cls))).endEntry u i (.fail q))
       match t.handleElems c x.g h with
       | .error q => fail t q
       | .ok l =>
         match t.retireUnits c d with
         | .error q => fail t q
         | .ok un =>
           let r := t.retireRun c u e (e.words c (xreStream d)) l un
           match r.2 with
           | some q => fail r.1 q
           | none => some ((r.1.relHandle x.g d).endEntry u i (.ok 0))))

/-- RELEASE (R107). -/
def execRelease (u : Nat) (s : State) : Host.Outcome State Fault Refusal :=
  .next (s.startEngine u 9 6 (fun _ _ => []) fun x _ i e t =>
    let h := xreHandle e.desc
    if !xreForm e.desc || !t.handleOk x.g h then t.refuse u i e
    else t.consume u i x e (some ((t.freeHandle x.g h).endEntry u i (.ok 0))))

/-! The intra-partition tree (R120 to R123). -/

/-- The participants' global hearths, ascending; none where the range leaves the partition or the hearth is outside it (R116). -/
def redParts (c : Ctx) (g : Nat) (d : List Byte) : Option (List Nat) :=
  match (List.range (xreHcnt d)).mapM fun k => c.globalHearth (xreHbase d + k) with
  | some l => if decide (1 ≤ xreHcnt d ∧ xreHcnt d ≤ 3456) && decide (g ∈ l) then some l else none
  | none => none

/-- What the members of a group share at a level (Table 5.8). -/
def redKey (c : Ctx) (lv g : Nat) : Nat :=
  match lv with
  | 0 => g / 8
  | 1 => g / 48
  | 2 => g / 144
  | 3 => (rank c.cords (g / 144)).getD 0 / 8
  | _ => 0

/-- `p` is the lowest participant of its group. -/
def redLeader (c : Ctx) (ps : List Nat) (lv p : Nat) : Bool :=
  ps.all fun q => decide (redKey c lv q ≠ redKey c lv p) || decide (p ≤ q)

/-- The members of a level: every participant, then the leaders of the level below. -/
def redMembers (c : Ctx) (ps : List Nat) : Nat → List Nat
  | 0 => ps
  | k + 1 => ps.filter fun p => redLeader c ps k p

/-- The children of a leader at a level, in slot order. -/
def redKids (c : Ctx) (ps : List Nat) (lv p : Nat) : List Nat :=
  (redMembers c ps lv).filter fun q => decide (redKey c lv q = redKey c lv p) && decide (q ≠ p)

/-- The parent of a member that does not lead its group, and its slot. -/
def redParent (c : Ctx) (ps : List Nat) (lv p : Nat) : Option (Nat × Nat) :=
  match (redMembers c ps lv).find? fun q => decide (redKey c lv q = redKey c lv p) with
  | some q => if q = p then none else (rank (redKids c ps lv q) p).map fun k => (q, k)
  | none => none

/-- From level `lv` on, the first at which the participant has children or a parent; 5 where none is left. -/
def redNext (c : Ctx) (ps : List Nat) (g : Nat) : Nat → Nat → Nat
  | 0, _ => 5
  | f + 1, lv =>
    if 5 ≤ lv then 5
    else if (redParent c ps lv g).isSome || !(redKids c ps lv g).isEmpty then lv else redNext c ps g f (lv + 1)

/-- The participant stands at level `lv`, with `n` arrivals counted so far; after its last level the descriptor ends (R122). -/
def State.redAt (s : State) (u i : Nat) (c : Ctx) (g : Nat) (ps : List Nat) (lv n : Nat) : State :=
  let k := redNext c ps g 5 lv
  let s1 := s.setProg u i fun p => { p with tiles := k, pos := n }
  if k = 5 then s1.endEntry u i (.ok 0) else s1

/-- REDUCE (R122): the participant starts; at a level it leads, its grants stand while it waits there. -/
def execReduce (u : Nat) (s : State) : Host.Outcome State Fault Refusal :=
  .next (s.startEngine u 9 4 (fun _ _ => []) fun x c i e t =>
    let d := e.desc
    let h := xreHandle d
    match redParts c x.g d with
    | none => t.refuse u i e
    | some ps =>
      if !xreForm d || !t.handleOk x.g h || !aligned 64 (xreRxoff d) || decide (64 ≤ xreRsync d) || t.classForeign x e
          || !t.handleLive x.g h then t.refuse u i e
      else if !t.classReady x e || !t.deposited x.g h then none
      else
        let o := t.syncObj (.loc (x.g * 64 + xreRsync d))
        some ((t.setProg u i fun p => { p with c0 := o.count }).redAt u i c x.g ps 0 0))

/-- The parent stands at the level with a REDUCE of the same tree: its grant has come (R122). -/
def State.redGranted (s : State) (d : List Byte) (ctx pg lv : Nat) : Bool :=
  match (s.engine (xrePage pg)).running with
  | some (_, e) => decide (hOp e.desc = 4 ∧ e.ctx = ctx ∧ hTag e.desc = hTag d ∧ xreHbase e.desc = xreHbase d
      ∧ xreHcnt e.desc = xreHcnt d ∧ e.prog.tiles = lv)
  | none => false

/-- The arrivals of one level, added in slot order (R122 step 3). -/
def State.redAdd (s : State) (c : Ctx) (u g : Nat) (e : Entry) (h : Handle) : Nat → Nat → State × Option Fail
  | 0, _ => (s, none)
  | n + 1, k =>
    let q := s.addImage c u g h h.cnt 0 (hearthBase g + xreRxoff e.desc + k * (h.cnt * fullImage h.cls))
    match q.2 with
    | some f => (q.1, some f)
    | none => q.1.redAdd c u g e h n (k + 1)

/-- A handle that a class change has drained while its REDUCE waits is reloaded before anything is added into it (R111); none while
that class change must wait (R110, R108). -/
def State.redReload (s : State) (c : Ctx) (g : Nat) (h : Handle) : Option (Except Fail State) :=
  if !s.handleDrained g h then some (.ok s)
  else if s.storeRuns g h.st then none else s.classChange c g h.st h.cls

/-- REDUCE_LEVEL_PROCEED (R122). -/
def execReduceLevelProceed (u : Nat) (s : State) : Host.Outcome State Fault Refusal :=
  match s.unit u, (s.engine u).running with
  | some x, some (i, e) =>
    let d := e.desc
    let h := xreHandle d
    match s.ctx? e.ctx with
    | none => .next s
    | some c =>
      match redParts c x.g d with
      | none => .next s
      | some ps =>
        if !decide (x.eng = 9 ∧ hOp d = 4) then .next s
        else
          let lv := e.prog.tiles
          match redParent c ps lv x.g with
          | some p =>
            if s.redGranted d e.ctx p.1 lv then
              match s.handleElems c x.g h with
              | .error f => .next (s.endEntry u i (.fail f))
              | .ok l =>
                let bs := handleImage h.cls (xreCmpct d) l
                match s.wr c (hearthBase p.1 + xreRxoff d + p.2 * (h.cnt * fullImage h.cls)) bs with
                | .error f => .next (s.endEntry u i (.fail f))
                | .ok s1 =>
                  let s2 := (s1.count u 1 bs.length).signal (.loc (p.1 * 64 + xreRsync d)) false 1
                  .next ((s2.freeHandle x.g h).endEntry u i (.ok 0))
            else .next s
          | none =>
            let n := (redKids c ps lv x.g).length
            let o := s.syncObj (.loc (x.g * 64 + xreRsync d))
            if decide (e.prog.pos + n ≤ (o.count - e.prog.c0).toNat) then
              match s.redReload c x.g h with
              | none => .next s
              | some (.error f) => .next ((s.freeHandleTiles x.g h).endEntry u i (.fail f))
              | some (.ok s0) =>
                let r := s0.redAdd c u x.g e h n 0
                match r.2 with
                | some f => .next ((r.1.freeHandleTiles x.g h).endEntry u i (.fail f))
                | none => .next (r.1.redAt u i c x.g ps (lv + 1) (e.prog.pos + n))
            else .next s
  | _, _ => .next s

/-! The cross-package sum (R127, R429 to R431). -/

/-- Bytes of a child's receive buffer (R127). -/
def pkgBuf (ofmt n : Nat) : Nat := if ofmt = 2 then align64 (3 * n) else 64 + align64 (ceilDiv (12 * n) 8)

def pkgN (d : List Byte) : Nat := xreAux2 d
def pkgKids (d : List Byte) : List Nat := (List.range 3).filter fun k => bit (xreCmask d) k
def pkgAt (d : List Byte) (k : Nat) : Nat := xreAux1 d + k * pkgBuf (xreOfmt d) (pkgN d)

/-- Why a PKGSUM fails at its start (R116, R117, R26, R429). -/
def State.pkgBody (s : State) (e : Entry) : Option Fail :=
  let d := e.desc
  if !xreForm d || !decide (xreOfmt d = 2 ∨ xreOfmt d = 3) || !decide (1 ≤ pkgN d ∧ pkgN d < 2 ^ 32)
      || !decide (xreCmask d < 8) then some e.bus
  else
    match misaligned ([xreSrc d, xreDst d] ++ if xreCmask d = 0 then [] else [xreAux1 d]) with
    | some f => some f
    | none =>
      if (pkgKids d).any fun k => !s.portUp (3 + k) then some { code := eLinkDown, addr := e.addr }
      else if (List.range 3).any fun k => s.portUp (3 + k) && !bit (xreCmask d) k then some e.bus else none

/-- RDP_CFG.XFMT of the UPP (R443). -/
def State.xfmt (s : State) : Bool := (s.cfg (pgRdp 0) 0x104 1).getLsbD 1

/-- The words of a compressed upload under SR (R431). -/
def State.pkgWords (s : State) (e : Entry) : List Nat :=
  if (s.pkgBody e).isNone && hBwd e.desc && s.portUp 2 && s.xfmt then List.range (pkgN e.desc) else []

/-- Child k's array as rounded W24 codes (R127). -/
def State.pkgChild (s : State) (c : Ctx) (d : List Byte) (k : Nat) : Except Fail (List Rounded) :=
  if xreOfmt d = 2 then (s.wRow c w24 (pkgAt d k) 0 (pkgN d)).map fun l => l.map fun v => ⟨v, false, false⟩
  else do
    let h ← s.rd c (pkgAt d k) 1
    (s.wRow c w12 (pkgAt d k + 64) 0 (pkgN d)).map fun l =>
      l.map fun v => w24.roundOpt .rne ((w12.value v).map fun y => y * pow2 (-(sx 8 h)))

/-- The additions of R127 in their order: the sum's code and how many of them saturate. -/
def pkgSum : Nat × Nat → List Nat → Nat × Nat
  | a, [] => a
  | a, x :: r =>
    let y := w24.roundOpt .rne (addOpt (w24.value a.1) (w24.value x))
    pkgSum (y.code, a.2 + b2n y.sat) r

/-- R127 for one element: the children's codes in port order, own contribution last; each saturation, of a restored child or of an
addition, counts (R131). -/
def pkgElem (l : List Rounded) (own : Nat) : Nat × Nat :=
  match l with
  | [] => ((wconvElem w24 w24 .rne own).code, 0)
  | a :: r => pkgSum (a.code, (l.filter fun z => z.sat).length) (r.map (fun z => z.code) ++ [own])

/-- The result formed at DST (R127), with its saturations counted. -/
def State.pkgForm (s : State) (c : Ctx) (u : Nat) (d : List Byte) : State × Option Fail :=
  match (pkgKids d).mapM fun k => s.pkgChild c d k with
  | .error f => (s, some f)
  | .ok kids =>
    match s.wRow c w24 (xreSrc d) 0 (pkgN d) with
    | .error f => (s, some f)
    | .ok own =>
      let out := own.zipIdx.map fun p => pkgElem (kids.map fun l => l.getD p.2 zeroR) p.1
      let t := s.count u 6 (out.map fun z => z.2).sum
      match t.putW c w24 (xreDst d) 0 (out.map fun z => z.1) with
      | .error f => (t, some f)
      | .ok w => (w, none)

/-- The shift of a compressed upload (R431 step 1). -/
def pkgShift (l : List Nat) : Int :=
  let m : Rat := (l.map fun v => |(w24.value v).getD 0|).foldl max 0
  w12cShift m

/-- The upload of R431: padding beyond the last element is free. -/
def State.pkgUpload (s : State) (c : Ctx) (e : Entry) (fmt : Nat) : Except Fail (List Byte × State) :=
  let d := e.desc
  (s.wRow c w24 (xreDst d) 0 (pkgN d)).map fun l =>
    let w := e.words c (xreStream d)
    let bs :=
      if fmt = 2 then w24.pack l
      else
        let sh := pkgShift l
        leBytes 1 (sh % 256).toNat ++ zeros 63 ++ w12.pack (l.zipIdx.map fun p =>
          if w24.value p.1 = some 0 ∧ bit p.1 23 = true then w12.nar + 1
          else (w12.roundOpt (if hBwd d then .sr (w.w16 0 p.2) else .rne) ((w24.value p.1).map fun y => y * pow2 sh)).code)
    let f := s.takeFree (pkgBuf fmt (pkgN d) - bs.length)
    (bs ++ f.1, f.2)

/-- The DST array sent down the DNPs to the children's announced addresses (R430 steps 5 and 6). -/
def State.pkgForward (s : State) (e : Entry) (bs : List Byte) : State :=
  (pkgKids e.desc).foldl (fun t k => match e.prog.arrived.find? fun p => decide (p.1 = k) with
    | some p => (t.addOut (.broadcast (3 + k) p.2 bs)).sendData (3 + k) bs
    | none => t) s

/-- What follows once arrivals and grant allow it: the result formed, the upload of a child, the broadcast of the root. -/
def State.pkgProceed (s : State) (c : Ctx) (u i : Nat) : State :=
  match s.entry? u i with
  | none => s
  | some e =>
    let d := e.desc
    let all := (pkgKids d).all fun k => e.prog.arrived.any fun p => decide (p.1 = k)
    let s1 : State × Bool :=
      if e.prog.pos = 0 ∧ all then
        let r := s.pkgForm c u d
        match r.2 with
        | some f => ((r.1.scramble (.desc c) (xreDst d) (3 * pkgN d)).endEntry u i (.fail f), false)
        | none => (r.1.setProg u i fun p => { p with pos := 1 }, true)
      else (s, decide (e.prog.pos = 1))
    if !s1.2 then s1.1
    else if e.prog.tiles = 0 then
      match s1.1.read (.desc c) (xreDst d) (3 * pkgN d) with
      | .error f => s1.1.endEntry u i (.fail f)
      | .ok bs => (s1.1.pkgForward e bs).endEntry u i (.ok 0)
    else
      match e.prog.grant with
      | none => s1.1
      | some q =>
        if e.prog.granted then s1.1
        else
          match s1.1.pkgUpload c e q.2.1.toNat with
          | .error f => s1.1.endEntry u i (.fail f)
          | .ok b =>
            let t := ((b.2.addOut (.upload 2 q.1 b.1 (BitVec.ofNat 48 (xreDst d)))).sendData 2 b.1).sendControl 2
            t.setProg u i fun p => { p with granted := true }

/-- PKGSUM (R430 step 1): grants to the children; `tiles` records whether the package is a child (R429). -/
def execPkgsum (u : Nat) (s : State) : Host.Outcome State Fault Refusal :=
  .next (s.startEngine u 9 5 (fun _ e => s.pkgWords e) fun _ c i e t =>
    let d := e.desc
    match t.pkgBody e with
    | some f => some (t.endEntry u i (.fail f))
    | none =>
      let t1 := (pkgKids d).foldl (fun t k =>
        (t.addOut (.grant (3 + k) (BitVec.ofNat 48 (pkgAt d k)) (BitVec.ofNat 8 (xreOfmt d)) (pkgN d))).sendControl (3 + k)) t
      some ((t1.setProg u i fun p => { p with tiles := b2n (t.portUp 2) }).pkgProceed c u i))

/-- The running PKGSUM of an XRE. -/
def State.pkgRun (s : State) (u : Nat) : Option (Nat × Entry × Ctx) :=
  match s.unit u, (s.engine u).running with
  | some x, some (i, e) => if x.eng = 9 ∧ hOp e.desc = 5 then (s.ctx? e.ctx).map fun c => (i, e, c) else none
  | _, _ => none

/-- PKGSUM_GRANT (R430 step 2). -/
def execPkgsumGrant (u : Nat) (addr : Addr) (fmt : Byte) (count : Nat) (s : State) : Host.Outcome State Fault Refusal :=
  match s.pkgRun u with
  | none => .next s
  | some (i, e, c) =>
    if decide (e.prog.tiles = 0) || e.prog.grant.isSome then .next s
    else if fmt.toNat ≠ (if s.xfmt then 3 else 2) ∨ count ≠ pkgN e.desc then
      .next (((s.addOut (.errorFlit 2)).sendControl 2).endEntry u i (.fail e.bus))
    else .next ((s.setProg u i fun p => { p with grant := some (addr, fmt, count) }).pkgProceed c u i)

/-- PKGSUM_ERROR_FLIT (R430 step 2). -/
def execPkgsumErrorFlit (u : Nat) (s : State) : Host.Outcome State Fault Refusal :=
  match s.pkgRun u with
  | none => .next s
  | some (i, e, _) => if xreCmask e.desc = 0 then .next s else .next (s.endEntry u i (.fail e.bus))

/-- PKGSUM_CHILD_ARRIVAL (R430 step 3): the array of a child lands in its receive buffer, with its announced DST. -/
def execPkgsumChildArrival (u child : Nat) (bytes : List Byte) (dst : Addr) (s : State) :
    Host.Outcome State Fault Refusal :=
  match s.pkgRun u with
  | none => .next s
  | some (i, e, c) =>
    let d := e.desc
    if decide (child ∈ pkgKids d) && !(e.prog.arrived.any fun p => decide (p.1 = child))
        && decide (bytes.length = pkgBuf (xreOfmt d) (pkgN d)) then
      match s.wr c (pkgAt d child) bytes with
      | .error f => .next (s.endEntry u i (.fail f))
      | .ok s1 => .next ((s1.setProg u i fun p => { p with arrived := p.arrived ++ [(child, dst)] }).pkgProceed c u i)
    else .next s

/-- PKGSUM_BROADCAST (R430 steps 6 and 7): the whole broadcast in a child's DST, forwarded; the descriptor completes. -/
def execPkgsumBroadcast (u : Nat) (bytes : List Byte) (s : State) : Host.Outcome State Fault Refusal :=
  match s.pkgRun u with
  | none => .next s
  | some (i, e, c) =>
    if e.prog.granted && decide (bytes.length = 3 * pkgN e.desc) then
      match s.wr c (xreDst e.desc) bytes with
      | .error f => .next ((s.scramble (.desc c) (xreDst e.desc) (3 * pkgN e.desc)).endEntry u i (.fail f))
      | .ok s1 => .next ((s1.pkgForward e bytes).endEntry u i (.ok 0))
    else .next s

end Sys2Proof.Machine
end

