-- ==== Sys2Proof/Machine/Dma.lean ====
section
/-! DEFINITION. DMA copies and streams (R352, R353, R358). -/

set_option Elab.async false

namespace Sys2Proof.Machine

/-! COPY (Table 14.2). -/

def cpySrc (d : List Byte) : Nat := fld d 16 6
def cpyDst (d : List Byte) : Nat := fld d 22 6
def cpyLen (d : List Byte) : Nat := fld d 28 4
def cpyRows (d : List Byte) : Nat := fld d 32 2
def cpySstr (d : List Byte) : Nat := fld d 34 4
def cpyDstr (d : List Byte) : Nat := fld d 38 4
def cpyZero (d : List Byte) : Bool := bit (fld d 42 1) 0

/-- The checks of R353. -/
def cpyBody (d : List Byte) : Bool :=
  decide (fld d 42 1 < 2) && zeroAt d 43 64 && decide (64 ≤ cpyLen d) && aligned 64 (cpyLen d) && decide (cpyRows d ≠ 0)
    && aligned 64 (cpySstr d) && aligned 64 (cpyDstr d) && (decide (cpyRows d = 1) || decide (cpyLen d ≤ cpyDstr d))
    && aligned 64 (cpySrc d) && aligned 64 (cpyDst d) && (!cpyZero d || decide (cpySrc d = 0)) && cclsOk d 1

/-- The direct addresses of the 64-byte lines of a strided range that an agent reaches. -/
def State.lines (s : State) (w : Who) (base stride len rows : Nat) : List Nat :=
  (List.range rows).flatMap fun r => (List.range (len / 64)).filterMap fun k =>
    match s.resolve w (base + r * stride + 64 * k) with
    | .ok p => some p
    | .error _ => none

/-- The destination lines that are source lines too are unspecified (R353). -/
def State.scrambleOverlap (s : State) (c : Ctx) (d : List Byte) : State :=
  if cpyZero d then s
  else
    let src := s.lines (.desc c) (cpySrc d) (cpySstr d) (cpyLen d) (cpyRows d)
    let dst := s.lines (.desc c) (cpyDst d) (cpyDstr d) (cpyLen d) (cpyRows d)
    (dst.filter fun p => decide (p ∈ src)).foldl (fun t p => let f := t.takeFree 64; f.2.setBytes p f.1) s

/-- Bytes of a range that lie in host memory. -/
def hostBytes (a n : Nat) : Nat := if 0x800000000000 ≤ a then n else 0

/-- DMA_CFG.PORT (R360). -/
def State.dmaPort (s : State) (u : Nat) : Nat := bits (s.cfg u 0x100 0x4000).toNat 1 0

/-- Bytes that DMA engine `u` has moved, as stacks and dies count them (R362, R387). -/
def State.dmaMoved (s : State) (c : Ctx) (u port : Nat) (src : Option Nat) (dst n : Nat) : State :=
  match s.unit u with
  | some x => s.moved (.desc c) x.die port src dst n
  | none => s

/-- Rows r onward, `n` of them; the source is read as it was at the start. -/
def State.cpyRun (s : State) (s0 : State) (c : Ctx) (u i : Nat) (e : Entry) : Nat → Nat → State
  | 0, _ => ((s.scrambleOverlap c e.desc).count u 1 1).endEntry u i (.ok 0)
  | n + 1, r =>
    let d := e.desc
    let dst := cpyDst d + r * cpyDstr d
    let fail := fun f => ((List.range (n + 1)).foldl (fun t k =>
      t.scramble (.desc c) (dst + k * cpyDstr d) (cpyLen d)) s).endEntry u i (.fail f)
    match if cpyZero d then .ok (zeros (cpyLen d)) else s0.read (.desc c) (cpySrc d + r * cpySstr d) (cpyLen d) with
    | .error f => fail f
    | .ok bs =>
      match s.wr c dst bs with
      | .error f => fail f
      | .ok s1 =>
        let s2 := (s1.count u 0 (if cpyZero d then 0 else cpyLen d)).count pgStkSvc 0 (hostBytes dst (cpyLen d))
        (s2.dmaMoved c u (s0.dmaPort u) (if cpyZero d then none else some (cpySrc d + r * cpySstr d)) dst (cpyLen d)).cpyRun
          s0 c u i e n (r + 1)

/-- COPY (R352). -/
def execDmaCopy (u : Nat) (s : State) : Host.Outcome State Fault Refusal :=
  .next (s.startEngine u 8 1 (fun _ _ => []) fun _ c i e t =>
    if cpyBody e.desc then some (t.cpyRun t c u i e (cpyRows e.desc) 0) else t.refuse u i e)

/-! STREAM (Table 14.5). -/

def strChunk (d : List Byte) : Nat := fld d 28 4
def strN (d : List Byte) : Nat := fld d 32 4
def strDist (d : List Byte) : Nat := fld d 36 1
def strAsync (d : List Byte) : Nat := fld d 38 2
def strCsync (d : List Byte) : Nat := fld d 40 2

/-- A sync number that names an object (R273). -/
def syncNamed (c : Ctx) (g n : Nat) : Bool :=
  match syncRef c g n with
  | .package _ => true
  | .loc _ => true
  | _ => false

/-- The checks of R358. -/
def strBody (c : Ctx) (e : Entry) : Bool :=
  let d := e.desc
  hExpert d && decide (64 ≤ strChunk d ∧ strChunk d ≤ 2 ^ 24) && aligned 64 (strChunk d) && decide (strN d ≠ 0)
    && decide (strDist d ≠ 0) && decide (fld d 37 1 = 0) && zeroAt d 42 64 && aligned 64 (fld d 16 6) && aligned 64 (fld d 22 6)
    && syncNamed c e.hearth (strAsync d) && syncNamed c e.hearth (strCsync d) && decide (strAsync d ≠ strCsync d) && cclsOk d 1

/-- STREAM (R358): records CSYNC's count and epoch. -/
def execStream (u : Nat) (s : State) : Host.Outcome State Fault Refusal :=
  .next (s.startEngine u 8 2 (fun _ _ => []) fun _ c i e t =>
    if strBody c e then
      let o := t.syncObj (syncRef c e.hearth (strCsync e.desc))
      some (t.setProg u i fun p => { p with c0 := o.count, e0 := o.epoch, pos := min (strDist e.desc) (strN e.desc), port := t.dmaPort u })
    else t.refuse u i e)

/-- STREAM_CHUNK (R358): the next chunk, once CSYNC shows room; `pos` counts the chunks that may have started. -/
def execStreamChunk (u : Nat) (s : State) : Host.Outcome State Fault Refusal :=
  match s.unit u, (s.engine u).running with
  | some x, some (i, e) =>
    match s.ctx? e.ctx with
    | none => .next s
    | some c =>
      let d := e.desc
      if !decide (x.eng = 8 ∧ hOp d = 2) then .next s
      else
        let o := s.syncObj (syncRef c e.hearth (strCsync d))
        let k := e.prog.tiles
        let dst := fun j => fld d 22 6 + j % strDist d * strChunk d
        let room := min (strN d) (strDist d + (o.count - e.prog.c0).toNat % 2 ^ 24)
        let fail := fun (n : Nat) f => ((List.range (n - k)).foldl (fun t j =>
          t.scramble (.desc c) (dst (k + j)) (strChunk d)) s).endEntry u i (.fail f)
        if o.epoch ≠ e.prog.e0 then .next (fail e.prog.pos e.bus)
        else if k < room then
          let n := max e.prog.pos room
          match s.read (.desc c) (fld d 16 6 + k * strChunk d) (strChunk d) with
          | .error f => .next (fail n f)
          | .ok bs =>
            match s.wr c (dst k) bs with
            | .error f => .next (fail n f)
            | .ok s1 =>
              let sm := (s1.count u 0 (strChunk d)).dmaMoved c u e.prog.port (some (fld d 16 6 + k * strChunk d)) (dst k) (strChunk d)
              let s2 := sm.signalFrom c e.hearth (strAsync d) false 1
              let s3 := s2.setProg u i fun p => { p with tiles := k + 1, pos := n }
              .next (if k + 1 = strN d then (s3.count u 1 1).endEntry u i (.ok 0) else s3)
        else .next s
  | _, _ => .next s

end Sys2Proof.Machine
end

