-- ==== Sys2Proof/Machine/Kv.lean ====
section
/-! DEFINITION. The key-value cache (R235 to R258): sequence table, pages and pool, page service, swap, KVREAD, KVWRITE and the
page requests they raise. -/

set_option Elab.async false

namespace Sys2Proof.Machine

/-! Sequence table (Tables 10.1, 10.2). -/

/-- Header of a sequence table. -/
structure Seqt where
  base : Nat
  mode : Nat
  kfmt : Nat
  hgw : Nat
  nseqt : Nat
  pool : Nat
  nlh : Nat
  deriving DecidableEq, Repr

def Seqt.ofBytes (base : Nat) (b : List Byte) : Seqt :=
  { base := base, mode := fld b 0 1, kfmt := fld b 1 1, hgw := fld b 2 2, nseqt := fld b 4 4, pool := fld b 8 6, nlh := fld b 14 2 }

/-- The header's fields are in their ranges (R235, R237). -/
def Seqt.ok (q : Seqt) : Bool :=
  decide (q.mode ≤ 1) && decide (q.hgw % 64 = 0 ∧ q.hgw ≠ 0)
    && (decide (q.kfmt = 1 ∧ q.hgw ≤ 512) || decide (q.kfmt = 3 ∧ q.hgw ≤ 640))
    && decide (1 ≤ q.nseqt ∧ q.nseqt ≤ 1048576 ∧ q.nlh ≠ 0)

/-- Bytes of a row (R235). -/
def Seqt.rb (q : Seqt) : Nat := if q.kfmt = 1 then align64 (q.hgw * 2) else align64 (q.hgw * 12 / 8)

def Seqt.recAt (q : Seqt) (slot : Nat) : Nat := q.base + 64 + 64 * slot

/-- A sequence record. -/
structure SeqRec where
  state : Nat
  prio : Nat
  len : Nat
  base : Nat
  cap : Nat
  lastuse : Nat
  refstamp : Nat
  swap : Nat
  deriving DecidableEq, Repr

def SeqRec.ofBytes (b : List Byte) : SeqRec :=
  { state := fld b 0 1 % 4, prio := bits (fld b 0 1) 3 2, len := fld b 4 4, base := fld b 8 6, cap := fld b 14 4,
    lastuse := fld b 18 5, refstamp := fld b 24 8, swap := fld b 32 6 }

def State.seqt (s : State) (w : Who) (base : Nat) : Except Fail Seqt := (s.read w base 64).map (Seqt.ofBytes base)

def State.seqRec (s : State) (w : Who) (q : Seqt) (slot : Nat) : Except Fail SeqRec :=
  (s.read w (q.recAt slot) 64).map SeqRec.ofBytes

/-- A field of `n` bytes written by a service. -/
def State.putVal (s : State) (w : Who) (a n v : Nat) : Except Fail State := s.write w a (leBytes n v)

def State.setSeqState (s : State) (w : Who) (q : Seqt) (slot : Nat) (r : SeqRec) (st : Nat) : Except Fail State :=
  s.putVal w (q.recAt slot) 1 (st + 4 * r.prio)

/-! Pages and the pool (R239 to R242, R249). -/

def pageNone : Nat := 0x0FFFFFFF
def entNone : Nat := pageNone

/-- A field of the pool record (Table 10.3). -/
def State.pool (s : State) (w : Who) (q : Seqt) (off n : Nat) : Except Fail Nat := s.readVal w (q.pool + off) n

/-- A 32-bit count of the pool record, saturating. -/
def State.poolBump (s : State) (w : Who) (q : Seqt) (off : Nat) : Except Fail State :=
  match s.pool w q off 4 with
  | .error f => .error f
  | .ok v => s.putVal w (q.pool + off) 4 (min 0xFFFFFFFF (v + 1))

/-- A page metadata word (Table 10.4). -/
structure PageWord where
  st : Nat
  fill : Nat
  gen : Nat
  pin : Nat
  ref : Nat
  deriving DecidableEq, Repr

def PageWord.ofNat (v : Nat) : PageWord :=
  { st := bits v 63 62, fill := bits v 61 56, gen := bits v 55 32, pin := bits v 31 24, ref := bits v 23 8 }

def PageWord.toNat (p : PageWord) : Nat :=
  p.st * 2 ^ 62 + p.fill * 2 ^ 56 + p.gen * 2 ^ 32 + p.pin * 2 ^ 24 + p.ref * 2 ^ 8

def State.pageMeta (s : State) (w : Who) (q : Seqt) (n : Nat) : Except Fail PageWord := do
  let a ← s.pool w q 6 6
  (s.readVal w (a + 8 * n) 8).map PageWord.ofNat

/-- One atomic change of a page's word (R240), counted by the base die. -/
def State.putMeta (s : State) (w : Who) (q : Seqt) (n : Nat) (p : PageWord) : Except Fail State := do
  let a ← s.pool w q 6 6
  let t ← s.putVal w (a + 8 * n) 8 p.toNat
  pure (t.countAtomic w (a + 8 * n))

def State.pageData (s : State) (w : Who) (q : Seqt) (n : Nat) : Except Fail Nat := do
  let a ← s.pool w q 0 6
  pure (a + 65536 * n)

/-- The next page of the ring, open with the given FILL and REF 1; none while NFREE = 0 (R239, Table 10.5). -/
def State.allocPage (s : State) (w : Who) (q : Seqt) (fill : Nat) : Except Fail (Option (Nat × State)) := do
  let free ← s.pool w q 26 4
  if free = 0 then pure none
  else
    let np ← s.pool w q 18 4
    let head ← s.pool w q 22 4
    let ring ← s.pool w q 12 6
    let n ← s.readVal w (ring + 4 * (head % max 1 np)) 4
    let m ← s.pageMeta w q n
    let s1 ← s.putVal w (q.pool + 22) 4 ((head + 1) % max 1 np)
    let s2 ← s1.putVal w (q.pool + 26) 4 (free - 1)
    let s3 ← s2.poolBump w q 40
    let s4 ← s3.putMeta w q n { m with st := 1, fill := fill, pin := 0, ref := 1 }
    pure (some (n, s4))

/-- The page returns to the ring's tail once REF and PIN are both 0 (R249). -/
def State.pageReturn (s : State) (w : Who) (q : Seqt) (n : Nat) (m : PageWord) : Except Fail State := do
  if m.ref = 0 ∧ m.pin = 0 then
    let free ← s.pool w q 26 4
    let np ← s.pool w q 18 4
    let head ← s.pool w q 22 4
    let ring ← s.pool w q 12 6
    let ret ← s.pool w q 32 8
    let s1 ← s.putMeta w q n { st := 0, fill := 0, gen := (m.gen + 1) % 2 ^ 24, pin := 0, ref := 0 }
    let s2 ← s1.putVal w (ring + 4 * ((head + free) % max 1 np)) 4 n
    let s3 ← s2.putVal w (q.pool + 26) 4 (free + 1)
    s3.putVal w (q.pool + 32) 8 ((ret + 1) % 2 ^ 64)
  else s.putMeta w q n m

/-- A reference dropped (Table 10.5). -/
def State.dropRef (s : State) (w : Who) (q : Seqt) (n : Nat) : Except Fail State := do
  let m ← s.pageMeta w q n
  s.pageReturn w q n { m with ref := m.ref - 1 }

/-! Page lists (R242). -/

def SeqRec.ent (r : SeqRec) (lh i : Nat) : Nat := r.base + (lh * r.cap + i) * 8
def entPage (v : Nat) : Nat := v % 2 ^ 28
def entGen (v : Nat) : Nat := bits v 51 28
def entOf (n gen : Nat) : Nat := gen * 2 ^ 28 + n

/-- What an entry names (R242). -/
inductive EntSt where
  | none
  | stale
  | page (n : Nat) (m : PageWord)
  deriving DecidableEq, Repr

def State.entState (s : State) (w : Who) (q : Seqt) (v : Nat) : Except Fail EntSt := do
  if entPage v = pageNone then pure .none
  else
    let np ← s.pool w q 18 4
    if np ≤ entPage v then pure .stale
    else
      let m ← s.pageMeta w q (entPage v)
      pure (if m.st ≠ 0 ∧ m.gen = entGen v then .page (entPage v) m else .stale)

def State.entAt (s : State) (w : Who) (q : Seqt) (r : SeqRec) (lh i : Nat) : Except Fail EntSt := do
  let v ← s.readVal w (r.ent lh i) 8
  s.entState w q v

/-- Every (lh, i) pair with i in [lo, hi), by lh then i. -/
def entPairs (nlh lo hi : Nat) : List (Nat × Nat) :=
  (List.range nlh).flatMap fun lh => (List.range (hi - lo)).map fun i => (lh, lo + i)

/-- `f` over pairs, stopping at the first failure. -/
def State.overPairs (s : State) (f : State → Nat → Nat → Except Fail State) : List (Nat × Nat) → Except Fail State
  | [] => .ok s
  | p :: r =>
    match f s p.1 p.2 with
    | .error e => .error e
    | .ok t => t.overPairs f r

/-- An entry's reference dropped where it is valid. -/
def State.dropEnt (s : State) (w : Who) (q : Seqt) (r : SeqRec) (lh i : Nat) : Except Fail State := do
  match ← s.entAt w q r lh i with
  | .page n _ => s.dropRef w q n
  | _ => pure s

/-! Running out of pages (R252, R253, R256). -/

/-- Who asked the page service: the fields of the event of a parked sequence. -/
structure KvSrc where
  ctx : Nat
  eng : Nat
  tag : BitVec 32
  hearth : Nat
  unit : Nat
  deriving DecidableEq, Repr

/-- A sequence parks with its event (R252, R256); the slot stands in bits [51:32] of DATA (Table 11.5). -/
def State.parkSeq (s : State) (c : Ctx) (k : KvSrc) (q : Seqt) (slot : Nat) (code : BitVec 16) (addr : Nat) :
    Except Fail State := do
  let w : Who := .service c
  let r ← s.seqRec w q slot
  let s1 ← s.setSeqState w q slot r 2
  let s2 ← if q.mode = 1 then s1.poolBump w q 48 else pure s1
  pure ((s2.memFail w { code := code, addr := BitVec.ofNat 48 addr }).event c.queue
    { etype := 0x04, res := .parked, ctx := k.ctx, eng := k.eng, tag := k.tag, err := code, hearth := k.hearth, unit := k.unit,
      addr := BitVec.ofNat 48 addr, beat := s2.slotBeat c.slot, data := zeros 4 ++ leBytes 4 slot })

/-- A victim swapped to host memory (R253): its pages copied entry by entry, then every reference dropped. -/
def State.swapOut (s : State) (w : Who) (q : Seqt) (slot : Nat) (r : SeqRec) : Except Fail State := do
  let ps := entPairs q.nlh 0 r.cap
  let s1 ← s.overPairs (fun s lh i => do
    match ← s.entAt w q r lh i with
    | .page n _ =>
      let a ← s.pageData w q n
      let bs ← s.read w a 65536
      s.write w (r.swap + (lh * r.cap + i) * 65536) bs
    | _ => pure s) ps
  let s2 ← s1.overPairs (fun s lh i => s.dropEnt w q r lh i) ps
  let s3 ← s2.setSeqState w q slot r 3
  s3.poolBump w q 52

/-- A candidate victim (R253). -/
def SeqRec.victim (r : SeqRec) (prio step slot me : Nat) : Bool :=
  decide (r.state = 1 ∧ prio ≤ r.prio ∧ r.swap ≠ 0 ∧ slot ≠ me) && after 40 step r.lastuse

/-- `a` goes before `b` as a victim: lower priority, then older, then lower slot. -/
def victimBefore (step : Nat) (a b : Nat × SeqRec) : Bool :=
  let age := fun (r : SeqRec) => (step + 2 ^ 40 - r.lastuse) % 2 ^ 40
  decide (b.2.prio < a.2.prio) || (decide (a.2.prio = b.2.prio) &&
    (decide (age b.2 < age a.2) || (decide (age a.2 = age b.2) && decide (a.1 < b.1))))

/-- The candidates in the order in which they are taken; records that cannot be read are none. -/
def State.victims (s : State) (w : Who) (q : Seqt) (prio step me : Nat) : List (Nat × SeqRec) :=
  let l := (List.range q.nseqt).filterMap fun k => match s.seqRec w q k with
    | .ok r => if r.victim prio step k me then some (k, r) else none
    | .error _ => none
  l.foldl (fun acc x => acc.filter (fun y => victimBefore step y x) ++ [x] ++ acc.filter (fun y => !victimBefore step y x)) []

/-- A page for `me`, swapping victims where the context allows it (R253): none when no page can be had. A victim that cannot be
copied is passed over. -/
def State.allocOrSwap (s : State) (c : Ctx) (q : Seqt) (fill prio me : Nat) : List (Nat × SeqRec) → Except Fail (Option (Nat × State) × State)
  | [] =>
    match s.allocPage (.service c) q fill with
    | .error f => .error f
    | .ok r => .ok (r, s)
  | v :: rest =>
    match s.allocPage (.service c) q fill with
    | .error f => .error f
    | .ok (some r) => .ok (some r, s)
    | .ok none =>
      match s.swapOut (.service c) q v.1 v.2 with
      | .ok s1 => s1.allocOrSwap c q fill prio me rest
      | .error _ => s.allocOrSwap c q fill prio me rest

/-- The page service's answer for one list entry. -/
inductive Grown where
  | ok (s : State)
  | noPage (s : State)
  | stale (s : State)
  | ue (s : State) (f : Fail)
  deriving DecidableEq

/-- A page taken for slot `me`. -/
def State.takePage (s : State) (c : Ctx) (q : Seqt) (r : SeqRec) (fill me : Nat) : Except Fail (Option (Nat × State) × State) :=
  let step := (s.slotBeat c.slot).step.toNat
  s.allocOrSwap c q fill r.prio me (if c.swapen then s.victims (.service c) q r.prio step me else [])

/-- The entry made writable (R247, R248): allocated where none, copied where sealed. -/
def State.growEnt (s : State) (c : Ctx) (q : Seqt) (slot : Nat) (r : SeqRec) (lh i : Nat) : Except Fail Grown := do
  let w : Who := .service c
  match ← s.entAt w q r lh i with
  | .stale => do
    let s1 ← s.poolBump w q 60
    pure (.stale s1)
  | .none => do
    match ← s.takePage c q r 0 slot with
    | (none, s1) => pure (.noPage s1)
    | (some (n, s1), _) => do
      let m ← s1.pageMeta w q n
      let s2 ← s1.putVal w (r.ent lh i) 8 (entOf n m.gen)
      pure (.ok s2)
  | .page p m =>
    if m.st = 1 then pure (.ok s)
    else do
      let a ← s.pageData w q p
      match s.read w a 65536 with
      | .error f => pure (.ue s f)
      | .ok bs => do
        match ← s.takePage c q r m.fill slot with
        | (none, s1) => pure (.noPage s1)
        | (some (n, s1), _) => do
          let b ← s1.pageData w q n
          let s2 ← s1.write w b bs
          let s3 := match s2.resolve w a with
            | .ok x => match s2.place x with
              | .stack k => (s2.count (pgStk k) 5 65536).nearMoved w k a b 65536
              | _ => s2
            | .error _ => s2
          let s4 ← s3.poolBump w q 44
          let m' ← s4.pageMeta w q n
          let s5 ← s4.putVal w (r.ent lh i) 8 (entOf n m'.gen)
          let s6 ← s5.dropRef w q p
          pure (.ok s6)

/-- GROW of listed entries; the first entry that cannot be had ends it. -/
def State.growAll (s : State) (c : Ctx) (q : Seqt) (slot : Nat) (r : SeqRec) : List (Nat × Nat) → Except Fail Grown
  | [] => .ok (.ok s)
  | p :: rest =>
    match s.growEnt c q slot r p.1 p.2 with
    | .error f => .error f
    | .ok (.ok t) => t.growAll c q slot r rest
    | .ok g => .ok g

/-! Requests (Table 10.6). -/

/-- The answer to a request: done, parked with its code, or failed at an address (none: the command's own line). -/
inductive KvAns where
  | done (s : State)
  | parked (s : State) (code : BitVec 16)
  | bad
  deriving DecidableEq

/-- OPEN: the record's SSTATE, LEN, BASE, CAP and SWAP are written; in KVMODE 1 every entry as none. -/
def State.kvOpen (s : State) (c : Ctx) (q : Seqt) (slot prio base cap swap : Nat) : Except Fail KvAns := do
  let w : Who := .service c
  let r ← s.seqRec w q slot
  if r.state ≠ 0 ∨ 3 < prio ∨ cap = 0 ∨ (if q.mode = 0 then 4194303 else 65535) < cap then pure .bad
  else
    let r' := { r with base := base, cap := cap }
    let s1 ← if q.mode = 1 then s.overPairs (fun s lh i => s.putVal w (r'.ent lh i) 8 entNone) (entPairs q.nlh 0 cap) else pure s
    let s2 ← s1.putVal w (q.recAt slot) 1 (1 + 4 * prio)
    let s3 ← s2.putVal w (q.recAt slot + 4) 4 0
    let s4 ← s3.putVal w (q.recAt slot + 8) 6 base
    let s5 ← s4.putVal w (q.recAt slot + 14) 4 cap
    let s6 ← s5.putVal w (q.recAt slot + 32) 6 swap
    pure (.done s6)

/-- FORK with the check of R244: d's list is at its own record's BASE and CAP (log 45). -/
def State.kvFork (s : State) (c : Ctx) (q : Seqt) (slot d len : Nat) : Except Fail KvAns := do
  let w : Who := .service c
  let r ← s.seqRec w q slot
  let rd ← s.seqRec w q d
  let n := ceilDiv len 32
  if q.mode ≠ 1 ∨ r.state ≠ 1 ∨ rd.state ≠ 0 ∨ r.len < len ∨ rd.cap < n then pure .bad
  else
    let ps := entPairs q.nlh 0 n
    let full ← ps.mapM fun p => do
      match ← s.entAt w q r p.1 p.2 with
      | .page _ m => pure (decide (m.ref = 65535))
      | _ => pure false
    if full.any id then pure .bad
    else
      let s1 ← s.overPairs (fun s lh i => do
        let v ← s.readVal w (r.ent lh i) 8
        let s1 ← s.putVal w (rd.ent lh i) 8 v
        match ← s1.entState w q v with
        | .page k m => s1.putMeta w q k { m with st := 2, ref := m.ref + 1 }
        | _ => pure s1) ps
      let s2 ← s1.overPairs (fun s lh i => s.putVal w (rd.ent lh i) 8 entNone) (entPairs q.nlh n rd.cap)
      let s3 ← s2.putVal w (q.recAt d + 4) 4 len
      let s4 ← s3.setSeqState w q d rd 1
      pure (.done s4)

def State.kvSeal (s : State) (c : Ctx) (q : Seqt) (slot : Nat) : Except Fail KvAns := do
  let w : Who := .service c
  let r ← s.seqRec w q slot
  if q.mode ≠ 1 ∨ r.state ≠ 1 then pure .bad
  else
    let s1 ← s.overPairs (fun s lh i => do
      match ← s.entAt w q r lh i with
      | .page n m => s.putMeta w q n { m with st := 2 }
      | _ => pure s) (entPairs q.nlh 0 r.cap)
    pure (.done s1)

/-- GROW: parks beyond the capacity and when no page can be had (R238, R252, R253). -/
def State.kvGrow (s : State) (c : Ctx) (k : KvSrc) (q : Seqt) (slot len : Nat) : Except Fail KvAns := do
  let w : Who := .service c
  let r ← s.seqRec w q slot
  let park := fun (s : State) (code : BitVec 16) (a : Nat) => do
    let t ← s.parkSeq c k q slot code a
    pure (KvAns.parked t code)
  if r.state ≠ 1 then pure .bad
  else if (if q.mode = 0 then r.cap else 32 * r.cap) < len then park s eNoPage (q.recAt slot)
  else if q.mode = 0 then pure (.done s)
  else
    match ← s.growAll c q slot r (entPairs q.nlh 0 (ceilDiv len 32)) with
    | .ok t => pure (.done t)
    | .noPage t => park t eNoPage (q.recAt slot)
    | .stale _ => pure .bad
    | .ue t f => park t f.code f.addr.toNat

def State.kvTrim (s : State) (c : Ctx) (q : Seqt) (slot len : Nat) : Except Fail KvAns := do
  let w : Who := .service c
  let r ← s.seqRec w q slot
  if (r.state ≠ 1 ∧ r.state ≠ 2) ∨ r.len < len then pure .bad
  else
    let s1 ← if q.mode = 1 then s.overPairs (fun s lh i => do
        let t ← s.dropEnt w q r lh i
        t.putVal w (r.ent lh i) 8 entNone) (entPairs q.nlh (ceilDiv len 32) r.cap) else pure s
    let s2 ← s1.putVal w (q.recAt slot + 4) 4 len
    pure (.done s2)

def State.kvFree (s : State) (c : Ctx) (q : Seqt) (slot : Nat) : Except Fail KvAns := do
  let w : Who := .service c
  let r ← s.seqRec w q slot
  if r.state = 0 then pure .bad
  else
    -- a swapped sequence has dropped its references already (R253)
    let s1 ← if q.mode = 1 ∧ r.state ≠ 3 then s.overPairs (fun s lh i => s.dropEnt w q r lh i) (entPairs q.nlh 0 r.cap) else pure s
    let s2 ← s1.setSeqState w q slot r 0
    pure (.done s2)

def State.kvResume (s : State) (c : Ctx) (q : Seqt) (slot : Nat) : Except Fail KvAns := do
  let w : Who := .service c
  let r ← s.seqRec w q slot
  if r.state ≠ 2 then pure .bad
  else
    let s1 ← s.setSeqState w q slot r 1
    pure (.done s1)

/-- The pages of a SWAPIN, each filled from the swap area; none when the pool runs short. -/
def State.swapFill (s : State) (w : Who) (q : Seqt) (r : SeqRec) : List (Nat × Nat) → Except Fail (Option State)
  | [] => .ok (some s)
  | p :: rest =>
    match s.readVal w (r.ent p.1 p.2) 8 with
    | .error f => .error f
    | .ok v =>
      if entPage v = pageNone then s.swapFill w q r rest
      else
        match s.allocPage w q (min 32 (r.len - 32 * p.2)) with
        | .error f => .error f
        | .ok none => .ok none
        | .ok (some (n, s1)) =>
          let t : Except Fail State := do
            let bs ← s1.read w (r.swap + (p.1 * r.cap + p.2) * 65536) 65536
            let a ← s1.pageData w q n
            let s2 ← s1.write w a bs
            let m ← s2.pageMeta w q n
            s2.putVal w (r.ent p.1 p.2) 8 (entOf n m.gen)
          match t with
          | .error f => .error f
          | .ok s3 => s3.swapFill w q r rest

/-- SWAPIN: the saved entries are those of the list that name a page (log 45); short of pages, nothing changes but the pages'
generations, since every page taken is returned. -/
def State.kvSwapin (s : State) (c : Ctx) (q : Seqt) (slot : Nat) : Except Fail KvAns := do
  let w : Who := .service c
  let r ← s.seqRec w q slot
  if r.state ≠ 3 then pure .bad
  else
    match ← s.swapFill w q r (entPairs q.nlh 0 r.cap) with
    | some s1 => do
      let s2 ← s1.setSeqState w q slot r 1
      pure (.done s2)
    | none => do
      -- every page taken is returned: the free pages are taken and returned in ring order (Table 10.5)
      let free ← s.pool w q 26 4
      let s1 ← (List.range free).foldlM (fun (s : State) _ => do
        match ← s.allocPage w q 0 with
        | some (n, t) => t.dropRef w q n
        | none => pure s) s
      pure (.parked s1 eNoPage)

/-- A list refreshed (R251): how many entries were rewritten as none. Saved entries of a swapped slot stay (log 45). -/
def State.refreshList (s : State) (c : Ctx) (q : Seqt) (slot : Nat) : Except Fail (State × Nat) := do
  let w : Who := .service c
  let r ← s.seqRec w q slot
  if q.mode ≠ 1 ∨ r.cap = 0 ∨ r.state = 3 then pure (s, 0)
  else
    let st ← (entPairs q.nlh 0 r.cap).mapM fun p => do
      match ← s.entAt w q r p.1 p.2 with
      | .stale => pure (some p)
      | _ => pure none
    let bad := st.filterMap id
    let s1 ← s.overPairs (fun s lh i => do
      let t ← s.putVal w (r.ent lh i) 8 entNone
      t.poolBump w q 60) bad
    let ret ← s1.pool w q 32 8
    let s2 ← s1.putVal w (q.recAt slot + 24) 8 ret
    let s3 ← s2.poolBump w q 56
    pure (s3, bad.length)

/-- The refresh of a slot is due (R251). -/
def State.refreshDue (s : State) (c : Ctx) (q : Seqt) (slot : Nat) : Bool :=
  match s.seqRec (.service c) q slot, s.pool (.service c) q 32 8 with
  | .ok r, .ok n => decide (q.mode = 1) && decide (2 ^ 22 ≤ (n + 2 ^ 64 - r.refstamp) % 2 ^ 64)
  | _, _ => false

/-- The context's own sequence table. -/
def State.ctxSeqt (s : State) (c : Ctx) : Option Seqt :=
  if blkSeqt c.block = 0 then none
  else match s.seqt (.service c) (blkSeqt c.block) with
    | .ok q => some q
    | .error _ => none

/-- LIST_REFRESH (R251). -/
def execListRefresh (ctx slot : Nat) (s : State) : Host.Outcome State Fault Refusal :=
  match s.ctx? ctx with
  | none => .next s
  | some c =>
    match s.ctxSeqt c with
    | none => .next s
    | some q =>
      if s.refreshDue c q slot && decide (slot < q.nseqt) then
        match s.refreshList c q slot with
        | .ok r => .next r.1
        | .error _ => .next s
      else .next s

/-! KV descriptors (Table 10.8, R257 to R259). -/

def kvEnt (e : Entry) (b : Nat) : Nat := e.base + fld e.desc 16 3 + 8 * b
def kvBuf (e : Entry) : Nat := e.base + fld e.desc 19 3
def kvSeqt (d : List Byte) : Nat := fld d 22 6
def kvNe (d : List Byte) : Nat := fld d 28 2
def kvLh (d : List Byte) : Nat := fld d 30 2
def kvPbase (d : List Byte) : Nat := fld d 32 3
def kvNpos (d : List Byte) : Nat := fld d 35 2
def kvZpad (d : List Byte) : Bool := bit (fld d 37 1) 7

/-- The checks of R259 on the body alone. -/
def kvForm (d : List Byte) : Bool :=
  decide (1 ≤ kvNe d ∧ kvNe d ≤ 4096 ∧ 1 ≤ kvNpos d ∧ kvNpos d ≤ 8192) && decide (fld d 37 1 % 128 = 0) && zeroAt d 38 64
    && aligned 64 (fld d 16 3) && aligned 64 (fld d 19 3) && aligned 64 (kvSeqt d) && cclsOk d 1
    && (decide (hOp d = 0x10) || (!kvZpad d && decide (kvPbase d = 0)))

/-- The table header of a KV descriptor that passes R259. -/
def State.kvTable (s : State) (c : Ctx) (e : Entry) : Except Fail Seqt :=
  let d := e.desc
  if !kvForm d then .error e.bus
  else
    match s.seqt (.desc c) (kvSeqt d) with
    | .error f => .error f
    | .ok q => if q.ok && decide (kvLh d < q.nlh) && (decide (q.mode = 0) || hExpert d) then .ok q else .error e.bus

/-- The buffer addresses of the K and V rows of position index j of work entry b (R258). -/
def kvBufK (e : Entry) (rb b j : Nat) : Nat := kvBuf e + (b * kvNpos e.desc + j) * rb
def kvBufV (e : Entry) (rb b j : Nat) : Nat := kvBuf e + ((kvNe e.desc + b) * kvNpos e.desc + j) * rb

/-- Addresses of the K and V rows of a position: in the region (R238), or in a page. -/
def kvRegion (q : Seqt) (r : SeqRec) (lh p : Nat) : Nat × Nat :=
  (r.base + ((2 * lh) * r.cap + p) * q.rb, r.base + ((2 * lh + 1) * r.cap + p) * q.rb)

def State.kvPaged (s : State) (w : Who) (q : Seqt) (n p : Nat) : Except Fail (Nat × Nat) :=
  (s.pageData w q n).map fun a => (a + 1024 * (p % 32), a + 32768 + 1024 * (p % 32))

/-- OUT and ERR written into a work entry (R245), the lowest ERR kept for the completion (R259). -/
def State.kvFinish (s : State) (c : Ctx) (u i : Nat) (e : Entry) (b out : Nat) (err : BitVec 16) : Except Fail State := do
  let v ← s.rd c (kvEnt e b) 8
  let t ← s.wr c (kvEnt e b) (leBytes 8 (v % 2 ^ 44 + err.toNat * 2 ^ 44 + out * 2 ^ 60))
  let t1 := t.setProg u i fun p => { p with parked := (lowCode (BitVec.ofNat 16 p.parked) err).toNat }
  pure (if out = 4 then t1.count u 6 1 else t1)

/-- The source of page-service requests of a descriptor. -/
def Entry.kvSrc (e : Entry) (c : Ctx) (x : EngUnit) : KvSrc :=
  { ctx := e.ctx, eng := 8, tag := hTag e.desc, hearth := (c.localHearth e.hearth).getD 0xFFFF, unit := e.unitByte x }

/-- Step 1 of R246: why the slot's state ends the work entry. -/
def kvSlotStop (r : SeqRec) : Option (Nat × BitVec 16) :=
  if r.state = 1 then none else if r.state = 0 then some (3, eBusErr) else some (4, eNoPage)

/-! KVREAD (R246). -/

/-- Pins released (R246 step 4, R249): each an atomic change of its page's word; a page left without references returns. -/
def State.unpin (s : State) (w : Who) (q : Seqt) : List Nat → Except Fail State
  | [] => .ok s
  | n :: r =>
    let t : Except Fail State := do
      let m ← s.pageMeta w q n
      s.pageReturn w q n { m with pin := m.pin - 1 }
    match t with
    | .error f => .error f
    | .ok t => t.unpin w q r

/-- How a walk ends (R246 step 2, R249). -/
inductive KvPins where
  /-- Every page is pinned. -/
  | all (s : State) (pins : List Nat)
  /-- An entry is not valid: its pin is refused. -/
  | refused (s : State) (pins : List Nat)
  /-- A page has PIN 255: the walk waits. -/
  | full (s : State) (pins : List Nat)
  deriving DecidableEq

/-- The walk over list entries `i` onward, `n` of them: each valid page is pinned by one atomic operation. -/
def State.kvPin (s : State) (c : Ctx) (u : Nat) (q : Seqt) (r : SeqRec) (lh : Nat) : Nat → Nat → List Nat → Except Fail KvPins
  | 0, _, pins => .ok (.all s pins)
  | n + 1, i, pins =>
    match s.entAt (.desc c) q r lh i with
    | .error f => .error f
    | .ok (.page k m) =>
      if m.pin = 255 then .ok (.full s pins)
      else
        match s.putMeta (.service c) q k { m with pin := m.pin + 1 } with
        | .error f => .error f
        | .ok t => (t.count u 2 1).kvPin c u q r lh n (i + 1) (pins ++ [k])
    | .ok _ => .ok (.refused (s.count u 2 1) pins)

/-- The row addresses of positions `lo` onward, `n` of them: in the region, or in the pinned pages. -/
def State.kvRows (s : State) (c : Ctx) (q : Seqt) (r : SeqRec) (lh lo n : Nat) (pins : List Nat) : Except Fail (List (Nat × Nat)) :=
  (List.range n).mapM fun j =>
    let p := lo + j
    if q.mode = 0 then .ok (kvRegion q r lh p) else s.kvPaged (.desc c) q (pins.getD (p / 32 - lo / 32) 0) p

/-- The K and V rows at addresses. -/
def State.kvGather (s : State) (c : Ctx) (q : Seqt) (l : List (Nat × Nat)) : Except Fail (List (List Byte × List Byte)) :=
  l.mapM fun a => do
    let k ← s.read (.desc c) a.1 q.rb
    let v ← s.read (.desc c) a.2 q.rb
    pure (k, v)

/-- The K and V rows of position indices j onward written to the buffer; the rest +0 with ZPAD. -/
def State.kvPutRows (s : State) (c : Ctx) (e : Entry) (rb b : Nat) (rows : List (List Byte × List Byte)) : Except Fail State :=
  (List.range (kvNpos e.desc)).foldlM (fun (s : State) j =>
    match rows[j]? with
    | some x => do
      let t ← s.wr c (kvBufK e rb b j) x.1
      t.wr c (kvBufV e rb b j) x.2
    | none =>
      if kvZpad e.desc then do
        let t ← s.wr c (kvBufK e rb b j) (zeros rb)
        t.wr c (kvBufV e rb b j) (zeros rb)
      else pure s) s

/-- List entries that positions [lo, hi) touch. -/
def kvSpan (lo hi : Nat) : Nat := if hi ≤ lo then 0 else (hi - 1) / 32 - lo / 32 + 1

/-- A step of a KVREAD: the work entry is finished, or its walk waits. -/
inductive KvRd where
  | done (s : State)
  | wait (s : State)
  deriving DecidableEq

/-- Steps 3 and 4 of R246 for work entry `b`, its pages pinned. -/
def State.kvReadRows (s : State) (c : Ctx) (x : EngUnit) (u i : Nat) (e : Entry) (q : Seqt) (b slot : Nat) (r : SeqRec)
    (pins : List Nat) : Except Fail State := do
  let d := e.desc
  let n := min (kvPbase d + kvNpos d) r.len - kvPbase d
  let l ← s.kvRows c q r (kvLh d) (kvPbase d) n pins
  match s.kvGather c q l with
  | .error f =>
    if f.code = eMemUe then do
      let s1 ← s.unpin (.service c) q pins
      let t ← s1.parkSeq c (e.kvSrc c x) q slot f.code f.addr.toNat
      t.kvFinish c u i e b 4 eMemUe
    else .error f
  | .ok rows => do
    let t ← s.kvPutRows c e q.rb b rows
    let s1 ← t.unpin (.service c) q pins
    let pad := if kvZpad d then 2 * (kvNpos d - n) else 0
    ((s1.count u 0 (2 * n * q.rb)).count u 4 pad).kvFinish c u i e b 0 0

/-- The walk of work entry `b` from its pins `pins` on. -/
def State.kvWalk (s : State) (c : Ctx) (x : EngUnit) (u i : Nat) (e : Entry) (q : Seqt) (b slot : Nat) (r : SeqRec)
    (pins : List Nat) : Except Fail KvRd := do
  let d := e.desc
  let lo := kvPbase d / 32 + pins.length
  match ← s.kvPin c u q r (kvLh d) (kvSpan (kvPbase d) (min (kvPbase d + kvNpos d) r.len) - pins.length) lo pins with
  | .all t l => do
    let t1 ← t.kvReadRows c x u i e q b slot r l
    pure (.done t1)
  | .refused t l => do
    let s1 ← t.unpin (.service c) q l
    let s2 ← s1.poolBump (.service c) q 60
    let s3 ← s2.kvFinish c u i e b 3 eBusErr
    pure (.done s3)
  | .full t l => pure (.wait (t.setProg u i fun p => { p with walk := some ⟨r.len, r.base, r.cap, l⟩ }))

/-- Work entry `b` of a KVREAD: begun, or taken up again where its walk waited, with the record's fields as it read them. -/
def State.kvReadOne (s : State) (c : Ctx) (x : EngUnit) (u i : Nat) (e : Entry) (q : Seqt) (b : Nat) (w : Option Walk) :
    Except Fail KvRd := do
  let d := e.desc
  let v ← s.rd c (kvEnt e b) 8
  let slot := v % 2 ^ 20
  let finish := fun (s : State) out err => do
    let t ← s.kvFinish c u i e b out err
    pure (KvRd.done t)
  if q.nseqt ≤ slot then finish s 3 eBusErr
  else
    let r ← s.seqRec (.desc c) q slot
    match w with
    | some k => s.kvWalk c x u i e q b slot { r with len := k.len, base := k.base, cap := k.cap } k.pins
    | none =>
      match kvSlotStop r with
      | some z => finish s z.1 z.2
      | none =>
        let s0 ← s.putVal (.service c) (q.recAt slot + 18) 5 e.startBeat.step.toNat
        if q.mode = 0 then
          if r.cap < min (kvPbase d + kvNpos d) r.len then finish s0 3 eBusErr
          else do
            let t ← s0.kvReadRows c x u i e q b slot r []
            pure (.done t)
        else s0.kvWalk c x u i e q b slot r []

/-- The pins of a waiting walk released; those of pages that cannot be reached stay. -/
def State.dropWalk (s : State) (c : Ctx) (e : Entry) : State :=
  match e.prog.walk, s.kvTable c e with
  | some k, .ok q => onOk (s.unpin (.service c) q k.pins) (fun _ => s) id
  | _, _ => s

/-- Work entries b onward, until one waits. A failure leaves the rows of its own entry unspecified, and its pins are released
(R259). -/
def State.kvReadRun (s : State) (c : Ctx) (x : EngUnit) (u i : Nat) (e : Entry) (q : Seqt) : Nat → Nat → Option Walk → State
  | 0, _, _ =>
    let code := match s.entry? u i with
      | some y => BitVec.ofNat 16 y.prog.parked
      | none => 0
    (s.count u 1 1).endEntry u i (.ok code)
  | n + 1, b, w =>
    onOk (s.kvReadOne c x u i e q b w) (fun f =>
        let t := (s.dropWalk c e).scramble (.desc c) (kvBufK e q.rb b 0) (kvNpos e.desc * q.rb)
        (t.scramble (.desc c) (kvBufV e q.rb b 0) (kvNpos e.desc * q.rb)).endEntry u i (.fail f))
      fun r => match r with
        | .done t => (t.setProg u i fun p => { p with pos := b + 1, walk := none }).kvReadRun c x u i e q n (b + 1) none
        | .wait t => t

/-- A KVREAD whose walk waits on engine `u` goes on where it stopped. -/
def State.kvReadOn (s : State) (u : Nat) : Option State :=
  match s.unit u, (s.engine u).running with
  | some x, some (i, e) =>
    match s.ctx? e.ctx, e.prog.walk with
    | some c, some w =>
      match s.kvTable c e with
      | .ok q => some (s.kvReadRun c x u i e q (kvNe e.desc - e.prog.pos) e.prog.pos (some w))
      | .error f => some (s.endEntry u i (.fail f))
    | _, _ => none
  | _, _ => none

/-- KVREAD (R246): pins are taken, the rows copied and the pins released within the command, unless a walk must wait (R249): a
further KVREAD command on the engine takes it up again (log 141). -/
def execKvread (u : Nat) (s : State) : Host.Outcome State Fault Refusal :=
  .next (match s.kvReadOn u with
    | some t => t
    | none => s.startEngine u 8 0x10 (fun _ _ => []) fun x c i e t =>
      match t.kvTable c e with
      | .error f => some (t.endEntry u i (.fail f))
      | .ok q => some (t.kvReadRun c x u i e q (kvNe e.desc) 0 none))

/-! KVWRITE (R247). -/

/-- How far a work entry has come. -/
inductive KvWr where
  | done (s : State)
  | wait (s : State)
  deriving DecidableEq

/-- The rows of positions [p, p + n) of a work entry written at addresses; position index j0 first. -/
def State.kvPutPos (s : State) (c : Ctx) (e : Entry) (q : Seqt) (b : Nat) (at_ : Nat → Except Fail (Nat × Nat)) (p0 : Nat) :
    List Nat → Except Fail State
  | [] => .ok s
  | p :: rest =>
    let t : Except Fail State := do
      let k ← s.read (.desc c) (kvBufK e q.rb b (p - p0)) q.rb
      let v ← s.read (.desc c) (kvBufV e q.rb b (p - p0)) q.rb
      let a ← at_ p
      let s1 ← s.wr c a.1 k
      s1.wr c a.2 v
    match t with
    | .error f => .error f
    | .ok s1 => s1.kvPutPos c e q b at_ p0 rest

/-- Positions of [lo, hi) in list entry i. -/
def kvInEnt (lo hi i : Nat) : List Nat :=
  (List.range 32).filterMap fun k => let p := 32 * i + k; if lo ≤ p ∧ p < hi then some p else none

/-- List entries k onward of a work entry: open pages take their rows, a none or sealed entry raises a page request. -/
def State.kvWriteEnts (s : State) (c : Ctx) (u i : Nat) (e : Entry) (q : Seqt) (b slot p0 : Nat) (r : SeqRec) :
    Nat → Nat → Except Fail KvWr
  | 0, _ => do
    let hi := p0 + kvNpos e.desc
    let s1 ← s.putVal (.service c) (q.recAt slot + 4) 4 (max r.len hi)
    let s2 ← s1.putVal (.service c) (q.recAt slot + 18) 5 e.startBeat.step.toNat
    let s3 ← s2.kvFinish c u i e b 0 0
    pure (.done (s3.setProg u i fun p => { p with pos := b + 1, tiles := 0 }))
  | n + 1, k => do
    let hi := p0 + kvNpos e.desc
    let ix := p0 / 32 + k
    let ask := fun (s : State) (copy : Bool) =>
      KvWr.wait (({ s with pageReqs := s.pageReqs ++
        [({ u := u, desc := e.addr, ctx := e.ctx, seq := slot, lh := kvLh e.desc, pos := ix, copy := copy } : PageReq)] }).count u 5 1)
    match ← s.entAt (.desc c) q r (kvLh e.desc) ix with
    | .none => pure (ask s false)
    | .stale => do
      let s1 ← s.poolBump (.service c) q 60
      let s2 ← s1.kvFinish c u i e b 3 eBusErr
      pure (.done (s2.setProg u i fun p => { p with pos := b + 1, tiles := 0 }))
    | .page pg m =>
      if m.st ≠ 1 then pure (ask s true)
      else
        let l := kvInEnt p0 hi ix
        let s1 ← s.kvPutPos c e q b (fun p => s.kvPaged (.desc c) q pg p) p0 l
        let s2 ← s1.putMeta (.service c) q pg { m with fill := max m.fill ((l.map fun p => p % 32 + 1).foldl max 0) }
        let s3 := ((s2.count u 0 (2 * l.length * q.rb)).count u 2 1).setProg u i fun p => { p with tiles := k + 1 }
        s3.kvWriteEnts c u i e q b slot p0 r n (k + 1)

/-- Work entry b of a KVWRITE, from the list entry reached. -/
def State.kvWriteOne (s : State) (c : Ctx) (x : EngUnit) (u i : Nat) (e : Entry) (q : Seqt) (b k : Nat) : Except Fail KvWr := do
  let v ← s.rd c (kvEnt e b) 8
  let slot := v % 2 ^ 20
  let p0 := bits v 41 20
  let hi := p0 + kvNpos e.desc
  let finish := fun (s : State) out err => do
    let t ← s.kvFinish c u i e b out err
    pure (KvWr.done (t.setProg u i fun p => { p with pos := b + 1, tiles := 0 }))
  if q.nseqt ≤ slot then finish s 3 eBusErr
  else
    let r ← s.seqRec (.desc c) q slot
    match kvSlotStop r with
    | some z => finish s z.1 z.2
    | none =>
      if (if q.mode = 0 then r.cap else 32 * r.cap) < hi then do
        let t ← s.parkSeq c (e.kvSrc c x) q slot eNoPage (q.recAt slot)
        finish t 4 eNoPage
      else if q.mode = 0 then do
        let t ← s.kvPutPos c e q b (fun p => .ok (kvRegion q r (kvLh e.desc) p)) p0 ((List.range (kvNpos e.desc)).map fun j => p0 + j)
        let t1 := t.count u 0 (2 * kvNpos e.desc * q.rb)
        t1.kvWriteEnts c u i e q b slot p0 r 0 0
      else s.kvWriteEnts c u i e q b slot p0 r (kvSpan p0 hi - k) k

/-- Work entries b onward, until one waits for the page service. -/
def State.kvWriteRun (s : State) (c : Ctx) (x : EngUnit) (u i : Nat) (e : Entry) (q : Seqt) : Nat → Nat → Nat → State
  | 0, _, _ =>
    let code := match s.entry? u i with
      | some y => BitVec.ofNat 16 y.prog.parked
      | none => 0
    (s.count u 1 1).endEntry u i (.ok code)
  | n + 1, b, k =>
    onOk (s.kvWriteOne c x u i e q b k) (fun f => s.endEntry u i (.fail f)) fun r =>
      match r with
      | .wait t => t
      | .done t => t.kvWriteRun c x u i e q n (b + 1) 0

/-- KVWRITE (R247). -/
def execKvwrite (u : Nat) (s : State) : Host.Outcome State Fault Refusal :=
  .next (s.startEngine u 8 0x11 (fun _ _ => []) fun x c i e t =>
    match t.kvTable c e with
    | .error f => some (t.endEntry u i (.fail f))
    | .ok q => some (t.kvWriteRun c x u i e q (kvNe e.desc) 0 0))

/-! Page requests of descriptors (R243, R247, R248). -/

/-- The oldest page request with its running descriptor. -/
def State.pageHead (s : State) : Option (PageReq × Nat × Entry × EngUnit × Ctx) :=
  match s.pageReqs with
  | [] => none
  | r :: _ =>
    match s.unit r.u, (s.engine r.u).running, s.ctx? r.ctx with
    | some x, some (i, e), some c => if e.addr = r.desc ∧ e.ctx = r.ctx then some (r, i, e, x, c) else none
    | _, _, _ => none

/-- The walk goes on where it stopped. -/
def State.kvGoOn (s : State) (c : Ctx) (x : EngUnit) (u i : Nat) (q : Seqt) : State :=
  match s.entry? u i with
  | none => s
  | some e => s.kvWriteRun c x u i e q (kvNe e.desc - e.prog.pos) e.prog.pos e.prog.tiles

/-- The work entry ends while it waits. -/
def State.kvGiveUp (s : State) (c : Ctx) (x : EngUnit) (r : PageReq) (i : Nat) (e : Entry) (q : Seqt) (code : BitVec 16) (a : Nat) :
    Except Fail State := do
  let t ← s.parkSeq c (e.kvSrc c x) q r.seq code a
  let t1 ← t.kvFinish c r.u i e e.prog.pos 4 code
  pure ((t1.setProg r.u i fun p => { p with pos := e.prog.pos + 1, tiles := 0 }).kvGoOn c x r.u i q)

/-- The page service's answer to a request, and where the walk stands after it. A slot that is no longer active changes nothing
(R243); its work entry ends as step 1 of R246 says. -/
def State.pageAnswer (s : State) (c : Ctx) (x : EngUnit) (r : PageReq) (i : Nat) (e : Entry) : Except Fail State := do
  let q ← s.seqt (.service c) (kvSeqt e.desc)
  let rc ← s.seqRec (.service c) q r.seq
  if rc.state ≠ 1 then pure (s.kvGoOn c x r.u i q)
  else
  match ← s.growEnt c q r.seq rc r.lh r.pos with
  | .ok t => pure (t.kvGoOn c x r.u i q)
  | .noPage t => t.kvGiveUp c x r i e q eNoPage (q.recAt r.seq)
  | .ue t f => t.kvGiveUp c x r i e q f.code f.addr.toNat
  | .stale t => pure (t.kvGoOn c x r.u i q)

/-- The service of the oldest request, where it asks for a copy (`copy`) or an allocation. -/
def State.servePage (s : State) (copy : Bool) : State :=
  match s.pageHead with
  | none => s
  | some (r, i, e, x, c) =>
    if r.copy ≠ copy then s
    else
      let s0 := { s with pageReqs := s.pageReqs.drop 1 }
      onOk (s0.pageAnswer c x r i e) (fun f => s0.endEntry r.u i (.fail f)) id

/-- PAGE_ALLOCATION_REQUEST (R247). -/
def execPageAllocationRequest (s : State) : Host.Outcome State Fault Refusal := .next (s.servePage false)

/-- COPY_ON_WRITE (R248). -/
def execCopyOnWrite (s : State) : Host.Outcome State Fault Refusal := .next (s.servePage true)

end Sys2Proof.Machine
end

