-- ==== Sys2Proof/Machine/Abort.lean ====
section
/-! DEFINITION. The abort of a context's descriptors (R298). -/

set_option Elab.async false

namespace Sys2Proof.Machine

/-- Bytes of the destination ranges of a running descriptor whose engine writes in more than one step (FTA, BWA, PKGSUM, STREAM;
the other engines' rows write whole): address and length. -/
def Entry.destRanges (e : Entry) : List (Nat × Nat) :=
  let d := e.desc
  match hEng d, hOp d with
  | 1, _ =>
    if bit (ftaCtl d) 12 then []
    else
      let c := if ftaShape d = 0 then 64 else 32
      [(e.base + fld d 43 3, fld d 49 1 * (fld d 50 2 * c) * (if fld d 60 1 = 2 then 3 else 2))]
  | 2, _ =>
    if bit (bwaCtl d) 13 then []
    else
      let n := bwaMT d * 32 * (bwaNT d * bwaC d)
      [(e.base + fld d 28 3, match bits (bwaCtl d) 3 2 with
        | 0 => 2 * n
        | 1 => 3 * n
        | _ => (12 * n + 7) / 8)]
  | 9, 5 => [(fld d 26 6, 3 * fld d 38 6)]
  | 8, 2 => (List.range (e.prog.pos - e.prog.tiles)).map fun k =>
      (fld d 22 6 + (e.prog.tiles + k) % (max 1 (fld d 36 1)) * fld d 28 4, fld d 28 4)
  | _, _ => []

/-- The buffer rows of the work entry whose walk a KVREAD has not finished. -/
def State.kvReadDest (s : State) (c : Ctx) (e : Entry) : List (Nat × Nat) :=
  match s.kvTable c e with
  | .error _ => []
  | .ok q => [(kvBufK e q.rb e.prog.pos 0, kvNpos e.desc * q.rb), (kvBufV e q.rb e.prog.pos 0, kvNpos e.desc * q.rb)]

/-- The rows that a KVWRITE may still write: its region's, or those of open pages. -/
def State.kvDest (s : State) (c : Ctx) (e : Entry) : List (Nat × Nat) :=
  match s.kvTable c e with
  | .error _ => []
  | .ok q => (List.range (kvNe e.desc)).flatMap fun b =>
    match s.rd c (kvEnt e b) 8 with
    | .error _ => []
    | .ok v =>
      match s.seqRec (.desc c) q (v % 2 ^ 20) with
      | .error _ => []
      | .ok r => (List.range (kvNpos e.desc)).flatMap fun j =>
        let p := bits v 41 20 + j
        let a := if q.mode = 0 then some (kvRegion q r (kvLh e.desc) p)
          else match s.entAt (.desc c) q r (kvLh e.desc) (p / 32) with
            | .ok (.page n m) => if m.st = 1 then
                match s.kvPaged (.desc c) q n p with
                | .ok x => some x
                | .error _ => none
              else none
            | _ => none
        match a with
        | some x => [(x.1, q.rb), (x.2, q.rb)]
        | none => []

/-- Unspecified bytes of a running descriptor's destination, and its pins released (R298; log 10). -/
def State.scrambleDest (s : State) (c : Ctx) (e : Entry) : State :=
  if e.started && e.ended.isNone then
    let l := if hEng e.desc = 8 ∧ hOp e.desc = 0x11 then s.kvDest c e
      else if hEng e.desc = 8 ∧ hOp e.desc = 0x10 then s.kvReadDest c e else e.destRanges
    l.foldl (fun t r => t.scramble (.desc c) r.1 r.2) (s.dropWalk c e)
  else s

/-- The status of an ended descriptor that an abort reaches (R298): DONE_BEFORE_ABORT where the completion was committed. -/
def Status.aborted (st : Status) : Status := if st.res = .done then { st with res := .doneBeforeAbort } else st

/-- The status with which an abort ends an entry (R298). -/
def Entry.abortStatus (e : Entry) : Status :=
  match e.ended with
  | none => .abort
  | some st => st.aborted

def State.setStep (s : State) (ctx : Nat) (f : StepRec → StepRec) : State :=
  match s.ctx? ctx with
  | none => s
  | some c => s.setCtx ctx (some { c with step := c.step.map f })

/-- A trouble flag, or a flag counted in phase 0xFFFF: its code, with the TAG and STREAM reported (R75, R222, R221). -/
def State.addFlag (s : State) (ctx : Nat) (code : BitVec 16) (tag stream : Option (BitVec 32)) (commit : Bool) : State :=
  s.setStep ctx fun r =>
    { r with flags := r.flags ++ [{ code := code, tag := tag, stream := stream, att := r.att, commit := commit }],
             nue := r.nue + b2n (decide (code = eMemUe)) }

/-- The first MEM_UE reported (UEADDR). -/
def State.noteUe (s : State) (ctx : Nat) (a : Addr) : State :=
  s.setStep ctx fun r => { r with ueAddr := if r.ueAddr = 0 then a else r.ueAddr }

/-- The first error of a step, its address going to UEADDR where `r231` says so (R221, R231). -/
def State.noteError (s : State) (ctx : Nat) (code : BitVec 16) (addr : Addr) (r231 : Bool) : State :=
  s.setStep ctx fun r =>
    if r.failed.isSome then r
    else { r with nue := r.nue + b2n (decide (code = eMemUe)), failed := some code, failAddr := addr,
                  ueAddr := if r231 then addr else if code = eMemUe ∧ r.ueAddr = 0 then addr else r.ueAddr }

/-- The trouble flags of a completed descriptor reach the replay service with its TAG and STREAM (R75, R222). -/
def State.passFlags (s : State) (ctx : Nat) (e : Entry) : State :=
  e.flags.foldl (fun t code => t.addFlag ctx code (some (hTag e.desc)) (some (BitVec.ofNat 32 (fld e.desc 60 4)))
    (decide (e.startBeat.phase = phaseCommit))) s

/-- The contribution of a descriptor is accepted before it completes; an add that fails fails the descriptor (R219). -/
def State.contribute (s : State) (c : Ctx) (e : Entry) (st : Status) : State × Status :=
  match st.res, e.contrib with
  | .done, some k =>
    match s.addContrib c e.startBeat.step k with
    | .ok t => (t, st)
    | .error f => (s, .fail f)
  | _, _ => (s, st)

/-- What the manager firmware takes from the status of a descriptor that had ended before the abort reached it: its trouble flags,
or its failure (R281, R222, R231). -/
def State.abortNotes (s : State) (ctx : Nat) (c : Ctx) (e : Entry) (st : Status) : State :=
  let commit := decide (e.startBeat.phase = phaseCommit)
  match st.res with
  | .done => s.passFlags ctx e
  | .failed =>
    let s1 := s.memFail (.desc c) { code := st.code, addr := st.addr, pw := st.pw }
    if decide (st.code = eMemUe) && !commit && !s.persistent c st.addr.toNat then
      (s1.noteUe ctx st.addr).addFlag ctx eMemUe (some (hTag e.desc)) none false
    else s1.noteError ctx st.code st.addr (commit || decide (st.code = eMemUe))
  | _ => s

/-- Every descriptor of context `ctx` in window `u` ends, from the head (R298); one that had ended already completes first, its
contribution accepted (R219, R281). -/
def State.abortWindow (fuel : Nat) (s : State) (u ctx : Nat) (c : Ctx) : State :=
  match fuel with
  | 0 => s
  | fuel + 1 =>
    match (s.engine u).win.findIdx? fun e => decide (e.ctx = ctx) with
    | none => s
    | some i =>
      match s.entry? u i with
      | none => s
      | some e =>
        match e.ended with
        | none => ((s.scrambleDest c e).leaveWindow u i e .abort).abortWindow fuel u ctx c
        | some st =>
          let a := s.contribute c e st
          ((a.1.abortNotes ctx c e a.2).leaveWindow u i e a.2.aborted).abortWindow fuel u ctx c

/-- The cores of a context stop, idle (R298, R283). -/
def State.stopCores (s : State) (c : Ctx) : State :=
  { s with cores := SMap.mapVals s.cores (fun _ => Core.reset) fun k x => if c.coreIn k then { x with run := .idle } else x }

/-- The context's ISSUEs pending on windows, and its page requests, are withdrawn (R298). -/
def State.dropPending (s : State) (ctx : Nat) (c : Ctx) : State :=
  { s with engines := SMap.mapVals s.engines (fun _ => Engine.empty) fun _ e =>
             { e with pend := e.pend.filter fun p => !c.coreIn p.core },
           pageReqs := s.pageReqs.filter fun r => r.ctx ≠ ctx }

/-- The abort of a context's descriptors (R298). -/
def State.abortCtx (s : State) (ctx : Nat) : State :=
  match s.ctx? ctx with
  | none => s
  | some c =>
    let s1 := (s.stopCores c).dropPending ctx c
    (s1.engines.map fun p => p.1).foldl (fun t u => t.abortWindow (t.engine u).win.length u ctx c) s1

/-- Every descriptor of a context has left its window and nothing is pending (R283). -/
def State.windowsEmpty (s : State) (ctx : Nat) (c : Ctx) : Bool :=
  s.engines.all fun p => (p.2.win.all fun e => decide (e.ctx ≠ ctx)) && (p.2.pend.all fun q => !c.coreIn q.core)

end Sys2Proof.Machine
end

