-- ==== Sys2Proof/Machine/Fw.lean ====
section
/-! DEFINITION. Flash, boot record, image checks, settings slots (R445 to R450, R458), the staging buffer (R453), activation
and commit of a trial (R455 to R457). -/

set_option Elab.async false

namespace Sys2Proof.Machine

/-! Flash (R445); an erased byte reads 0xFF (log 7). -/

def State.flashBytes (s : State) (a n : Nat) : List Byte := (List.range n).map fun i => SMap.get s.flash 0xFF (a + i)

def putFlash (m : SMap Byte) (a : Nat) : List Byte → SMap Byte
  | [] => m
  | b :: r => putFlash (SMap.put m 0xFF a b) (a + 1) r

def State.setFlash (s : State) (a : Nat) (bs : List Byte) : State := { s with flash := putFlash s.flash a bs }

/-- Bank A or B (Table 18.1). -/
def bankBase (b : Bool) : Nat := if b then 0x10000000 else 0

/-! Boot record (R446, Table 18.2). -/

structure BootRec where
  seq : Nat
  cbank : Nat
  tbank : Nat
  csgen : Nat
  cver : Nat
  tver : Nat
  deriving DecidableEq, Repr

def bootAddr (i : Nat) : Nat := 0x20000000 + 0x8000 * i

def bootOk (b : List Byte) : Bool :=
  decide (fld b 0 4 = 0x52425654) && decide (fld b 60 4 = (crc32 (b.take 60)).toNat)

def BootRec.ofBytes (b : List Byte) : BootRec :=
  { seq := fld b 4 4, cbank := fld b 8 1, tbank := fld b 9 1, csgen := fld b 12 4, cver := fld b 16 8, tver := fld b 24 8 }

def BootRec.bytes (r : BootRec) : List Byte :=
  let b := leBytes 4 0x52425654 ++ leBytes 4 r.seq ++ leBytes 1 r.cbank ++ leBytes 1 r.tbank ++ zeros 2 ++ leBytes 4 r.csgen
    ++ leBytes 8 r.cver ++ leBytes 8 r.tver ++ zeros 28
  b ++ leBytes 4 (crc32 b).toNat

/-- The copy that governs (R446). -/
def State.bootGov (s : State) : Option Nat :=
  let b0 := s.flashBytes (bootAddr 0) 64
  let b1 := s.flashBytes (bootAddr 1) 64
  if bootOk b0 && bootOk b1 then some (if after 32 (fld b1 4 4) (fld b0 4 4) then 1 else 0)
  else if bootOk b0 then some 0 else if bootOk b1 then some 1 else none

def State.bootRec (s : State) : Option BootRec := s.bootGov.map fun i => BootRec.ofBytes (s.flashBytes (bootAddr i) 64)

/-- CBANK: of the boot record, or the running bank where no record is valid (log 46). -/
def State.cbank (s : State) : Bool :=
  match s.bootRec with
  | some r => decide (r.cbank = 1)
  | none => s.fw.runb

/-- The record in force, or the one a first write starts from. -/
def State.bootBase (s : State) : BootRec :=
  match s.bootRec with
  | some r => r
  | none => { seq := 0, cbank := b2n s.fw.runb, tbank := 0xFF, csgen := 0, cver := s.fw.version.toNat, tver := 0 }

/-- The boot record is written to the copy that does not govern, with SEQ + 1 (R446). -/
def State.writeBoot (s : State) (f : BootRec → BootRec) : State :=
  let r := f s.bootBase
  let i := match s.bootGov with
    | some 0 => 1
    | _ => 0
  s.setFlash (bootAddr i) { r with seq := (s.bootBase.seq + 1) % 2 ^ 32 }.bytes

/-! Image (R447 to R449). -/

def imgNblk (m : List Byte) : Nat := fld m 20 4
def imgKey (m : List Byte) : Nat := 256 + 48 * imgNblk m
def imgMb (m : List Byte) : Nat := ceilDiv (imgKey m + 192 + 96 + 2668) 65536
def imgVersion (m : List Byte) : Word64 := BitVec.ofNat 64 (fld m 8 8)
def imgArb (m : List Byte) : Nat := fld m 16 1
def imgRevoke (m : List Byte) : Nat := fld m 19 1

/-- Check 1 of Table 18.4. -/
def imgForm (m : List Byte) : Bool :=
  decide (fld m 0 4 = 0x49465654) && decide (fld m 4 2 = 0x0100) && decide (1 ≤ imgNblk m ∧ imgNblk m ≤ 4092)
    && decide (imgMb m + imgNblk m ≤ 4096) && decide (fld m 6 2 < 4) && decide (fld m 18 1 < 2) && decide (imgRevoke m < 16)
    && decide (fld m 17 1 < 4) && zeroAt m 40 256 && (bit (fld m 18 1) 0 || zeroAt m 24 40)
    && !bit (imgRevoke m) (fld m 17 1)

/-- A big-endian field. -/
def fldBE (b : List Byte) (off n : Nat) : Nat := leVal ((b.drop off).take n).reverse

/-- Types LMOTS_SHA256_N32_W4 (3) and LMS_SHA256_M32_H15 (7) of RFC 8554 in an LMS signature (R448; log 12). -/
def lmsTypes (sig : List Byte) : Bool := decide (fldBE sig 4 4 = 3) && decide (fldBE sig 2184 4 = 7)

/-- Checks 1 to 7 of Table 18.4, on the manifest (R448, R449). -/
def State.manifestOk (s : State) (m : List Byte) : Bool :=
  let k := imgKey m
  let key := (m.drop k).take 153
  let msg := m.take (k + 192)
  let slot := fld m 17 1
  let lmsSig := (m.drop (k + 288)).take 2668
  imgForm m
    && bit (fld m 6 2) (if s.small then 1 else 0)
    && (!bit (fld m 18 1) 0 || decide (fld m 24 16 = s.fuses.uid.toNat))
    && !s.fuses.revoked.getLsbD slot && decide (some (Config.sha384 key) = s.fuses.digests.toList[slot]?)
    && decide (imgArb m ≤ 64 ∧ s.fuses.arb ≤ imgArb m)
    && Config.ecdsaP384 (key.take 97) ((m.drop (k + 192)).take 96) msg
    && lmsTypes lmsSig && Config.lms (key.drop 97) lmsSig msg

/-- The digest of payload block `i` is the table's (R447, R453). -/
def blockOk (m : List Byte) (i : Nat) (b : List Byte) : Bool :=
  decide ((Config.sha384 b).toNat = leVal ((m.drop (256 + 48 * i)).take 48).reverse)

/-- The manifest of an image read by `rd`. -/
def manifestOf (rd : Nat → Nat → List Byte) : List Byte := rd 0 (imgMb (rd 0 256) * 65536)

/-- The image is authentic (R449). -/
def State.imageOk (s : State) (rd : Nat → Nat → List Byte) : Bool :=
  if imgForm (rd 0 256) then
    let m := manifestOf rd
    s.manifestOk m
      && (List.range (imgNblk m)).all fun i => blockOk m i (rd (65536 * (imgMb m + i)) 65536)
  else false

/-- The reader of a flash bank. -/
def State.bankRd (s : State) (b : Bool) (off n : Nat) : List Byte := s.flashBytes (bankBase b + off) n

def State.bankOk (s : State) (b : Bool) : Bool := s.imageOk (s.bankRd b)

def State.bankVersion (s : State) (b : Bool) : Word64 := imgVersion (s.bankRd b 0 256)

/-! Settings (R458, R459). -/

structure SetRec where
  id : Nat
  ver : Nat
  data : List Byte
  deriving DecidableEq, Repr

def slotBase (i : Nat) : Nat := 0x20010000 + 0x100000 * i

def SetRec.bytes (r : SetRec) : List Byte := leBytes 2 r.id ++ leBytes 2 r.ver ++ leBytes 4 r.data.length ++ r.data

/-- The records of a slot's byte string. -/
def parseRecs : Nat → List Byte → List SetRec
  | 0, _ => []
  | n + 1, b =>
    if b.length < 8 then []
    else
      let l := fld b 4 4
      { id := fld b 0 2, ver := fld b 2 2, data := (b.drop 8).take l } :: parseRecs n (b.drop (8 + l))

def State.slotHdr (s : State) (i : Nat) : List Byte := s.flashBytes (slotBase i) 64
def State.slotLen (s : State) (i : Nat) : Nat := fld (s.slotHdr i) 16 4
def State.slotSgen (s : State) (i : Nat) : Nat := fld (s.slotHdr i) 4 4

/-- The CRC-32 of a slot: header with bytes 60–63 taken as 0, then the records. -/
def slotCrc (hdr recs : List Byte) : Nat := (crc32 (setFld hdr 60 4 0 ++ recs)).toNat

def State.slotOk (s : State) (i : Nat) : Bool :=
  let h := s.slotHdr i
  decide (fld h 0 4 = 0x54535654) && decide (s.slotLen i ≤ 0x100000 - 64)
    && decide (fld h 60 4 = slotCrc h (s.flashBytes (slotBase i + 64) (s.slotLen i)))

/-- The slot is erased: its header reads all ones. -/
def State.slotErased (s : State) (i : Nat) : Bool := (s.slotHdr i).all fun b => b == 0xFF

def State.slotRecs (s : State) (i : Nat) : List SetRec :=
  parseRecs (s.slotLen i) (s.flashBytes (slotBase i + 64) (s.slotLen i))

/-- The slot that K2 takes (R458): that of generation CSGEN, or the valid one with the later SGEN (log 46). -/
def State.slotInForce (s : State) : Option Nat :=
  let v := [0, 1].filter fun i => s.slotOk i
  let later := match v with
    | [0, 1] => some (if after 32 (s.slotSgen 1) (s.slotSgen 0) then 1 else 0)
    | i :: _ => some i
    | [] => none
  match s.bootRec with
  | some r =>
    match v.find? fun i => decide (s.slotSgen i = r.csgen) with
    | some i => some i
    | none => later
  | none => later

def State.writeSlot (s : State) (i sgen version : Nat) (recs : List SetRec) : State :=
  let body := recs.flatMap SetRec.bytes
  let h := leBytes 4 0x54535654 ++ leBytes 4 sgen ++ leBytes 8 version ++ leBytes 4 body.length ++ zeros 44
  s.setFlash (slotBase i) (setFld h 60 4 (slotCrc h body) ++ body)

/-- The records in ID order after migration to firmware `version`, and how many were migrated (R459). -/
def migrateRecs (version : Nat) (recs : List SetRec) : List SetRec × Nat :=
  let up := fun (r : SetRec) => decide (r.ver < Config.knownVer version r.id)
  let lack := (Config.neededIds version).filter fun i => recs.all fun r => decide (r.id ≠ i)
  let old := recs.map fun r =>
    if up r then { r with ver := Config.knownVer version r.id, data := Config.migrate r.id r.ver r.data } else r
  let new := lack.map fun i => { id := i, ver := Config.knownVer version i, data := Config.migrate i 0 [] : SetRec }
  ((old ++ new).mergeSort (fun a b => decide (a.id ≤ b.id)), (recs.filter up).length + lack.length)

/-! Firmware state. -/

def State.setFw (s : State) (f : Firmware) : State := { s with fw := f }

/-- FW_CFG.AUTOCOMMIT (R465). -/
def State.autocommit (s : State) : Bool := (s.cfg pgFw 0x108 1).getLsbD 0

/-- Staging by chain frames is in progress (R452, R454). -/
def State.chainStaging (s : State) : Bool := !s.fw.fromHost && decide (s.fw.sstate = 1 ∨ s.fw.sstate = 2)

/-- A FW_STAGE command has been accepted and runs (R452). -/
def State.hostStaging (s : State) : Bool :=
  s.queues.any fun p => p.2.cmds.any fun c => c.started && decide (cOpc c.line = 0x12)

/-- Staging begins into the bank that is not committed, whose contents are lost, erased (R453; log 7). -/
def State.beginStage (s : State) (n : Nat) (host : Bool) : State :=
  let t := { s with flash := SMap.clearRange s.flash (bankBase (!s.cbank)) 0x10000000 }
  t.setFw { s.fw with sstate := 1, target := !s.cbank, nblk := n, fromHost := host, manifestOk := false, part := [], got := [],
                      present := [], programming := [], staged := 0 }

/-- Staging is discarded (R453). -/
def State.dropStage (s : State) : State :=
  s.setFw { s.fw with sstate := 0, nblk := 0, manifestOk := false, part := [], got := [], present := [], programming := [] }

/-- Staged bytes: of the buffer, or of the target where the block has been programmed. -/
def State.stagedRd (s : State) (off n : Nat) : List Byte :=
  (List.range n).map fun i =>
    if (off + i) / 65536 ∈ s.fw.present then SMap.get s.flash 0xFF (bankBase s.fw.target + off + i)
    else SMap.get s.fw.part 0 (off + i)

/-- Block `i` is complete, in the buffer or in the target. -/
def Firmware.have (f : Firmware) (i : Nat) : Bool := decide (i ∈ f.present) || decide (i ∈ f.programming)

/-- Missing blocks (FW_STG). -/
def Firmware.missing (f : Firmware) : List Nat :=
  if f.sstate = 1 ∨ f.sstate = 2 then (List.range f.nblk).filter fun i => !f.have i else []

def dropBlock (f : Firmware) (i : Nat) : Firmware :=
  { f with part := f.part.filter (fun p => p.1 / 65536 ≠ i), got := f.got.filter fun p => p.1 ≠ i }

/-- A staging that failed its checks (R453, R454). -/
def State.stageFail (s : State) : State :=
  ((s.setFw { s.fw with sstate := 4, part := [], got := [], programming := [] }).count pgFw 3 1).fwEvent 2 eAuthFail
    (imgVersion (s.stagedRd 0 256))

/-- A complete block (R453): part of the manifest, checked once all of it is there; or a payload block, checked against the
table; a block before the manifest is verified, or with another digest, is discarded. -/
def State.stageBlock (s : State) (i : Nat) : State :=
  let f := s.fw
  let h := s.stagedRd 0 256
  let keep := s.setFw { f with got := f.got.filter (fun p => p.1 ≠ i), programming := f.programming ++ [i] }
  if f.manifestOk then
    let m := s.stagedRd 0 (imgMb h * 65536)
    if i < imgMb h ∨ blockOk m (i - imgMb h) (s.stagedRd (65536 * i) 65536) then keep
    else (s.setFw (dropBlock f i)).count pgFw 1 1
  else if decide (i = 0) || (f.have 0 && decide (i < imgMb h)) then
    if (List.range (imgMb h)).all (fun j => keep.fw.have j) then
      if s.manifestOk (s.stagedRd 0 (imgMb h * 65536)) && decide (imgMb h + imgNblk h = f.nblk) then
        keep.setFw { keep.fw with manifestOk := true, staged := imgVersion h }
      else s.stageFail
    else keep
  else s.setFw (dropBlock f i)

/-- The full check once every block is in the target (R453). -/
def State.stageCheck (s : State) : State :=
  if s.bankOk s.fw.target then
    (s.setFw { s.fw with sstate := 3 }).fwEvent 1 0 s.fw.staged
  else s.stageFail

/-! Activation and trial (R455 to R457). -/

/-- The schedule entries of KIND 0x04 are gone (R456). -/
def State.disarm (s : State) : State :=
  { s with sched := (s.sched.filter fun p => match p.2 with
      | some e => decide (e.kind ≠ 4)
      | none => true), fw := { s.fw with arm := false } }

/-- The beat event of an activation that a SCHED entry fired (R317). -/
def State.actEvent (s : State) (a : Activation) (res : Result) (err : BitVec 16) : State :=
  match a.fired with
  | none => s
  | some x => s.beatEvent x.1 x.2.1 x.2.2.1 res err 0 (match a.hold with
      | some k => s.slotBeat k
      | none => s.pkgBeat) (leBytes 2 x.2.2.2)

/-- An activation begins (R455, R456 steps 1 to 3): the staged image is verified again. -/
def State.activate (s : State) (a : Activation) : State :=
  let f := s.fw
  if f.sstate ≠ 3 then (s.disarm.fwEvent 4 0 f.staged).actEvent a .failed 0
  else if s.bankOk f.target then
    let s1 := s.disarm.writeBoot fun r => { r with tbank := b2n f.target, tver := f.staged.toNat }
    s1.setFw { s1.fw with activating := some a, trial := true }
  else ((s.disarm.count pgFw 3 1).fwEvent 4 eAuthFail f.staged).actEvent a .failed eAuthFail

/-- The trial is committed (R457). -/
def State.commitTrial (s : State) : State :=
  if s.fw.trial && s.fw.activating.isNone then
    let r := s.bootBase
    let m := s.bankRd (decide (r.tbank = 1)) 0 256
    let s1 := s.writeBoot fun r => { r with cbank := r.tbank, cver := r.tver, tbank := 0xFF, tver := 0, csgen := s.fw.csgen.toNat }
    let up := imgArb m - s.fuses.arb
    let fuse := fun (x : Fuses) => { x with arb := max x.arb (imgArb m), revoked := x.revoked ||| BitVec.ofNat 4 (imgRevoke m) }
    let s2 := { s1 with fuses := fuse s1.fuses, shadow := fuse s1.shadow, fw := { s1.fw with trial := false } }
    let s3 := (s2.count pgFw 6 up).fwEvent 5 0 (BitVec.ofNat 64 r.tver)
    if 0 < up then s3.fwEvent 7 0 (BitVec.ofNat 64 r.tver) else s3
  else s

/-- The new firmware's own start (R456 steps 4 and 5 but the beat, R459). -/
def State.newFirmware (s : State) : State :=
  let f := s.fw
  let s1 := match s.slotInForce with
    | none => s.setFw { f with csgen := BitVec.ofNat 32 s.bootBase.csgen }
    | some i =>
      let m := migrateRecs f.staged.toNat (s.slotRecs i)
      if m.2 = 0 then s.setFw { f with csgen := BitVec.ofNat 32 s.bootBase.csgen }
      else
        let g := (s.slotSgen i + 1) % 2 ^ 32
        ((s.writeSlot (1 - i) g f.staged.toNat m.1).setFw { f with csgen := BitVec.ofNat 32 g }).count pgFw 7 m.2
  let s2 := s1.setFw { s1.fw with version := f.staged, runb := f.target, chain := false, sstate := 0, activating := none }
  (s2.count pgFw 4 1).fwEvent 3 0 f.staged

end Sys2Proof.Machine
end

