-- ==== Sys2Proof/Machine/Beat.lean ====
section
/-! DEFINITION. The step beat (R305 to R321): sources, markers and BEAT_OUT frames, the schedule table, the start of lists and
of the batch at (s, 0x0000) (R255, R276, R282), a change of the beat. -/

set_option Elab.async false

namespace Sys2Proof.Machine

/-! Sources (R310). -/

def State.beatCfg (s : State) : Nat := (s.cfg pgBeat 0x100 0).toNat
def State.beatOuten (s : State) : Bool := bit s.beatCfg 17
/-- BEAT_IN may be the source (R310), or is forced to be. -/
def State.beatPinen (s : State) : Bool := bit s.beatCfg 16 || decide (bits s.beatCfg 1 0 = 3)
/-- BEAT_DLY.D (400 at reset). -/
def State.beatDly (s : State) : Nat := bits (s.cfg pgBeat 0x108 400).toNat 15 0
def State.beatPinlat (s : State) : Nat := bits (s.cfg pgBeat 0x10C 0).toNat 15 0
/-- BEAT_UPLAT: the latency of UPP, 0 while it is untrained (R311, R425). -/
def State.beatUplat (s : State) : Nat := if s.portUp 2 then (s.port 2).lat.toNat else 0

/-- The trained DNPs. -/
def State.dnps (s : State) : List Nat := [3, 4, 5].filter fun p => s.portUp p

def State.setBeat (s : State) (b : BeatUnit) : State := { s with beat := b }

/-- The source by Table 12.2, or the one that SRC forces; a lost source stays in use until another row than the last applies or the
host writes SRC = 1 (R314). -/
def State.pickSource (s : State) : BitVec 2 :=
  match bits s.beatCfg 1 0 with
  | 1 => 1
  | 2 => 2
  | 3 => 3
  | _ =>
    if s.isManager then 1 else if s.portUp 2 then 2 else if s.beatPinen && s.beat.pinSeen then 3
    else if s.beat.held || decide (s.beat.actsrc = 2) then s.beat.actsrc else 1

def State.reSource (s : State) : State :=
  let a := s.pickSource
  s.setBeat { s.beat with actsrc := a, held := s.beat.held && decide (a = s.beat.actsrc) }

/-- The package's own beat unit moves slot `k`: only the tree slot follows markers or frames (log 36). -/
def State.ownSlot (s : State) (k : Nat) : Bool := decide (k ≠ s.tslot) || decide (s.beat.actsrc = 1)

/-! Markers (R427, Table 17.4) and frames (R313). -/

/-- An advance or set marker. -/
def beatMarker (kind slot rd : Nat) (b : Beat) : List Byte :=
  let p := leBytes 1 kind ++ leBytes 1 slot ++ leBytes 2 rd ++ zeros 4 ++ leBytes 8 b.toNat ++ zeros 44
  p ++ leBytes 4 (crc32 p).toNat

/-- The marker's CRC is good. -/
def markerOk (m : List Byte) : Bool := decide (m.length = 64) && decide (fld m 60 4 = (crc32 (m.take 60)).toNat)

/-- The RDP page of reduction port 2 to 5. -/
def rdpPage (port : Nat) : Nat := pgRdp (port - 2)

/-- A marker sent on a reduction port, counted (R321, R444). -/
def State.sendMarker (s : State) (port : Nat) (m : List Byte) : State :=
  ((s.addOut (.marker port m)).count pgBeat 1 1).count (rdpPage port) 4 1

def beBytes (n v : Nat) : List Byte := (leBytes n v).reverse

/-- A BEAT_OUT frame, most significant byte first (R313; log 47). -/
def beatFrame (b : Beat) (rd : Nat) : List Byte :=
  let x := beBytes 8 b.toNat ++ beBytes 2 rd
  beBytes 2 0xA5C3 ++ x ++ beBytes 2 (crc16 x).toNat

/-- SCLK that a frame of 1.12 µs takes. -/
def frameSclk : Nat := 224

/-- A frame at a change of slot `k`, TSLOT, RD counted from its last bit (R313). -/
def State.sendFrameOut (s : State) (k : Nat) (b : Beat) (rd : Nat) : State :=
  if s.beatOuten && decide (k = s.tslot) then
    (s.addOut (.beatFrame (beatFrame b (rd - frameSclk)))).count pgBeat 1 1
  else s

/-! The batch at step start (R255). -/

/-- One batch entry: slot, NEW, its address. -/
structure BatchEnt where
  slot : Nat
  new : Nat
  addr : Nat
  deriving DecidableEq, Repr

def State.batchEnts (s : State) (c : Ctx) (a n : Nat) : Except Fail (List BatchEnt) :=
  (List.range n).mapM fun i => (s.readVal (.cmd c) (a + 8 * i) 8).map fun v =>
    { slot := v % 2 ^ 20, new := bits v 35 20, addr := a + 8 * i }

/-- The batch in ascending slot order. -/
def sortBatch (l : List BatchEnt) : List BatchEnt := l.mergeSort fun a b => decide (a.slot ≤ b.slot)

def lenOf (lens : List (Nat × Nat)) (slot : Nat) : Nat :=
  match lens.find? fun p => decide (p.1 = slot) with
  | some p => p.2
  | none => 0

/-- Pre-growth of each entry (R255 step 1), OUT written back; the entries that take part go on. -/
def State.preGrow (s : State) (c : Ctx) (k : KvSrc) (q : Seqt) (lens : List (Nat × Nat)) :
    List BatchEnt → Except Fail (List BatchEnt × State)
  | [] => .ok ([], s)
  | e :: r => do
    let ans ← s.kvGrow c k q e.slot (lenOf lens e.slot + e.new)
    let ok := match ans with
      | .done _ => true
      | _ => false
    let t := match ans with
      | .done t => t
      | .parked t _ => t
      | .bad => s
    let v ← t.readVal (.cmd c) e.addr 8
    let t1 ← t.write (.cmd c) e.addr (leBytes 8 (v % 2 ^ 60 + (if ok then 0 else 4) * 2 ^ 60))
    let x ← t1.preGrow c k q lens r
    pure (if ok then e :: x.1 else x.1, x.2)

/-- A slot that a later slot's growth has swapped out gets OUT = PARKED and takes no further part (R255 step 1). -/
def State.dropSwapped (s : State) (c : Ctx) (q : Seqt) : List BatchEnt → Except Fail (List BatchEnt × State)
  | [] => .ok ([], s)
  | e :: r => do
    let k ← s.seqRec (.cmd c) q e.slot
    let t ← if k.state = 1 then pure s else do
      let v ← s.readVal (.cmd c) e.addr 8
      s.write (.cmd c) e.addr (leBytes 8 (v % 2 ^ 60 + 4 * 2 ^ 60))
    let x ← t.dropSwapped c q r
    pure (if k.state = 1 then e :: x.1 else x.1, x.2)

/-- The first bucket whose bound reaches `n`, 15 beyond every bound (R255 step 2). -/
def bucketOf (bnd : List Nat) (n : Nat) : Nat := min 15 ((bnd.findIdx? fun b => decide (n ≤ b)).getD 15)

/-- BOUT (R255 step 3): 16 headers, then the work entries in bucket and slot order. -/
def batchOut (lens : List (Nat × Nat)) (bnd : List Nat) (l : List BatchEnt) : List Byte :=
  let tot := fun (e : BatchEnt) => lenOf lens e.slot + e.new
  let inB := fun b => l.filter fun e => decide (bucketOf bnd (tot e) = b)
  ((List.range 16).flatMap fun b => leBytes 4 (inB b).length ++ leBytes 4 (((inB b).map tot).foldl max 0))
    ++ (List.range 16).flatMap fun b => (inB b).flatMap fun e => leBytes 8 (e.slot + lenOf lens e.slot * 2 ^ 20)

/-- The bucketing service (R255). -/
def State.bucketing (s : State) (c : Ctx) (ctx : Nat) (r : StepRec) : Except Fail State :=
  if r.batch = 0 then .ok s
  else
    match s.ctxSeqt c with
    | none => .error (Fail.bus r.batch.toNat)
    | some q => do
      let k : KvSrc := { ctx := ctx, eng := 0, tag := 0, hearth := 0xFFFF, unit := 0 }
      let l ← s.batchEnts c r.batch.toNat r.nseq
      let y ← s.preGrow c k q r.lens (sortBatch l)
      let x ← y.2.dropSwapped c q y.1
      x.2.write (.cmd c) r.bout.toNat (batchOut r.lens r.bnd x.1)

/-! The start of lists (R263, R276, R282). -/

/-- A core set to a list start (R263). -/
def startedCore (core : Nat) (pc : Addr) (step : BitVec 40) : Core :=
  { Core.reset with pc := pc, base := (Vector.replicate 8 0).set 0 (BitVec.ofNat 48 (hearthBase (core / 8))), lstep := step, run := .running }

/-- Every idle core whose entry is non-zero starts (R282); each list counts on its die, with the control
messages that it took, whose number is free (Table 15.6; log 143). -/
def State.startCores (s : State) (r : StepRec) : State :=
  r.entries.foldl (fun t e =>
    if (t.core e.1).run = .idle then ((t.setCore e.1 (startedCore e.1 e.2 r.step)).count (diePage (e.1 / 384) 0) 0 1).countFree (diePage (e.1 / 384) 0) 1
    else t) s

/-- The start of an attempt at (s, 0x0000): on the first one the snapshot of R276 is taken; the batch is bucketed and the lists
start. A bucketing access that fails ends the attempt (R222). -/
def State.beginLists (s : State) (ctx : Nat) : State :=
  match s.ctx? ctx with
  | none => s
  | some c =>
    match c.step with
    | none => s
    | some r =>
      let s1 := if r.att = 0 then s.snapSync c else s
      match s1.bucketing c ctx r with
      | .ok s2 => (s2.startCores r).setStep ctx fun r => { r with begun := true }
      | .error f => (s1.setStep ctx fun r => { r with begun := true }).noteError ctx f.code f.addr false

/-- The array domains of a context's dies (R393). -/
def Ctx.arrays (c : Ctx) : List Nat := c.dies.map fun d => 3 * d

/-- No array of the context is still being raised (R396). -/
def State.arraysUp (s : State) (c : Ctx) : Bool := c.arrays.all fun k => !((s.dom k).busy && decide ((s.dom k).req = 1))

/-- The lists of an attempt begin once the beat is (s, 0x0000) and the arrays banked while idle are active again (R282, R396). -/
def State.tryBegin (s : State) (ctx : Nat) : State :=
  match s.ctx? ctx with
  | none => s
  | some c =>
    match c.step with
    | none => s
    | some r =>
      if !r.begun && !r.replaying && decide (s.slotBeat c.slot = { step := r.step, phase := 0 }) && s.arraysUp c then
        s.beginLists ctx
      else s

/-! The schedule table (R315 to R318). -/

def schedKey (slot idx : Nat) : Nat := slot * 256 + idx
def State.schedAt (s : State) (slot idx : Nat) : Option SchedEnt := SMap.get s.sched none (schedKey slot idx)
def State.setSched (s : State) (slot idx : Nat) (e : Option SchedEnt) : State :=
  { s with sched := SMap.put s.sched none (schedKey slot idx) e }

/-- The entries of slot `k` with their indices, ascending. -/
def State.schedOf (s : State) (k : Nat) : List (Nat × SchedEnt) :=
  s.sched.filterMap fun p => if p.1 / 256 = k then p.2.map fun e => (p.1 % 256, e) else none

/-- Scope of a freeze entry: the state that it acts on (R474). -/
def SchedEnt.fzState (e : SchedEnt) (slot : Nat) : Nat := if bit (fld e.kargs 0 1) 0 then 24 else slot
def SchedEnt.thaws (e : SchedEnt) : Bool := decide (e.kind = 3) && bit (fld e.kargs 0 1) 1

/-- What a fired entry does (R317, R355, R474, R456); KARGS begin at byte 24 of the command. -/
def State.fireAct (s : State) (k idx : Nat) (e : SchedEnt) : State :=
  let a := e.kargs
  let ev := fun (t : State) => t.beatEvent e.q e.ctx e.tag .done 0 0 (t.slotBeat k) (leBytes 2 idx)
  match e.kind with
  | 1 =>
    let c : FiredCopy := { ctx := e.ctx, slot := k, idx := idx, q := e.q, tag := e.tag,
                           src := BitVec.ofNat 48 (fld a 0 6), dst := BitVec.ofNat 48 (fld a 8 6), len := fld a 16 8,
                           hold := bit (fld a 24 1) 0, pos := 0, order := s.order }
    { s with copies := s.copies ++ [c], order := s.order + 1 }
  | 2 =>
    let f : Prefetch := { ctx := e.ctx, slot := k, idx := idx, q := e.q, tag := e.tag,
                          src := BitVec.ofNat 48 (fld a 0 6), dst := BitVec.ofNat 48 (fld a 8 6), len := fld a 16 8,
                          sync := BitVec.ofNat 16 (fld a 24 2), need := BitVec.ofNat 16 (fld a 26 2),
                          add := BitVec.ofNat 32 (fld a 28 4), step := (s.slotBeat k).step, late := false, held := [] }
    { s with prefetch := s.prefetch ++ [f] }.count pgStkSvc 2 1
  | 3 =>
    let z := e.fzState k
    let v := (s.fz z).v
    if e.thaws then
      let s1 := if bit (fld a 0 1) 2 then s.fzClear z else s
      if v then s1.fzThaw z 1 e.q e.ctx e.tag idx else ev s1
    else
      let s1 := s.fzSet z 1 0 e.q e.ctx e.tag idx
      if v then ev s1 else s1
  | 4 => s.activate { hold := if (s.slotBeat k).phase = phaseCommit then some k else none,
                      fired := some (e.q, e.ctx, e.tag, idx) }
  | _ =>
    match s.ctx? e.ctx with
    | some c => ev (s.signal (syncRef c 0 (fld a 0 2)) false (BitVec.ofNat 32 (fld a 4 4)))
    | none => s

/-- Fired entries of one change of slot `k`, in ascending index (R316); of the freezes and thaws of one state, the thaws act first
(R476): they take the first of these entries' places. -/
def orderFires (k : Nat) (l : List (Nat × SchedEnt)) : List (Nat × SchedEnt) :=
  l.zipIdx.map fun p =>
    if p.1.2.kind = 3 then
      let same := fun (q : Nat × SchedEnt) => decide (q.2.kind = 3 ∧ q.2.fzState k = p.1.2.fzState k)
      let j := ((l.take p.2).filter same).length
      ((l.filter fun q => same q && q.2.thaws) ++ l.filter fun q => same q && !q.2.thaws).getD j p.1
    else p.1

def State.fireAll (s : State) (k : Nat) (l : List (Nat × SchedEnt)) : State :=
  (orderFires k l).foldl (fun t p => (t.fireAct k p.1 p.2).count pgBeat 5 1) s

/-- e and d of R316. -/
def SchedEnt.dist (e : SchedEnt) (b : Beat) : Nat × Nat := ((b.step - e.anchor).toNat, (e.target.step - e.anchor).toNat)

/-- An entry judged at a change of the beat to `b` (R316). -/
inductive Verdict where
  | keep
  | discard
  | fire
  deriving DecidableEq, Repr

def SchedEnt.judge (e : SchedEnt) (b : Beat) : Verdict :=
  let x := e.dist b
  if x.2 + 2 ^ 39 ≤ x.1 then .discard
  else if x.2 < x.1 then .fire
  else if x.1 = x.2 ∧ e.target.phase ≠ phaseCommit ∧ e.target.phase.toNat ≤ b.phase.toNat then .fire
  else .keep

/-- An entry that fired stays while the beat is in its step below phase 0xFFFF (R316). -/
def SchedEnt.stays (e : SchedEnt) (b : Beat) : Bool := decide (e.target.step = b.step ∧ e.target.phase ≠ phaseCommit)

/-- The table of slot `k` at a change of the beat to `b` (R316). -/
def State.judgeSched (s : State) (k : Nat) (b : Beat) : State :=
  -- fired entries leave with their step, and are armed again at (s, 0x0000)
  let s1 := (s.schedOf k).foldl (fun t p =>
    if p.2.fired then
      if !p.2.stays b then t.setSched k p.1 none
      else if b.phase = 0 then t.setSched k p.1 (some { p.2 with fired := false }) else t
    else t) s
  let l := (s1.schedOf k).filter fun p => !p.2.fired
  let dis := l.filter fun p => decide (p.2.judge b = .discard)
  let fire := l.filter fun p => decide (p.2.judge b = .fire)
  let s2 := (dis.foldl (fun t p => t.setSched k p.1 none) s1).count pgBeat 6 dis.length
  let s3 := fire.foldl (fun t p => t.setSched k p.1 (if p.2.stays b then some { p.2 with fired := true } else none)) s2
  s3.fireAll k fire

/-- Prefetches that have become late (R356). -/
def State.judgeLate (s : State) (k : Nat) (b : Beat) : State :=
  (s.prefetch.zipIdx).foldl (fun t p =>
    let f := p.1
    if f.slot = k ∧ f.step = b.step ∧ f.need.toNat ≤ b.phase.toNat ∧ !f.late then
      ({ t with prefetch := modifyAt t.prefetch p.2 fun f => { f with late := true } }.count pgStkSvc 3 1).beatEvent
        f.q f.ctx f.tag .done 0 0 b (leBytes 2 f.idx ++ leBytes 1 1)
    else t) s

/-- The entries of the commit of the step fire once its commit point has passed (R316, R230). -/
def State.fireCommit (s : State) (k : Nat) : State :=
  let b := s.slotBeat k
  let fire := (s.schedOf k).filter fun p => !p.2.fired && decide (p.2.target.step = b.step ∧ p.2.target.phase = phaseCommit)
  ((fire.foldl (fun t p => t.setSched k p.1 none) s).fireAll k fire).judgeLate k b

/-! A change of the beat (R308). -/

/-- WAITBEATs that the beat reaches are released (R268). -/
def State.releaseWaitbeat (s : State) (c : Ctx) (b : Beat) : State :=
  { s with cores := SMap.mapVals s.cores (fun _ => Core.reset) fun k x =>
      if c.coreIn k && decide (x.run = .onBeat) && b.reaches x.goal then { x with run := .running, pc := x.pc + 16 } else x }

/-- BEAT trace records of the dies that take slot `k` (R481). -/
def State.traceBeat (s : State) (k : Nat) (old new : Beat) : State :=
  let ctx := match s.slotCtx k with
    | some p => p.1
    | none => 0xFF
  ((List.range 100).filter fun d => s.hasTrc d && decide (s.pageSlot d = k)).foldl
    (fun t d => t.trace d 0x04 0x12 0 ctx 0xFFFF new 0 (leBytes 8 old.toNat)) s

/-- The beat unit rewrites BEAT_SLOTk: a mismatch of its words ends (R381, R320). -/
def State.mendSlot (s : State) (k : Nat) : State :=
  if (s.page pgBeat).badPar.isEmpty then s
  else s.setPage pgBeat (((s.page pgBeat).mend (0x200 + 8 * k)).mend (0x204 + 8 * k))

/-- The beat of slot `k` becomes `b`: schedule entries are judged, WAITBEATs released, prefetches judged, and at (s, 0x0000) the
attempt of the slot's step begins (R308, R316, R356, R282); at (s, 0x0000) the lane states go to their shadows (R191). -/
def State.applyBeat (s : State) (k : Nat) (b : Beat) (intact : Bool) : State :=
  let old := s.slotBeat k
  let s1 := s.setBeat { s.beat with slots := SMap.put s.beat.slots Beat.zero k b,
                                    next := SMap.erase s.beat.next k, aligned := intact, late := false }
  let s2 := if old = b then s1 else ((s1.mendSlot k).count pgBeat 0 1).traceBeat k old b
  let s3 := s2.judgeSched k b
  let s4 := match s3.slotCtx k with
    | some p => s3.releaseWaitbeat p.2 b
    | none => s3
  let s5 := s4.judgeLate k b
  match s5.slotCtx k with
  | some (ctx, c) =>
    let s6 := if b.phase = 0 then s5.copyShadows c else s5
    match c.step with
    | some _ => s6.tryBegin ctx
    | none => s6
  | none => s5

/-- The package's own beat unit decides beat `b` for slot `k` (R311): sent with BEAT_DLY and applied after it, or applied at
once; `kind` is 1 for an advance, 2 for another change. -/
def State.decideBeat (s : State) (k kind : Nat) (b : Beat) : State :=
  if k = s.tslot ∧ (s.dnps ≠ [] ∨ s.beatOuten) then
    let s1 := s.dnps.foldl (fun t p => t.sendMarker p (beatMarker kind k s.beatDly b)) s
    let s2 := s1.sendFrameOut k b s.beatDly
    s2.setBeat { s2.beat with next := SMap.insert s2.beat.next k b }
  else s.applyBeat k b true

/-- A change of Table 12.1 that the package itself makes: by its own beat unit, or at once on a slot that follows another
source, where the next marker governs (R309). BEAT_OUT shows the change (R313). -/
def State.moveBeat (s : State) (k kind : Nat) (b : Beat) : State :=
  if s.ownSlot k then s.decideBeat k kind b
  else (if b = s.slotBeat k then s else s.sendFrameOut k b 0).applyBeat k b true

/-- The return to (s, 0x0000) at a replay: decided, or applied as the marker that announced it came (R308, R311). -/
def State.replayBeat (s : State) (k : Nat) (b : Beat) : State :=
  if s.ownSlot k then s.decideBeat k 2 b else s.applyBeat k b (!s.beat.late)

/-- A beat decided or received for slot `k` whose delay still runs. -/
def State.nextBeat (s : State) (k : Nat) : Option Beat := (s.beat.next.find? fun p => decide (p.1 = k)).map fun p => p.2

end Sys2Proof.Machine
end

