-- ==== Sys2Proof/Machine/Dom.lean ====
section
/-! DEFINITION. Power domain transitions (R333, R394) and the idle banking of a live context's arrays (R396). -/

set_option Elab.async false

namespace Sys2Proof.Machine

/-- Order of the states: off < banked < active (R394). -/
def domRank (st : BitVec 2) : Nat := if st = 1 then 2 else if st = 2 then 1 else 0

/-- A request ends the transition in progress (R394), with the reservation of a raise (R333). -/
def State.stopDom (s : State) (k : Nat) : State :=
  if (s.dom k).busy then
    ((s.setDom k { s.dom k with busy := false }).setDrt { s.drt with domWait := s.drt.domWait.filter fun j => j ≠ k }).ledgerFell
  else s

/-- A granted request of a domain starts its transition, in place of one in progress; a raise first reserves its base draw, waiting
where it does not fit (R333, R394). -/
def State.startDom (s : State) (k : Nat) (st : BitVec 2) : State :=
  let s := s.stopDom k
  let d := s.dom k
  if domRank d.state < domRank st then
    let s1 := (s.setDom k { d with req := st, busy := true }).setDrt { s.drt with domWait := s.drt.domWait ++ [k] }
    let s2 := (s1.serveDraught (s1.drt.domWait.length + s1.drt.waiting.length)).count pgPwr 0 1
    if decide (k ∈ s2.drt.domWait) then s2.reclaim else s2
  else if domRank st < domRank d.state then
    (s.setDom k { d with req := st, busy := true }).count pgPwr 1 1
  else s.setDom k { d with req := st }

def State.idleBankOn (s : State) : Bool := (s.cfg pgPwr 0x800 0).getLsbD 0

/-- R396: the arrays of a context without a running STEP are banked. -/
def State.idleLower (s : State) (ctx : Nat) : State :=
  match s.ctx? ctx with
  | none => s
  | some c =>
    if s.idleBankOn && c.step.isNone then
      let ks := c.arrays.filter fun k => decide ((s.dom k).req = 1)
      let s1 := ks.foldl (fun t k => t.startDom k 2) s
      (s1.setCtx ctx (some { c with idleBanked := true })).count pgPwr 4 ks.length
    else s

/-- R396: arrays that a new step needs are raised again. -/
def State.idleRaise (s : State) (ctx : Nat) : State :=
  match s.ctx? ctx with
  | none => s
  | some c =>
    if c.idleBanked then
      let ks := c.arrays.filter fun k => decide ((s.dom k).req ≠ 1)
      (ks.foldl (fun t k => t.startDom k 1) s).setCtx ctx (some { c with idleBanked := false })
    else s

end Sys2Proof.Machine
end

