-- ==== Sys2Proof/Machine/StepCtl.lean ====
section
/-! DEFINITION. Step orchestration (R221 to R231, R282, R283, R307, R428): trouble flags, the end of an attempt, replay, commit
and failure. -/

set_option Elab.async false

namespace Sys2Proof.Machine

/-! Flags (R222, R221). -/

/-- The flags of the attempt in progress. -/
def StepRec.attFlags (r : StepRec) : List Flag := r.flags.filter fun f => decide (f.att = r.att) && !f.commit

def StepRec.attCount (r : StepRec) (code : BitVec 16) : Nat := (r.attFlags.filter fun f => decide (f.code = code)).length

def lowestCode (l : List (BitVec 16)) : BitVec 16 := l.foldl lowCode 0

/-- The error code of a committed step's line (R223): flags of the first attempt and of the commit, the package's own and those
that the tree has reported to it. -/
def StepRec.lineCode (r : StepRec) : BitVec 16 :=
  lowCode r.treeCode (lowestCode
    ((r.flags.filter fun f => (decide (f.att = 0) && !f.commit) || (decide (f.att = r.att) && f.commit)).map fun f => f.code))

/-! Replay policy (Tables 9.6, 9.7). -/

structure Policy where
  fails : Bool
  max : Nat
  actSm : Nat
  actOo : Nat
  actWr : Nat
  actUe : Nat
  ovrOo : List Nat
  ovrSm : List Nat
  deriving DecidableEq, Repr

def Policy.default : Policy :=
  { fails := false, max := 2, actSm := 0, actOo := 0, actWr := 1, actUe := 0, ovrOo := [1, 2, 2, 2, 2, 2, 2], ovrSm := [] }

def Policy.ofBytes (b : List Byte) : Policy :=
  if bit (fld b 0 1) 7 then
    { fails := bit (fld b 0 1) 6, max := fld b 0 1 % 8, actSm := fld b 1 1 % 4, actOo := fld b 2 1 % 4, actWr := fld b 3 1 % 4,
      actUe := fld b 4 1 % 4, ovrOo := (List.range 7).map fun a => bits (fld b 5 2) (2 * a + 1) (2 * a),
      ovrSm := (List.range 7).map fun a => bits (fld b 7 2) (2 * a + 1) (2 * a) }
  else Policy.default

/-- The policy in force, read at the end of an attempt (R225). -/
def State.policy (s : State) (c : Ctx) : Except Fail Policy :=
  if blkPcy c.block = 0 then .ok Policy.default else (s.read (.service c) (blkPcy c.block) 16).map Policy.ofBytes

/-- Overrides after the flags of every attempt so far (R225, R227), by TAG, ascending. -/
def overridesFor (p : Policy) (r : StepRec) : Overrides :=
  let fs := r.flags.filter fun f => !f.commit
  let add := fun (m : SMap Nat) (f : Flag) =>
    match f.tag with
    | none => m
    | some t =>
      let o := if f.code = eOutlOvf then p.ovrOo.getD f.att 0 else if f.code = eScaleMiss then p.ovrSm.getD f.att 0 else 0
      SMap.insert m t.toNat (SMap.get m 0 t.toNat ||| o ||| (if r.forced then 2 else 0))
  fs.foldl add []

/-- How an attempt ends (R223, R227). -/
inductive Ending where
  | commit
  | replay
  | forced
  | fail
  deriving DecidableEq, Repr

/-- The tree's lowest code of an attempt, kept where it is the first (R223). -/
def StepRec.noteTree (r : StepRec) (code : BitVec 16) : StepRec :=
  if r.att = 0 then { r with treeCode := lowCode r.treeCode code } else r

/-- The decision on the flag counts of the tree: SCALE_MISS, OUTL_OVF, WIDTH_REFUSED, MEM_UE. -/
def Policy.ending (p : Policy) (r : StepRec) (n : List Nat) : Ending :=
  let acts := [p.actSm, p.actOo, p.actWr, p.actUe]
  let up := (n.zip acts).filter fun x => decide (0 < x.1)
  if r.forced then .commit
  else if up.any fun x => decide (x.2 = 3) then .fail
  else if up.any fun x => decide (x.2 = 0) then
    if r.att < p.max then .replay else if p.fails then .fail else .forced
  else .commit

/-! Reports (R428, Table 17.4). -/

def satur16 (n : Nat) : Nat := min 65535 n

def reportMarkerBytes (slot : Nat) (r : Report) : List Byte :=
  let t := match r.target with
    | some b => b.toNat
    | none => 0
  let p := leBytes 1 3 ++ leBytes 1 slot ++ leBytes 2 0 ++ leBytes 1 r.att
    ++ leBytes 1 (b2n r.done + 2 * b2n r.target.isSome + 4 * b2n r.failed) ++ leBytes 2 r.sub ++ leBytes 8 r.beat.toNat
    ++ leBytes 8 t ++ (List.range 4).flatMap (fun i => leBytes 2 (satur16 (r.nflag.getD i 0)))
    ++ leBytes 2 r.lcode.toNat ++ leBytes 2 r.fcode.toNat ++ zeros 24
  p ++ leBytes 4 (crc32 p).toNat

def reportOf (m : List Byte) : Report :=
  let f := fld m 5 1
  { att := fld m 4 1, done := bit f 0, target := if bit f 1 then some (Beat.ofNat (fld m 16 8)) else none, failed := bit f 2,
    sub := fld m 6 2, beat := Beat.ofNat (fld m 8 8), nflag := (List.range 4).map fun i => fld m (24 + 2 * i) 2,
    lcode := BitVec.ofNat 16 (fld m 32 2), fcode := BitVec.ofNat 16 (fld m 34 2) }

/-- The earlier of two targets: the one that is after none of the others (R307). -/
def earlier (a b : Option Beat) : Option Beat :=
  match a, b with
  | none, x => x
  | x, none => x
  | some x, some y => if x.isAfter y then some y else some x

def codeList : List (BitVec 16) := [eScaleMiss, eOutlOvf, eWidthRefused, eMemUe]

/-- A package's own report of beat `b`, subtree 1. -/
def StepRec.report (r : StepRec) (b : Beat) (t : Option Beat) : Report :=
  { att := r.att, done := true, target := t, failed := r.failed.isSome, sub := 1, beat := b,
    nflag := codeList.map r.attCount, lcode := lowestCode (r.attFlags.map fun f => f.code), fcode := r.failed.getD 0 }

/-- Two reports combined (R428). -/
def Report.join (a b : Report) : Report :=
  { a with done := a.done && b.done, target := earlier a.target b.target, failed := a.failed || b.failed, sub := a.sub + b.sub,
           nflag := (a.nflag.zip b.nflag).map (fun p => p.1 + p.2), lcode := lowCode a.lcode b.lcode,
           fcode := lowCode a.fcode b.fcode }

/-- The reports of every trained DNP for beat `b` and attempt `att`; none until all are there. -/
def State.childReports (s : State) (b : Beat) (att : Nat) : Option (List Report) :=
  s.dnps.mapM fun p =>
    match SMap.get s.beat.reports none p with
    | some x => if x.beat = b ∧ x.att = att ∧ x.done then some x else none
    | none => none

/-- Packages of the tree below and including this one (R426). -/
def State.subtree (s : State) : Nat := 1 + (s.dnps.map fun p => (s.port p).sub).sum

/-- The combined report goes up UPP (R428). -/
def State.sendReport (s : State) (k : Nat) (r : Report) : State :=
  if s.portUp 2 then s.sendMarker 2 (reportMarkerBytes k { r with sub := s.subtree }) else s

/-- A failed attempt is reported at once by a worker (R428). -/
def State.reportFail (s : State) (ctx : Nat) (code : BitVec 16) : State :=
  match s.ctx? ctx with
  | none => s
  | some c =>
    match c.step with
    | none => s
    | some r =>
      if c.slot = s.tslot ∧ s.beat.actsrc = 2 then
        s.sendReport c.slot { r.report (s.slotBeat c.slot) none with done := false, failed := true, fcode := code }
      else s

/-! The end of a step. -/

/-- RESULT of a STEP: STEP, ATT, END (Table 11.6). -/
def StepRec.result (r : StepRec) (fin : Nat) : List Byte := leBytes 5 r.step.toNat ++ leBytes 1 r.att ++ leBytes 1 fin

/-- The step is over: the context has no STEP, and the completion line is written. -/
def State.closeStep (s : State) (ctx : Nat) (r : StepRec) (res : Result) (code : BitVec 16) (addr : Addr) (fin : Nat)
    (f : Ctx → Ctx) : State :=
  match s.ctx? ctx with
  | none => s
  | some c =>
    let s1 := s.setCtx ctx (some (f { c with step := none }))
    let s2 := if c.slot = s1.tslot then s1.setBeat { s1.beat with own := none, reports := [] } else s1
    (s2.complete r.q r.slot res code addr (r.result fin)).idleLower ctx

/-- The step fails (R222, R227, R231): descriptors that remain are aborted, the stores and override tables cleared, the record
written with END 2; the beat stays, and the context accepts no further step. -/
def State.failStep (s : State) (ctx : Nat) (code : BitVec 16) (addr : Addr) : State :=
  match s.ctx? ctx with
  | none => s
  | some c =>
    match c.step with
    | none => s
    | some r =>
      let s1 := (s.reportFail ctx code).abortCtx ctx
      let r1 := ((s1.ctx? ctx).bind fun c => c.step).getD r
      let s2 := ((s1.clearStores c).1).clearOverrides c
      let s3 := match s2.stepRecord c r1 2 code with
        | .ok t => t
        | .error _ => s2
      s3.closeStep ctx r1 .failed code addr 2 fun c => { c with dead := true }

/-- An error ends the attempt (R222, R272), or is kept until the commit's descriptors have completed (R231). -/
def State.attemptError (s : State) (ctx : Nat) (code : BitVec 16) (addr : Addr) (commit r231 : Bool) : State :=
  match (s.ctx? ctx).bind fun c => c.step with
  | none => s
  | some r =>
    if r.failed.isSome then s
    else if commit then (s.noteError ctx code addr r231).reportFail ctx code
    else (s.noteError ctx code addr r231).failStep ctx code addr

/-- An access of a service of the step has failed (R231, R222). -/
def State.serviceError (s : State) (ctx : Nat) (f : Fail) (commit r231 : Bool) : State :=
  match s.ctx? ctx with
  | some c => (s.memFail (.service c) f).attemptError ctx f.code f.addr commit r231
  | none => s

/-- Low scale misses (R71): judged once in an attempt for each used tracker. -/
def State.judgeLow (s : State) (ctx : Nat) : Except Fail State :=
  match s.ctx? ctx with
  | none => .ok s
  | some c =>
    let old := match c.step with
      | some r => r.judged
      | none => []
    match s.lowTrackers c (c.used.filter fun a => !decide (a ∈ old)) with
    | .error f => .error f
    | .ok l =>
      match s.mapTrackers c (fun b => some (trkMissed b)) l with
      | .error f => .error f
      | .ok t =>
        .ok ((l.foldl (fun t _ => t.addFlag ctx eScaleMiss none none false) t).setStep ctx fun r =>
          { r with judged := r.judged ++ l })

/-- A HOLD copy of the context is running (R351). -/
def State.holdRuns (s : State) (ctx : Nat) : Bool :=
  (s.copies.any fun f => decide (f.ctx = ctx) && f.hold && decide (0 < f.pos)) ||
  s.queues.any fun p => p.2.cmds.any fun c =>
    c.started && decide (cOpc c.line = 0x0C) && decide (cCtx c.line = ctx) && bit (fld c.line 32 1) 0

/-- A replay has been decided (R223): the event, the abort of what remains and the clear of R109; REPLAY does the rest. -/
def State.startReplay (s : State) (ctx : Nat) (c : Ctx) (r : StepRec) (low : BitVec 16) (forced : Bool) : State :=
  let s1 := s.event c.queue
    { etype := 0x06, res := .done, ctx := ctx, eng := 0, tag := 0, err := low, hearth := 0xFFFF, unit := 0, addr := 0,
      beat := s.slotBeat c.slot, data := leBytes 4 r.att ++ leBytes 4 r.attFlags.length }
  let s2 := ((s1.abortCtx ctx).clearStores c).1
  s2.setStep ctx fun r => { r with replaying := true, forced := forced }

/-- The end of an attempt on the flags of the tree `n`, lowest code `low` (R223, R227). A commit waits while a HOLD
copy runs (heldCommit). -/
def State.endAttempt (s : State) (ctx : Nat) (n : List Nat) (low : BitVec 16) : State :=
  match s.ctx? ctx with
  | none => s
  | some c =>
    match c.step with
    | none => s
    | some r =>
      match s.policy c with
      | .error f => s.serviceError ctx f false false
      | .ok p =>
        let s := s.setStep ctx fun r => r.noteTree low
        match p.ending r n with
        | .commit => (s.setStep ctx fun r => { r with decided := true }).moveBeat c.slot 1 { step := r.step, phase := phaseCommit }
        | .replay => s.startReplay ctx c r low false
        | .forced => s.startReplay ctx c r low true
        | .fail => s.failStep ctx low 0

/-- The decision would be to commit while a HOLD copy of the context runs (R351). -/
def State.heldCommit (s : State) (ctx : Nat) (n : List Nat) : Bool :=
  match s.ctx? ctx with
  | none => false
  | some c =>
    match c.step, s.policy c with
    | some r, .ok p => decide (p.ending r n = .commit) && s.holdRuns ctx
    | _, _ => false

/-! PHASE_DONE (R283, R307). -/

/-- Nothing of a failed commit can run on (R231): its descriptors have completed but those that wait for a signal, or behind such
a one, and its cores are idle, stopped, or wait. -/
def State.stuck (s : State) (ctx : Nat) (c : Ctx) (b : Beat) : Bool :=
  (s.cores.all fun p => !c.coreIn p.1 ||
    match p.2.run with
    | .idle => true
    | .stopped => true
    | .issuing => true
    | .onBeat => p.2.goal.isAfter b
    | .waiting => !s.waitOk c (p.1 / 8) (wSync p.2.word) (fld p.2.word 4 3) (fld p.2.word 7 1)
    | .draining => decide (s.outstanding p.1 ≠ 0)
    | .ending => decide (s.outstanding p.1 ≠ 0)
    | .running => false)
  && s.engines.all fun p =>
    (p.2.win.all fun e => decide (e.ctx ≠ ctx) || (!e.started && e.ended.isNone))
    && (match p.2.win.head? with
        | some e => decide (e.ctx ≠ ctx) || (headerOk c e.hearth e.desc && !s.waitOk c e.hearth (hWait e.desc) (hCount e.desc) (hEpoch e.desc))
        | none => p.2.pend.all fun q => !c.coreIn q.core)

/-- R283 for beat `b`: cores idle or stalled on later WAITBEATs, windows empty. -/
def State.quiet (s : State) (ctx : Nat) (c : Ctx) (b : Beat) : Bool :=
  (s.cores.all fun p => !c.coreIn p.1 || decide (p.2.run = .idle) || (decide (p.2.run = .onBeat) && p.2.goal.isAfter b))
    && s.windowsEmpty ctx c

/-- The descriptors of the beat have completed: R283, or in a failed commit as far as they can (R231). -/
def State.settledAt (s : State) (ctx : Nat) (c : Ctx) (r : StepRec) (b : Beat) : Bool :=
  s.quiet ctx c b || (r.failed.isSome && s.stuck ctx c b)

/-- The earliest WAITBEAT target of a context's stalled cores. -/
def State.target (s : State) (c : Ctx) : Option Beat :=
  (s.cores.filter fun p => c.coreIn p.1 && decide (p.2.run = .onBeat)).foldl (fun t p => earlier t (some p.2.goal)) none

/-- The next beat of R307 on the reports of the whole tree, or of the one package. -/
def State.treeAdvance (s : State) (ctx : Nat) (c : Ctx) (r : StepRec) (w : Report) : State :=
  let go := match w.target with
    | some t => if t.step = r.step ∧ t.phase ≠ phaseCommit ∧ w.nflag.getD 3 0 = 0 then some t else none
    | none => none
  match go with
  | some t => s.moveBeat c.slot 1 { step := r.step, phase := t.phase }
  | none =>
    match s.judgeLow ctx with
    | .error f => s.serviceError ctx f false true
    | .ok s1 =>
      let r1 := ((s1.ctx? ctx).bind fun c => c.step).getD r
      let low := r1.attCount eScaleMiss - r.attCount eScaleMiss
      let n := match w.nflag with
        | a :: t => (a + low) :: t
        | [] => []
      let code := if 0 < low then lowCode w.lcode eScaleMiss else w.lcode
      if s1.heldCommit ctx n then s.setStep ctx fun r => { r with reported := none }
      else s1.endAttempt ctx n code

/-- What follows when this package and every trained DNP below it have reported beat `b`: the root moves the beat, a worker
reports up once its data flits are acknowledged (R307, R428). -/
def State.tryAdvance (s : State) (ctx : Nat) : State :=
  match s.ctx? ctx with
  | none => s
  | some c =>
    match c.step with
    | none => s
    | some r =>
      let b := s.slotBeat c.slot
      if decide (r.reported = some b) && !r.replaying && !r.decided && (s.nextBeat c.slot).isNone then
        if c.slot ≠ s.tslot then s.treeAdvance ctx c r (r.report b (s.target c))
        else
          match s.beat.own, s.childReports b r.att with
          | some own, some l =>
            let w := l.foldl Report.join (r.report b own.target)
            if s.beat.actsrc = 1 then
              if w.failed then s.failStep ctx w.fcode 0 else s.treeAdvance ctx c r w
            else if decide (s.beat.actsrc = 2) && (s.port 2).replay.isEmpty then
              let s1 := (s.sendReport c.slot w).setStep ctx fun r => r.noteTree w.lcode
              s1.setBeat { s1.beat with own := none }
            else s
          | _, _ => s
      else s

/-- The package's own report of its beat is ready (R283); on a worker low misses are judged with the last report below
0xFFFF. -/
def State.phaseDone (s : State) (ctx : Nat) (c : Ctx) (r : StepRec) : State :=
  let b := s.slotBeat c.slot
  let t := s.target c
  let last := match t with
    | some x => decide (x.step ≠ r.step ∨ x.phase = phaseCommit)
    | none => true
  let worker := decide (c.slot = s.tslot) && decide (s.beat.actsrc ≠ 1)
  let s1 := if worker && last && decide (b.phase ≠ phaseCommit) then s.judgeLow ctx else .ok s
  match s1 with
  | .error f => s.serviceError ctx f false true
  | .ok s1 =>
    let r1 := ((s1.ctx? ctx).bind fun c => c.step).getD r
    let s2 := s1.setStep ctx fun r => { r with reported := some b }
    if c.slot = s.tslot then s2.setBeat { s2.beat with own := some (r1.report b t) } else s2

/-- The report of beat (s, 0xFFFF) goes up from a worker once every DNP has reported it (R428). -/
def State.sendCommitReport (s : State) (c : Ctx) (r : StepRec) : State :=
  if decide (c.slot = s.tslot) && decide (s.beat.actsrc = 2) then
    match s.beat.own, s.childReports (s.slotBeat c.slot) r.att with
    | some own, some l =>
      if (s.port 2).replay.isEmpty then (s.sendReport c.slot (l.foldl Report.join own)).setBeat { s.beat with own := none } else s
    | _, _ => s
  else s

/-- PHASE_DONE (R283, R307, R428). A step that an error of its start has failed ends here (R222). -/
def execPhaseDone (ctx : Nat) (s : State) : Host.Outcome State Fault Refusal :=
  match s.ctx? ctx with
  | none => .next s
  | some c =>
    match c.step with
    | none => .next s
    | some r =>
      let b := s.slotBeat c.slot
      if decide (b.step = r.step) && r.begun && !r.replaying && (s.nextBeat c.slot).isNone && s.isOpen pgBeat then
        if r.failed.isSome ∧ b.phase ≠ phaseCommit then .next (s.failStep ctx (r.failed.getD 0) r.failAddr)
        else if decide (r.reported ≠ some b) && s.settledAt ctx c r b then
          let s1 := s.phaseDone ctx c r
          if b.phase = phaseCommit then .next (s1.sendCommitReport c r) else .next (s1.tryAdvance ctx)
        else .next s
      else .next s

/-! REPLAY (R224, R357, R276, R283). -/

/-- RNG_CNT_SHAD: one restore in each generator of a partition in lane-stream mode (R206, R191). -/
def State.countShadows (s : State) (c : Ctx) : State :=
  if c.lane then c.hearths.foldl (fun t g => t.count (rngPage g) 5 1) s else s

/-- REPLAY: once every prefetch that fired in the attempt has completed. -/
def State.replay (s : State) (ctx : Nat) (c : Ctx) (r : StepRec) : State :=
  let h := stepHalf r.step
  match s.clearHalf c h with
  | .error f => s.serviceError ctx f false true
  | .ok s1 =>
    match s1.mapTrackers c (fun b => if trkMiss b then some (trkJit b) else none) c.used with
    | .error f => s1.serviceError ctx f false true
    | .ok s2 =>
      match s2.policy c with
      | .error f => s2.serviceError ctx f false false
      | .ok p =>
        let s3 := (((s2.abortCtx ctx).restoreLanes c).countShadows c).restoreSync c
        let s4 := s3.writeOverrides c (overridesFor p r)
        let s5 := s4.setStep ctx fun r => { r with att := r.att + 1, begun := false, replaying := false, decided := false,
                                                   reported := none, judged := [] }
        let s6 := s5.setBeat { s5.beat with own := if c.slot = s5.tslot then none else s5.beat.own }
        s6.replayBeat c.slot { step := r.step, phase := 0 }

/-- Prefetches of the context's attempt in flight (R224, R357). -/
def State.prefetching (s : State) (ctx : Nat) (step : BitVec 40) : Bool :=
  s.prefetch.any fun f => decide (f.ctx = ctx ∧ f.step = step)

/-- REPLAY (R224). -/
def execReplay (ctx : Nat) (s : State) : Host.Outcome State Fault Refusal :=
  match s.ctx? ctx with
  | none => .next s
  | some c =>
    match c.step with
    | none => .next s
    | some r => if r.replaying && !s.prefetching ctx r.step && s.isOpen pgBeat then .next (s.replay ctx c r) else .next s

/-! COMMIT_FINALISE (R230, R220, R74, R109, R231). -/

/-- Steps 3 and 4 of R230, and the entries of phase 0xFFFF after the commit point. -/
def State.finalise (s : State) (ctx : Nat) (c : Ctx) (r : StepRec) : State :=
  match r.failed with
  | some code => s.failStep ctx code r.failAddr
  | none =>
    let z := s.clearStores c
    let s1 := if z.2.2 = 0 then z.1 else
      z.1.event c.queue { etype := 0x10, res := .done, ctx := ctx, eng := 0, tag := 0, err := 0, hearth := z.2.1, unit := 0,
                          addr := 0, beat := s.slotBeat c.slot, data := leBytes 4 z.2.2 }
    let tree := ((s.childReports (s.slotBeat c.slot) r.att).getD []).map fun w => w.lcode
    let code := lowCode r.lineCode (lowestCode tree)
    let fin := if r.forced then 1 else 0
    let res := do
      let a ← s1.mapTrackers c (fun b => if trkUsed b then some (trkPush r.step b) else none) c.used
      let b ← a.finEntries c r.step (List.range (blkNent c.block))
      let d ← b.stepRecord c r fin code
      d.clearHalf c (1 - stepHalf r.step)
    match res with
    | .error f => ((s1.memFail (.service c) f).noteError ctx f.code f.addr true).failStep ctx f.code f.addr
    | .ok s2 =>
      let s3 := (s2.clearOverrides c).closeStep ctx r (if r.att = 0 then .done else .doneAfterReplay) code 0 fin
        fun c => { c with used := [] }
      let s4 := if s3.fw.trial && s3.autocommit then s3.commitTrial else s3
      s4.fireCommit c.slot

/-- The commit of the tree is complete as this package sees it: the root has every report, a worker the marker of
(s + 1, 0x0000) (R230 step 3, R307); a failed one waits for neither (R231). -/
def State.commitDue (s : State) (c : Ctx) (r : StepRec) : Bool :=
  let b := s.slotBeat c.slot
  if r.failed.isSome then true
  else if s.ownSlot c.slot then
    decide (r.reported = some b) && (decide (c.slot ≠ s.tslot) || (s.childReports b r.att).isSome)
  else decide (s.nextBeat c.slot = some { step := r.step + 1, phase := 0 })

/-- COMMIT_FINALISE (R230). -/
def execCommitFinalise (ctx : Nat) (s : State) : Host.Outcome State Fault Refusal :=
  match s.ctx? ctx with
  | none => .next s
  | some c =>
    match c.step with
    | none => .next s
    | some r =>
      let b := s.slotBeat c.slot
      if decide (b = { step := r.step, phase := phaseCommit }) && s.settledAt ctx c r b && s.commitDue c r && s.isOpen pgBeat then
        let s1 := s.finalise ctx c r
        let dead := match s1.ctx? ctx with
          | some x => x.dead
          | none => true
        let holds := match s1.fw.activating with
          | some a => decide (a.hold = some c.slot)
          | none => false
        if dead || holds || !s1.ownSlot c.slot then .next s1
        else .next (s1.moveBeat c.slot 1 { step := r.step + 1, phase := 0 })
      else .next s

end Sys2Proof.Machine
end

