-- ==== Sys2Proof/Machine/Complete.lean ====
section
/-! DEFINITION. The end of a descriptor (R281, R275, R219) and what the manager firmware does with its status (R222, R223, R124,
R231). -/

set_option Elab.async false

namespace Sys2Proof.Machine

/-- No other package shares the step of the slot: its end of attempt waits for none (R223). -/
def State.alone (s : State) (slot : Nat) : Bool := decide (slot ≠ s.tslot) || (decide (s.beat.actsrc = 1) && s.dnps.isEmpty)

/-- A regenerable MEM_UE (R222): a flag, and the rest of the attempt aborted at once (R223 step 1); a failure met among what
is aborted fails the step. Once commit is decided nothing replays: the flag is counted (R230). -/
def State.flagUe (s : State) (ctx : Nat) (tag : BitVec 32) (addr : Addr) : State :=
  let decided := match (s.ctx? ctx).bind fun c => c.step with
    | some r => r.decided || r.replaying
    | none => false
  let s0 := (s.noteUe ctx addr).addFlag ctx eMemUe (some tag) none
    (match (s.ctx? ctx).bind fun c => c.step with
      | some r => r.decided
      | none => false)
  if decided then s0
  else
    let s1 := s0.abortCtx ctx
    match s1.ctx? ctx with
    | none => s1
    | some c =>
      match c.step with
      | none => s1
      | some r =>
        match r.failed with
        | some code => s1.failStep ctx code r.failAddr
        | none => if s1.alone c.slot then s1.treeAdvance ctx c r (r.report (s1.slotBeat c.slot) none) else s1

/-- The participant is the root of its reduction tree: no level gives it a parent (R122). -/
def redRoot (c : Ctx) (g : Nat) (e : Entry) : Bool :=
  match redParts c g e.desc with
  | some ps => (List.range 5).all fun lv => (redParent c ps lv g).isNone
  | none => false

/-- The REDUCE descriptors of a TAG in one XRE window end ABORTED (R124); a running root's handle keeps unspecified contents. -/
def State.abortReduce (fuel : Nat) (s : State) (u ctx : Nat) (c : Ctx) (tag : BitVec 32) : State :=
  match fuel with
  | 0 => s
  | fuel + 1 =>
    match (s.engine u).win.findIdx? fun e => decide (e.ctx = ctx ∧ hEng e.desc = 9 ∧ hOp e.desc = 4 ∧ hTag e.desc = tag) with
    | none => s
    | some i =>
      match s.entry? u i, s.unit u with
      | some e, some x =>
        let s1 := if e.started && e.ended.isNone && redRoot c x.g e then s.freeHandleTiles x.g (xreHandle e.desc) else s
        (s1.leaveWindow u i e e.abortStatus).abortReduce fuel u ctx c tag
      | _, _ => s

/-- R124: a failed participant ends the REDUCEs of its TAG. -/
def State.reduceFailed (s : State) (ctx : Nat) (c : Ctx) (d : List Byte) : State :=
  if hEng d = 9 ∧ hOp d = 4 then
    (s.engines.map fun p => p.1).foldl (fun t u => t.abortReduce (t.engine u).win.length u ctx c (hTag d)) s
  else s

/-- What a FAILED status does (R222, R231). -/
def State.descFailed (s : State) (ctx : Nat) (c : Ctx) (e : Entry) (st : Status) : State :=
  let commit := decide (e.startBeat.phase = phaseCommit)
  let s1 := s.reduceFailed ctx c e.desc
  if st.code = eMemUe then
    if !commit && !s.persistent c st.addr.toNat then s1.flagUe ctx (hTag e.desc) st.addr
    else s1.attemptError ctx st.code st.addr commit true
  else s1.attemptError ctx st.code st.addr commit commit

/-- DESCRIPTOR_COMPLETE (R281). -/
def execDescriptorComplete (u idx : Nat) (s : State) : Host.Outcome State Fault Refusal :=
  match s.entry? u idx with
  | none => .next s
  | some e =>
    match e.ended, s.ctx? e.ctx with
    | some st, some c =>
      let a := s.contribute c e st
      let s1 := if a.2.res = .failed then a.1.memFail (.desc c) { code := a.2.code, addr := a.2.addr, pw := a.2.pw } else a.1
      let s2 := s1.leaveWindow u idx e a.2
      let s3 := if a.2.res = .done then s2.signalFrom c e.hearth (hSig e.desc) false 1 else s2
      let s4 := if a.2.res = .done then s3.passFlags e.ctx e else s3
      .next (if a.2.res = .failed then s4.descFailed e.ctx c e a.2 else s4)
    | _, _ => .next s

end Sys2Proof.Machine
end

