-- ==== Sys2Proof/Machine/Seq.lean ====
section
/-! DEFINITION. Sequencer cores (R263 to R272): fetch, dispatch faults, the ten words, admission of ISSUEs (R150, R151), and the
random-word service (R199). -/

set_option Elab.async false

namespace Sys2Proof.Machine

/-- The address lies in the partition, in a stack or hearth memory (R263, R265). -/
def State.inPartition (s : State) (c : Ctx) (a : Nat) : Bool :=
  match s.resolve (.desc c) a with
  | .ok p => decide (s.place p ≠ .host)
  | .error f => decide (f.code ≠ eBusErr)

/-- The bytes of a dispatch word or descriptor at `a` (R263, R265): BUS_ERR at `w`, the word's address, unless they lie in the
partition; MEM_UE at the line. -/
def State.fetchBytes (s : State) (c : Ctx) (w : Addr) (a n : Nat) : Except Fail (List Byte) :=
  if !s.inPartition c a then .error { code := eBusErr, addr := w }
  else
    match s.read (.desc c) a n with
    | .ok b => .ok b
    | .error f => .error (if f.code = eMemUe then f else { code := eBusErr, addr := w })

/-- A dispatch fault (R272): the core stops, the event is written, the attempt ends as a failure in every phase (R222). -/
def State.dispatchFault (s : State) (core : Nat) (ctx : Nat) (c : Ctx) (f : Fail) : State :=
  let g := core / 8
  let s1 := (s.memFail (.desc c) f).setCore core { s.core core with run := .stopped }
  let s2 := s1.count (hearthPage g 0) 6 1
  let s3 := s2.event c.queue
    { etype := 0x05, res := .failed, ctx := ctx, eng := 0, tag := 0, err := f.code, hearth := (c.localHearth g).getD 0xFFFF,
      unit := core % 8, addr := f.addr, beat := s.slotBeat c.slot, data := [] }
  s3.attemptError ctx f.code f.addr false false

/-- The hearth's cores run: their block is neither held nor isolated (R403, R404). -/
def State.hrtUp (s : State) (g : Nat) : Bool :=
  match s.pageInfo (hearthPage g 0) with
  | some i => !s.iso (hearthPage g 0) i
  | none => false

/-- A word has the value `n` in a field that names a sync object; none is not allowed (R272, R273). -/
def wordSync (c : Ctx) (g n : Nat) : Bool :=
  match syncRef c g n with
  | .package _ => true
  | .loc _ => true
  | _ => false

/-- The sync fields of a word are valid (R272). -/
def wordSyncOk (c : Ctx) (g : Nat) (w : List Byte) : Bool :=
  match wOpc w with
  | 2 => wordSync c g (wSync w)
  | 3 => wordSync c g (wSync w)
  | 9 => !bit (fld w 1 1) 0 || wordSync c g (wSync w)
  | _ => true

/-- A running core executes the word at PC where its opcode is `opc` (R263, R264); a word that cannot be executed is a dispatch
fault under any word command (R272). -/
def State.runWord (s : State) (core opc : Nat) (run : Nat → Ctx → Core → List Byte → State → State) : State :=
  let g := core / 8
  let x := s.core core
  match s.hearthCtx g with
  | none => s
  | some (ctx, c) =>
    if decide (x.run = .running) && s.hrtUp g then
      let w := if x.pc.toNat % 16 = 0 then s.fetchBytes c x.pc x.pc.toNat 16 else .error { code := eBusErr, addr := x.pc }
      match w with
      | .error f => s.dispatchFault core ctx c f
      | .ok w =>
        if 9 < wOpc w then s.dispatchFault core ctx c { code := eBusErr, addr := x.pc }
        else if wOpc w ≠ opc then s
        else if !wordForm w || !wordSyncOk c g w then s.dispatchFault core ctx c { code := eBusErr, addr := x.pc }
        else run ctx c x w s
    else s

/-- The word counts as executed (HRT_CNT_WORD). -/
def State.wordDone (s : State) (core : Nat) : State := s.count (hearthPage (core / 8) 0) 0 1

/-- The core goes on at the next word. -/
def State.nextWord (s : State) (core : Nat) (x : Core) : State :=
  s.setCore core { x with run := .running, pc := x.pc + 16, word := [] }

/-- The core stalls on its word. -/
def State.stall (s : State) (core : Nat) (x : Core) (w : List Byte) (r : CoreRun) : State :=
  s.setCore core { x with run := r, word := w }

/-- DISPATCH_NOP (R264). -/
def execDispatchNop (core : Nat) (s : State) : Host.Outcome State Fault Refusal :=
  .next (s.runWord core 0 fun _ _ x _ t => (t.wordDone core).nextWord core x)

/-- The descriptor address of an ISSUE (Table 11.1). -/
def issueAddr (x : Core) (w : List Byte) : Addr :=
  let b3 := fld w 3 1
  let lc := x.lc.toList.getD (b3 % 4) 0
  x.base.toList.getD (fld w 2 1 % 8) 0 + BitVec.ofNat 48 (fld w 8 6)
    + BitVec.ofNat 48 (if bit b3 7 then lc.toNat * fld w 4 2 * 64 else 0)

/-- ISSUE (R265): the address is checked and the core becomes pending on the engine's window. -/
def execIssueWord (core time : Nat) (s : State) : Host.Outcome State Fault Refusal :=
  .next (s.runWord core 1 fun ctx c x w t =>
    let a := issueAddr x w
    let bad : Fail := { code := eBusErr, addr := x.pc }
    match engPage (core / 8) (wEng w) (wInst w) with
    | none => t.dispatchFault core ctx c bad
    | some u =>
      if a.toNat % 64 ≠ 0 then t.dispatchFault core ctx c bad
      else
        match t.fetchBytes c x.pc a.toNat 64 with
        | .error f => t.dispatchFault core ctx c f
        | .ok d =>
          if hEng d ≠ wEng w then t.dispatchFault core ctx c bad
          else
            let e := t.engine u
            (((t.wordDone core).setEngine u { e with pend := e.pend ++ [{ core := core, addr := a, time := time }] }).stall
              core x w .issuing))

/-- The wait condition in the header of a pending ISSUE's descriptor is met (R150 step 1); a header that cannot be read or names
an invalid number waits for nothing. -/
def State.pendReady (s : State) (c : Ctx) (p : Pend) : Bool :=
  match s.read (.desc c) p.addr.toNat 16 with
  | .ok d => decide (syncRef c (p.core / 8) (hWait d) = .invalid) || s.waitOk c (p.core / 8) (hWait d) (hCount d) (hEpoch d)
  | .error _ => true

/-- The effective age (R150, R151): bias under expert unlock only. -/
def State.effAge (s : State) (c : Ctx) (g time : Nat) (p : Pend) : Nat :=
  let pg := hearthPage g 0
  let v := (s.cfg pg 0x810 0).toNat
  let age := min (2 ^ 20 - 1) (time - p.time)
  let bwd := match s.read (.desc c) p.addr.toNat 16 with
    | .ok d => hBwd d
    | .error _ => false
  if (s.page pg).unl && bit v 31 && (bwd != bit v 30) then min (2 ^ 20 - 1) (age + bits v 19 0) else age

/-- The ISSUE admitted next: the ready one of greatest effective age, the lowest core on a tie; for a DMA engine the first to
arrive (R150, R265). -/
def State.admits (s : State) (c : Ctx) (x : EngUnit) (u time : Nat) : Option Pend :=
  let l := (s.engine u).pend
  if x.eng = 8 then l.head?
  else
    (l.filter fun p => s.pendReady c p).foldl (fun b p =>
      match b with
      | none => some p
      | some q =>
        let ap := s.effAge c x.g time p
        let aq := s.effAge c x.g time q
        if decide (aq < ap) || (decide (ap = aq) && decide (p.core < q.core)) then some p else some q) none

/-- ISSUE_ADMIT (R150, R277): the descriptor is copied into the window and its core goes on. -/
def execIssueAdmit (u time : Nat) (s : State) : Host.Outcome State Fault Refusal :=
  match s.unit u with
  | none => .next s
  | some x =>
    match s.cordCtx (x.die / 3) with
    | none => .next s
    | some (ctx, c) =>
      let e := s.engine u
      if e.win.length < 8 then
        match s.admits c x u time with
        | none => .next s
        | some p =>
          let k := s.core p.core
          let s1 := s.setEngine u { e with pend := e.pend.filter fun q => q.core ≠ p.core }
          match s1.fetchBytes c k.pc p.addr.toNat 64 with
          | .error f => .next (s1.dispatchFault p.core ctx c f)
          | .ok d =>
            if hEng d ≠ x.eng then .next (s1.dispatchFault p.core ctx c { code := eBusErr, addr := k.pc })
            else
              let n : Entry := { desc := d, addr := p.addr, core := p.core, ctx := ctx, credits := 0, started := false,
                                 startBeat := Beat.zero, tmo := false, prog := Progress.start, flags := [], contrib := none,
                                 ended := none }
              let s2 := s1.setEngine u { s1.engine u with win := (s1.engine u).win ++ [n] }
              .next ((s2.count (hearthPage (p.core / 8) 0) 1 1).nextWord p.core k)
      else .next s

/-- WAIT (R266). -/
def execWaitWord (core : Nat) (s : State) : Host.Outcome State Fault Refusal :=
  .next (s.runWord core 2 fun _ c x w t =>
    let t := t.wordDone core
    if t.waitOk c (core / 8) (wSync w) (fld w 4 3) (fld w 7 1) then t.nextWord core x else t.stall core x w .waiting)

/-- WAIT_RELEASE (R274): the condition of the stalled WAIT has become true. -/
def execWaitRelease (core : Nat) (s : State) : Host.Outcome State Fault Refusal :=
  let x := s.core core
  match s.hearthCtx (core / 8) with
  | none => .next s
  | some (_, c) =>
    if decide (x.run = .waiting) && s.hrtUp (core / 8)
        && s.waitOk c (core / 8) (wSync x.word) (fld x.word 4 3) (fld x.word 7 1) then .next (s.nextWord core x)
    else .next s

/-- The signal of a SIGNAL word (R267). -/
def State.wordSignal (s : State) (c : Ctx) (core : Nat) (w : List Byte) : State :=
  s.signalFrom c (core / 8) (wSync w) (bit (fld w 1 1) 0) (BitVec.ofNat 32 (fld w 4 4))

/-- SIGNAL (R267). -/
def execSignalWord (core : Nat) (s : State) : Host.Outcome State Fault Refusal :=
  .next (s.runWord core 3 fun _ c x w t =>
    let t := t.wordDone core
    if bit (fld w 1 1) 1 && decide (t.outstanding core ≠ 0) then t.stall core x w .draining
    else (t.wordSignal c core w).nextWord core x)

/-- The end of a list (R271). -/
def State.endList (s : State) (c : Ctx) (core : Nat) (x : Core) (w : List Byte) : State :=
  let s1 := if bit (fld w 1 1) 0 then s.signalFrom c (core / 8) (wSync w) false 1 else s
  s1.setCore core { x with run := .idle, word := [] }

/-- DRAIN_COMPLETE (R267, R271). -/
def execDrainComplete (core : Nat) (s : State) : Host.Outcome State Fault Refusal :=
  let x := s.core core
  match s.hearthCtx (core / 8) with
  | none => .next s
  | some (_, c) =>
    if s.outstanding core = 0 ∧ s.hrtUp (core / 8) = true then
      if x.run = .draining then .next ((s.wordSignal c core x.word).nextWord core x)
      else if x.run = .ending then .next (s.endList c core x x.word)
      else .next s
    else .next s

/-- WAITBEAT (R268). -/
def execWaitbeatWord (core : Nat) (s : State) : Host.Outcome State Fault Refusal :=
  .next (s.runWord core 4 fun _ c x w t =>
    let t := t.wordDone core
    if (t.slotBeat c.slot).reaches { x with word := w }.goal then t.nextWord core x else t.stall core x w .onBeat)

/-- PC + 16 × TGT. -/
def branchTo (pc : Addr) (w : List Byte) : Addr := pc + BitVec.ofInt 48 (16 * wTgt w)

/-- LOOP (R269). -/
def execLoopWord (core : Nat) (s : State) : Host.Outcome State Fault Refusal :=
  .next (s.runWord core 5 fun _ _ x w t =>
    let i : Fin 4 := ⟨fld w 1 1 % 4, Nat.mod_lt _ (by decide)⟩
    let t := t.wordDone core
    if x.lc[i].toNat + 1 < fld w 4 4 then t.setCore core { x with lc := x.lc.set i (x.lc[i] + 1), pc := branchTo x.pc w }
    else t.setCore core { x with lc := x.lc.set i 0, pc := x.pc + 16 })

/-- JUMP (R264). -/
def execJumpWord (core : Nat) (s : State) : Host.Outcome State Fault Refusal :=
  .next (s.runWord core 6 fun _ _ x w t => (t.wordDone core).setCore core { x with pc := branchTo x.pc w })

/-- SETBASE (R264). -/
def execSetbaseWord (core : Nat) (s : State) : Host.Outcome State Fault Refusal :=
  .next (s.runWord core 7 fun _ _ x w t =>
    let i : Fin 8 := ⟨fld w 1 1 % 8, Nat.mod_lt _ (by decide)⟩
    let v := BitVec.ofNat 48 (fld w 8 6)
    (t.wordDone core).setCore core
      { x with base := x.base.set i (if bit (fld w 1 1) 3 then x.base[i] + v else v), pc := x.pc + 16 })

/-- TRAP (R270). -/
def execTrapWord (core : Nat) (s : State) : Host.Outcome State Fault Refusal :=
  .next (s.runWord core 8 fun ctx c x w t =>
    let g := core / 8
    let code := BitVec.ofNat 32 (fld w 4 4)
    let t1 := (t.wordDone core).event c.queue
      { etype := 0x03, res := .done, ctx := ctx, eng := 0, tag := code, err := 0, hearth := (c.localHearth g).getD 0xFFFF,
        unit := core % 8, addr := x.pc, beat := t.slotBeat c.slot, data := [] }
    (t1.trace (g / 48) 0x07 0x03 (core % 8) ctx g (t.slotBeat c.slot) code (leBytes 6 x.pc.toNat)).nextWord core x)

/-- END (R271). -/
def execEndWord (core : Nat) (s : State) : Host.Outcome State Fault Refusal :=
  .next (s.runWord core 9 fun _ c x w t =>
    let t := t.wordDone core
    if t.outstanding core = 0 then t.endList c core x w else t.stall core x w .ending)

/-! RNG_WORD_REQUEST (R199). -/

/-- The words that the descriptor of an engine asks for (log 34): element indices of its row, BWA, CVE, UPD, XRE or SMP
form. -/
def State.wordsAsked (s : State) (u : Nat) (x : EngUnit) (c : Ctx) (e : Entry) : List Nat :=
  match x.eng with
  | 2 => s.bwaWords x c e
  | 3 => s.cveWords u x e
  | 4 => s.rowWords c e
  | 6 => s.smpWords c e
  | 7 => if hOp e.desc = 2 then s.tieWords c e else []
  | 9 => if hOp e.desc = 3 then s.retireWords x e else if hOp e.desc = 5 then s.pkgWords e else []
  | _ => []

/-- RNG_WORD_REQUEST (R199): the RNG of the hearth serves the words that the descriptor at the head of engine `u`'s window asks
for, once that descriptor holds its credits (log 34). -/
def execRngWordRequest (u : Nat) (s : State) : Host.Outcome State Fault Refusal :=
  match s.unit u, (s.engine u).head with
  | some x, some (i, e) =>
    match s.ctx? e.ctx with
    | none => .next s
    | some c =>
      let es := s.wordsAsked u x c { e with startBeat := s.ctxBeat e.ctx }
      if !e.started && !e.prog.served && headerOk c e.hearth e.desc && !es.isEmpty
          && s.waitOk c e.hearth (hWait e.desc) (hCount e.desc) (hEpoch e.desc) && decide (s.need c e ≤ e.credits) then
        let r := s.serveWords c x.g (decide (x.eng = 6)) es
        .next (r.2.setProg u i fun p => { p with draws := r.1, served := true })
      else .next s
  | _, _ => .next s

end Sys2Proof.Machine
end

