-- ==== Sys2Proof/Machine/Markers.lean ====
section
/-! DEFINITION. What arrives from outside on the beat (R309, R311, R313, R314, R426 to R428): report, advance and set markers,
BEAT_IN frames; the end of a delay; repeats; the end of a prefetch (R355); the start of new firmware (R456). -/

set_option Elab.async false

namespace Sys2Proof.Machine

/-- The STEP of a context is aborted (R296): its descriptors end by R298, the sync objects return to the step snapshot, the
record is written with END 3, and the next STEP runs the step again. A STEP that has not begun has taken no snapshot. -/
def State.abortStep (s : State) (ctx : Nat) : State :=
  match s.ctx? ctx with
  | none => s
  | some c =>
    match c.step with
    | none => s
    | some r =>
      let s0 := (((s.abortCtx ctx).clearStores c).1).clearOverrides c
      let r1 := ((s0.ctx? ctx).bind fun c => c.step).getD r
      let s1 := if r.begun || decide (0 < r.att) then s0.restoreSync c else s0
      let s2 := match s1.stepRecord c r1 3 0 with
        | .ok t => t
        | .error _ => s1
      s2.closeStep ctx r1 .aborted 0 0 3 fun c => { c with redo := true }

/-! Reception of markers (R427). -/

/-- The first copy whose CRC is good, of the three. -/
def goodCopy (copies : List (List Byte)) : Option (List Byte) := (copies.take 3).find? markerOk

/-- A marker of KIND `kind` received on reduction port `port`: counted and acted on, or lost (R427). -/
def State.onMarker (s : State) (port kind : Nat) (copies : List (List Byte)) (act : List Byte → State → State) : State :=
  if 2 ≤ port ∧ port ≤ 5 ∧ s.portUp port = true ∧ s.isOpen pgBeat = true then
    match goodCopy copies with
    | none => s.count (rdpPage port) 5 1
    | some m =>
      if fld m 0 1 = kind then act m ((s.count (rdpPage port) 4 1).count pgBeat 2 1) else s
  else s

/-- The context whose step the tree slot runs. -/
def State.treeCtx (s : State) : Option (Nat × Ctx) := s.slotCtx s.tslot

/-! Reports (R426, R428). -/

/-- A beat of a marker, none where its bits [63:56] are not 0 (R305). -/
def goodBeats (m : List Byte) (target : Bool) : Bool := decide (fld m 15 1 = 0) && (!target || decide (fld m 23 1 = 0))

/-- A report received on a DNP: kept where its ATT is the current attempt; a failed attempt ends the step, and goes up at
once from a worker (R229, log 37); a complete set of reports lets the beat go on. -/
def State.takeReport (s : State) (port : Nat) (m : List Byte) : State :=
  let w := reportOf m
  let s1 := s.setPort port { s.port port with sub := w.sub }
  let att := match s1.treeCtx with
    | some p => match p.2.step with
      | some r => r.att
      | none => 0
    | none => 0
  if w.att ≠ att then s1
  else
    let s2 := s1.setBeat { s1.beat with reports := SMap.insert s1.beat.reports port (some w) }
    match s2.treeCtx with
    | none => s2
    | some (ctx, c) =>
      match c.step with
      | none => s2
      | some r =>
        if w.failed then
          s2.attemptError ctx w.fcode 0 (decide ((s2.slotBeat c.slot).phase = phaseCommit)) false
        else if (s2.slotBeat c.slot).phase = phaseCommit then s2.sendCommitReport c r
        else s2.tryAdvance ctx

/-- REPORT_MARKER (R428, R427, R426). -/
def execReportMarker (port : Nat) (copies : List (List Byte)) (s : State) : Host.Outcome State Fault Refusal :=
  .next (if port = 2 then s else s.onMarker port 3 copies fun m t =>
    if goodBeats m (bit (fld m 5 1) 1) then t.takeReport port m else t.count pgBeat 4 1)

/-! Beats of another source (R309, R311, R313). -/

/-- What the announcement of beat `b` decides on this package (R501): commit of the step, and an ABORT that waits for it. -/
def State.announce (s : State) (set : Bool) (b : Beat) : State :=
  match s.treeCtx with
  | none => s
  | some (ctx, c) =>
    match c.step with
    | none => s
    | some r =>
      if b = { step := r.step, phase := phaseCommit } then
        let s1 := s.setStep ctx fun r => { r with decided := true, abortWait := none }
        match r.abortWait with
        | some w => s1.complete w.1 w.2 .doneBeforeAbort 0 0 []
        | none => s1
      else
        match r.abortWait with
        | some w => if set || decide (b ≠ s.slotBeat c.slot) then (s.abortStep ctx).done w.1 w.2 [] else s
        | none => s

/-- A worker's replay, which the beat's return to (s, 0x0000) announces (R224, R307). -/
def State.workerReplay (s : State) (ctx : Nat) (c : Ctx) (r : StepRec) : State :=
  match s.policy c with
  | .error f => s.serviceError ctx f false false
  | .ok p => s.startReplay ctx c r (lowestCode (r.attFlags.map fun f => f.code)) (decide (p.max ≤ r.att))

/-- An activation holds the beat of slot `k` at (s, 0xFFFF) (R456). -/
def State.beatHeldAt (s : State) (k : Nat) : Bool :=
  match s.fw.activating with
  | some a => decide (a.hold = some k)
  | none => false

/-- A beat that leaves a running step otherwise than by its commit: the tree has failed the step, and the package fails with it,
with a code that no marker carries (R229, log 37). -/
def State.treeFailed (s : State) (ctx : Nat) (r : StepRec) (b : Beat) : State :=
  if r.begun ∧ b.step ≠ r.step then
    { s with fresh := s.fresh + 1 }.failStep ctx (BitVec.ofNat 16 (Config.freeNat s.fresh)) 0
  else s

/-- A beat of another source takes effect on slot `k` (R308): a return to (s, 0x0000) of a running step is a replay, the end of the
commit finalises the step first (R230). -/
def State.followBeat (s : State) (k : Nat) (b : Beat) (intact : Bool) : State :=
  match s.slotCtx k with
  | none => s.applyBeat k b intact
  | some (ctx, c) =>
    match c.step with
    | none => s.applyBeat k b intact
    | some r =>
      if r.begun && decide (b = { step := r.step, phase := 0 }) then
        { s with beat := { s.beat with next := SMap.erase s.beat.next k, late := !intact } }.workerReplay ctx c r
      else if decide (s.slotBeat k = { step := r.step, phase := phaseCommit } ∧ b = { step := r.step + 1, phase := 0 }) then
        let s1 := s.finalise ctx c r
        if s1.beatHeldAt k then s1.setBeat { s1.beat with next := SMap.insert s1.beat.next k b, late := !intact }
        else s1.applyBeat k b intact
      else (s.treeFailed ctx r b).applyBeat k b intact

/-- The first marker after a restore on a worker (R309): a beat event where its STEP is another one. -/
def State.judgeRestored (s : State) (b : Beat) : State :=
  match s.beat.restored with
  | none => s
  | some st =>
    let s1 := s.setBeat { s.beat with restored := none }
    if b.step = st then s1
    else
      match s1.treeCtx with
      | some (ctx, c) => s1.beatEvent c.queue ctx 0 .done 0 0 b (leBytes 5 st.toNat)
      | none => s1

/-- A beat announced by the source in use with `rd` SCLK left (R311, R313): an equal beat of an advance changes nothing, a late one
is applied on arrival. -/
def State.takeBeat (s : State) (set : Bool) (b : Beat) (rd : Int) : State :=
  let k := s.tslot
  let s0 := s.setBeat { s.beat with held := false }
  let s1 := (s0.judgeRestored b).announce set b
  if !set && decide (b = s1.slotBeat k) then s1
  else if rd ≤ 0 then (s1.count pgBeat 3 1).followBeat k b false
  else s1.setBeat { s1.beat with next := SMap.insert s1.beat.next k b, late := false }

/-- A beat marker on UPP (R311): forwarded at once on every trained DNP and on BEAT_OUT with what its delay leaves after
BEAT_UPLAT and the forwarding delay, a free value (log 10), and followed where UPP is the source. -/
def State.takeMarker (s : State) (kind : Nat) (m : List Byte) : State :=
  let b := Beat.ofNat (fld m 8 8)
  if !goodBeats m false then s.count pgBeat 4 1
  else if s.beat.actsrc = 2 then
    let r : Int := (fld m 2 2 : Int) - s.beatUplat
    let f := Config.freeNat s.fresh
    let s0 := { s with fresh := s.fresh + 1 }
    let out := if r ≤ 0 then 0 else (r - f).toNat
    let s1 := s0.dnps.foldl (fun t p => t.sendMarker p (beatMarker kind s.tslot out b)) s0
    let s2 := if kind = 1 ∧ b = s1.slotBeat s1.tslot then s1 else s1.sendFrameOut s1.tslot b r.toNat
    s2.takeBeat (decide (kind = 2)) b r
  else s

/-- ADVANCE_MARKER (R311). -/
def execAdvanceMarker (copies : List (List Byte)) (s : State) : Host.Outcome State Fault Refusal :=
  .next (s.onMarker 2 1 copies fun m t => t.takeMarker 1 m)

/-- SET_MARKER (R311, R308). -/
def execSetMarker (copies : List (List Byte)) (s : State) : Host.Outcome State Fault Refusal :=
  .next (s.onMarker 2 2 copies fun m t => t.takeMarker 2 m)

/-- ROOT_MARKER_REPEAT (R427): an advance marker of the beat in force, with no delay left. -/
def execRootMarkerRepeat (s : State) : Host.Outcome State Fault Refusal :=
  .next (if s.beat.actsrc = 1 ∧ s.isOpen pgBeat = true then
      s.dnps.foldl (fun t p => t.sendMarker p (beatMarker 1 s.tslot 0 (s.slotBeat s.tslot))) s
    else s)

/-- BEAT_OUT_REPEAT (R313): the current beat, with no delay left. -/
def execBeatOutRepeat (s : State) : Host.Outcome State Fault Refusal :=
  .next (if s.isOpen pgBeat then s.sendFrameOut s.tslot (s.slotBeat s.tslot) 0 else s)

/-- BEAT_APPLY (R311): the delay of the beat decided or received for a slot has run out. A commit phase waits for a HOLD copy
(R351), a held beat for the activation (R456). -/
def execBeatApply (slot : Nat) (s : State) : Host.Outcome State Fault Refusal :=
  match s.nextBeat slot with
  | none => .next s
  | some b =>
    let hold := match s.slotCtx slot with
      | some p => s.holdRuns p.1
      | none => false
    if (decide (b.phase = phaseCommit) && hold) || s.beatHeldAt slot || !s.isOpen pgBeat then .next s
    else .next (s.followBeat slot b (!(decide (slot = s.tslot) && s.beat.late)))

/-- BEAT_IN_FRAME (R313): a new beat is shown on BEAT_OUT too. -/
def execBeatInFrame (frame : List Byte) (s : State) : Host.Outcome State Fault Refusal :=
  if frame.length = 14 ∧ fldBE frame 0 2 = 0xA5C3 ∧ s.beatPinen = true ∧ s.isOpen pgBeat = true then
    let x := (frame.drop 2).take 10
    if fldBE frame 12 2 ≠ (crc16 x).toNat ∨ fldBE frame 2 1 ≠ 0 then .next (s.count pgBeat 4 1)
    else
      let b := Beat.ofNat (fldBE frame 2 8)
      let s0 := s.count pgBeat 2 1
      let s1 := (s0.setBeat { s0.beat with pinSeen := true }).reSource
      if s1.beat.actsrc = 3 then
        let r : Int := (fldBE frame 10 2 : Int) - s1.beatPinlat
        let s2 := if b = s1.slotBeat s1.tslot ∨ s1.nextBeat s1.tslot = some b then s1 else s1.sendFrameOut s1.tslot b r.toNat
        .next (s2.takeBeat false b r)
      else .next s1
  else .next s

/-- BEAT_SOURCE_LOST (R314). -/
def execBeatSourceLost (s : State) : Host.Outcome State Fault Refusal :=
  let lost := (decide (s.beat.actsrc = 2) && !s.portUp 2) || decide (s.beat.actsrc = 3)
  if lost && !s.beat.held && s.isOpen pgBeat then
    let b := s.slotBeat s.tslot
    let s1 := s.setBeat { s.beat with held := true, pinSeen := false }
    .next (match s1.treeCtx with
      | some (ctx, c) => s1.beatEvent c.queue ctx 0 .failed eLinkDown 0 b (leBytes 2 0xFFFF)
      | none => s1.beatEvent 0 0xFF 0 .failed eLinkDown 0 b (leBytes 2 0xFFFF))
  else .next s

/-! PREFETCH_COMPLETE (R355, R356). -/

/-- A prefetch that fails with MEM_UE: a trouble flag, or in a persistent region the end of the step (R355, R222). -/
def State.prefetchUe (s : State) (ctx : Nat) (c : Ctx) (tag : BitVec 32) (addr : Addr) : State :=
  match c.step with
  | none => s
  | some _ =>
    if s.persistent c addr.toNat then s.attemptError ctx eMemUe addr (decide ((s.slotBeat c.slot).phase = phaseCommit)) true
    else if (s.slotBeat c.slot).phase = phaseCommit then (s.noteUe ctx addr).addFlag ctx eMemUe (some tag) none true
    else s.flagUe ctx tag addr

/-- Piece `k` is copied by DMA engine 7 of the (k mod m)-th die of the partition (R355), and counted (R262, R362). -/
def State.movePiece (s : State) (c : Ctx) (f : Prefetch) (k : Nat) (p : Nat × Nat) : Except Fail State := do
  let w : Who := .desc c
  let d := c.dies.getD (k % c.dies.length) 0
  let src := f.src.toNat + p.1
  let dst := f.dst.toNat + p.1
  let b ← s.read w src p.2
  let t ← s.write w dst b
  let port := bits (t.cfg (dma7 d) 0x100 0x4000).toNat 1 0
  pure (((t.count (dma7 d) 0 p.2).count pgStkSvc 1 p.2).moved w d port (some src) dst p.2)

/-- The pieces of a prefetch, in their order (log 144). -/
def State.movePieces (s : State) (c : Ctx) (f : Prefetch) : Except Fail State :=
  f.pieces.zipIdx.foldlM (fun t p => t.movePiece c f p.2 p.1) s

/-- PREFETCH_COMPLETE (R355): once every engine that runs its pieces has its credit, the transfer's bytes land and SYNC is
signalled, or it fails; the credits return. -/
def execPrefetchComplete (i : Nat) (s : State) : Host.Outcome State Fault Refusal :=
  match s.prefetch[i]? with
  | none => .next s
  | some f =>
    let s1 := f.held.foldl (fun t d => t.returnCredits (dma7 d) 1) { s with prefetch := dropAt s.prefetch i }
    match s.ctx? f.ctx with
    | none => .next s1
    | some c =>
      let w : Who := .desc c
      if (f.dies c).any fun d => !decide (d ∈ f.held) then .next s
      else match s1.movePieces c f with
      | .ok t =>
        let t1 := t.signal (syncRef c 0 f.sync.toNat) false f.add
        .next (t1.beatEvent f.q f.ctx f.tag .done 0 0 (t1.slotBeat f.slot) (leBytes 2 f.idx))
      | .error x =>
        let t := (s1.memFail w x).scramble w f.dst.toNat f.len
        let t1 := t.beatEvent f.q f.ctx f.tag .failed x.code x.addr (t.slotBeat f.slot) (leBytes 2 f.idx)
        .next (if x.code = eMemUe then t1.prefetchUe f.ctx c f.tag x.addr else t1)

/-- NEW_FIRMWARE_START (R456 steps 3 to 5, R459): the new firmware takes over and releases the beat. -/
def execNewFirmwareStart (s : State) : Host.Outcome State Fault Refusal :=
  match s.fw.activating with
  | none => .next s
  | some a =>
    let s1 := (s.newFirmware.actEvent a .done 0).pollAll
    match a.hold with
    | some k =>
      if s1.ownSlot k then .next (s1.moveBeat k 1 { step := (s1.slotBeat k).step + 1, phase := 0 }) else .next s1
    | none => .next s1

end Sys2Proof.Machine
end

