-- ==== Sys2Proof/Machine/Context.lean ====
section
/-! DEFINITION. Contexts (R299, R293, R306): the context block's ranges, creation, the end of a context; memory that a command
names (R502). -/

set_option Elab.async false

namespace Sys2Proof.Machine

/-! The context block (Table 11.8). -/

/-- A range of a host window or persistent region: bytes 6 and 7 zero, inside the 48-bit space; windows in host memory, 64-byte
granular. -/
def blkRangeOk (b : List Byte) (off : Nat) (host : Bool) : Bool :=
  let base := fld b off 6
  let len := fld b (off + 8) 8
  zeroAt b (off + 6) (off + 8) && decide (base + len ≤ 2 ^ 48)
    && (!host || decide (base % 64 = 0 ∧ len % 64 = 0 ∧ 0x800000000000 ≤ base))

/-- The generator mode that the block selects (R299, R190). -/
def State.blkLane (s : State) (b : List Byte) : Bool :=
  if bit (blkFlags b) 1 then s.strapRngm else bit (blkFlags b) 0

/-- The fields that need the manager page's expert unlock (R299, R225). -/
def State.blkExpert (s : State) (b : List Byte) : Bool :=
  s.blkLane b || bit (blkFlags b) 2 || bit (blkFlags b) 3 || decide (blkPcy b ≠ 0)

/-- STATBASE names the partition's stack memory, 64-byte aligned, for the whole table (R218). -/
def State.blkStatOk (s : State) (b : List Byte) (slot : Nat) : Bool :=
  let cs := cordsOf (blkCords b)
  let n := 128 + 2 * blkNent b * 512
  let there := fun a => if isWindow a then (windowMap cs (s.ilv slot) (a - 0x040000000000)).isSome else
    match s.place a with
    | .stack k => decide (k ∈ cs)
    | _ => false
  decide (blkStat b % 64 = 0) && there (blkStat b) && there (blkStat b + n - 1)

/-- The first run of `n` free package sync objects of the 8,192 (R299). -/
def State.freeRun (s : State) (n : Nat) : Option Nat :=
  let used := s.liveCtxs.map fun p => (p.2.syncBase, p.2.nsync)
  let cands := 0 :: (used.map fun p => p.1 + p.2)
  ((cands.filter fun b => decide (b + n ≤ 8192) && used.all fun p => decide (b + n ≤ p.1 ∨ p.1 + p.2 ≤ b)).min?)

/-- The identifier of a new context: the lowest that is not live (log 48). -/
def State.freeCtxId (s : State) : Option Nat := (List.range 0xFF).find? fun i => (s.ctx? i).isNone

/-- The domains of a cord (R393). -/
def cordDoms (c : Nat) : List Nat := (List.range 9).map (fun i => 9 * c + i) ++ [216 + 2 * c, 217 + 2 * c]

/-- The block's fields are in their ranges and the cords' domains active (R299, R395, Table 11.8). -/
def State.ctxBlockOk (s : State) (b : List Byte) : Bool :=
  let cs := cordsOf (blkCords b)
  !cs.isEmpty && (cs.all fun k => decide (k < s.nCords) && (s.cordCtx k).isNone && (cordDoms k).all s.active) && decide (blkFlags b < 16)
    && decide (blkNpreg b ≤ 16 ∧ blkNwin b ≤ 8) && decide (1 ≤ blkNsync b ∧ blkNsync b ≤ 8192)
    && decide (1 ≤ blkNent b ∧ blkNent b ≤ 65536) && zeroAt b 22 24 && zeroAt b 40 64 && zeroAt b 448 512
    && ((List.range (blkNwin b)).all fun i => blkRangeOk b (64 + 16 * i) true)
    && ((List.range (blkNpreg b)).all fun i => blkRangeOk b (192 + 16 * i) false)
    && (!s.blkExpert b || (s.page pgMgr).unl) && s.blkStatOk b (cs.headD 0) && (s.freeRun (blkNsync b)).isSome

/-- The record of a context made from a block. -/
def State.newCtx (s : State) (b : List Byte) (q : Nat) : Ctx :=
  { block := b, seed := BitVec.ofNat 64 (blkSeed b), slot := (cordsOf (blkCords b)).headD 0,
    syncBase := (s.freeRun (blkNsync b)).getD 0, lane := s.blkLane b, rseq := 0, queue := q, used := [], step := none,
    dead := false, redo := false, idleBanked := false }

/-- The sequence table that a block names: its KVMODE 1 needs the expert unlock (R235, R237; log 45). -/
def State.blkSeqtOk (s : State) (c : Ctx) : Except Fail Bool :=
  if blkSeqt c.block = 0 then .ok true
  else (s.seqt (.service c) (blkSeqt c.block)).map fun q => q.ok && (decide (q.mode = 0) || (s.page pgMgr).unl)

/-- The cords' ownership copies are written afresh (R461). -/
def State.freshCopies (s : State) (c : Ctx) : State :=
  { s with ownBad := s.ownBad.filter fun x => !bit (blkCords c.block) x.2 }

/-- The firmware loads the RNG pages of a partition (R207): words that it has written there before give way to the context's. -/
def State.loadRng (s : State) (c : Ctx) : State :=
  { s with pages := SMap.mapVals s.pages (fun _ => Page.reset) fun pg p =>
      if decide (pg ∈ c.hearths.map rngPage) then { p with cfg := SMap.dropKeys p.cfg fun o => decide (0x100 ≤ o ∧ o < 0x110) } else p }

/-- The context becomes live (R299): ownership copies, sync objects at zero, derived lane states, no core, idle arrays (R396). -/
def State.makeLive (s : State) (id : Nat) (c : Ctx) : State :=
  (((((s.freshCopies c).zeroSync c).deriveLanes c).loadRng c).setCtx id (some c)).idleLower id

/-- RESULT of a create: CTX, SYNC_BASE from byte 26. -/
def ctxResult (id base : Nat) : List Byte := leBytes 1 id ++ zeros 1 ++ leBytes 2 base

/-! The end of a context (R293, R306). -/

/-- Entries of a slot's schedule table that belong to the context: all but activations and package freezes (R306). -/
def SchedEnt.ofCtx (e : SchedEnt) : Bool := !decide (e.kind = 4) && !(decide (e.kind = 3) && bit (fld e.kargs 0 1) 0)

def State.dropSched (s : State) (slot : Nat) : State :=
  { s with sched := s.sched.filter fun p => match p.2 with
      | some e => decide (p.1 / 256 ≠ slot) || !e.ofCtx
      | none => true }

/-- What DRT_PRSVk's floor is released to (R337): nothing counts as drawn on a later floor of the slot. -/
def State.dropFloor (s : State) (slot : Nat) : State :=
  let t := s.setPage pgDrt { s.page pgDrt with cfg := SMap.erase (s.page pgDrt).cfg (0x800 + 4 * slot) }
  (t.setDrt { t.drt with floorUsed := SMap.put t.drt.floorUsed 0 slot 0 }).ledgerFell

/-- The context is gone (R293, R306): its sync objects, partition, floor and schedule entries are released, its cores idle, its slot's freeze state thawed (R476); arrays that R396
banked are raised again (log 50). -/
def State.endCtx (s : State) (id : Nat) (c : Ctx) : State :=
  let s0 := s.fzThaw c.slot (s.fz c.slot).src.toNat c.queue id 0 0xFFFF
  let s1 := (((s0.idleRaise id).freshCopies c).dropSched c.slot).dropFloor c.slot
  let s2 := { s1 with cores := SMap.dropKeys s1.cores c.coreIn,
                      prefetch := s1.prefetch.filter fun f => f.ctx ≠ id, copies := s1.copies.filter fun f => f.ctx ≠ id,
                      pageReqs := s1.pageReqs.filter fun r => r.ctx ≠ id }
  ((((s2.deriveLanes c).zeroSync c).loadRng c).setCtx id none).clearOverrides c

/-! Memory that a command names (R502, R504). -/

/-- The agent of a command that names a context, or none. -/
def State.cmdWho (s : State) (l : List Byte) : Who :=
  match s.ctx? (cCtx l) with
  | some c => .cmd c
  | none => .cmdHost

end Sys2Proof.Machine
end

