-- ==== Sys2Proof/Machine/HostCmd.lean ====
section
/-! DEFINITION. Host commands of the immediate kind (R292, R293, R296, R299, R315, R243) and STEP (R282, R255, R502). -/

set_option Elab.async false

namespace Sys2Proof.Machine

/-- A read of memory that a command names: BUS_ERR at the first address it may not name (R502). -/
def State.cmdRead (s : State) (l : List Byte) (a n : Nat) : Except Fail (List Byte) := s.read (s.cmdWho l) a n

/-- The command ends with the failure of an access (R502, R348). -/
def State.cmdFail (s : State) (q slot : Nat) (w : Who) (f : Fail) : State := (s.memFail w f).failCmd q slot f

/-! QCREATE, QDESTROY (R293). -/

/-- The ranges of a queue's rings and control line. -/
def Queue.ranges (x : Queue) : List (Nat × Nat) :=
  [(x.cmd.toNat, 64 * 2 ^ x.logN), (x.cpl.toNat, 64 * 2 ^ x.logN), (x.ev.toNat, 64 * 2 ^ x.logEv), (x.ctl.toNat, 64)]

def overlap (a b : Nat × Nat) : Bool := decide (a.1 < b.1 + b.2 ∧ b.1 < a.1 + a.2)

/-- Some two of a queue's parts overlap. -/
def Queue.selfOverlap (x : Queue) : Bool :=
  x.ranges.zipIdx.any fun a => x.ranges.zipIdx.any fun b => decide (a.2 < b.2) && overlap a.1 b.1

/-- The queue that a QCREATE names. -/
def queueOf (l : List Byte) : Queue :=
  { Queue.none with live := true, ownU := bit (fld l 10 1) 7, octx := if bit (fld l 10 1) 7 then fld l 11 1 else 0xFF,
                    cmd := BitVec.ofNat 48 (fld l 16 6), cpl := BitVec.ofNat 48 (fld l 24 6), ev := BitVec.ofNat 48 (fld l 32 6),
                    ctl := BitVec.ofNat 48 (fld l 40 6), logN := fld l 9 1, logEv := fld l 12 1 }

def State.doQcreate (s : State) (q : Nat) (c : Cmd) : State :=
  let l := c.line
  let x := queueOf l
  let clash := s.queues.any fun p => p.2.live && p.2.ranges.any fun a => x.ranges.any fun b => overlap a b
  let out := x.ranges.any fun r => decide (0x1000000000000 < r.1 + r.2)
  if (s.queue (fld l 8 1)).live || x.selfOverlap || clash || out || (x.ownU && (s.ctx? x.octx).isNone) then s.malformed q c.slot
  else
    let s1 := (s.setQueue (fld l 8 1) x).done q c.slot []
    s1.pollQueue (2 ^ x.logN) (fld l 8 1)

/-- QDESTROY: `aux` 1 once it has stopped the queue's acceptance. -/
def State.doQdestroy (s : State) (q : Nat) (c : Cmd) : State :=
  let k := fld c.line 8 1
  if c.aux = 1 then s.done q c.slot []
  else if !(s.queue k).live then s.malformed q c.slot
  else
    let s1 := (s.setQueue k { s.queue k with closing := true }).setCmd q c.slot fun c => { c with aux := 1 }
    let s2 := s1.reapQueue k
    if (s2.queue k).live then s2 else s2.done q c.slot []

/-! CTX_CREATE, CTX_DESTROY (R299, R293). -/

def State.doCtxCreate (s : State) (q : Nat) (c : Cmd) : State :=
  match s.read .cmdHost (fld c.line 8 6) 512 with
  | .error f => s.cmdFail q c.slot .cmdHost f
  | .ok b =>
    if !s.ctxBlockOk b then s.malformed q c.slot
    else
      let x := s.newCtx b q
      match s.freeCtxId, s.blkSeqtOk x with
      | some id, .ok true => (s.makeLive id x).done q c.slot (ctxResult id x.syncBase)
      | _, .error f => s.cmdFail q c.slot (.service x) f
      | _, _ => s.malformed q c.slot

/-- Nothing of the context runs: no step, no started billeted command, no action fired from its table (R293, R306). -/
def State.ctxIdle (s : State) (id : Nat) (c : Ctx) : Bool :=
  c.step.isNone && (s.queues.all fun p => p.2.cmds.all fun k => !(k.started && decide (cCtx k.line = id)))
    && (s.copies.all fun f => decide (f.ctx ≠ id)) && (s.prefetch.all fun f => decide (f.ctx ≠ id))

def State.doCtxDestroy (s : State) (q : Nat) (c : Cmd) : State :=
  match s.ctx? (cCtx c.line) with
  | none => s.malformed q c.slot
  | some x => (s.endCtx (cCtx c.line) x).done q c.slot []

/-! SYNC_SIG (R275). -/

def State.doSyncSig (s : State) (q : Nat) (c : Cmd) : State :=
  match s.ctx? (cCtx c.line) with
  | none => s.malformed q c.slot
  | some x =>
    match syncRef x 0 (fld c.line 8 2) with
    | .package i =>
      let s1 := s.signal (.package i) (bit (fld c.line 10 1) 0) (BitVec.ofNat 32 (fld c.line 12 4))
      let o := s1.syncObj (.package i)
      s1.done q c.slot (leBytes 4 o.count.toNat ++ leBytes 2 o.epoch.toNat)
    | _ => s.malformed q c.slot

/-! SCHED (R315, R355, R455, R474). -/

/-- The lowest free index of a slot's table. -/
def State.freeSched (s : State) (slot : Nat) : Option Nat := (List.range 256).find? fun i => (s.schedAt slot i).isNone

/-- A target that R315 accepts: after the beat, its STEP less than 2^39 ahead. -/
def targetOk (b t : Beat) : Bool := t.isAfter b && decide ((t.step - b.step).toNat < 2 ^ 39)

/-- An activation entry is armed (R455). -/
def State.actArmed (s : State) : Bool := s.sched.any fun p => match p.2 with
  | some e => decide (e.kind = 4)
  | none => false

/-- R455: PHASE 0xFFFF, an image staged and verified, its bank and VERSION as named, no other activation armed. -/
def State.actOk (s : State) (t : Beat) (bank : Nat) (version : Nat) : Bool :=
  decide (t.phase = phaseCommit) && decide (s.fw.sstate = 3) && decide (b2n s.fw.target = bank)
    && decide (s.fw.staged.toNat = version) && !s.actArmed

/-- CKPT_COPY's arguments: a length that is a multiple of 64, ranges that do not overlap, however they are named (R351, R342). -/
def State.copyOk (s : State) (w : Who) (src dst len : Nat) : Bool :=
  decide (len % 64 = 0) && !overlap (src, len) (dst, len) && !s.sharesBytes w src dst len

/-- What a SCHED's kind asks of its arguments. -/
def State.schedOk (s : State) (c : Ctx) (x : Queue) (l : List Byte) (t : Beat) : Bool :=
  match fld l 16 1 with
  | 1 => s.copyOk (.cmd c) (fld l 24 6) (fld l 32 6) (fld l 40 8)
  | 2 => decide (fld l 48 2 < c.nsync)
  | 3 => !bit (fld l 24 1) 0 || !x.ownU
  | 4 => !x.ownU && s.actOk t (fld l 24 1) (fld l 28 8)
  | _ => decide (fld l 24 2 < c.nsync)

/-- An entry put into a slot's table. -/
def State.arm (s : State) (slot idx : Nat) (e : SchedEnt) : State :=
  let s1 := s.setSched slot idx (some e)
  if e.kind = 4 then s1.setFw { s1.fw with arm := true } else s1

/-- SCHED of any kind. -/
def State.doSched (s : State) (q : Nat) (k : Cmd) : State :=
  let l := k.line
  match s.ctx? (cCtx l) with
  | none => s.malformed q k.slot
  | some c =>
    if fld l 16 1 = 0 then
      match s.schedAt c.slot (fld l 18 2) with
      | none => s.malformed q k.slot
      | some e =>
        if 256 ≤ fld l 18 2 then s.malformed q k.slot
        else
          let s1 := s.setSched c.slot (fld l 18 2) none
          let s2 := if e.kind = 4 then s1.setFw { s1.fw with arm := false } else s1
          s2.done q k.slot (leBytes 2 (fld l 18 2) ++ leBytes 1 1)
    else
      let t := Beat.ofNat (fld l 8 8)
      match s.freeSched c.slot with
      | none => s.malformed q k.slot
      | some i =>
        if targetOk (s.slotBeat c.slot) t && s.schedOk c (s.queue q) l t then
          (s.arm c.slot i { target := t, anchor := (s.slotBeat c.slot).step, kind := fld l 16 1, kargs := (l.drop 24).take 40,
                            q := q, tag := cTag l, ctx := cCtx l, fired := false }).done q k.slot (leBytes 2 i)
        else s.malformed q k.slot

/-! PAGE_REQ (R243, R244). -/

/-- The answer of the page service becomes the command's line. -/
def State.kvAnswer (s : State) (q : Nat) (k : Cmd) (c : Ctx) (a : Except Fail KvAns) : State :=
  match a with
  | .ok (.done t) => t.done q k.slot []
  | .ok (.parked t code) => t.complete q k.slot .parked code 0 []
  | .ok .bad => s.malformed q k.slot
  | .error f => s.cmdFail q k.slot (.service c) f

def State.doPageReq (s : State) (q : Nat) (k : Cmd) : State :=
  let l := k.line
  match s.ctx? (cCtx l) with
  | none => s.malformed q k.slot
  | some c =>
    if blkSeqt c.block = 0 then s.malformed q k.slot
    else
      match s.seqt (.service c) (blkSeqt c.block) with
      | .error f => s.cmdFail q k.slot (.service c) f
      | .ok t =>
        let slot := fld l 12 4
        let len := fld l 20 4
        let src : KvSrc := { ctx := cCtx l, eng := 0, tag := cTag l, hearth := 0xFFFF, unit := 0 }
        if t.nseqt ≤ slot ∨ (fld l 8 1 = 2 ∧ t.nseqt ≤ fld l 16 4) then s.malformed q k.slot
        else
          s.kvAnswer q k c (match fld l 8 1 with
            | 1 => s.kvOpen c t slot (fld l 24 1) (fld l 32 6) (fld l 40 4) (fld l 48 6)
            | 2 => s.kvFork c t slot (fld l 16 4) len
            | 3 => s.kvSeal c t slot
            | 4 => s.kvGrow c src t slot len
            | 5 => s.kvTrim c t slot len
            | 6 => s.kvFree c t slot
            | 7 => s.kvResume c t slot
            | _ => s.kvSwapin c t slot)

/-! ABORT (R296, R297, R501). -/

/-- What a billeted command may have written when it is aborted (Table 11.7): its destination range is unspecified. -/
def State.billetScramble (s : State) (c : Cmd) : State :=
  let l := c.line
  let w := s.cmdWho l
  match cOpc l with
  | 0x06 => s.scramble w (fld l 8 6) (min (fld l 16 8) c.count)
  | 0x0C => s.scramble w (fld l 16 6) (fld l 24 8)
  | _ => s

/-- The regions of a restore that has begun (R301): unspecified within their ranges. -/
def State.restoreScramble (s : State) (q : Nat) (c : Cmd) : State :=
  if cOpc c.line = 0x07 then
    match s.read .cmdHost (fld c.line 16 6) 512 with
    | .ok b =>
      let x := s.newCtx b q
      (List.range (blkNpreg b)).foldl (fun t i => t.scramble (.service x) (blkPreg b i).1 (blkPreg b i).2) s
    | .error _ => s
  else s

/-- The target's abort: its line is ABORTED. A waiting QDESTROY leaves its queue as it was; a stage is discarded. -/
def State.abortTarget (s : State) (q : Nat) (c : Cmd) : State :=
  let s1 := if c.started then (s.billetScramble c).restoreScramble q c else s
  let s2 := if cOpc c.line = 3 ∧ c.aux = 1 then
      s1.setQueue (fld c.line 8 1) { s1.queue (fld c.line 8 1) with closing := false }
    else if cOpc c.line = 0x12 ∧ c.started = true then s1.dropStage else s1
  s2.complete q c.slot .aborted 0 0 []

/-- The context whose running STEP the command is. -/
def State.stepOf (s : State) (q slot : Nat) : Option (Nat × Ctx × StepRec) :=
  (s.liveCtxs.filterMap fun p => match p.2.step with
    | some r => if r.q = q ∧ r.slot = slot then some (p.1, p.2, r) else none
    | none => none).head?

/-- A worker has reported its beat done and waits for the root's marker (R501). -/
def State.awaitsRoot (s : State) (c : Ctx) (r : StepRec) : Bool :=
  decide (c.slot = s.tslot) && decide (s.beat.actsrc = 2) && decide (r.reported = some (s.slotBeat c.slot))
    && s.beat.own.isNone

/-- A U queue may abort commands of its context's queues alone (R460; log 49). -/
def State.mayAbort (s : State) (q k : Nat) : Bool :=
  !(s.queue q).ownU || ((s.queue k).ownU && decide ((s.queue k).octx = (s.queue q).octx))

def State.doAbort (s : State) (q : Nat) (k : Cmd) : State :=
  let l := k.line
  let tq := fld l 8 1
  let ts := fld l 10 2
  let tag := BitVec.ofNat 32 (fld l 12 4)
  if !s.mayAbort q tq then s.malformed q k.slot
  else
    match (s.queue tq).cmds.find? fun c => decide (c.slot = ts ∧ cTag c.line = tag ∧ ¬ (tq = q ∧ ts = k.slot)) with
    | none =>
      if SMap.get (s.queue tq).lastTag 0 ts = tag.toNat + 1 then s.complete q k.slot .doneBeforeAbort 0 0 []
      else s.malformed q k.slot
    | some c =>
      match s.stepOf tq ts with
      | some (ctx, x, r) =>
        if r.decided then s.complete q k.slot .doneBeforeAbort 0 0 []
        else if s.awaitsRoot x r then
          (s.setStep ctx fun r => { r with abortWait := some (q, k.slot) }).setCmd q k.slot fun c => { c with started := true }
        else (s.abortStep ctx).done q k.slot []
      | none => (s.abortTarget tq c).done q k.slot []

/-! The order of service (R295). -/

/-- The wait of a startable immediate command is over (R286). -/
def State.immReady (s : State) (c : Cmd) : Bool :=
  let l := c.line
  match cOpc l with
  | 0x03 => c.aux ≠ 1 || !(s.queue (fld l 8 1)).live
  | 0x05 => match s.ctx? (cCtx l) with
    | some x => s.ctxIdle (cCtx l) x
    | none => true
  | 0x09 => match s.stepOf (fld l 8 1) (fld l 10 2) with
    | some (_, _, r) => r.abortWait.isNone
    | none => true
  | _ => true

/-- The immediate command served next: the one accepted first among those that may start. -/
def State.nextImm (s : State) : Option (Nat × Cmd) :=
  s.queues.foldl (fun b p => olderCmd b (match p.2.nextCmd with
    | some c => if cmdKind (cOpc c.line) = .immediate && s.immReady c then some (p.1, c) else none
    | none => none)) none

/-- One immediate command, by its OPC. -/
def State.serveImm (s : State) (q : Nat) (c : Cmd) : State :=
  if !s.ctxFieldOk (s.queue q) c.line then s.malformed q c.slot
  else
    match cOpc c.line with
    | 0x01 => s.done q c.slot []
    | 0x02 => s.doQcreate q c
    | 0x03 => s.doQdestroy q c
    | 0x04 => s.doCtxCreate q c
    | 0x05 => s.doCtxDestroy q c
    | 0x09 => s.doAbort q c
    | 0x0A => s.doSyncSig q c
    | 0x0B => s.doSched q c
    | _ => s.doPageReq q c

/-- The immediate command of queue `q` and slot `slot` is served where it is next and `f` holds of its line. -/
def State.serveNext (s : State) (q slot : Nat) (f : List Byte → Bool) : State :=
  if s.serving then
    match s.nextImm with
    | some (k, c) => if k = q ∧ c.slot = slot ∧ f c.line = true then s.serveImm q c else s
    | none => s
  else s

/-- NOP (R292). -/
def execNopCommand (q slot : Nat) (s : State) : Host.Outcome State Fault Refusal :=
  .next (s.serveNext q slot fun l => decide (cOpc l = 0x01))

/-- QCREATE (R293). -/
def execQcreate (q slot : Nat) (s : State) : Host.Outcome State Fault Refusal :=
  .next (s.serveNext q slot fun l => decide (cOpc l = 0x02))

/-- QDESTROY (R293). -/
def execQdestroy (q slot : Nat) (s : State) : Host.Outcome State Fault Refusal :=
  .next (s.serveNext q slot fun l => decide (cOpc l = 0x03))

/-- CTX_CREATE (R299). -/
def execCtxCreate (q slot : Nat) (s : State) : Host.Outcome State Fault Refusal :=
  .next (s.serveNext q slot fun l => decide (cOpc l = 0x04))

/-- CTX_DESTROY (R293). -/
def execCtxDestroy (q slot : Nat) (s : State) : Host.Outcome State Fault Refusal :=
  .next (s.serveNext q slot fun l => decide (cOpc l = 0x05))

/-- ABORT (R296, R297, R501). -/
def execAbortCommand (q slot : Nat) (s : State) : Host.Outcome State Fault Refusal :=
  .next (s.serveNext q slot fun l => decide (cOpc l = 0x09))

/-- SYNC_SIG (R275). -/
def execSyncSig (q slot : Nat) (s : State) : Host.Outcome State Fault Refusal :=
  .next (s.serveNext q slot fun l => decide (cOpc l = 0x0A))

def isSched (kind : Nat) (l : List Byte) : Bool := decide (cOpc l = 0x0B ∧ fld l 16 1 = kind)

/-- SCHED cancel (R315). -/
def execSchedCancel (q slot : Nat) (s : State) : Host.Outcome State Fault Refusal := .next (s.serveNext q slot (isSched 0))

/-- SCHED of a checkpoint copy (R317). -/
def execSchedCkptCopy (q slot : Nat) (s : State) : Host.Outcome State Fault Refusal := .next (s.serveNext q slot (isSched 1))

/-- SCHED of a prefetch (R355). -/
def execSchedPrefetch (q slot : Nat) (s : State) : Host.Outcome State Fault Refusal := .next (s.serveNext q slot (isSched 2))

/-- SCHED of a freeze or thaw (R474). -/
def execSchedFreeze (q slot : Nat) (s : State) : Host.Outcome State Fault Refusal := .next (s.serveNext q slot (isSched 3))

/-- SCHED of an activation (R455). -/
def execSchedFwActivate (q slot : Nat) (s : State) : Host.Outcome State Fault Refusal := .next (s.serveNext q slot (isSched 4))

/-- SCHED of a sync signal (R317). -/
def execSchedSyncSignal (q slot : Nat) (s : State) : Host.Outcome State Fault Refusal := .next (s.serveNext q slot (isSched 5))

def isPageReq (req : Nat) (l : List Byte) : Bool := decide (cOpc l = 0x0E ∧ fld l 8 1 = req)

/-- PAGE_REQ OPEN (R243). -/
def execPageReqOpen (q slot : Nat) (s : State) : Host.Outcome State Fault Refusal := .next (s.serveNext q slot (isPageReq 1))

/-- PAGE_REQ FORK (R244). -/
def execPageReqFork (q slot : Nat) (s : State) : Host.Outcome State Fault Refusal := .next (s.serveNext q slot (isPageReq 2))

/-- PAGE_REQ SEAL (R243). -/
def execPageReqSeal (q slot : Nat) (s : State) : Host.Outcome State Fault Refusal := .next (s.serveNext q slot (isPageReq 3))

/-- PAGE_REQ GROW (R243). -/
def execPageReqGrow (q slot : Nat) (s : State) : Host.Outcome State Fault Refusal := .next (s.serveNext q slot (isPageReq 4))

/-- PAGE_REQ TRIM (R243). -/
def execPageReqTrim (q slot : Nat) (s : State) : Host.Outcome State Fault Refusal := .next (s.serveNext q slot (isPageReq 5))

/-- PAGE_REQ FREE (R243). -/
def execPageReqFree (q slot : Nat) (s : State) : Host.Outcome State Fault Refusal := .next (s.serveNext q slot (isPageReq 6))

/-- PAGE_REQ RESUME (R243). -/
def execPageReqResume (q slot : Nat) (s : State) : Host.Outcome State Fault Refusal := .next (s.serveNext q slot (isPageReq 7))

/-- PAGE_REQ SWAPIN (R243). -/
def execPageReqSwapin (q slot : Nat) (s : State) : Host.Outcome State Fault Refusal := .next (s.serveNext q slot (isPageReq 8))

/-! STEP (R282, R255, R502). -/

/-- The list starts of a program table: global core and address of each non-zero entry, ascending (R282). -/
def tableOf (c : Ctx) (b : List Byte) : List (Nat × Addr) :=
  (List.range (b.length / 8)).filterMap fun j =>
    if fld b (8 * j) 8 = 0 then none
    else (c.globalHearth (j / 8)).map fun g => (g * 8 + j % 8, BitVec.ofNat 48 (fld b (8 * j) 6))

/-- The program table, batch and bounds of a STEP, read and checked before it starts (R502). -/
def State.stepTables (s : State) (c : Ctx) (l : List Byte) : Except Fail (StepRec × Bool) := do
  let w : Who := .cmd c
  let n := if fld l 22 2 = 0 then 65536 else fld l 22 2
  let tab := fld l 8 6
  let b ← s.read w tab (8 * 8 * 48 * c.dies.length)
  match (List.range (b.length / 8)).find? fun j => decide (fld b (8 * j + 6) 2 ≠ 0) with
  | some j => .error (Fail.bus (tab + 8 * j))
  | none => do
    let r : StepRec :=
      { step := (s.slotBeat c.slot).step, att := 0, q := 0, slot := 0, entries := tableOf c b, batch := BitVec.ofNat 48 (fld l 16 6),
        nseq := 0, bnd := [], bout := BitVec.ofNat 48 (fld l 32 6), lens := [], flags := [], treeCode := 0, judged := [], nue := 0, ueAddr := 0, failed := none,
        failAddr := 0, decided := false, forced := false, replaying := false, begun := false, reported := none, abortWait := none }
    if fld l 16 6 = 0 then pure (r, true)
    else
      let bb ← s.read w (fld l 16 6) (8 * n)
      match s.ctxSeqt c with
      | none => pure (r, false)
      | some q =>
        match (List.range n).find? fun j =>
            decide (bits (fld bb (8 * j) 8) 59 36 ≠ 0 ∨ q.nseqt ≤ fld bb (8 * j) 8 % 2 ^ 20) with
        | some j => .error (Fail.bus (fld l 16 6 + 8 * j))
        | none => do
          let nb ← s.read w (fld l 24 6) 64
          let bnd := (List.range 16).map fun i => fld nb (4 * i) 4
          let _ ← s.resolveAll w (fld l 32 6) (128 + 8 * n)
          let lens ← ((List.range n).map fun j => fld bb (8 * j) 8 % 2 ^ 20).mapM fun k =>
            (s.seqRec (.service c) q k).map fun x => (k, x.len)
          pure ({ r with nseq := n, bnd := bnd, lens := lens },
                (bnd.zip bnd.tail).all fun p => decide (p.1 ≤ p.2))

/-- The STEP starts (R282, R308): an aborted step runs again from (s, 0x0000). -/
def State.startStep (s : State) (ctx : Nat) (c : Ctx) (q slot : Nat) (r : StepRec) : State :=
  let s1 := (s.setCtx ctx (some { c with step := some { r with q := q, slot := slot }, redo := false })).setCmd q slot
    fun k => { k with started := true }
  let s2 := s1.idleRaise ctx
  if c.redo then
    let s3 := match s2.clearHalf c (stepHalf r.step) with
      | .ok t => t.clearOverrides c
      | .error f => s2.serviceError ctx f false true
    if s3.slotBeat c.slot = { step := r.step, phase := 0 } then s3.tryBegin ctx
    else s3.moveBeat c.slot 2 { step := r.step, phase := 0 }
  else s2.tryBegin ctx

/-- STEP (R282, R286): the step starts once the previous step of its context has ended; a context that accepts no further step, and a
root that counts more than 64 packages, fail it (R227, R231, R426). -/
def execStepCommand (q slot : Nat) (s : State) : Host.Outcome State Fault Refusal :=
  match (s.queue q).nextCmd with
  | none => .next s
  | some k =>
    if k.slot ≠ slot ∨ cOpc k.line ≠ 8 ∨ s.serving = false then .next s
    else if !s.ctxFieldOk (s.queue q) k.line then .next (s.malformed q slot)
    else
      match s.ctx? (cCtx k.line) with
      | none => .next (s.malformed q slot)
      | some c =>
        let ready := c.step.isNone && (s.nextBeat c.slot).isNone
          && (decide ((s.slotBeat c.slot).phase = 0) || c.redo || c.dead)
        if !ready then .next s
        else if c.dead || (decide (c.slot = s.tslot) && decide (s.beat.actsrc = 1) && decide (64 < s.subtree)) then
          .next (s.malformed q slot)
        else
          match s.stepTables c k.line with
          | .error f => .next (s.cmdFail q slot (.cmd c) f)
          | .ok (_, false) => .next (s.malformed q slot)
          | .ok (r, true) => .next (s.startStep (cCtx k.line) c q slot r)

end Sys2Proof.Machine
end

