-- ==== Sys2Proof/Machine/Billet.lean ====
section
/-! DEFINITION. Billeted commands (R294, R295): context images (R300, R301, R194, R195, R309), checkpoint copies (R351, R317), scrubs
(R349), pool work (R251, R292), table rebuilds (R462), firmware staging (R454), and the end of a billet. -/

set_option Elab.async false

namespace Sys2Proof.Machine

/-! The context image (Table 11.9). -/

def pad64 (b : List Byte) : List Byte := b ++ zeros (align64 b.length - b.length)

/-- Generator section (Table 8.5). -/
def State.genSection (s : State) (c : Ctx) : List Byte :=
  let lane := fun l => match c.globalHearth (l / 64) with
    | some g => leBytes 16 (s.lane c (g * 64 + l % 64)).toNat ++ leBytes 16 (s.laneShadow c (g * 64 + l % 64)).toNat
    | none => zeros 32
  leBytes 4 c.geom ++ leBytes 1 (b2n c.lane) ++ zeros 3 ++ leBytes 8 c.seed.toNat ++ leBytes 4 c.rseq.toNat
    ++ leBytes 5 (s.slotBeat c.slot).step.toNat ++ zeros 39
    ++ (if c.lane then (List.range c.geom).flatMap lane else [])

def syncBytes (o : SyncObj) : List Byte := leBytes 4 o.count.toNat ++ leBytes 2 o.epoch.toNat ++ zeros 2

def syncOf (b : List Byte) : SyncObj := { count := BitVec.ofNat 32 (fld b 0 4), epoch := BitVec.ofNat 16 (fld b 4 2) }

def State.syncSection (s : State) (c : Ctx) : List Byte :=
  let obj := fun (m : SMap SyncObj) => (List.range c.nsync).flatMap fun i => syncBytes (SMap.get m SyncObj.zero (c.syncBase + i))
  pad64 (obj s.psync ++ obj s.psnap)

/-- Partition-local cores stalled on a WAITBEAT, with their global numbers. -/
def State.savedCores (s : State) (c : Ctx) : List (Nat × Nat) :=
  (List.range (c.dies.length * 384)).filterMap fun j =>
    match c.globalHearth (j / 8) with
    | some g => if (s.core (g * 8 + j % 8)).run = .onBeat then some (j, g * 8 + j % 8) else none
    | none => none

def coreRecord (j : Nat) (x : Core) : List Byte :=
  leBytes 4 j ++ leBytes 5 x.lstep.toNat ++ zeros 7 ++ leBytes 6 x.pc.toNat ++ zeros 2
    ++ x.lc.toList.flatMap (fun v => leBytes 4 v.toNat) ++ zeros 24 ++ x.base.toList.flatMap fun v => leBytes 8 v.toNat

def State.localSection (s : State) (c : Ctx) : List Byte :=
  let part := fun (m : SMap SyncObj) (g : Nat) => (List.range 64).flatMap fun i => syncBytes (SMap.get m SyncObj.zero (g * 64 + i))
  (List.range (c.dies.length * 48)).flatMap fun p => match c.globalHearth p with
    | some g => part s.lsync g ++ part s.lsnap g
    | none => []

/-- The persistent regions' contents, each padded to 64 bytes. -/
def State.regionBytes (s : State) (c : Ctx) : Except Fail (List Byte) :=
  ((List.range (blkNpreg c.block)).mapM fun i =>
    (s.read (.service c) (blkPreg c.block i).1 (blkPreg c.block i).2).map pad64).map List.flatten

/-- The image after its header (Table 11.9). -/
def State.imageBody (s : State) (c : Ctx) (data : List Byte) : List Byte :=
  c.block ++ s.genSection c ++ s.syncSection c ++ (s.savedCores c).flatMap (fun p => coreRecord p.1 (s.core p.2))
    ++ s.localSection c ++ data

/-- The header of an image whose other bytes are `body`, its CRC last (Table 11.9). -/
def State.imageHead (s : State) (c : Ctx) (body : List Byte) : List Byte :=
  let h := leBytes 4 0x58435654 ++ leBytes 2 0x0100 ++ zeros 2 ++ leBytes 4 c.geom ++ leBytes 3 (blkCords c.block) ++ zeros 1
    ++ leBytes 8 (s.slotBeat c.slot).toNat ++ leBytes 8 (64 + body.length) ++ zeros 4 ++ leBytes 4 (s.savedCores c).length
    ++ zeros 24
  setFld h 32 4 (crc32 (h ++ body)).toNat

/-- A billet of CTX_SAVE (R300): the next piece of the image after its header; with the last piece the header, over what was
written. `count` keeps the image's length. -/
def State.doSave (s : State) (q : Nat) (k : Cmd) : State :=
  let l := k.line
  let a := fld l 8 6
  match s.ctx? (cCtx l) with
  | none => s.malformed q k.slot
  | some c =>
    match (if bit (fld l 14 1) 0 then s.regionBytes c else .ok []) with
    | .error f => s.cmdFail q k.slot (.service c) f
    | .ok d =>
      let body := s.imageBody c d
      let n := if k.started then k.count else 64 + body.length
      if fld l 16 8 < n then s.malformed q k.slot
      else
        let m := min pieceLen (n - 64 - k.pos)
        match s.write (.cmd c) (a + 64 + k.pos) (((body ++ zeros n).drop k.pos).take m) with
        | .error f => s.cmdFail q k.slot (.cmd c) f
        | .ok t =>
          if k.pos + m < n - 64 then t.setCmd q k.slot fun x => { x with started := true, pos := k.pos + m, count := n }
          else
            let fin : Except Fail State := do
              let b ← t.read (.cmd c) (a + 64) (n - 64)
              t.write (.cmd c) a (t.imageHead c b)
            match fin with
            | .error f => t.cmdFail q k.slot (.cmd c) f
            | .ok u => u.done q k.slot (leBytes 8 n)

/-! CTX_RESTORE (R301). -/

/-- Where the parts of an image start. -/
structure ImgParts where
  gen : Nat
  sync : Nat
  cores : Nat
  ncore : Nat
  loc : Nat
  data : Nat
  deriving DecidableEq, Repr

def imgParts (b : List Byte) : ImgParts :=
  let geom := fld b 8 4
  let gen := 576
  let sync := align64 (gen + 64 + if fld b 580 1 = 1 then 32 * geom else 0)
  let cores := sync + align64 (16 * fld b 70 2)
  let loc := align64 (cores + 128 * fld b 36 4)
  { gen := gen, sync := sync, cores := cores, ncore := fld b 36 4, loc := loc, data := loc + 16 * geom }

/-- Magic, version and CRC match (R301). -/
def imgOk (b : List Byte) : Bool :=
  decide (fld b 0 4 = 0x58435654 ∧ fld b 4 2 = 0x0100 ∧ fld b 32 4 = (crc32 (setFld b 32 4 0)).toNat)

/-- The blocks agree in NSYNC, NPREG and region lengths (R301). -/
def imgFits (img blk : List Byte) : Bool :=
  let old := (img.drop 64).take 512
  decide (blkNsync old = blkNsync blk ∧ blkNpreg old = blkNpreg blk)
    && (List.range (blkNpreg blk)).all fun i => decide ((blkPreg old i).2 = (blkPreg blk i).2)

/-- The core of a core record (R301 step 5): it resumes at its WAITBEAT word. -/
def coreOf (b : List Byte) : Core :=
  { Core.reset with
    pc := BitVec.ofNat 48 (fld b 16 6), lstep := BitVec.ofNat 40 (fld b 4 5), run := .running,
    lc := Vector.ofFn fun i => BitVec.ofNat 32 (fld b (24 + 4 * i.val) 4),
    base := Vector.ofFn fun i => BitVec.ofNat 48 (fld b (64 + 8 * i.val) 6) }

/-- The pieces in which the regions' contents are copied: address, offset in the image, length (R301 step 2). -/
def regionPieces (c : Ctx) : List Nat → Nat → List (Nat × Nat × Nat)
  | [], _ => []
  | i :: r, at_ =>
    let g := blkPreg c.block i
    ((List.range (ceilDiv g.2 pieceLen)).map fun k => (g.1 + k * pieceLen, at_ + k * pieceLen, min pieceLen (g.2 - k * pieceLen)))
      ++ regionPieces c r (at_ + align64 g.2)

/-- A piece of the regions' contents written (R301 step 2). -/
def State.putPiece (s : State) (c : Ctx) (img : List Byte) (p : Option (Nat × Nat × Nat)) : Except Fail State :=
  match p with
  | none => .ok s
  | some g => s.write (.service c) g.1 ((img.drop g.2.1).take g.2.2)

/-- Sync objects of the image, package objects with their snapshot (Table 11.9). -/
def State.putSync (s : State) (c : Ctx) (img : List Byte) (p : ImgParts) : State :=
  (List.range c.nsync).foldl (fun t i =>
    { t with psync := SMap.put t.psync SyncObj.zero (c.syncBase + i) (syncOf (img.drop (p.sync + 8 * i))),
             psnap := SMap.put t.psnap SyncObj.zero (c.syncBase + i) (syncOf (img.drop (p.sync + 8 * (c.nsync + i)))) }) s

def State.putLocal (s : State) (c : Ctx) (img : List Byte) (p : ImgParts) : State :=
  (List.range (c.dies.length * 48)).foldl (fun t k => match c.globalHearth k with
    | none => t
    | some g => (List.range 64).foldl (fun t i =>
        { t with lsync := SMap.put t.lsync SyncObj.zero (g * 64 + i) (syncOf (img.drop (p.loc + 1024 * k + 8 * i))),
                 lsnap := SMap.put t.lsnap SyncObj.zero (g * 64 + i) (syncOf (img.drop (p.loc + 1024 * k + 512 + 8 * i))) }) t) s

def State.putCores (s : State) (c : Ctx) (img : List Byte) (p : ImgParts) : State :=
  (List.range p.ncore).foldl (fun t i =>
    let b := (img.drop (p.cores + 128 * i)).take 128
    match c.globalHearth (fld b 0 4 / 8) with
    | some g => t.setCore (g * 8 + fld b 0 4 % 8) (coreOf b)
    | none => t) s

/-- Lane states and shadows of the image (R194). -/
def State.putLanes (s : State) (c : Ctx) (img : List Byte) (p : ImgParts) : State :=
  (List.range c.geom).foldl (fun t l => match c.globalHearth (l / 64) with
    | none => t
    | some g =>
      { t with lanes := SMap.insert t.lanes (g * 64 + l % 64) (BitVec.ofNat 128 (fld img (p.gen + 64 + 32 * l) 16)),
               shadows := SMap.insert t.shadows (g * 64 + l % 64) (BitVec.ofNat 128 (fld img (p.gen + 80 + 32 * l) 16)) }) s

/-- The context of a restore: SEED, mode and RSEQ of the image; RSEQ rises where lanes are derived anew (R195). -/
def restoredCtx (c : Ctx) (img : List Byte) (p : ImgParts) : Ctx :=
  let lane := decide (fld img (p.gen + 4) 1 = 1)
  let seed := fld img (p.gen + 8) 8
  let geo := decide (fld img p.gen 4 ≠ c.geom)
  { c with seed := BitVec.ofNat 64 seed, lane := lane, block := setFld c.block 8 8 seed,
           rseq := BitVec.ofNat 32 (fld img (p.gen + 16) 4) + (if lane && geo then 1 else 0) }

/-- The restored slot (R309): the schedule table cleared, the beat at (STEP, 0x0000), which a worker's next marker governs. -/
def State.restoreBeat (s : State) (slot : Nat) (b : Beat) : State :=
  let act := (s.schedOf slot).any fun p => decide (p.2.kind = 4)
  let s1 := { s with sched := s.sched.filter fun p => p.1 / 256 ≠ slot }
  let s2 := if act then s1.setFw { s1.fw with arm := false } else s1
  let s3 := if s2.ownSlot slot then s2 else s2.setBeat { s2.beat with restored := some b.step }
  s3.moveBeat slot 2 { step := b.step, phase := 0 }

/-- The context of a restore comes to life (R301 steps 1 and 3 to 5), and the command completes. -/
def State.restoreLive (s : State) (q : Nat) (k : Cmd) (id : Nat) (x : Ctx) (img : List Byte) : State :=
  let p := imgParts img
  let s3 := ((s.makeLive id x).putSync x img p).restoreBeat x.slot (Beat.ofNat (fld img 16 8))
  let geo := decide (fld img p.gen 4 ≠ x.geom)
  let s4 := if x.lane then
      if geo then x.hearths.foldl (fun t g => t.count (rngPage g) 6 1) s3 else s3.putLanes x img p
    else s3
  let same := decide (fld img 12 3 = blkCords x.block)
  let s5 := if same then (s4.putLocal x img p).putCores x img p else s4
  s5.complete q k.slot .done (if geo then eGeomChanged else 0) 0
    (ctxResult id x.syncBase ++ leBytes 4 (if same then 0 else p.ncore))

/-- A billet of CTX_RESTORE after its checks: the next piece of the regions, and with the last one the context (R301, R294). -/
def State.restoreRun (s : State) (q : Nat) (k : Cmd) (id : Nat) (c : Ctx) (img : List Byte) : State :=
  let p := imgParts img
  let x := restoredCtx c img p
  let l := if p.data < img.length then regionPieces x (List.range (blkNpreg x.block)) p.data else []
  match s.putPiece x img l[k.pos]? with
  | .error f =>
    let s2 := (List.range (blkNpreg x.block)).foldl
      (fun t i => t.scramble (.service x) (blkPreg x.block i).1 (blkPreg x.block i).2) s
    s2.cmdFail q k.slot (.service x) f
  | .ok t =>
    if k.pos + 1 < l.length then t.setCmd q k.slot fun x => { x with started := true, pos := k.pos + 1 }
    else t.restoreLive q k id x img

/-- CTX_RESTORE (R301). -/
def State.doRestore (s : State) (q : Nat) (k : Cmd) : State :=
  let a := fld k.line 8 6
  let bad : Fail := Fail.bus a
  let w : Who := .cmdHost
  match s.read w a 64 with
  | .error f => s.cmdFail q k.slot w f
  | .ok h =>
    if fld h 0 4 ≠ 0x58435654 ∨ fld h 4 2 ≠ 0x0100 ∨ fld h 24 8 < 576 then s.failCmd q k.slot bad
    else
      match s.read w a (fld h 24 8), s.read w (fld k.line 16 6) 512 with
      | .error f, _ => s.cmdFail q k.slot w f
      | _, .error f => s.cmdFail q k.slot w f
      | .ok img, .ok blk =>
        if !imgOk img then s.failCmd q k.slot bad
        else if !s.ctxBlockOk blk || (decide (fld img 580 1 = 1) && !(s.page pgMgr).unl) then s.malformed q k.slot
        else if !imgFits img blk then s.failCmd q k.slot bad
        else
          let c := s.newCtx blk q
          match s.freeCtxId, s.blkSeqtOk c with
          | some id, .ok true => s.restoreRun q k id c img
          | _, .error f => s.cmdFail q k.slot (.service c) f
          | _, _ => s.malformed q k.slot

/-! Copies (R351, R317). -/

/-- The cord whose near-memory engine runs a piece: the source's, else the destination's. -/
def State.pieceCord (s : State) (w : Who) (src dst : Nat) : Option Nat :=
  let cord := fun a => match s.resolve w a with
    | .ok p => match s.place p with
      | .stack k => some k
      | _ => none
    | .error _ => none
  match cord src with
  | some k => some k
  | none => cord dst

/-- One piece of a copy from byte `pos` of its ranges. -/
def State.copyPiece (s : State) (w : Who) (src dst len pos : Nat) : Except Fail (State × Nat) := do
  let n := min pieceLen (len - pos)
  let b ← s.read w (src + pos) n
  let t ← s.write w (dst + pos) b
  let t1 := t.count pgStkSvc 5 n
  let t2 := match t1.pieceCord w (src + pos) (dst + pos) with
    | some k => (t1.count (pgStk k) 5 n).nearMoved w k (src + pos) (dst + pos) n
    | none => t1
  pure (t2, pos + n)

/-- Both ranges may be named (R502). -/
def State.copyReach (s : State) (w : Who) (src dst len : Nat) : Except Fail Unit := do
  let _ ← s.resolveAll w src len
  let _ ← s.resolveAll w dst len
  pure ()

/-- A billet of CKPT_COPY. -/
def State.doCopy (s : State) (q : Nat) (k : Cmd) : State :=
  let l := k.line
  let w := s.cmdWho l
  let src := fld l 8 6
  let dst := fld l 16 6
  let len := fld l 24 8
  if !s.copyOk w src dst len then s.malformed q k.slot
  else
    match (if k.started then .ok () else s.copyReach w src dst len) with
    | .error f => s.cmdFail q k.slot w f
    | .ok _ =>
      match s.copyPiece w src dst len k.pos with
      | .error f => (s.scramble w dst len).cmdFail q k.slot w f
      | .ok (t, p) =>
        if len ≤ p then t.done q k.slot [] else t.setCmd q k.slot fun c => { c with started := true, pos := p }

/-- A billet of a fired checkpoint copy (R317). -/
def State.doFired (s : State) (i : Nat) (f : FiredCopy) : State :=
  let gone := { s with copies := dropAt s.copies i }
  match s.ctx? f.ctx with
  | none => gone
  | some c =>
    let w : Who := .cmd c
    let ev := fun (t : State) (r : Result) (e : BitVec 16) (a : Addr) =>
      t.beatEvent f.q f.ctx f.tag r e a (t.slotBeat f.slot) (leBytes 2 f.idx)
    match (if f.pos = 0 then gone.copyReach w f.src.toNat f.dst.toNat f.len else .ok ()) with
    | .error x => ev (gone.memFail w x) .failed x.code x.addr
    | .ok _ =>
      match gone.copyPiece w f.src.toNat f.dst.toNat f.len f.pos with
      | .error x => ev ((gone.scramble w f.dst.toNat f.len).memFail w x) .failed x.code x.addr
      | .ok (t, p) =>
        if f.len ≤ p then ev t .done 0 0
        else { t with copies := modifyAt s.copies i fun f => { f with pos := p } }

/-! SCRUB (R349, R348). -/

/-- Lines of a stack. -/
def stackLines : Nat := 2 ^ 31

/-- A pass over one cord's stack: every correctable line is written back corrected, every uncorrectable one is found, in ascending
address order; answers the lines corrected. -/
def State.scrubCord (s : State) (kind k : Nat) : State × Nat :=
  let own := fun a => decide (s.place a = .stack k)
  let good := (s.errs.map fun p => p.1).filter own
  let bad := (s.ue.filter own).mergeSort fun a b => decide (a ≤ b)
  (bad.foldl (fun t a => t.ueFound kind k a) (good.foldl State.corrected (s.count (pgStk k) 4 stackLines)), good.length)

/-- A billet of SCRUB: one cord. -/
def State.doScrub (s : State) (q : Nat) (k : Cmd) : State :=
  let cs := cordsOf (fld k.line 8 3)
  if cs.any fun c => decide (s.nCords ≤ c) then s.malformed q k.slot
  else
    match cs[k.pos]? with
    | none => s.done q k.slot (leBytes 8 k.count)
    | some c =>
      if !s.placeUp (.stack c) then s.failCmd q k.slot { code := eIso, addr := BitVec.ofNat 48 (c * 2 ^ 37) }
      else
        let r := s.scrubCord 2 c
        if cs.length ≤ k.pos + 1 then r.1.done q k.slot (leBytes 8 (k.count + r.2))
        else r.1.setCmd q k.slot fun x => { x with started := true, pos := k.pos + 1, count := k.count + r.2 }

/-! The page pool (R292, R251). -/

/-- A page that only one entry names, and that nothing pins, moves to a free page: contents, state and FILL with it. -/
def State.movePage (s : State) (c : Ctx) (q : Seqt) (r : SeqRec) (lh i : Nat) : Except Fail (State × Nat) := do
  let w : Who := .service c
  match ← s.entAt w q r lh i with
  | .page p m =>
    if m.ref = 1 ∧ m.pin = 0 then
      match ← s.allocPage w q m.fill with
      | none => pure (s, 0)
      | some (n, s1) => do
        let a ← s1.pageData w q p
        let b ← s1.pageData w q n
        let bs ← s1.read w a 65536
        let s2 ← s1.write w b bs
        let m' ← s2.pageMeta w q n
        let s3 ← s2.putMeta w q n { m' with st := m.st }
        let s4 ← s3.putVal w (r.ent lh i) 8 (entOf n m'.gen)
        let s5 ← s4.dropRef w q p
        pure (s5, 1)
    else pure (s, 0)
  | _ => pure (s, 0)

/-- Compaction of one slot's entries: which of them it moves is not stated, a free choice for each (log 18). -/
def State.compactSlot (s : State) (c : Ctx) (q : Seqt) (slot : Nat) : Except Fail (State × Nat) := do
  let r ← s.seqRec (.service c) q slot
  if r.state = 0 ∨ r.state = 3 ∨ r.cap = 0 then pure (s, 0)
  else
    (entPairs q.nlh 0 r.cap).foldlM (fun (b : State × Nat) p => do
      let t := { b.1 with fresh := b.1.fresh + 1 }
      if Config.freeNat b.1.fresh % 2 = 0 then pure (t, b.2)
      else
        let m ← t.movePage c q r p.1 p.2
        pure (m.1, b.2 + m.2)) (s, 0)

/-- The context's table for a pool command. -/
def State.poolTable (s : State) (l : List Byte) : Except Fail (Option (Ctx × Seqt)) :=
  match s.ctx? (cCtx l) with
  | none => .ok none
  | some c => if blkSeqt c.block = 0 then .ok none else (s.seqt (.service c) (blkSeqt c.block)).map fun q => some (c, q)

/-- A billet of POOL_COMPACT: one slot (R292, R294). -/
def State.doCompact (s : State) (q : Nat) (k : Cmd) : State :=
  match s.poolTable k.line with
  | .error f => s.cmdFail q k.slot (s.cmdWho k.line) f
  | .ok none => s.malformed q k.slot
  | .ok (some (c, t)) =>
    if t.mode = 0 then s.done q k.slot (leBytes 4 0)
    else
      match s.compactSlot c t k.pos with
      | .error f => s.cmdFail q k.slot (.service c) f
      | .ok r =>
        if t.nseqt ≤ k.pos + 1 then r.1.done q k.slot (leBytes 4 (k.count + r.2))
        else r.1.setCmd q k.slot fun x => { x with started := true, pos := k.pos + 1, count := k.count + r.2 }

/-- A billet of PAGE_REFRESH: one slot (R251). -/
def State.doRefresh (s : State) (q : Nat) (k : Cmd) : State :=
  let a := fld k.line 8 4
  match s.poolTable k.line with
  | .error f => s.cmdFail q k.slot (s.cmdWho k.line) f
  | .ok none => s.malformed q k.slot
  | .ok (some (c, t)) =>
    if a ≠ 0xFFFFFFFF ∧ t.nseqt ≤ a then s.malformed q k.slot
    else
      let slot := if a = 0xFFFFFFFF then k.pos else a
      match s.refreshList c t slot with
      | .error f => s.cmdFail q k.slot (.service c) f
      | .ok r =>
        if a ≠ 0xFFFFFFFF ∨ t.nseqt ≤ slot + 1 then r.1.done q k.slot (leBytes 4 (k.count + r.2))
        else r.1.setCmd q k.slot fun x => { x with started := true, pos := slot + 1, count := k.count + r.2 }

/-! TABLE_REBUILD (R462). -/

def State.doRebuild (s : State) (q : Nat) (k : Cmd) : State :=
  let s1 := if fld k.line 8 1 = 1 then { s with ownBad := [] } else { s with shadow := s.fuses }
  s1.done q k.slot []

/-! FW_STAGE (R454). -/

/-- Bytes into the staging buffer. -/
def State.stagePut (s : State) (off : Nat) (b : List Byte) : State :=
  s.setFw { s.fw with part := SMap.putBytes s.fw.part off b }

/-- A billet of FW_STAGE: its start, one block of the image, or the wait for the last block's programming. -/
def State.doStage (s : State) (q : Nat) (k : Cmd) : State :=
  let l := k.line
  let len := fld l 16 4
  let n := len / 65536
  let go := fun (t : State) => t.setCmd q k.slot fun x => { x with started := true }
  if !k.started then
    if len % 65536 ≠ 0 ∨ n = 0 ∨ 4096 < n ∨ fld l 20 1 = b2n s.cbank ∨ s.chainStaging = true ∨ s.fw.trial = true then
      s.malformed q k.slot
    else go (s.beginStage n true)
  else if s.fw.sstate = 3 then s.done q k.slot []
  else if s.fw.sstate = 4 then s.failCmd q k.slot { code := eAuthFail, addr := 0 }
  else if s.fw.sstate = 0 then s.complete q k.slot .aborted 0 0 []
  else if n ≤ k.pos ∨ 64 ≤ s.fw.programming.length then s
  else
    let w := s.cmdWho l
    match s.read w (fld l 8 6 + 65536 * k.pos) 65536 with
    | .error f => s.dropStage.cmdFail q k.slot w f
    | .ok b =>
      let s1 := (s.stagePut (65536 * k.pos) b).stageBlock k.pos
      if s1.fw.sstate = 4 then s1.failCmd q k.slot { code := eAuthFail, addr := 0 }
      else if !s1.fw.have k.pos then s1.stageFail.failCmd q k.slot { code := eAuthFail, addr := 0 }
      else s1.setCmd q k.slot fun x => { x with pos := k.pos + 1 }

/-! The order of billets (R294, R295). -/

/-- Every core of a context is idle or stalled on a WAITBEAT (R300): a restored core first takes up its WAITBEAT. -/
def State.coresAtRest (s : State) (c : Ctx) : Bool :=
  s.cores.all fun p => !c.coreIn p.1 || decide (p.2.run = .idle) || decide (p.2.run = .onBeat)

/-- The wait of a startable billeted command is over: CTX_SAVE waits for its context's step and cores, FW_STAGE for another one. -/
def State.billetReady (s : State) (c : Cmd) : Bool :=
  match cOpc c.line with
  | 0x06 => c.started || match s.ctx? (cCtx c.line) with
    | some x => x.step.isNone && s.coresAtRest x
    | none => true
  | 0x12 => c.started || !s.hostStaging
  | _ => true

/-- A billeted command or a fired copy. -/
inductive Billet where
  | cmd (q : Nat) (c : Cmd)
  | copy (i : Nat) (f : FiredCopy)
  deriving DecidableEq, Repr

def Billet.order : Billet → Nat
  | .cmd _ c => c.order
  | .copy _ f => f.order

/-- Every billeted command that may run a billet. -/
def State.billets (s : State) : List Billet :=
  (s.queues.flatMap fun p => (p.2.cmds.filter fun c => decide (cmdKind (cOpc c.line) = .billeted)
      && (c.started || decide (p.2.nextCmd = some c)) && s.billetReady c).map fun c => Billet.cmd p.1 c)
    ++ s.copies.zipIdx.map fun x => Billet.copy x.2 x.1

/-- The billeted command whose turn it is: round-robin in order of acceptance (R295). -/
def State.nextBillet (s : State) : Option Billet :=
  let first := fun (l : List Billet) => l.foldl (fun b x => match b with
    | none => some x
    | some y => if x.order < y.order then some x else some y) none
  match first (s.billets.filter fun b => decide (s.rr < b.order + 1)) with
  | some b => some b
  | none => first s.billets

/-- One billet of a command. -/
def State.runCmdBillet (s : State) (q : Nat) (c : Cmd) : State :=
  if !c.started && !s.ctxFieldOk (s.queue q) c.line then s.malformed q c.slot
  else
    match cOpc c.line with
    | 0x06 => s.doSave q c
    | 0x07 => s.doRestore q c
    | 0x0C => s.doCopy q c
    | 0x0D => s.doScrub q c
    | 0x0F => s.doCompact q c
    | 0x10 => s.doRefresh q c
    | 0x11 => s.doRebuild q c
    | _ => s.doStage q c

/-- One billet; the turn passes on. -/
def State.runBillet (s : State) (b : Billet) : State :=
  let s1 := { s with rr := b.order + 1 }
  match b with
  | .cmd q c => s1.runCmdBillet q c
  | .copy i f => s1.doFired i f

/-- A billet of the command of queue `q` and slot `slot`, where it is its turn and `f` holds of its line; no immediate command
that may start is left before it (R295). -/
def State.billetOf (s : State) (q slot : Nat) (f : List Byte → Bool) : State :=
  if s.serving && s.nextImm.isNone then
    match s.nextBillet with
    | some (.cmd k c) => if k = q ∧ c.slot = slot ∧ f c.line = true then s.runBillet (.cmd k c) else s
    | _ => s
  else s

/-- CTX_SAVE (R300). -/
def execCtxSave (q slot : Nat) (s : State) : Host.Outcome State Fault Refusal :=
  .next (s.billetOf q slot fun l => decide (cOpc l = 0x06))

/-- CTX_RESTORE (R301). -/
def execCtxRestore (q slot : Nat) (s : State) : Host.Outcome State Fault Refusal :=
  .next (s.billetOf q slot fun l => decide (cOpc l = 0x07))

/-- CKPT_COPY (R351). -/
def execCkptCopy (q slot : Nat) (s : State) : Host.Outcome State Fault Refusal :=
  .next (s.billetOf q slot fun l => decide (cOpc l = 0x0C))

/-- SCRUB (R349). -/
def execScrub (q slot : Nat) (s : State) : Host.Outcome State Fault Refusal :=
  .next (s.billetOf q slot fun l => decide (cOpc l = 0x0D))

/-- POOL_COMPACT (R292). -/
def execPoolCompact (q slot : Nat) (s : State) : Host.Outcome State Fault Refusal :=
  .next (s.billetOf q slot fun l => decide (cOpc l = 0x0F))

/-- PAGE_REFRESH (R251). -/
def execPageRefresh (q slot : Nat) (s : State) : Host.Outcome State Fault Refusal :=
  .next (s.billetOf q slot fun l => decide (cOpc l = 0x10))

/-- TABLE_REBUILD of the ownership copies (R462). -/
def execTableRebuildOwnership (q slot : Nat) (s : State) : Host.Outcome State Fault Refusal :=
  .next (s.billetOf q slot fun l => decide (cOpc l = 0x11 ∧ fld l 8 1 = 1))

/-- TABLE_REBUILD of the fuse shadows (R462). -/
def execTableRebuildFuses (q slot : Nat) (s : State) : Host.Outcome State Fault Refusal :=
  .next (s.billetOf q slot fun l => decide (cOpc l = 0x11 ∧ fld l 8 1 = 2))

/-- FW_STAGE (R454). -/
def execFwStage (q slot : Nat) (s : State) : Host.Outcome State Fault Refusal :=
  .next (s.billetOf q slot fun l => decide (cOpc l = 0x12))

/-- Every immediate command that may start, in order of acceptance (R295). -/
def State.serveAll : Nat → State → State
  | 0, s => s
  | n + 1, s =>
    match s.nextImm with
    | some (q, c) => (s.serveImm q c).serveAll n
    | none => s

/-- BILLET_END (R295): every accepted immediate command, then one billet of the next billeted command. -/
def execBilletEnd (s : State) : Host.Outcome State Fault Refusal :=
  if s.serving then
    let s1 := s.serveAll (s.queues.map fun p => p.2.cmds.length).sum
    match s1.nextBillet with
    | some b => if s1.serving then .next (s1.runBillet b) else .next s1
    | none => .next s1
  else .next s

end Sys2Proof.Machine
end

