-- ==== Sys2Proof/Machine/Links.lean ====
section
/-! DEFINITION. Larfort and reduction ports (R417 to R425, R432, R442, R443): flits in sequence, training, a port that goes down
or comes back, the apertures. -/

set_option Elab.async false

namespace Sys2Proof.Machine

/-! What a port is. -/

/-- The port whose page this is: A or B, UPP, DNP0 to DNP2. -/
def PageInfo.port (i : PageInfo) : Nat := if i.blk = 0x0E then i.die - 96 else 2 + i.inst

/-- The domain that a port's link layer or whole port stands in (Table 16.3). -/
def portDom (p : Nat) : Nat := if p = 0 then 265 else if p = 1 then 271 else 276 + p

/-- EN of a port: the UPP of a manager-strapped package reads 0 (R424). -/
def State.portEn (s : State) (p : Nat) : Bool :=
  (s.cfg (portPage p) 0x104 1).getLsbD 0 && !(decide (p = 2) && s.isManager)

/-- Lanes of the port (R413, Table 17.1). -/
def State.portLanes (s : State) (p : Nat) : Nat := if p < 2 ∧ s.hlw32 = true then 32 else 16

/-- RETRYMAX (R442, R443): 0 reads as 1. -/
def State.retryMax (s : State) (p : Nat) : Nat := max 1 (bits (s.cfg (portPage p) 0x800 0x800).toNat 15 8)

/-- Ports train from K6 on (R410). -/
def State.linksUp (s : State) : Bool := decide (6 ≤ s.pkgPhase) && !s.kind.halt

/-- TSTATE of a port, a PORT record where it changes (R481). -/
def State.portTo (s : State) (p : Nat) (x : Port) : State :=
  let s1 := s.setPort p x
  if (s.port p).tstate = x.tstate then s1
  else s1.trace (if p < 2 then 96 + p else 98) 0x08 (if p < 2 then 0x0E else 0x0F) 0 0xFF 0xFFFF s1.pkgBeat 0 (leBytes 1 p ++ leBytes 1 x.tstate)

/-- An enabled port whose domain is active starts with DETECT (Table 17.3). -/
def State.portStart (s : State) (p : Nat) : State :=
  if (s.port p).tstate = 0 ∧ s.portEn p = true ∧ s.active (portDom p) = true ∧ s.linksUp = true then
    s.portTo p { s.port p with tstate := 1 }
  else s

/-! A port stops carrying traffic, or carries it again. -/

/-- A PKGSUM that waits on the port: its own UPP as a child, or a DNP of its CMASK (R432). -/
def Entry.namesPort (e : Entry) (p : Nat) : Bool :=
  (decide (p = 2) && decide (e.prog.tiles = 1)) || (decide (3 ≤ p) && bit (xreCmask e.desc) (p - 3))

/-- PKGSUMs waiting on the port fail with LINK_DOWN at their own address (R432). -/
def State.failPkgsums (s : State) (p : Nat) : State :=
  (s.engines.map fun x => x.1).foldl (fun t u =>
    match t.pkgRun u with
    | some (i, e, _) => if e.namesPort p then t.endEntry u i (.fail { code := eLinkDown, addr := e.addr }) else t
    | none => t) s

/-- The step of the tree slot when a reduction port is lost (R432): below the break it fails on the package, above it the attempt
fails and is reported. -/
def State.breakTree (s : State) (p : Nat) : State :=
  match s.treeCtx with
  | none => s
  | some (ctx, c) =>
    if p = 2 then if s.beat.actsrc = 2 then s.failStep ctx eLinkDown 0 else s
    else s.attemptError ctx eLinkDown 0 (decide ((s.slotBeat c.slot).phase = phaseCommit)) false

/-- A trained port carries nothing any more (R419, R423, R432): its replay buffer is gone. -/
def State.portLost (s : State) (p : Nat) (st : Nat) : State :=
  let was := decide ((s.port p).tstate = 5 ∨ (s.port p).tstate = 6)
  let s1 := s.portTo p { s.port p with tstate := st, replay := [], nak := false, peer := 0, sub := 0, lanes := 0, deg := false }
  if was && decide (2 ≤ p) then (s1.failPkgsums p).breakTree p else s1

/-- The port goes to DOWN and reports LINK_DOWN (Table 17.3, R439). -/
def State.portDown (s : State) (p : Nat) : State := (s.portLost p 7).linkEvent 1 p

/-- The device reads its watched lines again (R421, R423). -/
def State.rereadLines (s : State) : State :=
  let s1 := (List.range 64).foldl (fun t q =>
    let x := t.queue q
    if x.live && !x.stopped then t.takeControl q (BitVec.ofNat 32 (fld (t.bytes x.ctl.toNat 4) 0 4)) else t) s
  s1.pollAll

/-- What follows once everything sent on UPP has been acknowledged: a report that waited for it goes up (R428). -/
def State.reportAgain (s : State) (p : Nat) : State :=
  if p = 2 ∧ (s.port 2).replay = [] then
    match s.treeCtx with
    | none => s
    | some (ctx, c) =>
      match c.step with
      | none => s
      | some r => if (s.slotBeat c.slot).phase = phaseCommit then s.sendCommitReport c r else s.tryAdvance ctx
  else s

/-- The flits of the replay buffer sent again (R418). -/
def State.resend (s : State) (p : Nat) : State :=
  let l := (s.port p).replay
  let s1 := l.foldl (fun t f => t.putFlit p (b2n f.ctl) f.seq.toNat f.bytes) s
  let s2 := s1.setPort p { s1.port p with replay := l.map fun f => { f with sent := f.sent + 1 } }
  if p < 2 then s2.count (portPage p) 4 l.length else s2

/-- The port is ACTIVE (Table 17.3, R425, R423, R439): after RETRAIN the flits not acknowledged are sent again; a Larfort port brings
back the host traffic; UPP may become the beat source. -/
def State.portActive (s : State) (p : Nat) (lat : BitVec 16) : State :=
  let x := s.port p
  let retrained := decide (x.tstate = 6)
  let y := if retrained then { x with tstate := 5, lat := lat, kept := true, replay := x.replay.map fun f => { f with sent := 0 } }
    else { x with tstate := 5, lat := lat, kept := true, txSeq := 0, rxSeq := 0xFFF, nak := false, replay := [] }
  let hostWas := s.hostUp
  let s1 := s.portTo p y
  let s2 := if x.kept then s1.linkEvent 4 p else s1
  let s3 := if retrained then s2.resend p else s2
  if p < 2 then if hostWas then s3 else s3.flushHeld.rereadLines
  else if p = 2 then s3.reSource else s3

/-- A port in ACTIVE enters RETRAIN (R418, R419). -/
def State.portRetrain (s : State) (p : Nat) : State :=
  if (s.port p).tstate = 5 then
    (s.portTo p { s.port p with tstate := 6 }).count (portPage p) (if p < 2 then 5 else 6) 1
  else s

/-! Flits (R417, R418). -/

/-- Flits up to sequence number `ack` have been received. -/
def State.takeAck (s : State) (p : Nat) (ack : BitVec 12) : State :=
  let x := s.port p
  let s1 := s.setPort p { x with replay := x.replay.filter fun f => after 12 f.seq.toNat ack.toNat }
  if x.replay ≠ [] then s1.reportAgain p else s1

/-- A NAK: every flit after ACK is sent again, or the port retrains where one has been sent RETRYMAX + 1 times (R418). -/
def State.takeNak (s : State) (p : Nat) (ack : BitVec 12) : State :=
  let s1 := s.takeAck p ack
  if (s1.port p).replay.any fun f => decide (s1.retryMax p < f.sent) then s1.portRetrain p else s1.resend p

/-- A flit is discarded and NAK sent in an idle flit (R418). -/
def State.discardFlit (s : State) (p : Nat) : State :=
  ((s.count (portPage p) 3 1).setPort p { s.port p with nak := true }).putFlit p 2 0 []

/-- FLIT_RECEIVE (R417, R418): the flit after error correction. -/
def execFlitReceive (port : Nat) (flit : List Byte) (corrected : Bool) (s : State) : Host.Outcome State Fault Refusal :=
  if port ≤ 5 ∧ s.portUp port = true ∧ flit.length = 256 then
    let s1 := if port < 2 then s.count (portPage port) 1 1 else s
    let s2 := if corrected then s1.count (portPage port) 2 1 else s1
    if fld flit 244 4 ≠ (crc32 (flit.take 244)).toNat then .next (s2.discardFlit port)
    else
      let h := fld flit 0 4
      let ack := BitVec.ofNat 12 (bits h 17 6)
      let s3 := if bit h 5 then s2.takeNak port ack else s2.takeAck port ack
      if bits h 31 30 ≤ 1 then
        let seq := BitVec.ofNat 12 (bits h 29 18)
        let x := s3.port port
        if seq = x.rxSeq + 1 then
          let s4 := if port < 2 then s3 else s3.count (portPage port) 1 240
          .next ((s4.setPort port { x with rxSeq := seq, nak := false }).addOut (.delivered port ((flit.drop 4).take 240)))
        else if after 12 seq.toNat x.rxSeq.toNat then .next (s3.discardFlit port)
        else .next (s3.count (portPage port) 3 1)
      else .next s3
  else .next s

/-- NAK_RECEIVE (R418). -/
def execNakReceive (port : Nat) (ack : BitVec 12) (s : State) : Host.Outcome State Fault Refusal :=
  .next (if port ≤ 5 ∧ s.portUp port = true then s.takeNak port ack else s)

/-! Training (Table 17.3). -/

/-- LINK_DETECT (R419). -/
def execLinkDetect (port : Nat) (found : Bool) (s : State) : Host.Outcome State Fault Refusal :=
  .next (if port ≤ 5 ∧ (s.port port).tstate = 1 ∧ found = true then s.portTo port { s.port port with tstate := 2 } else s)

/-- LINK_EQUALISE_DONE (R419). -/
def execLinkEqualiseDone (port : Nat) (ok : Bool) (s : State) : Host.Outcome State Fault Refusal :=
  .next (if port ≤ 5 ∧ (s.port port).tstate = 2 then
      if ok then s.portTo port { s.port port with tstate := 3 } else s.portDown port
    else s)

/-- The width decision of ALIGN on the mask of bad lanes (R420): lanes in use and DEG, or none. -/
def State.alignWidth (s : State) (p : Nat) (bad : Word) : Option (Nat × Bool) :=
  let b := bad.toNat
  if s.portLanes p = 16 then if b % 65536 = 0 then some (16, false) else none
  else if b = 0 then some (32, false)
  else if (s.cfg (portPage p) 0x800 0x800).getLsbD 0 then none
  else if b % 65536 = 0 ∨ b / 65536 = 0 then some (16, true) else none

/-- LINK_ALIGN_DONE (R420): the port goes to IDENTIFY, or from RETRAIN back to ACTIVE with its latency measured again, a free value
(R425; log 10). -/
def execLinkAlignDone (port : Nat) (bad : Word) (s : State) : Host.Outcome State Fault Refusal :=
  let x := s.port port
  if port ≤ 5 ∧ (x.tstate = 3 ∨ x.tstate = 6) then
    match s.alignWidth port bad with
    | none => .next (s.portDown port)
    | some (n, deg) =>
      let s1 := s.portTo port { x with lanes := n, deg := deg, tstate := if x.tstate = 3 then 4 else 6 }
      let s2 := if deg && !x.deg then s1.linkEvent 2 port else s1
      if x.tstate = 3 then .next s2
      else
        let v := if port < 2 then 0 else BitVec.ofNat 16 (Config.freeNat s2.fresh)
        .next ({ s2 with fresh := s2.fresh + 1 }.portActive port v)
  else .next s

/-- LINK_IDENTIFY_DONE (R424, R425): the far end's kind and part, and the echo's round trip in SCLK. -/
def execLinkIdentifyDone (port peer : Nat) (part : BitVec 16) (rtt : Nat) (s : State) : Host.Outcome State Fault Refusal :=
  if port ≤ 5 ∧ (s.port port).tstate = 4 then
    let kind := if port = 2 then 2 else 1
    if 2 ≤ port ∧ (peer ≠ kind ∨ part ≠ s.shadow.part) then .next ((s.portLost port 7).linkEvent 3 port)
    else
      let s1 := s.setPort port { s.port port with peer := if port < 2 then 0 else peer }
      .next (s1.portActive port (if port < 2 then 0 else BitVec.ofNat 16 (min 65535 (ceilDiv rtt 2))))
  else .next s

/-- LINK_RETRAIN_TIMEOUT (R419). -/
def execLinkRetrainTimeout (port : Nat) (s : State) : Host.Outcome State Fault Refusal :=
  .next (if port ≤ 5 ∧ (s.port port).tstate = 6 then s.portDown port else s)

/-- LINK_DOWN_RETRY (R419). -/
def execLinkDownRetry (port : Nat) (s : State) : Host.Outcome State Fault Refusal :=
  .next (if port ≤ 5 ∧ (s.port port).tstate = 7 then s.portTo port { s.port port with tstate := 1 } else s)

/-- LINK_ALIGNMENT_LOST (R419). -/
def execLinkAlignmentLost (port : Nat) (s : State) : Host.Outcome State Fault Refusal :=
  .next (if port ≤ 5 then s.portRetrain port else s)

/-- What a write of EN does (R442, R443): the port is disabled, its traffic lost or moved, or it starts with DETECT. -/
def State.portEnable (s : State) (p : Nat) : State :=
  if s.portEn p then s.portStart p else if (s.port p).tstate = 0 then s else s.portLost p 0

/-! Coherence and apertures. -/

/-- WATCHED_LINE_SNOOP (R421): a watched line that the host has written is read again and goes to the manager die. -/
def execWatchedLineSnoop (addr : Addr) (s : State) : Host.Outcome State Fault Refusal :=
  if s.hostUp then
    match s.watchedBy addr.toNat with
    | some q => .next (s.cohEvent.pollQueue (2 ^ (s.queue q).logN) q)
    | none =>
      match (List.range 64).find? fun q => let x := s.queue q; x.live && decide (x.ctl = addr) with
      | some q =>
        if (s.queue q).stopped then .next s.cohEvent
        else .next (s.cohEvent.takeControl q (BitVec.ofNat 32 (fld (s.bytes addr.toNat 4) 0 4)))
      | none => .next s
  else .next s

/-- APERTURE_PLACEMENT (R422, R442): HLK_APB of both ports. -/
def execAperturePlacement (sapb : BitVec 7) (uapb : BitVec 2) (s : State) : Host.Outcome State Fault Refusal :=
  if s.hostUp then
    let v := BitVec.ofNat 32 (2 ^ 31 + sapb.toNat * 2 ^ 8 + uapb.toNat)
    .next ([0, 1].foldl (fun t p => t.setPage (pgHlk p) { t.page (pgHlk p) with cfg := SMap.put (t.page (pgHlk p)).cfg 0 0x108 v }) s)
  else .next s

end Sys2Proof.Machine
end

