-- ==== Sys2Proof/Machine/Reset.lean ====
section
/-! DEFINITION. Resets (R397 to R407): what each reach resets and keeps, sources and episodes, clock qualification. -/

set_option Elab.async false

namespace Sys2Proof.Machine

/-! What a reset does to descriptors and cores (R404, R406). -/

/-- The descriptors of a window that have not ended, taken out of it FAILED with `code` at their own addresses. -/
def State.killWindow (fuel : Nat) (s : State) (u : Nat) (code : BitVec 16) (l : List Entry) : State × List Entry :=
  match fuel with
  | 0 => (s, l)
  | fuel + 1 =>
    match (s.engine u).win.findIdx? fun e => e.ended.isNone with
    | none => (s, l)
    | some i =>
      match s.entry? u i with
      | none => (s, l)
      | some e =>
        let s1 := match s.ctx? e.ctx with
          | some c => s.scrambleDest c e
          | none => s
        let s2 := if code = eIso then s1.isoResponse u else s1
        (s2.leaveWindow u i e (.fail { code := code, addr := e.addr })).killWindow fuel u code (l ++ [e])

/-- Every running or waiting descriptor of the given engines fails, and the step learns of each (R404, R222). -/
def State.killEngines (s : State) (us : List Nat) (code : BitVec 16) : State :=
  let r := us.foldl (fun (a : State × List Entry) u => a.1.killWindow (a.1.engine u).win.length u code a.2) (s, [])
  r.2.foldl (fun t e => match t.ctx? e.ctx with
    | some c => t.descFailed e.ctx c e (.fail { code := code, addr := e.addr })
    | none => t) r.1

/-- The running cores that satisfy `f` stop, and the attempt ends as for a dispatch fault with ISO_ERR (R404). -/
def State.killCores (s : State) (f : Nat → Bool) : State :=
  (s.cores.map fun p => p.1).foldl (fun t k =>
    let x := t.core k
    if f k && decide (x.run ≠ .idle ∧ x.run ≠ .stopped) then
      match t.hearthCtx (k / 8) with
      | some (ctx, c) => t.dispatchFault k ctx c { code := eIso, addr := x.pc }
      | none => t.setCore k Core.reset
    else t) s

/-- The draught controller enters reset: chunk requests and grants that are under way end with ISO_ERR (R403). -/
def State.holdDrt (s : State) : State :=
  let n := s.drt.waiting.length + s.drt.inflight.length
  (List.range n).foldl (fun t _ => t.isoResponse pgDrt) (s.setDrt { s.drt with waiting := [], inflight := [] })

/-- One block enters reset, its wrapper closed: its windows, for an HRT block the hearth's cores, for the draught controller its
requests and grants (R403, R404). -/
def State.holdBlock (s : State) (pg : Nat) (code : BitVec 16) : State :=
  let s0 := if (s.page pg).early then s.setPage pg { s.page pg with early := false } else s
  let s1 := s0.killEngines [pg] code
  match s.pageInfo pg with
  | some i =>
    match i.hearth with
    | some h => if i.blk = 0x03 then s1.killCores fun k => decide (k / 8 = i.die * 48 + h) else s1
    | none => if i.blk = 0x11 then s1.holdDrt else s1
  | none => s1

/-- Whole dies enter reset. -/
def State.holdDies (s : State) (ds : List Nat) : State :=
  let us := (s.engines.map fun p => p.1).filter fun u => match s.pageInfo u with
    | some i => decide (i.die ∈ ds)
    | none => false
  (s.killEngines us eIso).killCores fun k => decide (k / 384 ∈ ds)

/-! What is in flight when a whole package resets (R399, R404). -/

/-- Destination ranges of a command line. -/
def cmdRanges (l : List Byte) : List (Nat × Nat) :=
  match cOpc l with
  | 0x06 => [(fld l 8 6, fld l 16 8)]
  | 0x0C => [(fld l 16 6, fld l 24 8)]
  | _ => []

def State.scrambleCmd (s : State) (l : List Byte) : State :=
  (cmdRanges l).foldl (fun t r => t.scramble (t.cmdWho l) r.1 r.2) s

/-- Every destination range in flight becomes unspecified. -/
def State.scrambleFlight (s : State) : State :=
  let s1 := (s.engines.flatMap fun p => p.2.win).foldl (fun t e => match t.ctx? e.ctx with
    | some c => t.scrambleDest c e
    | none => t) s
  let s2 := (s1.queues.flatMap fun p => p.2.cmds).foldl (fun t c => t.scrambleCmd c.line) s1
  let s3 := s2.copies.foldl (fun t f => match t.ctx? f.ctx with
    | some c => t.scramble (.cmd c) f.dst.toNat f.len
    | none => t) s2
  s3.prefetch.foldl (fun t f => match t.ctx? f.ctx with
    | some c => t.scramble (.desc c) f.dst.toNat f.len
    | none => t) s3

/-! COLD and WARM (Table 16.5). -/

/-- The counters of the RST, PWR and FW pages alone survive a WARM (R416, R466). -/
def State.keptPages (s : State) : SMap Page :=
  s.pages.filterMap fun p =>
    let q := { Page.reset with cnt := p.2.cnt, hold := p.2.hold }
    if (p.1 = pgRst ∨ p.1 = pgPwr ∨ p.1 = pgFw) ∧ q ≠ Page.reset then some (p.1, q) else none

/-- A direct address of a stack, of host memory, of a hearth memory (Table 14.1). -/
def stackAddr (a : Nat) : Bool := decide (a < 0x030000000000)
def hostAddr (a : Nat) : Bool := decide (0x800000000000 ≤ a)
def hearthDie (a : Nat) : Option Nat :=
  if 0x080000000000 ≤ a ∧ a < 0x080900000000 then some ((a - 0x080000000000) / 0x20000000) else none

/-- The package after a COLD or WARM but for reset controller and kindling, which the caller sets: what Table 16.5 keeps, and what
lies outside the package. -/
def State.wipe (s : State) (cold : Bool) : State :=
  let keep := fun a => hostAddr a || (!cold && stackAddr a)
  { State.reset with
    pending := s.pending, fuses := s.fuses, shadow := s.shadow, pins := s.pins, supply := s.supply, ember := s.ember,
    rst := s.rst, kind := s.kind,
    doms := if cold then [] else s.doms.filter fun p => decide (216 ≤ p.1 ∧ p.1 < 264),
    pages := if cold then [] else s.keptPages,
    mem := s.mem.filter fun p => keep p.1,
    ue := s.ue.filter keep, ueSeen := s.ueSeen.filter keep, errs := s.errs.filter fun p => keep p.1,
    beat := if cold then BeatUnit.reset else { BeatUnit.reset with slots := s.beat.slots },
    ports := if cold then [] else s.ports.filterMap fun p => if p.2.kept then some (p.1, { Port.reset with kept := true }) else none,
    chain := if cold then Chain.reset else
      { Chain.reset with relay := s.chain.relay, upLock := s.chain.upLock, downLock := s.chain.downLock, cstate := b2n s.chain.upLock },
    jtag := if cold then Jtag.reset else s.jtag,
    flash := s.flash, out := s.out, fresh := s.fresh }

/-- The settings records that K2 applied, at every reset that keeps them (Table 18.6, R397). -/
def State.applySettings (s : State) : State :=
  s.kind.settings.foldl (fun t r =>
    let put := fun (pg off : Nat) (d v : Word) => t.setPage pg { t.page pg with cfg := SMap.put (t.page pg).cfg d off v }
    match r.1 with
    | 1 => put pgBeat 0x10C 0 (BitVec.ofNat 32 (r.2 % 65536))
    | 2 => t.setDrt { t.drt with lim := some (BitVec.ofNat 19 r.2) }
    | _ => put pgMgr 0x128 0x00B0 (BitVec.ofNat 32 (r.2 % 65536))) s

/-- The whole package is held in COLD: kindling goes back to K1, or K0 where that has not ended. -/
def State.holdCold (s : State) : State :=
  let t := s.scrambleFlight.wipe true
  { t with kind := { Kind.reset with phase := min 1 s.kind.phase } }

/-- The whole package is held in WARM (R397, R411): with options in force, kindling goes back to K3; without, it is performed as a
COLD. -/
def State.holdWarm (s : State) : State :=
  if s.kind.opts then
    let t := s.scrambleFlight.wipe false
    ({ t with kind := { Kind.reset with phase := 3, pwr := true, opts := true, settings := s.kind.settings, cold := false } }.applySettings).reSource
  else s.holdCold

/-! PART, DIE and BLOCK (Table 16.5, R373, R399). -/

/-- A context ends under PART (R399, R306): its commands fail with ISO_ERR, its own queues go. -/
def State.endByReset (s : State) (id : Nat) : State :=
  let s0 := s.failStep id eIso 0
  let cmds := s0.queues.flatMap fun p => (p.2.cmds.filter fun c => decide (cCtx c.line = id)).map fun c => (p.1, c)
  let s1 := cmds.foldl (fun t x => (t.scrambleCmd x.2.line).failCmd x.1 x.2.slot { code := eIso, addr := 0 }) s0
  match s1.ctx? id with
  | none => s1
  | some c =>
    let s2 := (s1.abortCtx id).endCtx id c
    { s2 with queues := s2.queues.filter fun p => !(p.2.ownU && decide (p.2.octx = id)) }

/-- Credits of a die are gone from its tiers and no longer committed (R323). -/
def State.dropCredits (s : State) (ds : List Nat) : State :=
  let out := fun d => decide (d ∈ ds)
  (s.setDrt { s.drt with dieFree := SMap.dropKeys s.drt.dieFree out, inflight := SMap.dropKeys s.drt.inflight out,
                         returning := SMap.dropKeys s.drt.returning out,
                         poolFree := SMap.dropKeys s.drt.poolFree fun h => out (h / 48),
                         poolQ := SMap.dropKeys s.drt.poolQ fun h => out (h / 48), dieQ := SMap.dropKeys s.drt.dieQ out,
                         waiting := s.drt.waiting.filter fun d => !out d }).ledgerFell

/-- What whole dies hold at their reset values; stack contents are kept (R397). -/
def State.cutDies (s : State) (ds : List Nat) : State :=
  let out := fun d => decide (d ∈ ds)
  let page := fun pg => match s.pageInfo pg with
    | some i => out i.die
    | none => false
  let inH := fun a => match hearthDie a with
    | some d => out d
    | none => false
  { s with pages := SMap.dropKeys s.pages page, mem := SMap.dropKeys s.mem inH, ue := s.ue.filter (fun a => !inH a),
           ueSeen := s.ueSeen.filter fun a => !inH a, errs := SMap.dropKeys s.errs inH, lsync := SMap.dropKeys s.lsync fun k => out (k / 64 / 48),
           lsnap := SMap.dropKeys s.lsnap fun k => out (k / 64 / 48), cores := SMap.dropKeys s.cores fun k => out (k / 384),
           engines := SMap.dropKeys s.engines page, stores := SMap.dropKeys s.stores fun k => out (k / 240),
           drains := SMap.dropKeys s.drains fun g => out (g / 48),
           lanes := SMap.dropKeys s.lanes fun k => out (k / 3072), shadows := SMap.dropKeys s.shadows fun k => out (k / 3072),
           trc := SMap.dropKeys s.trc out, ownBad := s.ownBad.filter fun x => !out x.1,
           scrubPos := SMap.dropKeys s.scrubPos fun c => out (72 + c),
           lostClk := s.lostClk.filter fun x => !out x.1 }

/-- The blocks of whole dies are reset, and their credits return (R397). -/
def State.resetDies (s : State) (ds : List Nat) : State := (s.cutDies ds).dropCredits ds

/-- What a block soft reset does beside the page's registers. -/
def State.blockLogic (s : State) (i : PageInfo) : State :=
  match i.blk with
  | 0x01 => s.setQueue 0 Queue.none
  | 0x0D => { s with scrubPos := SMap.erase s.scrubPos (i.die - 72) }
  | 0x0E => (s.portLost i.port 0).portStart i.port
  | 0x0F => (s.portLost i.port 0).portStart i.port
  | 0x11 =>
    (s.setDrt { s.drt with budget := none, lim := none, sen := true, act := false, rcv := false, owed := false, widen := [],
                           overRun := 0, half := false, draw := 0 }).ledgerFell
  | 0x12 => s.reSource
  | 0x14 => s.doms.foldl (fun t p => if p.2.req = t.domReq0 p.1 then t else t.startDom p.1 (t.domReq0 p.1)) s
  | 0x15 => s.setTrc i.die TraceUnit.reset
  | _ => s

/-- A block is released from a reset of reach BLOCK (R373, R407): configuration, perturbation and PG_IRQ_EN at their reset values,
unlock closed; counters, holding copies, PG_ERR and the snapshot beat stay. -/
def State.recoverBlock (s : State) (pg : Nat) : State :=
  match s.pageInfo pg with
  | none => s
  | some i =>
    let p := s.page pg
    let q := { Page.reset with err := p.err, irqRaw := p.irqRaw, snapScope := p.snapScope, snapBusy := p.snapBusy,
                               snapBeat := p.snapBeat, latch := p.latch, cnt := p.cnt, hold := p.hold }
    ((s.pageIrq pg q).blockLogic i).count pgRst 0 1

/-- The pages of a die. -/
def diePages (d : Nat) : List Nat :=
  (List.range 10).map (diePage d) ++
    if d < 72 then (List.range 48).flatMap fun h => (List.range 13).map fun q => hearthPage (48 * d + h) q else []

/-- RST_CFG.EARLY in test mode (R407). -/
def State.earlyOn (s : State) : Bool := s.testMode && (s.cfg pgRst 0x118 0).getLsbD 0

/-- The block is held only for want of qualification (R407). -/
def State.onlyUnqual (s : State) (pg : Nat) : Bool :=
  match s.pageInfo pg with
  | some i => !s.clkq i && !(s.page pg).early && !s.dieHeld i.die && !decide (pg ∈ s.rst.blocks)
  | none => false

/-- A block that is held only for want of qualification is released at once under EARLY, its wrapper still closed (R407). -/
def State.markEarly (s : State) (pg : Nat) : State :=
  if s.earlyOn && s.onlyUnqual pg then (s.setPage pg { s.page pg with early := true }).count pgRst 6 1 else s

/-- A reset of reach BLOCK ends for a block: it is released once its clocks are qualified (R406), or early (R407, R372). -/
def State.releaseBlock (s : State) (pg : Nat) : State :=
  if s.onlyUnqual pg then if s.earlyOn then (s.recoverBlock pg).markEarly pg else s
  else match s.pageInfo pg with
  | some i => if s.blkHeld pg i then s else s.recoverBlock pg
  | none => s

/-! Sources and episodes (R398 to R401, R411). -/

/-- Causes counted, saturating (R401). -/
def Ember.cause (e : Ember) (c : Nat) : Ember :=
  { e with rcnt := SMap.insert e.rcnt c (min 0xFFFF (SMap.get e.rcnt 0 c + 1)), rtotal := min 0xFFFFFFFF (e.rtotal + 1) }

/-- The reset controller's record of an assertion (R400). -/
def Rst.assert (r : Rst) (x : Source) (all : List Nat) : Rst :=
  let l := match r.latch with
    | some y => min y x.reach
    | none => x.reach
  { asserted := r.asserted ++ [x], latch := some l,
    scope := if l ≤ 1 then all else r.scope ++ x.dies.filter fun d => !decide (d ∈ r.scope),
    causes := r.causes ||| BitVec.ofNat 12 (2 ^ x.cause), blocks := if x.reach = 4 then r.blocks ++ [x.pg] else r.blocks }

/-- A reset of any reach ends staging (R453). -/
def State.endStage (s : State) : State := if s.fw.sstate = 1 ∨ s.fw.sstate = 2 then s.dropStage else s

/-- The episode of a source's assertion (R400, R401). -/
def State.noteSource (s : State) (x : Source) : State :=
  let s0 := s.endStage
  { s0 with ember := s0.ember.cause x.cause, rst := s0.rst.assert x s0.dies }

/-- A source asserts (R400, R401): it is counted, and its scope is held in reset. During K2 a reset narrower than COLD wants K2 to
restart (R411). -/
def State.assertSource (s : State) (x : Source) : State :=
  if s.supply.vstbyGood then
    let s1 := s.noteSource x
    let inK2 := decide (s.kind.phase = 2) && !s.kind.halt
    if x.reach = 0 then s1.holdCold
    else if inK2 then { s1 with kind := { s1.kind with k2r := true } }
    else if x.reach = 1 then s1.holdWarm
    else if x.reach = 4 then s1.holdBlock x.pg eIso
    else s1.holdDies x.dies
  else s

/-- Recovery of whole dies (R399, R400): under PART the live contexts that own one of them end; K3 and K4 follow for them alone, and
then the package's own kindling goes on (Table 16.5). -/
def State.recoverDies (s : State) (part : Bool) (ds : List Nat) : State :=
  let s1 := if part then
      (s.liveCtxs.filter fun p => ds.any fun d => match dieCord d with
        | some c => bit (blkCords p.2.block) c
        | none => false).foldl (fun t p => t.endByReset p.1) s
    else s
  let s2 := (s1.resetDies ds).count pgRst (if part then 2 else 1) 1
  let k := s2.kind
  if k.halt then s2
  else if k.scope.isSome ∨ 4 ≤ k.phase then
    let old := k.scope.getD []
    let s3 := { s2 with kind := { k with phase := 3, scope := some (old ++ ds.filter fun d => !decide (d ∈ old)),
                                         back := if k.scope.isSome then k.back else k.phase } }
    (ds.flatMap diePages).foldl State.markEarly s3
  else s2

/-- The episode ends with what RST_CAUSE then shows (R400, R401). -/
def State.noteRecovery (s : State) (l : Nat) : State :=
  { s with ember := { s.ember with k2r := s.kind.k2r, reach := l, causes := s.rst.causes }, rst := Rst.reset }

/-- Recovery (R400, R401, R411): RST_CAUSE records the episode, and the recorded reach is performed. -/
def State.recover (s : State) : State :=
  match s.rst.latch with
  | none => s
  | some l =>
    let r := s.rst
    let s1 := s.noteRecovery l
    if s.kind.k2r then { s1 with kind := { s1.kind with k2r := false } }.count pgRst 5 1
    else if l ≤ 1 then s1
    else
      let s2 := if l = 4 then s1 else s1.recoverDies (decide (l = 2)) r.scope
      (r.blocks.filter fun pg => match s.pageInfo pg with
        | some i => decide (l = 4) || !decide (i.die ∈ r.scope)
        | none => false).foldl (fun t pg => t.releaseBlock pg) s2

/-- A source releases: recovery begins once no source is asserted (R400). -/
def State.releaseSource (s : State) (cause pg : Nat) : State :=
  let hit := fun (x : Source) => decide (x.cause = cause) && (decide (cause ≠ 10) || decide (x.pg = pg))
  if s.rst.asserted.any hit then
    let s1 := { s with rst := { s.rst with asserted := s.rst.asserted.filter fun x => !hit x } }
    if s1.rst.asserted = [] then s1.recover else s1
  else s

/-- A source of reach COLD or WARM. -/
def wideSource (cause reach : Nat) : Source := { cause := cause, reach := reach, dies := [], pg := 0 }

/-- RSTN_PIN (R398): RSTN goes low. -/
def execRstnPin (s : State) : Host.Outcome State Fault Refusal :=
  .next (if s.pins.rstn then { s with pins := { s.pins with rstn := false } }.assertSource (wideSource 2 0) else s)

/-- WRSTN_PIN (R398): WRSTN goes low. -/
def execWrstnPin (s : State) : Host.Outcome State Fault Refusal :=
  .next (if s.pins.wrstn then { s with pins := { s.pins with wrstn := false } }.assertSource (wideSource 3 1) else s)

/-- HOST_LINK_RESET (R423, R398). -/
def execHostLinkReset (port : Nat) (s : State) : Host.Outcome State Fault Refusal :=
  .next (if port < 2 ∧ s.portUp port = true then s.assertSource (wideSource 5 1) else s)

/-- REFCLK_LOSS (R398). -/
def execRefclkLoss (s : State) : Host.Outcome State Fault Refusal :=
  .next (if s.pins.refclk && s.supply.vstbyGood then { s with pins := { s.pins with refclk := false } }.assertSource (wideSource 11 1) else s)

/-- The sensors are powered: both supplies are good (R408, R410). -/
def State.sensorsOn (s : State) : Bool := s.supply.vinGood && s.supply.vstbyGood

/-- The hottest reading (R414). -/
def State.setTemp (s : State) (die temp : Nat) : State :=
  { s with supply := { s.supply with tj := BitVec.ofNat 8 (min 255 temp), tdie := BitVec.ofNat 8 die } }

/-- THERM_N is driven low (R490): while a sensor reads 105 °C or more, through a thermal trip, while K1 waits for the temperature. -/
def State.thermLow (s : State) : Bool :=
  (s.sensorsOn && decide (105 ≤ s.supply.tj.toNat))
    || s.supply.vstbyGood && ((s.rst.asserted.any fun x => decide (x.cause = 7)) || (decide (s.kind.phase = 1) && s.supply.hot))

/-- THERMAL_TRIP (R408). -/
def execThermalTrip (die temp : Nat) (s : State) : Host.Outcome State Fault Refusal :=
  if 115 ≤ temp ∧ s.hasDie die = true ∧ s.sensorsOn = true ∧ !(s.rst.asserted.any fun x => decide (x.cause = 7)) then
    .next ((s.setTemp die temp).assertSource (wideSource 7 0))
  else .next s

/-- TJ_WARNING (R408): the hottest sensor's reading; from 105 °C a power event. A reading below it ends the warning (R490, log 107). -/
def execTjWarning (die temp : Nat) (s : State) : Host.Outcome State Fault Refusal :=
  if s.hasDie die = true ∧ s.sensorsOn = true then
    let t := s.setTemp die temp
    .next (if 105 ≤ temp then t.pkgEvent 0x0C 0 0 [] else t)
  else .next s

/-- RST_WDT.EN (R409, R415). -/
def State.wdtOn (s : State) : Bool := (s.cfg pgRst 0x110 2000).getLsbD 31

/-- WATCHDOG_TIMEOUT (R409). -/
def execWatchdogTimeout (s : State) : Host.Outcome State Fault Refusal :=
  .next (if s.wdtOn then s.assertSource (wideSource 6 1) else s)

/-- RESET_SOURCE_RELEASE (R398, R400): the end of a source's assertion; a supply's source ends with its verdict (R389). -/
def execResetSourceRelease (cause pg : Nat) (s : State) : Host.Outcome State Fault Refusal :=
  if cause ≤ 1 then .next s
  else
    let p := s.pins
    let s1 := { s with pins := { p with rstn := p.rstn || decide (cause = 2), wrstn := p.wrstn || decide (cause = 3),
                                        refclk := p.refclk || decide (cause = 11) } }
    .next (s1.releaseSource cause pg)

/-! RST_PART, RST_DIE, RST_WDTK (R399, R409): what their writes do. -/

def State.goPart (s : State) (mask : Nat) : State :=
  let cs := cordsOf mask
  let owners := s.liveCtxs.filter fun p => cs.any fun c => bit (blkCords p.2.block) c
  let ok := !cs.isEmpty && (cs.all fun c => decide (c < s.nCords))
    && (match owners with
      | [] => true
      | [p] => decide (blkCords p.2.block = mask)
      | _ => false)
  if ok then s.assertSource { cause := 8, reach := 2, dies := cs.flatMap cordDies, pg := 0 } else s.pgErr pgRst eBusErr 0x108

def State.goDie (s : State) (d : Nat) : State :=
  if 96 ≤ d ∨ s.hasDie d = false then s.pgErr pgRst eBusErr 0x10C
  else
    match (dieCord d).bind s.cordCtx with
    | some p => s.assertSource { cause := 9, reach := 2, dies := p.2.cords.flatMap cordDies, pg := 0 }
    | none => s.assertSource { cause := 9, reach := 3, dies := [d], pg := 0 }

/-- A write of RST_WDTK at privilege M or S (R409). -/
def State.kick (s : State) (m : Bool) (v : Nat) : State :=
  if !m then s.pgErr pgRst eBusErr 0x114
  else if v % 65536 = 0x6B1C then s.count pgRst 7 1
  else s.assertSource (wideSource 6 1)

/-! Clock qualification (R405 to R407). -/

/-- The pages of a die whose blocks use a clock. -/
def State.clkPages (s : State) (d : Nat) (k : Clock) : List Nat :=
  (diePages d).filter fun pg => match s.pageInfo pg with
    | some i => decide (k ∈ i.clocks)
    | none => false

/-- CLOCK_QUAL_LOSS (R406): the blocks of the clock enter reset with reach BLOCK, their descriptors fail with CLK_UNQUAL. -/
def execClockQualLoss (die : Nat) (clk : Clock) (s : State) : Host.Outcome State Fault Refusal :=
  let ps := s.clkPages die clk
  if s.hasDie die && !ps.isEmpty && s.dieQual die && !s.dieHeld die && !decide ((die, clk) ∈ s.lostClk) then
    let s1 := { s with lostClk := s.lostClk ++ [(die, clk)] }.endStage.count pgRst 4 1
    let s2 := ps.foldl (fun t pg => (t.holdBlock pg eClkUnqual).raise pg 0x04) s1
    .next (if s2.earlyOn then ps.foldl State.releaseBlock s2 else s2)
  else .next s

/-- CLOCK_QUALIFIED (R405, R406): the blocks whose clocks are all qualified again are released. -/
def execClockQualified (die : Nat) (clk : Clock) (s : State) : Host.Outcome State Fault Refusal :=
  if (die, clk) ∈ s.lostClk then
    let s1 := { s with lostClk := s.lostClk.filter fun x => x ≠ (die, clk) }
    .next ((s1.clkPages die clk).foldl (fun t pg => if (t.page pg).early || t.onlyUnqual pg then t else t.releaseBlock pg) s1)
  else .next s

end Sys2Proof.Machine
end

