-- ==== Sys2Proof/Machine/Power.lean ====
section
/-! DEFINITION. Supplies (R389 to R392), power domains (R393 to R396), kindling (R410 to R412, R451). -/

set_option Elab.async false

namespace Sys2Proof.Machine

/-! Supplies (R389, R390). -/

/-- VIN56 in units of 10 mV and VSTBY in mV that count as good, or as not good (Table 16.1). -/
def vinGoodAt (v : BitVec 16) : Bool := decide (4600 ≤ v.toNat ∧ v.toNat ≤ 6200)
def vinBadAt (v : BitVec 16) : Bool := decide (v.toNat < 4400 ∨ 6200 < v.toNat)

def State.setVin (s : State) (v : BitVec 16) (good : Bool) : State := { s with supply := { s.supply with vin := v, vinGood := good } }
def State.setVstby (s : State) (v : BitVec 12) (good : Bool) : State :=
  { s with supply := { s.supply with vstby := v, vstbyGood := good, hot := s.supply.hot && good } }

/-- VIN56_GOOD (R389, R390): its source releases; K1 starts where K0 has ended. -/
def execVin56Good (sample : BitVec 16) (s : State) : Host.Outcome State Fault Refusal :=
  .next (if vinGoodAt sample then (s.setVin sample true).releaseSource 0 0 else s)

/-- VIN56_LOST (R389, R390). -/
def execVin56Lost (sample : BitVec 16) (s : State) : Host.Outcome State Fault Refusal :=
  .next (if vinBadAt sample && s.supply.vinGood then (s.setVin sample false).assertSource (wideSource 0 0) else s)

/-- Pins that are low, and a REFCLK without edges, assert their sources (R398). -/
def State.assertPins (s : State) : State :=
  let s1 := if s.pins.rstn then s else s.assertSource (wideSource 2 0)
  let s2 := if s.pins.wrstn then s1 else s1.assertSource (wideSource 3 1)
  if s.pins.refclk then s2 else s2.assertSource (wideSource 11 1)

/-- VSTBY_GOOD (R389, R390): K0 starts. It clears the ember domain after a loss and counts the source (R392); what the pins assert is
judged from then on (R398). -/
def execVstbyGood (sample : BitVec 12) (s : State) : Host.Outcome State Fault Refusal :=
  .next (if 3100 ≤ sample.toNat then
      if s.supply.vstbyGood then s.setVstby sample true
      else { s.setVstby sample true with ember := { Ember.reset with rcnt := [(1, 1)], rtotal := 1 } }.assertPins
    else s)

/-- VSTBY_LOST (R389, R390, R392): COLD, and the ember domain loses its contents. -/
def execVstbyLost (sample : BitVec 12) (s : State) : Host.Outcome State Fault Refusal :=
  if sample.toNat < 3000 ∧ s.supply.vstbyGood = true then
    let t := (s.setVstby sample false).holdCold
    .next { t with ember := Ember.reset, rst := Rst.reset, kind := Kind.reset }
  else .next s

/-! Kindling (R410 to R412). -/

/-- The kindling phase `p` is in progress: no halt, its supply good; all but K0 wait for the end of every reset. -/
def State.inPhase (s : State) (p : Nat) : Bool :=
  decide (s.kind.phase = p) && !s.kind.halt && s.supply.vstbyGood && (decide (p = 0) || (s.rst.latch.isNone && s.supply.vinGood))

/-- The page lies on the service die. -/
def State.svcPage (s : State) (pg : Nat) : Bool :=
  match s.pageInfo pg with
  | some i => decide (i.die = 98)
  | none => false

/-- The pages after a halt: the service die's, and the counters that a WARM keeps (R412, R416). -/
def State.haltPages (s : State) : SMap Page :=
  (s.keptPages.filter fun (p : Nat × Page) => !s.svcPage p.1).foldl (fun m p => SMap.insert m p.1 p.2)
    (s.pages.filter fun (p : Nat × Page) => s.svcPage p.1)

/-- Kindling halts (R412): all but the ember domain, the service die with its domains, ports and registers, and the chain relay is
off; the counters of the PWR page stay. -/
def State.halt (s : State) (code die : Nat) : State :=
  let t := s.scrambleFlight.wipe true
  let off : SMap Dom := ((List.range 48).map fun i => 216 + i).filterMap fun k =>
    if s.hasDom k then some (k, { req := 0, state := 0, busy := false }) else none
  { t with pages := s.haltPages, chain := s.chain, jtag := s.jtag, doms := off ++ s.doms.filter (fun (p : Nat × Dom) => decide (276 ≤ p.1 ∧ p.1 ≤ 281)),
           ports := s.ports.filter (fun p => decide (2 ≤ p.1)), trc := s.trc.filter (fun p => decide (p.1 = 98)),
           lostClk := s.lostClk.filter (fun x => decide (x.1 = 98)),
           kind := { s.kind with halt := true, hcode := code, hdie := die, pwr := false, qual := false, scope := none,
                                 back := 7 } }.count pgPwr 7 1

/-- EMBER (R410): the end of K0, which needs VSTBY alone (Table 16.2). -/
def execEmber (s : State) : Host.Outcome State Fault Refusal :=
  if s.inPhase 0 then .next { s with kind := { s.kind with phase := 1 } } else .next s

/-- K1 finds every sensor at 95 °C or below: a hotter reading of PWR_TJ is past, and what it reads now is free (R408, R414; log 107). -/
def State.cooled (s : State) : State :=
  if 95 < s.supply.tj.toNat then
    { s with supply := { s.supply with tj := BitVec.ofNat 8 (Config.freeNat s.fresh % 96), hot := false }, fresh := s.fresh + 1 }
  else { s with supply := { s.supply with hot := false } }

/-- K1 waits for the temperature (R408). -/
def State.holdHot (s : State) : State := { s with supply := { s.supply with hot := true } }

/-- CONVERTERS (R410, R408): the end of K1, which waits while a sensor reads above 95 °C. -/
def execConverters (hot : Bool) (s : State) : Host.Outcome State Fault Refusal :=
  if s.inPhase 1 then
    if hot then .next s.holdHot
    else
      let t := s.cooled
      .next { t with kind := { t.kind with phase := 2, pwr := true }, chain := { t.chain with relay := true } }
  else .next s

/-- Settings records that K2 applies (R458, Table 18.6): ID and value. -/
def knownSettings (l : List SetRec) : List (Nat × Nat) :=
  l.filterMap fun r =>
    if r.id = 1 ∧ r.ver = 1 then some (1, fld r.data 0 2)
    else if r.id = 2 ∧ r.ver = 1 then some (2, fld r.data 0 4 % 2 ^ 19)
    else if r.id = 3 ∧ (r.ver = 1 ∨ r.ver = 2) then some (3, fld r.data 0 2)
    else none

/-- The settings store is bad: a slot holds data and neither is valid (R458). -/
def State.settingsBad (s : State) : Bool := s.slotInForce.isNone && !(s.slotErased 0 && s.slotErased 1)

/-- OPTION_LOADING (R410, R411, R413, R458): the end of K2; `bad` names a die whose fuses fail their check. -/
def execOptionLoading (bad : Option Nat) (s : State) : Host.Outcome State Fault Refusal :=
  if s.inPhase 2 then
    match bad with
    | some d => .next (s.halt 5 d)
    | none =>
      if s.settingsBad then .next (s.halt 5 98)
      else
        let l := match s.slotInForce with
          | some i => knownSettings (s.slotRecs i)
          | none => []
        let s1 := { s with shadow := s.fuses, ember := { s.ember with straps := s.pins.straps &&& 0xFFE },
                           kind := { s.kind with phase := 3, opts := true, settings := l } }
        .next s1.applySettings.reSource
  else .next s

/-- DIE_ENUMERATION (R410, R405, R412): the end of K3; `missing` names a die that does not enumerate, `unlocked` one whose clock does
not qualify. -/
def execDieEnumeration (missing unlocked : Option Nat) (s : State) : Host.Outcome State Fault Refusal :=
  if s.inPhase 3 then
    match missing, unlocked with
    | some d, _ => .next (s.halt 1 d)
    | none, some d => .next (s.halt 2 d)
    | none, none =>
      .next { s with kind := { s.kind with phase := 4, qual := true, scope := if s.kind.back = 4 then none else s.kind.scope,
                                           back := if s.kind.back = 4 then 7 else s.kind.back } }
  else .next s

/-- The stacks in the scope of a kindling: cords whose base die it covers. -/
def State.scopeCords (s : State) : List Nat :=
  (List.range s.nCords).filter fun c => match s.kind.scope with
    | none => true
    | some l => decide (72 + c ∈ l)

/-- STACK_TRAINING (R410, R350, R348, R412): the end of K4; after WARM, PART and DIE each stack in scope is scrubbed once. -/
def execStackTraining (bad : Option Nat) (s : State) : Host.Outcome State Fault Refusal :=
  if s.inPhase 4 then
    match bad with
    | some d => .next (s.halt 3 d)
    | none =>
      let scrubs := !s.kind.cold || s.kind.scope.isSome
      let s1 := if scrubs then
          (s.scopeCords.filter fun c => s.active (216 + 2 * c) && s.active (217 + 2 * c)).foldl (fun t c => (t.scrubCord 1 c).1) s
        else s
      .next { s1 with kind := { s1.kind with phase := if s1.kind.scope.isSome then s1.kind.back else 5, scope := none, back := 7 } }
  else .next s

/-! The start of firmware (R451). -/

/-- A trial that was not committed ends at boot (R451 step 3, R457). -/
def State.rollback (s : State) : State :=
  match s.bootRec with
  | some r =>
    if r.tbank = 0xFF then s
    else
      let s1 := s.writeBoot fun r => { r with tbank := 0xFF, tver := 0 }
      (s1.count pgFw 5 1).fwEvent 6 0 (BitVec.ofNat 64 r.tver)
  | none => s

/-- The bank that K5 starts from flash (R451 steps 2 to 5). -/
def State.bootFlash (s : State) : State × Option Bool :=
  let s1 := s.rollback
  let first := match s1.bootRec with
    | some r => decide (r.cbank = 1)
    | none => decide (s1.strapBoot = 1)
  if s1.bankOk first then (s1, some first)
  else
    let s2 := s1.count pgFw 3 1
    if s2.bankOk (!first) then
      (s2.writeBoot fun r => { r with cbank := b2n (!first), cver := (s2.bankVersion (!first)).toNat }, some (!first))
    else (s2.count pgFw 3 1, none)

/-- The image that K5 received from the chain or the service port. -/
def State.bootRd (s : State) (off n : Nat) : List Byte := (List.range n).map fun i => SMap.get s.fw.boot 0 (off + i)

/-- An ENUM frame that assigns `a` to the next package (R437). -/
def State.sendEnum (s : State) (a : Nat) : State :=
  let f := s.takeFree 2
  f.2.sendFrame false (chainFrame a s.chainSrc 0x01 (leVal f.1) a [])

/-- The head takes address 0 and starts an enumeration (R437). -/
def State.enumHead (s : State) : State :=
  if s.isHead then
    { s with ember := { s.ember with caddr := some 0 }, chain := { s.chain with cstate := 2 } }.sendEnum 1
  else s

/-- Firmware starts (R410, R409, R451): the watchdog is enabled, K6 begins. -/
def State.startFw (s : State) (version : Word64) (runb chain : Bool) : State :=
  let p := s.page pgRst
  let w := SMap.get p.cfg (2000 : Word) 0x110 ||| 0x80000000
  let s1 := s.setPage pgRst (p.putWord 0x110 2000 w.toNat)
  let s2 := s1.setFw { Firmware.reset with version := version, runb := runb, chain := chain, csgen := BitVec.ofNat 32 s.bootBase.csgen }
  let s3 := { s2 with kind := { s2.kind with phase := 6 } }
  ((List.range 6).foldl (fun t p => t.portStart p) s3).enumHead

/-- FIRMWARE_START (R451): the end of K5. An image from the chain or the service port is awaited until its last frame has come. -/
def execFirmwareStart (s : State) : Host.Outcome State Fault Refusal :=
  if s.inPhase 5 then
    if 2 ≤ s.strapBoot then
      if s.fw.bootEnd then
        if s.imageOk s.bootRd then .next (s.startFw (imgVersion (s.bootRd 0 256)) false true)
        else .next ((s.setFw { s.fw with boot := [], bootGot := [], bootEnd := false }).count pgFw 3 1)
      else .next s
    else
      match s.bootFlash with
      | (t, some b) => .next (t.startFw (t.bankVersion b) b false)
      | (t, none) => .next (t.halt 4 98)
  else .next s

/-- LINK_TRAINING (R410, R437): the end of K6; an enabled port that has not trained reports LINK_DOWN, a package that no ENUM reached
drops its address. -/
def execLinkTraining (upLock downLock : Bool) (s : State) : Host.Outcome State Fault Refusal :=
  if s.inPhase 6 then
    let s1 := (List.range 6).foldl (fun t p =>
      if t.portEn p && t.active (portDom p) && !t.portUp p then t.linkEvent 1 p else t) s
    let found := decide (2 ≤ s1.chain.cstate)
    let s2 := { s1 with chain := { s1.chain with upLock := upLock, downLock := downLock, cstate := if found then 3 else b2n upLock },
                        ember := { s1.ember with caddr := if found then s1.ember.caddr else none } }
    .next { s2 with kind := { s2.kind with phase := 7 } }
  else .next s

/-! Power domains (R393 to R396). -/

/-- The states a domain allows (Table 16.3). -/
def domAllows (k st : Nat) : Bool :=
  if k < 216 then decide (k % 3 ≠ 2) || decide (st = 1)
  else if k < 264 then true
  else if k < 276 then decide (st = 1) || (decide (st = 0) && decide ((k - 264) % 6 ≠ 0))
  else if k < 282 then decide (st = 1) || (decide (st = 0) && decide (278 ≤ k))
  else decide (st = 1) || decide (k = 288)

/-- The cord whose dies or stack a domain belongs to. -/
def domCord (k : Nat) : Option Nat := if k < 216 then some (k / 9) else if k < 264 then some ((k - 216) / 2) else none

/-- The domain above which `k` may not stand, and the domains that may not stand above `k` (R394). -/
def domAbove (k : Nat) : Option Nat :=
  if k < 216 then if k % 3 = 0 then some (k + 1) else none
  else if k < 264 then if k % 2 = 0 then some (k + 1) else none
  else if 266 ≤ k ∧ k < 270 then some 265
  else if 272 ≤ k ∧ k < 276 then some 271
  else none

/-- The request keeps the order of R394, judged on requests and present states. -/
def State.domOrder (s : State) (k : Nat) (st : BitVec 2) : Bool :=
  (match domAbove k with
    | some j => decide (domRank st ≤ domRank (s.dom j).state) && decide (domRank st ≤ domRank (s.dom j).req)
    | none => true)
    && (List.range 290).all fun j => decide (domAbove j ≠ some k)
      || (decide (domRank (s.dom j).state ≤ domRank st) && decide (domRank (s.dom j).req ≤ domRank st))

/-- A request that R394 grants. -/
def State.domReqOk (s : State) (k : Nat) (st : BitVec 2) : Bool :=
  domAllows k st.toNat && s.domOrder k st && !(laneHi k && !s.hlw32 && decide (st ≠ 0))
    && match (domCord k).bind s.cordCtx with
      | some _ => decide (st = 1)
      | none => true

/-- What a write of PWR_DOMk.REQ does (R394): 3 is ignored, a request that R394 forbids is ignored and recorded; a request during a
transition replaces the one in progress. -/
def State.writeDom (s : State) (k : Nat) (st : BitVec 2) : State :=
  if st = 3 then s
  else if s.domReqOk k st then s.startDom k st
  else s.pgErr pgPwr eBusErr (0x200 + 4 * k)

/-- The registers and counters of the pages that satisfy `page`. -/
def State.dropPages (s : State) (page : Nat → Bool) : State :=
  { s with pages := SMap.dropKeys s.pages page, engines := SMap.dropKeys s.engines page }

/-- The hearth memories of die `d`, with its local syncs, cores and lane states. -/
def State.dropHearths (s : State) (d : Nat) : State :=
  let inH := fun a => decide (hearthDie a = some d)
  { s with mem := SMap.dropKeys s.mem inH, ue := s.ue.filter (fun a => !inH a), ueSeen := s.ueSeen.filter (fun a => !inH a),
           errs := SMap.dropKeys s.errs inH, lsync := SMap.dropKeys s.lsync fun x => decide (x / 64 / 48 = d),
           lsnap := SMap.dropKeys s.lsnap fun x => decide (x / 64 / 48 = d),
           cores := SMap.dropKeys s.cores fun x => decide (x / 384 = d),
           lanes := SMap.dropKeys s.lanes fun x => decide (x / 3072 = d),
           shadows := SMap.dropKeys s.shadows fun x => decide (x / 3072 = d) }

/-- The contents of stack `k`. -/
def State.dropStack (s : State) (k : Nat) : State :=
  let inS := fun a => stackAddr a && decide (a / 2 ^ 37 = k)
  { s with mem := SMap.dropKeys s.mem inS, ue := s.ue.filter (fun a => !inS a), ueSeen := s.ueSeen.filter fun a => !inS a,
           errs := SMap.dropKeys s.errs inS }

/-- What a domain loses when it goes off (Table 16.4): its blocks' registers and counters, the contents of its memories. -/
def State.domLost (s : State) (k : Nat) : State :=
  let s1 := s.dropPages fun pg => match s.pageInfo pg with
    | some i => decide (i.dom = k)
    | none => false
  if k < 216 then
    if k % 3 = 0 then { s1 with stores := SMap.dropKeys s1.stores fun x => decide (x / 240 = k / 3),
                                 drains := SMap.dropKeys s1.drains fun g => decide (g / 48 = k / 3) } else s1.dropHearths (k / 3)
  else if k < 264 then
    if k % 2 = 0 then s1.dropStack ((k - 216) / 2) else { s1 with scrubPos := SMap.erase s1.scrubPos ((k - 216) / 2) }
  else if k = 288 then s1.setTrc 99 TraceUnit.reset
  else
    match (List.range 6).find? fun p => decide (portDom p = k) with
    | some p => s1.portLost p 0
    | none => s1

/-- DOMAIN_TRANSITION_DONE (R394, R396): the domain has its requested state; a lowering returns its base draw, a raise lets ports train
and steps begin. -/
def execDomainTransitionDone (k : Nat) (s : State) : Host.Outcome State Fault Refusal :=
  let d := s.dom k
  if d.busy && !decide (k ∈ s.drt.domWait) && s.isOpen pgPwr then
    let s1 := s.setDom k { d with state := d.req, busy := false }
    let s2 := if d.req = 0 ∧ d.state ≠ 0 then s1.domLost k else s1
    let s3 := if domRank d.req ≤ domRank d.state then s2.ledgerFell
      else (List.range 6).foldl (fun t p => if portDom p = k then t.portStart p else t) s2
    .next (s3.liveCtxs.foldl (fun t c => t.tryBegin c.1) s3)
  else .next s

end Sys2Proof.Machine
end

