-- ==== Sys2Proof/Machine/FwCtl.lean ====
section
/-! DEFINITION. Control of staging, activation, commit and settings from the chain and the FW page (R452 to R459, R465). -/

set_option Elab.async false

namespace Sys2Proof.Machine

/-- Staging is in progress (R452). -/
def State.staging (s : State) : Bool := decide (s.fw.sstate = 1 ∨ s.fw.sstate = 2)

/-- FWCTL BEGIN (R452, R453): none where it is refused. -/
def State.fwBegin (s : State) (n : Nat) : Option State :=
  if s.staging || s.fw.trial || s.hostStaging || decide (n = 0 ∨ 4096 < n) then none else some (s.beginStage n false)

/-- ABORT (R452, R453). -/
def State.fwAbort (s : State) : Option State := if s.staging then some s.dropStage else none

/-- COMMIT (R457). -/
def State.fwCommit (s : State) : Option State := if s.fw.trial then some s.commitTrial else none

/-- Activation at once (R455): while no context is live, of an image staged and verified. -/
def State.fwNow (s : State) : Option State :=
  if s.liveCtxs.isEmpty && decide (s.fw.sstate = 3) && s.fw.activating.isNone && !s.actArmed then
    some (s.activate { hold := none, fired := none })
  else none

/-- FWCTL ACTIVATE (R455, R452): the entry of KIND 0x04 on slot TSLOT, TAG 0, at a free index. -/
def State.fwActivate (s : State) (p : List Byte) : Option State :=
  let b := Beat.ofNat (fld p 0 8)
  let v := fld p 8 8
  if bit (fld p 16 1) 0 then if s.fw.staged.toNat = v then s.fwNow else none
  else if fld p 7 1 = 0 ∧ targetOk (s.slotBeat s.tslot) b = true ∧ s.actOk b (b2n s.fw.target) v = true then
    (s.freeSched s.tslot).map fun i =>
      s.arm s.tslot i
        { target := b, anchor := (s.slotBeat s.tslot).step, kind := 4,
          kargs := leBytes 1 (b2n s.fw.target) ++ zeros 3 ++ leBytes 8 v ++ zeros 28, q := 0, tag := 0, ctx := 0xFF, fired := false }
  else none

/-- A settings record of a byte string (R458). -/
def setRecOf (p : List Byte) : Option SetRec :=
  let n := fld p 4 4
  if 8 ≤ p.length ∧ p.length = 8 + n ∧ n % 4 = 0 ∧ n ≤ 4096 then some { id := fld p 0 2, ver := fld p 2 2, data := p.drop 8 }
  else none

/-- FWCTL SETWR (R459, R452): the record replaces that of its ID in the other slot, and CSGEN names that slot. -/
def State.fwSetwr (s : State) (p : List Byte) : Option State :=
  if s.fw.trial then none
  else
    (setRecOf p).map fun r =>
      let old := match s.slotInForce with
        | some i => (1 - i, (s.slotSgen i + 1) % 2 ^ 32, s.slotRecs i)
        | none => (0, 1, [])
      let recs := (r :: old.2.2.filter fun x => decide (x.id ≠ r.id)).mergeSort fun a b => decide (a.id ≤ b.id)
      let s1 := s.writeSlot old.1 old.2.1 s.fw.version.toNat recs
      let s2 := s1.writeBoot fun b => { b with csgen := old.2.1 }
      s2.setFw { s2.fw with csgen := BitVec.ofNat 32 old.2.1 }

/-! Image data (R452, R453). -/

/-- Blocks in the staging buffer: those being programmed and those partly received. -/
def Firmware.buffered (f : Firmware) : Nat := f.programming.length + (f.got.map fun p => p.1).dedup.length

/-- One IMG piece into the staging buffer: a block that finds 64 others there is discarded, counted with its first
piece. -/
def State.stagePiece (s : State) (off : Nat) (b : List Byte) : State :=
  let i := off / 65536
  let f := s.fw
  if f.nblk ≤ i ∨ f.have i = true ∨ (i, off) ∈ f.got then s
  else if !(f.got.any fun p => decide (p.1 = i)) && decide (64 ≤ f.buffered) then
    if off % 65536 = 0 then s.count pgFw 2 1 else s
  else
    let s1 := (s.stagePut off b).setFw { (s.stagePut off b).fw with got := f.got ++ [(i, off)] }
    if (s1.fw.got.filter fun p => p.1 = i).length = 64 then s1.stageBlock i else s1

/-- A piece of the image that K5 waits for: the image is there once every piece that its header names has come, or at once where the
header fails its form. -/
def State.bootPiece (s : State) (off : Nat) (b : List Byte) : State :=
  let k := off / 1024
  if k ∈ s.fw.bootGot ∨ s.fw.bootEnd = true ∨ 4096 * 64 ≤ k then s
  else
    let s1 := s.setFw { s.fw with boot := SMap.putBytes s.fw.boot off b, bootGot := s.fw.bootGot ++ [k] }
    let h := s1.bootRd 0 256
    let n := (imgMb h + imgNblk h) * 64
    let all := decide (0 ∈ s1.fw.bootGot) && (!imgForm h || (List.range n).all fun j => decide (j ∈ s1.fw.bootGot))
    s1.setFw { s1.fw with bootEnd := all }

/-- An IMG frame's data (R452): taken by a package in K5 that waits for its image with BOOT = 1, by every other one with BOOT = 0. A frame brings 1,024 bytes, the last one perhaps fewer (log 106). -/
def State.takeImg (s : State) (boot : Bool) (off : Nat) (b : List Byte) : State :=
  if off % 1024 ≠ 0 ∨ b.length = 0 ∨ 1024 < b.length then s
  else if s.inPhase 5 && decide (2 ≤ s.strapBoot) then if boot then s.bootPiece off b else s
  else if !boot && s.chainStaging then s.stagePiece off b else s

/-- FLASH_PROGRAM_DONE (R453): the oldest block being programmed is in the target; the last one starts the full check. -/
def execFlashProgramDone (s : State) : Host.Outcome State Fault Refusal :=
  match s.fw.programming with
  | [] => .next s
  | i :: r =>
    if s.staging then
      let b := (List.range 65536).map fun j => SMap.get s.fw.part 0 (65536 * i + j)
      let s1 := s.setFlash (bankBase s.fw.target + 65536 * i) b
      let f := s1.fw
      let s2 := (s1.setFw { f with programming := r, present := f.present ++ [i], part := SMap.clearRange f.part (65536 * i) 65536 }).count
        pgFw 0 1
      if (List.range s2.fw.nblk).all fun j => decide (j ∈ s2.fw.present) then .next ({ s2 with fw := { s2.fw with sstate := 2 } }.stageCheck)
      else .next s2
    else .next s

end Sys2Proof.Machine
end

