-- ==== Sys2Proof/Machine/RegView.lean ====
section
/-! DEFINITION. Register pages as they read (R363 to R388 and the register tables of every chapter): which offsets exist, what
each reads, and who may reach them. -/

set_option Elab.async false

namespace Sys2Proof.Machine

/-- A register of the configuration areas: the bits that a write may change, those that need unlock (RWX), the reset value. -/
structure RegDef where
  rw : Nat
  rwx : Nat
  reset : Nat
  deriving DecidableEq, Repr

def roReg : RegDef := { rw := 0, rwx := 0, reset := 0 }
def rwReg (m reset : Nat) : RegDef := { rw := m, rwx := 0, reset := reset }
def rwxReg (m reset : Nat) : RegDef := { rw := 0, rwx := m, reset := reset }

/-- Index k of the register at `off` in an array of `n` from `base`, `step` bytes apart. -/
def arrIdx (off base step n : Nat) : Option Nat :=
  if base ≤ off ∧ (off - base) % step = 0 ∧ (off - base) / step < n then some ((off - base) / step) else none

/-- PG_CAP (Table 15.4). -/
def PageInfo.cap (i : PageInfo) : Nat :=
  match i.blk with
  | 0x01 => 0x80000000
  | 0x02 => 0x88000000
  | 0x03 => 0xE8000000
  | 0x04 => 0x68000000
  | 0x05 => 0x28000000
  | 0x06 => 0xE8000000
  | 0x07 => 0x28000000
  | 0x08 => 0xA8000000
  | 0x09 => 0x28000000
  | 0x0A => 0x28000000
  | 0x0B => 0xE8000000
  | 0x0C => 0xA8000000
  | 0x0D => if i.die = 99 then 0x88000000 else 0xA8000000
  | 0x0E => 0xE8000000
  | 0x0F => 0xE8000000
  | 0x11 => 0xC8000000
  | 0x14 => 0xC8000000
  | _ => 0x88000000

/-- The registers of 0x100 to 0xBFF that a page has; every other offset there returns BUS_ERR (R366). -/
def State.regDef (s : State) (i : PageInfo) (off : Nat) : Option RegDef :=
  match i.blk with
  | 0x01 =>
    if (arrIdx off 0x100 8 4).isSome then some (rwReg 0xFFFFFFC0 0)
    else if (arrIdx off 0x104 8 4).isSome then some (rwReg 0xFFFF 0)
    else if off = 0x120 then some (rwReg 0x800000FF 0x44)
    else if off = 0x124 then some roReg
    else if off = 0x128 then some (rwReg 0xFFFF 0xB0)
    else (arrIdx off 0x200 4 s.nCords).map fun _ => roReg
  | 0x02 => if off = 0x100 ∨ off = 0x104 then some roReg else none
  | 0x03 =>
    if off = 0x100 then some roReg
    else if off = 0x810 then some (rwxReg 0xC00FFFFF 0)
    else if off = 0x820 then some (rwReg 0x80000003 0)
    else if (arrIdx off 0x900 8 64).isSome then some (rwReg 0xFFFFFFFF 0)
    else (arrIdx off 0x904 8 64).map fun _ => rwReg 0x80000003 0
  | 0x04 => if off = 0x800 then some (rwxReg 1 0) else none
  | 0x06 => if off = 0x100 then some (rwReg 0xFF00 0) else if off = 0x800 then some (rwxReg 3 0) else none
  | 0x08 => (arrIdx off 0x100 4 4).map fun _ => roReg
  | 0x0B =>
    if off = 0x100 then some (rwReg 0x8000007F 0x8000004A)
    else (arrIdx off 0x800 4 5).map fun _ => rwxReg 0x80FFFF1F 0
  | 0x0C => if off = 0x100 then some (rwReg 0xFF03 0x4000) else none
  | 0x0D =>
    if i.die = 99 then (arrIdx off 0x100 4 s.nCords).map fun _ => rwReg 1 0
    else if off = 0x100 then some (rwReg 0x8000FFFF 0x80000018)
    else (arrIdx off 0x104 4 3).map fun _ => roReg
  | 0x0E =>
    if off = 0x100 ∨ off = 0x108 then some roReg else if off = 0x104 then some (rwReg 1 1)
    else if off = 0x800 then some (rwxReg 0xFF01 0x800) else none
  | 0x0F =>
    if off = 0x100 ∨ off = 0x108 then some roReg
    else if off = 0x104 then some (rwReg (if i.inst = 0 then 3 else 1) 1)
    else if off = 0x800 then some (rwxReg 0xFF00 0x800) else none
  | 0x10 => if off = 0x100 then some roReg else if off = 0x104 then some (rwReg 3 3) else none
  | 0x11 =>
    if off = 0x100 then some (rwReg 0x7FFFF 0) else if off = 0x104 then some (rwReg 0x8007FFFF 0)
    else if off = 0x108 then some (rwReg 0xFFFF 1000)
    else if (arrIdx off 0x100 4 7).isSome then some roReg
    else (arrIdx off 0x800 4 s.nCords).map fun _ => rwxReg 0x8001FFFF 0
  | 0x12 =>
    if off = 0x100 then some (rwReg 0x31F03 0) else if off = 0x108 then some (rwReg 0xFFFF 400)
    else if off = 0x10C then some (rwReg 0xFFFF 0) else if off = 0x104 ∨ off = 0x110 then some roReg
    else (arrIdx off 0x200 4 (2 * s.nCords)).map fun k => rwxReg (if k % 2 = 0 then 0xFFFFFFFF else 0xFFFFFF) 0
  | 0x13 =>
    if off = 0x108 then some (rwReg 0xFFFFFF 0) else if off = 0x10C then some (rwReg 0x7F 0)
    else if off = 0x110 then some (rwReg 0x8000FFFF 2000) else if off = 0x118 then some (rwReg 1 0)
    else if off = 0x100 ∨ off = 0x104 ∨ off = 0x114 ∨ off = 0x170 ∨ off = 0x174 ∨ off = 0x180 ∨ off = 0x184 then some roReg
    else (arrIdx off 0x140 4 12).map fun _ => roReg
  | 0x14 =>
    if (arrIdx off 0x100 4 3).isSome then some roReg
    else if off = 0x800 then some (rwxReg 1 0)
    else (arrIdx off 0x200 4 290).bind fun k => if s.hasDom k then some (rwReg 3 1) else none
  | 0x15 =>
    if off = 0x100 then some (rwReg 0xE1FF03FE 0x21FF0000)
    else if off = 0x104 then some (rwReg 0xFFFFFFC0 0) else if off = 0x108 then some (rwReg 0xFFFF 0)
    else if off = 0x10C then some (rwReg 0x1F 16)
    else if (arrIdx off 0x110 4 5).isSome then some roReg
    else if i.die ≠ 99 then none
    else if off = 0x140 then some (rwReg 0xE00001F 0) else if off = 0x144 then some (rwReg 0x3FFE 0)
    else
      let k := (arrIdx off 0x200 4 25).orElse fun _ => (arrIdx off 0x280 4 25).orElse fun _ => arrIdx off 0x300 4 25
      k.bind fun k => if k = 24 ∨ k < s.nCords then some roReg else none
  | 0x16 =>
    if off = 0x108 then some (rwReg 1 1)
    else if (arrIdx off 0x100 4 7).isSome then some roReg
    else (arrIdx off 0x120 4 4).map fun _ => roReg
  | _ => none

/-- The stored word of a page over its register's reset value; a read returns the stored bits (R379). -/
def State.stored (s : State) (pg off : Nat) (d : RegDef) : Nat :=
  (SMap.get (s.page pg).cfg (BitVec.ofNat 32 d.reset) off).toNat

/-! Bits that the page's block computes. -/

def Beat.lo (b : Beat) : Nat := b.step.toNat % 65536 * 65536 + b.phase.toNat
def Beat.hi (b : Beat) : Nat := b.step.toNat / 65536

/-- LIVE, slot and context of a cord. -/
def State.ownerOf (s : State) (cord : Nat) : Option (Nat × Ctx) := s.cordCtx cord

/-- MGR_AQ_STS and MGR_OWNc (R304, R463); a stopped queue is not watched (R503, log 112). -/
def State.viewMgr (s : State) (off : Nat) : Nat :=
  let x := s.queue 0
  if off = 0x124 then
    b2n (x.live && !x.stopped) * 2 ^ 31 + b2n x.phase * 2 ^ 30 + b2n x.stopped * 2 ^ 29 + x.head * 2 ^ 16 + satur16 x.lostAll
  else
    match arrIdx off 0x200 4 24 with
    | some c =>
      let perr := b2n (s.ownBad.any fun o => decide (o.2 = c)) * 2 ^ 30
      match s.ownerOf c with
      | some p => 2 ^ 31 + perr + p.2.slot * 2 ^ 16 + p.1
      | none => perr + 0xFF
    | none => 0

def State.viewDie (s : State) (d off : Nat) : Nat :=
  if off = 0x100 then d / 3 * 2 ^ 16 + d / 9 * 2 ^ 8 + d % 9
  else
    match s.ownerOf (d / 3) with
    | some p => 2 ^ 31 + p.2.slot * 2 ^ 8 + (rank p.2.dies d).getD 0
    | none => 0

def State.viewHrt (s : State) (g off : Nat) : Nat :=
  if off = 0x100 then
    match s.hearthCtx g with
    | some p => 2 ^ 31 + p.2.slot * 2 ^ 24 + (p.2.localHearth g).getD 0
    | none => 0
  else 0

def State.viewRng (s : State) (g off : Nat) : Nat :=
  match s.hearthCtx g with
  | some p =>
    if off = 0x100 then p.2.seed.toNat % 2 ^ 32 else if off = 0x104 then p.2.seed.toNat / 2 ^ 32
    else if off = 0x108 then b2n p.2.lane else p.2.rseq.toNat
  | none => if off = 0x108 then b2n s.strapRngm else 0

/-- The stack's interface has been trained: by the kindling of the package, or by that of its die since (R361, R410). -/
def State.trained (s : State) (cord : Nat) : Bool :=
  decide (4 < s.pkgPhase) && match s.kind.scope with
    | some l => !decide (72 + cord ∈ l)
    | none => true

def State.viewStk (s : State) (i : PageInfo) (pg off : Nat) : Nat :=
  if i.die = 99 then 0
  else
    let cord := i.die - 72
    if off = 0x104 then
      b2n (s.trained cord) * 2 ^ 31 + b2n (decide ((s.dom (216 + 2 * cord)).state = 2)) * 2 ^ 30
        + min 100 (SMap.get s.scrubPos 0 cord * 100 / 2 ^ 31)
    else if off = 0x108 ∨ off = 0x10C then (SMap.get (s.page pg).cfg 0 off).toNat
    else 0

def State.viewPort (s : State) (pt : Nat) (off : Nat) : Nat :=
  let x := s.port pt
  if off = 0x100 then
    b2n (decide (x.tstate = 5)) * 2 ^ 31
      + (if pt < 2 then b2n x.deg * 2 ^ 30 + x.lanes * 2 ^ 8 else x.peer % 4 * 2 ^ 29 + (if pt = 2 then 0 else x.sub % 256) * 2 ^ 16)
      + x.tstate
  else x.lat.toNat

def State.viewSvc (s : State) : Nat :=
  let a := match s.ember.caddr with
    | some a => 2 ^ 31 + a.toNat * 2 ^ 24
    | none => 0
  a + b2n s.isHead * 2 ^ 23 + s.chain.cnt % 128 * 2 ^ 16 + s.chain.cstate % 16

def State.viewDrt (s : State) (off : Nat) : Nat :=
  match off with
  | 0x100 => b2n s.drt.budget.isSome * 2 ^ 31 + s.budget
  | 0x104 => b2n s.drt.sen * 2 ^ 31 + b2n s.drt.act * 2 ^ 30 + b2n s.drt.rcv * 2 ^ 29 + s.surgeLim
  | 0x10C => b2n s.drtOver * 2 ^ 31 + b2n s.drt.half * 2 ^ 30 + b2n (!(s.drt.waiting.isEmpty && s.drt.domWait.isEmpty)) * 2 ^ 29
  | 0x110 => s.drtBase
  | 0x114 => s.committed
  | 0x118 => s.drt.draw.toNat
  | _ => 0

def State.viewBeat (s : State) (off : Nat) : Nat :=
  if off = 0x104 then b2n s.beat.held * 8 + b2n s.beat.aligned * 4 + s.beat.actsrc.toNat
  else if off = 0x110 then s.beatUplat
  else
    match arrIdx off 0x200 4 48 with
    | some k => if k % 2 = 0 then (s.slotBeat (k / 2)).lo else (s.slotBeat (k / 2)).hi
    | none => 0

/-- RST_CAUSE, RST_SRC and the rest of the RST page that is not written. -/
def State.viewRst (s : State) (off : Nat) : Nat :=
  match off with
  | 0x100 => b2n s.ember.k2r * 2 ^ 31 + s.ember.reach * 2 ^ 16 + s.ember.causes.toNat
  | 0x104 =>
    b2n s.rst.latch.isSome * 2 ^ 31 + s.rst.latch.getD 0 * 2 ^ 16
      + (List.range 12).foldl (fun m c => m + b2n (s.rst.asserted.any fun x => decide (x.cause = c)) * 2 ^ c) 0
  | 0x170 => s.ember.rtotal
  | 0x180 => s.ember.straps.toNat
  | 0x184 => match s.ember.caddr with
    | some a => 2 ^ 31 + a.toNat
    | none => 0
  | _ => match arrIdx off 0x140 4 12 with
    | some c => SMap.get s.ember.rcnt 0 c
    | none => 0

def State.viewPwr (s : State) (off : Nat) : Nat :=
  match off with
  | 0x100 => b2n s.kind.halt * 2 ^ 31 + s.kind.hdie * 2 ^ 16 + s.kind.hcode * 2 ^ 12 + s.kind.phase
  | 0x104 => s.supply.vstby.toNat * 2 ^ 16 + s.supply.vin.toNat
  | 0x108 => s.supply.tdie.toNat * 2 ^ 8 + s.supply.tj.toNat
  | _ => match arrIdx off 0x200 4 290 with
    | some k => let d := s.dom k; b2n d.busy * 2 ^ 31 + d.state.toNat * 2 ^ 16
    | none => 0

def State.viewTrc (s : State) (die off : Nat) : Nat :=
  let t := s.trcUnit die
  let en := bit (s.trcCtl die) 31
  let frz := s.dieFrozen die
  match off with
  | 0x110 => t.wptr % 2 ^ 32
  | 0x114 => t.wptr / 2 ^ 32
  | 0x118 => b2n (en && !t.full && !(frz && bit (s.trcCtl die) 29)) * 2 ^ 31 + b2n t.full * 2 ^ 30 + b2n frz * 2 ^ 29 + t.buf.length
  | 0x11C => Config.freeNat s.fresh % 2 ^ 32
  | 0x120 => Config.freeNat s.fresh / 2 ^ 32 % 2 ^ 16
  | _ =>
    match arrIdx off 0x200 4 25, arrIdx off 0x280 4 25, arrIdx off 0x300 4 25 with
    | some k, _, _ => let f := s.fz k; b2n f.v * 2 ^ 31 + b2n f.more * 2 ^ 30 + f.src.toNat * 2 ^ 24 + f.err.toNat
    | _, some k, _ => (s.fz k).beat.lo
    | _, _, some k => (s.fz k).beat.hi
    | _, _, _ => 0

def State.fwSts (s : State) : Nat :=
  b2n s.fw.trial * 2 ^ 31 + b2n s.cbank * 2 ^ 30 + b2n (s.fw.runb && !s.fw.chain) * 2 ^ 29 + b2n s.fw.chain * 2 ^ 28 + s.fw.sstate * 2 ^ 8
    + b2n s.fw.arm * 2 ^ 7 + s.shadow.arb

def State.fwStg (s : State) : Nat :=
  let m := s.fw.missing
  m.length * 2 ^ 16 + m.headD 0

def State.viewFw (s : State) (off : Nat) : Nat :=
  match off with
  | 0x100 => s.fwSts
  | 0x104 => s.fwStg
  | 0x110 => s.shadow.revoked.toNat * 2 ^ 16 + s.shadow.part.toNat
  | 0x114 => s.fw.version.toNat % 2 ^ 32
  | 0x118 => s.fw.version.toNat / 2 ^ 32
  | _ => match arrIdx off 0x120 4 4 with
    | some n => s.shadow.uid.toNat / 2 ^ (32 * n) % 2 ^ 32
    | none => 0

/-- The computed bits of a register of 0x100 to 0xBFF. -/
def State.regDyn (s : State) (i : PageInfo) (pg off : Nat) : Nat :=
  let g := i.die * 48 + i.hearth.getD 0
  match i.blk with
  | 0x01 => s.viewMgr off
  | 0x02 => s.viewDie i.die off
  | 0x03 => s.viewHrt g off
  | 0x08 => s.viewRng g off
  | 0x0B => match arrIdx off 0x800 4 5 with
    | some st => b2n (decide ((s.store g st).split ≠ s.splitCfg g st)) * 2 ^ 30
    | none => 0
  | 0x0D => s.viewStk i pg off
  | 0x0E => if off = 0x108 then (SMap.get (s.page pg).cfg 0 off).toNat else if off = 0x100 then s.viewPort i.port off else 0
  | 0x0F => if off = 0x100 ∨ off = 0x108 then s.viewPort i.port off else 0
  | 0x10 => if off = 0x100 then s.viewSvc else 0
  | 0x11 => s.viewDrt off
  | 0x12 => s.viewBeat off
  | 0x13 => s.viewRst off
  | 0x14 => s.viewPwr off
  | 0x15 => s.viewTrc i.die off
  | 0x16 => s.viewFw off
  | _ => 0

/-- Registers whose written bits stand elsewhere than in the page: they read from the block. -/
def keptByBlock (i : PageInfo) (off : Nat) : Bool :=
  (decide (i.blk = 0x11) && decide (off = 0x100 ∨ off = 0x104)) || (decide (i.blk = 0x12) && decide (0x200 ≤ off)) || (decide (i.blk = 0x14) && decide (0x200 ≤ off ∧ off < 0x800))

/-- `v` in the bits of `mask`, `old` elsewhere. -/
def maskIn (mask old v : Nat) : Nat := (old &&& (0xFFFFFFFF ^^^ mask)) ||| (v &&& mask)

/-- What a register of 0x100 to 0xBFF reads; a mismatching word reads its stored bits (R379). -/
def State.regRead (s : State) (i : PageInfo) (pg off : Nat) (d : RegDef) : Nat :=
  let w := s.stored pg off d
  let dyn := s.regDyn i pg off
  if keptByBlock i off then
    let v := if i.blk = 0x14 then dyn + (s.dom ((off - 0x200) / 4)).req.toNat else dyn
    if off ∈ (s.page pg).badPar then maskIn (d.rw ||| d.rwx) v w else v
  else if i.blk = 0x08 then (SMap.get (s.page pg).cfg (BitVec.ofNat 32 dyn) off).toNat
  else if d.rw + d.rwx = 0 then dyn
  else if i.blk = 0x0F ∧ off = 0x104 ∧ i.inst = 0 ∧ s.isManager = true then w / 2 * 2
  else if i.blk = 0x0B ∧ 0x800 ≤ off then w + dyn
  else w

/-! The common registers (R368 to R384). -/

/-- The amounts of PG_PT_*: perturbation in effect (R384); ON acts as PERIOD − 1 at most. -/
def State.pta (s : State) (pg : Nat) : Bool :=
  let w := fun off => (s.cfg pg off 0).toNat
  bit (w 0x40) 31 && ((bit (w 0x40) 0 && decide (w 0x44 ≠ 0))
    || (bit (w 0x40) 1 && decide (min (bits (w 0x48) 7 0) (bits (w 0x48) 15 8 - 1) ≠ 0)) || (bit (w 0x40) 2 && decide (w 0x4C ≠ 0)))

/-- The page's generator draws amounts (R384). -/
def State.ptDraws (s : State) (pg : Nat) : Bool := s.pta pg && (s.cfg pg 0x40 0).getLsbD 3

/-- PG_PT_SEED as the generator has left it: how often it has drawn is time, and so the state is free (R384; log 9). -/
def State.settleSeed (s : State) (pg : Nat) : State :=
  if s.ptDraws pg then
    let p := s.page pg
    { s with fresh := s.fresh + 1 }.setPage pg { p with cfg := SMap.put p.cfg 1 0x50 (BitVec.ofNat 32 (Config.freeNat s.fresh)) }
  else s

def State.pgSts (s : State) (i : PageInfo) (pg : Nat) : Nat :=
  let p := s.page pg
  b2n p.unl * 2 ^ 31 + b2n p.arm * 2 ^ 30 + b2n (!p.found.isEmpty && s.takesDesc pg) * 2 ^ 29 + b2n s.testMode * 2 ^ 28 + b2n (s.pta pg) * 2 ^ 27
    + b2n (s.clkq i) * 2 ^ 26 + b2n (s.iso pg i) * 2 ^ 25 + b2n (s.blkHeld pg i) * 2 ^ 24 + (s.dom i.dom).state.toNat

/-- PG_PARITY, of mismatches that a check has found (R380). -/
def State.parityReg (s : State) (pg : Nat) (p : Page) : Nat :=
  if p.found.isEmpty then 0
  else 2 ^ 31 + b2n (s.takesDesc pg) * 2 ^ 30 + min 1023 p.found.length * 2 ^ 10 + p.found.foldl min 4096 / 4

/-- The perturbation registers: written bits and reset (R384). -/
def ptDef (off : Nat) : Option RegDef :=
  match off with
  | 0x40 => some (rwReg 0x8000000F 0)
  | 0x44 => some (rwReg 0xFFFF 0)
  | 0x48 => some (rwReg 0xFFFF 0)
  | 0x4C => some (rwReg 0xFFFF 0)
  | 0x50 => some (rwReg 0xFFFFFFFF 1)
  | _ => none

/-- What a common register reads; none for a reserved offset. -/
def State.commonRead (s : State) (i : PageInfo) (pg off : Nat) : Option Nat :=
  let p := s.page pg
  match off with
  | 0x000 => some (i.blk * 2 ^ 24 + i.die * 2 ^ 16 + (i.hearth.getD 0xFF) * 2 ^ 8 + i.inst)
  | 0x004 => some 0x01010000
  | 0x008 => some i.cap
  | 0x00C => some (b2n p.unl * 2 ^ 31 + b2n p.arm * 2 ^ 30)
  | 0x010 => some (b2n (decide (pg ∈ s.rst.blocks)) * 2 ^ 31 + b2n p.pinj * 2 ^ 8)
  | 0x014 => some (s.pgSts i pg)
  | 0x018 => some p.err.word
  | 0x020 => some p.irqRaw.toNat
  | 0x024 => some p.irqEn.toNat
  | 0x028 => some (s.irqSts pg p).toNat
  | 0x030 => some (s.parityReg pg p)
  | 0x080 => some (b2n (decide (p.snapBusy ≠ 0)) * 2 ^ 30 + p.snapScope.toNat)
  | 0x084 => some p.snapBeat.lo
  | 0x088 => some p.snapBeat.hi
  | _ => if bit i.cap 29 then (ptDef off).map fun d => s.stored pg off d else none

/-- The counter or holding copy at an offset of the counter area: its index, and whether it is the copy. -/
def cntAt (i : PageInfo) (off : Nat) : Option (Nat × Bool) :=
  if 0xC00 ≤ off ∧ off < 0xC80 ∧ (off - 0xC00) / 16 < bits i.cap 27 24 then some ((off - 0xC00) / 16, bit off 3) else none

def Page.cntVal (p : Page) (x : Nat × Bool) : Nat := (SMap.get (if x.2 then p.hold else p.cnt) 0 x.1).toNat

/-- The offset exists on the page (R365, R366). -/
def State.present (s : State) (i : PageInfo) (pg off : Nat) : Bool :=
  if off < 0x100 then (s.commonRead i pg off).isSome
  else if off < 0xC00 then
    (if off < 0x800 then bit i.cap 31 else bit i.cap 30) && (s.regDef i off).isSome
  else (cntAt i off).isSome

/-! Access (R363, R376, R386). -/

/-- The page lies in a partition: its cord. -/
def State.inOwn (s : State) (i : PageInfo) (k : Nat) : Bool :=
  match dieCord i.die, s.slotCtx k with
  | some c, some p => bit (blkCords p.2.block) c
  | _, _ => false

def rovOff (i : PageInfo) (off : Nat) : Bool := decide (i.blk = 0x03) && decide (off = 0x820 ∨ 0x900 ≤ off ∧ off < 0xB00)
def rngOff (i : PageInfo) (off : Nat) : Bool := decide (i.blk = 0x08) && decide (0x100 ≤ off ∧ off < 0x110)
def wdtOff (i : PageInfo) (off : Nat) : Bool := decide (i.blk = 0x13) && decide (off = 0x110 ∨ off = 0x114)

/-- A U reader may read an offset of its own partition's pages, or of the BEAT page (Table 15.5). -/
def uReads (i : PageInfo) (off : Nat) : Bool :=
  decide (off ≠ 0x00C) && !rngOff i off
    && (decide (off ≤ 0x030) || decide (0x080 ≤ off ∧ off ≤ 0x088) || decide (0x100 ≤ off ∧ off < 0x800) || decide (0xC00 ≤ off)
      || rovOff i off)

/-- The privilege may make the access (R386, R460, R409). -/
def State.mayAccess (s : State) (prv : Priv) (i : PageInfo) (off : Nat) (write : Bool) (v : Nat) : Bool :=
  match prv with
  | .m => true
  | .s => !write || !(rovOff i off || rngOff i off)
  | .u k =>
    if i.blk = 0x12 then !write && uReads i off
    else if !s.inOwn i k then false
    else if write then decide (off = 0x080 ∧ v % 8 ≤ 3) else uReads i off

/-- The uncore of the page's die is up (R376). -/
def State.dieUp (s : State) (i : PageInfo) : Bool := s.active (uncoreDom i.die) && !s.dieHeld i.die

/-- Offsets served while the block's own domain is not active (R376), or the block is held for want of qualification (R406, R407). -/
def alwaysRead (off : Nat) : Bool := decide (off ≤ 0x008 ∨ off = 0x014)

/-- Where a register access lands: the page and offset, or BUS_ERR, recorded in the PG_ERR of the page (R363, R375, R376, R386). -/
def State.reach (s : State) (prv : Priv) (a size : Nat) (write : Bool) (v : Nat) : Except State (Nat × PageInfo × Nat) :=
  let pg := (a - 0x0C0000000000) / 4096
  let off := a % 4096
  if a < 0x0C0000000000 then .error s
  else
    match s.pageInfo pg with
    | none => .error s
    | some i =>
      if decide (a % size ≠ 0 ∨ (size ≠ 4 ∧ size ≠ 8)) || !s.dieUp i || (decide (size = 8) && decide (off < 0xC00)) || !s.present i pg off || !s.mayAccess prv i off write v
          || ((!s.active i.dom || (!s.clkq i && !(s.page pg).early)) && !(alwaysRead off && !write)) then
        .error (s.pgErr pg eBusErr off)
      else .ok (pg, i, off)

/-- A 4-byte read of a counter's high word returns the latched word (R383, R320, R484). -/
def State.latched (s : State) (pg off : Nat) : Option Nat :=
  match (s.page pg).latch with
  | some x => if x.1 = off then some x.2.toNat else none
  | none => none

def State.setLatch (s : State) (pg : Nat) (l : Option (Nat × Word)) : State := s.setPage pg { s.page pg with latch := l }

/-- The LO registers whose read latches their HI register (R320, R484). -/
def pairHi (i : PageInfo) (off : Nat) : Option Nat :=
  if i.blk = 0x12 then (arrIdx off 0x200 8 24).map fun _ => off + 4
  else if i.blk = 0x15 then
    if off = 0x104 ∨ off = 0x110 ∨ off = 0x11C then some (off + 4) else (arrIdx off 0x280 4 25).map fun _ => off + 0x80
  else none

/-- A 4-byte read of a word, its latch taken or used. -/
def State.readWord (s : State) (i : PageInfo) (pg off : Nat) : State × Nat :=
  let hi := fun (o v : Nat) (t : State) => t.setLatch pg (some (o, BitVec.ofNat 32 v))
  match s.latched pg off with
  | some v => (s.setLatch pg none, v)
  | none =>
    if off < 0x100 then
      let t := if off = 0x50 then s.settleSeed pg else s
      (t, (t.commonRead i pg off).getD 0)
    else if off < 0xC00 then
      match s.regDef i off with
      | none => (s, 0)
      | some d =>
        let v := s.regRead i pg off d
        let s := if i.blk = 0x15 ∧ 0x11C ≤ off ∧ off < 0x124 then { s with fresh := s.fresh + 1 } else s
        match pairHi i off, (pairHi i off).bind fun o => s.regDef i o with
        | some o, some d' => (hi o (s.regRead i pg o d') s, v)
        | _, _ => (s, v)
    else
      match cntAt i (off / 8 * 8) with
      | none => (s, 0)
      | some x =>
        let v := (s.page pg).cntVal x
        if off % 8 = 0 then (hi (off + 4) (v / 2 ^ 32) s, v % 2 ^ 32) else (s, v / 2 ^ 32)

/-- A register read (R363): the value, or none for BUS_ERR. -/
def State.readReg (s : State) (prv : Priv) (a size : Nat) : State × Option Nat :=
  match s.reach prv a size false 0 with
  | .error t => (t, none)
  | .ok (pg, i, off) =>
    if size = 8 then
      match cntAt i off with
      | some x => (s, some ((s.page pg).cntVal x))
      | none => (s, none)
    else
      let r := s.readWord i pg off
      (r.1, some r.2)

/-- A host read of a register: what it returned goes to the reader. -/
def State.hostRead (s : State) (prv : Priv) (a size : Nat) : State :=
  let r := s.readReg prv a size
  r.1.addOut (match r.2 with
    | some v => .read (BitVec.ofNat 64 v)
    | none => .refused)

end Sys2Proof.Machine
end

