-- ==== Sys2Proof/Machine/Regs.lean ====
section
/-! DEFINITION. Writes of registers (R366 to R384 and the register tables of every chapter), snapshots, parity scans, freezes by
register and pin, trace control, the background scrubber. -/

set_option Elab.async false

namespace Sys2Proof.Machine

/-! Words and their parity (R379, R381). -/

/-- The writable bits of a register take `v`. -/
def State.putReg (s : State) (pg off : Nat) (d : RegDef) (v : Nat) : State :=
  s.setPage pg ((s.page pg).putWord off d.reset (maskIn (d.rw ||| d.rwx) (s.stored pg off d) v))

/-- A word that only the firmware writes (R207, R226, R386). -/
def State.putFw (s : State) (pg off mask v : Nat) : State :=
  let p := s.page pg
  s.setPage pg { p with cfg := SMap.insert p.cfg off (BitVec.ofNat 32 (v &&& mask)) }

def State.freshPar (s : State) (pg off : Nat) : State := s.setPage pg ((s.page pg).freshPar off)

/-- A word that only the firmware writes (R386): RO in its field map, and so not protected (R379). -/
def fwOff (i : PageInfo) (off : Nat) : Bool := rovOff i off || rngOff i off

/-- A protected word of a page (R379). -/
def State.protDef (s : State) (i : PageInfo) (off : Nat) : Option RegDef :=
  if fwOff i off then none
  else if off = 0x24 then some (rwReg 0x3F 0x0F)
  else if off < 0x100 then if bit i.cap 29 then ptDef off else none
  else (s.regDef i off).filter fun d => decide (d.rw + d.rwx ≠ 0)

/-! Common registers. -/

/-- Unlock closes: outside test mode perturbation ends with it (R384). -/
def State.closeUnlock (s : State) (pg : Nat) : State :=
  let p := s.page pg
  if p.unl && !s.testMode then
    let t := s.settleSeed pg
    let p := t.page pg
    t.setPage pg { p with unl := false, cfg := SMap.put p.cfg 0 0x40 ((SMap.get p.cfg 0 0x40) &&& 0x7FFFFFFF) }
  else s.setPage pg { p with unl := false }

/-- PG_LOCK (R371). -/
def State.writeLock (s : State) (pg key : Nat) : State :=
  let p := s.page pg
  if key = 0xA5A5 ∧ p.arm = true then s.setPage pg { p with unl := true, arm := false }
  else
    let t := s.closeUnlock pg
    t.setPage pg { t.page pg with arm := decide (key = 0x5A5A) }

/-- The reset source of a block soft reset (R373). -/
def blockSource (pg : Nat) : Source := { cause := 10, reach := 4, dies := [], pg := pg }

/-- PG_CTL (R373). -/
def State.writeCtl (s : State) (pg v : Nat) : State :=
  let p := s.page pg
  let s1 := s.setPage pg { p with cnt := if bit v 0 then [] else p.cnt, pinj := p.pinj || (bit v 8 && s.testMode) }
  if bit v 31 && !decide (pg ∈ s.rst.blocks) then s1.assertSource (blockSource pg) else s1

/-- A perturbation register (R384): accepted in test mode or under expert unlock; a seed of 0 is stored as 1. -/
def State.writePt (s : State) (pg off : Nat) (d : RegDef) (v : Nat) : State :=
  if s.testMode || (s.page pg).unl then (s.settleSeed pg).putReg pg off d (if off = 0x50 ∧ v = 0 then 1 else v)
  else s.pgErr pg eBusErr off

/-- PG_SNAP (R382). -/
def State.writeSnap (s : State) (pg v : Nat) : State :=
  if 5 ≤ v % 8 then s
  else
    let p := { s.page pg with snapScope := BitVec.ofNat 3 v }
    if bit v 31 then { s.setPage pg { p with snapBusy := p.snapBusy + 1 } with snapQ := s.snapQ ++ [(pg, v % 8)] }
    else s.setPage pg p

def State.writeCommon (s : State) (i : PageInfo) (pg off v : Nat) : State :=
  let p := s.page pg
  match off with
  | 0x00C => s.writeLock pg (v % 65536)
  | 0x010 => s.writeCtl pg v
  | 0x018 => if bit v 31 then s.setPage pg { p with err := PgErr.none } else s
  | 0x020 => s.pageIrq pg { p with irqRaw := p.irqRaw &&& ~~~(BitVec.ofNat 6 v) }
  | 0x024 => s.pageIrq pg { p.freshPar 0x24 with irqEn := BitVec.ofNat 6 v }
  | 0x080 => s.writeSnap pg v
  | _ => if bit i.cap 29 then
      match ptDef off with
      | some d => s.writePt pg off d v
      | none => s
    else s

/-! Registers with a behaviour of their own. -/

/-- MGR_AQ_CFG (R304, R503): a queue that EN turns on starts afresh and clears FLT; one whose rings are not in host memory stops at
its first access. A write of 0 takes effect once no admin command is uncompleted. -/
def State.writeAq (s : State) (d : RegDef) (v : Nat) : State :=
  let ok := decide (4 ≤ bits v 7 4 ∧ bits v 7 4 ≤ 12 ∧ 4 ≤ bits v 3 0 ∧ bits v 3 0 ≤ 12)
  let en := bit v 31 && ok
  let stays := (s.queue 0).live && !(s.queue 0).cmds.isEmpty
  let s1 := s.putReg pgMgr 0x120 d (v % 2 ^ 31 + b2n (en || stays) * 2 ^ 31)
  let x := s1.queue 0
  let ad := fun k => (s1.cfg pgMgr (0x100 + 8 * k) 0).toNat + (s1.cfg pgMgr (0x104 + 8 * k) 0).toNat * 2 ^ 32
  if en then
    if x.live then s1.setQueue 0 { x with closing := false }
    else
      let reach := [0, 1, 2, 3].all fun k => hostAligned (ad k)
      let y := { Queue.none with live := true, cmd := BitVec.ofNat 48 (ad 0), cpl := BitVec.ofNat 48 (ad 1), ev := BitVec.ofNat 48 (ad 2),
                                 ctl := BitVec.ofNat 48 (ad 3), logN := bits v 3 0, logEv := bits v 7 4, stopped := !reach }
      let s2 := s1.setQueue 0 y
      s2.pollQueue (2 ^ y.logN) 0
  else (s1.setQueue 0 { x with closing := x.live }).reapQueue 0

/-- XRE_SPLITs (R133): a split that the store cannot hold leaves EN 0; an empty store takes the write at once (R113). -/
def State.writeSplit (s : State) (i : PageInfo) (pg off : Nat) (d : RegDef) (v : Nat) : State :=
  let g := i.die * 48 + i.hearth.getD 0
  let st := (off - 0x800) / 4
  let a := bits v 23 16
  let b := bits v 15 8
  let u := bits v 4 0
  let ok := clsOfStore st a && clsOfStore st b && decide (a ≠ b ∧ 1 ≤ u ∧ u < storeUnits st)
  let s0 := s.putStore g st (s.store g st)
  let s1 := s0.putReg pg off d (v % 2 ^ 31 + b2n (bit v 31 && ok) * 2 ^ 31)
  s1.putStore g st (s1.store g st)

/-- XRE_DRAIN (R132): a change takes effect when no tile of the hearth is drained; until then the old word acts. -/
def State.writeDrain (s : State) (i : PageInfo) (pg off : Nat) (d : RegDef) (v : Nat) : State :=
  let g := i.die * 48 + i.hearth.getD 0
  let old := BitVec.ofNat 32 (s.xreDrain g)
  let s1 := s.putReg pg off d v
  ({ s1 with drains := SMap.insert s1.drains g old }).settleDrain g

/-- The STK pages (R361, R362): an interleave bit of a slot with a live context is kept; V of the error log clears. -/
def State.writeStk (s : State) (i : PageInfo) (pg off : Nat) (d : RegDef) (v : Nat) : State :=
  if i.die = 99 then if (s.slotCtx ((off - 0x100) / 4)).isSome then s else s.putReg pg off d v
  else if off = 0x10C then
    let p := s.page pg
    if bit v 31 then s.setPage pg { p with cfg := SMap.put p.cfg 0 0x10C ((SMap.get p.cfg 0 0x10C) &&& 0x7FFFFFFF) } else s
  else if off = 0x100 then s.putReg pg off d v
  else s

/-- HLK and RDP pages (R442, R443, R424): EN of a manager's UPP is not written. -/
def State.writePort (s : State) (i : PageInfo) (pg off : Nat) (d : RegDef) (v : Nat) : State :=
  if off = 0x104 then
    let p := i.port
    let upp := decide (p = 2) && s.isManager
    let s1 := s.putReg pg off (if upp then { d with rw := 2 } else d) v
    let s2 := if upp then s1 else s1.portEnable p
    if bit v 31 then s2.portRetrain p else s2
  else if off = 0x800 then s.putReg pg off d v
  else s

/-- The DRT page (R325, R337, R338). -/
def State.writeDrt (s : State) (pg off : Nat) (d : RegDef) (v : Nat) : State :=
  if off = 0x100 then (s.putReg pg off d v).setBudget (bits v 18 0)
  else if off = 0x104 then (s.putReg pg off d v).setSurge v
  else if off = 0x108 then s.putReg pg off d v
  else if 0x800 ≤ off then (s.freshPar pg off).setPrsv ((off - 0x800) / 4) v
  else s

/-- BEAT_SLOTk (R320): with no live context on the slot and the own source in use, the slot's beat moves to the value with this
half written. -/
def State.writeBeatSlot (s : State) (k : Nat) (hi : Bool) (v : Nat) : State :=
  if (s.slotCtx k).isNone && decide (s.beat.actsrc = 1) then
    let b := (s.nextBeat k).getD (s.slotBeat k)
    let c : Beat := if hi then { b with step := BitVec.ofNat 40 (v % 2 ^ 24 * 65536 + b.step.toNat % 65536) }
      else { step := BitVec.ofNat 40 (b.hi * 65536 + v / 65536), phase := BitVec.ofNat 16 v }
    (s.putReg pgBeat (0x200 + 8 * k + 4 * b2n hi) (rwxReg (if hi then 0xFFFFFF else 0xFFFFFFFF) 0) v).moveBeat k 2 c
  else s

/-- The BEAT page (R310, R320). -/
def State.writeBeat (s : State) (pg off : Nat) (d : RegDef) (v : Nat) : State :=
  if off = 0x100 then
    let d' := if bits v 12 8 < s.nCords then d else { d with rw := 0x30003 }
    (s.putReg pg off d' v).reSource
  else if off = 0x108 ∨ off = 0x10C then s.putReg pg off d v
  else
    match arrIdx off 0x200 4 (2 * s.nCords) with
    | some k => s.writeBeatSlot (k / 2) (decide (k % 2 = 1)) v
    | none => s

/-- The RST page (R399, R407, R409, R415). -/
def State.writeRst (s : State) (m : Bool) (pg off : Nat) (d : RegDef) (v : Nat) : State :=
  match off with
  | 0x108 => let t := s.putReg pg off d v; if bit v 31 then t.goPart (v % 2 ^ 24) else t
  | 0x10C => let t := s.putReg pg off d v; if bit v 31 then t.goDie (v % 128) else t
  | 0x110 => if m then s.putReg pg off d v else s.pgErr pg eBusErr off
  | 0x114 => s.kick m v
  | 0x118 => if s.testMode then
      let t := s.putReg pg off d v
      let dies := if t.kind.phase = 3 then t.kind.scope.getD [] else []
      ((t.lostClk.flatMap fun x => t.clkPages x.1 x.2) ++ dies.flatMap diePages).dedup.foldl
        (fun u q => if u.earlyOn && u.onlyUnqual q then u.releaseBlock q else u) t
    else s
  | 0x174 => if bit v 0 then { s with ember := { s.ember with rcnt := [], rtotal := 0 } } else s
  | _ => s

/-- The PWR page (R394, R396). -/
def State.writePwr (s : State) (pg off : Nat) (d : RegDef) (v : Nat) : State :=
  if off = 0x800 then
    let t := s.putReg pg off d v
    t.liveCtxs.foldl (fun u c => if bit v 0 then u.idleLower c.1 else u.idleRaise c.1) t
  else
    match arrIdx off 0x200 4 290 with
    | some k => (s.putReg pg off d v).writeDom k (BitVec.ofNat 2 v)
    | none => s

/-! Trace and freeze registers (R482, R484, R485). -/

/-- The trace ring lies wholly in stack or host memory, aligned to its size (R482). -/
def State.trcRegionOk (s : State) (die : Nat) : Bool :=
  let n := s.trcLog2 die
  let a := s.trcBase die
  let inStack := fun x => match s.place x with
    | .stack _ => true
    | _ => false
  let inHost := fun x => decide (s.place x = .host)
  decide (16 ≤ n ∧ a % 2 ^ n = 0) && ((inStack a && inStack (a + 2 ^ n - 1)) || (inHost a && inHost (a + 2 ^ n - 1)))

/-- TRC_CTL (R482): enabling checks the ring and starts it anew, disabling flushes. -/
def State.writeTrcCtl (s : State) (die pg : Nat) (d : RegDef) (v : Nat) : State :=
  let was := bit (s.trcCtl die) 31
  let en := bit v 31
  if en && !(decide (16 ≤ s.trcLog2 die ∧ s.trcLog2 die ≤ 32) && s.trcRegionOk die) then
    ((if was then s.traceFlush die else s).putReg pg 0x100 d (v % 2 ^ 31)).pgErr pg eBusErr 0x100
  else
    let s1 := if was && !en then s.traceFlush die else s
    let s2 := s1.putReg pg 0x100 d v
    if en && !was then s2.setTrc die TraceUnit.reset else s2

/-- TRC_FCTL (R473, R476): a thaw acts before a freeze of the same write. -/
def State.writeFctl (s : State) (pg : Nat) (d : RegDef) (v : Nat) : State :=
  let d' := if bits v 4 0 < s.nCords then d else { d with rw := 0xE000000 }
  let s1 := s.putReg pg 0x140 d' v
  let k := (s1.stored pg 0x140 d) % 32
  let q := s1.fzQueue k
  let s2 := if bit v 30 then s1.fzThaw 24 2 0 0xFF 0 0xFFFF else s1
  let s3 := if bit v 31 then s2.fzSet 24 2 0 0 0xFF 0 0xFFFF else s2
  let s4 := if bit v 28 then s3.fzThaw k 2 q.1 q.2 0 0xFFFF else s3
  if bit v 29 then s4.fzSet k 2 0 q.1 q.2 0 0xFFFF else s4

/-- The TRC pages. -/
def State.writeTrc (s : State) (die pg off : Nat) (d : RegDef) (v : Nat) : State :=
  match off with
  | 0x100 => s.writeTrcCtl die pg d v
  | 0x140 => s.writeFctl pg d v
  | _ => if off < 0x110 ∧ bit (s.trcCtl die) 31 = true then s else if d.rw = 0 then s else s.putReg pg off d v

/-- The FW page (R465). -/
def State.writeFw (s : State) (pg off : Nat) (d : RegDef) (v : Nat) : State :=
  if off = 0x10C then
    let s1 := if bit v 0 then s.fwCommit.getD s else s
    let s2 := if bit v 1 then s1.fwNow.getD s1 else s1
    if bit v 2 then s2.fwAbort.getD s2 else s2
  else if off = 0x108 then s.putReg pg off d v
  else s

/-! A write of a register (R363, R366, R367). -/

/-- A write to a register of 0x100 to 0xBFF; one whose field is RWX needs expert unlock (R366). -/
def State.writeBlock (s : State) (m : Bool) (i : PageInfo) (pg off : Nat) (d : RegDef) (v : Nat) : State :=
  if d.rwx ≠ 0 ∧ (s.page pg).unl = false then s.pgErr pg eBusErr off
  else
    match i.blk with
    | 0x08 => s.putFw pg off (if off = 0x108 then 1 else 0xFFFFFFFF) v
    | 0x03 => if rovOff i off then s.putFw pg off (d.rw ||| d.rwx) v else if d.rw + d.rwx = 0 then s else s.putReg pg off d v
    | 0x01 =>
      if off = 0x120 then s.writeAq d v
      else if off < 0x120 ∧ (s.queue 0).live = true then s
      else if d.rw = 0 then s
      else s.putReg pg off d v
    | 0x0B => if 0x800 ≤ off then s.writeSplit i pg off d v else s.writeDrain i pg off d v
    | 0x0D => s.writeStk i pg off d v
    | 0x0E => s.writePort i pg off d v
    | 0x0F => s.writePort i pg off d v
    | 0x10 => if off = 0x104 then let t := s.putReg pg off d v; if bit v 31 then t.enumHead else t else s
    | 0x11 => s.writeDrt pg off d v
    | 0x12 => s.writeBeat pg off d v
    | 0x13 => s.writeRst m pg off d v
    | 0x14 => s.writePwr pg off d v
    | 0x15 => s.writeTrc i.die pg off d v
    | 0x16 => s.writeFw pg off d v
    | _ => if d.rw + d.rwx = 0 then s else s.putReg pg off d v

/-- A register write: the state after it, and whether it was performed (false: BUS_ERR). -/
def State.writeReg (s : State) (prv : Priv) (a size v : Nat) : State × Bool :=
  match s.reach prv a size true v with
  | .error t => (t, false)
  | .ok (pg, i, off) =>
    let w := v % 2 ^ 32
    if off < 0x100 then (s.writeCommon i pg off w, true)
    else if off < 0xC00 then
      match s.regDef i off with
      | some d => (s.writeBlock (decide (prv = .m)) i pg off d w, true)
      | none => (s, true)
    else (s, true)

/-- A write by the host or the firmware; a refused one is answered with BUS_ERR. -/
def State.hostWrite (s : State) (prv : Priv) (a size v : Nat) : State :=
  let r := s.writeReg prv a size v
  if r.2 then r.1 else r.1.addOut .refused

/-- A 4-byte write at an offset of a page. -/
def State.pageWrite (s : State) (prv : Priv) (pg off v : Nat) : State := s.hostWrite prv (pageAddr pg + off) 4 v

/-! Commands on the common registers. -/

/-- PG_LOCK_WRITE (R371). -/
def execPgLockWrite (prv : Priv) (pg : Nat) (val : Word) (s : State) : Host.Outcome State Fault Refusal :=
  .next (s.pageWrite prv pg 0x00C val.toNat)

/-- UNLOCK_ARM_EXPIRY (R371). -/
def execUnlockArmExpiry (pg : Nat) (s : State) : Host.Outcome State Fault Refusal :=
  .next (s.setPage pg { s.page pg with arm := false })

/-- PG_CTL_SRST (R373). -/
def execPgCtlSrst (prv : Priv) (pg : Nat) (s : State) : Host.Outcome State Fault Refusal := .next (s.pageWrite prv pg 0x010 0x80000000)

/-- PG_CTL_PINJ (R373). -/
def execPgCtlPinj (prv : Priv) (pg : Nat) (s : State) : Host.Outcome State Fault Refusal := .next (s.pageWrite prv pg 0x010 0x100)

/-- PG_CTL_CNTCLR (R373). -/
def execPgCtlCntclr (prv : Priv) (pg : Nat) (s : State) : Host.Outcome State Fault Refusal := .next (s.pageWrite prv pg 0x010 1)

/-- PG_ERR_CLEAR (R375). -/
def execPgErrClear (prv : Priv) (pg : Nat) (s : State) : Host.Outcome State Fault Refusal := .next (s.pageWrite prv pg 0x018 0x80000000)

/-- PG_IRQ_RAW_CLEAR (R377). -/
def execPgIrqRawClear (prv : Priv) (pg : Nat) (val : Word) (s : State) : Host.Outcome State Fault Refusal :=
  .next (s.pageWrite prv pg 0x020 val.toNat)

/-- PG_SNAP_WRITE (R382). -/
def execPgSnapWrite (prv : Priv) (pg : Nat) (val : Word) (s : State) : Host.Outcome State Fault Refusal :=
  .next (s.pageWrite prv pg 0x080 val.toNat)

/-- The pages that a snapshot request captures (R382); a cord that no live context owns stands for its partition. -/
def State.snapPages (s : State) (pg scope : Nat) : List Nat :=
  match s.pageInfo pg with
  | none => []
  | some i =>
    let ofDies := fun ds => (List.flatMap diePages ds).filter fun q => (s.pageInfo q).isSome
    match scope with
    | 0 => [pg]
    | 1 => match i.hearth with
      | some h => (List.range 13).map (hearthPage (i.die * 48 + h))
      | none => [pg]
    | 2 => ofDies [i.die]
    | 3 => match dieCord i.die with
      | some c => match s.cordCtx c with
        | some p => ofDies (p.2.cords.flatMap cordDies)
        | none => ofDies (cordDies c)
      | none => ofDies s.dies
    | _ => ofDies s.dies

/-- One page at a capture edge. -/
def State.capture (s : State) (pg : Nat) : State :=
  match s.pageInfo pg with
  | none => s
  | some i =>
    if s.active i.dom then
      let p := s.page pg
      (s.setPage pg { p with hold := p.cnt, snapBeat := s.slotBeat (s.pageSlot i.die) }).raise pg 0x20
    else s

/-- SNAPSHOT_CAPTURE (R382): the capture edge of the oldest request. -/
def execSnapshotCapture (s : State) : Host.Outcome State Fault Refusal :=
  match s.snapQ with
  | [] => .next s
  | x :: r =>
    let p := s.page x.1
    let s1 := { s with snapQ := r }.setPage x.1 { p with snapBusy := p.snapBusy - 1 }
    .next ((s1.snapPages x.1 x.2).foldl (fun t q => t.capture q) s1)

/-- A stored word of a protected register upset so that its parity mismatches. -/
def State.upsetWord (s : State) (pg : Nat) (x : Nat × Nat) : State :=
  match (s.pageInfo pg).bind fun i => s.protDef i x.1 with
  | none => s
  | some d =>
    let p := s.page pg
    let m := p.mend x.1
    let q := { m with badPar := m.badPar ++ [x.1] }
    s.pageIrq pg (if x.1 = 0x24 then { q with irqEn := BitVec.ofNat 6 x.2 }
      else { q with cfg := SMap.put q.cfg (BitVec.ofNat 32 d.reset) x.1 (BitVec.ofNat 32 (x.2 &&& (d.rw ||| d.rwx))) })

/-- A block without descriptors takes the reset value of a mismatching word that it keeps itself (R380): the budget and the surge
ceiling, a slot's beat, a domain's request, the admin queue's and a port's enable, the beat source, idle banking. -/
def State.useReset (s : State) (i : PageInfo) (off : Nat) : State :=
  match i.blk with
  | 0x01 => if off = 0x120 then (s.setQueue 0 { s.queue 0 with closing := (s.queue 0).live }).reapQueue 0 else s
  | 0x0E => if off = 0x104 then s.portEnable i.port else s
  | 0x0F => if off = 0x104 then s.portEnable i.port else s
  | 0x11 =>
    if off = 0x100 then (s.setDrt { s.drt with budget := none }).ledgerFell
    else if off = 0x104 then (s.setDrt { s.drt with lim := none, sen := true }).ledgerFell
    else s
  | 0x12 =>
    if off = 0x100 then s.reSource
    else match arrIdx off 0x200 4 (2 * s.nCords) with
    | some k =>
      let b := s.slotBeat (k / 2)
      let c : Beat := if k % 2 = 0 then { step := BitVec.ofNat 40 (b.hi * 65536), phase := 0 }
        else { b with step := BitVec.ofNat 40 (b.step.toNat % 65536) }
      s.setBeat { s.beat with slots := SMap.put s.beat.slots Beat.zero (k / 2) c }
    | none => s
  | 0x14 =>
    if off = 0x800 then s.liveCtxs.foldl (fun t c => t.idleRaise c.1) s
    else match arrIdx off 0x200 4 290 with
    | some k => if (s.dom k).req = s.domReq0 k then s else s.startDom k (s.domReq0 k)
    | none => s
  | _ => s

/-- PARITY_SCAN (R379, R380): words that a disturbance has upset since the last scan, and what the scan finds; it stands for the
checks at the starts of operations too (log 108). -/
def execParityScan (pg : Nat) (upset : List (Nat × Nat)) (s : State) : Host.Outcome State Fault Refusal :=
  match s.pageInfo pg with
  | none => .next s
  | some i =>
    if s.active i.dom && !s.blkHeld pg i then
      let t := upset.foldl (fun t x => t.upsetWord pg x) s
      let l := (t.page pg).newBad
      let u := t.parityFound pg
      .next (if s.takesDesc pg then u else l.foldl (fun v off => v.useReset i off) u)
    else .next s

/-- COUNTER_LOW_READ (R383). -/
def execCounterLowRead (prv : Priv) (pg off : Nat) (s : State) : Host.Outcome State Fault Refusal :=
  .next (if 0xC00 ≤ off ∧ off < 4096 ∧ off % 8 = 0 then s.hostRead prv (pageAddr pg + off) 4 else s)

/-- BEAT_SLOT_LO_READ (R320). -/
def execBeatSlotLoRead (prv : Priv) (k : Nat) (s : State) : Host.Outcome State Fault Refusal :=
  .next (if k < s.nCords then s.hostRead prv (pageAddr pgBeat + 0x200 + 8 * k) 4 else s)

/-- TRC_LO_READ (R484). -/
def execTrcLoRead (prv : Priv) (pg off : Nat) (s : State) : Host.Outcome State Fault Refusal :=
  .next (match s.pageInfo pg with
    | some i => if i.blk = 0x15 ∧ (pairHi i off).isSome = true then s.hostRead prv (pageAddr pg + off) 4 else s
    | none => s)

/-! Commands on the blocks' registers. -/

/-- BEAT_SLOT_WRITE (R320). -/
def execBeatSlotWrite (prv : Priv) (k : Nat) (hi : Bool) (val : Word) (s : State) : Host.Outcome State Fault Refusal :=
  .next (if k < 24 then s.pageWrite prv pgBeat (0x200 + 8 * k + 4 * b2n hi) val.toNat else s)

/-- MGR_AQ_CFG_WRITE (R304). -/
def execMgrAqCfgWrite (prv : Priv) (val : Word) (s : State) : Host.Outcome State Fault Refusal :=
  .next (s.pageWrite prv pgMgr 0x120 val.toNat)

/-- REGISTER_WRITE (R363, R366, R367). -/
def execRegisterWrite (prv : Priv) (addr : Addr) (size : Nat) (val : Word64) (s : State) : Host.Outcome State Fault Refusal :=
  .next (s.hostWrite prv addr.toNat size val.toNat)

/-- PWR_DOM_WRITE (R394). -/
def execPwrDomWrite (prv : Priv) (k : Nat) (val : Word) (s : State) : Host.Outcome State Fault Refusal :=
  .next (if k < 290 then s.pageWrite prv pgPwr (0x200 + 4 * k) val.toNat else s)

/-- RST_PART_GO (R399). -/
def execRstPartGo (prv : Priv) (val : Word) (s : State) : Host.Outcome State Fault Refusal :=
  .next (s.pageWrite prv pgRst 0x108 (val ||| 0x80000000).toNat)

/-- RST_DIE_GO (R399). -/
def execRstDieGo (prv : Priv) (val : Word) (s : State) : Host.Outcome State Fault Refusal :=
  .next (s.pageWrite prv pgRst 0x10C (val ||| 0x80000000).toNat)

/-- RST_WDTK_WRITE (R409). -/
def execRstWdtkWrite (prv : Priv) (val : Word) (s : State) : Host.Outcome State Fault Refusal :=
  .next (s.pageWrite prv pgRst 0x114 val.toNat)

/-- RST_RCLR_WRITE (R415). -/
def execRstRclrWrite (prv : Priv) (val : Word) (s : State) : Host.Outcome State Fault Refusal :=
  .next (s.pageWrite prv pgRst 0x174 val.toNat)

/-- DRT_BUDGET_WRITE (R325). -/
def execDrtBudgetWrite (prv : Priv) (val : Word) (s : State) : Host.Outcome State Fault Refusal :=
  .next (s.pageWrite prv pgDrt 0x100 val.toNat)

/-- DRT_SURGE_WRITE (R338). -/
def execDrtSurgeWrite (prv : Priv) (val : Word) (s : State) : Host.Outcome State Fault Refusal :=
  .next (s.pageWrite prv pgDrt 0x104 val.toNat)

/-- DRT_PRSV_WRITE (R337). -/
def execDrtPrsvWrite (prv : Priv) (k : Nat) (val : Word) (s : State) : Host.Outcome State Fault Refusal :=
  .next (if k < 24 then s.pageWrite prv pgDrt (0x800 + 4 * k) val.toNat else s)

/-- What a register holds now, for a write that sets one bit of it. -/
def State.held? (s : State) (pg off : Nat) (reset : Nat) : Nat := (SMap.get (s.page pg).cfg (BitVec.ofNat 32 reset) off).toNat

/-- HLK_CFG_RETRAIN (R442). -/
def execHlkCfgRetrain (prv : Priv) (port : Nat) (s : State) : Host.Outcome State Fault Refusal :=
  .next (if port < 2 then s.pageWrite prv (pgHlk port) 0x104 (2 ^ 31 + s.held? (pgHlk port) 0x104 1) else s)

/-- HLK_CFG_EN (R442). -/
def execHlkCfgEn (prv : Priv) (port : Nat) (val : Word) (s : State) : Host.Outcome State Fault Refusal :=
  .next (if port < 2 then s.pageWrite prv (pgHlk port) 0x104 val.toNat else s)

/-- RDP_CFG_RETRAIN (R443). -/
def execRdpCfgRetrain (prv : Priv) (port : Nat) (s : State) : Host.Outcome State Fault Refusal :=
  .next (if 2 ≤ port ∧ port ≤ 5 then s.pageWrite prv (portPage port) 0x104 (2 ^ 31 + s.held? (portPage port) 0x104 1) else s)

/-- RDP_CFG_EN (R443, R424). -/
def execRdpCfgEn (prv : Priv) (port : Nat) (val : Word) (s : State) : Host.Outcome State Fault Refusal :=
  .next (if 2 ≤ port ∧ port ≤ 5 then s.pageWrite prv (portPage port) 0x104 val.toNat else s)

/-- SVC_CFG_ENUM (R437). -/
def execSvcCfgEnum (prv : Priv) (s : State) : Host.Outcome State Fault Refusal :=
  .next (s.pageWrite prv pgSvc 0x104 (2 ^ 31 + s.held? pgSvc 0x104 3))

/-- FW_CTL_COMMIT (R457, R465). -/
def execFwCtlCommit (prv : Priv) (s : State) : Host.Outcome State Fault Refusal := .next (s.pageWrite prv pgFw 0x10C 1)

/-- FW_CTL_ACTNOW (R455, R465). -/
def execFwCtlActnow (prv : Priv) (s : State) : Host.Outcome State Fault Refusal := .next (s.pageWrite prv pgFw 0x10C 2)

/-- FW_CTL_ABORT (R465). -/
def execFwCtlAbort (prv : Priv) (s : State) : Host.Outcome State Fault Refusal := .next (s.pageWrite prv pgFw 0x10C 4)

/-- TRC_FCTL_GO (R473). -/
def execTrcFctlGo (prv : Priv) (val : Word) (s : State) : Host.Outcome State Fault Refusal :=
  .next (s.pageWrite prv pgTrcMgr 0x140 (val ||| 0x80000000).toNat)

/-- TRC_FCTL_THAW (R476). -/
def execTrcFctlThaw (prv : Priv) (val : Word) (s : State) : Host.Outcome State Fault Refusal :=
  .next (s.pageWrite prv pgTrcMgr 0x140 (val ||| 0x40000000).toNat)

/-- TRC_FCTL_SGO (R473). -/
def execTrcFctlSgo (prv : Priv) (val : Word) (s : State) : Host.Outcome State Fault Refusal :=
  .next (s.pageWrite prv pgTrcMgr 0x140 (val ||| 0x20000000).toNat)

/-- TRC_FCTL_STHAW (R476). -/
def execTrcFctlSthaw (prv : Priv) (val : Word) (s : State) : Host.Outcome State Fault Refusal :=
  .next (s.pageWrite prv pgTrcMgr 0x140 (val ||| 0x10000000).toNat)

/-- FRZN_EDGE (R477): ignored while the package state is frozen. -/
def execFrznEdge (s : State) : Host.Outcome State Fault Refusal :=
  .next (if (s.cfg pgTrcMgr 0x140 0).getLsbD 27 && !(s.fz 24).v then s.fzSet 24 4 0 0 0xFF 0 0xFFFF else s)

/-- TRC_CTL_WRITE (R482). -/
def execTrcCtlWrite (prv : Priv) (die : Nat) (val : Word) (s : State) : Host.Outcome State Fault Refusal :=
  .next (if s.hasTrc die then s.pageWrite prv (pgTrc die) 0x100 val.toNat else s)

/-- TRACE_FLUSH (R482). -/
def execTraceFlush (die : Nat) (s : State) : Host.Outcome State Fault Refusal :=
  .next (if s.hasTrc die && s.isOpen (pgTrc die) then s.traceFlush die else s)

/-- TRACE_LINE_WRITE (R482, R483). -/
def execTraceLineWrite (die : Nat) (ok : Bool) (s : State) : Host.Outcome State Fault Refusal :=
  .next (if s.hasTrc die && s.isOpen (pgTrc die) then s.traceLine die ok else s)

/-- BACKGROUND_SCRUB (R348): one line of a cord's stack. The command also brings the errors that have come about in a unit of
memory since the last one (R343, R345; log 118). -/
def execBackgroundScrub (cord line : Nat) (err : Option (Nat × List Nat)) (s : State) : Host.Outcome State Fault Refusal :=
  let s0 := match err with
    | some e => s.upset e.1 e.2
    | none => s
  if cord < s.nCords ∧ line < stackLines ∧ s.placeUp (.stack cord) = true ∧ s.ready = true
      ∧ (s.cfg (pgStk cord) 0x100 0x80000018).getLsbD 31 = true then
    let a := cord * 2 ^ 37 + 64 * line
    let s1 := { s0 with scrubPos := SMap.put s.scrubPos 0 cord ((line + 1) % stackLines) }.count (pgStk cord) 4 1
    .next (if a ∈ s1.ue then s1.ueFound 1 cord a else if (SMap.get s1.errs [] a).isEmpty then s1 else s1.corrected a)
  else .next s0

end Sys2Proof.Machine
end

