-- ==== Sys2Proof/Machine/Chain.lean ====
section
/-! DEFINITION. The service chain (R433 to R439): frames relayed, enumeration, requests answered. -/

set_option Elab.async false

namespace Sys2Proof.Machine

/-! Frames (Table 17.5). -/

def fDst (f : List Byte) : Nat := fld f 0 1
def fSrc (f : List Byte) : Nat := fld f 1 1
def fType (f : List Byte) : Nat := fld f 2 1
def fSeq (f : List Byte) : Nat := fld f 4 2
def fLen (f : List Byte) : Nat := fld f 6 2
def fArg (f : List Byte) : Nat := fld f 8 8
def fPayload (f : List Byte) : List Byte := (f.drop 16).take (fLen f)

/-- The frame's length and CRC are good (R434). -/
def frameOk (f : List Byte) : Bool :=
  decide (fLen f ≤ 1024 ∧ fLen f % 4 = 0 ∧ f.length = 20 + fLen f)
    && decide (fld f (16 + fLen f) 4 = (crc32 (f.take (16 + fLen f))).toNat)

/-- The frame is addressed to the package (R435): to the address it holds, or to all. -/
def State.frameMine (s : State) (f : List Byte) : Bool :=
  decide (fDst f = 0xFF) || match s.ember.caddr with
    | some a => decide (fDst f = a.toNat)
    | none => false

def State.setChain (s : State) (c : Chain) : State := { s with chain := c }

/-- A frame has come on the up port: that port has block lock. -/
def State.upSeen (s : State) : State :=
  let c := s.chain
  s.setChain { c with upLock := true,
                      cstate := if c.cstate = 0 then (if s.ember.caddr.isSome ∧ s.pkgPhase = 7 then 3 else 1) else c.cstate }

/-- A frame received (SVC_CNT_RXF); a bad one is dropped and counted (R434). -/
def State.frameIn (s : State) (fromUp : Bool) (f : List Byte) : State :=
  let s1 := s.count pgSvc 0 1
  if frameOk f then if fromUp then s1.upSeen else s1 else s1.count pgSvc 3 1

/-- The frame goes on unchanged (R435), counted. -/
def State.relayOn (s : State) (up : Bool) (f : List Byte) : State := (s.addOut (.frame up f)).count pgSvc 2 1

/-- Types of the requests that a package acts on itself. -/
def ownType (t : Nat) : Bool := decide (t = 3 ∨ t = 4 ∨ t = 6 ∨ t = 7 ∨ t = 8 ∨ t = 10)

/-- ENUM_DONE has passed: the enumeration is over. -/
def State.enumOver (s : State) : State :=
  if s.chain.cstate = 2 then s.setChain { s.chain with cstate := 3 } else s

/-- FRAME_RELAY (R435): frames to 0xFE travel up, every other down. A frame that a row of its own handles is not relayed here. -/
def execFrameRelay (fromUp : Bool) (frame : List Byte) (s : State) : Host.Outcome State Fault Refusal :=
  if s.chain.relay then
    if frameOk frame then
      let up := decide (fDst frame = 0xFE)
      if (fType frame = 1 ∧ fromUp = true) ∨ (fType frame = 2 ∧ s.isHead = true) ∨ (s.frameMine frame = true ∧ ownType (fType frame) = true)
          ∨ up = fromUp then .next s
      else
        let s1 := s.frameIn fromUp frame
        if s.frameMine frame = true ∧ fDst frame ≠ 0xFF then .next s1
        else
          let s2 := s1.relayOn up frame
          .next (if fType frame = 2 then s2.enumOver else s2)
    else .next (s.frameIn fromUp frame)
  else .next s

/-! Enumeration (R437). -/

/-- The package takes address `n` and passes the enumeration on. -/
def State.takeAddr (s : State) (n : Nat) : State :=
  let a := BitVec.ofNat 6 n
  let s1 := match s.ember.caddr with
    | some b => if b = a then s else s.chainEvent 5 6
    | none => s
  { s1 with ember := { s1.ember with caddr := some a }, chain := { s1.chain with cstate := 2 } }.sendEnum (n + 1)

/-- ENUM (R437). -/
def execEnumFrame (fromUp : Bool) (frame : List Byte) (s : State) : Host.Outcome State Fault Refusal :=
  if s.chain.relay && fromUp then
    if frameOk frame then
      if fType frame = 1 then
        let s1 := s.frameIn fromUp frame
        let n := fArg frame % 256
        if s.isHead then .next ((s1.chainEvent 4 6).count pgSvc 5 1)
        else if n ≤ 63 then .next (s1.takeAddr n)
        else
          let s2 := { s1 with ember := { s1.ember with caddr := none }, chain := { s1.chain with cstate := 1 } }
          .next ((s2.chainEvent 3 6).count pgSvc 5 1)
      else .next s
    else .next (s.frameIn fromUp frame)
  else .next s

/-- ENUM_DONE (R437): sent by the last package of the chain, or received by the head. -/
def execEnumDone (received : Option (List Byte)) (s : State) : Host.Outcome State Fault Refusal :=
  if s.chain.relay then
    match received with
    | none =>
      match s.ember.caddr with
      | some a =>
        if s.chain.cstate = 2 then
          let n := a.toNat + 1
          let f := s.takeFree 2
          let s1 := f.2.sendFrame true (chainFrame 0xFE s.chainSrc 0x02 (leVal f.1) n [])
          .next (s1.setChain { s1.chain with downLock := false, cstate := 3, cnt := if s.isHead then n else s1.chain.cnt })
        else .next s
      | none => .next s
    | some f =>
      if frameOk f then
        if s.isHead ∧ fType f = 2 then
          let s1 := (s.frameIn false f).relayOn true f
          .next (s1.setChain { s1.chain with cnt := fArg f % 128, cstate := 3 })
        else .next s
      else .next (s.frameIn false f)
  else .next s

/-- CHAIN_UP_PORT_LOST (R438). -/
def execChainUpPortLost (s : State) : Host.Outcome State Fault Refusal :=
  if s.chain.relay && s.chain.upLock then .next ((s.setChain { s.chain with upLock := false, cstate := 0 }).chainEvent 1 6)
  else .next s

/-! Requests (R435). -/

/-- The response to a request. -/
def State.response (s : State) (f : List Byte) (code : BitVec 16) (payload : List Byte) : List Byte :=
  chainFrame (fSrc f) s.chainSrc 0x05 (fSeq f) code.toNat payload

/-- A package that holds an address answers, and keeps its last 16 answers. -/
def State.answer (s : State) (f : List Byte) (code : BitVec 16) (payload : List Byte) : State :=
  if s.ember.caddr.isSome then
    let r := s.response f code payload
    let l := s.chain.answered ++ [(BitVec.ofNat 8 (fSrc f), BitVec.ofNat 16 (fSeq f), r)]
    (s.setChain { s.chain with answered := l.drop (l.length - 16) }).sendFrame (decide (fSrc f = 0xFE)) r
  else s

/-- The stored response to a request that has been answered. -/
def State.answered? (s : State) (f : List Byte) : Option (List Byte) :=
  (s.chain.answered.find? fun x => decide (x.1.toNat = fSrc f ∧ x.2.1.toNat = fSeq f)).map fun x => x.2.2

/-- A frame of a row's own kind that is for the package: a broadcast is forwarded first; `act` does what it asks. -/
def State.onFrame (s : State) (f : List Byte) (mine : Bool) (act : State → State) : State :=
  if s.chain.relay && !decide (pgSvc ∈ s.rst.blocks) then
    if frameOk f then
      if mine && s.frameMine f then
        let s1 := s.frameIn true f
        act (if fDst f = 0xFF then s1.relayOn false f else s1)
      else s
    else s.frameIn true f
  else s

/-- A request: a repeated one gets the stored response and is not performed again (R435). -/
def State.request (s : State) (f : List Byte) (mine : Bool) (act : State → State × BitVec 16 × List Byte) : State :=
  s.onFrame f mine fun t =>
    match t.answered? f with
    | some r => (t.sendFrame (decide (fSrc f = 0xFE)) r).count pgSvc 4 1
    | none => let x := act t; x.1.answer f x.2.1 x.2.2

def State.ksts (s : State) : List Byte := leBytes 4 (s.viewPwr 0x100)

/-- Access size of a REG_RD or REG_WR (Table 17.6); none for the codes that it does not give. -/
def regSize (f : List Byte) : Option Nat :=
  match bits (fArg f) 63 62 with
  | 0 => some 4
  | 1 => some 8
  | _ => none

/-- REG_RD (R435, R412): at privilege S; a halted package answers with PWR_KSTS. -/
def execRegRd (frame : List Byte) (s : State) : Host.Outcome State Fault Refusal :=
  .next (s.request frame (decide (fType frame = 3)) fun t =>
    if t.kind.halt then (t, 0, t.ksts)
    else
      match regSize frame with
      | none => (t, eBusErr, [])
      | some n =>
        match t.readReg .s (fArg frame % 2 ^ 48) n with
        | (u, some v) => (u, 0, leBytes n v)
        | (u, none) => (u, eBusErr, []))

/-- REG_WR (R435): at privilege S, its data in the payload. -/
def execRegWr (frame : List Byte) (s : State) : Host.Outcome State Fault Refusal :=
  .next (s.request frame (decide (fType frame = 4)) fun t =>
    match regSize frame with
    | none => (t, eBusErr, [])
    | some n =>
      if fLen frame = n then
        let r := t.writeReg .s (fArg frame % 2 ^ 48) n (leVal (fPayload frame))
        (r.1, if r.2 then 0 else eBusErr, [])
      else (t, eBusErr, []))

/-- CHAIN_RESET (R436, R398). -/
def execChainReset (frame : List Byte) (s : State) : Host.Outcome State Fault Refusal :=
  .next (s.onFrame frame (decide (fType frame = 6)) fun t => t.assertSource (wideSource 4 (fArg frame % 2)))

/-- IMG (R452, R453): never answered. -/
def execImgFrame (frame : List Byte) (s : State) : Host.Outcome State Fault Refusal :=
  .next (s.onFrame frame (decide (fType frame = 7)) fun t =>
    t.takeImg (bit (fArg frame) 63) (fArg frame % 2 ^ 32) (fPayload frame))

/-- PING (R434, Table 17.6). -/
def execPing (frame : List Byte) (s : State) : Host.Outcome State Fault Refusal :=
  .next (s.request frame (decide (fType frame = 10)) fun t => (t, 0, t.ksts))

/-! FWCTL (R452, Table 18.5). -/

/-- The frame is a FWCTL of operation `op`. -/
def isFwctl (f : List Byte) (op : Nat) : Bool := decide (fType f = 8 ∧ fArg f % 256 = op)

/-- An operation that the running firmware performs or refuses with BUS_ERR. -/
def State.fwctl (s : State) (f : List Byte) (op : Nat) (act : State → Option State) : State :=
  s.request f (isFwctl f op) fun t =>
    if t.kind.halt || decide (t.pkgPhase < 6) then (t, eBusErr, [])
    else
      match act t with
      | some u => (u, 0, [])
      | none => (t, eBusErr, [])

/-- FWCTL_BEGIN (R453). -/
def execFwctlBegin (frame : List Byte) (s : State) : Host.Outcome State Fault Refusal :=
  .next (s.fwctl frame 1 fun t => t.fwBegin (bits (fArg frame) 23 8))

/-- FWCTL_STATUS (R452). -/
def execFwctlStatus (frame : List Byte) (s : State) : Host.Outcome State Fault Refusal :=
  .next (s.request frame (isFwctl frame 2) fun t => (t, 0, leBytes 4 t.fwSts ++ leBytes 4 t.fwStg))

/-- FWCTL_ACTIVATE (R455). -/
def execFwctlActivate (frame : List Byte) (s : State) : Host.Outcome State Fault Refusal :=
  .next (s.fwctl frame 3 fun t => t.fwActivate (fPayload frame))

/-- FWCTL_ABORT (R453). -/
def execFwctlAbort (frame : List Byte) (s : State) : Host.Outcome State Fault Refusal :=
  .next (s.fwctl frame 4 fun t => t.fwAbort)

/-- FWCTL_COMMIT (R457). -/
def execFwctlCommit (frame : List Byte) (s : State) : Host.Outcome State Fault Refusal :=
  .next (s.fwctl frame 5 fun t => t.fwCommit)

/-- FWCTL_SETWR (R459). -/
def execFwctlSetwr (frame : List Byte) (s : State) : Host.Outcome State Fault Refusal :=
  .next (s.fwctl frame 6 fun t => t.fwSetwr (fPayload frame))

end Sys2Proof.Machine
end

