-- ==== Sys2Proof/Machine/Credit.lean ====
section
/-! DEFINITION. Credits below the manager (R14, R327 to R331, R335): what a request still wants, the queues of hearth pools and die
stores, grants to engines, chunk requests, the timeout of a credit wait. -/

set_option Elab.async false

namespace Sys2Proof.Machine

/-- The group has a pass to run now, for which it asks a credit (R102, R156). -/
def State.passDue (s : State) (x : EngUnit) (c : Ctx) (e : Entry) (group : Nat) : Bool :=
  if x.eng = 1 then decide (group < 8) && s.ftaDue c e group
  else if x.eng = 2 then decide (group < 4) && s.bwaDue x c e group else false

/-- The descriptor at the window's head may start but for its credits (R14, R280). -/
def State.headDue (s : State) (u i : Nat) (c : Ctx) (e : Entry) : Bool :=
  (match (s.engine u).head with
    | some h => decide (h.1 = i)
    | none => false)
    && (s.blockFail u e).isNone && headerOk c e.hearth e.desc && (!hFence e.desc || decide (i = 0))
    && s.waitOk c e.hearth (hWait e.desc) (hCount e.desc) (hEpoch e.desc)

/-- The credits that entry `i` of window `u` asks for and does not hold: its class or fixed part, or a group's credit for a pass it
has to run (R102, R156, R330); 0 where it asks for none. -/
def State.entryWants (s : State) (x : EngUnit) (u i : Nat) (e : Entry) (group : Option Nat) : Nat :=
  match s.ctx? e.ctx with
  | none => 0
  | some c =>
    match group with
    | none => if !e.started && s.headDue u i c e then s.need c e - e.credits else 0
    | some g =>
      if e.started && e.ended.isNone && decide (0 < e.perPass) && !decide (g ∈ e.prog.held) && s.passDue x c e g then e.perPass
      else 0

/-- The prefetch wants the credit of DMA engine 7 of die `d`, which is to run pieces of it (R355, R330). -/
def State.prefetchDue (s : State) (d : Nat) (f : Prefetch) : Bool :=
  match s.ctx? f.ctx with
  | some c => decide (d ∈ f.dies c) && !decide (d ∈ f.held)
  | none => false

/-- The group number that marks the request of a prefetch; its address is the transfer's destination. -/
def prefetchGroup : Nat := 64

/-- What a request still wants: 0 for one whose descriptor or prefetch has gone or no longer waits. -/
def State.wants (s : State) (r : CreditReq) : Nat :=
  if r.group = some prefetchGroup then
    match s.unit r.u with
    | some x => b2n (s.prefetch.any fun f => decide (f.dst = r.addr) && s.prefetchDue x.die f)
    | none => 0
  else
  match s.unit r.u, (s.engine r.u).win.findIdx? fun e => decide (e.addr = r.addr) && e.ended.isNone with
  | some x, some i =>
    match s.entry? r.u i with
    | some e => s.entryWants x r.u i e r.group
    | none => 0
  | _, _ => 0

/-- The requests waiting at a hearth pool, oldest first (R329). -/
def State.poolReqs (s : State) (g : Nat) : List CreditReq :=
  (SMap.get s.drt.poolQ [] g).filter fun r => decide (0 < s.wants r)

/-- A hearth pool asks its die store for a block: its oldest request is more than it has free (R327). -/
def State.poolShort (s : State) (g : Nat) : Bool :=
  match s.poolReqs g with
  | r :: _ => decide (SMap.get s.drt.poolFree 0 g < s.wants r)
  | [] => false

/-- What a request at a die store wants: a block of 16, or a DMA descriptor's credits (R327). -/
def State.dieWants (s : State) (r : DieReq) : Nat :=
  match r with
  | .pool g => if s.poolShort g then 16 else 0
  | .dma q => s.wants q

/-- The requests waiting at a die store, oldest first (R329). -/
def State.dieReqs (s : State) (d : Nat) : List DieReq :=
  (SMap.get s.drt.dieQ [] d).filter fun r => decide (0 < s.dieWants r)

/-- A die store asks the manager for a chunk: its oldest request is more than it has free (R327). -/
def State.dieShort (s : State) (d : Nat) : Bool :=
  match s.dieReqs d with
  | r :: _ => decide (SMap.get s.drt.dieFree 0 d < s.dieWants r)
  | [] => false

/-- The queue with `r` behind those that wait already. -/
def queued {α : Type} [DecidableEq α] (l : List α) (r : α) : List α := if r ∈ l then l else l ++ [r]

def State.setPoolQ (s : State) (g : Nat) (l : List CreditReq) : State :=
  s.setDrt { s.drt with poolQ := SMap.put s.drt.poolQ [] g l }

def State.setDieQ (s : State) (d : Nat) (l : List DieReq) : State :=
  s.setDrt { s.drt with dieQ := SMap.put s.drt.dieQ [] d l }

/-- The request takes its place in the queue of its hearth pool, or of its die store for a DMA engine; answers whether it is the
oldest there (R327, R329). -/
def State.enqueue (s : State) (x : EngUnit) (r : CreditReq) : State × Bool :=
  if x.eng = 8 then
    let q := queued (s.dieReqs x.die) (.dma r)
    (s.setDieQ x.die q, decide (q.head? = some (.dma r)))
  else
    let q := queued (s.poolReqs x.g) r
    (s.setPoolQ x.g q, decide (q.head? = some r))

def State.dequeue (s : State) (x : EngUnit) (r : CreditReq) : State :=
  if x.eng = 8 then s.setDieQ x.die ((SMap.get s.drt.dieQ [] x.die).erase (.dma r))
  else s.setPoolQ x.g ((SMap.get s.drt.poolQ [] x.g).erase r)

/-- The credit of DMA engine 7 of a die for its pieces of prefetch `i` (R355), in its turn at the die store (R329). -/
def State.grantPrefetch (s : State) (x : EngUnit) (u i : Nat) : State :=
  match s.prefetch[i]? with
  | none => s
  | some f =>
    let r : CreditReq := { u := u, addr := f.dst, group := some prefetchGroup }
    if s.prefetchDue x.die f then
      let q := s.enqueue x r
      if !q.2 || decide (s.freeCredits x < 1) then q.1
      else
        let t := (q.1.dequeue x r).drawCredits x 1
        { t with prefetch := modifyAt t.prefetch i fun f => { f with held := f.held ++ [x.die] } }
    else s

/-- ENGINE_CREDIT_GRANT (R327, R14, R102, R156): index 8 and above on DMA engine 7 names a prefetch (R355). Otherwise the class or fixed part of the descriptor at the window's head whose wait is
met, or the credit of a lane group or row group of the running descriptor that has a pass to run. A request that is not the oldest
of its pool or store, or that is more than it has free, waits there (R329; log 131). -/
def execEngineCreditGrant (u idx group : Nat) (s : State) : Host.Outcome State Fault Refusal :=
  match s.unit u, s.entry? u idx with
  | some x, none =>
    .next (if s.ready && decide (x.eng = 8 ∧ x.inst = 7 ∧ 8 ≤ idx) then s.grantPrefetch x u (idx - 8) else s)
  | some x, some e =>
    let r : CreditReq := { u := u, addr := e.addr, group := if e.started then some group else none }
    let n := s.entryWants x u idx e r.group
    if !s.ready || decide (n = 0) then .next s
    else
      let q := s.enqueue x r
      if !q.2 || decide (s.freeCredits x < n) then .next q.1
      else
        let s1 := (q.1.dequeue x r).drawCredits x n
        if e.started then
          .next (s1.setEntry u idx fun e =>
            { e with credits := e.credits + n, prog := { e.prog with held := e.prog.held ++ [group] } })
        else
          let s2 := s1.setEntry u idx fun e => { e with credits := e.credits + n }
          let f := s2.takeFree 4
          .next (f.2.traceEntry x e 0x03 (f.1 ++ leBytes 4 n))
  | _, _ => .next s

/-- HEARTH_POOL_DRAW (R327): a block of 16 credits from the die store for a pool that cannot meet its oldest request, when that is
the oldest request of the store; else the pool waits there (R329). What the pool then holds above its cap returns (R328). -/
def execHearthPoolDraw (hearth : Nat) (s : State) : Host.Outcome State Fault Refusal :=
  let die := hearth / 48
  if !s.ready || !s.poolShort hearth then .next s
  else
    let q := queued (s.dieReqs die) (.pool hearth)
    let f := SMap.get s.drt.dieFree 0 die
    if decide (q.head? ≠ some (.pool hearth)) || decide (f < 16) then .next (s.setDieQ die q)
    else
      let s1 := s.setDieQ die q.tail
      .next ((s1.setDrt { s1.drt with dieFree := SMap.put s1.drt.dieFree 0 die (f - 16),
                                      poolFree := SMap.put s1.drt.poolFree 0 hearth (SMap.get s1.drt.poolFree 0 hearth + 16) }).capDie die)

/-- CHUNK_REQUEST (R327, R326): a die store that cannot meet its oldest request asks the manager; a request refused in recovery
is counted. -/
def execChunkRequest (die : Nat) (s : State) : Host.Outcome State Fault Refusal :=
  if s.ready && decide (die < 72) && s.hasDie die && !(decide (die ∈ s.drt.waiting)) && s.dieShort die then
    if s.drtRefuses then .next (s.isoResponse pgDrt)
    else
    let t := (s.setDrt { s.drt with waiting := s.drt.waiting ++ [die] }).serveOrSurge
    .next (if s.drt.rcv && decide (die ∈ t.drt.waiting) then t.count pgDrt 4 1 else t)
  else .next s

/-- DRAUGHT_TIMEOUT (R335, R336): a credit wait beyond DRT_CFG.TMO, once per descriptor. -/
def execDraughtTimeout (u idx : Nat) (s : State) : Host.Outcome State Fault Refusal :=
  match s.unit u, s.entry? u idx with
  | some x, some e =>
    match s.ctx? e.ctx with
    | none => .next s
    | some c =>
      let waits := (none :: (List.range 8).map some).any fun g => decide (0 < s.entryWants x u idx e g)
      if waits && !e.tmo && decide (bits (s.cfg pgDrt 0x108 1000).toNat 15 0 ≠ 0) then
        let s1 := (s.setEntry u idx fun e => { e with tmo := true }).count pgDrt 6 1
        .next (s1.event 0
        { etype := 0x08, res := .done, ctx := e.ctx, eng := x.eng, tag := hTag e.desc, err := eDrtTimeout,
          hearth := (c.localHearth e.hearth).getD 0xFFFF, unit := e.unitByte x, addr := 0, beat := s1.pkgBeat,
          data := leBytes 1 1 ++ zeros 3 ++ leBytes 4 s1.committed ++ leBytes 4 s1.drt.draw.toNat })
      else .next s
  | _, _ => .next s

end Sys2Proof.Machine
end

