-- ==== Sys2Proof/Machine/Service.lean ====
section
/-! DEFINITION. SMBus (R440) and JTAG (R441) of the service die. -/

set_option Elab.async false

namespace Sys2Proof.Machine

/-! SMBus. -/

/-- The JTAG IDCODE (Table 17.8). -/
def State.idcode (s : State) : Nat := if s.small then 0x19148B47 else 0x19172B47

/-- A transaction on the target's address: answered while VSTBY is good; with SMBEN = 0 the address is not acknowledged (R440,
R444). -/
def State.smbus (s : State) (o : Out) : State :=
  if s.supply.vstbyGood then
    if (s.cfg pgSvc 0x104 3).getLsbD 1 then
      let t := s.addOut o
      if t.active 277 then t.count pgSvc 6 1 else t
    else s.addOut .smbusNack
  else s

/-- The PEC of a Read Word (2 bytes) or Block Read (4, after their count) of command `code` at address 0x5C (R440, log 149). -/
def smbPec (code : Nat) (d : List Byte) : Byte :=
  crc8 ([0xB8, BitVec.ofNat 8 code, 0xB9] ++ (if d.length = 4 then [4] else []) ++ d)

/-- The answer to command `code`; a Read Byte has no PEC (R440). -/
def smbData (code : Nat) (d : List Byte) : Out := .smbus d (if d.length = 1 then none else some (smbPec code d))

/-- A command that the ember domain answers, also without VIN56. -/
def State.smbEmber (s : State) (code n v : Nat) : State := s.smbus (smbData code (leBytes n v))

/-- Every other command: all ones while VIN56 is not good or before K2; a halted package answers with PWR_KSTS (R412). -/
def State.smbMain (s : State) (code n v : Nat) : State :=
  let ones := !s.supply.vinGood || decide (s.kind.phase < 2)
  s.smbus (smbData code (leBytes n (if ones then 2 ^ 32 - 1 else if s.kind.halt then s.viewPwr 0x100 else v)))

/-- SMB_READ_VIN (R440). -/
def execSmbReadVin (s : State) : Host.Outcome State Fault Refusal := .next (s.smbMain 0x01 2 s.supply.vin.toNat)

/-- SMB_READ_VSTBY (R440). -/
def execSmbReadVstby (s : State) : Host.Outcome State Fault Refusal := .next (s.smbMain 0x02 2 s.supply.vstby.toNat)

/-- SMB_READ_TJ (R440). -/
def execSmbReadTj (s : State) : Host.Outcome State Fault Refusal := .next (s.smbMain 0x03 2 (s.viewPwr 0x108))

/-- SMB_READ_DRAW (R440). -/
def execSmbReadDraw (s : State) : Host.Outcome State Fault Refusal := .next (s.smbMain 0x04 4 (s.viewDrt 0x118))

/-- SMB_READ_BUDGET (R440). -/
def execSmbReadBudget (s : State) : Host.Outcome State Fault Refusal := .next (s.smbMain 0x05 4 (s.viewDrt 0x100))

/-- SMB_READ_KSTS (R440). -/
def execSmbReadKsts (s : State) : Host.Outcome State Fault Refusal := .next (s.smbMain 0x06 4 (s.viewPwr 0x100))

/-- SMB_READ_CAUSE (R440). -/
def execSmbReadCause (s : State) : Host.Outcome State Fault Refusal := .next (s.smbEmber 0x07 4 (s.viewRst 0x100))

/-- SMB_READ_RTOTAL (R440). -/
def execSmbReadRtotal (s : State) : Host.Outcome State Fault Refusal := .next (s.smbEmber 0x08 4 (s.viewRst 0x170))

/-- SMB_READ_STRAP (R440). -/
def execSmbReadStrap (s : State) : Host.Outcome State Fault Refusal := .next (s.smbEmber 0x09 2 (s.viewRst 0x180))

/-- SMB_READ_CADDR (R440). -/
def execSmbReadCaddr (s : State) : Host.Outcome State Fault Refusal := .next (s.smbEmber 0x0A 1 (s.viewRst 0x184))

/-- SMB_READ_RCNT (R440): causes 0 to 11. -/
def execSmbReadRcnt (c : Nat) (s : State) : Host.Outcome State Fault Refusal :=
  .next (if c < 12 then s.smbEmber (0x10 + c) 2 (s.viewRst (0x140 + 4 * c)) else s)

/-- SMB_READ_IDCODE (R440). -/
def execSmbReadIdcode (s : State) : Host.Outcome State Fault Refusal := .next (s.smbEmber 0x20 4 s.idcode)

/-- SMB_WRITE (R440): no write command is accepted, whatever its code. -/
def execSmbWrite (_code : Byte) (s : State) : Host.Outcome State Fault Refusal := .next (s.smbus .smbusNack)

/-! JTAG. -/

def State.setJtag (s : State) (j : Jtag) : State := { s with jtag := j }

/-- The service die, and the TAP on it, is powered. -/
def State.tapOn (s : State) : Bool := s.active (uncoreDom 98)

/-- An instruction is loaded into the TAP's instruction register. -/
def State.setIr (s : State) (c : Byte) : State := if s.tapOn then s.setJtag { s.jtag with ir := c } else s

/-- EXTEST (R441). -/
def execExtest (s : State) : Host.Outcome State Fault Refusal := .next (s.setIr 0x00)

/-- SAMPLE_PRELOAD (R441): the pins are sampled; the BSDL file gives the order of the cells, so what stands in them is free (log 10). -/
def execSamplePreload (s : State) : Host.Outcome State Fault Refusal :=
  if s.tapOn then
    let t := s.setIr 0x01
    .next { t.setJtag { t.jtag with bsr := Config.freeNat t.fresh } with fresh := t.fresh + 1 }
  else .next s

/-- IDCODE (R441): what its data register captures leaves the TAP. -/
def execIdcode (s : State) : Host.Outcome State Fault Refusal :=
  .next (if s.tapOn then (s.setIr 0x02).addOut (.read (BitVec.ofNat 64 s.idcode)) else s)

/-- BYPASS (R441): every code that Table 17.8 does not give acts as BYPASS. -/
def execBypass (code : Byte) (s : State) : Host.Outcome State Fault Refusal :=
  .next (if code = 0x00 ∨ code = 0x01 ∨ code = 0x02 ∨ code = 0x20 then s else s.setIr code)

/-- REGACC_UPDATE (R441): the access at privilege S, and its result for the next capture. -/
def execRegaccUpdate (dr : BitVec 83) (s : State) : Host.Outcome State Fault Refusal :=
  if s.tapOn then
    let t := s.setJtag { s.jtag with ir := 0x20, dr := dr }
    let v := dr.toNat
    let fin := fun (u : State) (err : Bool) (d : Option Word) => u.setJtag { u.jtag with res := some (err, d) }
    if (t.cfg pgSvc 0x104 3).getLsbD 0 then
      let a := v % 2 ^ 48
      if dr.getLsbD 80 then
        let r := t.writeReg .s a 4 (bits v 79 48)
        .next ((fin r.1 (!r.2) none).count pgSvc 7 1)
      else
        match t.readReg .s a 4 with
        | (u, some w) => .next ((fin u false (some (BitVec.ofNat 32 w))).count pgSvc 7 1)
        | (u, none) =>
          .next ((fin { u with fresh := u.fresh + 1 } true (some (BitVec.ofNat 32 (Config.freeNat u.fresh)))).count pgSvc 7 1)
    else .next (fin t true none)
  else .next s

/-- REGACC_CAPTURE (R441): DONE, ERR and the read data are loaded. -/
def execRegaccCapture (s : State) : Host.Outcome State Fault Refusal :=
  match s.jtag.res with
  | none => .next s
  | some (err, d) =>
    let v := s.jtag.dr.toNat % 2 ^ 81
    let w := match d with
      | some x => v / 2 ^ 80 * 2 ^ 80 + x.toNat * 2 ^ 48 + v % 2 ^ 48
      | none => v
    .next (s.setJtag { s.jtag with res := none, dr := BitVec.ofNat 83 (b2n err * 2 ^ 82 + 2 ^ 81 + w) })

end Sys2Proof.Machine
end

