-- ==== Sys2Proof/Machine/Dispatch.lean ====
section
/-! DEFINITION. The dispatch: one arm per command, each one direct call of its meaning. -/

namespace Sys2Proof.Machine

def exec (i : Instr) (s : State) : Host.Outcome State Fault Refusal :=
  match i with
  | .commandLineWrite addr line => Sys2Proof.Machine.execCommandLineWrite addr line s
  | .controlLineWrite q evCons => Sys2Proof.Machine.execControlLineWrite q evCons s
  | .ringAccessFail q which unreachable => Sys2Proof.Machine.execRingAccessFail q which unreachable s
  | .nopCommand q slot => Sys2Proof.Machine.execNopCommand q slot s
  | .qcreate q slot => Sys2Proof.Machine.execQcreate q slot s
  | .qdestroy q slot => Sys2Proof.Machine.execQdestroy q slot s
  | .ctxCreate q slot => Sys2Proof.Machine.execCtxCreate q slot s
  | .ctxDestroy q slot => Sys2Proof.Machine.execCtxDestroy q slot s
  | .ctxSave q slot => Sys2Proof.Machine.execCtxSave q slot s
  | .ctxRestore q slot => Sys2Proof.Machine.execCtxRestore q slot s
  | .stepCommand q slot => Sys2Proof.Machine.execStepCommand q slot s
  | .abortCommand q slot => Sys2Proof.Machine.execAbortCommand q slot s
  | .syncSig q slot => Sys2Proof.Machine.execSyncSig q slot s
  | .schedCancel q slot => Sys2Proof.Machine.execSchedCancel q slot s
  | .schedCkptCopy q slot => Sys2Proof.Machine.execSchedCkptCopy q slot s
  | .schedPrefetch q slot => Sys2Proof.Machine.execSchedPrefetch q slot s
  | .schedFreeze q slot => Sys2Proof.Machine.execSchedFreeze q slot s
  | .schedFwActivate q slot => Sys2Proof.Machine.execSchedFwActivate q slot s
  | .schedSyncSignal q slot => Sys2Proof.Machine.execSchedSyncSignal q slot s
  | .ckptCopy q slot => Sys2Proof.Machine.execCkptCopy q slot s
  | .scrub q slot => Sys2Proof.Machine.execScrub q slot s
  | .pageReqOpen q slot => Sys2Proof.Machine.execPageReqOpen q slot s
  | .pageReqFork q slot => Sys2Proof.Machine.execPageReqFork q slot s
  | .pageReqSeal q slot => Sys2Proof.Machine.execPageReqSeal q slot s
  | .pageReqGrow q slot => Sys2Proof.Machine.execPageReqGrow q slot s
  | .pageReqTrim q slot => Sys2Proof.Machine.execPageReqTrim q slot s
  | .pageReqFree q slot => Sys2Proof.Machine.execPageReqFree q slot s
  | .pageReqResume q slot => Sys2Proof.Machine.execPageReqResume q slot s
  | .pageReqSwapin q slot => Sys2Proof.Machine.execPageReqSwapin q slot s
  | .poolCompact q slot => Sys2Proof.Machine.execPoolCompact q slot s
  | .pageRefresh q slot => Sys2Proof.Machine.execPageRefresh q slot s
  | .tableRebuildOwnership q slot => Sys2Proof.Machine.execTableRebuildOwnership q slot s
  | .tableRebuildFuses q slot => Sys2Proof.Machine.execTableRebuildFuses q slot s
  | .fwStage q slot => Sys2Proof.Machine.execFwStage q slot s
  | .billetEnd => Sys2Proof.Machine.execBilletEnd s
  | .dispatchNop core => Sys2Proof.Machine.execDispatchNop core s
  | .issueWord core time => Sys2Proof.Machine.execIssueWord core time s
  | .issueAdmit u time => Sys2Proof.Machine.execIssueAdmit u time s
  | .waitWord core => Sys2Proof.Machine.execWaitWord core s
  | .waitRelease core => Sys2Proof.Machine.execWaitRelease core s
  | .signalWord core => Sys2Proof.Machine.execSignalWord core s
  | .drainComplete core => Sys2Proof.Machine.execDrainComplete core s
  | .waitbeatWord core => Sys2Proof.Machine.execWaitbeatWord core s
  | .loopWord core => Sys2Proof.Machine.execLoopWord core s
  | .jumpWord core => Sys2Proof.Machine.execJumpWord core s
  | .setbaseWord core => Sys2Proof.Machine.execSetbaseWord core s
  | .trapWord core => Sys2Proof.Machine.execTrapWord core s
  | .endWord core => Sys2Proof.Machine.execEndWord core s
  | .descriptorComplete u idx => Sys2Proof.Machine.execDescriptorComplete u idx s
  | .ftaTableProduct u => Sys2Proof.Machine.execFtaTableProduct u s
  | .ftaTva7200Product u => Sys2Proof.Machine.execFtaTva7200Product u s
  | .laneGroupPass u group => Sys2Proof.Machine.execLaneGroupPass u group s
  | .outputTileDrain u => Sys2Proof.Machine.execOutputTileDrain u s
  | .bwaProduct u => Sys2Proof.Machine.execBwaProduct u s
  | .rowGroupPass u group => Sys2Proof.Machine.execRowGroupPass u group s
  | .bwaTileRetire u => Sys2Proof.Machine.execBwaTileRetire u s
  | .storeClassChange u => Sys2Proof.Machine.execStoreClassChange u s
  | .fit u => Sys2Proof.Machine.execFit u s
  | .track u => Sys2Proof.Machine.execTrack u s
  | .widen u => Sys2Proof.Machine.execWiden u s
  | .wconv u => Sys2Proof.Machine.execWconv u s
  | .w12c u => Sys2Proof.Machine.execW12c u s
  | .act u => Sys2Proof.Machine.execAct u s
  | .actb u => Sys2Proof.Machine.execActb u s
  | .smx u => Sys2Proof.Machine.execSmx u s
  | .smxb u => Sys2Proof.Machine.execSmxb u s
  | .norm u => Sys2Proof.Machine.execNorm u s
  | .normb u => Sys2Proof.Machine.execNormb u s
  | .xent u => Sys2Proof.Machine.execXent u s
  | .emul u => Sys2Proof.Machine.execEmul u s
  | .bits u => Sys2Proof.Machine.execBits u s
  | .bern u => Sys2Proof.Machine.execBern u s
  | .rngWordRequest u => Sys2Proof.Machine.execRngWordRequest u s
  | .smpSample u => Sys2Proof.Machine.execSmpSample u s
  | .opt u => Sys2Proof.Machine.execOpt u s
  | .tiesum u => Sys2Proof.Machine.execTiesum u s
  | .xreAdd u => Sys2Proof.Machine.execXreAdd u s
  | .exportImage u => Sys2Proof.Machine.execExportImage u s
  | .retire u => Sys2Proof.Machine.execRetire u s
  | .reduce u => Sys2Proof.Machine.execReduce u s
  | .reduceLevelProceed u => Sys2Proof.Machine.execReduceLevelProceed u s
  | .pkgsum u => Sys2Proof.Machine.execPkgsum u s
  | .pkgsumGrant u addr fmt count => Sys2Proof.Machine.execPkgsumGrant u addr fmt count s
  | .pkgsumErrorFlit u => Sys2Proof.Machine.execPkgsumErrorFlit u s
  | .pkgsumChildArrival u child bytes dst => Sys2Proof.Machine.execPkgsumChildArrival u child bytes dst s
  | .pkgsumBroadcast u bytes => Sys2Proof.Machine.execPkgsumBroadcast u bytes s
  | .release u => Sys2Proof.Machine.execRelease u s
  | .dmaCopy u => Sys2Proof.Machine.execDmaCopy u s
  | .stream u => Sys2Proof.Machine.execStream u s
  | .streamChunk u => Sys2Proof.Machine.execStreamChunk u s
  | .kvread u => Sys2Proof.Machine.execKvread u s
  | .kvwrite u => Sys2Proof.Machine.execKvwrite u s
  | .pageAllocationRequest => Sys2Proof.Machine.execPageAllocationRequest s
  | .copyOnWrite => Sys2Proof.Machine.execCopyOnWrite s
  | .listRefresh ctx slot => Sys2Proof.Machine.execListRefresh ctx slot s
  | .phaseDone ctx => Sys2Proof.Machine.execPhaseDone ctx s
  | .reportMarker port copies => Sys2Proof.Machine.execReportMarker port copies s
  | .replay ctx => Sys2Proof.Machine.execReplay ctx s
  | .commitFinalise ctx => Sys2Proof.Machine.execCommitFinalise ctx s
  | .advanceMarker copies => Sys2Proof.Machine.execAdvanceMarker copies s
  | .setMarker copies => Sys2Proof.Machine.execSetMarker copies s
  | .rootMarkerRepeat => Sys2Proof.Machine.execRootMarkerRepeat s
  | .beatApply slot => Sys2Proof.Machine.execBeatApply slot s
  | .beatOutRepeat => Sys2Proof.Machine.execBeatOutRepeat s
  | .beatInFrame frame => Sys2Proof.Machine.execBeatInFrame frame s
  | .beatSourceLost => Sys2Proof.Machine.execBeatSourceLost s
  | .prefetchComplete idx => Sys2Proof.Machine.execPrefetchComplete idx s
  | .newFirmwareStart => Sys2Proof.Machine.execNewFirmwareStart s
  | .chunkRequest die => Sys2Proof.Machine.execChunkRequest die s
  | .chunkGrant die => Sys2Proof.Machine.execChunkGrant die s
  | .hearthPoolDraw hearth => Sys2Proof.Machine.execHearthPoolDraw hearth s
  | .engineCreditGrant u idx group => Sys2Proof.Machine.execEngineCreditGrant u idx group s
  | .creditReturn die => Sys2Proof.Machine.execCreditReturn die s
  | .surgeEnd => Sys2Proof.Machine.execSurgeEnd s
  | .recoveryEnd => Sys2Proof.Machine.execRecoveryEnd s
  | .sensorSample draw => Sys2Proof.Machine.execSensorSample draw s
  | .aclkHalveEnd => Sys2Proof.Machine.execAclkHalveEnd s
  | .sensorLimitWidenEnd => Sys2Proof.Machine.execSensorLimitWidenEnd s
  | .draughtTimeout u idx => Sys2Proof.Machine.execDraughtTimeout u idx s
  | .drtBudgetWrite prv val => Sys2Proof.Machine.execDrtBudgetWrite prv val s
  | .drtSurgeWrite prv val => Sys2Proof.Machine.execDrtSurgeWrite prv val s
  | .drtPrsvWrite prv k val => Sys2Proof.Machine.execDrtPrsvWrite prv k val s
  | .backgroundScrub cord line err => Sys2Proof.Machine.execBackgroundScrub cord line err s
  | .pgLockWrite prv pg val => Sys2Proof.Machine.execPgLockWrite prv pg val s
  | .unlockArmExpiry pg => Sys2Proof.Machine.execUnlockArmExpiry pg s
  | .pgCtlSrst prv pg => Sys2Proof.Machine.execPgCtlSrst prv pg s
  | .pgCtlPinj prv pg => Sys2Proof.Machine.execPgCtlPinj prv pg s
  | .pgCtlCntclr prv pg => Sys2Proof.Machine.execPgCtlCntclr prv pg s
  | .pgErrClear prv pg => Sys2Proof.Machine.execPgErrClear prv pg s
  | .pgIrqRawClear prv pg val => Sys2Proof.Machine.execPgIrqRawClear prv pg val s
  | .pgSnapWrite prv pg val => Sys2Proof.Machine.execPgSnapWrite prv pg val s
  | .snapshotCapture => Sys2Proof.Machine.execSnapshotCapture s
  | .parityScan pg upset => Sys2Proof.Machine.execParityScan pg upset s
  | .counterLowRead prv pg off => Sys2Proof.Machine.execCounterLowRead prv pg off s
  | .beatSlotLoRead prv k => Sys2Proof.Machine.execBeatSlotLoRead prv k s
  | .trcLoRead prv pg off => Sys2Proof.Machine.execTrcLoRead prv pg off s
  | .beatSlotWrite prv k hi val => Sys2Proof.Machine.execBeatSlotWrite prv k hi val s
  | .mgrAqCfgWrite prv val => Sys2Proof.Machine.execMgrAqCfgWrite prv val s
  | .registerWrite prv addr size val => Sys2Proof.Machine.execRegisterWrite prv addr size val s
  | .vin56Good sample => Sys2Proof.Machine.execVin56Good sample s
  | .vin56Lost sample => Sys2Proof.Machine.execVin56Lost sample s
  | .vstbyGood sample => Sys2Proof.Machine.execVstbyGood sample s
  | .vstbyLost sample => Sys2Proof.Machine.execVstbyLost sample s
  | .ember => Sys2Proof.Machine.execEmber s
  | .converters hot => Sys2Proof.Machine.execConverters hot s
  | .optionLoading bad => Sys2Proof.Machine.execOptionLoading bad s
  | .dieEnumeration missing unlocked => Sys2Proof.Machine.execDieEnumeration missing unlocked s
  | .stackTraining bad => Sys2Proof.Machine.execStackTraining bad s
  | .firmwareStart => Sys2Proof.Machine.execFirmwareStart s
  | .linkTraining upLock downLock => Sys2Proof.Machine.execLinkTraining upLock downLock s
  | .pwrDomWrite prv k val => Sys2Proof.Machine.execPwrDomWrite prv k val s
  | .domainTransitionDone k => Sys2Proof.Machine.execDomainTransitionDone k s
  | .rstnPin => Sys2Proof.Machine.execRstnPin s
  | .wrstnPin => Sys2Proof.Machine.execWrstnPin s
  | .hostLinkReset port => Sys2Proof.Machine.execHostLinkReset port s
  | .refclkLoss => Sys2Proof.Machine.execRefclkLoss s
  | .thermalTrip die temp => Sys2Proof.Machine.execThermalTrip die temp s
  | .tjWarning die temp => Sys2Proof.Machine.execTjWarning die temp s
  | .rstPartGo prv val => Sys2Proof.Machine.execRstPartGo prv val s
  | .rstDieGo prv val => Sys2Proof.Machine.execRstDieGo prv val s
  | .rstWdtkWrite prv val => Sys2Proof.Machine.execRstWdtkWrite prv val s
  | .watchdogTimeout => Sys2Proof.Machine.execWatchdogTimeout s
  | .rstRclrWrite prv val => Sys2Proof.Machine.execRstRclrWrite prv val s
  | .resetSourceRelease cause pg => Sys2Proof.Machine.execResetSourceRelease cause pg s
  | .clockQualified die clk => Sys2Proof.Machine.execClockQualified die clk s
  | .clockQualLoss die clk => Sys2Proof.Machine.execClockQualLoss die clk s
  | .flitReceive port flit corrected => Sys2Proof.Machine.execFlitReceive port flit corrected s
  | .nakReceive port ack => Sys2Proof.Machine.execNakReceive port ack s
  | .linkDetect port found => Sys2Proof.Machine.execLinkDetect port found s
  | .linkEqualiseDone port ok => Sys2Proof.Machine.execLinkEqualiseDone port ok s
  | .linkAlignDone port bad => Sys2Proof.Machine.execLinkAlignDone port bad s
  | .linkIdentifyDone port peer part rtt => Sys2Proof.Machine.execLinkIdentifyDone port peer part rtt s
  | .linkRetrainTimeout port => Sys2Proof.Machine.execLinkRetrainTimeout port s
  | .linkDownRetry port => Sys2Proof.Machine.execLinkDownRetry port s
  | .hlkCfgRetrain prv port => Sys2Proof.Machine.execHlkCfgRetrain prv port s
  | .hlkCfgEn prv port val => Sys2Proof.Machine.execHlkCfgEn prv port val s
  | .rdpCfgRetrain prv port => Sys2Proof.Machine.execRdpCfgRetrain prv port s
  | .rdpCfgEn prv port val => Sys2Proof.Machine.execRdpCfgEn prv port val s
  | .watchedLineSnoop addr => Sys2Proof.Machine.execWatchedLineSnoop addr s
  | .frameRelay fromUp frame => Sys2Proof.Machine.execFrameRelay fromUp frame s
  | .enumFrame fromUp frame => Sys2Proof.Machine.execEnumFrame fromUp frame s
  | .enumDone received => Sys2Proof.Machine.execEnumDone received s
  | .svcCfgEnum prv => Sys2Proof.Machine.execSvcCfgEnum prv s
  | .regRd frame => Sys2Proof.Machine.execRegRd frame s
  | .regWr frame => Sys2Proof.Machine.execRegWr frame s
  | .chainReset frame => Sys2Proof.Machine.execChainReset frame s
  | .imgFrame frame => Sys2Proof.Machine.execImgFrame frame s
  | .fwctlBegin frame => Sys2Proof.Machine.execFwctlBegin frame s
  | .fwctlStatus frame => Sys2Proof.Machine.execFwctlStatus frame s
  | .fwctlActivate frame => Sys2Proof.Machine.execFwctlActivate frame s
  | .fwctlAbort frame => Sys2Proof.Machine.execFwctlAbort frame s
  | .fwctlCommit frame => Sys2Proof.Machine.execFwctlCommit frame s
  | .fwctlSetwr frame => Sys2Proof.Machine.execFwctlSetwr frame s
  | .ping frame => Sys2Proof.Machine.execPing frame s
  | .chainUpPortLost => Sys2Proof.Machine.execChainUpPortLost s
  | .fwCtlCommit prv => Sys2Proof.Machine.execFwCtlCommit prv s
  | .fwCtlActnow prv => Sys2Proof.Machine.execFwCtlActnow prv s
  | .fwCtlAbort prv => Sys2Proof.Machine.execFwCtlAbort prv s
  | .smbReadVin => Sys2Proof.Machine.execSmbReadVin s
  | .smbReadVstby => Sys2Proof.Machine.execSmbReadVstby s
  | .smbReadTj => Sys2Proof.Machine.execSmbReadTj s
  | .smbReadDraw => Sys2Proof.Machine.execSmbReadDraw s
  | .smbReadBudget => Sys2Proof.Machine.execSmbReadBudget s
  | .smbReadKsts => Sys2Proof.Machine.execSmbReadKsts s
  | .smbReadCause => Sys2Proof.Machine.execSmbReadCause s
  | .smbReadRtotal => Sys2Proof.Machine.execSmbReadRtotal s
  | .smbReadStrap => Sys2Proof.Machine.execSmbReadStrap s
  | .smbReadCaddr => Sys2Proof.Machine.execSmbReadCaddr s
  | .smbReadRcnt c => Sys2Proof.Machine.execSmbReadRcnt c s
  | .smbReadIdcode => Sys2Proof.Machine.execSmbReadIdcode s
  | .smbWrite code => Sys2Proof.Machine.execSmbWrite code s
  | .extest => Sys2Proof.Machine.execExtest s
  | .samplePreload => Sys2Proof.Machine.execSamplePreload s
  | .idcode => Sys2Proof.Machine.execIdcode s
  | .bypass code => Sys2Proof.Machine.execBypass code s
  | .regaccUpdate dr => Sys2Proof.Machine.execRegaccUpdate dr s
  | .regaccCapture => Sys2Proof.Machine.execRegaccCapture s
  | .trcFctlGo prv val => Sys2Proof.Machine.execTrcFctlGo prv val s
  | .trcFctlThaw prv val => Sys2Proof.Machine.execTrcFctlThaw prv val s
  | .trcFctlSgo prv val => Sys2Proof.Machine.execTrcFctlSgo prv val s
  | .trcFctlSthaw prv val => Sys2Proof.Machine.execTrcFctlSthaw prv val s
  | .frznEdge => Sys2Proof.Machine.execFrznEdge s
  | .trcCtlWrite prv die val => Sys2Proof.Machine.execTrcCtlWrite prv die val s
  | .traceFlush die => Sys2Proof.Machine.execTraceFlush die s
  | .traceLineWrite die ok => Sys2Proof.Machine.execTraceLineWrite die ok s
  | .linkAlignmentLost port => Sys2Proof.Machine.execLinkAlignmentLost port s
  | .flashProgramDone => Sys2Proof.Machine.execFlashProgramDone s
  | .aperturePlacement sapb uapb => Sys2Proof.Machine.execAperturePlacement sapb uapb s

end Sys2Proof.Machine
end

