-- ==== Sys2Proof/Certificates/Slice0/Obligations.lean ====
section
/-! DEFINITION. The statements about the block, taken from the manual's numbered rules, and the few words they are said with.
Every statement is about every state; its hypotheses are about the state and the command's operands alone. -/

set_option Elab.async false

namespace Sys2Proof.Cert

open Sys2Proof.Machine

/-! What a command may change. -/

/-- The parts of the state beside the queue of waiting commands: its fields. -/
inductive Part where
  | fuses
  | shadow
  | pins
  | supply
  | ember
  | rst
  | kind
  | doms
  | lostClk
  | pages
  | ownBad
  | queues
  | order
  | rr
  | copies
  | held
  | ctxs
  | psync
  | psnap
  | lsync
  | lsnap
  | cores
  | engines
  | stores
  | lanes
  | shadows
  | drt
  | beat
  | sched
  | prefetch
  | pageReqs
  | mem
  | ue
  | ueSeen
  | scrubPos
  | ports
  | chain
  | jtag
  | flash
  | fw
  | trc
  | freeze
  | snapQ
  | out
  | fresh
  | drains
  | errs
  deriving DecidableEq, Repr

/-- Every part. -/
def Part.all : List Part :=
  [.fuses, .shadow, .pins, .supply, .ember, .rst, .kind, .doms, .lostClk, .pages, .ownBad, .queues,
   .order, .rr, .copies, .held, .ctxs, .psync, .psnap, .lsync, .lsnap, .cores, .engines, .stores,
   .lanes, .shadows, .drt, .beat, .sched, .prefetch, .pageReqs, .mem, .ue, .ueSeen, .scrubPos, .ports,
   .chain, .jtag, .flash, .fw, .trc, .freeze, .snapQ, .out, .fresh, .drains, .errs]

/-- Every part but those listed. -/
def Part.allBut (l : List Part) : List Part := Part.all.filter fun p => decide (p ∉ l)

/-- The part is the same in two states. -/
def Part.same (p : Part) (s t : State) : Prop :=
  match p with
  | .fuses => t.fuses = s.fuses
  | .shadow => t.shadow = s.shadow
  | .pins => t.pins = s.pins
  | .supply => t.supply = s.supply
  | .ember => t.ember = s.ember
  | .rst => t.rst = s.rst
  | .kind => t.kind = s.kind
  | .doms => t.doms = s.doms
  | .lostClk => t.lostClk = s.lostClk
  | .pages => t.pages = s.pages
  | .ownBad => t.ownBad = s.ownBad
  | .queues => t.queues = s.queues
  | .order => t.order = s.order
  | .rr => t.rr = s.rr
  | .copies => t.copies = s.copies
  | .held => t.held = s.held
  | .ctxs => t.ctxs = s.ctxs
  | .psync => t.psync = s.psync
  | .psnap => t.psnap = s.psnap
  | .lsync => t.lsync = s.lsync
  | .lsnap => t.lsnap = s.lsnap
  | .cores => t.cores = s.cores
  | .engines => t.engines = s.engines
  | .stores => t.stores = s.stores
  | .lanes => t.lanes = s.lanes
  | .shadows => t.shadows = s.shadows
  | .drt => t.drt = s.drt
  | .beat => t.beat = s.beat
  | .sched => t.sched = s.sched
  | .prefetch => t.prefetch = s.prefetch
  | .pageReqs => t.pageReqs = s.pageReqs
  | .mem => t.mem = s.mem
  | .ue => t.ue = s.ue
  | .ueSeen => t.ueSeen = s.ueSeen
  | .scrubPos => t.scrubPos = s.scrubPos
  | .ports => t.ports = s.ports
  | .chain => t.chain = s.chain
  | .jtag => t.jtag = s.jtag
  | .flash => t.flash = s.flash
  | .fw => t.fw = s.fw
  | .trc => t.trc = s.trc
  | .freeze => t.freeze = s.freeze
  | .snapQ => t.snapQ = s.snapQ
  | .out => t.out = s.out
  | .fresh => t.fresh = s.fresh
  | .drains => t.drains = s.drains
  | .errs => t.errs = s.errs

/-- The parts that a command may change: the host commands of a queue and their billets. -/
def hostChanges (c : Instr) : Option (List Part) :=
  match c with
  | .commandLineWrite ..
  | .qcreate .. => some [.pages, .queues, .order, .held, .mem]
  | .controlLineWrite ..
  | .nopCommand ..
  | .qdestroy .. => some [.pages, .queues, .held, .mem]
  | .ringAccessFail .. => some [.queues, .held, .mem]
  | .ctxCreate .. => some [.doms, .pages, .ownBad, .queues, .held, .ctxs, .psync, .psnap, .lsync, .lsnap, .lanes, .shadows,
      .drt, .mem, .ueSeen, .trc, .fresh]
  | .ctxDestroy .. => some [.doms, .pages, .ownBad, .queues, .copies, .held, .ctxs, .psync, .psnap, .lsync, .lsnap, .cores,
      .lanes, .shadows, .drt, .sched, .prefetch, .pageReqs, .mem, .trc, .freeze, .fresh]
  | .ctxSave ..
  | .pageRefresh .. => some [.pages, .queues, .rr, .held, .mem, .ue, .ueSeen, .errs]
  | .ctxRestore .. => some (Part.allBut [.fuses, .shadow, .pins, .supply, .ember, .rst, .kind, .lostClk, .engines, .stores,
      .pageReqs, .scrubPos, .ports, .chain, .jtag, .snapQ, .drains])
  | .stepCommand .. => some (Part.allBut [.fuses, .shadow, .pins, .supply, .ember, .rst, .kind, .lostClk, .ownBad, .rr,
      .lanes, .scrubPos, .ports, .chain, .jtag, .snapQ])
  | .abortCommand .. => some [.doms, .pages, .queues, .held, .ctxs, .psync, .lsync, .cores, .engines, .stores, .drt, .beat,
      .pageReqs, .mem, .ue, .ueSeen, .fw, .trc, .freeze, .fresh, .drains, .errs]
  | .syncSig .. => some [.pages, .queues, .held, .psync, .mem]
  | .schedCancel ..
  | .schedFwActivate .. => some [.pages, .queues, .held, .sched, .mem, .fw]
  | .schedCkptCopy ..
  | .schedPrefetch ..
  | .schedFreeze ..
  | .schedSyncSignal .. => some [.pages, .queues, .held, .sched, .mem]
  | .ckptCopy ..
  | .poolCompact .. => some [.pages, .queues, .rr, .held, .mem, .ue, .ueSeen, .fresh, .errs]
  | .scrub .. => some [.pages, .queues, .rr, .held, .mem, .errs]
  | .pageReqOpen ..
  | .pageReqFork ..
  | .pageReqSeal ..
  | .pageReqGrow ..
  | .pageReqTrim ..
  | .pageReqFree ..
  | .pageReqResume ..
  | .pageReqSwapin .. => some [.pages, .queues, .held, .mem, .ue, .ueSeen, .fresh, .errs]
  | .tableRebuildOwnership .. => some [.pages, .ownBad, .queues, .rr, .held, .mem]
  | .tableRebuildFuses .. => some [.shadow, .pages, .queues, .rr, .held, .mem]
  | .fwStage .. => some [.pages, .queues, .rr, .held, .mem, .ueSeen, .flash, .fw, .out, .fresh]
  | .billetEnd .. => some (Part.allBut [.fuses, .pins, .supply, .ember, .rst, .kind, .lostClk, .scrubPos, .ports, .chain,
      .jtag, .snapQ])
  | _ => none

/-- The parts that a command may change: the sequencers and the engines. -/
def engineChanges (c : Instr) : Option (List Part) :=
  match c with
  | .dispatchNop ..
  | .issueWord ..
  | .issueAdmit ..
  | .waitWord ..
  | .waitbeatWord ..
  | .loopWord ..
  | .jumpWord ..
  | .setbaseWord ..
  | .trapWord .. => some [.doms, .pages, .queues, .held, .ctxs, .cores, .engines, .stores, .drt, .beat, .pageReqs, .mem, .ue,
      .ueSeen, .trc, .freeze, .out, .fresh, .drains, .errs]
  | .waitRelease .. => some [.cores]
  | .signalWord ..
  | .endWord .. => some [.doms, .pages, .queues, .held, .ctxs, .psync, .lsync, .cores, .engines, .stores, .drt, .beat,
      .pageReqs, .mem, .ue, .ueSeen, .trc, .freeze, .out, .fresh, .drains, .errs]
  | .drainComplete .. => some [.pages, .queues, .held, .psync, .lsync, .cores, .mem]
  | .descriptorComplete .. => some (Part.allBut [.fuses, .shadow, .pins, .supply, .ember, .rst, .kind, .lostClk, .ownBad,
      .rr, .lanes, .scrubPos, .ports, .chain, .jtag, .snapQ])
  | .ftaTableProduct ..
  | .ftaTva7200Product ..
  | .bwaProduct ..
  | .xreAdd ..
  | .release .. => some [.pages, .queues, .held, .engines, .stores, .mem, .trc, .fresh, .drains]
  | .laneGroupPass ..
  | .rowGroupPass .. => some [.pages, .queues, .held, .engines, .stores, .drt, .mem, .fresh, .drains]
  | .outputTileDrain ..
  | .bwaTileRetire .. => some [.pages, .queues, .held, .engines, .stores, .mem, .ue, .ueSeen, .fresh, .drains, .errs]
  | .storeClassChange .. => some [.pages, .queues, .held, .engines, .stores, .mem, .ue, .ueSeen, .drains, .errs]
  | .fit ..
  | .widen ..
  | .wconv ..
  | .act ..
  | .actb ..
  | .smx ..
  | .smxb ..
  | .norm ..
  | .normb ..
  | .xent ..
  | .emul ..
  | .smpSample ..
  | .opt ..
  | .tiesum ..
  | .dmaCopy ..
  | .kvread .. => some [.pages, .queues, .held, .engines, .mem, .ue, .ueSeen, .trc, .fresh, .errs]
  | .track ..
  | .w12c .. => some [.pages, .queues, .held, .ctxs, .engines, .mem, .ue, .ueSeen, .trc, .fresh, .errs]
  | .bits ..
  | .bern .. => some [.pages, .queues, .held, .engines, .lanes, .mem, .ue, .ueSeen, .trc, .fresh, .errs]
  | .rngWordRequest .. => some [.pages, .queues, .held, .engines, .lanes, .mem]
  | .exportImage ..
  | .retire .. => some [.pages, .queues, .held, .engines, .stores, .mem, .ue, .ueSeen, .trc, .fresh, .drains, .errs]
  | .reduce ..
  | .stream .. => some [.pages, .queues, .held, .engines, .mem, .trc, .fresh]
  | .reduceLevelProceed .. => some [.pages, .queues, .held, .psync, .lsync, .engines, .stores, .mem, .ue, .ueSeen, .fresh,
      .drains, .errs]
  | .pkgsum .. => some [.pages, .queues, .held, .engines, .mem, .ue, .ueSeen, .ports, .trc, .out, .fresh, .errs]
  | .pkgsumGrant ..
  | .pkgsumChildArrival ..
  | .pkgsumBroadcast .. => some [.pages, .queues, .held, .engines, .mem, .ue, .ueSeen, .ports, .out, .fresh, .errs]
  | .pkgsumErrorFlit .. => some [.engines]
  | .streamChunk .. => some [.pages, .queues, .held, .psync, .lsync, .engines, .mem, .ue, .ueSeen, .fresh, .errs]
  | .kvwrite .. => some [.pages, .queues, .held, .engines, .pageReqs, .mem, .ue, .ueSeen, .trc, .fresh, .errs]
  | .pageAllocationRequest ..
  | .copyOnWrite .. => some [.pages, .queues, .held, .engines, .pageReqs, .mem, .ue, .ueSeen, .fresh, .errs]
  | .listRefresh .. => some [.mem, .ue, .ueSeen, .errs]
  | _ => none

/-- The parts that a command may change: the step, the beat and the draught. -/
def stepChanges (c : Instr) : Option (List Part) :=
  match c with
  | .phaseDone ..
  | .prefetchComplete .. => some (Part.allBut [.fuses, .shadow, .pins, .supply, .ember, .rst, .kind, .lostClk, .ownBad, .rr,
      .lanes, .scrubPos, .ports, .chain, .jtag, .snapQ])
  | .reportMarker .. => some (Part.allBut [.fuses, .shadow, .pins, .supply, .ember, .rst, .kind, .lostClk, .ownBad, .rr,
      .lanes, .scrubPos, .chain, .jtag, .snapQ])
  | .replay .. => some (Part.allBut [.fuses, .shadow, .pins, .supply, .ember, .rst, .kind, .lostClk, .ownBad, .rr, .scrubPos,
      .ports, .chain, .jtag, .snapQ])
  | .commitFinalise ..
  | .advanceMarker ..
  | .setMarker ..
  | .beatApply ..
  | .beatInFrame .. => some (Part.allBut [.pins, .supply, .ember, .rst, .kind, .lostClk, .ownBad, .rr, .lanes, .scrubPos,
      .ports, .chain, .jtag, .snapQ])
  | .rootMarkerRepeat ..
  | .beatOutRepeat .. => some [.pages, .queues, .held, .mem, .out]
  | .beatSourceLost .. => some [.queues, .held, .beat, .mem]
  | .newFirmwareStart .. => some (Part.allBut [.fuses, .shadow, .pins, .supply, .ember, .rst, .kind, .doms, .lostClk,
      .ownBad, .rr, .engines, .stores, .lanes, .drt, .pageReqs, .scrubPos, .ports, .chain, .jtag, .snapQ, .drains])
  | .chunkRequest ..
  | .creditReturn ..
  | .surgeEnd ..
  | .recoveryEnd .. => some [.pages, .queues, .held, .drt, .mem, .trc, .fresh]
  | .chunkGrant ..
  | .hearthPoolDraw ..
  | .aclkHalveEnd ..
  | .sensorLimitWidenEnd .. => some [.drt]
  | .engineCreditGrant .. => some [.pages, .queues, .held, .engines, .drt, .prefetch, .mem, .trc, .fresh]
  | .sensorSample .. => some [.pages, .queues, .held, .drt, .mem]
  | .draughtTimeout .. => some [.pages, .queues, .held, .engines, .mem]
  | _ => none

/-- The parts that a command may change: the register commands. -/
def registerChanges (c : Instr) : Option (List Part) :=
  match c with
  | .drtBudgetWrite ..
  | .drtSurgeWrite .. => some [.pages, .queues, .held, .drt, .mem, .trc, .out, .fresh]
  | .drtPrsvWrite .. => some [.pages, .queues, .held, .drt, .mem, .out]
  | .pgLockWrite ..
  | .counterLowRead ..
  | .beatSlotLoRead ..
  | .trcLoRead .. => some [.pages, .queues, .held, .mem, .out, .fresh]
  | .unlockArmExpiry .. => some [.pages]
  | .pgCtlSrst ..
  | .rstPartGo ..
  | .rstDieGo ..
  | .rstWdtkWrite .. => some (Part.allBut [.fuses, .shadow, .pins, .supply])
  | .pgCtlPinj ..
  | .pgCtlCntclr ..
  | .pgErrClear ..
  | .pgIrqRawClear .. => some [.pages, .queues, .held, .mem, .out]
  | .pgSnapWrite .. => some [.pages, .queues, .held, .mem, .snapQ, .out]
  | .snapshotCapture .. => some [.pages, .queues, .held, .mem, .snapQ]
  | .parityScan ..
  | .hlkCfgRetrain ..
  | .hlkCfgEn ..
  | .rdpCfgRetrain ..
  | .rdpCfgEn .. => some [.doms, .pages, .queues, .held, .ctxs, .cores, .engines, .stores, .drt, .beat, .pageReqs, .mem, .ue,
      .ueSeen, .ports, .trc, .freeze, .out, .fresh, .drains, .errs]
  | .beatSlotWrite .. => some (Part.allBut [.fuses, .shadow, .pins, .supply, .ember, .rst, .kind, .doms, .lostClk, .ownBad,
      .rr, .engines, .stores, .lanes, .drt, .pageReqs, .scrubPos, .ports, .chain, .jtag, .snapQ, .drains])
  | .mgrAqCfgWrite .. => some [.pages, .queues, .order, .held, .mem, .out]
  | .registerWrite .. => some (Part.allBut [.pins, .supply])
  | .pwrDomWrite .. => some [.doms, .pages, .queues, .held, .drt, .mem, .trc, .out, .fresh]
  | .rstRclrWrite .. => some [.ember, .pages, .queues, .held, .mem, .out]
  | .svcCfgEnum .. => some [.ember, .pages, .queues, .held, .mem, .chain, .out, .fresh]
  | .fwCtlCommit .. => some [.fuses, .shadow, .pages, .queues, .held, .mem, .flash, .fw, .out, .fresh]
  | .fwCtlActnow .. => some [.pages, .queues, .held, .sched, .mem, .flash, .fw, .out, .fresh]
  | .fwCtlAbort .. => some [.pages, .queues, .held, .mem, .fw, .out]
  | .trcFctlGo ..
  | .trcFctlThaw ..
  | .trcFctlSgo ..
  | .trcFctlSthaw .. => some [.pages, .queues, .held, .mem, .trc, .freeze, .out, .fresh]
  | .frznEdge .. => some [.pages, .queues, .held, .mem, .trc, .freeze, .fresh]
  | .trcCtlWrite .. => some [.pages, .queues, .held, .mem, .trc, .out, .fresh]
  | .traceFlush .. => some [.trc, .fresh]
  | .traceLineWrite .. => some [.pages, .queues, .held, .mem, .ue, .ueSeen, .trc, .errs]
  | _ => none

/-- The parts that a command may change: supplies, reset, kindling, links, chain, SMBus, JTAG and firmware. -/
def packageChanges (c : Instr) : Option (List Part) :=
  match c with
  | .backgroundScrub .. => some [.pages, .queues, .held, .mem, .ue, .scrubPos, .errs]
  | .vin56Good .. => some (Part.allBut [.fuses, .shadow, .pins, .order, .rr, .chain, .jtag, .flash, .fw, .snapQ])
  | .vin56Lost ..
  | .vstbyGood ..
  | .thermalTrip .. => some (Part.allBut [.fuses, .shadow, .pins])
  | .vstbyLost .. => some (Part.allBut [.fuses, .shadow, .pins, .flash, .out])
  | .ember .. => some [.kind]
  | .converters .. => some [.supply, .kind, .chain, .fresh]
  | .optionLoading .. => some (Part.allBut [.fuses, .pins, .supply, .rst, .flash, .out])
  | .dieEnumeration ..
  | .stackTraining .. => some (Part.allBut [.fuses, .shadow, .pins, .supply, .ember, .rst, .flash, .out])
  | .firmwareStart .. => some (Part.allBut [.fuses, .shadow, .pins, .supply, .rst])
  | .linkTraining .. => some [.ember, .kind, .queues, .held, .mem, .chain]
  | .domainTransitionDone .. => some (Part.allBut [.fuses, .shadow, .pins, .supply, .ember, .rst, .kind, .lostClk, .ownBad,
      .order, .rr, .copies, .psync, .sched, .prefetch, .chain, .jtag, .flash, .fw, .snapQ])
  | .rstnPin ..
  | .wrstnPin ..
  | .refclkLoss .. => some (Part.allBut [.fuses, .shadow, .supply])
  | .hostLinkReset ..
  | .watchdogTimeout ..
  | .chainReset .. => some (Part.allBut [.fuses, .shadow, .pins, .supply])
  | .tjWarning .. => some [.supply, .queues, .held, .mem]
  | .resetSourceRelease .. => some (Part.allBut [.fuses, .shadow, .supply, .order, .rr, .chain, .jtag, .flash, .fw, .snapQ])
  | .clockQualified .. => some (Part.allBut [.fuses, .shadow, .pins, .supply, .ember, .rst, .kind, .ownBad, .order, .rr,
      .copies, .psync, .psnap, .lsync, .lsnap, .lanes, .shadows, .sched, .prefetch, .chain, .jtag, .flash, .fw, .snapQ])
  | .clockQualLoss .. => some (Part.allBut [.fuses, .shadow, .pins, .supply, .ember, .rst, .kind, .ownBad, .rr, .lanes,
      .chain, .jtag, .snapQ])
  | .flitReceive ..
  | .nakReceive .. => some (Part.allBut [.fuses, .shadow, .pins, .supply, .ember, .rst, .kind, .lostClk, .ownBad, .rr,
      .lanes, .scrubPos, .chain, .jtag, .snapQ])
  | .linkDetect ..
  | .linkDownRetry ..
  | .linkAlignmentLost .. => some [.pages, .queues, .held, .mem, .ports, .trc, .fresh]
  | .linkEqualiseDone ..
  | .linkRetrainTimeout .. => some [.doms, .pages, .queues, .held, .ctxs, .cores, .engines, .stores, .drt, .beat, .pageReqs,
      .mem, .ue, .ueSeen, .ports, .trc, .freeze, .out, .fresh, .drains, .errs]
  | .linkAlignDone ..
  | .linkIdentifyDone .. => some [.doms, .pages, .queues, .order, .held, .ctxs, .cores, .engines, .stores, .drt, .beat,
      .pageReqs, .mem, .ue, .ueSeen, .ports, .trc, .freeze, .out, .fresh, .drains, .errs]
  | .watchedLineSnoop .. => some [.pages, .queues, .order, .held, .mem]
  | .frameRelay ..
  | .fwctlStatus ..
  | .ping .. => some [.pages, .queues, .held, .mem, .chain, .out]
  | .enumFrame .. => some [.ember, .pages, .queues, .held, .mem, .chain, .out, .fresh]
  | .enumDone ..
  | .regRd .. => some [.pages, .queues, .held, .mem, .chain, .out, .fresh]
  | .regWr ..
  | .regaccUpdate .. => some (Part.allBut [.pins, .supply])
  | .imgFrame .. => some [.pages, .queues, .held, .mem, .chain, .fw, .out, .fresh]
  | .fwctlBegin ..
  | .fwctlSetwr .. => some [.pages, .queues, .held, .mem, .chain, .flash, .fw, .out]
  | .fwctlActivate .. => some [.pages, .queues, .held, .sched, .mem, .chain, .flash, .fw, .out, .fresh]
  | .fwctlAbort .. => some [.pages, .queues, .held, .mem, .chain, .fw, .out]
  | .fwctlCommit .. => some [.fuses, .shadow, .pages, .queues, .held, .mem, .chain, .flash, .fw, .out, .fresh]
  | .chainUpPortLost .. => some [.queues, .held, .mem, .chain]
  | .smbReadVin ..
  | .smbReadVstby ..
  | .smbReadTj ..
  | .smbReadDraw ..
  | .smbReadBudget ..
  | .smbReadKsts ..
  | .smbReadCause ..
  | .smbReadRtotal ..
  | .smbReadStrap ..
  | .smbReadCaddr ..
  | .smbReadRcnt ..
  | .smbReadIdcode ..
  | .smbWrite .. => some [.pages, .queues, .held, .mem, .out]
  | .extest ..
  | .bypass ..
  | .regaccCapture .. => some [.jtag]
  | .samplePreload .. => some [.jtag, .fresh]
  | .idcode .. => some [.jtag, .out]
  | .flashProgramDone .. => some [.pages, .queues, .held, .mem, .flash, .fw, .out, .fresh]
  | .aperturePlacement .. => some [.pages]
  | _ => none

/-- Commands of a table change its parts alone. -/
def ChangesOnly (table : Instr → Option (List Part)) : Prop :=
  ∀ (c : Instr) (s t : State) (l : List Part) (p : Part), table c = some l → exec c s = .next t → p ∉ l → p.same s t

/-! What the record of the package's output, the free values and the fuses allow. -/

/-- Fuses are only blown: identity and digests stay, a revoked key stays revoked, the anti-rollback count does not fall (R450). -/
def fusesLater (a b : Fuses) : Prop :=
  b.part = a.part ∧ b.uid = a.uid ∧ b.digests = a.digests ∧ (∀ i, a.revoked.getLsbD i = true → b.revoked.getLsbD i = true)
    ∧ a.arb ≤ b.arb

/-- The commands in whose course a trial can be committed (R457): a commit by frame or register, and, with AUTOCOMMIT, the commands
that finalise the commit phase of a step. -/
def mayBlowFuses (c : Instr) : Bool :=
  match c with
  | .commitFinalise .. | .advanceMarker .. | .setMarker .. | .beatApply .. | .beatInFrame .. => true
  | .registerWrite .. | .regWr .. | .fwctlCommit .. | .fwCtlCommit .. | .regaccUpdate .. => true
  | _ => false

end Sys2Proof.Cert

open Sys2Proof Sys2Proof.Machine Sys2Proof.Cert

/-- Step: the command at the front of the queue takes effect with the queue's rest; an empty queue idles (the model's choice,
log 1). -/
def Obligations.StepRunsFrontCommand : Prop :=
  (∀ (c : Instr) (r : List Instr) (s : State), s.pending = c :: r → step s = exec c { s with pending := r })
    ∧ ∀ s : State, s.pending = [] → step s = .next s

/-- Every command answers a next state, leaves the commands that wait, takes nothing back that has left the package, and takes
free values only forward. -/
def Obligations.EveryCommandAnswersNext : Prop :=
  ∀ (c : Instr) (s : State), ∃ t, exec c s = .next t ∧ t.pending = s.pending ∧ s.out <+: t.out ∧ s.fresh ≤ t.fresh

/-- The memory's canonical form is kept by every step. -/
def Obligations.StepKeepsMemoryForm : Prop :=
  ∀ s t : State, Memory.wf s.mem = true → step s = .next t → Memory.wf t.mem = true

/-- The canonical form holds right after reset, where memory lists nothing. -/
def Sys2Proof.Cert.ResetMeetsMemoryForm : Prop :=
  Memory.wf State.reset.mem = true ∧ State.reset.mem = [] ∧ State.reset.pending = []

/-- No step unblows a fuse, and only the commands that can commit a trial blow any (R450, R457). -/
def Obligations.StepOnlyBlowsFuses : Prop :=
  ∀ s t : State, step s = .next t →
    fusesLater s.fuses t.fuses ∧ (∀ c r, s.pending = c :: r → mayBlowFuses c = false → t.fuses = s.fuses)

/-- Frame of the host commands and their billets: every part of the state that the command does not name is unchanged. -/
def Obligations.FrameOfHostCommands : Prop := ChangesOnly hostChanges

/-- Frame of the sequencer and engine commands. -/
def Obligations.FrameOfEngineCommands : Prop := ChangesOnly engineChanges

/-- Frame of the step, beat and draught commands. -/
def Obligations.FrameOfStepCommands : Prop := ChangesOnly stepChanges

/-- Frame of the register commands. -/
def Obligations.FrameOfRegisterCommands : Prop := ChangesOnly registerChanges

/-- Frame of the package commands: supplies, reset, kindling, links, chain, SMBus, JTAG and firmware. -/
def Obligations.FrameOfPackageCommands : Prop := ChangesOnly packageChanges

namespace Sys2Proof.Cert

/-! Words for operands that can be reached. -/

/-- `n` bytes from `a`, as agent `w` names them, can be reached: each address resolves, and none lies in an uncorrectable unit (R17,
R346, R395, R461). -/
def Open (s : State) (w : Who) (a n : Nat) : Prop := ∀ k < n, ∃ p, s.resolve w (a + k) = .ok p ∧ s.isUe p = false

/-- Byte `a` lies in the event ring of a queue. -/
def inRing (x : Queue) (a : Nat) : Prop :=
  ∃ k < 2 ^ x.logEv, (x.ev + BitVec.ofNat 48 (64 * k)).toNat ≤ a ∧ a < (x.ev + BitVec.ofNat 48 (64 * k)).toNat + 64

/-- Two named ranges share no byte of memory, however they are named (R342). -/
def Apart (s : State) (w : Who) (x y : Nat × Nat) : Prop :=
  ∀ i < x.2, ∀ j < y.2, ∀ p, s.resolve w (x.1 + i) = .ok p → s.resolve w (y.1 + j) ≠ .ok p

/-- No byte of a named range lies in the event ring of a queue. -/
def OffRing (s : State) (w : Who) (q : Queue) (x : Nat × Nat) : Prop := ∀ i < x.2, ∀ p, s.resolve w (x.1 + i) = .ok p → ¬ inRing q p

/-- Entry `i` of unit `u`'s window has ended with `st`. -/
def Ended (s : State) (u i : Nat) (e : Entry) (st : Status) : Prop := ((s.engine u).win.getD i e).ended = some st

end Sys2Proof.Cert

namespace Sys2Proof.Cert

/-! Words for the key-value cache. -/

/-- Ranges that agent `w` names: all within its reach, no two of them with a byte in common, none in the event ring of queue `x` or of the
admin queue. -/
structure Laid (s : State) (w : Who) (x : Queue) (l : List (Nat × Nat)) : Prop where
  reach : ∀ z ∈ l, Open s w z.1 z.2
  apart : l.Pairwise (Apart s w)
  off : ∀ z ∈ l, OffRing s w (s.queue 0) z ∧ OffRing s w x z

/-- The page pool of a sequence table (Tables 10.3 and 10.4): its record gives `np` pages, their data, their words and the ring, each
place of which names one of the pages; none in KVMODE 0. -/
structure PoolOk (s : State) (w : Who) (q : Seqt) (np data mta ring : Nat) : Prop where
  dataAt : s.pool w q 0 6 = .ok data
  wordsAt : s.pool w q 6 6 = .ok mta
  ringAt : s.pool w q 12 6 = .ok ring
  pages : s.pool w q 18 4 = .ok np
  some : 1 ≤ np
  few : np ≤ pageNone
  named : ∀ k < np, ∃ n < np, s.readVal w (ring + 4 * k) 4 = .ok n

/-- The parts of a pool: its record, the words of its pages, the ring, the pages. -/
def poolParts (q : Seqt) (np data mta ring : Nat) : List (Nat × Nat) := [(q.pool, 64), (mta, 8 * np), (ring, 4 * np), (data, 65536 * np)]

/-- What a sequence's record names: the page list of KVMODE 1, the region of KVMODE 0 (R238, R242). -/
def seqPart (q : Seqt) (r : SeqRec) : Nat × Nat :=
  if q.mode = 0 then (r.base, 2 * q.nlh * r.cap * q.rb) else (r.base, 8 * (q.nlh * r.cap))

/-- The cache of table `q` is in order for the sequences `rs`: table, pool, and what the records name lie within reach and apart from
each other and from `more`. -/
structure CacheOk (s : State) (w : Who) (x : Queue) (q : Seqt) (rs : List SeqRec) (more : List (Nat × Nat)) : Prop where
  mode : q.mode ≤ 1
  flat : q.mode = 0 → Laid s w x ((q.base, 64 + 64 * q.nseqt) :: rs.map (seqPart q) ++ more)
  paged : q.mode = 1 → ∃ np data mta ring, PoolOk s w q np data mta ring
    ∧ Laid s w x ((q.base, 64 + 64 * q.nseqt) :: poolParts q np data mta ring ++ rs.map (seqPart q) ++ more)

/-- The parts of a key-value descriptor: its work list and its buffer (R257, R258). -/
def kvParts (e : Entry) (q : Seqt) : List (Nat × Nat) :=
  [(kvEnt e 0, 8 * kvNe e.desc), (kvBuf e, 2 * kvNe e.desc * kvNpos e.desc * q.rb)]

/-- What a key-value descriptor works on is in order: `rs` are the records of the slots below NSEQT that its work list names. -/
structure WorkOk (s : State) (c : Ctx) (e : Entry) (q : Seqt) (rs : List SeqRec) : Prop where
  recs : ∀ b < kvNe e.desc, ∀ v, s.rd c (kvEnt e b) 8 = .ok v → v % 2 ^ 20 < q.nseqt →
    ∃ r ∈ rs, s.seqRec (.desc c) q (v % 2 ^ 20) = .ok r
  cache : CacheOk s (.desc c) (s.queue c.queue) q rs (kvParts e q)

/-- How often the list of head `lh` names page `n`. -/
def timesNamed (s : State) (w : Who) (q : Seqt) (r : SeqRec) (lh n : Nat) : Nat :=
  ((List.range r.cap).filter fun i => match s.entAt w q r lh i with
    | .ok (.page k _) => decide (k = n)
    | _ => false).length

/-- The page that the ring offers next is not page `p` (R239). -/
def NextPageNot (s : State) (w : Who) (q : Seqt) (p : Nat) : Prop :=
  ∀ np head ring n, s.pool w q 18 4 = .ok np → s.pool w q 22 4 = .ok head → s.pool w q 12 6 = .ok ring →
    s.readVal w (ring + 4 * (head % max 1 np)) 4 = .ok n → n ≠ p

/-- Free pages of the pool (NFREE). -/
def freePages (s : State) (w : Who) (q : Seqt) (n : Nat) : Prop := s.pool w q 26 4 = .ok n

end Sys2Proof.Cert

namespace Sys2Proof.Cert

/-! Words for the host commands. -/

/-- The accepted command `k` of queue `q` is the immediate command whose turn it is, and names a context it may name (R288, R295). -/
structure Served (s : State) (q slot : Nat) (k : Cmd) : Prop where
  serving : s.serving = true
  next : s.nextImm = some (q, k)
  slot : k.slot = slot
  ctx : s.ctxFieldOk (s.queue q) k.line = true

/-- The accepted command `k` of queue `q` is the billeted command whose turn it is, and may start or has started; no immediate command
that may start is left before it (R288, R295). -/
structure Turn (s : State) (q slot : Nat) (k : Cmd) : Prop where
  serving : s.serving = true
  imm : s.nextImm = none
  next : s.nextBillet = some (.cmd q k)
  slot : k.slot = slot
  ctx : k.started = true ∨ s.ctxFieldOk (s.queue q) k.line = true

/-- Byte `a` lies in the completion line of a slot. -/
def inCompletion (x : Queue) (slot a : Nat) : Prop :=
  (x.cpl + BitVec.ofNat 48 (64 * slot)).toNat ≤ a ∧ a < (x.cpl + BitVec.ofNat 48 (64 * slot)).toNat + 64

/-- The parts of a queue that a QCREATE may not lay over each other or over another queue's. -/
def ringsFree (s : State) (x : Queue) : Prop :=
  x.selfOverlap = false ∧ (∀ p ∈ s.queues, p.2.live = true → ∀ a ∈ p.2.ranges, ∀ b ∈ x.ranges, overlap a b = false)
    ∧ ∀ r ∈ x.ranges, r.1 + r.2 ≤ 0x1000000000000

/-- The sequence table that a PAGE_REQ of context `c` works on. -/
structure Table (s : State) (l : List Byte) (c : Ctx) (t : Seqt) : Prop where
  ctx : s.ctx? (cCtx l) = some c
  has : blkSeqt c.block ≠ 0
  table : s.seqt (.service c) (blkSeqt c.block) = .ok t
  slot : fld l 12 4 < t.nseqt

/-- A completion line's command, with the hosts' links up and the queue running. -/
structure CanComplete (s : State) (q slot : Nat) (c : Cmd) : Prop where
  cmd : s.cmd? q slot = some c
  up : s.hostUp = true
  runs : (s.queue q).stopped = false

end Sys2Proof.Cert

/-- COMMAND_LINE_WRITE: a line that the host writes into no queue's slot H is stored; one in slot H of a live queue is seen, and the
queue's commands are accepted from it on. A line with the expected phase is accepted: the command is listed with its slot and
line, H steps on, and PHASE turns over behind the ring's last slot. -/
def Obligations.CommandLineWriteIsAccepted : Prop :=
  (∀ (s : State) (a : Addr) (line : List Byte), line.length = 64 → hostAligned a.toNat = true →
      (s.setBytes a.toNat line).watchedBy a.toNat = none → exec (.commandLineWrite a line) s = .next (s.setBytes a.toNat line))
    ∧ (∀ (s : State) (a : Addr) (line : List Byte) (q : Nat), line.length = 64 → hostAligned a.toNat = true → s.hostUp = true →
        s.watchedBy a.toNat = some q →
        exec (.commandLineWrite a line) s = .next ((s.setBytes a.toNat line).cohEvent.pollQueue (2 ^ (s.queue q).logN) q))
    ∧ ∀ (s : State) (q : Nat), (s.queue q).live = true → (s.queue q).stopped = false → (s.queue q).closing = false →
        s.hostUp = true → s.serving = true →
        cPhase (s.bytes ((s.queue q).slotAddr (s.queue q).head) 64) = (s.queue q).phase →
        ∃ t, s.acceptOne q = some t ∧ t.order = s.order + 1
          ∧ (t.queue q).head = (if (s.queue q).head + 1 = 2 ^ (s.queue q).logN then 0 else (s.queue q).head + 1)
          ∧ (t.queue q).phase = (if (s.queue q).head + 1 = 2 ^ (s.queue q).logN then !(s.queue q).phase else (s.queue q).phase)
          ∧ ((s.queue q).refuses q (s.bytes ((s.queue q).slotAddr (s.queue q).head) 64) = false →
              (t.queue q).cmds = (s.queue q).cmds ++
                [{ slot := (s.queue q).head, line := s.bytes ((s.queue q).slotAddr (s.queue q).head) 64, order := s.order,
                   started := false, pos := 0, count := 0, aux := 0 }])

/-- CONTROL_LINE_WRITE: the host's control line is stored, and the queue sees EV_CONS; a queue that has stopped does not. -/
def Sys2Proof.Cert.ControlLineWriteFreesRecords : Prop :=
  ∀ (s : State) (q : Nat) (v : Word), (s.queue q).live = true → s.hostUp = true →
    ∃ t : State, exec (.controlLineWrite q v) s = .next t
      ∧ ((s.queue q).stopped = false → (t.queue q).evCons = v)
      ∧ ((s.queue q).stopped = true → t.queue q = s.queue q)
      ∧ ∀ i < 64, ¬ inRing (s.queue 0) ((s.queue q).ctl.toNat + i) →
          t.byte ((s.queue q).ctl.toNat + i) = (leBytes 4 v.toNat ++ zeros 60).getD i 0

/-- RING_ACCESS_FAIL: the queue stops; a queue other than the admin queue is reported on the admin queue by an ETYPE 0x11 event with
the line's address, FAILED and BUS_ERR or MEM_UE. -/
def Sys2Proof.Cert.RingAccessFailStopsQueue : Prop :=
  (∀ (s : State) (w : RingLine) (u : Bool), (s.queue 0).live = true → (s.queue 0).stopped = false → s.hostUp = true →
      exec (.ringAccessFail 0 w u) s = .next (s.setQueue 0 { s.queue 0 with stopped := true }))
    ∧ ∀ (s : State) (q : Nat) (w : RingLine) (u : Bool), q ≠ 0 → (s.queue q).live = true → (s.queue q).stopped = false →
        s.hostUp = true → ∃ t : State, exec (.ringAccessFail q w u) s = .next t ∧ (t.queue q).stopped = true
          ∧ t = (s.setQueue q { s.queue q with stopped := true }).event 0
              { etype := 0x11, res := .failed, ctx := 0xFF, eng := 0, tag := 0, err := if u then eBusErr else eMemUe,
                hearth := 0xFFFF, unit := 0, addr := (s.queue q).failLine w,
                beat := (s.setQueue q { s.queue q with stopped := true }).pkgBeat, data := leBytes 1 q }

/-- Records and completion lines stay in their places: an event record writes the queue's own event ring alone, a counter only the
admin queue's, a completion its slot's line and the queue's event ring. -/
def Sys2Proof.Cert.RecordsStayInTheirRings : Prop :=
  (∀ (s : State) (q : Nat) (r : EventRec) (a : Nat), ¬ inRing (s.queue q) a → (s.event q r).byte a = s.byte a)
    ∧ (∀ (s : State) (pg i n a : Nat), ¬ inRing (s.queue 0) a → (s.count pg i n).byte a = s.byte a)
    ∧ ∀ (s : State) (q slot : Nat) (res : Result) (err : BitVec 16) (addr : Addr) (result : List Byte) (a : Nat),
        ¬ inRing (s.queue q) a → ¬ inCompletion (s.queue q) slot a → (s.complete q slot res err addr result).byte a = s.byte a

/-- A completed command has its completion line in the ring slot of its command, with the command's PHASE, TAG and OPC, the outcome,
error, address, beat and result of Table 11.4; it is then no longer uncompleted, and its TAG is the slot's last completed one. -/
def Sys2Proof.Cert.CompletionWritesItsLine : Prop :=
  ∀ (s : State) (q slot : Nat) (res : Result) (err : BitVec 16) (addr : Addr) (result : List Byte) (c : Cmd),
    CanComplete s q slot c → cIrq c.line = false → (s.queue q).closing = false →
    (∀ i < 64, (s.complete q slot res err addr result).byte (((s.queue q).cpl + BitVec.ofNat 48 (64 * slot)).toNat + i)
        = (completionLine c.line res err addr (s.cmdBeat (cCtx c.line)) result).getD i 0)
    ∧ (∀ k ∈ ((s.complete q slot res err addr result).queue q).cmds, k.slot ≠ slot)
    ∧ SMap.get ((s.complete q slot res err addr result).queue q).lastTag 0 slot = (cTag c.line).toNat + 1

/-- NOP, QCREATE and QDESTROY complete with DONE. QCREATE makes queue QID live with the rings its line names and reads its first
commands; QDESTROY of a queue with nothing uncompleted destroys it, and otherwise closes it and waits. -/
def Sys2Proof.Cert.QueueCommandsComplete : Prop :=
  (∀ (s : State) (q slot : Nat) (k : Cmd), Served s q slot k → cOpc k.line = 0x01 →
      exec (.nopCommand q slot) s = .next (s.done q slot []))
    ∧ (∀ (s : State) (q slot : Nat) (k : Cmd), Served s q slot k → cOpc k.line = 0x02 → (s.queue (fld k.line 8 1)).live = false →
        ringsFree s (queueOf k.line) → ((queueOf k.line).ownU = true → ∃ c, s.ctx? (queueOf k.line).octx = some c) →
        exec (.qcreate q slot) s = .next (((s.setQueue (fld k.line 8 1) (queueOf k.line)).done q slot []).pollQueue
          (2 ^ fld k.line 9 1) (fld k.line 8 1)))
    ∧ (∀ (s : State) (q slot : Nat) (k : Cmd), Served s q slot k → cOpc k.line = 0x03 → k.aux ≠ 1 → fld k.line 8 1 ≠ q →
        (s.queue (fld k.line 8 1)).live = true → (s.queue (fld k.line 8 1)).cmds = [] →
        ∃ t : State, exec (.qdestroy q slot) s = .next t ∧ t.queue (fld k.line 8 1) = Queue.none)
    ∧ ∀ (s : State) (q slot : Nat) (k : Cmd), Served s q slot k → cOpc k.line = 0x03 → k.aux ≠ 1 → fld k.line 8 1 ≠ q →
        (s.queue (fld k.line 8 1)).live = true → (s.queue (fld k.line 8 1)).cmds ≠ [] →
        ∃ t : State, exec (.qdestroy q slot) s = .next t
          ∧ t.queue (fld k.line 8 1) = { s.queue (fld k.line 8 1) with closing := true }

/-- CTX_CREATE makes the context of a good block live under the lowest free identifier and answers it; CTX_DESTROY, once nothing of
the context runs, ends it. -/
def Sys2Proof.Cert.ContextCommandsComplete : Prop :=
  (∀ (s : State) (q slot : Nat) (k : Cmd) (b : List Byte) (id : Nat), Served s q slot k → cOpc k.line = 0x04 →
      s.read .cmdHost (fld k.line 8 6) 512 = .ok b → s.ctxBlockOk b = true → s.freeCtxId = some id →
      s.blkSeqtOk (s.newCtx b q) = .ok true →
      exec (.ctxCreate q slot) s = .next ((s.makeLive id (s.newCtx b q)).done q slot (ctxResult id (s.newCtx b q).syncBase)))
    ∧ ∀ (s : State) (q slot : Nat) (k : Cmd) (c : Ctx), Served s q slot k → cOpc k.line = 0x05 → s.ctx? (cCtx k.line) = some c →
        exec (.ctxDestroy q slot) s = .next ((s.endCtx (cCtx k.line) c).done q slot [])

/-- A created context is live under its identifier, and an ended one is not. -/
def Sys2Proof.Cert.ContextsBecomeLiveAndEnd : Prop :=
  (∀ (s : State) (id : Nat) (c : Ctx), ∃ x, (s.makeLive id c).ctx? id = some x ∧ x.block = c.block ∧ x.slot = c.slot)
    ∧ ∀ (s : State) (id : Nat) (c : Ctx), (s.endCtx id c).ctx? id = none

/-- ABORT has exactly one outcome: a target that has completed answers DONE_BEFORE_ABORT; a running STEP whose commit is decided
does too; a STEP that does not wait for its root is aborted: its cores stand still, its context has no step and runs it again; one that
waits keeps the ABORT until the root has answered (R501). Any other target leaves its queue, with a completion line of its own. -/
def Obligations.AbortDecidesItsTarget : Prop :=
  ∀ (s : State) (q slot : Nat) (k : Cmd), Served s q slot k → cOpc k.line = 0x09 → s.mayAbort q (fld k.line 8 1) = true →
    ((s.queue (fld k.line 8 1)).cmds.find? (fun c => decide (c.slot = fld k.line 10 2 ∧ cTag c.line = BitVec.ofNat 32 (fld k.line 12 4)
          ∧ ¬ (fld k.line 8 1 = q ∧ fld k.line 10 2 = k.slot))) = none →
        SMap.get (s.queue (fld k.line 8 1)).lastTag 0 (fld k.line 10 2) = (BitVec.ofNat 32 (fld k.line 12 4)).toNat + 1 →
        exec (.abortCommand q slot) s = .next (s.complete q slot .doneBeforeAbort 0 0 []))
    ∧ ∀ c, (s.queue (fld k.line 8 1)).cmds.find? (fun c => decide (c.slot = fld k.line 10 2
          ∧ cTag c.line = BitVec.ofNat 32 (fld k.line 12 4) ∧ ¬ (fld k.line 8 1 = q ∧ fld k.line 10 2 = k.slot))) = some c →
        (s.stepOf (fld k.line 8 1) (fld k.line 10 2) = none →
          ∃ u : State, exec (.abortCommand q slot) s = .next (u.done q slot []) ∧ u = s.abortTarget (fld k.line 8 1) c
            ∧ ∀ d ∈ (u.queue (fld k.line 8 1)).cmds, d.slot ≠ fld k.line 10 2)
        ∧ ∀ ctx x r, s.stepOf (fld k.line 8 1) (fld k.line 10 2) = some (ctx, x, r) →
          (r.decided = true → exec (.abortCommand q slot) s = .next (s.complete q slot .doneBeforeAbort 0 0 []))
          ∧ (r.decided = false → s.awaitsRoot x r = false → s.ctx? ctx = some x →
              ∃ (u : State) (y : Ctx), exec (.abortCommand q slot) s = .next (u.done q slot []) ∧ u = s.abortStep ctx
                ∧ u.ctx? ctx = some y ∧ y.step = none ∧ y.redo = true ∧ ∀ j, x.coreIn j = true → (u.core j).run = .idle)
          ∧ (r.decided = false → s.awaitsRoot x r = true → s.ctx? ctx = some x →
              ∃ (u : State) (y : StepRec), exec (.abortCommand q slot) s = .next (u.setCmd q slot fun d => { d with started := true })
                ∧ (u.ctx? ctx).bind Ctx.step = some y ∧ y.abortWait = some (q, slot))

/-- SYNC_SIG signals a package sync object of its context and answers the object's new count and epoch. -/
def Sys2Proof.Cert.SyncSigSignalsObject : Prop :=
  ∀ (s : State) (q slot i : Nat) (k : Cmd) (c : Ctx), Served s q slot k → cOpc k.line = 0x0A → s.ctx? (cCtx k.line) = some c →
    syncRef c 0 (fld k.line 8 2) = .package i →
    ∃ (t : State) (o : SyncObj), exec (.syncSig q slot) s = .next t ∧ t.syncObj (.package i) = o
      ∧ o = (if fld k.line 10 1 % 2 = 1 then { count := 0, epoch := (s.syncObj (.package i)).epoch + 1 }
          else { count := (s.syncObj (.package i)).count + BitVec.ofNat 32 (fld k.line 12 4), epoch := (s.syncObj (.package i)).epoch })
      ∧ t.lsync = s.lsync
      ∧ t = (s.signal (.package i) (bit (fld k.line 10 1) 0) (BitVec.ofNat 32 (fld k.line 12 4))).done q slot
          (leBytes 4 o.count.toNat ++ leBytes 2 o.epoch.toNat)

/-- SCHED of KIND 0x00 removes the entry it names; of KIND 0x01 to 0x05 it puts an entry into the lowest free place of its slot's
table, with the beat's STEP as its anchor, when the target lies ahead and the arguments are allowed; each completes with DONE and
answers the index. -/
def Sys2Proof.Cert.SchedCommandsComplete : Prop :=
  (∀ (s : State) (q slot : Nat) (k : Cmd) (c : Ctx) (e : SchedEnt), Served s q slot k → cOpc k.line = 0x0B → fld k.line 16 1 = 0 →
      s.ctx? (cCtx k.line) = some c → fld k.line 18 2 < 256 → s.schedAt c.slot (fld k.line 18 2) = some e →
      ∃ u : State, u.schedAt c.slot (fld k.line 18 2) = none
        ∧ exec (.schedCancel q slot) s = .next (u.done q slot (leBytes 2 (fld k.line 18 2) ++ leBytes 1 1)))
    ∧ ∀ (s : State) (q slot i kind : Nat) (k : Cmd) (c : Ctx), Served s q slot k → cOpc k.line = 0x0B → fld k.line 16 1 = kind →
        s.ctx? (cCtx k.line) = some c → s.freeSched c.slot = some i →
        targetOk (s.slotBeat c.slot) (Beat.ofNat (fld k.line 8 8)) = true →
        s.schedOk c (s.queue q) k.line (Beat.ofNat (fld k.line 8 8)) = true →
        ∃ u : State, u.schedAt c.slot i = some
              { target := Beat.ofNat (fld k.line 8 8), anchor := (s.slotBeat c.slot).step, kind := kind,
                kargs := (k.line.drop 24).take 40, q := q, tag := cTag k.line, ctx := cCtx k.line, fired := false }
          ∧ (kind = 1 → exec (.schedCkptCopy q slot) s = .next (u.done q slot (leBytes 2 i)))
          ∧ (kind = 2 → exec (.schedPrefetch q slot) s = .next (u.done q slot (leBytes 2 i)))
          ∧ (kind = 3 → exec (.schedFreeze q slot) s = .next (u.done q slot (leBytes 2 i)))
          ∧ (kind = 4 → u.fw.arm = true ∧ exec (.schedFwActivate q slot) s = .next (u.done q slot (leBytes 2 i)))
          ∧ (kind = 5 → exec (.schedSyncSignal q slot) s = .next (u.done q slot (leBytes 2 i)))

/-- PAGE_REQ completes with DONE in the slot states of Table 10.6, with the cache in order: OPEN leaves an active record with its fields
and a list of empty entries, FORK one that names the source's pages, SEAL seals the pages of the list, GROW leaves an open page behind
every entry up to LEN, TRIM sets LEN and empties the entries behind it, FREE and RESUME set SSTATE, SWAPIN fills a page for every saved
entry and makes the slot active. -/
def Sys2Proof.Cert.PageRequestsComplete : Prop :=
  ∀ (s : State) (q slot : Nat) (k : Cmd) (c : Ctx) (t : Seqt) (r : SeqRec) (w : Who), Served s q slot k → cOpc k.line = 0x0E →
    Table s k.line c t → w = .service c → s.seqRec w t (fld k.line 12 4) = .ok r →
    (fld k.line 8 1 = 1 → r.state = 0 → fld k.line 24 1 ≤ 3 → fld k.line 40 4 ≠ 0 →
      fld k.line 40 4 ≤ (if t.mode = 0 then 4194303 else 65535) →
      CacheOk s w (s.queue c.queue) t [{ r with base := fld k.line 32 6, cap := fld k.line 40 4 }] [] →
      ∃ (u : State) (r' : SeqRec), exec (.pageReqOpen q slot) s = .next (u.done q slot []) ∧ u.seqRec w t (fld k.line 12 4) = .ok r' ∧ r'.state = 1
        ∧ r'.prio = fld k.line 24 1 ∧ r'.len = 0 ∧ r'.base = fld k.line 32 6 ∧ r'.cap = fld k.line 40 4 ∧ r'.swap = fld k.line 48 6
        ∧ (t.mode = 1 → ∀ lh < t.nlh, ∀ i < r'.cap, u.entAt w t r' lh i = .ok .none))
    ∧ (∀ rd, fld k.line 8 1 = 2 → fld k.line 16 4 < t.nseqt → fld k.line 16 4 ≠ fld k.line 12 4 → t.mode = 1 → r.state = 1 →
      s.seqRec w t (fld k.line 16 4) = .ok rd → rd.state = 0 → fld k.line 20 4 ≤ r.len → (fld k.line 20 4 + 31) / 32 ≤ rd.cap →
      (fld k.line 20 4 + 31) / 32 ≤ r.cap → CacheOk s w (s.queue c.queue) t [r, rd] [] →
      (∀ lh < t.nlh, ∀ i < (fld k.line 20 4 + 31) / 32, ∀ n m, s.entAt w t r lh i = .ok (.page n m) → m.ref < 65535) →
      ∃ (u : State) (r' : SeqRec), exec (.pageReqFork q slot) s = .next (u.done q slot []) ∧ u.seqRec w t (fld k.line 16 4) = .ok r' ∧ r'.state = 1
        ∧ r'.len = fld k.line 20 4
        ∧ ∀ lh < t.nlh, ∀ i < (fld k.line 20 4 + 31) / 32, u.readVal w (rd.ent lh i) 8 = s.readVal w (r.ent lh i) 8)
    ∧ (fld k.line 8 1 = 3 → t.mode = 1 → r.state = 1 → CacheOk s w (s.queue c.queue) t [r] [] →
      ∃ u : State, exec (.pageReqSeal q slot) s = .next (u.done q slot [])
        ∧ ∀ lh < t.nlh, ∀ i < r.cap, ∀ n m, s.entAt w t r lh i = .ok (.page n m) →
            ∃ m' : PageWord, u.entAt w t r lh i = .ok (.page n m') ∧ m'.st = 2)
    ∧ (fld k.line 8 1 = 4 → t.mode = 0 → r.state = 1 → fld k.line 20 4 ≤ r.cap →
      exec (.pageReqGrow q slot) s = .next (s.done q slot []))
    ∧ (∀ n, fld k.line 8 1 = 4 → t.mode = 1 → r.state = 1 → fld k.line 20 4 ≤ 32 * r.cap → CacheOk s w (s.queue c.queue) t [r] [] → freePages s w t n →
      t.nlh * ((fld k.line 20 4 + 31) / 32) ≤ n →
      (∀ lh < t.nlh, ∀ i < (fld k.line 20 4 + 31) / 32,
        s.entAt w t r lh i = .ok .none ∨ ∃ p m, s.entAt w t r lh i = .ok (.page p m) ∧ m.st = 1) →
      ∃ u : State, exec (.pageReqGrow q slot) s = .next (u.done q slot [])
        ∧ ∀ lh < t.nlh, ∀ i < (fld k.line 20 4 + 31) / 32, ∃ (p : Nat) (m : PageWord), u.entAt w t r lh i = .ok (.page p m) ∧ m.st = 1)
    ∧ (fld k.line 8 1 = 5 → r.state = 1 ∨ r.state = 2 → fld k.line 20 4 ≤ r.len → CacheOk s w (s.queue c.queue) t [r] [] →
      ∃ (u : State) (r' : SeqRec), exec (.pageReqTrim q slot) s = .next (u.done q slot []) ∧ u.seqRec w t (fld k.line 12 4) = .ok r'
        ∧ r' = { r with len := fld k.line 20 4 }
        ∧ (t.mode = 1 → ∀ lh < t.nlh, ∀ i < r.cap, (fld k.line 20 4 + 31) / 32 ≤ i → u.entAt w t r lh i = .ok .none))
    ∧ (fld k.line 8 1 = 6 → r.state ≠ 0 → CacheOk s w (s.queue c.queue) t [r] [] →
      ∃ (u : State) (r' : SeqRec), exec (.pageReqFree q slot) s = .next (u.done q slot []) ∧ u.seqRec w t (fld k.line 12 4) = .ok r'
        ∧ r' = { r with state := 0 })
    ∧ (fld k.line 8 1 = 7 → r.state = 2 → CacheOk s w (s.queue c.queue) t [r] [] →
      ∃ (u : State) (r' : SeqRec), exec (.pageReqResume q slot) s = .next (u.done q slot []) ∧ u.seqRec w t (fld k.line 12 4) = .ok r'
        ∧ r' = { r with state := 1 })
    ∧ ∀ n, fld k.line 8 1 = 8 → r.state = 3 → t.mode = 1 → CacheOk s w (s.queue c.queue) t [r] [(r.swap, 65536 * (t.nlh * r.cap))] → freePages s w t n →
      t.nlh * r.cap ≤ n →
      ∃ (u : State) (r' : SeqRec), exec (.pageReqSwapin q slot) s = .next (u.done q slot []) ∧ u.seqRec w t (fld k.line 12 4) = .ok r'
        ∧ r' = { r with state := 1 }

/-- Each page-service request is refused, and completes malformed, in a slot state that Table 10.6 does not allow; RESUME of a parked
slot writes SSTATE active and keeps PRIO, and FREE of a slot of KVMODE 0 writes SSTATE free. -/
def Sys2Proof.Cert.PageRequestsAskForTheirSlotState : Prop :=
  (∀ (s : State) (c : Ctx) (t : Seqt) (slot prio base cap swap : Nat) (r : SeqRec), s.seqRec (.service c) t slot = .ok r →
      r.state ≠ 0 → s.kvOpen c t slot prio base cap swap = .ok .bad)
    ∧ (∀ (s : State) (c : Ctx) (t : Seqt) (slot d len : Nat) (r rd : SeqRec), s.seqRec (.service c) t slot = .ok r →
        s.seqRec (.service c) t d = .ok rd → (r.state ≠ 1 ∨ rd.state ≠ 0 ∨ r.len < len ∨ t.mode ≠ 1) →
        s.kvFork c t slot d len = .ok .bad)
    ∧ (∀ (s : State) (c : Ctx) (t : Seqt) (slot : Nat) (r : SeqRec), s.seqRec (.service c) t slot = .ok r →
        (r.state ≠ 1 ∨ t.mode ≠ 1) → s.kvSeal c t slot = .ok .bad)
    ∧ (∀ (s : State) (c : Ctx) (k : KvSrc) (t : Seqt) (slot len : Nat) (r : SeqRec), s.seqRec (.service c) t slot = .ok r →
        r.state ≠ 1 → s.kvGrow c k t slot len = .ok .bad)
    ∧ (∀ (s : State) (c : Ctx) (t : Seqt) (slot len : Nat) (r : SeqRec), s.seqRec (.service c) t slot = .ok r →
        ((r.state ≠ 1 ∧ r.state ≠ 2) ∨ r.len < len) → s.kvTrim c t slot len = .ok .bad)
    ∧ (∀ (s : State) (c : Ctx) (t : Seqt) (slot : Nat) (r : SeqRec), s.seqRec (.service c) t slot = .ok r →
        (r.state = 0 → s.kvFree c t slot = .ok .bad)
        ∧ (r.state ≠ 2 → s.kvResume c t slot = .ok .bad)
        ∧ (r.state ≠ 3 → s.kvSwapin c t slot = .ok .bad)
        ∧ (∀ u, r.state = 2 → s.write (.service c) (t.recAt slot) [BitVec.ofNat 8 (1 + 4 * r.prio)] = .ok u →
            s.kvResume c t slot = .ok (.done u))
        ∧ ∀ u, r.state ≠ 0 → t.mode = 0 → s.write (.service c) (t.recAt slot) [BitVec.ofNat 8 (4 * r.prio)] = .ok u →
            s.kvFree c t slot = .ok (.done u))

/-- STEP: once the previous step of its context has ended and the beat stands at PHASE 0x0000, the program table is read and the step
starts; a context that accepts no further step fails it. -/
def Obligations.StepCommandStarts : Prop :=
  (∀ (s : State) (q slot : Nat) (k : Cmd) (c : Ctx) (r : StepRec), (s.queue q).nextCmd = some k → k.slot = slot → cOpc k.line = 0x08 →
      s.serving = true → s.ctxFieldOk (s.queue q) k.line = true → s.ctx? (cCtx k.line) = some c → c.step = none →
      s.nextBeat c.slot = none → (s.slotBeat c.slot).phase = 0 → c.dead = false → s.subtree ≤ 64 →
      s.stepTables c k.line = .ok (r, true) →
      exec (.stepCommand q slot) s = .next (s.startStep (cCtx k.line) c q slot r))
    ∧ ∀ (s : State) (q slot : Nat) (k : Cmd) (c : Ctx), (s.queue q).nextCmd = some k → k.slot = slot → cOpc k.line = 0x08 →
        s.serving = true → s.ctxFieldOk (s.queue q) k.line = true → s.ctx? (cCtx k.line) = some c → c.step = none →
        s.nextBeat c.slot = none → c.dead = true → exec (.stepCommand q slot) s = .next (s.malformed q slot)

/-- A billeted command whose turn it is runs one billet: CTX_SAVE, CTX_RESTORE, CKPT_COPY, SCRUB, POOL_COMPACT, PAGE_REFRESH and
FW_STAGE each by its own service, TABLE_REBUILD by rewriting the ownership copies or the fuse shadows. The turn passes on. -/
def Sys2Proof.Cert.BilletedCommandsRun : Prop :=
  ∀ (s : State) (q slot : Nat) (k : Cmd), Turn s q slot k →
    (cOpc k.line = 0x06 → exec (.ctxSave q slot) s = .next ({ s with rr := k.order + 1 }.doSave q k))
    ∧ (cOpc k.line = 0x07 → exec (.ctxRestore q slot) s = .next ({ s with rr := k.order + 1 }.doRestore q k))
    ∧ (cOpc k.line = 0x0C → exec (.ckptCopy q slot) s = .next ({ s with rr := k.order + 1 }.doCopy q k))
    ∧ (cOpc k.line = 0x0D → exec (.scrub q slot) s = .next ({ s with rr := k.order + 1 }.doScrub q k))
    ∧ (cOpc k.line = 0x0F → exec (.poolCompact q slot) s = .next ({ s with rr := k.order + 1 }.doCompact q k))
    ∧ (cOpc k.line = 0x10 → exec (.pageRefresh q slot) s = .next ({ s with rr := k.order + 1 }.doRefresh q k))
    ∧ (cOpc k.line = 0x11 → fld k.line 8 1 = 1 →
        exec (.tableRebuildOwnership q slot) s = .next ({ s with rr := k.order + 1, ownBad := [] }.done q slot []))
    ∧ (cOpc k.line = 0x11 → fld k.line 8 1 = 2 →
        exec (.tableRebuildFuses q slot) s = .next ({ s with rr := k.order + 1, shadow := s.fuses }.done q slot []))
    ∧ (cOpc k.line = 0x12 → exec (.fwStage q slot) s = .next ({ s with rr := k.order + 1 }.doStage q k))

namespace Sys2Proof.Cert

/-- The command has begun, and its next billet starts at `pos`, with `count` kept (R294). -/
def later (s : State) (q slot pos count : Nat) : State :=
  s.setCmd q slot fun c => { c with started := true, pos := pos, count := count }

/-- What a CTX_RESTORE reads is in order (R301): the image at `a`, the block at the command's second address, one free identifier; `c` is
the context it makes. -/
structure Image_ (s : State) (q : Nat) (k : Cmd) (img blk : List Byte) (id : Nat) (c : Ctx) : Prop where
  head : ∃ h, s.read .cmdHost (fld k.line 8 6) 64 = .ok h ∧ fld h 0 4 = 0x58435654 ∧ fld h 4 2 = 0x0100 ∧ 576 ≤ fld h 24 8
    ∧ s.read .cmdHost (fld k.line 8 6) (fld h 24 8) = .ok img
  block : s.read .cmdHost (fld k.line 16 6) 512 = .ok blk
  crc : imgOk img = true
  good : s.ctxBlockOk blk = true
  unlocked : fld img 580 1 = 1 → (s.page pgMgr).unl = true
  fits : imgFits img blk = true
  free : s.freeCtxId = some id
  seqt : s.blkSeqtOk (s.newCtx blk q) = .ok true
  ctx : c = restoredCtx (s.newCtx blk q) img (imgParts img)
  regions : ∀ i < blkNpreg c.block, Open s (.service c) (blkPreg c.block i).1 (blkPreg c.block i).2

/-- No line of cord `c`'s stack holds an error that its code corrects. -/
def Scrubbed (s : State) (c : Nat) : Prop := ∀ p ∈ s.errs, s.place p.1 ≠ .stack c

/-- The lines of cord `c`'s stack that hold an error their code corrects. -/
def lightErrors (s : State) (c : Nat) : Nat := ((s.errs.map fun p => p.1).filter fun a => decide (s.place a = .stack c)).length

end Sys2Proof.Cert

/-- CTX_SAVE: each billet writes the next 2 MiB of the image behind its header; the last one writes the header over what stands there, with
its CRC, and answers the image's length. -/
def Sys2Proof.Cert.CtxSaveWritesItsImage : Prop :=
  ∀ (s : State) (q slot n : Nat) (k : Cmd) (c : Ctx) (d body : List Byte), Turn s q slot k → cOpc k.line = 0x06 →
    s.ctx? (cCtx k.line) = some c → (if fld k.line 14 1 % 2 = 1 then s.regionBytes c else .ok []) = .ok d → body = s.imageBody c d →
    n = (if k.started then k.count else 64 + body.length) → n ≤ fld k.line 16 8 → 64 + k.pos ≤ n →
    Open s (.cmd c) (fld k.line 8 6) n →
    (k.pos + 2097152 < n - 64 → ∃ u : State, exec (.ctxSave q slot) s = .next (later u q slot (k.pos + 2097152) n)
      ∧ u.read (.cmd c) (fld k.line 8 6 + 64 + k.pos) 2097152 = .ok (((body ++ zeros n).drop k.pos).take 2097152))
    ∧ (n - 64 ≤ k.pos + 2097152 → ∃ (u : State) (b : List Byte), exec (.ctxSave q slot) s = .next (u.done q slot (leBytes 8 n))
      ∧ u.read (.cmd c) (fld k.line 8 6 + 64) (n - 64) = .ok b ∧ b.drop k.pos = ((body ++ zeros n).drop k.pos).take (n - 64 - k.pos)
      ∧ u.read (.cmd c) (fld k.line 8 6) 64 = .ok (s.imageHead c b))

/-- CTX_RESTORE: each billet writes the next piece of the persistent regions; with the last one the context is live, with the image's block,
its slot's beat at (STEP, 0x0000) or decided so, and the command completes with DONE (GEOM_CHANGED where the geometry differs). -/
def Sys2Proof.Cert.CtxRestoreBringsUpItsContext : Prop :=
  ∀ (s : State) (q slot id : Nat) (k : Cmd) (c : Ctx) (img blk : List Byte) (l : List (Nat × Nat × Nat)), Turn s q slot k →
    cOpc k.line = 0x07 → Image_ s q k img blk id c →
    l = (if (imgParts img).data < img.length then regionPieces c (List.range (blkNpreg c.block)) (imgParts img).data else []) →
    (∀ p, k.pos + 1 < l.length → l[k.pos]? = some p → ∃ u : State,
      exec (.ctxRestore q slot) s = .next (u.setCmd q slot fun x => { x with started := true, pos := k.pos + 1 })
        ∧ u.read (.service c) p.1 ((img.drop p.2.1).take p.2.2).length = .ok ((img.drop p.2.1).take p.2.2))
    ∧ (l.length ≤ k.pos + 1 → ∃ (u : State) (y : Ctx) (b : Beat),
      exec (.ctxRestore q slot) s = .next (u.complete q slot .done (if fld img 576 4 ≠ c.geom then eGeomChanged else 0) 0
          (ctxResult id c.syncBase ++ leBytes 4 (if fld img 12 3 = blkCords c.block then 0 else fld img 36 4)))
        ∧ u.ctx? id = some y ∧ y.block = c.block ∧ y.slot = c.slot ∧ b = { step := (Beat.ofNat (fld img 16 8)).step, phase := 0 }
        ∧ (u.slotBeat c.slot = b ∨ u.nextBeat c.slot = some b))

/-- CKPT_COPY: each billet copies the next 2 MiB, the last one the rest, and completes the command. -/
def Sys2Proof.Cert.CkptCopyCopiesItsRange : Prop :=
  ∀ (s : State) (q slot src dst len : Nat) (k : Cmd) (w : Who), Turn s q slot k → cOpc k.line = 0x0C → w = s.cmdWho k.line →
    src = fld k.line 8 6 → dst = fld k.line 16 6 → len = fld k.line 24 8 → s.copyOk w src dst len = true → Open s w src len →
    Open s w dst len →
    (k.pos + 2097152 < len → ∃ u : State, exec (.ckptCopy q slot) s
        = .next (u.setCmd q slot fun x => { x with started := true, pos := k.pos + 2097152 })
      ∧ (OffRing s w (s.queue 0) (dst + k.pos, 2097152) → u.read w (dst + k.pos) 2097152 = s.read w (src + k.pos) 2097152))
    ∧ (len ≤ k.pos + 2097152 → ∃ u : State, exec (.ckptCopy q slot) s = .next (u.done q slot [])
      ∧ (OffRing s w (s.queue 0) (dst + k.pos, len - k.pos) → u.read w (dst + k.pos) (len - k.pos) = s.read w (src + k.pos) (len - k.pos)))

/-- SCRUB: each billet scrubs one cord's stack and leaves no line of it with an error that the code corrects; the last one completes the
command with the number of lines corrected. -/
def Sys2Proof.Cert.ScrubCorrectsItsStacks : Prop :=
  ∀ (s : State) (q slot : Nat) (k : Cmd), Turn s q slot k → cOpc k.line = 0x0D → (∀ c ∈ cordsOf (fld k.line 8 3), c < s.nCords) →
    (∀ c, (cordsOf (fld k.line 8 3))[k.pos]? = some c → s.placeUp (.stack c) = true →
      (k.pos + 1 < (cordsOf (fld k.line 8 3)).length → ∃ u : State,
        exec (.scrub q slot) s = .next (later u q slot (k.pos + 1) (k.count + lightErrors s c)) ∧ Scrubbed u c)
      ∧ (k.pos + 1 = (cordsOf (fld k.line 8 3)).length → ∃ u : State,
        exec (.scrub q slot) s = .next (u.done q slot (leBytes 8 (k.count + lightErrors s c))) ∧ Scrubbed u c))
    ∧ ((cordsOf (fld k.line 8 3)).length ≤ k.pos →
      exec (.scrub q slot) s = .next ({ s with rr := k.order + 1 }.done q slot (leBytes 8 k.count)))

/-- POOL_COMPACT and PAGE_REFRESH of a paged table, with the cache of the slot in order: each billet works on one slot; a compaction leaves
its record and its empty entries as they were, a refresh empties its stale entries and keeps the others. The last billet completes the command
with the number of pages moved or entries emptied. -/
def Sys2Proof.Cert.PoolWorkGoesSlotBySlot : Prop :=
  ∀ (s : State) (q slot a : Nat) (k : Cmd) (c : Ctx) (t : Seqt) (r : SeqRec) (w : Who), Turn s q slot k → s.ctx? (cCtx k.line) = some c →
    blkSeqt c.block ≠ 0 → w = .service c → s.seqt w (blkSeqt c.block) = .ok t → t.mode = 1 → s.seqRec w t a = .ok r → a < t.nseqt →
    CacheOk s w (s.queue c.queue) t [r] [] →
    (cOpc k.line = 0x0F → a = k.pos → ∃ (u : State) (n : Nat), u.seqRec w t a = .ok r ∧ n ≤ t.nlh * r.cap
      ∧ (∀ lh < t.nlh, ∀ i < r.cap, s.entAt w t r lh i = .ok .none → u.entAt w t r lh i = .ok .none)
      ∧ exec (.poolCompact q slot) s = .next (if t.nseqt = a + 1 then u.done q slot (leBytes 4 (k.count + n))
          else later u q slot (a + 1) (k.count + n)))
    ∧ (cOpc k.line = 0x10 → a = (if fld k.line 8 4 = 0xFFFFFFFF then k.pos else fld k.line 8 4) → ∃ (u : State) (n : Nat),
      (r.state = 3 → n = 0)
      ∧ (r.state ≠ 3 → ∀ lh < t.nlh, ∀ i < r.cap, (s.entAt w t r lh i = .ok .stale → u.entAt w t r lh i = .ok .none)
          ∧ (s.entAt w t r lh i ≠ .ok .stale → u.entAt w t r lh i = s.entAt w t r lh i))
      ∧ exec (.pageRefresh q slot) s
          = .next (if fld k.line 8 4 ≠ 0xFFFFFFFF ∨ t.nseqt = a + 1 then u.done q slot (leBytes 4 (k.count + n))
              else later u q slot (a + 1) (k.count + n)))

/-- FW_STAGE: its first billet begins a staging of its blocks from the host; once the image is staged and verified the command completes, and
where it is refused it fails with AUTH_FAIL. A pool of KVMODE 0 has nothing to compact. -/
def Sys2Proof.Cert.FwStageRunsItsStaging : Prop :=
  ∀ (s : State) (q slot : Nat) (k : Cmd), Turn s q slot k →
    (∀ n, cOpc k.line = 0x12 → k.started = false → fld k.line 16 4 = 65536 * n → 1 ≤ n → n ≤ 4096 →
      fld k.line 20 1 ≠ (if s.cbank then 1 else 0) → s.chainStaging = false → s.fw.trial = false →
      ∃ u : State, exec (.fwStage q slot) s = .next (u.setCmd q slot fun x => { x with started := true })
        ∧ u.fw.sstate = 1 ∧ u.fw.nblk = n ∧ u.fw.fromHost = true ∧ u.fw.target = !s.cbank)
    ∧ (cOpc k.line = 0x12 → k.started = true → s.fw.sstate = 3 →
      exec (.fwStage q slot) s = .next ({ s with rr := k.order + 1 }.done q slot []))
    ∧ (cOpc k.line = 0x12 → k.started = true → s.fw.sstate = 4 →
      exec (.fwStage q slot) s = .next ({ s with rr := k.order + 1 }.complete q slot .failed eAuthFail 0 []))
    ∧ ∀ (c : Ctx) (t : Seqt), cOpc k.line = 0x0F → s.ctx? (cCtx k.line) = some c → blkSeqt c.block ≠ 0 →
      s.seqt (.service c) (blkSeqt c.block) = .ok t → t.mode = 0 →
      exec (.poolCompact q slot) s = .next ({ s with rr := k.order + 1 }.done q slot (leBytes 4 0))

/-- BILLET_END: with no command that may start, nothing changes but for the billet of the command whose turn it is, which runs as that
command's own billet; with an immediate command that may start, that one is served first. A TABLE_REBUILD so ends with its tables rebuilt;
the last billet of a fired copy leaves its range copied. -/
def Sys2Proof.Cert.BilletEndRunsOneBillet : Prop :=
  (∀ (s : State) (b : Billet), s.serving = true → s.nextImm = none → s.nextBillet = some b →
      exec .billetEnd s = .next (s.runBillet b))
    ∧ (∀ (s : State) (q : Nat) (k : Cmd), s.serving = true → s.nextImm = some (q, k) →
        (s.queues.map fun p => p.2.cmds.length).sum = 1 → (s.serveImm q k).nextBillet = none →
        exec .billetEnd s = .next (s.serveImm q k))
    ∧ (∀ (s : State) (q slot : Nat) (k : Cmd), Turn s q slot k → ∀ p ∈ [(0x06, Instr.ctxSave q slot), (0x07, .ctxRestore q slot),
        (0x0C, .ckptCopy q slot), (0x0D, .scrub q slot), (0x0F, .poolCompact q slot), (0x10, .pageRefresh q slot), (0x12, .fwStage q slot)],
        cOpc k.line = p.1 → exec .billetEnd s = exec p.2 s)
    ∧ (∀ (s : State) (q slot : Nat) (k : Cmd), Turn s q slot k → cOpc k.line = 0x11 →
        exec .billetEnd s = .next (if fld k.line 8 1 = 1 then { s with rr := k.order + 1, ownBad := [] }.done q slot []
          else { s with rr := k.order + 1, shadow := s.fuses }.done q slot []))
    ∧ (∀ s : State, s.nextImm = none → s.nextBillet = none → exec .billetEnd s = .next s)
    ∧ ∀ (s : State) (i : Nat) (f : FiredCopy) (c : Ctx), s.serving = true → s.nextImm = none → s.nextBillet = some (.copy i f) →
        s.ctx? f.ctx = some c → Open s (.cmd c) f.src.toNat f.len → Open s (.cmd c) f.dst.toNat f.len → f.len ≤ f.pos + 2097152 →
        ∃ t, exec .billetEnd s = .next t ∧ t.copies = s.copies.eraseIdx i
          ∧ (OffRing s (.cmd c) (s.queue 0) (f.dst.toNat, f.len) → OffRing s (.cmd c) (s.queue f.q) (f.dst.toNat, f.len) →
              t.read (.cmd c) (f.dst.toNat + f.pos) (f.len - f.pos) = s.read (.cmd c) (f.src.toNat + f.pos) (f.len - f.pos))

namespace Sys2Proof.Cert

/-- Core `core`, of a hearth of context `c`, runs and stands at the well-formed dispatch word `w` of opcode `opc` (R263, R264, R272). -/
structure AtWord (s : State) (core opc ctx : Nat) (c : Ctx) (w : List Byte) : Prop where
  owner : s.hearthCtx (core / 8) = some (ctx, c)
  running : (s.core core).run = .running
  up : s.hrtUp (core / 8) = true
  aligned : (s.core core).pc.toNat % 16 = 0
  fetched : s.fetchBytes c (s.core core).pc (s.core core).pc.toNat 16 = .ok w
  opcode : wOpc w = opc
  form : wordForm w = true
  syncs : wordSyncOk c (core / 8) w = true

/-- The state after a word has been counted in HRT_CNT_WORD. -/
def counted (s : State) (core : Nat) : State := s.count (hearthPage (core / 8) 0) 0 1

/-- The core moved past its word. -/
def past (x : Core) : Core := { x with run := .running, pc := x.pc + 16, word := [] }

/-- The beat that a WAITBEAT word aims at (R268). -/
def beatGoal (x : Core) (w : List Byte) : Beat :=
  { step := if fld w 1 1 % 2 = 1 then x.lstep + BitVec.ofNat 40 (fld w 4 5) else BitVec.ofNat 40 (fld w 4 5),
    phase := BitVec.ofNat 16 (fld w 2 2) }

/-- The address of the descriptor that an ISSUE word names (Table 11.1). -/
def descriptorAt (x : Core) (w : List Byte) : Addr :=
  x.base.toList.getD (fld w 2 1 % 8) 0 + BitVec.ofNat 48 (fld w 8 6)
    + BitVec.ofNat 48 (if fld w 3 1 / 128 % 2 = 1 then (x.lc.toList.getD (fld w 3 1 % 4) 0).toNat * fld w 4 2 * 64 else 0)

end Sys2Proof.Cert

/-- LOOP: with LC[c] + 1 below COUNT, LC[c] rises by 1 and PC moves by 16 × TGT; otherwise LC[c] becomes 0 and PC moves by 16. The word
runs LC[c] through 0 to COUNT − 1: it branches exactly while LC[c] is below COUNT − 1. No other core, and no other register of the
core, changes. -/
def Obligations.LoopCountsAndBranches : Prop :=
  ∀ (s : State) (core ctx : Nat) (c : Ctx) (w : List Byte) (i : Fin 4), AtWord s core 5 ctx c w → i.val = fld w 1 1 % 4 →
    ∃ t, exec (.loopWord core) s = .next t
      ∧ ((s.core core).lc[i].toNat + 1 < fld w 4 4 →
          t.core core =
            { s.core core with lc := (s.core core).lc.set i ((s.core core).lc[i] + 1),
                               pc := (s.core core).pc + BitVec.ofInt 48 (16 * wTgt w) }
          ∧ ((t.core core).lc[i]).toNat = (s.core core).lc[i].toNat + 1)
      ∧ (fld w 4 4 ≤ (s.core core).lc[i].toNat + 1 →
          t.core core = { s.core core with lc := (s.core core).lc.set i 0, pc := (s.core core).pc + 16 })
      ∧ ∀ k, k ≠ core → t.core k = s.core k

/-- NOP, JUMP and SETBASE: NOP only moves PC past the word; JUMP moves PC by 16 × TGT; SETBASE sets BASE[BSEL] to VAL, or with ADD = 1
to BASE[BSEL] + VAL modulo 2^48, and moves PC past the word. Beside the core the word only counts in HRT_CNT_WORD. -/
def Sys2Proof.Cert.NopJumpSetbaseMoveOn : Prop :=
  (∀ (s : State) (core ctx : Nat) (c : Ctx) (w : List Byte), AtWord s core 0 ctx c w →
      exec (.dispatchNop core) s = .next ((counted s core).setCore core (past (s.core core))))
    ∧ (∀ (s : State) (core ctx : Nat) (c : Ctx) (w : List Byte), AtWord s core 6 ctx c w →
        exec (.jumpWord core) s = .next ((counted s core).setCore core
          { s.core core with pc := (s.core core).pc + BitVec.ofInt 48 (16 * wTgt w) }))
    ∧ ∀ (s : State) (core ctx : Nat) (c : Ctx) (w : List Byte) (i : Fin 8), AtWord s core 7 ctx c w → i.val = fld w 1 1 % 8 →
        exec (.setbaseWord core) s = .next ((counted s core).setCore core
          { s.core core with
            base := (s.core core).base.set i (if fld w 1 1 / 8 % 2 = 1 then (s.core core).base[i] + BitVec.ofNat 48 (fld w 8 6)
              else BitVec.ofNat 48 (fld w 8 6)),
            pc := (s.core core).pc + 16 })

/-- WAIT goes on where the condition of R274 holds for its object, and stalls otherwise; a stalled WAIT goes on once the condition
holds (WAIT_RELEASE). -/
def Sys2Proof.Cert.WaitStallsUntilMet : Prop :=
  (∀ (s : State) (core ctx : Nat) (c : Ctx) (w : List Byte), AtWord s core 2 ctx c w →
      ∃ t, exec (.waitWord core) s = .next t ∧ (∀ k, k ≠ core → t.core k = s.core k)
        ∧ t.core core = (if s.waitOk c (core / 8) (wSync w) (fld w 4 3) (fld w 7 1) then past (s.core core)
            else { s.core core with run := .waiting, word := w }))
    ∧ ∀ (s : State) (core ctx : Nat) (c : Ctx), s.hearthCtx (core / 8) = some (ctx, c) → (s.core core).run = .waiting →
        s.hrtUp (core / 8) = true →
        s.waitOk c (core / 8) (wSync (s.core core).word) (fld (s.core core).word 4 3) (fld (s.core core).word 7 1) = true →
        exec (.waitRelease core) s = .next (s.setCore core (past (s.core core)))

/-- The condition of a wait (R274): the object's epoch is 1 to 127 resets ahead of EPOCH_LO, or equals it and the count has reached
COUNT modulo 2^24; a wait on no object is always met. -/
def Sys2Proof.Cert.WaitConditionIsSerial : Prop :=
  (∀ (o : SyncObj) (count lo : Nat), count < 2 ^ 24 → lo < 2 ^ 8 →
      (waitMet o count lo = true ↔
        (1 ≤ ((o.epoch.toNat : Int) - lo) % 256 ∧ ((o.epoch.toNat : Int) - lo) % 256 ≤ 127)
          ∨ (o.epoch.toNat % 256 = lo ∧ ((o.count.toNat : Int) - count) % 2 ^ 24 < 2 ^ 23)))
    ∧ ∀ (s : State) (c : Ctx) (g count lo : Nat), s.waitOk c g 0xFFFF count lo = true

/-- SIGNAL without DRAIN, or with nothing of the core outstanding, signals its object and moves on: with RST the epoch rises and the
count becomes 0, otherwise ADD is added; with DRAIN it stalls while the core has descriptors outstanding. -/
def Sys2Proof.Cert.SignalWordSignals : Prop :=
  ∀ (s : State) (core ctx : Nat) (c : Ctx) (w : List Byte), AtWord s core 3 ctx c w →
    ∃ t, exec (.signalWord core) s = .next t
      ∧ (fld w 1 1 / 2 % 2 = 1 ∧ s.outstanding core ≠ 0 →
          t.core core = { s.core core with run := .draining, word := w } ∧ t.psync = s.psync ∧ t.lsync = s.lsync)
      ∧ (fld w 1 1 / 2 % 2 = 0 ∨ s.outstanding core = 0 →
          t.core core = past (s.core core)
          ∧ t.syncObj (syncRef c (core / 8) (wSync w)) =
              (if fld w 1 1 % 2 = 1 then { count := 0, epoch := (s.syncObj (syncRef c (core / 8) (wSync w))).epoch + 1 }
               else { count := (s.syncObj (syncRef c (core / 8) (wSync w))).count + BitVec.ofNat 32 (fld w 4 4),
                      epoch := (s.syncObj (syncRef c (core / 8) (wSync w))).epoch }))

/-- DRAIN_COMPLETE: once nothing of the core is outstanding, a draining SIGNAL signals and moves on, and an END signals as it says and
leaves the core idle. -/
def Sys2Proof.Cert.DrainCompleteProceeds : Prop :=
  ∀ (s : State) (core ctx : Nat) (c : Ctx), s.hearthCtx (core / 8) = some (ctx, c) → s.hrtUp (core / 8) = true → s.outstanding core = 0 →
    ((s.core core).run = .draining → ∃ t, exec (.drainComplete core) s = .next t ∧ t.core core = past (s.core core))
    ∧ ((s.core core).run = .ending →
        ∃ t, exec (.drainComplete core) s = .next t ∧ t.core core = { s.core core with run := .idle, word := [] })

/-- WAITBEAT goes on where the slot's beat is at or past the target by the serial-number rule, and stalls otherwise; with REL = 1 the
target STEP counts from LSTEP modulo 2^40. -/
def Obligations.WaitbeatStallsUntilBeat : Prop :=
  ∀ (s : State) (core ctx : Nat) (c : Ctx) (w : List Byte), AtWord s core 4 ctx c w →
    ∃ t, exec (.waitbeatWord core) s = .next t ∧ (∀ k, k ≠ core → t.core k = s.core k)
      ∧ t.core core = (if (s.slotBeat c.slot).reaches (beatGoal (s.core core) w) then past (s.core core)
          else { s.core core with run := .onBeat, word := w })

/-- TRAP never stops the core: it writes a trap event with CODE and PC on the context's queue, counts it lost where the ring is full,
and goes on at the next word. -/
def Obligations.TrapNeverStops : Prop :=
  ∀ (s : State) (core ctx : Nat) (c : Ctx) (w : List Byte), AtWord s core 8 ctx c w →
    exec (.trapWord core) s = .next ((((counted s core).event c.queue
        { etype := 0x03, res := .done, ctx := ctx, eng := 0, tag := BitVec.ofNat 32 (fld w 4 4), err := 0,
          hearth := (c.localHearth (core / 8)).getD 0xFFFF, unit := core % 8, addr := (s.core core).pc,
          beat := s.slotBeat c.slot, data := [] }).trace (core / 8 / 48) 0x07 0x03 (core % 8) ctx (core / 8) (s.slotBeat c.slot)
            (BitVec.ofNat 32 (fld w 4 4)) (leBytes 6 (s.core core).pc.toNat)).setCore core (past (s.core core)))
    ∧ ∀ (u : State) (r : EventRec), (u.queue c.queue).live = true → (u.queue c.queue).stopped = false →
        (u.queue c.queue).evFull = true → ((u.event c.queue r).queue c.queue).lost = (u.queue c.queue).lost + 1

/-- END waits while the core has descriptors outstanding; otherwise it signals its object with SIG = 1 by adding 1, and the core is
idle. -/
def Obligations.EndWordLeavesCoreIdle : Prop :=
  ∀ (s : State) (core ctx : Nat) (c : Ctx) (w : List Byte), AtWord s core 9 ctx c w →
    ∃ t, exec (.endWord core) s = .next t
      ∧ (s.outstanding core ≠ 0 → t.core core = { s.core core with run := .ending, word := w } ∧ t.psync = s.psync ∧ t.lsync = s.lsync)
      ∧ (s.outstanding core = 0 → t.core core = { s.core core with run := .idle, word := [] }
          ∧ (fld w 1 1 % 2 = 0 → t.psync = s.psync ∧ t.lsync = s.lsync)
          ∧ (fld w 1 1 % 2 = 1 → t.syncObj (syncRef c (core / 8) (wSync w)) =
              { count := (s.syncObj (syncRef c (core / 8) (wSync w))).count + 1,
                epoch := (s.syncObj (syncRef c (core / 8) (wSync w))).epoch }))

/-- ISSUE forms BASE[BSEL] + OFF + (USE ? LC × STRIDE × 64 : 0) modulo 2^48, and becomes pending on the engine it names, where the
descriptor there is aligned, in the partition and of that engine; the core stands still until its descriptor is admitted. -/
def Sys2Proof.Cert.IssueBecomesPending : Prop :=
  ∀ (s : State) (core ctx time u : Nat) (c : Ctx) (w d : List Byte), AtWord s core 1 ctx c w →
    engPage (core / 8) (wEng w) (wInst w) = some u → (descriptorAt (s.core core) w).toNat % 64 = 0 →
    s.fetchBytes c (s.core core).pc (descriptorAt (s.core core) w).toNat 64 = .ok d → hEng d = wEng w →
    ∃ t, exec (.issueWord core time) s = .next t
      ∧ t.engine u = { s.engine u with pend := (s.engine u).pend
            ++ [{ core := core, addr := descriptorAt (s.core core) w, time := time }] }
      ∧ (∀ v, v ≠ u → t.engine v = s.engine v)
      ∧ t.core core = { s.core core with run := .issuing, word := w } ∧ ∀ k, k ≠ core → t.core k = s.core k

/-- ISSUE_ADMIT: with a place in the window, the ISSUE whose turn it is leaves the pending ones, its descriptor of 64 bytes is copied to
the window's end, and its core moves past the word. -/
def Sys2Proof.Cert.IssueAdmitCopiesDescriptor : Prop :=
  ∀ (s : State) (u time ctx : Nat) (x : EngUnit) (c : Ctx) (p : Pend) (d : List Byte), s.unit u = some x →
    s.cordCtx (x.die / 3) = some (ctx, c) → (s.engine u).win.length < 8 → s.admits c x u time = some p →
    s.fetchBytes c (s.core p.core).pc p.addr.toNat 64 = .ok d → hEng d = x.eng →
    ∃ t, exec (.issueAdmit u time) s = .next t
      ∧ (t.engine u).win = (s.engine u).win ++
          [{ desc := d, addr := p.addr, core := p.core, ctx := ctx, credits := 0, started := false, startBeat := Beat.zero,
             tmo := false, prog := Progress.start, flags := [], contrib := none, ended := none }]
      ∧ (t.engine u).pend = (s.engine u).pend.filter (fun q => decide (q.core ≠ p.core))
      ∧ t.core p.core = past (s.core p.core) ∧ ∀ v, v ≠ u → t.engine v = s.engine v

/-- A dispatch word that may not be executed is a dispatch fault under every word command: the core stops without executing it, at the
same PC, and the fault's event carries BUS_ERR at the word's address. It is a word of a reserved opcode, or one whose address is not
16-byte aligned. -/
def Obligations.DispatchFaultStopsCore : Prop :=
  (∀ (s : State) (core ctx : Nat) (c : Ctx) (w : List Byte), s.hearthCtx (core / 8) = some (ctx, c) → (s.core core).run = .running →
      s.hrtUp (core / 8) = true → (s.core core).pc.toNat % 16 = 0 →
      s.fetchBytes c (s.core core).pc (s.core core).pc.toNat 16 = .ok w → 9 < wOpc w →
      ∀ i ∈ [Instr.dispatchNop core, .waitWord core, .signalWord core, .waitbeatWord core, .loopWord core, .jumpWord core,
          .setbaseWord core, .trapWord core, .endWord core, .issueWord core 0],
        exec i s = .next (s.dispatchFault core ctx c { code := eBusErr, addr := (s.core core).pc }))
    ∧ (∀ (s : State) (core ctx : Nat) (c : Ctx), s.hearthCtx (core / 8) = some (ctx, c) → (s.core core).run = .running →
        s.hrtUp (core / 8) = true → (s.core core).pc.toNat % 16 ≠ 0 →
        exec (.dispatchNop core) s = .next (s.dispatchFault core ctx c { code := eBusErr, addr := (s.core core).pc }))
    ∧ ∀ (s : State) (core ctx : Nat) (c : Ctx) (f : Fail), ∃ u : State, u.core core = { s.core core with run := .stopped }
        ∧ s.dispatchFault core ctx c f = u.attemptError ctx f.code f.addr false false

namespace Sys2Proof.Cert

/-- The descriptor `e` of context `c` stands first in the window of engine unit `u`, may start and has all it waits for: its wait
is met, its credits are granted, its random words are served (R14, R280, R327, R199). -/
structure Ready (s : State) (u eng op : Nat) (x : EngUnit) (c : Ctx) (i : Nat) (e : Entry) : Prop where
  unit : s.unit u = some x
  eng : x.eng = eng
  head : (s.engine u).head = some (i, e)
  op : hOp e.desc = op
  ctx : s.ctx? e.ctx = some c
  fence : hFence e.desc = false ∨ i = 0
  block : s.blockFail u e = none
  header : headerOk c e.hearth e.desc = true
  wait : s.waitOk c e.hearth (hWait e.desc) (hCount e.desc) (hEpoch e.desc) = true
  credits : s.need c e ≤ e.credits
  words : e.prog.served = true ∨ s.wordsAsked u x c { e with started := true, startBeat := s.ctxBeat e.ctx } = []

/-- The entry of a started descriptor: its start's beat is kept. -/
def live (s : State) (e : Entry) : Entry := { e with started := true, startBeat := s.ctxBeat e.ctx }

/-- The descriptor `e` of context `c` is the one that runs on engine unit `u`. -/
structure Running (s : State) (u eng : Nat) (x : EngUnit) (c : Ctx) (i : Nat) (e : Entry) : Prop where
  unit : s.unit u = some x
  eng : x.eng = eng
  running : (s.engine u).running = some (i, e)
  ctx : s.ctx? e.ctx = some c

/-- The state once a descriptor has started: its entry is started, its start is traced. -/
def begun (s : State) (u i : Nat) (x : EngUnit) (e : Entry) : State := s.startEntry u i x e

/-- The words that a row descriptor rounds with. -/
def rowW (s : State) (c : Ctx) (e : Entry) : Words := (live s e).words c (fld e.desc 55 4)

/-- The lane groups and lanes of an FTA descriptor after its ready lanes `run` have done a pass each (R102). -/
def lanesAfter (e : Entry) (run : List Nat) : List Nat := (List.range 64).map fun l => e.prog.groups.getD l 0 + if l ∈ run then 1 else 0

/-- The row groups of a BWA descriptor after a pass of `group` (R156). -/
def rowsAfter (e : Entry) (group : Nat) : List Nat :=
  (List.range 4).map fun k => e.prog.groups.getD k 0 + if k = group then 1 else 0

/-- Entry `f` follows `e` over a pass that leaves the counts `done`; the group's credit is kept for a pass that begins at once, and goes
back otherwise (R102, R156, R331). -/
structure PassDone (e f : Entry) (group : Nat) (done : List Nat) (again : Prop) : Prop where
  counts : f.prog.groups = done
  open_ : f.ended = none
  kept : again → f.prog.held = e.prog.held ∧ f.credits = e.credits
  back : ¬ again → f.prog.held = e.prog.held.filter (fun g => decide (g ≠ group)) ∧ f.credits = e.credits - e.perPass

/-- Entry `f` follows `e` once its next tile has left the array: DONE behind the last of `n` tiles (R95, R146). -/
structure TileLeft (e f : Entry) (n : Nat) : Prop where
  tiles : f.prog.tiles = e.prog.tiles + 1
  ended : f.ended = if e.prog.tiles + 1 = n then some (.ok 0) else none

/-- The front of an FTA descriptor has passed output tile `tiles`: every lane has deposited it (R85, R95). -/
structure Deposited (s : State) (c : Ctx) (e : Entry) : Prop where
  clean : (s.ftaFrom c e e.prog.groups ((e.prog.tiles + 1) * ftaKt e.desc) []).err = none
  all : (e.prog.tiles + 1) * ftaKt e.desc ≤ (s.ftaFrom c e e.prog.groups ((e.prog.tiles + 1) * ftaKt e.desc) []).tile

/-- Row `r` of the codes of an FTA output tile, rounded once (R92, R43). -/
def ftaRow (d : List Byte) (t : FtaTile) (r : Nat) : List Nat :=
  (((t.terms.zip t.units).map fun p => ((Elem.zero.add 48 p.1 false false).retire (if ftaDfmt d = 2 then w24 else w16) .rne p.2).code).drop
    (r * ftaCols d)).take (ftaCols d)

/-- The address of row `r` of output tile `j` of an FTA descriptor, and the bytes of it (R92). -/
def ftaRowAt (e : Entry) (j r : Nat) : Nat × Nat :=
  (e.base + fld e.desc 43 3 + (r * (ftaNtiles e.desc * ftaCols e.desc) + j * ftaCols e.desc) * (if ftaDfmt e.desc = 2 then 3 else 2),
    ftaCols e.desc * (if ftaDfmt e.desc = 2 then 3 else 2))

/-- The address of row `r` of output tile `t` of a BWA descriptor, and the bytes of it (R146). -/
def bwaRowAt (e : Entry) (t r : Nat) : Nat × Nat :=
  (e.base + fld e.desc 28 3 + (bwaOfmt e.desc).width * ((t / bwaNT e.desc * 32 + r) * (bwaNT e.desc * bwaC e.desc)
    + t % bwaNT e.desc * bwaC e.desc) / 8, bwaC e.desc * (bwaOfmt e.desc).width / 8)

end Sys2Proof.Cert

/-- Exact accumulation: a term adds its integer exactly and ORs its NaR flag; an element whose overflow flag is set does not change;
an input with the overflow flag takes the element to the limit of the input's sign; a sum outside the capacity leaves the limit of
the sum's sign; at retire a NaR flag comes before an overflow flag. Terms that stay within the capacity add to the same element in
every order. -/
def Obligations.AccumulationIsExact : Prop :=
  (∀ (e : Elem) (b : Nat) (t : Int) (tn tovf : Bool), 1 ≤ b →
    (e.add b t tn tovf).nar = (e.nar || tn)
    ∧ (e.ovf = true → (e.add b t tn tovf).val = e.val ∧ (e.add b t tn tovf).ovf = true)
    ∧ (e.ovf = false → tovf = true → (e.add b t tn tovf).ovf = true
        ∧ (e.add b t tn tovf).val = (if t < 0 then -(2 : Int) ^ (b - 1) else (2 : Int) ^ (b - 1) - 1))
    ∧ (e.ovf = false → tovf = false → (2 : Int) ^ (b - 1) ≤ e.val + t →
        (e.add b t tn tovf).val = (2 : Int) ^ (b - 1) - 1 ∧ (e.add b t tn tovf).ovf = true)
    ∧ (e.ovf = false → tovf = false → e.val + t < -(2 : Int) ^ (b - 1) →
        (e.add b t tn tovf).val = -(2 : Int) ^ (b - 1) ∧ (e.add b t tn tovf).ovf = true)
    ∧ (e.ovf = false → tovf = false → -(2 : Int) ^ (b - 1) ≤ e.val + t → e.val + t < (2 : Int) ^ (b - 1) →
        (e.add b t tn tovf).val = e.val + t ∧ (e.add b t tn tovf).ovf = false))
  ∧ (∀ (e : Elem) (f : WFmt) (r : Rnd) (unit : Rat), e.nar = true → (e.retire f r unit).code = f.nar)
  ∧ ∀ (e : Elem) (b : Nat) (l m : List Int), 1 ≤ b → e.ovf = false → l.Perm m →
      (e.val.natAbs : Int) + (l.map fun t => (t.natAbs : Int)).sum < (2 : Int) ^ (b - 1) →
      l.foldl (fun a t => a.add b t false false) e = { e with val := e.val + l.sum }
      ∧ m.foldl (fun a t => a.add b t false false) e = { e with val := e.val + l.sum }

/-- A code of a W format that is neither NaR nor zero has a value, which rounds back to that code under both rounding modes, uncounted;
an exact zero gives +0, a missing value NaR; a magnitude above the largest value gives the largest value with its sign, counted. -/
def Obligations.RoundingKeepsCodes : Prop :=
  ∀ f ∈ [w12, w16, w24], ∀ r : Rnd, (r = .rne ∨ ∃ u < 65536, r = .sr u) →
    (∀ code < 2 ^ f.width, ∀ v : Rat, f.value code = some v → v ≠ 0 → f.round r v = ⟨code, false, false⟩)
    ∧ f.round r 0 = ⟨0, false, false⟩ ∧ f.roundOpt r none = ⟨2 ^ (f.width - 1), false, false⟩
    ∧ (∀ x : Rat, 2 * f.maxVal ≤ x → f.round r x = ⟨2 ^ (f.width - 1) - 1, true, false⟩
        ∧ f.round r (-x) = ⟨2 ^ f.width - 1, true, false⟩)

/-- The array products start: FTA_TABLE_PRODUCT, FTA_TVA7200_PRODUCT and BWA_PRODUCT begin their descriptor with no pass done and,
where it accumulates anew into a handle, open the handle's tiles; they go on by passes. -/
def Sys2Proof.Cert.ArrayProductsStart : Prop :=
  (∀ (s : State) (u op : Nat) (x : EngUnit) (c : Ctx) (i : Nat) (e : Entry), op = 1 ∨ op = 2 → Ready s u 1 op x c i e →
      (begun s u i x e).ftaBody x e.desc = true → (begun s u i x e).classForeign x (live s e) = false →
      (begun s u i x e).classReady x (live s e) = true →
      (ftaDacc e.desc = false ∨ ftaAccin e.desc = true ∧ (begun s u i x e).handleLive x.g (ftaHandle e.desc) = true →
        exec (if op = 1 then .ftaTableProduct u else .ftaTva7200Product u) s
          = .next ((begun s u i x e).setProg u i fun p =>
              { p with groups := List.replicate 64 0, ragged := (begun s u i x e).ftaRaggedOn u e.desc }))
      ∧ (ftaDacc e.desc = true → ftaAccin e.desc = false → (begun s u i x e).handleFree x.g (ftaHandle e.desc) = true →
        exec (if op = 1 then .ftaTableProduct u else .ftaTva7200Product u) s
          = .next (((begun s u i x e).openHandle x.g (ftaHandle e.desc) (BitVec.ofNat 24 (fld e.desc 43 3))).setProg u i
              fun p => { p with groups := List.replicate 64 0, ragged := (begun s u i x e).ftaRaggedOn u e.desc })))
  ∧ ∀ (s : State) (u : Nat) (x : EngUnit) (c : Ctx) (i : Nat) (e : Entry) (m : List Byte), Ready s u 2 1 x c i e →
      (begun s u i x e).bwaBody x e.desc = true → (begun s u i x e).classForeign x (live s e) = false →
      (begun s u i x e).classReady x (live s e) = true → (begun s u i x e).bwaMask c (live s e) = .ok m →
      (bwaDacc e.desc = false ∨ bwaAccin e.desc = true ∧ (begun s u i x e).handleLive x.g (bwaHandle e.desc) = true →
        exec (.bwaProduct u) s = .next ((begun s u i x e).setProg u i fun p => { p with groups := List.replicate 4 0 }))
      ∧ (bwaDacc e.desc = true → bwaAccin e.desc = false → (begun s u i x e).handleFree x.g (bwaHandle e.desc) = true →
        exec (.bwaProduct u) s
          = .next (((begun s u i x e).openHandle x.g (bwaHandle e.desc) (BitVec.ofNat 24 (fld e.desc 28 3))).setProg u i
              fun p => { p with groups := List.replicate 4 0 }))

/-- The passes. A lane group with lanes that may run their next plane counts one pass of each such lane; a row group whose next tile may be
passed counts one. The group's credit is kept where its next pass begins at once, and goes back otherwise. A group with no pass to run, and a
lane group of a descriptor whose next weight tile lies behind the fence, changes nothing. -/
def Sys2Proof.Cert.GroupPassesCount : Prop :=
  (∀ (s : State) (u group : Nat) (x : EngUnit) (c : Ctx) (i : Nat) (e : Entry) (fr : FtaFront) (run done : List Nat),
      Running s u 1 x c i e → group < 8 → e.perPass = 0 ∨ group ∈ e.prog.held → fr = s.ftaFront c e e.prog.groups → fr.err = none →
      run = ((List.range 8).map fun k => 8 * group + k).filter
        (laneReady fr.planes e.prog.ragged (ftaKt e.desc) e.prog.tiles e.prog.groups) → done = lanesAfter e run →
      (run ≠ [] → ∃ t, exec (.laneGroupPass u group) s = .next t
        ∧ PassDone e ((t.engine u).win.getD i e) group done (ftaGoesOn e fr (s.ftaFront c e done) done group = true))
      ∧ (run = [] → exec (.laneGroupPass u group) s = .next s))
  ∧ ∀ (s : State) (u group : Nat) (x : EngUnit) (c : Ctx) (i : Nat) (e : Entry) (m : List Byte), Running s u 2 x c i e →
      group < 4 → e.perPass = 0 ∨ group ∈ e.prog.held → s.bwaMask c e = .ok m →
      (∀ t ts, s.bwaGo x e m e.prog.groups group = some t → s.bwaTerms c e m t [group] = .ok ts →
        ∃ v, exec (.rowGroupPass u group) s = .next v
          ∧ PassDone e ((v.engine u).win.getD i e) group (rowsAfter e group) (s.bwaGo x e m (rowsAfter e group) group = some (t + 1)))
      ∧ (s.bwaGo x e m e.prog.groups group = none → exec (.rowGroupPass u group) s = .next s)

/-- The tiles leave the arrays. OUTPUT_TILE_DRAIN: the sums of a deposited output tile are added into the handle's tile, or stand at the
destination as values rounded once. BWA_TILE_RETIRE: a tile passed by its row groups leaves the array, into the handle's tile or rounded
once; a tile the mask empties writes +0 for each of its elements. The descriptor goes on to its next tile and ends DONE behind its
last. -/
def Sys2Proof.Cert.ArrayTilesLeave : Prop :=
  (∀ (s : State) (u : Nat) (x : EngUnit) (c : Ctx) (i : Nat) (e : Entry) (t : FtaTile), Running s u 1 x c i e → Deposited s c e →
      (s.store x.g 0).inForce (ftaClass e.desc) = true → s.ftaTile c e e.prog.tiles = .ok t →
      (∀ z, ftaDacc e.desc = true →
        (s.store x.g 0).tile? (ftaHandle e.desc).cls ((ftaHandle e.desc).base + e.prog.tiles) = some z →
        ∃ v : State, exec (.outputTileDrain u) s = .next v
          ∧ ((v.store x.g 0).tile? (ftaHandle e.desc).cls ((ftaHandle e.desc).base + e.prog.tiles)).map Tile.elems
              = some (addTerms 48 z.elems t.terms).1
          ∧ TileLeft e ((v.engine u).win.getD i e) (ftaNtiles e.desc))
      ∧ (ftaDacc e.desc = false → (s.store x.g 0).hasSlot 0 (ftaClass e.desc) = true →
        (∀ r < ftaMrows e.desc, Open s (.desc c) (ftaRowAt e e.prog.tiles r).1 (ftaRowAt e e.prog.tiles r).2
          ∧ OffRing s (.desc c) (s.queue 0) (ftaRowAt e e.prog.tiles r)) →
        ∃ v : State, exec (.outputTileDrain u) s = .next v ∧ TileLeft e ((v.engine u).win.getD i e) (ftaNtiles e.desc)
          ∧ ∀ r < ftaMrows e.desc, ∀ b, b = (if ftaDfmt e.desc = 2 then w24 else w16).pack (ftaRow e.desc t r) →
              v.read (.desc c) (ftaRowAt e e.prog.tiles r).1 b.length = .ok b))
  ∧ ∀ (s : State) (u : Nat) (x : EngUnit) (c : Ctx) (i : Nat) (e : Entry) (m : List Byte) (ts : List (Bool × Int × Nat)),
      Running s u 2 x c i e → s.bwaMask c e = .ok m → e.prog.tiles < curTile (bwaActive e.desc m) (bwaTiles e.desc) 0 e.prog.groups →
      (s.store x.g (1 + x.inst)).inForce (bwaClass e.desc) = true → s.bwaTerms c e m e.prog.tiles [0, 1, 2, 3] = .ok ts →
      (bwaDacc e.desc = true → ∃ t, exec (.bwaTileRetire u) s = .next t ∧ TileLeft e ((t.engine u).win.getD i e) (bwaTiles e.desc))
      ∧ ∀ rs, rs = bwaRetire e.desc (e.words c (fld e.desc 56 4)) e.prog.tiles ts → bwaDacc e.desc = false →
        (∀ r < 32, Open s (.desc c) (bwaRowAt e e.prog.tiles r).1 (bwaRowAt e e.prog.tiles r).2
          ∧ OffRing s (.desc c) (s.queue 0) (bwaRowAt e e.prog.tiles r)) →
        ∃ t, exec (.bwaTileRetire u) s = .next t ∧ TileLeft e ((t.engine u).win.getD i e) (bwaTiles e.desc)
          ∧ (∀ r < 32, ∀ b, b = (bwaOfmt e.desc).pack (((rs.drop (r * bwaC e.desc)).take (bwaC e.desc)).map fun z => z.code) →
              t.read (.desc c) (bwaRowAt e e.prog.tiles r).1 b.length = .ok b)
          ∧ (bwaTileMasked e.desc m e.prog.tiles = true → ∀ z ∈ rs, z = ⟨0, false, false⟩)

/-- The conversion descriptors whose body passes its checks run to their end in one command: FIT quantizes its blocks, WIDEN and WCONV
their rows, and TRACK and W12C, whose tracker line is valid, convert by its prediction. -/
def Sys2Proof.Cert.ConversionDescriptorsRun : Prop :=
  ∀ (s t : State) (u op : Nat) (x : EngUnit) (c : Ctx) (i : Nat) (e f : Entry), Ready s u 3 op x c i e → t = begun s u i x e →
    f = live s e → t.cveBody u x f = none →
    (op = 1 → exec (.fit u) s = .next (t.fitBlocks u i c f.desc (f.words c (cveStream f.desc)) (t.overridesOf f.hearth (hTag f.desc))
      (cveBlocks f.desc) 0 (cveNone f.desc)))
    ∧ (∀ b, op = 2 → (isAcc (cveSfmt f.desc) = true → t.deposited x.g (cveHandle f.desc) = true) →
        t.read (.desc c) (cveMetaF f.desc) 64 = .ok b → fld b 39 1 % 2 = 1 → exec (.track u) s = .next (t.trackRun x c u i f b))
    ∧ (∀ w, op = 3 → wFmt? (cveDfmt f.desc) = some w →
        exec (.widen u) s = .next (t.wRows c u i f.desc w (t.widenRow c f.desc w (f.words c (cveStream f.desc))) (cveRows f.desc) 0))
    ∧ (∀ g w, op = 4 → wFmt? (cveSfmt f.desc) = some g → wFmt? (cveDfmt f.desc) = some w →
        exec (.wconv u) s = .next (t.wRows c u i f.desc w (t.wconvRow c f.desc g w (f.words c (cveStream f.desc))) (cveRows f.desc) 0))
    ∧ ∀ g b, op = 5 → wFmt? (cveSfmt f.desc) = some g → t.read (.desc c) (cveMetaF f.desc) 64 = .ok b → fld b 39 1 % 2 = 1 →
        exec (.w12c u) s = .next (t.w12cRun c u i f g b)

/-- The row descriptors whose body passes its checks run their rows in ascending order, each row by the function of its OP, from the
state of their start; the last row's completion ends the descriptor with DONE. -/
def Sys2Proof.Cert.RowDescriptorsRun : Prop :=
  (∀ (s t : State) (u op : Nat) (x : EngUnit) (c : Ctx) (i : Nat) (e : Entry) (run : (Nat → Except Fail RowRes) → State),
      Ready s u 4 op x c i e → t = begun s u i x e → rowBody e.desc = true →
      run = (fun row => t.rowRun c u i (live s e) row (rowRows e.desc) 0) →
      (op = 1 → exec (.act u) s = .next (run (t.actRow c (live s e) (rowW s c e))))
      ∧ (op = 2 → exec (.actb u) s = .next (run (t.actbRow c (live s e) (rowW s c e))))
      ∧ (op = 3 → exec (.smx u) s = .next (run (t.smxRow c (live s e) (rowW s c e))))
      ∧ (op = 4 → exec (.smxb u) s = .next (run (t.smxbRow c (live s e) (rowW s c e))))
      ∧ (op = 5 → exec (.norm u) s = .next (run (t.normRow c (live s e) (rowW s c e))))
      ∧ (op = 6 → exec (.normb u) s = .next (run (t.normbRow c (live s e) (rowW s c e))))
      ∧ (op = 7 → exec (.xent u) s = .next (run (t.xentRow c (live s e) (rowW s c e))))
      ∧ (op = 8 → exec (.emul u) s = .next (run (t.emulRow c (live s e) (rowW s c e)))))
  ∧ ∀ (s t : State) (c : Ctx) (u i n r : Nat) (e : Entry) (row : Nat → Except Fail RowRes) (q : RowRes), row r = .ok q → q.more = [] →
      s.putW c (rowO e.desc) (e.base + fld e.desc 25 3) (r * rowLenp e.desc) (q.out.map fun z => z.code) = .ok t →
      ∃ v : State, s.rowRun c u i e row (n + 1) r = v.rowRun c u i e row n (r + 1) ∧ ∀ a, ¬ inRing (s.queue 0) a → v.byte a = t.byte a

/-- EMUL's element is the exact product of its two sources and PARAM, rounded once; a NaR factor gives NaR. -/
def Obligations.EmulIsExactProduct : Prop :=
  ∀ (s : State) (c : Ctx) (e : Entry) (w : Words) (r : Nat) (a b : List (Option Rat)) (q : RowRes),
    s.rowSrc c e r = .ok a → s.rowSrc2 c e r = .ok b → s.emulRow c e w r = .ok q →
    ∀ j (ha : j < a.length) (hb : j < b.length) (p : Rat), rowP e.desc = p → ∃ h : j < q.out.length,
      (∀ y z, a[j] = some y → b[j] = some z → q.out[j] = rowPut e.desc w r j (some (y * z * p)))
      ∧ (a[j] = none ∨ b[j] = none → q.out[j] = rowPut e.desc w r j none)
      ∧ (rowPut e.desc w r j none).code = (rowO e.desc).nar

/-- The random engines: BITS writes its blocks, BERN its mask bits from words drawn before the first write, the sampler its rows; and the
random-word service of a hearth answers, once, the words that the descriptor at a window's head asks for. -/
def Sys2Proof.Cert.RandomCommandsRun : Prop :=
  (∀ (s t : State) (u : Nat) (x : EngUnit) (c : Ctx) (i : Nat) (e : Entry), t = begun s u i x e → rngBody c e.desc = true →
      (Ready s u 5 1 x c i e → exec (.bits u) s = .next (t.bitsRun c u i x.g (live s e) (rngCount e.desc) 0))
      ∧ (Ready s u 5 2 x c i e → exec (.bern u) s
          = .next ((t.bernDraws c x.g (live s e)).2.bernRun c u i (live s e)
              { (live s e).words c (fld e.desc 32 4) with draws := (t.bernDraws c x.g (live s e)).1 } ((rngCount e.desc + 7) / 8) 0)))
  ∧ (∀ (s : State) (u : Nat) (x : EngUnit) (c : Ctx) (i : Nat) (e : Entry), Ready s u 6 1 x c i e → smpBody e.desc = true →
      exec (.smpSample u) s = .next ((begun s u i x e).smpRun c u i (live s e) ((live s e).words c (fld e.desc 46 4)) (smpRows e.desc) 0))
  ∧ ∀ (s : State) (u : Nat) (x : EngUnit) (c : Ctx) (i : Nat) (e : Entry), s.unit u = some x → (s.engine u).head = some (i, e) →
      s.ctx? e.ctx = some c → e.prog.served = false → headerOk c e.hearth e.desc = true → s.need c e ≤ e.credits →
      s.wordsAsked u x c { e with startBeat := s.ctxBeat e.ctx } ≠ [] →
      s.waitOk c e.hearth (hWait e.desc) (hCount e.desc) (hEpoch e.desc) = true →
      ∃ t, exec (.rngWordRequest u) s = .next t
        ∧ ((t.engine u).win.getD i e).prog.served = true
        ∧ ((t.engine u).win.getD i e).prog.draws
            = (s.serveWords c x.g (decide (x.eng = 6)) (s.wordsAsked u x c { e with startBeat := s.ctxBeat e.ctx })).1

/-- Under indexed words nothing of the streams changes, and the word of an element is a function of the seed,
the stream, the start's STEP and the element alone. -/
def Sys2Proof.Cert.IndexedWordsDrawNothing : Prop :=
  ∀ (s : State) (c : Ctx) (g : Nat) (smp : Bool) (es : List Nat), c.lane = false →
    (s.serveWords c g smp es).1 = [] ∧ (s.serveWords c g smp es).2.lanes = s.lanes
      ∧ ∀ (e e' : Entry) (st d k : Nat), e.startBeat.step = e'.startBeat.step → (e.words c st).w16 d k = (e'.words c st).w16 d k

/-- The update engine and the copies: OPT reads its parameters and mask and updates its elements, TIESUM adds the slots of its list, COPY
moves its rows, STREAM starts its ring and its chunks follow while CSYNC shows room, KVREAD and KVWRITE walk their work list. -/
def Sys2Proof.Cert.UpdateAndCopyDescriptorsRun : Prop :=
  (∀ (s t : State) (u : Nat) (x : EngUnit) (c : Ctx) (i : Nat) (e : Entry) (b m : List Byte) (o : OptParams), Ready s u 7 1 x c i e →
      t = begun s u i x e → optBody (live s e) = none → t.read (.desc c) (updP e.desc) 64 = .ok b → OptParams.of? b = some o →
      t.read (.desc c) (e.base + updMask e.desc) ((updMaskBits e.desc + 7) / 8) = .ok m →
      exec (.opt u) s = .next (t.optRun c u i (live s e) o m (updN e.desc) 0 ⟨0, 0, 0, 0, 0, 0⟩))
  ∧ (∀ (s t : State) (u : Nat) (x : EngUnit) (c : Ctx) (i : Nat) (e : Entry) (l : List Nat), Ready s u 7 2 x c i e → t = begun s u i x e →
      tieBody (live s e) = none → t.tieSlots c e.desc = .ok l →
      exec (.tiesum u) s = .next (t.tieRun c u i (live s e) ((live s e).words c (updStream e.desc)) l (updN e.desc) 0))
  ∧ (∀ (s t : State) (u : Nat) (x : EngUnit) (c : Ctx) (i : Nat) (e : Entry), Ready s u 8 1 x c i e → t = begun s u i x e →
      cpyBody e.desc = true → exec (.dmaCopy u) s = .next (t.cpyRun t c u i (live s e) (cpyRows e.desc) 0))
  ∧ (∀ (s t : State) (u : Nat) (x : EngUnit) (c : Ctx) (i : Nat) (e : Entry), Ready s u 8 2 x c i e → t = begun s u i x e →
      strBody c (live s e) = true → ∃ v, exec (.stream u) s = .next v
        ∧ ((v.engine u).win.getD i e).started = true ∧ ((v.engine u).win.getD i e).ended = e.ended
        ∧ ((v.engine u).win.getD i e).prog.c0 = (s.syncObj (syncRef c e.hearth (strCsync e.desc))).count
        ∧ ((v.engine u).win.getD i e).prog.e0 = (s.syncObj (syncRef c e.hearth (strCsync e.desc))).epoch
        ∧ ((v.engine u).win.getD i e).prog.pos = min (strDist e.desc) (strN e.desc))
  ∧ (∀ (s w : State) (u k : Nat) (x : EngUnit) (c : Ctx) (i : Nat) (e : Entry) (o : SyncObj) (bs : List Byte), Running s u 8 x c i e →
      hOp e.desc = 2 → o = s.syncObj (syncRef c e.hearth (strCsync e.desc)) → o.epoch = e.prog.e0 → k = e.prog.tiles →
      k < min (strN e.desc) (strDist e.desc + (o.count - e.prog.c0).toNat % 2 ^ 24) →
      s.read (.desc c) (fld e.desc 16 6 + k * strChunk e.desc) (strChunk e.desc) = .ok bs →
      s.write (.desc c) (fld e.desc 22 6 + k % strDist e.desc * strChunk e.desc) bs = .ok w →
      ∃ v : State, exec (.streamChunk u) s = .next v ∧ ((v.engine u).win.getD i e).prog.tiles = k + 1
        ∧ ((v.engine u).win.getD i e).ended = (if k + 1 = strN e.desc then some (.ok 0) else none)
        ∧ ∀ a, ¬ inRing (s.queue 0) a → v.byte a = w.byte a)
  ∧ ∀ (s t : State) (u : Nat) (x : EngUnit) (c : Ctx) (i : Nat) (e : Entry) (q : Seqt), t = begun s u i x e →
      t.kvTable c (live s e) = .ok q →
      (Ready s u 8 0x10 x c i e → s.kvReadOn u = none →
        exec (.kvread u) s = .next (t.kvReadRun c x u i (live s e) q (kvNe e.desc) 0 none))
      ∧ (Ready s u 8 0x11 x c i e → exec (.kvwrite u) s = .next (t.kvWriteRun c x u i (live s e) q (kvNe e.desc) 0 0))

/-- The page service of the engines: the oldest request of a running descriptor is answered, as an allocation or as a copy; a list whose
refresh is due is refreshed. -/
def Sys2Proof.Cert.PageServiceCommandsRun : Prop :=
  (∀ (s s0 t : State) (r : PageReq) (i : Nat) (e : Entry) (x : EngUnit) (c : Ctx), s.pageHead = some (r, i, e, x, c) →
      s0 = { s with pageReqs := s.pageReqs.drop 1 } → s0.pageAnswer c x r i e = .ok t →
      (r.copy = false → exec .pageAllocationRequest s = .next t) ∧ (r.copy = true → exec .copyOnWrite s = .next t))
  ∧ (∀ (s s0 : State) (r : PageReq) (i : Nat) (e : Entry) (x : EngUnit) (c : Ctx) (f : Fail), s.pageHead = some (r, i, e, x, c) →
      s0 = { s with pageReqs := s.pageReqs.drop 1 } → s0.pageAnswer c x r i e = .error f →
      (r.copy = false → exec .pageAllocationRequest s = .next (s0.endEntry r.u i (.fail f)))
      ∧ (r.copy = true → exec .copyOnWrite s = .next (s0.endEntry r.u i (.fail f))))
  ∧ ∀ (s : State) (ctx slot : Nat) (c : Ctx) (q : Seqt) (r : State × Nat), s.ctx? ctx = some c → s.ctxSeqt c = some q →
      s.refreshDue c q slot = true → slot < q.nseqt → s.refreshList c q slot = .ok r → exec (.listRefresh ctx slot) s = .next r.1

/-- The accumulator operations. ADD adds its images into its handle, opened first under ZERO; EXPORT writes the handle's image; RETIRE its
elements rounded once; RELEASE frees it; under REL the handle is freed. REDUCE starts at its first level with children or a parent; a level
with a parent that grants sends the image into the parent's slot, signals it and frees the handle, and a level whose children have all
arrived adds their images in slot order, into a handle reloaded first where a class change has drained it, and goes on. -/
def Sys2Proof.Cert.AccumulatorDescriptorsRun : Prop :=
  (∀ (s t : State) (u : Nat) (x : EngUnit) (c : Ctx) (i : Nat) (e : Entry) (h : Handle), Ready s u 9 1 x c i e → t = begun s u i x e →
      h = xreHandle e.desc → xreForm e.desc = true → 1 ≤ xreNsrc e.desc → xreNsrc e.desc ≤ 8 → t.handleOk x.g h = true →
      t.classForeign x (live s e) = false → t.classReady x (live s e) = true →
      (xreZero e.desc = true → t.handleFree x.g h = true →
        exec (.xreAdd u) s = .next ((t.openHandle x.g h (BitVec.ofNat 24 (fld e.desc 16 3))).addRun c u i x.g (live s e) h))
      ∧ (xreZero e.desc = false → t.handleLive x.g h = true → t.deposited x.g h = true →
        exec (.xreAdd u) s = .next (t.addRun c u i x.g (live s e) h)))
  ∧ (∀ (s t w : State) (u op : Nat) (x : EngUnit) (c : Ctx) (i : Nat) (e : Entry) (h : Handle) (l : List (SMap Elem)),
      Ready s u 9 op x c i e → t = begun s u i x e → h = xreHandle e.desc → xreForm e.desc = true → t.handleOk x.g h = true →
      t.handleLive x.g h = true → t.deposited x.g h = true →
      (op = 6 → exec (.release u) s = .next ((t.freeHandle x.g h).endEntry u i (.ok 0)))
      ∧ (op = 2 → imageAt (xreDst e.desc) = .ok () → t.handleElems c x.g h = .ok l →
          t.write (.desc c) (xreDst e.desc) (handleImage h.cls (xreCmpct e.desc) l) = .ok w →
          exec (.exportImage u) s
            = .next (((w.count u 1 (handleImage h.cls (xreCmpct e.desc) l).length).relHandle x.g e.desc).endEntry u i (.ok 0)))
      ∧ ∀ un, op = 3 → t.retireBody x (live s e) = none → t.handleElems c x.g h = .ok l → t.retireUnits c e.desc = .ok un →
          t.retireRun c u (live s e) ((live s e).words c (xreStream e.desc)) l un = (w, none) →
          exec (.retire u) s = .next ((w.relHandle x.g e.desc).endEntry u i (.ok 0)))
  ∧ (∀ (s t : State) (u : Nat) (x : EngUnit) (c : Ctx) (i : Nat) (e : Entry) (ps : List Nat), Ready s u 9 4 x c i e → t = begun s u i x e →
      redParts c x.g e.desc = some ps → xreForm e.desc = true → t.handleOk x.g (xreHandle e.desc) = true → xreRxoff e.desc % 64 = 0 →
      xreRsync e.desc < 64 → t.classForeign x (live s e) = false → t.handleLive x.g (xreHandle e.desc) = true →
      t.classReady x (live s e) = true → t.deposited x.g (xreHandle e.desc) = true →
      exec (.reduce u) s
        = .next ((t.setProg u i fun p => { p with c0 := (t.syncObj (.loc (x.g * 64 + xreRsync e.desc))).count }).redAt u i c x.g ps 0 0))
  ∧ ∀ (s : State) (u : Nat) (x : EngUnit) (c : Ctx) (i : Nat) (e : Entry) (ps : List Nat), Running s u 9 x c i e → hOp e.desc = 4 →
      redParts c x.g e.desc = some ps →
      (∀ p l w, redParent c ps e.prog.tiles x.g = some p → s.redGranted e.desc e.ctx p.1 e.prog.tiles = true →
        s.handleElems c x.g (xreHandle e.desc) = .ok l →
        s.write (.desc c) (hearthBase p.1 + xreRxoff e.desc + p.2 * ((xreHandle e.desc).cnt * fullImage (xreHandle e.desc).cls))
          (handleImage (xreHandle e.desc).cls (xreCmpct e.desc) l) = .ok w →
        exec (.reduceLevelProceed u) s
          = .next ((((w.count u 1 (handleImage (xreHandle e.desc).cls (xreCmpct e.desc) l).length).signal
              (.loc (p.1 * 64 + xreRsync e.desc)) false 1).freeHandle x.g (xreHandle e.desc)).endEntry u i (.ok 0)))
      ∧ ∀ n v w, redParent c ps e.prog.tiles x.g = none → n = (redKids c ps e.prog.tiles x.g).length →
        e.prog.pos + n ≤ ((s.syncObj (.loc (x.g * 64 + xreRsync e.desc))).count - e.prog.c0).toNat →
        (s.handleDrained x.g (xreHandle e.desc) = true → s.storeRuns x.g (xreHandle e.desc).st = false) →
        (if s.handleDrained x.g (xreHandle e.desc) then s.classChange c x.g (xreHandle e.desc).st (xreHandle e.desc).cls else some (.ok s))
          = some (.ok v) → v.redAdd c u x.g e (xreHandle e.desc) n 0 = (w, none) →
        exec (.reduceLevelProceed u) s = .next (w.redAt u i c x.g ps (e.prog.tiles + 1) (e.prog.pos + n))

/-- The cross-package sum: PKGSUM grants its children their buffers and goes on as far as what has come allows; a parent's grant, a
child's array and the broadcast are kept, and the descriptor goes on; an error flit fails it. -/
def Sys2Proof.Cert.PackageSumCommandsRun : Prop :=
  (∀ (s t : State) (u : Nat) (x : EngUnit) (c : Ctx) (i : Nat) (e : Entry), Ready s u 9 5 x c i e → t = begun s u i x e →
      t.pkgBody (live s e) = none → xreCmask e.desc = 0 →
      exec (.pkgsum u) s = .next ((t.setProg u i fun p => { p with tiles := if t.portUp 2 then 1 else 0 }).pkgProceed c u i))
  ∧ (∀ (s t : State) (u k : Nat) (x : EngUnit) (c : Ctx) (i : Nat) (e : Entry), Ready s u 9 5 x c i e → t = begun s u i x e →
      t.pkgBody (live s e) = none → pkgKids e.desc = [k] →
      exec (.pkgsum u) s
        = .next ((((t.addOut (.grant (3 + k) (BitVec.ofNat 48 (pkgAt e.desc k)) (BitVec.ofNat 8 (xreOfmt e.desc)) (pkgN e.desc))).sendControl
            (3 + k)).setProg u i fun p => { p with tiles := if t.portUp 2 then 1 else 0 }).pkgProceed c u i))
  ∧ ∀ (s : State) (u i : Nat) (e : Entry) (c : Ctx), s.pkgRun u = some (i, e, c) →
      (∀ addr fmt count, e.prog.tiles ≠ 0 → e.prog.grant = none → fmt.toNat = (if s.xfmt then 3 else 2) → count = pkgN e.desc →
        exec (.pkgsumGrant u addr fmt count) s
          = .next ((s.setProg u i fun p => { p with grant := some (addr, fmt, count) }).pkgProceed c u i))
      ∧ (xreCmask e.desc ≠ 0 → exec (.pkgsumErrorFlit u) s = .next (s.endEntry u i (.fail { code := eBusErr, addr := e.addr })))
      ∧ (∀ child bytes dst w, child ∈ pkgKids e.desc → (∀ p ∈ e.prog.arrived, p.1 ≠ child) →
          bytes.length = pkgBuf (xreOfmt e.desc) (pkgN e.desc) → s.write (.desc c) (pkgAt e.desc child) bytes = .ok w →
          exec (.pkgsumChildArrival u child bytes dst) s
            = .next ((w.setProg u i fun p => { p with arrived := p.arrived ++ [(child, dst)] }).pkgProceed c u i))
      ∧ ∀ bytes w, e.prog.granted = true → bytes.length = 3 * pkgN e.desc → s.write (.desc c) (xreDst e.desc) bytes = .ok w →
          exec (.pkgsumBroadcast u bytes) s = .next ((w.pkgForward e bytes).endEntry u i (.ok 0))

/-- STORE_CLASS_CHANGE: for the descriptor at the head of a window that waits for a class of its store, an empty store takes the class;
one with live tiles keeps waiting unless evictions are allowed. -/
def Sys2Proof.Cert.StoreTakesClass : Prop :=
  ∀ (s : State) (u : Nat) (x : EngUnit) (c : Ctx) (i st cls : Nat) (e : Entry), s.unit u = some x → (s.engine u).head = some (i, e) →
    s.ctx? e.ctx = some c → s.blockFail u e = none → headerOk c e.hearth e.desc = true → hFence e.desc = false ∨ i = 0 →
    s.waitOk c e.hearth (hWait e.desc) (hCount e.desc) (hEpoch e.desc) = true → s.need c e ≤ e.credits → s.classReady x e = false →
    s.storeBusy u x e = false → s.classNeed x e = some (st, cls) →
    ((s.store x.g st).tiles = [] → exec (.storeClassChange u) s = .next (s.repartition x.g st cls)
        ∧ ((s.store x.g st).split = s.splitCfg x.g st → ((s.repartition x.g st cls).store x.g st).cls = some cls))
    ∧ ((s.store x.g st).tiles ≠ [] → (∀ p ∈ (s.store x.g st).tiles, p.2.drained = false) → (s.xreDrain x.g) / 2 ^ 31 % 2 = 0 →
        exec (.storeClassChange u) s = .next s)

/-- A descriptor that the engine cannot run fails with its own address, and nothing of it runs: one whose engine's page holds a word with
wrong parity (CFG_PARITY at the word), whose clocks are not qualified (CLK_UNQUAL) or whose wrapper is isolated (ISO_ERR), and one whose
header breaks R280 (BUS_ERR). One whose wait or credits are not there yet stays as it is. -/
def Sys2Proof.Cert.BadDescriptorsFail : Prop :=
  ∀ (s : State) (u : Nat) (x : EngUnit) (c : Ctx) (i : Nat) (e : Entry), s.unit u = some x → (s.engine u).head = some (i, e) →
    s.ctx? e.ctx = some c → hFence e.desc = false ∨ i = 0 →
    ∀ p ∈ [(1, 1, Instr.ftaTableProduct u), (1, 2, .ftaTva7200Product u), (2, 1, .bwaProduct u), (3, 1, .fit u), (3, 2, .track u),
        (3, 3, .widen u), (3, 4, .wconv u), (3, 5, .w12c u), (4, 1, .act u), (4, 2, .actb u), (4, 3, .smx u), (4, 4, .smxb u),
        (4, 5, .norm u), (4, 6, .normb u), (4, 7, .xent u), (4, 8, .emul u), (5, 1, .bits u), (5, 2, .bern u), (6, 1, .smpSample u),
        (7, 1, .opt u), (7, 2, .tiesum u), (8, 1, .dmaCopy u), (8, 2, .stream u), (8, 0x10, .kvread u), (8, 0x11, .kvwrite u),
        (9, 1, .xreAdd u), (9, 2, .exportImage u), (9, 3, .retire u), (9, 4, .reduce u), (9, 5, .pkgsum u), (9, 6, .release u)],
      x.eng = p.1 → hOp e.desc = p.2.1 →
      (∀ f, s.blockFail u e = some f → ∃ t, exec p.2.2 s = .next t ∧ ((t.engine u).win.getD i e).ended = some (.fail f)
          ∧ (f.code = eCfgParity ∨ f.code = eClkUnqual ∨ f.code = eIso ∨ f.code = eBusErr) ∧ t.stores = s.stores ∧ t.psync = s.psync)
      ∧ (s.blockFail u e = none → headerOk c e.hearth e.desc = false →
          exec p.2.2 s = .next (s.endEntry u i (.fail { code := eBusErr, addr := e.addr })))
      ∧ (s.blockFail u e = none → headerOk c e.hearth e.desc = true →
          (s.waitOk c e.hearth (hWait e.desc) (hCount e.desc) (hEpoch e.desc) = false ∨ e.credits < s.need c e) →
          exec p.2.2 s = .next s)

/-- DESCRIPTOR_COMPLETE: an ended descriptor leaves its window; one that is DONE, without flags and contribution, signals SIG_SYNC by
1 and nothing more; a FAILED one is handed to the failure rules of R222. -/
def Sys2Proof.Cert.DescriptorCompleteEnds : Prop :=
  (∀ (s : State) (u i : Nat) (e : Entry) (c : Ctx) (x : EngUnit), s.unit u = some x → s.entry? u i = some e → e.ended = some (.ok 0) →
      s.ctx? e.ctx = some c → e.contrib = none → e.flags = [] →
      exec (.descriptorComplete u i) s = .next ((s.leaveWindow u i e (.ok 0)).signalFrom c e.hearth (hSig e.desc) false 1)
      ∧ ((s.leaveWindow u i e (.ok 0)).engine u).win = (s.engine u).win.eraseIdx i)
  ∧ ∀ (s : State) (u i : Nat) (e : Entry) (c : Ctx) (f : Fail), s.entry? u i = some e → e.ended = some (.fail f) → s.ctx? e.ctx = some c →
      exec (.descriptorComplete u i) s
        = .next (((s.memFail (.desc c) f).leaveWindow u i e (.fail f)).descFailed e.ctx c e (.fail f))

namespace Sys2Proof.Cert

/-! What the engines' operands need for a descriptor to end DONE. -/

/-- The arrays of a row descriptor can be read, row by row (Tables 7.1 and 7.4): its source; the second source of ACTB, SMXB, NORMB and
EMUL; XENT's labels, each below LEN or 0xFFFF_FFFF (R167); gamma and beta (R168); NORMB's statistics (R169). -/
structure RowReads (s : State) (c : Ctx) (e : Entry) : Prop where
  src : ∀ r < rowRows e.desc, ∃ l, s.rowSrc c e r = .ok l
  src2 : hOp e.desc ∈ [2, 4, 6, 8] → ∀ r < rowRows e.desc, ∃ l, s.rowSrc2 c e r = .ok l
  label : hOp e.desc = 7 → ∀ r < rowRows e.desc, ∃ v, s.rd c (rowLabel e r) 4 = .ok v ∧ (v < rowLen e.desc ∨ v = 0xFFFFFFFF)
  gamma : hOp e.desc = 5 ∨ hOp e.desc = 6 → ∃ l, s.rowAffineArr c e 0 = .ok l
  beta : hOp e.desc = 5 → ∃ l, s.rowAffineArr c e 1 = .ok l
  stats : hOp e.desc = 6 → ∀ r < rowRows e.desc, ∃ v, s.rd c (e.base + fld e.desc 31 3 + 8 * r) 6 = .ok v

/-- Every array that a row descriptor writes can be reached (R177). -/
def RowWrites (s : State) (c : Ctx) (e : Entry) : Prop :=
  ∀ p ∈ rowRanges e 0, Open s (.desc c) (p.1 / 8) ((p.2 + 7) / 8)

/-- The bytes of an array of a conversion: of a W format, or of the Q format that the descriptor names. -/
def cveBytes (d : List Byte) (fmt : Nat) : Nat :=
  match wFmt? fmt with
  | some f => f.bytesFor (cveRows d * cveLenp d)
  | none => cveQBytes d

/-- The arrays of a conversion can be reached (R49): its source in memory, its destination (behind the 64 header bytes of W12C),
metadata and outlier regions of a Q destination, a tracker. -/
structure CveOpen (s : State) (c : Ctx) (d : List Byte) : Prop where
  src : isAcc (cveSfmt d) = false → Open s (.desc c) (cveSrc d) (cveBytes d (cveSfmt d))
  dst : Open s (.desc c) (cveDst d) (cveBytes d (cveDfmt d) + if hOp d = 5 then 64 else 0)
  words : hOp d = 1 ∨ hOp d = 2 → Open s (.desc c) (cveMetaF d) (cveScales d - cveMetaF d)
  outl : hOp d = 1 ∨ hOp d = 2 → Open s (.desc c) (cveOutl d) (512 * cveRows d)
  tracker : hOp d = 2 ∨ hOp d = 5 → Open s (.desc c) (cveMetaF d) 64

/-- Under WMIN the width-map bytes that FIT starts from hold widths (R63), and lie apart from what it writes. -/
structure FitWidths (s : State) (c : Ctx) (d : List Byte) : Prop where
  good : ∀ b < cveBlocks d, ∃ n, s.widthAt c (cveWmap d + b) (cveRw d) = .ok n
  dst : Apart s (.desc c) (cveWmap d, cveBlocks d) (cveDst d, cveQBytes d)
  outl : Apart s (.desc c) (cveWmap d, cveBlocks d) (cveOutl d, 512 * cveRows d)
  off : OffRing s (.desc c) (s.queue 0) (cveWmap d, cveBlocks d)

/-- The accumulator source of a TRACK can be read: its tiles, and the scales of its rows and columns (R49, R68, R108). -/
structure TrackSource (s : State) (x : EngUnit) (c : Ctx) (d : List Byte) : Prop where
  there : s.deposited x.g (cveHandle d) = true
  tiles : ∃ l, s.handleElems c x.g (cveHandle d) = .ok l
  rows : cveSfmt d = 0x20 → ∀ r < cveRows d, ∃ m, s.metaAt c (cveScales d + 4 * r) (fun _ => true) = .ok m
  cols : cveSfmt d = 0x20 → ∀ k < cveLen d,
    ∃ m, s.metaAt c (cveScales d + align64 (4 * cveRows d) + 4 * k) (fun _ => true) = .ok m

/-- Each row of a WIDEN has a metadata word of the width that its block has (R37, R50), and the words lie apart from the destination. -/
structure WidenWords (s : State) (c : Ctx) (d : List Byte) : Prop where
  flat : cveLayout d = false →
    ∀ r < cveRows d, ∃ m, s.metaAt c (cveMetaArr d + 4 * r) (fun m => decide (m.n ≤ cveRw d)) = .ok m
  tiles : cveLayout d = true → ∀ r < cveRows d, ∃ g m, s.widenGroup c d (r / 64) = .ok g
    ∧ s.metaAt c (cveMetaArr d + 4 * r) (fun m => decide (m.n = g.1)) = .ok m
  dst : Apart s (.desc c) (cveMetaArr d, cveScales d - cveMetaArr d) (cveDst d, cveBytes d (cveDfmt d))
  off : OffRing s (.desc c) (s.queue 0) (cveMetaArr d, cveScales d - cveMetaArr d)

/-- The arrays of an OPT can be reached (Table 9.2). -/
structure OptOpen (s : State) (c : Ctx) (e : Entry) (sgd : Bool) : Prop where
  w : Open s (.desc c) (updW e.desc) (2 * updN e.desc)
  t : Open s (.desc c) (updT e.desc) (updN e.desc)
  m : Open s (.desc c) (updM e.desc) (3 * updN e.desc)
  m2 : sgd = false → Open s (.desc c) (updM2 e.desc) (3 * updN e.desc)
  g : Open s (.desc c) (updG e.desc) ((updGrad e.desc).bytesFor (updN e.desc))
  mask : Open s (.desc c) (e.base + updMask e.desc) ((updMaskBits e.desc + 7) / 8)

end Sys2Proof.Cert

/-- Every row operation ends its descriptor with DONE once its body passes R177 and its arrays can be read and written. -/
def Sys2Proof.Cert.RowDescriptorsEndDone : Prop :=
  ∀ (s : State) (u : Nat) (x : EngUnit) (c : Ctx) (i : Nat) (e : Entry), rowBody e.desc = true → RowReads s c e → RowWrites s c e →
    ∀ p ∈ [(1, Instr.act u), (2, .actb u), (3, .smx u), (4, .smxb u), (5, .norm u), (6, .normb u), (7, .xent u), (8, .emul u)],
      Ready s u 4 p.1 x c i e → ∃ t, exec p.2 s = .next t ∧ Ended t u i e (.ok 0)

/-- Every conversion ends its descriptor with DONE, and with the lowest of its flags as a warning (R75), once its body passes R50, its
arrays can be reached and what it reads of metadata is well formed: FIT with OUTL_OVF or WIDTH_REFUSED, TRACK with SCALE_MISS or OUTL_OVF,
W12C with SCALE_MISS; WIDEN and WCONV raise none. -/
def Sys2Proof.Cert.ConversionsEndDone : Prop :=
  ∀ (s : State) (u op : Nat) (x : EngUnit) (c : Ctx) (i : Nat) (e : Entry), Ready s u 3 op x c i e → s.cveBody u x e = none →
    CveOpen s c e.desc →
    (op = 1 → (cveWmin e.desc = true → FitWidths s c e.desc) →
      ∃ t w, exec (.fit u) s = .next t ∧ Ended t u i e (.ok w) ∧ (w = 0 ∨ w = eOutlOvf ∨ w = eWidthRefused))
    ∧ (∀ b, op = 2 → (isAcc (cveSfmt e.desc) = true → TrackSource s x c e.desc) → s.read (.desc c) (cveMetaF e.desc) 64 = .ok b →
        fld b 39 1 % 2 = 1 →
        ∃ t w, exec (.track u) s = .next t ∧ Ended t u i e (.ok w) ∧ (w = 0 ∨ w = eScaleMiss ∨ w = eOutlOvf))
    ∧ (op = 3 → WidenWords s c e.desc → ∃ t, exec (.widen u) s = .next t ∧ Ended t u i e (.ok 0))
    ∧ (op = 4 → ∃ t, exec (.wconv u) s = .next t ∧ Ended t u i e (.ok 0))
    ∧ ∀ b, op = 5 → s.read (.desc c) (cveMetaF e.desc) 64 = .ok b → fld b 39 1 % 2 = 1 →
        ∃ t w, exec (.w12c u) s = .next t ∧ Ended t u i e (.ok w) ∧ (w = 0 ∨ w = eScaleMiss)

/-- BITS, BERN and SMP_SAMPLE end their descriptors with DONE once their bodies pass R198 or R204 and their arrays can be reached. -/
def Sys2Proof.Cert.RandomDescriptorsEndDone : Prop :=
  ∀ (s : State) (u : Nat) (x : EngUnit) (c : Ctx) (i : Nat) (e : Entry),
    (Ready s u 5 1 x c i e → rngBody c e.desc = true → Open s (.desc c) (rngDst e.desc) (16 * rngCount e.desc) →
      ∃ t, exec (.bits u) s = .next t ∧ Ended t u i e (.ok 0))
    ∧ (Ready s u 5 2 x c i e → rngBody c e.desc = true → Open s (.desc c) (rngDst e.desc) ((rngCount e.desc + 7) / 8) →
      ∃ t, exec (.bern u) s = .next t ∧ Ended t u i e (.ok 0))
    ∧ (Ready s u 6 1 x c i e → smpBody e.desc = true →
      Open s (.desc c) (fld e.desc 16 6) (if smpLvin e.desc then 4 * (smpRows e.desc * align64 (smpLen e.desc))
        else ((wFmt? (smpFmt e.desc)).getD w16).bytesFor (smpRows e.desc * align64 (smpLen e.desc))) →
      Open s (.desc c) (e.base + fld e.desc 22 3) (4 * smpRows e.desc) →
      (smpLpo e.desc = true → Open s (.desc c) (e.base + fld e.desc 25 3) (4 * smpRows e.desc)) →
      ∃ t, exec (.smpSample u) s = .next t ∧ Ended t u i e (.ok 0))

/-- OPT, TIESUM and COPY end their descriptors with DONE once their bodies pass R216 or R353, their parameter block or slot list is well
formed (Table 9.3) and their arrays can be reached. -/
def Sys2Proof.Cert.UpdatesAndCopiesEndDone : Prop :=
  ∀ (s : State) (u : Nat) (x : EngUnit) (c : Ctx) (i : Nat) (e : Entry),
    (∀ b o, Ready s u 7 1 x c i e → optBody (live s e) = none → s.read (.desc c) (updP e.desc) 64 = .ok b → OptParams.of? b = some o →
      OptOpen s c e o.sgd → ∃ t, exec (.opt u) s = .next t ∧ Ended t u i e (.ok 0))
    ∧ (∀ l, Ready s u 7 2 x c i e → tieBody (live s e) = none → s.tieSlots c e.desc = .ok l →
      (∀ a ∈ l, Open s (.desc c) a (((wFmt? (updSfmt e.desc)).getD w16).bytesFor (updN e.desc))) →
      Open s (.desc c) (updT e.desc) ((if updDfmt e.desc = 2 then 3 else 2) * updN e.desc) →
      ∃ t, exec (.tiesum u) s = .next t ∧ Ended t u i e (.ok 0))
    ∧ (Ready s u 8 1 x c i e → cpyBody e.desc = true →
      (cpyZero e.desc = false → ∀ r < cpyRows e.desc, Open s (.desc c) (cpySrc e.desc + r * cpySstr e.desc) (cpyLen e.desc)) →
      (∀ r < cpyRows e.desc, Open s (.desc c) (cpyDst e.desc + r * cpyDstr e.desc) (cpyLen e.desc)) →
      ∃ t, exec (.dmaCopy u) s = .next t ∧ Ended t u i e (.ok 0))

namespace Sys2Proof.Cert

/-- A well-formed image of tiles `k` onward of a class stands at `a`, `n` of them (R114). -/
def ImageAt (s : State) (c : Ctx) (cls : Nat) : Nat → Nat → Nat → Prop
  | 0, _, _ => True
  | n + 1, k, a => ∃ q, s.readTile c cls k a = .ok q ∧ ImageAt s c cls n (k + 1) q.2.2

/-- A handle's image of a well-formed source stands at `a`, and no part of it in the admin queue's event ring. -/
structure Image (s : State) (c : Ctx) (h : Handle) (a : Nat) : Prop where
  aligned : a % 64 = 0
  tiles : ImageAt s c h.cls h.cnt 0 a
  off : OffRing s (.desc c) (s.queue 0) (a, h.cnt * fullImage h.cls)

/-- The handle of an accumulator operation passes R106 and R107, its tiles are there, and its class need not change first. -/
structure HandleThere (s : State) (x : EngUnit) (e : Entry) : Prop where
  ok : s.handleOk x.g (xreHandle e.desc) = true
  live : s.handleLive x.g (xreHandle e.desc) = true
  there : s.deposited x.g (xreHandle e.desc) = true

/-- A descriptor of the package sum that has not begun: its entry as admission left it. -/
structure Fresh (e : Entry) : Prop where
  pos : e.prog.pos = 0
  granted : e.prog.granted = false
  grant : e.prog.grant = none
  arrived : e.prog.arrived = []

/-- The arrays of a package sum can be reached: its own contribution, its result, the children's receive buffers (R127). -/
structure SumOpen (s : State) (c : Ctx) (d : List Byte) : Prop where
  src : Open s (.desc c) (xreSrc d) (3 * pkgN d)
  dst : Open s (.desc c) (xreDst d) (3 * pkgN d)
  kids : ∀ k ∈ pkgKids d, Open s (.desc c) (pkgAt d k) (pkgBuf (xreOfmt d) (pkgN d))

end Sys2Proof.Cert

/-- ADD, EXPORT, RETIRE and RELEASE end their descriptors with DONE: ADD with well-formed images at its sources, EXPORT and RETIRE with
their tiles readable and their destination within reach, RETIRE of an A48 handle with well-formed scales. -/
def Sys2Proof.Cert.AccumulatorDescriptorsEndDone : Prop :=
  ∀ (s : State) (u op : Nat) (x : EngUnit) (c : Ctx) (i : Nat) (e : Entry) (h : Handle), Ready s u 9 op x c i e →
    h = xreHandle e.desc → xreForm e.desc = true →
    (∀ l, op = 1 → 1 ≤ xreNsrc e.desc → xreNsrc e.desc ≤ 8 → s.handleOk x.g h = true → s.classForeign x (live s e) = false →
      s.classReady x (live s e) = true → s.addList c e.desc = .ok l → (∀ a ∈ l, Image s c h a) →
      (if xreZero e.desc then s.handleFree x.g h = true else s.handleLive x.g h = true ∧ s.deposited x.g h = true) →
      ∃ t, exec (.xreAdd u) s = .next t ∧ Ended t u i e (.ok 0))
    ∧ (∀ l, op = 2 → HandleThere s x e → xreDst e.desc % 64 = 0 → s.handleElems c x.g h = .ok l →
      Open s (.desc c) (xreDst e.desc) (handleImage h.cls (xreCmpct e.desc) l).length →
      ∃ t, exec (.exportImage u) s = .next t ∧ Ended t u i e (.ok 0))
    ∧ (∀ l un, op = 3 → HandleThere s x e → s.retireBody x e = none → s.handleElems c x.g h = .ok l →
      s.retireUnits c e.desc = .ok un →
      Open s (.desc c) (xreDst e.desc) (((wFmt? (xreOfmt e.desc)).getD w16).bytesFor (h.cnt * clsElems h.cls)) →
      ∃ t, exec (.retire u) s = .next t ∧ Ended t u i e (.ok 0))
    ∧ (op = 6 → HandleThere s x e → ∃ t, exec (.release u) s = .next t ∧ Ended t u i e (.ok 0)
        ∧ ∀ k ∈ h.idx, (t.store x.g h.st).tile? h.cls k = none)

/-- REDUCE starts at its first level with children or a parent, and ends at once where it has none; at a level that it leads, once its
children have arrived with well-formed images, it goes on to its next such level; where its parent grants, it sends its image and ends. -/
def Sys2Proof.Cert.ReductionLevelsEnd : Prop :=
  (∀ (s : State) (u : Nat) (x : EngUnit) (c : Ctx) (i : Nat) (e : Entry) (ps : List Nat), Ready s u 9 4 x c i e →
      redParts c x.g e.desc = some ps → xreForm e.desc = true → HandleThere s x e → xreRxoff e.desc % 64 = 0 →
      xreRsync e.desc < 64 → s.classForeign x (live s e) = false → s.classReady x (live s e) = true → e.ended = none →
      ∃ t, exec (.reduce u) s = .next t ∧ ((t.engine u).win.getD i e).prog.tiles = redNext c ps x.g 5 0
        ∧ ((t.engine u).win.getD i e).ended = if redNext c ps x.g 5 0 = 5 then some (.ok 0) else none)
  ∧ ∀ (s : State) (u : Nat) (x : EngUnit) (c : Ctx) (i : Nat) (e : Entry) (ps : List Nat) (h : Handle), Running s u 9 x c i e →
      hOp e.desc = 4 → redParts c x.g e.desc = some ps → h = xreHandle e.desc → e.ended = none →
      (∀ p l, redParent c ps e.prog.tiles x.g = some p → s.redGranted e.desc e.ctx p.1 e.prog.tiles = true →
        s.handleElems c x.g h = .ok l →
        Open s (.desc c) (hearthBase p.1 + xreRxoff e.desc + p.2 * (h.cnt * fullImage h.cls))
          (handleImage h.cls (xreCmpct e.desc) l).length →
        ∃ t, exec (.reduceLevelProceed u) s = .next t ∧ Ended t u i e (.ok 0)
          ∧ ∀ k ∈ h.idx, (t.store x.g h.st).tile? h.cls k = none)
      ∧ ∀ n, redParent c ps e.prog.tiles x.g = none → n = (redKids c ps e.prog.tiles x.g).length →
        e.prog.pos + n ≤ ((s.syncObj (.loc (x.g * 64 + xreRsync e.desc))).count - e.prog.c0).toNat → s.handleDrained x.g h = false →
        (∀ k < n, Image s c h (hearthBase x.g + xreRxoff e.desc + k * (h.cnt * fullImage h.cls))) →
        ∃ t, exec (.reduceLevelProceed u) s = .next t
          ∧ ((t.engine u).win.getD i e).prog.tiles = redNext c ps x.g 5 (e.prog.tiles + 1)
          ∧ ((t.engine u).win.getD i e).ended = if redNext c ps x.g 5 (e.prog.tiles + 1) = 5 then some (.ok 0) else none

/-- The package sum goes through its stages (R430). A PKGSUM with children waits for their arrays; one without forms its result at once,
and ends where it has no parent. An arrival that leaves another child missing is kept; the last one lets the result be formed. A grant is
kept until the result is formed; with it there, the result is uploaded to the granted address. The broadcast ends the descriptor. -/
def Sys2Proof.Cert.PackageSumStagesEnd : Prop :=
  (∀ (s : State) (u : Nat) (x : EngUnit) (c : Ctx) (i : Nat) (e : Entry), Ready s u 9 5 x c i e → s.pkgBody (live s e) = none →
      Fresh e → e.ended = none → SumOpen s c e.desc →
      (xreCmask e.desc = 0 → s.portUp 2 = false → ∃ t, exec (.pkgsum u) s = .next t ∧ Ended t u i e (.ok 0))
      ∧ (xreCmask e.desc = 0 → s.portUp 2 = true → ∃ t, exec (.pkgsum u) s = .next t
          ∧ ((t.engine u).win.getD i e).prog.pos = 1 ∧ ((t.engine u).win.getD i e).prog.tiles = 1
          ∧ ((t.engine u).win.getD i e).ended = none)
      ∧ (xreCmask e.desc ≠ 0 → ∃ t, exec (.pkgsum u) s = .next t
          ∧ ((t.engine u).win.getD i e).prog.pos = 0 ∧ ((t.engine u).win.getD i e).ended = none
          ∧ ∀ k ∈ pkgKids e.desc, Out.grant (3 + k) (BitVec.ofNat 48 (pkgAt e.desc k)) (BitVec.ofNat 8 (xreOfmt e.desc)) (pkgN e.desc) ∈ t.out))
  ∧ ∀ (s : State) (u i : Nat) (e : Entry) (c : Ctx), s.pkgRun u = some (i, e, c) → e.ended = none → SumOpen s c e.desc →
      (∀ addr fmt count, e.prog.tiles ≠ 0 → e.prog.grant = none → e.prog.granted = false → fmt.toNat = (if s.xfmt then 3 else 2) →
        count = pkgN e.desc →
        (e.prog.pos = 0 → (∃ k ∈ pkgKids e.desc, ∀ p ∈ e.prog.arrived, p.1 ≠ k) → ∃ t, exec (.pkgsumGrant u addr fmt count) s = .next t
          ∧ ((t.engine u).win.getD i e).prog.grant = some (addr, fmt, count) ∧ ((t.engine u).win.getD i e).prog.granted = false)
        ∧ (e.prog.pos = 1 → ∃ t b, exec (.pkgsumGrant u addr fmt count) s = .next t
          ∧ ((t.engine u).win.getD i e).prog.granted = true ∧ Out.upload 2 addr b (BitVec.ofNat 48 (xreDst e.desc)) ∈ t.out))
      ∧ (∀ child bytes dst, child ∈ pkgKids e.desc → (∀ p ∈ e.prog.arrived, p.1 ≠ child) → e.prog.pos = 0 →
          bytes.length = pkgBuf (xreOfmt e.desc) (pkgN e.desc) →
          ((∃ k ∈ pkgKids e.desc, k ≠ child ∧ ∀ p ∈ e.prog.arrived, p.1 ≠ k) →
            ∃ t, exec (.pkgsumChildArrival u child bytes dst) s = .next t
              ∧ ((t.engine u).win.getD i e).prog.arrived = e.prog.arrived ++ [(child, dst)] ∧ ((t.engine u).win.getD i e).ended = none)
          ∧ ((∀ k ∈ pkgKids e.desc, k ≠ child → ∃ p ∈ e.prog.arrived, p.1 = k) →
            ∃ t, exec (.pkgsumChildArrival u child bytes dst) s = .next t ∧ ((t.engine u).win.getD i e).prog.pos = 1
              ∧ ((t.engine u).win.getD i e).ended = if e.prog.tiles = 0 then some (.ok 0) else none))
      ∧ (xreCmask e.desc ≠ 0 → ∃ t, exec (.pkgsumErrorFlit u) s = .next t
          ∧ Ended t u i e (.fail { code := eBusErr, addr := e.addr }))
      ∧ ∀ bytes, e.prog.granted = true → bytes.length = 3 * pkgN e.desc →
          ∃ t, exec (.pkgsumBroadcast u bytes) s = .next t ∧ Ended t u i e (.ok 0)

/-- KVREAD and KVWRITE end their descriptors with DONE, and with the lowest ERR of their work entries as a warning (R259), where what they
work on is in order; for KVREAD no walk of the engine waits and no page comes to more than 255 pins (R249); for KVWRITE each entry that an
active slot's rows touch is an open page or stale, so that no page need be asked for (R247, R248). -/
def Sys2Proof.Cert.KeyValueDescriptorsEndDone : Prop :=
  ∀ (s : State) (u : Nat) (x : EngUnit) (c : Ctx) (i : Nat) (e : Entry) (q : Seqt) (rs : List SeqRec), s.kvTable c e = .ok q →
    WorkOk s c e q rs →
    (Ready s u 8 0x10 x c i e → (s.engine u).running = none →
      (q.mode = 1 → ∀ r ∈ rs, r.len ≤ 32 * r.cap
        ∧ ∀ n m, s.pageMeta (.desc c) q n = .ok m → m.pin + timesNamed s (.desc c) q r (kvLh e.desc) n ≤ 255) →
      ∃ t w, exec (.kvread u) s = .next t ∧ Ended t u i e (.ok w))
    ∧ (Ready s u 8 0x11 x c i e →
      (q.mode = 1 → ∀ b < kvNe e.desc, ∀ v r, s.rd c (kvEnt e b) 8 = .ok v → v % 2 ^ 20 < q.nseqt →
        s.seqRec (.desc c) q (v % 2 ^ 20) = .ok r → r.state = 1 → bits v 41 20 + kvNpos e.desc ≤ 32 * r.cap →
        ∀ k, bits v 41 20 < 32 * k + 32 → 32 * k < bits v 41 20 + kvNpos e.desc →
          s.entAt (.desc c) q r (kvLh e.desc) k = .ok .stale
            ∨ ∃ n m, s.entAt (.desc c) q r (kvLh e.desc) k = .ok (.page n m) ∧ m.st = 1) →
      ∃ t w, exec (.kvwrite u) s = .next t ∧ Ended t u i e (.ok w))

/-- The page service of the engines, with the cache in order and a free page: the oldest request of a running KVWRITE leaves its list
entry naming an open page, newly allocated where the entry was none (R247), another one than the sealed page it named before (R248). A list
refresh that is due empties every stale entry, keeps the others and sets REFSTAMP to the count of returned pages (R251). -/
def Sys2Proof.Cert.PageServiceGivesPages : Prop :=
  (∀ (s : State) (r : PageReq) (i : Nat) (e : Entry) (x : EngUnit) (c : Ctx) (q : Seqt) (rc : SeqRec) (w : Who) (n : Nat),
      s.pageHead = some (r, i, e, x, c) → w = .service c → s.kvTable c e = .ok q → q.mode = 1 → r.seq < q.nseqt →
      s.seqRec w q r.seq = .ok rc → rc.state = 1 → r.lh < q.nlh → r.pos < rc.cap →
      CacheOk s w (s.queue c.queue) q [rc] [(kvEnt e 0, 8 * kvNe e.desc)] → freePages s w q n → 1 ≤ n →
      (r.copy = false → s.entAt w q rc r.lh r.pos = .ok .none →
        ∃ t k m, exec .pageAllocationRequest s = .next t ∧ t.entAt w q rc r.lh r.pos = .ok (.page k m) ∧ m.st = 1)
      ∧ ∀ p z, r.copy = true → s.entAt w q rc r.lh r.pos = .ok (.page p z) → z.st ≠ 1 → NextPageNot s w q p →
        ∃ t k m, exec .copyOnWrite s = .next t ∧ t.entAt w q rc r.lh r.pos = .ok (.page k m) ∧ m.st = 1 ∧ k ≠ p)
  ∧ ∀ (s : State) (ctx slot ret : Nat) (c : Ctx) (q : Seqt) (r : SeqRec) (w : Who), s.ctx? ctx = some c → s.ctxSeqt c = some q →
      w = .service c → slot < q.nseqt → s.seqRec w q slot = .ok r → r.state ≠ 3 → r.cap ≠ 0 → q.mode = 1 →
      s.pool w q 32 8 = .ok ret → 2 ^ 22 ≤ (ret + 2 ^ 64 - r.refstamp) % 2 ^ 64 → CacheOk s w (s.queue c.queue) q [r] [] →
      ∃ t, exec (.listRefresh ctx slot) s = .next t ∧ t.seqRec w q slot = .ok { r with refstamp := ret }
        ∧ ∀ lh < q.nlh, ∀ k < r.cap, (s.entAt w q r lh k = .ok .stale → t.entAt w q r lh k = .ok .none)
          ∧ (s.entAt w q r lh k ≠ .ok .stale → t.entAt w q r lh k = s.entAt w q r lh k)

namespace Sys2Proof.Cert

/-- The step `r` of context `c`, begun, whose slot's beat `b` is settled and for which R283 holds. -/
structure Quiet (s : State) (ctx : Nat) (c : Ctx) (r : StepRec) (b : Beat) : Prop where
  unit : s.isOpen pgBeat = true
  known : s.ctx? ctx = some c
  step : c.step = some r
  beat : s.slotBeat c.slot = b
  inStep : b.step = r.step
  begun : r.begun = true
  once : r.replaying = false
  settled : s.nextBeat c.slot = none
  quiet : s.quiet ctx c b = true

/-- The marker that a reduction port receives: `m`, the first good copy. -/
structure Received (s : State) (port kind : Nat) (copies : List (List Byte)) (m : List Byte) : Prop where
  low : 2 ≤ port
  high : port ≤ 5
  up : s.portUp port = true
  unit : s.isOpen pgBeat = true
  copy : goodCopy copies = some m
  kind : fld m 0 1 = kind

/-- The statistics of context `c` and its used trackers can be reached by the services of its step (R218, R67). -/
structure StatOpen (s : State) (c : Ctx) : Prop where
  ents : ∀ h < 2, ∀ k < blkNent c.block, Open s (.service c) (entAddr c h k) 512
  recs : ∀ h < 2, Open s (.service c) (recAddr c h) 64
  trks : ∀ a ∈ c.used, Open s (.service c) a.toNat 64

/-- The state once a received marker has been counted (R321, R444). -/
def tallied (s : State) (port : Nat) : State := (s.count (rdpPage port) 4 1).count pgBeat 2 1

/-- A frame on BEAT_IN whose CRC is right: 0xA5C3, the beat, RD, the CRC, most significant byte first (R313). -/
structure Frame (f : List Byte) (b : Nat) (rd : Nat) : Prop where
  length : f.length = 14
  preamble : fldBE f 0 2 = 0xA5C3
  beat : fldBE f 2 8 = b
  delay : fldBE f 10 2 = rd
  crc : fldBE f 12 2 = (crc16 ((f.drop 2).take 10)).toNat

end Sys2Proof.Cert

/-- PHASE_DONE moves the beat (R307), on a slot that one package runs: with a core stalled on a later phase of the step, to the earliest
such target, passing the phases between; with none, no flag, no tracker used, no HOLD copy and the default policy, the step commits and
the beat enters (s, 0xFFFF). In phase 0xFFFF the beat is reported done and stays. -/
def Sys2Proof.Cert.PhaseDoneMovesBeat : Prop :=
  (∀ (s : State) (ctx : Nat) (c : Ctx) (r : StepRec) (b t : Beat), Quiet s ctx c r b → c.slot ≠ s.tslot → r.failed = none →
      r.reported ≠ some b → b.phase ≠ 0xFFFF → r.decided = false → s.target c = some t → t.step = r.step → t.phase ≠ 0xFFFF →
      r.attCount eMemUe = 0 →
      exec (.phaseDone ctx) s
        = .next ((s.setStep ctx fun r => { r with reported := some b }).applyBeat c.slot { step := r.step, phase := t.phase } true))
  ∧ (∀ (s : State) (ctx : Nat) (c : Ctx) (r : StepRec) (b : Beat), Quiet s ctx c r b → c.slot ≠ s.tslot → r.failed = none →
      r.reported ≠ some b → b.phase ≠ 0xFFFF → r.decided = false → s.target c = none → r.flags = [] → c.used = [] →
      s.holdRuns ctx = false → blkPcy c.block = 0 →
      ∃ u : State, exec (.phaseDone ctx) s = .next (u.applyBeat c.slot { step := r.step, phase := 0xFFFF } true)
        ∧ u.ctx? ctx = some { c with step := some { r with reported := some b, decided := true } })
  ∧ (∀ (s : State) (ctx : Nat) (c : Ctx) (r : StepRec) (b : Beat), Quiet s ctx c r b → c.slot ≠ s.tslot → b.phase = 0xFFFF →
      r.reported ≠ some b → exec (.phaseDone ctx) s = .next (s.setStep ctx fun r => { r with reported := some b }))
  ∧ ∀ (s : State) (k : Nat) (b : Beat) (i : Bool), (s.applyBeat k b i).slotBeat k = b ∧ (s.applyBeat k b i).beat.aligned = i
      ∧ ∀ j, j ≠ k → (s.applyBeat k b i).slotBeat j = s.slotBeat j

/-- The end of an attempt: the forced attempt commits; a flag whose action is fail fails the step; otherwise a flag whose action is replay
replays while the budget lasts, and beyond it takes the final action; with no such flag the step commits. -/
def Sys2Proof.Cert.AttemptEndsByPolicy : Prop :=
  ∀ (p : Policy) (r : StepRec) (n : Nat → Nat) (acts : List Nat), acts = [p.actSm, p.actOo, p.actWr, p.actUe] →
    (r.forced = true → p.ending r ((List.range 4).map n) = .commit)
    ∧ (r.forced = false → (∃ i < 4, 0 < n i ∧ acts.getD i 0 = 3) → p.ending r ((List.range 4).map n) = .fail)
    ∧ (r.forced = false → (∀ i < 4, 0 < n i → acts.getD i 0 ≠ 3) → (∃ i < 4, 0 < n i ∧ acts.getD i 0 = 0) →
        p.ending r ((List.range 4).map n) = (if r.att < p.max then .replay else if p.fails then .fail else .forced))
    ∧ (r.forced = false → (∀ i < 4, 0 < n i → acts.getD i 0 ≠ 3 ∧ acts.getD i 0 ≠ 0) → p.ending r ((List.range 4).map n) = .commit)

/-- REPLAY, once no prefetch of the step is in flight, performs R224 under the default policy: the statistics half of the step is cleared,
lanes and sync objects are restored, the overrides written, and the beat returns to (s, 0x0000) with the attempt's number one higher. -/
def Sys2Proof.Cert.ReplayReturnsBeat : Prop :=
  ∀ (s : State) (ctx : Nat) (c : Ctx) (r : StepRec), s.isOpen pgBeat = true → s.ctx? ctx = some c → c.step = some r → r.replaying = true →
    s.prefetching ctx r.step = false → blkPcy c.block = 0 →
    (∀ s1 : State, c.used = [] → s.clearHalf c (stepHalf r.step) = .ok s1 →
      ∃ u v : State, exec (.replay ctx) s = .next (v.replayBeat c.slot { step := r.step, phase := 0 })
        ∧ u = (((((s1.abortCtx ctx).restoreLanes c).countShadows c).restoreSync c).writeOverrides c (overridesFor Policy.default r)).setStep
            ctx (fun r => { r with att := r.att + 1, begun := false, replaying := false, decided := false, reported := none, judged := [] })
        ∧ v.ctxs = u.ctxs ∧ v.mem = u.mem ∧ v.lanes = u.lanes ∧ v.shadows = u.shadows ∧ v.psync = u.psync)
    ∧ (StatOpen s c → c.slot ≠ s.tslot → ∃ (t : State) (y : Ctx) (z : StepRec), exec (.replay ctx) s = .next t ∧ t.ctx? ctx = some y
        ∧ y.step = some z ∧ z.step = r.step ∧ z.att = r.att + 1 ∧ z.replaying = false
        ∧ t.slotBeat c.slot = { step := r.step, phase := 0 })

/-- COMMIT_FINALISE, once the descriptors of phase 0xFFFF have completed, finalises the step (R230 steps 3 and 4): the context has no step
and no used tracker any more; the beat then advances to (s + 1, 0x0000), unless the context is dead or an activation holds the beat. A step
that has failed in its commit leaves its context dead. -/
def Sys2Proof.Cert.CommitAdvancesBeat : Prop :=
  ∀ (s u : State) (ctx : Nat) (c : Ctx) (r : StepRec), s.isOpen pgBeat = true → s.ctx? ctx = some c → c.step = some r →
    s.slotBeat c.slot = { step := r.step, phase := 0xFFFF } → s.quiet ctx c { step := r.step, phase := 0xFFFF } = true →
    c.slot ≠ s.tslot → r.reported = some { step := r.step, phase := 0xFFFF } → u = s.finalise ctx c r →
    (∀ x, u.ctx? ctx = some x → x.dead = false → u.fw.activating = none → c.slot ≠ u.tslot →
      exec (.commitFinalise ctx) s = .next (u.moveBeat c.slot 1 { step := r.step + 1, phase := 0 }))
    ∧ (∀ x, u.ctx? ctx = some x → x.dead = true → exec (.commitFinalise ctx) s = .next u)
    ∧ (StatOpen s c → r.failed = none → ∃ (t : State) (y : Ctx), exec (.commitFinalise ctx) s = .next t ∧ t.ctx? ctx = some y
        ∧ y.step = none ∧ y.used = [] ∧ y.dead = c.dead
        ∧ (c.dead = false → s.fw.activating = none → (∀ p ∈ s.schedOf c.slot, p.2.kind ≠ 4) →
            t.slotBeat c.slot = { step := r.step + 1, phase := 0 }))
    ∧ (∀ code, r.failed = some code → ∃ (t : State) (y : Ctx), exec (.commitFinalise ctx) s = .next t ∧ t.ctx? ctx = some y
        ∧ y.step = none ∧ y.dead = true)
    ∧ ∀ (v : State) (k : Nat), k ≠ v.tslot → v.moveBeat k 1 { step := r.step + 1, phase := 0 } = v.applyBeat k { step := r.step + 1, phase := 0 } true

/-- REPORT_MARKER: a good report marker on a DNP counts, and keeps its SUB; a report of another attempt, or for a package that runs no step
of the tree slot, changes nothing else but what is kept of the reports. -/
def Sys2Proof.Cert.ReportMarkersAreKept : Prop :=
  ∀ (s u : State) (port : Nat) (copies : List (List Byte)) (m : List Byte), Received s port 3 copies m → port ≠ 2 → u = tallied s port →
    fld m 8 8 < 2 ^ 56 → (fld m 5 1 / 2 % 2 = 1 → fld m 16 8 < 2 ^ 56) →
    exec (.reportMarker port copies) s = .next (u.takeReport port m)
    ∧ (s.treeCtx = none → fld m 4 1 = 0 →
        ∃ t : State, exec (.reportMarker port copies) s = .next t ∧ (t.port port).sub = fld m 6 2
          ∧ SMap.get t.beat.reports none port = some (reportOf m) ∧ t.beat.slots = s.beat.slots)
    ∧ (s.treeCtx = none → fld m 4 1 ≠ 0 →
        exec (.reportMarker port copies) s = .next (u.setPort port { u.port port with sub := fld m 6 2 }))

/-- A beat received with bits [63:56] non-zero is discarded and counted in BEAT_CNT_BAD; otherwise its STEP is bits [55:16] and its PHASE
bits [15:0]. So is a report whose BEAT, or whose TARGET where it names one, is such a beat. -/
def Obligations.BadBeatsAreDiscarded : Prop :=
  (∀ (s : State) (copies : List (List Byte)) (m : List Byte), fld m 8 8 / 2 ^ 56 ≠ 0 →
      (Received s 2 1 copies m → exec (.advanceMarker copies) s = .next ((tallied s 2).count pgBeat 4 1))
      ∧ (Received s 2 2 copies m → exec (.setMarker copies) s = .next ((tallied s 2).count pgBeat 4 1)))
  ∧ (∀ (s : State) (f : List Byte) (v rd : Nat), Frame f v rd → v / 2 ^ 56 ≠ 0 → s.beatPinen = true → s.isOpen pgBeat = true →
      exec (.beatInFrame f) s = .next (s.count pgBeat 4 1))
  ∧ (∀ (s : State) (port : Nat) (copies : List (List Byte)) (m : List Byte), Received s port 3 copies m → port ≠ 2 →
      2 ^ 56 ≤ fld m 8 8 ∨ (fld m 5 1 / 2 % 2 = 1 ∧ 2 ^ 56 ≤ fld m 16 8) →
      exec (.reportMarker port copies) s = .next ((tallied s port).count pgBeat 4 1))
  ∧ (∀ v, v < 2 ^ 56 → (Beat.ofNat v).step.toNat = v / 2 ^ 16 ∧ (Beat.ofNat v).phase.toNat = v % 2 ^ 16 ∧ (Beat.ofNat v).toNat = v)
  ∧ Beat.toNat { step := 0x1A4B, phase := 3 } = 0x1A4B0003

/-- ADVANCE_MARKER and SET_MARKER on a worker without packages below it and without BEAT_OUT, whose tree slot runs no step: the beat waits
for RD − BEAT_UPLAT, or with nothing left of it is applied on arrival, counted late; an advance to the beat in force changes no beat. The
forwarding delay never enters (it is a free value, log 10). -/
def Sys2Proof.Cert.MarkersAnnounceBeats : Prop :=
  ∀ (s : State) (kind : Nat) (i : Instr) (copies : List (List Byte)) (m : List Byte) (b : Beat), (kind = 1 ∧ i = .advanceMarker copies)
      ∨ (kind = 2 ∧ i = .setMarker copies) → Received s 2 kind copies m → fld m 8 8 < 2 ^ 56 → b = Beat.ofNat (fld m 8 8) →
    s.beat.actsrc = 2 → s.dnps = [] → s.beatOuten = false → s.treeCtx = none → s.beat.restored = none →
    (s.beatUplat < fld m 2 2 → kind = 2 ∨ b ≠ s.slotBeat s.tslot →
      ∃ t : State, exec i s = .next t ∧ t.nextBeat s.tslot = some b ∧ t.beat.slots = s.beat.slots ∧ t.beat.held = false)
    ∧ (fld m 2 2 ≤ s.beatUplat → kind = 2 ∨ b ≠ s.slotBeat s.tslot →
      ∃ t : State, exec i s = .next t ∧ t.slotBeat s.tslot = b ∧ t.beat.aligned = false)
    ∧ (kind = 1 → b = s.slotBeat s.tslot →
      ∃ t : State, exec i s = .next t ∧ t.beat.slots = s.beat.slots ∧ t.beat.next = s.beat.next ∧ t.beat.held = false)

/-- The beat goes out and takes effect. ROOT_MARKER_REPEAT sends the root's beat in force on every trained DNP with no delay left;
BEAT_OUT_REPEAT sends it as a frame; BEAT_APPLY applies the beat whose delay has run out on a slot without a context; BEAT_IN_FRAME makes
BEAT_IN the source where Table 12.2 does and lets the beat wait for what its delay leaves; BEAT_SOURCE_LOST holds the beat where it is.
PREFETCH_COMPLETE, with the credit of each engine that runs a piece of it, leaves its range copied and signals its object;
NEW_FIRMWARE_START puts the staged firmware into force and releases a beat it held. -/
def Sys2Proof.Cert.BeatCommandsComplete : Prop :=
  (∀ s : State, s.beat.actsrc = 1 → s.isOpen pgBeat = true →
      exec .rootMarkerRepeat s
        = .next (s.dnps.foldl (fun t p => t.sendMarker p (beatMarker 1 s.tslot 0 (s.slotBeat s.tslot))) s))
  ∧ (∀ s : State, s.beatOuten = true → s.isOpen pgBeat = true →
      exec .beatOutRepeat s
        = .next ((s.addOut (.beatFrame (beatFrame (s.slotBeat s.tslot) 0))).count pgBeat 1 1))
  ∧ (∀ (s : State) (k : Nat) (b : Beat), s.nextBeat k = some b → s.beatHeldAt k = false → s.isOpen pgBeat = true →
      s.slotCtx k = none ∨ (∃ p, s.slotCtx k = some p ∧ p.2.step = none ∧ (b.phase = 0xFFFF → s.holdRuns p.1 = false)) →
      ∃ t : State, exec (.beatApply k) s = .next t ∧ t = s.applyBeat k b (!(decide (k = s.tslot) && s.beat.late)) ∧ t.slotBeat k = b
        ∧ t.nextBeat k = none)
  ∧ (∀ (s : State) (k ctx : Nat) (c : Ctx) (b : Beat), s.nextBeat k = some b → s.slotCtx k = some (ctx, c) → b.phase = 0xFFFF →
      s.holdRuns ctx = true → exec (.beatApply k) s = .next s)
  ∧ (∀ (s : State) (f : List Byte) (v rd : Nat), Frame f v rd → v < 2 ^ 56 → s.beatPinen = true → bits s.beatCfg 1 0 = 0 → s.isOpen pgBeat = true →
      s.isManager = false → s.portUp 2 = false → s.treeCtx = none → s.beat.restored = none → s.beatPinlat < rd →
      Beat.ofNat v ≠ s.slotBeat s.tslot →
      ∃ t : State, exec (.beatInFrame f) s = .next t ∧ t.beat.actsrc = 3 ∧ t.beat.pinSeen = true ∧ t.beat.slots = s.beat.slots
        ∧ t.nextBeat s.tslot = some (Beat.ofNat v))
  ∧ (∀ s : State, s.beat.held = false → s.isOpen pgBeat = true → (s.beat.actsrc = 2 ∧ s.portUp 2 = false ∨ s.beat.actsrc = 3) →
      ∃ t : State, exec .beatSourceLost s = .next t ∧ t.beat.held = true ∧ t.beat.actsrc = s.beat.actsrc ∧ t.beat.slots = s.beat.slots)
  ∧ (∀ (s : State) (i j : Nat) (f : Prefetch) (c : Ctx), s.prefetch[i]? = some f → s.ctx? f.ctx = some c → (∀ d ∈ f.dies c, d ∈ f.held) →
      Laid s (.desc c) (s.queue f.q) [(f.src.toNat, f.len), (f.dst.toNat, f.len)] → syncRef c 0 f.sync.toNat = .package j →
      ∃ t : State, exec (.prefetchComplete i) s = .next t ∧ t.prefetch = s.prefetch.eraseIdx i
        ∧ t.read (.desc c) f.dst.toNat f.len = s.read (.desc c) f.src.toNat f.len
        ∧ t.syncObj (.package j) = { count := (s.syncObj (.package j)).count + f.add, epoch := (s.syncObj (.package j)).epoch })
  ∧ (∀ (s : State) (a : Activation), s.fw.activating = some a → a.hold = none →
      ∃ t : State, exec .newFirmwareStart s = .next t ∧ t = (s.newFirmware.actEvent a .done 0).pollAll ∧ t.fw.version = s.fw.staged
        ∧ t.fw.runb = s.fw.target ∧ t.fw.sstate = 0 ∧ t.fw.activating = none)
  ∧ ∀ (s u : State) (a : Activation) (k : Nat), s.fw.activating = some a → a.hold = some k →
      u = (s.newFirmware.actEvent a .done 0).pollAll → u.ownSlot k = true →
      ∃ t : State, exec .newFirmwareStart s = .next t ∧ t = u.moveBeat k 1 { step := (u.slotBeat k).step + 1, phase := 0 }
        ∧ (k ≠ s.tslot → t.slotBeat k = { step := (s.slotBeat k).step + 1, phase := 0 })

/-- The beat source: BEAT_CFG.SRC other than 0 forces it; with SRC = 0 it is the own beat unit on the manager, else UPP while it is trained,
else BEAT_IN with PINEN = 1 and valid frames, else the own beat unit, unless a lost source stays in use. -/
def Obligations.BeatSourceByTable : Prop :=
  ∀ s : State, (bits s.beatCfg 1 0 ≠ 0 → s.reSource.beat.actsrc.toNat = bits s.beatCfg 1 0)
    ∧ (bits s.beatCfg 1 0 = 0 → s.isManager = true → s.reSource.beat.actsrc = 1)
    ∧ (bits s.beatCfg 1 0 = 0 → s.isManager = false → s.portUp 2 = true → s.reSource.beat.actsrc = 2)
    ∧ (bits s.beatCfg 1 0 = 0 → s.isManager = false → s.portUp 2 = false → s.beatPinen = true → s.beat.pinSeen = true →
        s.reSource.beat.actsrc = 3)
    ∧ (bits s.beatCfg 1 0 = 0 → s.isManager = false → s.portUp 2 = false → (s.beatPinen = false ∨ s.beat.pinSeen = false) →
        s.reSource.beat.actsrc = if s.beat.held = true ∨ s.beat.actsrc = 2 then s.beat.actsrc else 1)
    ∧ s.reSource.beat.slots = s.beat.slots

namespace Sys2Proof.Cert

/-- A 4-byte write of `v` at an offset of a page is performed: the page is there, its power and clocks allow it, the privilege may
(R363, R366, R367, R386). -/
def Lands (s : State) (prv : Priv) (pg off v : Nat) (i : PageInfo) : Prop := s.reach prv (pageAddr pg + off) 4 true v = .ok (pg, i, off)

end Sys2Proof.Cert

/-- A part whose straps set the budget has the budget of Table 13.1. -/
def Obligations.StrapSetsBudget : Prop :=
  ∀ s : State, s.drt.budget = none →
    (s.small = false → s.budget = [150000, 170000, 190000, 210000, 230000, 250000, 270000, 270000].getD s.strapDrt 0)
    ∧ (s.small = true → s.budget = [150000, 170000, 190000, 190000, 190000, 190000, 190000, 190000].getD s.strapDrt 0)

/-- A chunk request that fits is granted 256 credits, or the remainder of at least 16; one that does not fit waits and posts a reclaim,
counted during recovery, or opens a surge where that is enabled; a die store that can serve what waits at it asks for nothing. -/
def Sys2Proof.Cert.ChunkRequestsAreGranted : Prop :=
  (∀ (s : State) (d n : Nat), s.chunk d = some n →
      n ≤ s.floorFree d + (s.drtLimit - s.committed) ∧ (n = 256 ∨ 16 ≤ n ∧ n < 256 ∧ n = s.floorFree d + (s.drtLimit - s.committed))
      ∧ (s.committed ≤ s.budget ∨ s.drt.act = true)
      ∧ SMap.get (s.grantChunk d n).drt.inflight 0 d = SMap.get s.drt.inflight 0 d + n ∧ d ∉ (s.grantChunk d n).drt.waiting)
  ∧ (∀ (s s1 : State) (die : Nat), s.ready = true → die < 72 → s.hasDie die = true → s.dieShort die = true → s.isOpen pgDrt = true →
      s.drt.waiting = [] → s.drt.domWait = [] → s1 = s.setDrt { s.drt with waiting := [die] } →
      (∀ n, s1.chunk die = some n → exec (.chunkRequest die) s = .next (s1.grantChunk die n))
      ∧ (s1.chunk die = none → s.drt.rcv = true → exec (.chunkRequest die) s = .next (s1.reclaim.count pgDrt 4 1))
      ∧ (s1.chunk die = none → s.drt.rcv = false → s.drt.sen = false → exec (.chunkRequest die) s = .next s1.reclaim)
      ∧ ∀ s3, s1.chunk die = none → s.drt.rcv = false → s.drt.sen = true → s.drt.act = false → s.drt.owed = false →
          s3 = (s1.setDrt { s1.drt with act := true }).count pgDrt 3 1 →
          (∀ n, s3.chunk die = some n → exec (.chunkRequest die) s = .next (s3.grantChunk die n))
          ∧ (s3.chunk die = none → exec (.chunkRequest die) s = .next s3.reclaim))
  ∧ (∀ (s : State) (die : Nat), s.dieShort die = false → exec (.chunkRequest die) s = .next s)
  ∧ ∀ (s : State), s.reclaim.drt.waiting = s.drt.waiting ∧ s.reclaim.drt.act = s.drt.act
      ∧ ∀ d < 72, SMap.get s.reclaim.drt.dieFree 0 d ≤ 64 ∨ SMap.get s.reclaim.drt.dieFree 0 d = SMap.get s.drt.dieFree 0 d

/-- Credits move through the tiers: a chunk arrives at its die store, above whose cap the rest returns; a hearth pool that cannot meet
its oldest request draws 16 credits in its turn; a descriptor, a pass or a prefetch draws what it asks for in its turn, or waits;
returned credits reach the manager. -/
def Sys2Proof.Cert.CreditsMoveThroughTiers : Prop :=
  (∀ (s : State) (d : Nat), (∀ h < 48, SMap.get s.drt.poolFree 0 (d * 48 + h) ≤ s.poolCap) →
      ∃ t : State, exec (.chunkGrant d) s = .next t ∧ SMap.get t.drt.inflight 0 d = 0
        ∧ SMap.get t.drt.dieFree 0 d = min (SMap.get s.drt.dieFree 0 d + SMap.get s.drt.inflight 0 d) s.dieCap
        ∧ SMap.get t.drt.returning 0 d
            = SMap.get s.drt.returning 0 d + (SMap.get s.drt.dieFree 0 d + SMap.get s.drt.inflight 0 d - s.dieCap)
        ∧ t.drt.poolFree = s.drt.poolFree)
  ∧ (∀ (s : State) (h : Nat),
      (s.poolShort h = false → exec (.hearthPoolDraw h) s = .next s)
      ∧ (s.ready = true → s.poolShort h = true →
          (queued (s.dieReqs (h / 48)) (.pool h)).head? ≠ some (.pool h) ∨ SMap.get s.drt.dieFree 0 (h / 48) < 16 →
          exec (.hearthPoolDraw h) s = .next (s.setDieQ (h / 48) (queued (s.dieReqs (h / 48)) (.pool h))))
      ∧ (s.ready = true → s.poolShort h = true → (queued (s.dieReqs (h / 48)) (.pool h)).head? = some (.pool h) →
          16 ≤ SMap.get s.drt.dieFree 0 (h / 48) → SMap.get s.drt.dieFree 0 (h / 48) ≤ s.dieCap →
          (∀ k < 48, SMap.get s.drt.poolFree 0 (h / 48 * 48 + k) ≤ s.poolCap) → SMap.get s.drt.poolFree 0 h + 16 ≤ s.poolCap →
          ∃ t : State, exec (.hearthPoolDraw h) s = .next t
            ∧ SMap.get t.drt.dieFree 0 (h / 48) + 16 = SMap.get s.drt.dieFree 0 (h / 48)
            ∧ SMap.get t.drt.poolFree 0 h = SMap.get s.drt.poolFree 0 h + 16))
  ∧ (∀ (s : State) (u idx group n : Nat) (x : EngUnit) (c : Ctx) (e : Entry) (r : CreditReq), s.unit u = some x →
      s.entry? u idx = some e → s.ctx? e.ctx = some c → s.ready = true → e.started = false → s.headDue u idx c e = true →
      n = s.need c e - e.credits → 0 < n → r = { u := u, addr := e.addr, group := none } →
      ((s.enqueue x r).2 = true → n ≤ s.freeCredits x →
        ∃ t : State, exec (.engineCreditGrant u idx group) s = .next t ∧ ((t.engine u).win.getD idx e).credits = e.credits + n
          ∧ t.freeCredits x + n = s.freeCredits x)
      ∧ ((s.enqueue x r).2 = false ∨ s.freeCredits x < n → exec (.engineCreditGrant u idx group) s = .next (s.enqueue x r).1))
  ∧ (∀ (s : State) (u idx group : Nat) (x : EngUnit) (c : Ctx) (e : Entry) (r : CreditReq), s.unit u = some x →
      s.entry? u idx = some e → s.ctx? e.ctx = some c → s.ready = true → e.started = true → e.ended = none → 0 < e.perPass →
      group ∉ e.prog.held → r = { u := u, addr := e.addr, group := some group } →
      (s.passDue x c e group = true → (s.enqueue x r).2 = true → e.perPass ≤ s.freeCredits x →
        ∃ t : State, exec (.engineCreditGrant u idx group) s = .next t
          ∧ ((t.engine u).win.getD idx e).credits = e.credits + e.perPass
          ∧ ((t.engine u).win.getD idx e).prog.held = e.prog.held ++ [group] ∧ t.freeCredits x + e.perPass = s.freeCredits x)
      ∧ (s.passDue x c e group = false → exec (.engineCreditGrant u idx group) s = .next s))
  ∧ (∀ (s : State) (u k group : Nat) (x : EngUnit) (f : Prefetch) (r : CreditReq), s.unit u = some x → s.ready = true →
      s.entry? u (k + 8) = none → x.eng = 8 → x.inst = 7 → s.prefetch[k]? = some f → s.prefetchDue x.die f = true →
      r = { u := u, addr := f.dst, group := some prefetchGroup } → (s.enqueue x r).2 = true → 1 ≤ s.freeCredits x →
      ∃ t : State, exec (.engineCreditGrant u (k + 8) group) s = .next t ∧ (t.prefetch.getD k f).held = f.held ++ [x.die]
        ∧ t.freeCredits x + 1 = s.freeCredits x)
  ∧ ∀ (s : State) (d : Nat), s.isOpen pgDrt = true → s.drt.act = false → s.drt.owed = false → s.drt.waiting = [] → s.drt.domWait = [] →
      s.dieSlot d = none → exec (.creditReturn d) s = .next (s.setDrt { s.drt with returning := SMap.put s.drt.returning 0 d 0 })

/-- Surge, recovery, halving and widening end; the tenth consecutive sample above 1.05 times the sensor limit halves ACLK, ends a surge
and starts the count anew; a credit wait beyond its limit is reported once, and the descriptor waits on. -/
def Sys2Proof.Cert.SensorsAndTimersAct : Prop :=
  (∀ s : State, s.drt.act = true → ∃ t : State, exec .surgeEnd s = .next t ∧ t.drt.act = false ∧ (t.drt.owed = true ∨ t.drt.rcv = true))
  ∧ (∀ s : State, (s.drt.waiting = [] → exec .recoveryEnd s = .next (s.setDrt { s.drt with rcv := false }))
      ∧ exec .aclkHalveEnd s = .next (s.setDrt { s.drt with half := false })
      ∧ exec .sensorLimitWidenEnd s = .next (s.setDrt { s.drt with widen := s.drt.widen.tail }))
  ∧ (∀ s : State, s.drt.waiting ≠ [] → ∃ t : State, exec .recoveryEnd s = .next t ∧ t.drt.rcv = false)
  ∧ (∀ (s : State) (draw : BitVec 20), s.isOpen pgDrt = true → ∃ t : State, exec (.sensorSample draw) s = .next t ∧ t.drt.draw = draw
      ∧ (draw.toNat * 100 ≤ 105 * s.sensorLimit → t.drt.overRun = 0 ∧ t.drt.half = s.drt.half ∧ t.drt.act = s.drt.act)
      ∧ (105 * s.sensorLimit < draw.toNat * 100 → s.drt.overRun < 9 →
          t.drt.overRun = s.drt.overRun + 1 ∧ t.drt.half = s.drt.half ∧ t.drt.act = s.drt.act)
      ∧ (105 * s.sensorLimit < draw.toNat * 100 → 9 ≤ s.drt.overRun →
          t.drt.overRun = 0 ∧ t.drt.half = true ∧ (s.drt.half = false → t.drt.act = false)))
  ∧ ∀ (s : State) (u idx : Nat) (x : EngUnit) (c : Ctx) (e : Entry) (g : Option Nat), s.unit u = some x → s.entry? u idx = some e →
      s.ctx? e.ctx = some c → g = none ∨ (∃ k < 8, g = some k) → 0 < s.entryWants x u idx e g → e.tmo = false →
      bits (s.cfg pgDrt 0x108 1000).toNat 15 0 ≠ 0 →
      ∃ t : State, exec (.draughtTimeout u idx) s = .next t ∧ (t.engine u).win.getD idx e = { e with tmo := true } ∧ t.drt = s.drt

/-- DRT_BUDGET takes the value clamped to the part's limits; DRT_SURGE sets SEN and LIM, never below the budget; DRT_PRSVk sets a floor
under expert unlock, and reads EN 0 on a slot without a live context. -/
def Sys2Proof.Cert.DraughtRegistersTakeEffect : Prop :=
  (∀ (s : State) (prv : Priv) (v : Word) (i : PageInfo), Lands s prv pgDrt 0x100 v.toNat i →
      ∃ t : State, exec (.drtBudgetWrite prv v) s = .next t
        ∧ t.budget = max s.minBudget (min s.maxBudget (v.toNat % 2 ^ 19)) ∧ (s.drt.act = true → t.drt.act = false))
  ∧ (∀ (s : State) (prv : Priv) (v : Word) (i : PageInfo), Lands s prv pgDrt 0x104 v.toNat i →
      ∃ t : State, exec (.drtSurgeWrite prv v) s = .next t
        ∧ t.drt.sen = v.getLsbD 31 ∧ t.surgeLim = max s.budget (min s.maxLim (v.toNat % 2 ^ 19)) ∧ t.budget = s.budget)
  ∧ ∀ (s : State) (prv : Priv) (k : Nat) (v : Word) (i : PageInfo), k < s.nCords → Lands s prv pgDrt (0x800 + 4 * k) v.toNat i →
      (s.page pgDrt).unl = true → (s.page pgDrt).pinj = false → v.getLsbD 31 = true →
      (s.slotCtx k = none → ∃ t : State, exec (.drtPrsvWrite prv k v) s = .next t ∧ t.floor k = 0)
      ∧ (∀ p, s.slotCtx k = some p → s.floors - s.floor k + v.toNat % 2 ^ 17 + s.drtBase + 16384 ≤ s.budget →
          ∃ t : State, exec (.drtPrsvWrite prv k v) s = .next t ∧ t.floor k = v.toNat % 2 ^ 17)

/-- The background scrubber visits a line of a cord's stack and steps on; it leaves an uncorrectable line as it is and corrects a
correctable one (the errors that have come about since, where the command brings any, are there first). -/
def Sys2Proof.Cert.ScrubberVisitsLine : Prop :=
  ∀ (s : State) (cord line : Nat) (err : Option (Nat × List Nat)) (s0 : State), cord < s.nCords → line < stackLines →
    s.placeUp (.stack cord) = true → s.ready = true → (s.cfg (pgStk cord) 0x100 0x80000018).getLsbD 31 = true →
    s0 = (match err with
      | some e => s.upset e.1 e.2
      | none => s) →
    ∃ t : State, exec (.backgroundScrub cord line err) s = .next t
      ∧ SMap.get t.scrubPos 0 cord = (line + 1) % stackLines ∧ t.ue = s0.ue ∧ t.mem = s0.mem
      ∧ (cord * 2 ^ 37 + 64 * line ∉ s0.ue → s0.place (cord * 2 ^ 37 + 64 * line) = .stack cord →
          SMap.get t.errs [] (cord * 2 ^ 37 + 64 * line) = [])
      ∧ (cord * 2 ^ 37 + 64 * line ∈ s0.ue → t.errs = s0.errs)

/-- PG_ID and PG_VER: every page identifies its block, die, hearth and instance, and its version reads 0x0101_0000. -/
def Obligations.PagesIdentifyThemselves : Prop :=
  ∀ (s : State) (i : PageInfo) (pg : Nat), i.blk < 256 → i.die < 256 → (∀ h, i.hearth = some h → h < 48) → i.inst < 256 →
    s.latched pg 0 = none → s.latched pg 4 = none →
    (∃ v, s.readWord i pg 0 = (s, v) ∧ v / 2 ^ 24 = i.blk ∧ v / 2 ^ 16 % 256 = i.die ∧ v % 256 = i.inst
      ∧ (∀ h, i.hearth = some h → v / 2 ^ 8 % 256 = h) ∧ (i.hearth = none → v / 2 ^ 8 % 256 = 0xFF))
    ∧ s.readWord i pg 4 = (s, 0x01010000)

/-- PG_LOCK: at privilege M or S the key 0x5A5A sets ARM and clears UNL; 0xA5A5 while ARM is set sets UNL and clears ARM; every other
write clears both. A write at U is refused and changes neither. ARM also expires by itself. -/
def Sys2Proof.Cert.LockOpensWithTwoKeys : Prop :=
  (∀ (s : State) (prv : Priv) (pg : Nat) (v : Word) (i : PageInfo), Lands s prv pg 0x00C v.toNat i →
      ∃ t : State, exec (.pgLockWrite prv pg v) s = .next t
        ∧ (v.toNat % 65536 = 0x5A5A → (t.page pg).arm = true ∧ (t.page pg).unl = false)
        ∧ (v.toNat % 65536 = 0xA5A5 → (s.page pg).arm = true → (t.page pg).arm = false ∧ (t.page pg).unl = true)
        ∧ (v.toNat % 65536 = 0xA5A5 → (s.page pg).arm = false → (t.page pg).arm = false ∧ (t.page pg).unl = false)
        ∧ (v.toNat % 65536 ≠ 0x5A5A → v.toNat % 65536 ≠ 0xA5A5 → (t.page pg).arm = false ∧ (t.page pg).unl = false))
  ∧ (∀ (s : State) (k pg : Nat) (v : Word), ∃ t : State, exec (.pgLockWrite (.u k) pg v) s = .next t
      ∧ (t.page pg).arm = (s.page pg).arm ∧ (t.page pg).unl = (s.page pg).unl ∧ t.out = s.out ++ [.refused])
  ∧ ∀ (s : State) (pg : Nat), exec (.unlockArmExpiry pg) s = .next (s.setPage pg { s.page pg with arm := false })

/-- PG_CTL, PG_ERR, PG_IRQ_RAW and PG_SNAP: CNTCLR clears the live counters and keeps the holding copies; PINJ is taken in test mode only;
SRST asserts the block's reset source once; V clears the error record; a condition written 1 clears; GO queues a snapshot of a valid
scope, and a reserved scope is ignored. -/
def Sys2Proof.Cert.CommonRegistersAct : Prop :=
  (∀ (s : State) (prv : Priv) (pg : Nat) (i : PageInfo), Lands s prv pg 0x010 1 i →
      exec (.pgCtlCntclr prv pg) s = .next (s.setPage pg { s.page pg with cnt := [] }))
  ∧ (∀ (s : State) (prv : Priv) (pg : Nat) (i : PageInfo), Lands s prv pg 0x010 0x100 i →
      exec (.pgCtlPinj prv pg) s = .next (s.setPage pg { s.page pg with pinj := (s.page pg).pinj || s.testMode }))
  ∧ (∀ (s : State) (prv : Priv) (pg : Nat) (i : PageInfo), Lands s prv pg 0x010 0x80000000 i → pg ∉ s.rst.blocks →
      exec (.pgCtlSrst prv pg) s
        = .next ((s.setPage pg (s.page pg)).assertSource { cause := 10, reach := 4, dies := [], pg := pg }))
  ∧ (∀ (s : State) (prv : Priv) (pg : Nat) (i : PageInfo), Lands s prv pg 0x018 0x80000000 i →
      exec (.pgErrClear prv pg) s = .next (s.setPage pg { s.page pg with err := { v := false, more := false, code := 0, off := 0 } }))
  ∧ (∀ (s : State) (prv : Priv) (pg : Nat) (v : Word) (i : PageInfo), Lands s prv pg 0x020 v.toNat i →
      ∃ t : State, exec (.pgIrqRawClear prv pg v) s = .next t
        ∧ ∀ b < 6, (t.page pg).irqRaw.getLsbD b = ((s.page pg).irqRaw.getLsbD b && !v.getLsbD b))
  ∧ ∀ (s : State) (prv : Priv) (pg : Nat) (v : Word) (i : PageInfo), Lands s prv pg 0x080 v.toNat i →
      ∃ t : State, exec (.pgSnapWrite prv pg v) s = .next t
        ∧ (5 ≤ v.toNat % 8 → t = s)
        ∧ (v.toNat % 8 < 5 → (t.page pg).snapScope.toNat = v.toNat % 8)
        ∧ (v.toNat % 8 < 5 → v.getLsbD 31 = true →
            t.snapQ = s.snapQ ++ [(pg, v.toNat % 8)] ∧ (t.page pg).snapBusy = (s.page pg).snapBusy + 1)

/-- SNAPSHOT_CAPTURE serves the oldest request: each page of its scope, if its domain is active, keeps its counters in the holding copies
with the beat of its slot. -/
def Sys2Proof.Cert.SnapshotCapturesPages : Prop :=
  (∀ (s s1 : State) (pg scope : Nat) (r : List (Nat × Nat)), s.snapQ = (pg, scope) :: r →
      s1 = { s with snapQ := r }.setPage pg { s.page pg with snapBusy := (s.page pg).snapBusy - 1 } →
      exec .snapshotCapture s = .next ((s1.snapPages pg scope).foldl (fun t q => t.capture q) s1))
  ∧ (∀ (s : State) (pg : Nat) (i : PageInfo), s.pageInfo pg = some i → s.active i.dom = true →
      ((s.capture pg).page pg).hold = (s.page pg).cnt ∧ ((s.capture pg).page pg).cnt = (s.page pg).cnt
        ∧ ((s.capture pg).page pg).snapBeat = s.slotBeat (s.pageSlot i.die) ∧ ((s.capture pg).page pg).irqRaw.getLsbD 5 = true)
  ∧ ∀ (s : State) (pg : Nat) (i : PageInfo), s.pageInfo pg = some i → s.active i.dom = false → s.capture pg = s

/-- PARITY_SCAN: what the scan of a page finds is recorded, in PG_ERR with CFG_PARITY and the lowest offset, and in PG_IRQ_RAW.PAR; a
mismatch that stands is not found twice, and a scan without a new one changes nothing; a word upset since the last scan is found; a
mismatching budget acts as the straps' (R380). -/
def Sys2Proof.Cert.ParityScanFindsMismatch : Prop :=
  (∀ (s : State) (pg : Nat) (i : PageInfo), s.pageInfo pg = some i → s.active i.dom = true → s.blkHeld pg i = false →
    ((s.page pg).newBad = [] → exec (.parityScan pg []) s = .next s)
    ∧ (s.takesDesc pg = true ∨ i.blk ∉ [0x01, 0x0E, 0x0F, 0x11, 0x12, 0x14] →
        ((s.page pg).newBad ≠ [] → ∃ t : State, exec (.parityScan pg []) s = .next t
          ∧ (t.page pg).found = (s.page pg).badPar ∧ (t.page pg).irqRaw.getLsbD 1 = true ∧ (t.page pg).badPar = (s.page pg).badPar
          ∧ ((s.page pg).err.v = false → (t.page pg).err
              = { v := true, more := false, code := eCfgParity, off := BitVec.ofNat 12 ((s.page pg).newBad.foldl min 4096) })
          ∧ ((s.page pg).err.v = true → (t.page pg).err = { (s.page pg).err with more := true }))
        ∧ ∀ off w d, s.protDef i off = some d → ∃ t : State, exec (.parityScan pg [(off, w)]) s = .next t
            ∧ off ∈ (t.page pg).badPar ∧ off ∈ (t.page pg).found))
  ∧ ∀ (s : State) (i : PageInfo), s.pageInfo pgDrt = some i → s.active i.dom = true → s.blkHeld pgDrt i = false →
      (s.page pgDrt).newBad = [0x100] → s.drt.act = false → s.drt.owed = false → s.drt.waiting = [] → s.drt.domWait = [] →
      ∃ t : State, exec (.parityScan pgDrt []) s = .next t ∧ t.budget = s.strapBudget

/-- A 4-byte read of a low word answers it and latches the high word of the same register for the next read of that high word: of a
counter or holding copy, of BEAT_SLOTk, of a trace pair. -/
def Sys2Proof.Cert.LowReadsLatchHighWords : Prop :=
  (∀ (s : State) (prv : Priv) (pg off : Nat) (i : PageInfo) (x : Nat × Bool), s.reach prv (pageAddr pg + off) 4 false 0 = .ok (pg, i, off) →
      0xC00 ≤ off → off < 4096 → off % 8 = 0 → cntAt i off = some x → s.latched pg off = none →
      exec (.counterLowRead prv pg off) s
        = .next ((s.setLatch pg (some (off + 4, BitVec.ofNat 32 ((s.page pg).cntVal x / 2 ^ 32)))).addOut
            (.read (BitVec.ofNat 64 ((s.page pg).cntVal x % 2 ^ 32)))))
  ∧ (∀ (s : State) (prv : Priv) (k : Nat) (i : PageInfo), k < s.nCords →
      s.reach prv (pageAddr pgBeat + 0x200 + 8 * k) 4 false 0 = .ok (pgBeat, i, 0x200 + 8 * k) → s.latched pgBeat (0x200 + 8 * k) = none →
      exec (.beatSlotLoRead prv k) s
        = .next ((s.setLatch pgBeat (some (0x200 + 8 * k + 4, BitVec.ofNat 32 ((s.slotBeat k).step.toNat / 2 ^ 16)))).addOut
            (.read (BitVec.ofNat 64 ((s.slotBeat k).step.toNat % 2 ^ 16 * 2 ^ 16 + (s.slotBeat k).phase.toNat)))))
  ∧ (∀ (s : State) (prv : Priv) (pg off hi : Nat) (i : PageInfo) (d d' : RegDef), i.blk = 0x15 → off < 0x11C ∨ 0x124 ≤ off → pairHi i off = some hi →
      s.reach prv (pageAddr pg + off) 4 false 0 = .ok (pg, i, off) → s.regDef i off = some d → s.regDef i hi = some d' →
      s.latched pg off = none →
      exec (.trcLoRead prv pg off) s
        = .next ((s.setLatch pg (some (hi, BitVec.ofNat 32 (s.regRead i pg hi d')))).addOut (.read (BitVec.ofNat 64 (s.regRead i pg off d)))))
  ∧ ∀ (s : State) (i : PageInfo) (pg off : Nat) (v : Word), (s.page pg).latch = some (off, v) →
      s.readWord i pg off = (s.setLatch pg none, v.toNat)

/-- REGISTER_WRITE: an access that the page, its power, its clocks or the privilege do not allow is refused, and changes nothing but the
page's error record; a counter is read-only; a write of an RWX register of a locked page is ignored and recorded; any other write
is performed by its block. -/
def Sys2Proof.Cert.RegisterWritesAreChecked : Prop :=
  (∀ (s t : State) (prv : Priv) (a : Addr) (n : Nat) (v : Word64), s.reach prv a.toNat n true v.toNat = .error t →
      exec (.registerWrite prv a n v) s = .next (t.addOut .refused) ∧ (t = s ∨ ∃ pg off, t = s.pgErr pg eBusErr off))
  ∧ (∀ (s : State) (prv : Priv) (a : Addr) (n : Nat) (v : Word64), n ≠ 4 → n ≠ 8 →
      exec (.registerWrite prv a n v) s = .next (s.addOut .refused))
  ∧ (∀ (s : State) (prv : Priv) (a : Addr) (n pg off : Nat) (v : Word64) (i : PageInfo),
      s.reach prv a.toNat n true v.toNat = .ok (pg, i, off) → 0xC00 ≤ off → exec (.registerWrite prv a n v) s = .next s)
  ∧ ∀ (s : State) (prv : Priv) (a : Addr) (n pg off : Nat) (v : Word64) (i : PageInfo) (d : RegDef),
      s.reach prv a.toNat n true v.toNat = .ok (pg, i, off) → 0x100 ≤ off → off < 0xC00 → s.regDef i off = some d →
      (d.rwx ≠ 0 → (s.page pg).unl = false → exec (.registerWrite prv a n v) s = .next (s.pgErr pg eBusErr off))
      ∧ ((d.rwx = 0 ∨ (s.page pg).unl = true) → ∃ t : State, exec (.registerWrite prv a n v) s = .next t
          ∧ t = s.writeBlock (decide (prv = .m)) i pg off d (v.toNat % 2 ^ 32)
          ∧ (i.blk = 0x04 ∨ i.blk = 0x06 ∨ i.blk = 0x0C → d.rw + d.rwx ≠ 0 →
              SMap.get (t.page pg).cfg (BitVec.ofNat 32 d.reset) off
                = BitVec.ofNat 32 (maskIn (d.rw ||| d.rwx) (s.stored pg off d) (v.toNat % 2 ^ 32))
              ∧ ((s.page pg).pinj = false → off ∉ (t.page pg).badPar) ∧ t.mem = s.mem ∧ ∀ q, q ≠ pg → t.page q = s.page q))

/-- MGR_AQ_CFG: EN with both sizes in range turns the admin queue on, afresh where it was off and stopped where a ring is not in host
memory; EN 0 turns it off once nothing of it is uncompleted. -/
def Sys2Proof.Cert.AdminQueueRegisterActs : Prop :=
  (∀ (s : State) (prv : Priv) (v : Word) (i : PageInfo), Lands s prv pgMgr 0x120 v.toNat i → v.getLsbD 31 = true →
      4 ≤ bits v.toNat 7 4 → bits v.toNat 7 4 ≤ 12 → 4 ≤ bits v.toNat 3 0 → bits v.toNat 3 0 ≤ 12 → (s.queue 0).live = true →
      ∃ t : State, exec (.mgrAqCfgWrite prv v) s = .next t ∧ t.queue 0 = { s.queue 0 with closing := false }
        ∧ (SMap.get (t.page pgMgr).cfg 0x44 0x120).getLsbD 31 = true)
  ∧ (∀ (s s1 : State) (prv : Priv) (v : Word) (i : PageInfo) (d : RegDef) (ad : Nat → Nat), Lands s prv pgMgr 0x120 v.toNat i →
      s.regDef i 0x120 = some d → s1 = s.putReg pgMgr 0x120 d (v.toNat % 2 ^ 31 + 2 ^ 31) → v.getLsbD 31 = true →
      4 ≤ bits v.toNat 7 4 → bits v.toNat 7 4 ≤ 12 → 4 ≤ bits v.toNat 3 0 → bits v.toNat 3 0 ≤ 12 → (s.queue 0).live = false →
      (∀ k < 4, ad k = (s1.cfg pgMgr (0x100 + 8 * k) 0).toNat + (s1.cfg pgMgr (0x104 + 8 * k) 0).toNat * 2 ^ 32) →
      (∀ k < 4, hostAligned (ad k) = true) →
      exec (.mgrAqCfgWrite prv v) s
        = .next ((s1.setQueue 0 { Queue.none with
            live := true, cmd := BitVec.ofNat 48 (ad 0), cpl := BitVec.ofNat 48 (ad 1), ev := BitVec.ofNat 48 (ad 2),
            ctl := BitVec.ofNat 48 (ad 3), logN := bits v.toNat 3 0, logEv := bits v.toNat 7 4,
            stopped := false }).pollQueue (2 ^ bits v.toNat 3 0) 0))
  ∧ ∀ (s : State) (prv : Priv) (v : Word) (i : PageInfo), Lands s prv pgMgr 0x120 v.toNat i → v.getLsbD 31 = false →
      ∃ t : State, exec (.mgrAqCfgWrite prv v) s = .next t
        ∧ ((s.queue 0).live = true → (s.queue 0).cmds = [] → t.queue 0 = { s.queue 0 with live := false, closing := false })
        ∧ ((s.queue 0).live = true → (s.queue 0).cmds ≠ [] → t.queue 0 = { s.queue 0 with closing := true })

/-- A write of half of BEAT_SLOTk, under unlock and with the own source, moves the slot's beat; PWR_DOMk.REQ starts a transition that
R394 allows, at once where it lowers or where the draught has room for the raise, and no other. -/
def Sys2Proof.Cert.SlotAndDomainRegistersAct : Prop :=
  (∀ (s : State) (prv : Priv) (k : Nat) (hi : Bool) (v : Word) (i : PageInfo), k < s.nCords →
      Lands s prv pgBeat (0x200 + 8 * k + if hi then 4 else 0) v.toNat i → (s.page pgBeat).unl = true → s.slotCtx k = none → s.beat.actsrc = 1 →
      k ≠ s.tslot → s.nextBeat k = none → ∃ t : State, exec (.beatSlotWrite prv k hi v) s = .next t
        ∧ (hi = false → (t.slotBeat k).phase.toNat = v.toNat % 2 ^ 16 ∧ (t.slotBeat k).step.toNat % 2 ^ 16 = v.toNat / 2 ^ 16
            ∧ (t.slotBeat k).step.toNat / 2 ^ 16 = (s.slotBeat k).step.toNat / 2 ^ 16)
        ∧ (hi = true → (t.slotBeat k).phase = (s.slotBeat k).phase ∧ (t.slotBeat k).step.toNat / 2 ^ 16 = v.toNat % 2 ^ 24
            ∧ (t.slotBeat k).step.toNat % 2 ^ 16 = (s.slotBeat k).step.toNat % 2 ^ 16))
  ∧ ∀ (s : State) (prv : Priv) (k : Nat) (v : Word) (i : PageInfo) (st : BitVec 2), k < 290 → st = BitVec.ofNat 2 v.toNat →
      Lands s prv pgPwr (0x200 + 4 * k) v.toNat i → ∃ t : State, exec (.pwrDomWrite prv k v) s = .next t
        ∧ (st = 3 ∨ s.domReqOk k st = false → t.doms = s.doms)
        ∧ (st ≠ 3 → s.domReqOk k st = true → (s.dom k).busy = false →
            (t.dom k).req = st ∧ (t.dom k).state = (s.dom k).state ∧ (t.dom k).busy = decide (domRank st ≠ domRank (s.dom k).state)
            ∧ (domRank (s.dom k).state < domRank st → s.drt.domWait = [] →
                s.committed + (domDraw k st - domDraw k (s.dom k).state) ≤ s.drtLimit → k ∉ t.drt.domWait))

/-- RST_PART and RST_DIE: GO on cords that no live context owns asserts the partition's source, on a free die the die's, on an owned die
that of its owner's partition; a GO that names nothing resets nothing. RST_WDTK: the key counts a kick, any other value asserts the
watchdog's source. RST_RCLR clears the counts. -/
def Sys2Proof.Cert.ResetRegistersAct : Prop :=
  (∀ (s : State) (prv : Priv) (v : Word) (i : PageInfo), Lands s prv pgRst 0x108 (v.toNat ||| 2 ^ 31) i → s.supply.vstbyGood = true →
      ∃ t : State, exec (.rstPartGo prv v) s = .next t
        ∧ (v.toNat % 2 ^ 24 = 0 → t.rst = s.rst)
        ∧ (cordsOf (v.toNat % 2 ^ 24) ≠ [] → (∀ c ∈ cordsOf (v.toNat % 2 ^ 24), c < s.nCords
              ∧ ∀ p ∈ s.liveCtxs, bit (blkCords p.2.block) c = false) →
            t.rst.asserted = s.rst.asserted
              ++ [{ cause := 8, reach := 2, dies := (cordsOf (v.toNat % 2 ^ 24)).flatMap cordDies, pg := 0 }]))
  ∧ (∀ (s : State) (prv : Priv) (v : Word) (i : PageInfo) (d : Nat), Lands s prv pgRst 0x10C (v.toNat ||| 2 ^ 31) i →
      s.supply.vstbyGood = true → d = v.toNat % 128 → ∃ t : State, exec (.rstDieGo prv v) s = .next t
        ∧ (96 ≤ d ∨ s.hasDie d = false → t.rst = s.rst)
        ∧ (d < 96 → s.hasDie d = true → (dieCord d).bind s.cordCtx = none →
            t.rst.asserted = s.rst.asserted ++ [{ cause := 9, reach := 3, dies := [d], pg := 0 }])
        ∧ (∀ p, d < 96 → s.hasDie d = true → (dieCord d).bind s.cordCtx = some p →
            t.rst.asserted = s.rst.asserted ++ [{ cause := 9, reach := 2, dies := p.2.cords.flatMap cordDies, pg := 0 }]))
  ∧ (∀ (s : State) (v : Word) (i : PageInfo), Lands s .m pgRst 0x114 v.toNat i → s.supply.vstbyGood = true →
      (v.toNat % 65536 = 0x6B1C → exec (.rstWdtkWrite .m v) s = .next (s.count pgRst 7 1))
      ∧ (v.toNat % 65536 ≠ 0x6B1C → ∃ t : State, exec (.rstWdtkWrite .m v) s = .next t
          ∧ t.rst.asserted = s.rst.asserted ++ [{ cause := 6, reach := 1, dies := [], pg := 0 }]))
  ∧ ∀ (s : State) (prv : Priv) (v : Word) (i : PageInfo), Lands s prv pgRst 0x174 v.toNat i → v.getLsbD 0 = true →
      ∃ t : State, exec (.rstRclrWrite prv v) s = .next t ∧ t.ember = { s.ember with rcnt := [], rtotal := 0 }

/-- EN of a port's configuration, written 0, disables it, written 1 starts a disabled one with DETECT; a manager's UPP keeps reading 0.
RETRAIN takes an active enabled port into RETRAIN. -/
def Sys2Proof.Cert.PortRegistersAct : Prop :=
  (∀ (s : State) (prv : Priv) (p pg : Nat) (v : Word) (i : PageInfo) (c : Instr), p ≤ 5 → pg = (if p < 2 then pgHlk p else portPage p) →
      c = (if p < 2 then .hlkCfgEn prv p v else .rdpCfgEn prv p v) → v.getLsbD 31 = false → Lands s prv pg 0x104 v.toNat i →
      (s.page pg).pinj = false → ∃ t : State, exec c s = .next t
        ∧ (p ≠ 2 ∨ s.isManager = false →
            (v.getLsbD 0 = false → (t.port p).tstate = 0)
            ∧ (v.getLsbD 0 = true → (s.port p).tstate ≠ 0 → (t.port p).tstate = (s.port p).tstate)
            ∧ (v.getLsbD 0 = true → (s.port p).tstate = 0 → s.active (portDom p) = true → s.linksUp = true → (t.port p).tstate = 1))
        ∧ (p = 2 → s.isManager = true → t.ports = s.ports ∧ t.portEn 2 = false))
  ∧ ∀ (s : State) (prv : Priv) (p pg h : Nat) (i : PageInfo) (c : Instr), p ≤ 5 → pg = (if p < 2 then pgHlk p else portPage p) →
      c = (if p < 2 then .hlkCfgRetrain prv p else .rdpCfgRetrain prv p) → h = s.held? pg 0x104 1 → h < 2 ^ 31 → h % 2 = 1 →
      p ≠ 2 ∨ s.isManager = false → Lands s prv pg 0x104 (2 ^ 31 + h) i → (s.port p).tstate ≠ 0 → ∃ t : State, exec c s = .next t
        ∧ ((s.port p).tstate = 5 → (t.port p).tstate = 6) ∧ ((s.port p).tstate ≠ 5 → t.port p = s.port p)

/-- SVC_CFG.ENUM starts the enumeration of a head, which takes address 0; FW_CTL commits a running trial, activates a staged and
verified image at once while no context is live, or discards the staging, and otherwise changes nothing. -/
def Sys2Proof.Cert.FirmwareRegistersAct : Prop :=
  (∀ (s : State) (prv : Priv) (h : Nat) (i : PageInfo), h < 2 ^ 31 → h = s.held? pgSvc 0x104 3 →
      Lands s prv pgSvc 0x104 (2 ^ 31 + h) i → ∃ t : State, exec (.svcCfgEnum prv) s = .next t
        ∧ (s.isHead = true → t.ember = { s.ember with caddr := some 0 } ∧ t.chain.cstate = 2)
        ∧ (s.isHead = false → t.ember = s.ember ∧ t.chain = s.chain))
  ∧ ∀ (s : State) (prv : Priv) (i : PageInfo),
      (Lands s prv pgFw 0x10C 1 i → ∃ t : State, exec (.fwCtlCommit prv) s = .next t
        ∧ (s.fw.trial = true → s.fw.activating = none → t.fw.trial = false
            ∧ t.fuses.arb = max s.fuses.arb (imgArb (s.bankRd (decide (s.bootBase.tbank = 1)) 0 256)))
        ∧ (s.fw.trial = false → t = s))
      ∧ (Lands s prv pgFw 0x10C 2 i → ∃ t : State, exec (.fwCtlActnow prv) s = .next t
        ∧ (s.liveCtxs = [] → s.fw.sstate = 3 → s.fw.activating = none → s.actArmed = false → s.bankOk s.fw.target = true →
            t.fw.trial = true ∧ t.fw.activating = some { hold := none, fired := none })
        ∧ (s.liveCtxs ≠ [] ∨ s.fw.sstate ≠ 3 ∨ s.fw.activating ≠ none ∨ s.actArmed = true → t = s))
      ∧ (Lands s prv pgFw 0x10C 4 i → ∃ t : State, exec (.fwCtlAbort prv) s = .next t
        ∧ (s.staging = true → t.fw.sstate = 0 ∧ t.fw.nblk = 0 ∧ t.fw.programming = [])
        ∧ (s.staging = false → t = s))

/-- Freeze and trace commands: GO and SGO freeze the package or a slot, THAW and STHAW thaw it, POUT drives FRZN low while the package is
frozen, a frozen state takes only MORE; an edge on
FRZN freezes the package where PINEN is set; enabling a trace unit starts its ring anew, a flush completes an odd record to a line, and a
line leaves the buffer with its two records. -/
def Obligations.FreezeAndTraceAct : Prop :=
  (∀ (s : State) (prv : Priv) (v : Word) (i : PageInfo), v.toNat < 2 ^ 28 → v.toNat % 32 < s.nCords →
      (Lands s prv pgTrcMgr 0x140 (v.toNat ||| 2 ^ 31) i → ∃ t : State, exec (.trcFctlGo prv v) s = .next t ∧ (t.fz 24).v = true
        ∧ ((s.page pgTrcMgr).pinj = false → t.frznLow = v.getLsbD 26)
        ∧ ((s.fz 24).v = true → (t.fz 24).more = true ∧ (t.fz 24).beat = (s.fz 24).beat)
        ∧ ((s.fz 24).v = false → (t.fz 24).src = 2 ∧ (t.fz 24).more = false))
      ∧ (Lands s prv pgTrcMgr 0x140 (v.toNat ||| 2 ^ 30) i → ∃ t : State, exec (.trcFctlThaw prv v) s = .next t
          ∧ (t.fz 24).v = false ∧ (t.fz 24).beat = (s.fz 24).beat)
      ∧ (Lands s prv pgTrcMgr 0x140 (v.toNat ||| 2 ^ 29) i →
          ∃ t : State, exec (.trcFctlSgo prv v) s = .next t ∧ (t.fz (v.toNat % 32)).v = true)
      ∧ (Lands s prv pgTrcMgr 0x140 (v.toNat ||| 2 ^ 28) i →
          ∃ t : State, exec (.trcFctlSthaw prv v) s = .next t ∧ (t.fz (v.toNat % 32)).v = false))
  ∧ (∀ s : State, (s.cfg pgTrcMgr 0x140 0).getLsbD 27 = true → (s.fz 24).v = false →
      ∃ t : State, exec .frznEdge s = .next t ∧ (t.fz 24).v = true ∧ (t.fz 24).src = 4 ∧ (t.fz 24).beat = s.slotBeat s.tslot)
  ∧ (∀ (s : State) (prv : Priv) (die : Nat) (v : Word) (i : PageInfo), s.hasTrc die = true → Lands s prv (pgTrc die) 0x100 v.toNat i →
      (v.getLsbD 31 = true → bit (s.trcCtl die) 31 = false → 16 ≤ s.trcLog2 die → s.trcLog2 die ≤ 32 → s.trcRegionOk die = true →
        ∃ t : State, exec (.trcCtlWrite prv die v) s = .next t ∧ t.trcUnit die = { wptr := 0, full := false, buf := [], lost := 0 })
      ∧ (v.getLsbD 31 = false → bit (s.trcCtl die) 31 = true →
        ∃ t : State, exec (.trcCtlWrite prv die v) s = .next t ∧ t.trcUnit die = (s.traceFlush die).trcUnit die))
  ∧ (∀ (s : State) (die : Nat), s.hasTrc die = true → s.isOpen (pgTrc die) = true → ∃ t : State, exec (.traceFlush die) s = .next t
      ∧ (t.trcUnit die).buf.length % 2 = 0 ∧ (t.trcUnit die).buf.take (s.trcUnit die).buf.length = (s.trcUnit die).buf)
  ∧ ∀ (s : State) (die : Nat) (ok : Bool) (a b : List Byte) (r : List (List Byte)), s.hasTrc die = true → s.isOpen (pgTrc die) = true → (s.trcUnit die).buf = a :: b :: r →
      ∃ t : State, exec (.traceLineWrite die ok) s = .next t ∧ (t.trcUnit die).wptr = (s.trcUnit die).wptr + 2
        ∧ (t.trcUnit die).buf = (if (t.trcUnit die).full then [] else r)
        ∧ ((t.trcUnit die).full = true ↔ bit (s.trcCtl die) 30 = true ∧ 2 ^ s.trcLog2 die / 32 ≤ (s.trcUnit die).wptr + 2)

/-! Supplies, kindling, resets and domains. -/

/-- Supplies are judged by their thresholds. A good VIN56 sample sets the verdict and ends the source that its loss asserted; one outside 44.0 V to 62.0 V after a good verdict
asserts cause 0 with reach COLD; between them the verdict stays. VSTBY is good from 3.10 V, and a return of it counts its source and
judges the pins; below 3.00 V the ember domain loses its contents and kindling falls back to K0. -/
def Sys2Proof.Cert.SuppliesAreJudged : Prop :=
  (∀ (s : State) (v : BitVec 16), 4600 ≤ v.toNat → v.toNat ≤ 6200 → (∀ x ∈ s.rst.asserted, x.cause ≠ 0) →
      exec (.vin56Good v) s = .next { s with supply := { s.supply with vin := v, vinGood := true } })
  ∧ (∀ (s : State) (v : BitVec 16), 4600 ≤ v.toNat → v.toNat ≤ 6200 → s.rst.asserted = [wideSource 0 0] → s.rst.latch = some 0 →
      ∃ t : State, exec (.vin56Good v) s = .next t ∧ t.supply.vinGood = true ∧ t.rst = Rst.reset ∧ t.ember.reach = 0)
  ∧ (∀ (s : State) (v : BitVec 16), v.toNat < 4400 ∨ 6200 < v.toNat → s.supply.vinGood = true → s.supply.vstbyGood = true →
      ∃ t : State, exec (.vin56Lost v) s = .next t ∧ t.supply.vinGood = false ∧ t.supply.vin = v
        ∧ wideSource 0 0 ∈ t.rst.asserted ∧ t.rst.latch = some 0 ∧ t.kind.phase ≤ 1)
  ∧ (∀ (s : State) (v : BitVec 16), 4400 ≤ v.toNat → v.toNat < 4600 →
      exec (.vin56Good v) s = .next s ∧ exec (.vin56Lost v) s = .next s)
  ∧ (∀ (s : State) (v : BitVec 12), 3100 ≤ v.toNat →
      (s.supply.vstbyGood = true → exec (.vstbyGood v) s = .next { s with supply := { s.supply with vstby := v, vstbyGood := true } })
      ∧ (s.supply.vstbyGood = false → s.pins.rstn = true → s.pins.wrstn = true → s.pins.refclk = true →
          exec (.vstbyGood v) s = .next { s with supply := { s.supply with vstby := v, vstbyGood := true },
                                                 ember := { Ember.reset with rcnt := [(1, 1)], rtotal := 1 } })
      ∧ (s.supply.vstbyGood = false → s.pins.rstn = false → ∃ t : State, exec (.vstbyGood v) s = .next t
          ∧ wideSource 2 0 ∈ t.rst.asserted ∧ t.rst.latch = some 0 ∧ SMap.get t.ember.rcnt 0 1 = 1 ∧ SMap.get t.ember.rcnt 0 2 = 1))
  ∧ (∀ (s : State) (v : BitVec 12), v.toNat < 3000 → s.supply.vstbyGood = true →
      ∃ t : State, exec (.vstbyLost v) s = .next t ∧ t.supply.vstbyGood = false ∧ t.ember = Ember.reset ∧ t.rst = Rst.reset
        ∧ t.kind = Kind.reset ∧ t.fuses = s.fuses ∧ t.flash = s.flash)
  ∧ ∀ (s : State) (v : BitVec 12), 3000 ≤ v.toNat → v.toNat < 3100 →
      exec (.vstbyGood v) s = .next s ∧ exec (.vstbyLost v) s = .next s

/-- Kindling runs its phases in order: the end of each begins the next. K0 needs VSTBY alone; K1 waits for the thermal hold and starts the
chain relay; K2 latches fuses and straps; K3 qualifies the clocks; K4 leads to K5, or back to the package's own phase where only a
part of it was reset; K5 waits for an image that comes from outside. -/
def Sys2Proof.Cert.KindlingAdvances : Prop :=
  (∀ s : State, s.kind.phase = 0 → s.kind.halt = false → s.supply.vstbyGood = true →
      exec .ember s = .next { s with kind := { s.kind with phase := 1 } })
  ∧ (∀ s : State, s.inPhase 1 = true → (∃ t : State, exec (.converters true) s = .next t ∧ t.kind = s.kind ∧ t.thermLow = true)
      ∧ ∃ t : State, exec (.converters false) s = .next t ∧ t.kind.phase = 2 ∧ t.chain.relay = true
        ∧ t.supply.tj.toNat ≤ 95)
  ∧ (∀ s : State, s.inPhase 2 = true → s.settingsBad = false → ∃ t : State, exec (.optionLoading none) s = .next t ∧ t.kind.phase = 3
      ∧ t.shadow = s.fuses ∧ t.ember.straps = s.pins.straps &&& 0xFFE ∧ t.kind.opts = true)
  ∧ (∀ s : State, s.inPhase 3 = true → ∃ t : State, exec (.dieEnumeration none none) s = .next t ∧ t.kind.phase = 4 ∧ t.kind.qual = true)
  ∧ (∀ s : State, s.inPhase 4 = true → s.kind.scope = none → s.kind.cold = true →
      exec (.stackTraining none) s = .next { s with kind := { s.kind with phase := 5, scope := none, back := 7 } })
  ∧ (∀ (s : State) (l : List Nat), s.inPhase 4 = true → s.kind.scope = some l →
      ∃ t : State, exec (.stackTraining none) s = .next t ∧ t.kind.phase = s.kind.back ∧ t.kind.scope = none)
  ∧ (∀ (s : State) (b : Bool) (t : State), s.inPhase 5 = true → s.strapBoot < 2 → s.bootFlash = (t, some b) →
      ∃ u : State, exec .firmwareStart s = .next u ∧ u.kind.phase = 6 ∧ u.fw.version = t.bankVersion b ∧ u.fw.runb = b)
  ∧ (∀ s : State, s.inPhase 5 = true → 2 ≤ s.strapBoot → s.fw.bootEnd = false → exec .firmwareStart s = .next s)
  ∧ ∀ (s : State) (a b : Bool), s.inPhase 6 = true → ∃ t : State, exec (.linkTraining a b) s = .next t ∧ t.kind.phase = 7

/-- Kindling halts with the code of its cause and the number of its die: fuses or settings 5, a missing die 1, an unqualified clock 2, a
stack that does not train 3, no bank that passes 4 on die 98. -/
def Sys2Proof.Cert.KindlingHalts : Prop :=
  (∀ (s : State) (d : Nat), s.inPhase 2 = true → ∃ t : State, exec (.optionLoading (some d)) s = .next t
      ∧ t.kind.halt = true ∧ t.kind.hcode = 5 ∧ t.kind.hdie = d ∧ t.kind.phase = 2)
  ∧ (∀ (s : State) (d : Nat) (x : Option Nat), s.inPhase 3 = true → ∃ t : State, exec (.dieEnumeration (some d) x) s = .next t
      ∧ t.kind.halt = true ∧ t.kind.hcode = 1 ∧ t.kind.hdie = d)
  ∧ (∀ (s : State) (d : Nat), s.inPhase 3 = true → ∃ t : State, exec (.dieEnumeration none (some d)) s = .next t
      ∧ t.kind.halt = true ∧ t.kind.hcode = 2 ∧ t.kind.hdie = d)
  ∧ (∀ (s : State) (d : Nat), s.inPhase 4 = true → ∃ t : State, exec (.stackTraining (some d)) s = .next t
      ∧ t.kind.halt = true ∧ t.kind.hcode = 3 ∧ t.kind.hdie = d ∧ t.ember = s.ember)
  ∧ ∀ (s t : State), s.inPhase 5 = true → s.strapBoot < 2 → s.bootFlash = (t, none) →
      ∃ u : State, exec .firmwareStart s = .next u ∧ u.kind.halt = true ∧ u.kind.hcode = 4 ∧ u.kind.hdie = 98

namespace Sys2Proof.Cert

/-- The source `x` has been asserted. -/
def Asserts (s : State) (x : Source) (t : State) : Prop :=
  t.rst.asserted = s.rst.asserted ++ [x] ∧ (∃ l, t.rst.latch = some l ∧ l ≤ x.reach)
    ∧ SMap.get t.ember.rcnt 0 x.cause = min 0xFFFF (SMap.get s.ember.rcnt 0 x.cause + 1)

end Sys2Proof.Cert

/-- Each reset source asserts its cause with its reach while VSTBY is good: RSTN 2 COLD, WRSTN 3 WARM, host-link reset 5 WARM, watchdog 6
WARM, thermal trip 7 COLD, loss of REFCLK 11 WARM. A junction at its maximum is reported, not reset; THERM_N is low from
105 °C. -/
def Sys2Proof.Cert.ResetSourcesAssert : Prop :=
  (∀ s : State, s.supply.vstbyGood = true →
    (s.pins.rstn = true → ∃ t : State, exec .rstnPin s = .next t ∧ Asserts s { cause := 2, reach := 0, dies := [], pg := 0 } t
      ∧ t.pins.rstn = false)
    ∧ (s.pins.wrstn = true → ∃ t : State, exec .wrstnPin s = .next t ∧ Asserts s { cause := 3, reach := 1, dies := [], pg := 0 } t
      ∧ t.pins.wrstn = false)
    ∧ (∀ p < 2, s.portUp p = true →
      ∃ t : State, exec (.hostLinkReset p) s = .next t ∧ Asserts s { cause := 5, reach := 1, dies := [], pg := 0 } t)
    ∧ (s.wdtOn = true → ∃ t : State, exec .watchdogTimeout s = .next t ∧ Asserts s { cause := 6, reach := 1, dies := [], pg := 0 } t)
    ∧ (∀ d v : Nat, 115 ≤ v → v < 256 → s.hasDie d = true → s.supply.vinGood = true → (∀ x ∈ s.rst.asserted, x.cause ≠ 7) →
      ∃ t : State, exec (.thermalTrip d v) s = .next t ∧ Asserts s { cause := 7, reach := 0, dies := [], pg := 0 } t
        ∧ t.supply.tj.toNat = v ∧ t.thermLow = true)
    ∧ (s.pins.refclk = true → ∃ t : State, exec .refclkLoss s = .next t
      ∧ Asserts s { cause := 11, reach := 1, dies := [], pg := 0 } t ∧ t.pins.refclk = false))
  ∧ ∀ (s : State) (d v : Nat), 105 ≤ v → v < 256 → s.hasDie d = true → s.sensorsOn = true →
      ∃ t : State, exec (.tjWarning d v) s = .next t ∧ t.supply.tj.toNat = v ∧ t.rst = s.rst ∧ t.thermLow = true

/-- Every assertion of a source while VSTBY is good joins the asserted sources, widens the latch to its reach if that is wider, adds its
cause to the episode's, and counts it, saturating at 0xFFFF, and the total, saturating at 0xFFFF_FFFF. -/
def Sys2Proof.Cert.AssertionsAreLatchedAndCounted : Prop :=
  ∀ (s : State) (x : Source), s.supply.vstbyGood = true →
    (s.assertSource x).rst.asserted = s.rst.asserted ++ [x]
    ∧ (s.assertSource x).rst.latch = some (match s.rst.latch with | some y => min y x.reach | none => x.reach)
    ∧ SMap.get (s.assertSource x).ember.rcnt 0 x.cause = min 0xFFFF (SMap.get s.ember.rcnt 0 x.cause + 1)
    ∧ (∀ c, c ≠ x.cause → SMap.get (s.assertSource x).ember.rcnt 0 c = SMap.get s.ember.rcnt 0 c)
    ∧ (s.assertSource x).rst.causes = s.rst.causes ||| BitVec.ofNat 12 (2 ^ x.cause)
    ∧ (s.assertSource x).ember.rtotal = min 0xFFFFFFFF (s.ember.rtotal + 1)

/-- A source's release ends the episode only once no source is asserted: until then the latch stays; then RST_CAUSE takes the recorded
reach and causes, and the latch and the scope clear. Every recovery records so. -/
def Sys2Proof.Cert.LastReleaseEndsTheEpisode : Prop :=
  (∀ (s : State) (y : Nat), s.rst.latch = some y →
    s.recover.ember.reach = y ∧ s.recover.ember.causes = s.rst.causes ∧ s.recover.rst = Rst.reset)
  ∧ ∀ (s : State) (c : Nat) (y : Nat), 2 ≤ c → c ≤ 11 → c ≠ 10 → s.rst.latch = some y → (∃ x ∈ s.rst.asserted, x.cause = c) →
    ((∃ x ∈ s.rst.asserted, x.cause ≠ c) → ∃ t : State, exec (.resetSourceRelease c 0) s = .next t ∧ t.rst.latch = some y
        ∧ t.ember = s.ember ∧ (∀ x, x ∈ t.rst.asserted ↔ x ∈ s.rst.asserted ∧ x.cause ≠ c))
    ∧ ((∀ x ∈ s.rst.asserted, x.cause = c) → ∃ t : State, exec (.resetSourceRelease c 0) s = .next t ∧ t.rst = Rst.reset
        ∧ t.ember.reach = y ∧ t.ember.causes = s.rst.causes ∧ t.ember.rcnt = s.ember.rcnt ∧ t.ember.k2r = s.kind.k2r)

/-- A clock of a present die that loses qualification stands in the list of lost clocks until it qualifies again. -/
def Sys2Proof.Cert.ClocksLoseAndRegainQualification : Prop :=
  (∀ (s : State) (d : Nat) (k : Clock), s.hasDie d = true → s.clkPages d k ≠ [] → s.dieQual d = true → s.dieHeld d = false →
      (d, k) ∉ s.lostClk → ∃ t : State, exec (.clockQualLoss d k) s = .next t ∧ t.lostClk = s.lostClk ++ [(d, k)])
  ∧ ∀ (s : State) (d : Nat) (k : Clock), (d, k) ∈ s.lostClk →
      ∃ t : State, exec (.clockQualified d k) s = .next t ∧ t.lostClk = s.lostClk.filter fun x => x ≠ (d, k)

/-- A transition in progress that waits for no credits ends: the domain reads its requested state and is not busy. A domain that goes off
takes no reduction port with it that still carries traffic (such a port's loss is a statement of its own), and no step waits for the
transition (one that does begins, whose lists may bank or raise arrays of their own). -/
def Sys2Proof.Cert.TransitionsComplete : Prop :=
  ∀ (s : State) (k : Nat), (s.dom k).busy = true → k ∉ s.drt.domWait → s.isOpen pgPwr = true →
    (∀ p ∈ s.liveCtxs, ∀ r, p.2.step = some r → r.begun = true ∨ r.replaying = true) →
    (∀ p, 2 ≤ p → p < 6 → portDom p = k → (s.dom k).req = 0 → (s.port p).tstate ≠ 5 ∧ (s.port p).tstate ≠ 6) →
    ∃ t : State, exec (.domainTransitionDone k) s = .next t ∧ (t.dom k).state = (s.dom k).req ∧ (t.dom k).req = (s.dom k).req
      ∧ (t.dom k).busy = false

/-! Larfort and reduction ports. -/

namespace Sys2Proof.Cert

/-- A flit of 256 bytes, its CRC good, arrives on a trained port. -/
def goodFlit (s : State) (p : Nat) (f : List Byte) : Prop :=
  p ≤ 5 ∧ s.portUp p = true ∧ f.length = 256 ∧ fld f 244 4 = (crc32 (f.take 244)).toNat

def flitType (f : List Byte) : Nat := bits (fld f 0 4) 31 30

def flitSeq (f : List Byte) : BitVec 12 := BitVec.ofNat 12 (bits (fld f 0 4) 29 18)

def flitAck (f : List Byte) : BitVec 12 := BitVec.ofNat 12 (bits (fld f 0 4) 17 6)

def flitNak (f : List Byte) : Bool := bit (fld f 0 4) 5

/-- The flits of port `p` that `ack` leaves unacknowledged. -/
def unacked (s : State) (p : Nat) (ack : BitVec 12) : List SentFlit := (s.port p).replay.filter fun f => after 12 f.seq.toNat ack.toNat

/-- No tree step waits for the last acknowledgement of UPP. -/
def noReport (s : State) (p : Nat) (ack : BitVec 12) : Prop :=
  p ≠ 2 ∨ s.treeCtx = none ∨ (s.port p).replay = [] ∨ unacked s p ack ≠ []

end Sys2Proof.Cert

/-- FLIT_RECEIVE: a data or control flit is delivered exactly once and in sequence: the next in sequence is delivered, an earlier one is
dropped, a later one or one with a bad CRC is discarded and NAKed; its ACK frees the replay buffer; idle flits deliver nothing. -/
def Sys2Proof.Cert.FlitsAreDeliveredInSequence : Prop :=
  (∀ (s : State) (p : Nat) (f : List Byte) (c : Bool), goodFlit s p f → flitNak f = false → noReport s p (flitAck f) →
      ∃ t : State, exec (.flitReceive p f c) s = .next t ∧ (t.port p).replay = unacked s p (flitAck f)
        ∧ (2 ≤ flitType f → t.out = s.out ∧ (t.port p).rxSeq = (s.port p).rxSeq)
        ∧ (flitType f ≤ 1 → flitSeq f = (s.port p).rxSeq + 1 →
            t.out = s.out ++ [.delivered p ((f.drop 4).take 240)] ∧ (t.port p).rxSeq = flitSeq f ∧ (t.port p).nak = false)
        ∧ (flitType f ≤ 1 → flitSeq f ≠ (s.port p).rxSeq + 1 → after 12 (flitSeq f).toNat (s.port p).rxSeq.toNat = false →
            t.out = s.out ∧ (t.port p).rxSeq = (s.port p).rxSeq)
        ∧ (flitType f ≤ 1 → flitSeq f ≠ (s.port p).rxSeq + 1 → after 12 (flitSeq f).toNat (s.port p).rxSeq.toNat = true →
            (t.port p).rxSeq = (s.port p).rxSeq ∧ (t.port p).nak = true))
  ∧ ∀ (s : State) (p : Nat) (f : List Byte) (c : Bool), p ≤ 5 → s.portUp p = true → f.length = 256 →
      fld f 244 4 ≠ (crc32 (f.take 244)).toNat →
      ∃ t : State, exec (.flitReceive p f c) s = .next t ∧ (t.port p).rxSeq = (s.port p).rxSeq ∧ (t.port p).nak = true
        ∧ (t.port p).replay = (s.port p).replay ∧ ∃ b : List Byte, t.out = s.out ++ [.flit p b] ∧ flitNak b = true ∧ flitType b = 2

/-- NAK_RECEIVE: every flit after ACK is sent again in order, once more each; where one has been sent RETRYMAX + 1 times already the port
retrains instead. -/
def Sys2Proof.Cert.NakSendsAgainOrRetrains : Prop :=
  ∀ (s : State) (p : Nat) (ack : BitVec 12), p ≤ 5 → s.portUp p = true → noReport s p ack →
    ((∀ f ∈ unacked s p ack, f.sent ≤ s.retryMax p) → ∃ t : State, exec (.nakReceive p ack) s = .next t ∧ (t.port p).tstate = 5
      ∧ (t.port p).replay = (unacked s p ack).map (fun f => { f with sent := f.sent + 1 })
      ∧ t.out.length = s.out.length + (unacked s p ack).length)
    ∧ ((∃ f ∈ unacked s p ack, s.retryMax p < f.sent) → ∃ t : State, exec (.nakReceive p ack) s = .next t ∧ (t.port p).tstate = 6
      ∧ (t.port p).replay = unacked s p ack ∧ t.out = s.out)

/-- A port moves through its training states: DETECT to EQUALISE to ALIGN to IDENTIFY to ACTIVE, a failure to DOWN and from there to
DETECT again; a lost alignment to RETRAIN. -/
def Sys2Proof.Cert.PortsTrain : Prop :=
  ∀ (s : State) (p : Nat), p ≤ 5 →
    ((s.port p).tstate = 1 → exec (.linkDetect p false) s = .next s
        ∧ ∃ t : State, exec (.linkDetect p true) s = .next t ∧ (t.port p).tstate = 2)
    ∧ ((s.port p).tstate = 2 → (∃ t : State, exec (.linkEqualiseDone p true) s = .next t ∧ (t.port p).tstate = 3)
        ∧ ∃ t : State, exec (.linkEqualiseDone p false) s = .next t ∧ (t.port p).tstate = 7)
    ∧ ((s.port p).tstate = 4 → p < 2 → ∀ peer part rtt, ∃ t : State, exec (.linkIdentifyDone p peer part rtt) s = .next t
        ∧ (t.port p).tstate = 5 ∧ (t.port p).replay = [] ∧ (t.port p).txSeq = 0)
    ∧ ((s.port p).tstate = 4 → 2 ≤ p → ∀ rtt, ∃ t : State,
        exec (.linkIdentifyDone p (if p = 2 then 2 else 1) s.shadow.part rtt) s = .next t ∧ (t.port p).tstate = 5
          ∧ (rtt ≤ 131070 → (t.port p).lat.toNat = (rtt + 1) / 2))
    ∧ ((s.port p).tstate = 4 → 2 ≤ p → ∀ peer part rtt, peer ≠ (if p = 2 then 2 else 1) ∨ part ≠ s.shadow.part →
        ∃ t : State, exec (.linkIdentifyDone p peer part rtt) s = .next t ∧ (t.port p).tstate = 7)
    ∧ ((s.port p).tstate = 5 → ∃ t : State, exec (.linkAlignmentLost p) s = .next t ∧ (t.port p).tstate = 6
        ∧ (t.port p).replay = (s.port p).replay)
    ∧ ((s.port p).tstate = 6 → ∃ t : State, exec (.linkRetrainTimeout p) s = .next t ∧ (t.port p).tstate = 7 ∧ (t.port p).replay = [])
    ∧ ((s.port p).tstate = 7 → ∃ t : State, exec (.linkDownRetry p) s = .next t ∧ (t.port p).tstate = 1)

/-- LINK_ALIGN_DONE: a port of 32 lanes with bad lanes in one half runs on the other unless NODEG is set; any other bad lane takes the
port down. From RETRAIN the port is ACTIVE again with the flits of its replay buffer. -/
def Sys2Proof.Cert.AlignDecidesWidth : Prop :=
  ∀ (s : State) (p : Nat) (bad : Word), p ≤ 5 → (s.port p).tstate = 3 ∨ (s.port p).tstate = 6 →
    ∃ t : State, exec (.linkAlignDone p bad) s = .next t
      ∧ (s.portLanes p = 32 → bad = 0 → (t.port p).lanes = 32 ∧ (t.port p).deg = false)
      ∧ (s.portLanes p = 32 → bad ≠ 0 → (s.cfg (portPage p) 0x800 0x800).getLsbD 0 = false →
          bad.toNat % 65536 = 0 ∨ bad.toNat / 65536 = 0 → (t.port p).lanes = 16 ∧ (t.port p).deg = true)
      ∧ (s.portLanes p = 32 → bad ≠ 0 → (s.cfg (portPage p) 0x800 0x800).getLsbD 0 = true → (t.port p).tstate = 7)
      ∧ (s.portLanes p = 32 → bad.toNat % 65536 ≠ 0 → bad.toNat / 65536 ≠ 0 → (t.port p).tstate = 7)
      ∧ (s.portLanes p = 16 → bad.toNat % 65536 = 0 → (t.port p).lanes = 16 ∧ (t.port p).deg = false)
      ∧ (s.portLanes p = 16 → bad.toNat % 65536 ≠ 0 → (t.port p).tstate = 7)
      ∧ ((t.port p).tstate ≠ 7 → (s.port p).tstate = 3 → (t.port p).tstate = 4)
      ∧ ((t.port p).tstate ≠ 7 → (s.port p).tstate = 6 → (t.port p).tstate = 5
          ∧ (t.port p).replay.map (fun f => (f.seq, f.bytes)) = (s.port p).replay.map fun f => (f.seq, f.bytes))

/-- A snooped command line of a queue is read again, up to a ring of commands; a line that no queue watches is no event. The host's two
apertures read back in HLK_APB of both ports. -/
def Sys2Proof.Cert.HostLinkCommandsAct : Prop :=
  (∀ (s : State) (a : Addr) (q : Nat), s.hostUp = true → s.watchedBy a.toNat = some q →
      exec (.watchedLineSnoop a) s = .next (s.cohEvent.pollQueue (2 ^ (s.queue q).logN) q))
  ∧ (∀ (s : State) (a : Addr) (q : Nat), s.hostUp = true → s.watchedBy a.toNat = some q → s.cohEvent.acceptOne q = none →
      exec (.watchedLineSnoop a) s = .next s.cohEvent)
  ∧ (∀ (s : State) (a : Addr), s.hostUp = true → s.watchedBy a.toNat = none → (∀ q < 64, (s.queue q).live = true → (s.queue q).ctl ≠ a) →
      exec (.watchedLineSnoop a) s = .next s)
  ∧ ∀ (s : State) (sa : BitVec 7) (ua : BitVec 2), s.hostUp = true →
      ∃ t : State, exec (.aperturePlacement sa ua) s = .next t
        ∧ ∀ p < 2, (t.cfg (pgHlk p) 0x108 0).toNat = 2 ^ 31 + sa.toNat * 2 ^ 8 + ua.toNat

/-! The service chain. -/

namespace Sys2Proof.Cert

/-- A good frame has come to a package whose relay runs. -/
def goodFrame (s : State) (f : List Byte) : Prop := s.chain.relay = true ∧ frameOk f = true

/-- A new request of type `ty`, addressed to the package alone, whose chain unit is not held in reset. -/
def newRequest (s : State) (f : List Byte) (ty : Nat) : Prop :=
  goodFrame s f ∧ pgSvc ∉ s.rst.blocks ∧ fType f = ty ∧ (∃ a, s.ember.caddr = some a ∧ fDst f = a.toNat)
    ∧ ∀ x ∈ s.chain.answered, ¬(x.1.toNat = fSrc f ∧ x.2.1.toNat = fSeq f)

/-- The package has answered the request with a code and a payload, its last frame out, and keeps the answer. -/
def Answers (s t : State) (f : List Byte) (code : BitVec 16) (b : List Byte) : Prop :=
  (∃ (a : BitVec 6) (pre : List Out), s.ember.caddr = some a
      ∧ t.out = s.out ++ pre ++ [.frame (decide (fSrc f = 0xFE)) (chainFrame (fSrc f) a.toNat 0x05 (fSeq f) code.toNat b)])
    ∧ t.answered? f ≠ none

/-- A frame for the package alone. -/
def forOne (s : State) (f : List Byte) : Prop :=
  goodFrame s f ∧ pgSvc ∉ s.rst.blocks ∧ ∃ a : BitVec 6, s.ember.caddr = some a ∧ fDst f = a.toNat

end Sys2Proof.Cert

/-- Frames addressed to 0xFE travel up, every other down, unchanged; one addressed to the package goes no further; a bad frame is
dropped and counted. -/
def Sys2Proof.Cert.FramesAreRelayed : Prop :=
  (∀ (s : State) (f : List Byte), goodFrame s f → fDst f = 0xFE → fType f ≠ 1 → (fType f = 2 → s.isHead = false) →
      ∃ t : State, exec (.frameRelay false f) s = .next t ∧ t.out = s.out ++ [.frame true f])
  ∧ (∀ (s : State) (f : List Byte), goodFrame s f → fDst f ≠ 0xFE → fDst f ≠ 0xFF → fType f ≠ 1 → (fType f = 2 → s.isHead = false) →
      (∀ a, s.ember.caddr = some a → fDst f ≠ a.toNat) → ∃ t : State, exec (.frameRelay true f) s = .next t ∧ t.out = s.out ++ [.frame false f])
  ∧ (∀ (s : State) (f : List Byte) (a : BitVec 6), goodFrame s f → s.ember.caddr = some a → fDst f = a.toNat → ownType (fType f) = false →
      fType f ≠ 1 → fType f ≠ 2 → ∃ t : State, exec (.frameRelay true f) s = .next t ∧ t.out = s.out)
  ∧ ∀ (s : State) (u : Bool) (f : List Byte), s.chain.relay = true → frameOk f = false →
      exec (.frameRelay u f) s = .next ((s.count pgSvc 0 1).count pgSvc 3 1)

/-- ENUM: a package that is not the head takes the address it is given and passes the next one on; 64 leaves it without an address and
goes no further; the head ignores it. ENUM_DONE carries the last package's address + 1 up, and the head records it. A lost up port
keeps the address. -/
def Sys2Proof.Cert.EnumerationAssignsAddresses : Prop :=
  (∀ (s : State) (f : List Byte), goodFrame s f → fType f = 1 → s.isHead = false → fArg f % 256 ≤ 63 →
      ∃ t : State, exec (.enumFrame true f) s = .next t ∧ t.ember.caddr = some (BitVec.ofNat 6 (fArg f % 256))
        ∧ ∃ seq : Nat, t.out = s.out ++ [.frame false (chainFrame (fArg f % 256 + 1) (fArg f % 256) 0x01 seq (fArg f % 256 + 1) [])])
  ∧ (∀ (s : State) (f : List Byte), goodFrame s f → fType f = 1 → s.isHead = false → 63 < fArg f % 256 →
      ∃ t : State, exec (.enumFrame true f) s = .next t ∧ t.ember.caddr = none ∧ t.out = s.out)
  ∧ (∀ (s : State) (f : List Byte), goodFrame s f → fType f = 1 → s.isHead = true →
      ∃ t : State, exec (.enumFrame true f) s = .next t ∧ t.ember = s.ember ∧ t.out = s.out)
  ∧ (∀ (s : State) (a : BitVec 6), s.chain.relay = true → s.ember.caddr = some a → s.chain.cstate = 2 →
      ∃ t : State, exec (.enumDone none) s = .next t ∧ t.chain.cstate = 3 ∧ (s.isHead = true → t.chain.cnt = a.toNat + 1)
        ∧ ∃ seq : Nat, t.out = s.out ++ [.frame true (chainFrame 0xFE a.toNat 0x02 seq (a.toNat + 1) [])])
  ∧ (∀ (s : State) (f : List Byte), goodFrame s f → s.isHead = true → fType f = 2 →
      ∃ t : State, exec (.enumDone (some f)) s = .next t ∧ t.chain.cnt = fArg f % 128 ∧ t.out = s.out ++ [.frame true f])
  ∧ ∀ s : State, s.chain.relay = true → s.chain.upLock = true →
      ∃ t : State, exec .chainUpPortLost s = .next t ∧ t.chain.upLock = false ∧ t.ember = s.ember

/-- The requests that a package answers: a register read or write at privilege S, a PING with PWR_KSTS, as a halted package answers
every read. The answer goes back to the sender under its SEQ, and is kept. -/
def Sys2Proof.Cert.ChainRequestsAreAnswered : Prop :=
  (∀ (s : State) (f : List Byte), newRequest s f 0x0A →
      ∃ t : State, exec (.ping f) s = .next t ∧ Answers s t f 0 (leBytes 4 (s.viewPwr 0x100)))
  ∧ (∀ (s : State) (f : List Byte) (pg off : Nat) (i : PageInfo), newRequest s f 3 → s.kind.halt = false → bits (fArg f) 63 62 = 0 →
      (s.frameIn true f).reach .s (fArg f % 2 ^ 48) 4 false 0 = .ok (pg, i, off) → ∃ t : State, exec (.regRd f) s = .next t
        ∧ Answers s t f 0 (leBytes 4 ((s.frameIn true f).readWord i pg off).2))
  ∧ (∀ (s : State) (f : List Byte) (pg off : Nat) (i : PageInfo) (x : Nat × Bool), newRequest s f 3 → s.kind.halt = false →
      bits (fArg f) 63 62 = 1 → (s.frameIn true f).reach .s (fArg f % 2 ^ 48) 8 false 0 = .ok (pg, i, off) → cntAt i off = some x →
      ∃ t : State, exec (.regRd f) s = .next t ∧ Answers s t f 0 (leBytes 8 (((s.frameIn true f).page pg).cntVal x)))
  ∧ (∀ (s u : State) (f : List Byte) (n : Nat), newRequest s f 3 → s.kind.halt = false → regSize f = some n →
      (s.frameIn true f).reach .s (fArg f % 2 ^ 48) n false 0 = .error u → ∃ t : State, exec (.regRd f) s = .next t
        ∧ Answers s t f eBusErr [])
  ∧ (∀ (s : State) (f : List Byte), newRequest s f 3 → s.kind.halt = true → ∃ t : State, exec (.regRd f) s = .next t
        ∧ Answers s t f 0 (leBytes 4 (s.viewPwr 0x100)))
  ∧ (∀ (s : State) (f : List Byte) (pg off : Nat) (i : PageInfo) (d : RegDef), newRequest s f 4 → bits (fArg f) 63 62 = 0 → fLen f = 4 →
      (s.frameIn true f).reach .s (fArg f % 2 ^ 48) 4 true (leVal (fPayload f)) = .ok (pg, i, off) → 0x100 ≤ off → off < 0xC00 →
      s.regDef i off = some d → i.blk = 0x04 ∨ i.blk = 0x06 ∨ i.blk = 0x0C → d.rw ≠ 0 → d.rwx = 0 →
      ∃ t : State, exec (.regWr f) s = .next t ∧ Answers s t f 0 []
        ∧ SMap.get (t.page pg).cfg (BitVec.ofNat 32 d.reset) off
            = BitVec.ofNat 32 (maskIn d.rw (s.stored pg off d) (leVal (fPayload f) % 2 ^ 32)))
  ∧ (∀ (s u : State) (f : List Byte) (n : Nat), newRequest s f 4 → regSize f = some n → fLen f = n →
      (s.frameIn true f).reach .s (fArg f % 2 ^ 48) n true (leVal (fPayload f)) = .error u → ∃ t : State, exec (.regWr f) s = .next t
        ∧ Answers s t f eBusErr [])
  ∧ (∀ (s u : State) (f : List Byte) (n : Nat) (ok : Bool), newRequest s f 4 → regSize f = some n → fLen f = n →
      (s.frameIn true f).writeReg .s (fArg f % 2 ^ 48) n (leVal (fPayload f)) = (u, ok) →
      exec (.regWr f) s = .next (u.answer f (if ok then 0 else eBusErr) []))
  ∧ ∀ (s : State) (f : List Byte) (code : BitVec 16) (b : List Byte) (a : BitVec 6), s.chain.relay = true → s.ember.caddr = some a →
      (s.answer f code b).out = s.out ++ [.frame (decide (fSrc f = 0xFE)) (chainFrame (fSrc f) a.toNat 0x05 (fSeq f) code.toNat b)]
        ∧ (s.answer f code b).answered? f ≠ none

/-- A repeated request gets the stored response and is not performed again: nothing but what the arrival and the sending of a frame
change has changed. -/
def Sys2Proof.Cert.RepeatedRequestsActOnce : Prop :=
  ∀ (s : State) (f r : List Byte), forOne s f → s.answered? f = some r →
    (fType f = 4 → exec (.regWr f) s = .next (((s.frameIn true f).sendFrame (decide (fSrc f = 0xFE)) r).count pgSvc 4 1))
    ∧ (fType f = 3 → exec (.regRd f) s = .next (((s.frameIn true f).sendFrame (decide (fSrc f = 0xFE)) r).count pgSvc 4 1))
    ∧ (fType f = 8 → fArg f % 256 = 1 →
        exec (.fwctlBegin f) s = .next (((s.frameIn true f).sendFrame (decide (fSrc f = 0xFE)) r).count pgSvc 4 1))
    ∧ ((s.frameIn true f).sendFrame (decide (fSrc f = 0xFE)) r).out = s.out ++ [.frame (decide (fSrc f = 0xFE)) r]

/-- A RESET frame asserts cause 4 with the reach it names; a broadcast one is forwarded first. An IMG frame's data go to staging or to
the waiting boot unit, and get no answer. -/
def Sys2Proof.Cert.ResetAndImageFramesAct : Prop :=
  (∀ (s : State) (f : List Byte), forOne s f → fType f = 6 → s.supply.vstbyGood = true →
      ∃ t : State, exec (.chainReset f) s = .next t ∧ Asserts s { cause := 4, reach := fArg f % 2, dies := [], pg := 0 } t ∧ t.out = s.out)
  ∧ (∀ (s : State) (f : List Byte), goodFrame s f → pgSvc ∉ s.rst.blocks → fDst f = 0xFF → fType f = 6 → s.supply.vstbyGood = true →
      ∃ t : State, exec (.chainReset f) s = .next t ∧ Asserts s { cause := 4, reach := fArg f % 2, dies := [], pg := 0 } t
        ∧ t.out = s.out ++ [.frame false f])
  ∧ (∀ (s : State) (f : List Byte), forOne s f → fType f = 7 →
      exec (.imgFrame f) s = .next ((s.frameIn true f).takeImg (bit (fArg f) 63) (fArg f % 2 ^ 32) (fPayload f)))
  ∧ (∀ (s : State) (f : List Byte), goodFrame s f → pgSvc ∉ s.rst.blocks → fDst f = 0xFF → fType f = 7 →
      exec (.imgFrame f) s
        = .next (((s.frameIn true f).relayOn false f).takeImg (bit (fArg f) 63) (fArg f % 2 ^ 32) (fPayload f)))
  ∧ (∀ (s : State) (f : List Byte) (off i : Nat), forOne s f → fType f = 7 → bit (fArg f) 63 = false → off = fArg f % 2 ^ 32 →
      off % 1024 = 0 → fPayload f ≠ [] → i = off / 65536 → s.kind.phase ≠ 5 → s.chainStaging = true → i < s.fw.nblk →
      s.fw.have i = false → (i, off) ∉ s.fw.got → (∃ x ∈ s.fw.got, x.1 = i) ∨ s.fw.buffered < 64 →
      (s.fw.got.filter fun x => x.1 = i).length < 63 →
      ∃ t : State, exec (.imgFrame f) s = .next t ∧ t.fw.got = s.fw.got ++ [(i, off)]
        ∧ t.fw.part = SMap.putBytes s.fw.part off (fPayload f) ∧ t.out = s.out)
  ∧ (∀ (s : State) (f : List Byte) (off : Nat), forOne s f → fType f = 7 → bit (fArg f) 63 = true → off = fArg f % 2 ^ 32 →
      off % 1024 = 0 → fPayload f ≠ [] → s.inPhase 5 = true → 2 ≤ s.strapBoot → s.fw.bootEnd = false →
      off / 1024 < 4096 * 64 → off / 1024 ∉ s.fw.bootGot →
      ∃ t : State, exec (.imgFrame f) s = .next t ∧ t.fw.bootGot = s.fw.bootGot ++ [off / 1024]
        ∧ t.fw.boot = SMap.putBytes s.fw.boot off (fPayload f) ∧ t.out = s.out)
  ∧ ∀ (s : State) (boot : Bool) (off : Nat) (b : List Byte), (s.takeImg boot off b).chain = s.chain

namespace Sys2Proof.Cert

/-- A FWCTL frame of operation `op`, new, to a package whose firmware runs. -/
def Fwctl (s : State) (f : List Byte) (op : Nat) : Prop :=
  newRequest s f 8 ∧ fArg f % 256 = op ∧ s.kind.halt = false ∧ 6 ≤ s.pkgPhase

/-- The records that SETWR of `r` leaves, and the slot it writes with its generation (R459). -/
def setTarget (s : State) (r : SetRec) : Nat × Nat × List SetRec :=
  let merge := fun l : List SetRec => (r :: l.filter fun x => decide (x.id ≠ r.id)).mergeSort fun a b => decide (a.id ≤ b.id)
  match s.slotInForce with
  | some i => (1 - i, (s.slotSgen i + 1) % 2 ^ 32, merge (s.slotRecs i))
  | none => (0, 1, merge [])

end Sys2Proof.Cert

/-- FWCTL: STATUS is answered with FW_STS and FW_STG; each other operation is performed by the running firmware and answered with 0,
or refused with BUS_ERR. BEGIN opens a staging of the bank that is not committed, ABORT ends it, ACTIVATE starts the staged image at
once or arms its entry, COMMIT ends the trial, SETWR writes the record and names its slot. -/
def Sys2Proof.Cert.FirmwareControlActs : Prop :=
  (∀ (s : State) (f : List Byte), newRequest s f 8 → fArg f % 256 = 2 →
      ∃ t : State, exec (.fwctlStatus f) s = .next t ∧ Answers s t f 0 (leBytes 4 s.fwSts ++ leBytes 4 s.fwStg))
  ∧ (∀ (s : State) (f : List Byte) (n : Nat), Fwctl s f 1 → n = bits (fArg f) 23 8 → ∃ t : State, exec (.fwctlBegin f) s = .next t
      ∧ (s.staging = false → s.fw.trial = false → s.hostStaging = false → 1 ≤ n → n ≤ 4096 →
          Answers s t f 0 [] ∧ t.fw.sstate = 1 ∧ t.fw.target = !s.cbank ∧ t.fw.nblk = n ∧ t.fw.present = [])
      ∧ (s.staging = true ∨ s.fw.trial = true ∨ s.hostStaging = true ∨ n = 0 ∨ 4096 < n → Answers s t f eBusErr [] ∧ t.fw = s.fw))
  ∧ (∀ (s : State) (f : List Byte), Fwctl s f 3 → fld (fPayload f) 16 1 % 2 = 1 → ∃ t : State, exec (.fwctlActivate f) s = .next t
      ∧ (s.fw.staged.toNat = fld (fPayload f) 8 8 → s.liveCtxs = [] → s.fw.sstate = 3 → s.fw.activating = none → s.actArmed = false →
          s.bankOk s.fw.target = true →
          Answers s t f 0 [] ∧ t.fw.trial = true ∧ t.fw.activating = some { hold := none, fired := none })
      ∧ (s.fw.staged.toNat ≠ fld (fPayload f) 8 8 ∨ s.liveCtxs ≠ [] ∨ s.fw.sstate ≠ 3 → Answers s t f eBusErr [] ∧ t.fw = s.fw))
  ∧ (∀ (s : State) (f : List Byte) (b : Beat) (idx : Nat), Fwctl s f 3 → fld (fPayload f) 16 1 % 2 = 0 →
      b = Beat.ofNat (fld (fPayload f) 0 8) → s.freeSched s.tslot = some idx → ∃ t : State, exec (.fwctlActivate f) s = .next t
      ∧ (fld (fPayload f) 7 1 = 0 → targetOk (s.slotBeat s.tslot) b = true →
          s.actOk b (b2n s.fw.target) (fld (fPayload f) 8 8) = true →
          Answers s t f 0 [] ∧ t.fw.arm = true ∧ ∃ e, t.schedAt s.tslot idx = some e ∧ e.target = b ∧ e.kind = 4 ∧ e.tag = 0)
      ∧ (fld (fPayload f) 7 1 ≠ 0 ∨ targetOk (s.slotBeat s.tslot) b = false
            ∨ s.actOk b (b2n s.fw.target) (fld (fPayload f) 8 8) = false →
          Answers s t f eBusErr [] ∧ t.fw = s.fw ∧ t.sched = s.sched))
  ∧ (∀ (s : State) (f : List Byte), Fwctl s f 4 → ∃ t : State, exec (.fwctlAbort f) s = .next t
      ∧ (s.staging = true → Answers s t f 0 [] ∧ t.fw.sstate = 0 ∧ t.fw.nblk = 0)
      ∧ (s.staging = false → Answers s t f eBusErr [] ∧ t.fw = s.fw))
  ∧ (∀ (s : State) (f : List Byte), Fwctl s f 5 → ∃ t : State, exec (.fwctlCommit f) s = .next t
      ∧ (s.fw.trial = true → s.fw.activating = none → Answers s t f 0 [] ∧ t.fw.trial = false
          ∧ t.fuses.arb = max s.fuses.arb (imgArb (s.bankRd (decide (s.bootBase.tbank = 1)) 0 256)))
      ∧ (s.fw.trial = false → Answers s t f eBusErr [] ∧ t.fw = s.fw ∧ t.fuses = s.fuses))
  ∧ (∀ (s : State) (f : List Byte), Fwctl s f 6 → ∃ t : State, exec (.fwctlSetwr f) s = .next t
      ∧ (∀ r, s.fw.trial = false → setRecOf (fPayload f) = some r → Answers s t f 0 []
          ∧ t.fw.csgen = BitVec.ofNat 32 (setTarget s r).2.1 ∧ t.slotSgen (setTarget s r).1 = (setTarget s r).2.1
          ∧ t.flashBytes (slotBase (setTarget s r).1 + 64) ((setTarget s r).2.2.flatMap SetRec.bytes).length
              = (setTarget s r).2.2.flatMap SetRec.bytes)
      ∧ (s.fw.trial = true ∨ setRecOf (fPayload f) = none → Answers s t f eBusErr [] ∧ t.fw = s.fw ∧ t.flash = s.flash))
  ∧ ∀ (s : State) (i j : Nat) (r : List Nat), s.staging = true → s.fw.programming = i :: r → j < s.fw.nblk → j ≠ i → j ∉ s.fw.present →
      ∃ t : State, exec .flashProgramDone s = .next t ∧ t.fw.programming = r ∧ t.fw.present = s.fw.present ++ [i]
        ∧ t.fw.sstate = s.fw.sstate

/-! SMBus and JTAG. -/

namespace Sys2Proof.Cert

/-- SMBus is answered: VSTBY is good and SMBEN is set. -/
def smbOn (s : State) : Prop := s.supply.vstbyGood = true ∧ (s.cfg pgSvc 0x104 3).getLsbD 1 = true

end Sys2Proof.Cert

/-- Every SMBus read answers its register while the package is supplied, past K1 and not halted; the commands of the ember domain answer
without VIN56 too, the others then with all ones; a halted package answers with PWR_KSTS. A Read Word or Block Read brings its PEC, the Read Byte of the chain address none. -/
def Sys2Proof.Cert.SmbusReadsAnswer : Prop :=
  (∀ s : State, smbOn s → s.supply.vinGood = true → 2 ≤ s.kind.phase → s.kind.halt = false →
    ∀ p ∈ [(Instr.smbReadVin, 0x01, leBytes 2 s.supply.vin.toNat), (.smbReadVstby, 0x02, leBytes 2 s.supply.vstby.toNat),
           (.smbReadTj, 0x03, leBytes 2 (s.viewPwr 0x108)), (.smbReadDraw, 0x04, leBytes 4 (s.viewDrt 0x118)),
           (.smbReadBudget, 0x05, leBytes 4 (s.viewDrt 0x100)), (.smbReadKsts, 0x06, leBytes 4 (s.viewPwr 0x100))],
      ∃ t : State, exec p.1 s = .next t ∧ t.out = s.out ++ [.smbus p.2.2 (some (smbPec p.2.1 p.2.2))])
  ∧ (∀ s : State, smbOn s → s.supply.vinGood = false ∨ s.kind.phase < 2 →
    ∀ p ∈ [(Instr.smbReadVin, 0x01, 2), (.smbReadVstby, 0x02, 2), (.smbReadTj, 0x03, 2), (.smbReadDraw, 0x04, 4),
           (.smbReadBudget, 0x05, 4), (.smbReadKsts, 0x06, 4)],
      ∃ (t : State) (d : List Byte), exec p.1 s = .next t ∧ d = List.replicate p.2.2 0xFF ∧ t.out = s.out ++ [.smbus d (some (smbPec p.2.1 d))])
  ∧ (∀ s : State, smbOn s → s.supply.vinGood = true → 2 ≤ s.kind.phase → s.kind.halt = true →
    ∀ p ∈ [(Instr.smbReadVin, 0x01, 2), (.smbReadVstby, 0x02, 2), (.smbReadTj, 0x03, 2), (.smbReadDraw, 0x04, 4),
           (.smbReadBudget, 0x05, 4), (.smbReadKsts, 0x06, 4)],
      ∃ (t : State) (d : List Byte), exec p.1 s = .next t ∧ d = leBytes p.2.2 (s.viewPwr 0x100)
        ∧ t.out = s.out ++ [.smbus d (some (smbPec p.2.1 d))])
  ∧ (∀ s : State, smbOn s →
    (∀ p ∈ [(Instr.smbReadCause, 0x07, leBytes 4 (s.viewRst 0x100)), (.smbReadRtotal, 0x08, leBytes 4 s.ember.rtotal),
           (.smbReadStrap, 0x09, leBytes 2 (s.viewRst 0x180)),
           (.smbReadIdcode, 0x20, leBytes 4 (if s.small then 0x19148B47 else 0x19172B47))],
      ∃ t : State, exec p.1 s = .next t ∧ t.out = s.out ++ [.smbus p.2.2 (some (smbPec p.2.1 p.2.2))])
    ∧ ∃ t : State, exec .smbReadCaddr s = .next t ∧ t.out = s.out ++ [.smbus (leBytes 1 (s.viewRst 0x184)) none])
  ∧ ∀ (s : State) (c : Nat), smbOn s → c < 12 →
      ∃ (t : State) (d : List Byte), exec (.smbReadRcnt c) s = .next t ∧ d = leBytes 2 (SMap.get s.ember.rcnt 0 c)
        ∧ t.out = s.out ++ [.smbus d (some (smbPec (0x10 + c) d))]

/-- Every SMBus write command is answered with NACK, whatever its code, and changes neither the ember domain nor a supply's reading. -/
def Sys2Proof.Cert.SmbusWritesAreRefused : Prop :=
  ∀ (s : State) (c : Byte), smbOn s →
    ∃ t : State, exec (.smbWrite c) s = .next t ∧ t.out = s.out ++ [.smbusNack] ∧ t.ember = s.ember ∧ t.supply = s.supply

/-- JTAG: EXTEST, SAMPLE/PRELOAD, IDCODE and BYPASS load the instruction register; IDCODE reads the part's code. -/
def Sys2Proof.Cert.JtagInstructionsLoad : Prop :=
  ∀ s : State, s.active (uncoreDom 98) = true →
    exec .extest s = .next { s with jtag := { s.jtag with ir := 0x00 } }
    ∧ (∃ t : State, exec .samplePreload s = .next t ∧ t.jtag.ir = 0x01 ∧ t.jtag.dr = s.jtag.dr)
    ∧ exec .idcode s = .next ({ s with jtag := { s.jtag with ir := 0x02 } }.addOut
        (.read (if s.small then 0x19148B47 else 0x19172B47)))
    ∧ ∀ c : Byte, c ≠ 0x00 → c ≠ 0x01 → c ≠ 0x02 → c ≠ 0x20 → exec (.bypass c) s = .next { s with jtag := { s.jtag with ir := c } }

/-- REGACC: with JREG = 1 an update performs one 4-byte access at privilege S and the next capture loads DONE, ERR and the read data; an
access that is refused captures ERR = 1; with JREG = 0 it captures DONE = 1 and ERR = 1 and performs no access. -/
def Sys2Proof.Cert.RegaccAccessesRegisters : Prop :=
  (∀ (s : State) (dr : BitVec 83), s.active (uncoreDom 98) = true → (s.cfg pgSvc 0x104 3).getLsbD 0 = false →
      ∃ t : State, exec (.regaccUpdate dr) s = .next { s with jtag := t.jtag }
        ∧ ∃ u : State, exec .regaccCapture t = .next u ∧ u.jtag.dr.getLsbD 82 = true ∧ u.jtag.dr.getLsbD 81 = true)
  ∧ (∀ (s s1 : State) (dr : BitVec 83) (pg off : Nat) (i : PageInfo), s.active (uncoreDom 98) = true →
      (s.cfg pgSvc 0x104 3).getLsbD 0 = true → dr.getLsbD 80 = false → s1 = { s with jtag := { s.jtag with ir := 0x20, dr := dr } } →
      s1.reach .s (dr.toNat % 2 ^ 48) 4 false 0 = .ok (pg, i, off) →
      ∃ t : State, exec (.regaccUpdate dr) s = .next t
        ∧ ∃ v : State, exec .regaccCapture t = .next v ∧ v.jtag.dr.getLsbD 82 = false ∧ v.jtag.dr.getLsbD 81 = true
          ∧ bits v.jtag.dr.toNat 79 48 = (s1.readWord i pg off).2 % 2 ^ 32 ∧ v.jtag.dr.toNat % 2 ^ 48 = dr.toNat % 2 ^ 48)
  ∧ (∀ (s s1 u : State) (dr : BitVec 83), s.active (uncoreDom 98) = true → (s.cfg pgSvc 0x104 3).getLsbD 0 = true →
      s1 = { s with jtag := { s.jtag with ir := 0x20, dr := dr } } →
      s1.reach .s (dr.toNat % 2 ^ 48) 4 (dr.getLsbD 80) (if dr.getLsbD 80 then bits dr.toNat 79 48 else 0) = .error u →
      ∃ t : State, exec (.regaccUpdate dr) s = .next t
        ∧ ∃ v : State, exec .regaccCapture t = .next v ∧ v.jtag.dr.getLsbD 82 = true ∧ v.jtag.dr.getLsbD 81 = true)
  ∧ ∀ (s u : State) (dr : BitVec 83) (ok : Bool), s.active (uncoreDom 98) = true → (s.cfg pgSvc 0x104 3).getLsbD 0 = true →
      dr.getLsbD 80 = true →
      { s with jtag := { s.jtag with ir := 0x20, dr := dr } }.writeReg .s (dr.toNat % 2 ^ 48) 4 (bits dr.toNat 79 48) = (u, ok) →
      ∃ t : State, exec (.regaccUpdate dr) s = .next t ∧ t.ember = u.ember ∧ t.drt = u.drt
        ∧ t.jtag.res = some (!ok, none)

/-- The package before any supply: no supply good, no kindling phase run, no cause recorded, no queue enabled, no context live, every
sync object at 0, the service die's instruction register on IDCODE. What reset gives beyond the manual's words is log 3, 5 and 31. -/
def Sys2Proof.Cert.ResetIsUnpowered : Prop :=
  State.reset.supply.vinGood = false ∧ State.reset.supply.vstbyGood = false ∧ State.reset.kind.phase = 0 ∧ State.reset.kind.halt = false
  ∧ State.reset.ember.rtotal = 0 ∧ State.reset.rst.latch = none ∧ State.reset.pending = [] ∧ State.reset.liveCtxs = []
  ∧ (∀ q, (State.reset.queue q).live = false) ∧ (∀ k, State.reset.core k = Core.reset) ∧ (∀ u, (State.reset.engine u).win = [])
  ∧ State.reset.psync = [] ∧ State.reset.lsync = [] ∧ State.reset.jtag.ir = 0x02 ∧ State.reset.pins.straps = 0x1E0
  ∧ (∀ pg i, (State.reset.page pg).cntVal i = 0) ∧ (∀ p, (State.reset.port p).tstate = 0) ∧ State.reset.chain.relay = false

/-! The statements about one part of the block, taken together. -/

/-- The host's control line and the fail of a ring access. -/
def Obligations.HostLinesAreTaken : Prop :=
  ControlLineWriteFreesRecords ∧ RingAccessFailStopsQueue

/-- Records and completion lines: what they hold, and that they stay in their places. -/
def Obligations.CompletionsAndRecordsAreWritten : Prop :=
  RecordsStayInTheirRings ∧ CompletionWritesItsLine

/-- The commands that create and end queues and contexts. -/
def Obligations.QueuesAndContextsComeAndGo : Prop :=
  QueueCommandsComplete ∧ ContextCommandsComplete ∧ ContextsBecomeLiveAndEnd

/-- The immediate commands on sync objects and beat schedules. -/
def Obligations.SyncAndSchedCommandsComplete : Prop :=
  SyncSigSignalsObject ∧ SchedCommandsComplete

/-- The page-service command. -/
def Obligations.PageRequestCommandsAct : Prop :=
  PageRequestsComplete ∧ PageRequestsAskForTheirSlotState

/-- The billeted commands: whose turn it is, one billet, what the last one leaves. -/
def Obligations.BilletedCommandsAct : Prop :=
  BilletedCommandsRun ∧ CtxSaveWritesItsImage ∧ CtxRestoreBringsUpItsContext ∧ CkptCopyCopiesItsRange ∧ ScrubCorrectsItsStacks ∧ PoolWorkGoesSlotBySlot ∧ FwStageRunsItsStaging ∧ BilletEndRunsOneBillet

/-- The dispatch words that change the core alone, and SIGNAL. -/
def Obligations.CoreWordsMoveOn : Prop :=
  NopJumpSetbaseMoveOn ∧ SignalWordSignals ∧ DrainCompleteProceeds

/-- WAIT and the condition it waits for. -/
def Obligations.WaitsAreMetSerially : Prop :=
  WaitConditionIsSerial ∧ WaitStallsUntilMet

/-- ISSUE, and the admission of its descriptor. -/
def Obligations.IssueReachesItsWindow : Prop :=
  IssueBecomesPending ∧ IssueAdmitCopiesDescriptor

/-- The array engines: start, passes, tiles, the class of the store. -/
def Obligations.ArrayProductsRun : Prop :=
  ArrayProductsStart ∧ GroupPassesCount ∧ ArrayTilesLeave ∧ StoreTakesClass

/-- Rows and conversions. -/
def Obligations.RowsAndConversionsRun : Prop :=
  ConversionDescriptorsRun ∧ ConversionsEndDone ∧ RowDescriptorsRun ∧ RowDescriptorsEndDone

/-- Random words and the random engines. -/
def Obligations.RandomWordsAreServed : Prop :=
  RandomCommandsRun ∧ RandomDescriptorsEndDone ∧ IndexedWordsDrawNothing

/-- The update engine, the copies and the page service of the engines. -/
def Obligations.UpdatesCopiesAndPagesRun : Prop :=
  UpdateAndCopyDescriptorsRun ∧ UpdatesAndCopiesEndDone ∧ KeyValueDescriptorsEndDone ∧ PageServiceCommandsRun ∧ PageServiceGivesPages

/-- The accumulator operations and the cross-package sum. -/
def Obligations.ReductionsRun : Prop :=
  AccumulatorDescriptorsRun ∧ AccumulatorDescriptorsEndDone ∧ ReductionLevelsEnd ∧ PackageSumCommandsRun ∧ PackageSumStagesEnd

/-- How a descriptor ends: at once where it may not run, or with its status and its signal. -/
def Obligations.DescriptorsEndOnce : Prop :=
  BadDescriptorsFail ∧ DescriptorCompleteEnds

/-- The beat of a slot moves through the phases of its step, back at a replay, on at its commit; how an attempt ends. -/
def Obligations.BeatMovesThroughItsStep : Prop :=
  PhaseDoneMovesBeat ∧ AttemptEndsByPolicy ∧ ReplayReturnsBeat ∧ CommitAdvancesBeat

/-- Reports, markers and frames of the beat. -/
def Obligations.BeatsAreAnnounced : Prop :=
  ReportMarkersAreKept ∧ MarkersAnnounceBeats ∧ BeatCommandsComplete

/-- Chunks and credits. -/
def Obligations.CreditsAreGrantedAndMove : Prop :=
  ChunkRequestsAreGranted ∧ CreditsMoveThroughTiers

/-- Sensor, timers and registers of the draught. -/
def Obligations.DraughtTimersAndRegistersAct : Prop :=
  SensorsAndTimersAct ∧ DraughtRegistersTakeEffect

/-- The common registers of a page and its lock. -/
def Obligations.CommonRegisterCommandsAct : Prop :=
  LockOpensWithTwoKeys ∧ CommonRegistersAct

/-- Snapshots, and the latch of a high word. -/
def Obligations.SnapshotsAndLatchesHold : Prop :=
  SnapshotCapturesPages ∧ LowReadsLatchHighWords

/-- Background checks of lines and words. -/
def Obligations.ScrubAndParityFindErrors : Prop :=
  ScrubberVisitsLine ∧ ParityScanFindsMismatch

/-- Register writes, checked and performed. -/
def Obligations.RegisterWritesAct : Prop :=
  RegisterWritesAreChecked ∧ AdminQueueRegisterActs ∧ SlotAndDomainRegistersAct ∧ ResetRegistersAct ∧ PortRegistersAct ∧ FirmwareRegistersAct

/-- Supplies and power domains. -/
def Obligations.SuppliesAndDomainsFollow : Prop :=
  SuppliesAreJudged ∧ TransitionsComplete

/-- Kindling: its phases and its halts. -/
def Obligations.KindlingRunsOrHalts : Prop :=
  KindlingAdvances ∧ KindlingHalts

/-- Each assertion of a source is counted, saturating, within any episode; each recovery records reach and causes in RST_CAUSE. -/
def Obligations.ResetCausesAreRecorded : Prop :=
  AssertionsAreLatchedAndCounted ∧ LastReleaseEndsTheEpisode

/-- Reset sources, and clocks that lose qualification. -/
def Obligations.ResetSourcesAndClocksAct : Prop :=
  ResetSourcesAssert ∧ ClocksLoseAndRegainQualification

/-- Flits received, acknowledged and sent again. -/
def Obligations.FlitsArriveOnceInOrder : Prop :=
  FlitsAreDeliveredInSequence ∧ NakSendsAgainOrRetrains

/-- Training of the ports; watched lines and apertures. -/
def Obligations.PortsTrainAndServe : Prop :=
  PortsTrain ∧ AlignDecidesWidth ∧ HostLinkCommandsAct

/-- The service chain: relay and enumeration. -/
def Obligations.ChainRelaysAndEnumerates : Prop :=
  FramesAreRelayed ∧ EnumerationAssignsAddresses

/-- The service chain: requests, answered once. -/
def Obligations.ChainAnswersOnce : Prop :=
  ChainRequestsAreAnswered ∧ RepeatedRequestsActOnce

/-- The service chain: resets, image data, firmware control. -/
def Obligations.ChainControlsResetAndFirmware : Prop :=
  ResetAndImageFramesAct ∧ FirmwareControlActs

/-- SMBus and JTAG. -/
def Obligations.ServicePortsAnswer : Prop :=
  SmbusReadsAnswer ∧ SmbusWritesAreRefused ∧ JtagInstructionsLoad ∧ RegaccAccessesRegisters

/-- The state after reset: unpowered, its memory in canonical form. -/
def Obligations.ResetLeavesNothingRunning : Prop :=
  ResetIsUnpowered ∧ ResetMeetsMemoryForm
end

