-- ==== Sys2Proof/Laws/Maps.lean ====
section
/-! SUPPORT. Laws of the sparse maps: a read after a write, the canonical form kept by every map operation, equal reads of two
canonical maps make them equal data. -/

set_option Elab.async false

namespace Sys2Proof

variable {α : Type}

/-- `sorted` says that the keys rise strictly, pair by pair. -/
theorem SMap.sorted_iff (m : SMap α) : SMap.sorted m = true ↔ m.Pairwise (fun a b => a.1 < b.1) := by
  rw [← List.isChain_iff_pairwise]
  induction m with
  | nil => simp [SMap.sorted]
  | cons p r ih => cases r <;> simp [SMap.sorted, ih]

/-- The canonical form, in words of lists. -/
theorem SMap.wf_iff [DecidableEq α] (m : SMap α) (d : Nat → α) :
    SMap.wf m d = true ↔ m.Pairwise (fun a b => a.1 < b.1) ∧ ∀ p ∈ m, p.2 ≠ d p.1 := by
  simp [SMap.wf, SMap.sorted_iff, List.all_eq_true]

@[simp] theorem SMap.get_nil (d : α) (k : Nat) : SMap.get ([] : SMap α) d k = d := rfl

/-- A read after an insert. -/
theorem SMap.get_insert (m : SMap α) (d : α) (k : Nat) (v : α) (j : Nat) :
    SMap.get (SMap.insert m k v) d j = if j = k then v else SMap.get m d j := by
  induction m with
  | nil =>
    by_cases h : j = k
    · subst h; simp [SMap.insert, SMap.get]
    · simp [SMap.insert, SMap.get, h, Ne.symm h]
  | cons p r ih =>
    unfold SMap.insert
    by_cases h1 : k < p.1
    · by_cases h : j = k
      · subst h; simp [h1, SMap.get]
      · simp [h1, SMap.get, h, Ne.symm h]
    · by_cases h2 : p.1 = k
      · by_cases h : j = k
        · subst h; simp [h2, SMap.get]
        · have h3 : p.1 ≠ j := fun e => h (e.symm.trans h2)
          simp [h2, SMap.get, h, Ne.symm h]
      · simp only [h1, h2, if_false, SMap.get, ih]
        by_cases h : j = k
        · subst h; simp [h2]
        · simp [h]

/-- A read at another key after an erase. -/
theorem SMap.get_erase_ne (m : SMap α) (d : α) (k j : Nat) (h : j ≠ k) : SMap.get (SMap.erase m k) d j = SMap.get m d j := by
  induction m with
  | nil => rfl
  | cons p r ih =>
    unfold SMap.erase at ih ⊢
    by_cases h2 : p.1 = k
    · have h3 : ¬ k = j := fun e => h e.symm
      simp [h2, SMap.get, h3, ← ih]
    · simp [h2, SMap.get, ← ih]

/-- No entry of a key below every listed one. -/
theorem SMap.get_of_lt (m : SMap α) (d : α) (k : Nat) (h : ∀ p ∈ m, k < p.1) : SMap.get m d k = d := by
  induction m with
  | nil => rfl
  | cons p r ih =>
    have h1 := h p (by simp)
    have h2 : p.1 ≠ k := by omega
    simp only [SMap.get, h2, if_false]
    exact ih fun q hq => h q (by simp [hq])

/-- An erased key reads as the default. -/
@[simp] theorem SMap.get_erase_self (m : SMap α) (d : α) (k : Nat) : SMap.get (SMap.erase m k) d k = d := by
  induction m with
  | nil => rfl
  | cons p r ih =>
    unfold SMap.erase at ih ⊢
    by_cases h2 : p.1 = k
    · simp only [List.filter_cons, h2, ne_eq, not_true_eq_false, decide_false, Bool.false_eq_true, if_false]; exact ih
    · simp only [List.filter_cons, h2, ne_eq, not_false_eq_true, decide_true, if_true, SMap.get, if_false]; exact ih

/-- A read at another key after a write. -/
theorem SMap.get_put_ne [DecidableEq α] (m : SMap α) (d e : α) (k : Nat) (v : α) (j : Nat) (h : j ≠ k) :
    SMap.get (SMap.put m d k v) e j = SMap.get m e j := by
  unfold SMap.put
  split
  · exact SMap.get_erase_ne m e k j h
  · rw [SMap.get_insert]; simp [h]

/-- A read after a write of the same key gives the value written. -/
@[simp] theorem SMap.get_put_self [DecidableEq α] (m : SMap α) (d : α) (k : Nat) (v : α) : SMap.get (SMap.put m d k v) d k = v := by
  unfold SMap.put
  split
  · next e => rw [SMap.get_erase_self m d k, e]
  · rw [SMap.get_insert]; simp

/-- What an insert lists: the new pair, or what was listed. -/
theorem SMap.mem_insert (m : SMap α) (k : Nat) (v : α) (p : Nat × α) (h : p ∈ SMap.insert m k v) : p = (k, v) ∨ p ∈ m := by
  have key : SMap.insert m k v ⊆ (k, v) :: m := by
    clear h
    induction m with
    | nil => exact List.Subset.refl _
    | cons q r ih =>
      have swap : q :: SMap.insert r k v ⊆ (k, v) :: q :: r := fun x hx => by
        simp only [List.mem_cons] at hx ⊢
        exact hx.elim (fun e => .inr (.inl e)) fun hr => (List.mem_cons.1 (ih hr)).imp_right .inr
      unfold SMap.insert
      split_ifs
      · exact List.Subset.refl _
      · exact List.cons_subset_cons _ (List.subset_cons_self ..)
      · exact swap
  exact List.mem_cons.1 (key h)

theorem SMap.mem_erase (m : SMap α) (k : Nat) (p : Nat × α) (h : p ∈ SMap.erase m k) : p ∈ m := List.mem_of_mem_filter h

/-- A key below the first one is below every key. -/
theorem SMap.below_cons {q : Nat × α} {r : SMap α} {k : Nat} (hr : ∀ p ∈ r, q.1 < p.1) (h : k < q.1) : ∀ p ∈ q :: r, k < p.1 :=
  List.forall_mem_cons.2 ⟨h, fun p hp => h.trans (hr p hp)⟩

/-- An insert keeps the keys rising. -/
theorem SMap.sorted_insert (m : SMap α) (k : Nat) (v : α) (h : m.Pairwise (fun a b => a.1 < b.1)) :
    (SMap.insert m k v).Pairwise (fun a b => a.1 < b.1) := by
  induction m with
  | nil => simp [SMap.insert]
  | cons q r ih =>
    rw [List.pairwise_cons] at h
    unfold SMap.insert
    split
    · next h1 =>
      rw [List.pairwise_cons]
      exact ⟨SMap.below_cons h.1 h1, List.pairwise_cons.mpr h⟩
    · split
      · next h2 => exact List.pairwise_cons.mpr ⟨fun a ha => h2 ▸ h.1 a ha, h.2⟩
      · next h1 h2 =>
        refine List.pairwise_cons.mpr ⟨fun a ha => ?_, ih h.2⟩
        rcases SMap.mem_insert r k v a ha with e | ha
        · subst e; show q.1 < k; omega
        · exact h.1 a ha

/-- An erase keeps the keys rising. -/
theorem SMap.sorted_erase (m : SMap α) (k : Nat) (h : m.Pairwise (fun a b => a.1 < b.1)) :
    (SMap.erase m k).Pairwise (fun a b => a.1 < b.1) := h.filter _

/-- A write keeps the canonical form. -/
theorem SMap.wf_put [DecidableEq α] (m : SMap α) (d : Nat → α) (k : Nat) (v : α) (h : SMap.wf m d = true) :
    SMap.wf (SMap.put m (d k) k v) d = true := by
  rw [SMap.wf_iff] at h ⊢
  unfold SMap.put
  split
  · exact ⟨SMap.sorted_erase m k h.1, fun p hp => h.2 p (SMap.mem_erase m k p hp)⟩
  · next hv =>
    refine ⟨SMap.sorted_insert m k v h.1, fun p hp => ?_⟩
    rcases SMap.mem_insert m k v p hp with e | hp
    · subst e; exact hv
    · exact h.2 p hp

/-- Dropping entries keeps the canonical form. -/
theorem SMap.wf_filter [DecidableEq α] (m : SMap α) (d : Nat → α) (f : Nat × α → Bool) (h : SMap.wf m d = true) :
    SMap.wf (m.filter f) d = true := by
  rw [SMap.wf_iff] at h ⊢
  exact ⟨h.1.filter f, fun p hp => h.2 p (List.mem_of_mem_filter hp)⟩

theorem SMap.wf_dropKeys [DecidableEq α] (m : SMap α) (d : Nat → α) (f : Nat → Bool) (h : SMap.wf m d = true) :
    SMap.wf (SMap.dropKeys m f) d = true := SMap.wf_filter m d _ h

theorem SMap.wf_clearRange [DecidableEq α] (m : SMap α) (d : Nat → α) (lo n : Nat) (h : SMap.wf m d = true) :
    SMap.wf (SMap.clearRange m lo n) d = true := SMap.wf_filter m d _ h

/-- Bytes written keep the canonical form. -/
theorem SMap.wf_putBytes (bs : List Byte) : ∀ (m : SMap Byte) (a : Nat), SMap.wf m (fun _ => 0) = true →
    SMap.wf (Machine.SMap.putBytes m a bs) (fun _ => 0) = true := by
  induction bs with
  | nil => intro m a h; exact h
  | cons b r ih => intro m a h; exact ih _ _ (SMap.wf_put m (fun _ => 0) a b h)

/-- A byte outside the written range reads as before. -/
theorem SMap.get_putBytes_out (bs : List Byte) : ∀ (m : SMap Byte) (a j : Nat), (j < a ∨ a + bs.length ≤ j) →
    SMap.get (Machine.SMap.putBytes m a bs) 0 j = SMap.get m 0 j := by
  induction bs with
  | nil => intro m a j _; rfl
  | cons b r ih =>
    intro m a j h
    simp only [List.length_cons] at h
    rw [Machine.SMap.putBytes, ih _ _ _ (by omega), SMap.get_put_ne _ _ _ _ _ _ (by omega)]

/-- A byte of the written range reads as it was written. -/
theorem SMap.get_putBytes_in (bs : List Byte) : ∀ (m : SMap Byte) (a i : Nat), i < bs.length →
    SMap.get (Machine.SMap.putBytes m a bs) 0 (a + i) = bs.getD i 0 := by
  induction bs with
  | nil => intro m a i h; exact absurd h (by simp)
  | cons b r ih =>
    intro m a i h
    cases i with
    | zero =>
      rw [Machine.SMap.putBytes, SMap.get_putBytes_out _ _ _ _ (by omega), Nat.add_zero, SMap.get_put_self]
      rfl
    | succ i =>
      rw [Machine.SMap.putBytes, show a + (i + 1) = a + 1 + i by omega, ih _ _ _ (by simpa using h)]
      rfl

/-- The head of a canonical map is the value read at its key. -/
theorem SMap.get_cons (p : Nat × α) (r : SMap α) (d : α) : SMap.get (p :: r) d p.1 = p.2 := by simp [SMap.get]

/-- Two canonical maps that read alike are equal data. -/
theorem SMap.ext_of_wf [DecidableEq α] (d : Nat → α) : ∀ (m n : SMap α), SMap.wf m d = true → SMap.wf n d = true →
    (∀ k, SMap.get m (d k) k = SMap.get n (d k) k) → m = n := by
  intro m
  induction m with
  | nil =>
    intro n _ hn h
    cases n with
    | nil => rfl
    | cons q r =>
      rw [SMap.wf_iff] at hn
      have := h q.1
      rw [SMap.get_cons] at this
      exact absurd this.symm (hn.2 q (by simp))
  | cons p r ih =>
    intro n hm hn h
    cases n with
    | nil =>
      rw [SMap.wf_iff] at hm
      have := h p.1
      rw [SMap.get_cons] at this
      exact absurd this (hm.2 p (by simp))
    | cons q t =>
      rw [SMap.wf_iff] at hm hn
      obtain ⟨hs, hv⟩ := hm
      obtain ⟨ht, hw⟩ := hn
      rw [List.pairwise_cons] at hs ht
      have hk : p.1 = q.1 := by
        rcases lt_trichotomy p.1 q.1 with hlt | he | hlt
        · have := h p.1
          rw [SMap.get_cons, SMap.get_of_lt (q :: t) _ _ (SMap.below_cons ht.1 hlt)] at this
          exact absurd this (hv p (by simp))
        · exact he
        · have := h q.1
          rw [SMap.get_cons, SMap.get_of_lt (p :: r) _ _ (SMap.below_cons hs.1 hlt)] at this
          exact absurd this.symm (hw q (by simp))
      have hval : p.2 = q.2 := by
        have := h p.1
        rwa [SMap.get_cons, hk, SMap.get_cons] at this
      have hpq : p = q := Prod.ext hk hval
      subst hpq
      congr 1
      refine ih t ((SMap.wf_iff _ _).mpr ⟨hs.2, fun a ha => hv a (by simp [ha])⟩)
        ((SMap.wf_iff _ _).mpr ⟨ht.2, fun a ha => hw a (by simp [ha])⟩) fun k => ?_
      by_cases hkp : p.1 = k
      · rw [SMap.get_of_lt r _ k (fun a ha => hkp ▸ hs.1 a ha), SMap.get_of_lt t _ k (fun a ha => hkp ▸ ht.1 a ha)]
      · have := h k
        simpa only [SMap.get, hkp, if_false] using this

end Sys2Proof
end

