-- ==== Sys2Proof/Laws/Changes.lean ====
section
/-! SUPPORT. What an operation may change, said once for each: `Changes m s t` says that `t` differs from `s` only in the fields
of the mask `m` (bit i for field i of State, in its order), leaves the queue of waiting commands, keeps the canonical form of
memory, takes free values only forward, withdraws nothing that has left the package and blows fuses only. -/

set_option Elab.async false

namespace Sys2Proof.Machine

/-- Fuses change only by being blown: the part, the identifier and the key digests stay, keys stay revoked, the anti-rollback
count rises. -/
structure Fuses.Later (a b : Fuses) : Prop where
  part : b.part = a.part
  uid : b.uid = a.uid
  digests : b.digests = a.digests
  revoked : a.revoked ||| b.revoked = b.revoked
  arb : a.arb ≤ b.arb

theorem Fuses.Later.refl (a : Fuses) : Fuses.Later a a := ⟨rfl, rfl, rfl, BitVec.or_self, le_refl _⟩

theorem Fuses.Later.trans {a b c : Fuses} (h : Fuses.Later a b) (k : Fuses.Later b c) : Fuses.Later a c :=
  ⟨k.part.trans h.part, k.uid.trans h.uid, k.digests.trans h.digests, (by rw [← k.revoked, ← BitVec.or_assoc, h.revoked]), le_trans h.arb k.arb⟩

structure Changes (m : Nat) (s t : State) : Prop where
  pending : t.pending = s.pending
  later : Fuses.Later s.fuses t.fuses
  memWf : Memory.wf s.mem = true → Memory.wf t.mem = true
  freshLe : s.fresh ≤ t.fresh
  outPrefix : s.out <+: t.out
  fuses : m.testBit 1 = false → t.fuses = s.fuses
  shadow : m.testBit 2 = false → t.shadow = s.shadow
  pins : m.testBit 3 = false → t.pins = s.pins
  supply : m.testBit 4 = false → t.supply = s.supply
  ember : m.testBit 5 = false → t.ember = s.ember
  rst : m.testBit 6 = false → t.rst = s.rst
  kind : m.testBit 7 = false → t.kind = s.kind
  doms : m.testBit 8 = false → t.doms = s.doms
  lostClk : m.testBit 9 = false → t.lostClk = s.lostClk
  pages : m.testBit 10 = false → t.pages = s.pages
  ownBad : m.testBit 11 = false → t.ownBad = s.ownBad
  queues : m.testBit 12 = false → t.queues = s.queues
  order : m.testBit 13 = false → t.order = s.order
  rr : m.testBit 14 = false → t.rr = s.rr
  copies : m.testBit 15 = false → t.copies = s.copies
  held : m.testBit 16 = false → t.held = s.held
  ctxs : m.testBit 17 = false → t.ctxs = s.ctxs
  psync : m.testBit 18 = false → t.psync = s.psync
  psnap : m.testBit 19 = false → t.psnap = s.psnap
  lsync : m.testBit 20 = false → t.lsync = s.lsync
  lsnap : m.testBit 21 = false → t.lsnap = s.lsnap
  cores : m.testBit 22 = false → t.cores = s.cores
  engines : m.testBit 23 = false → t.engines = s.engines
  stores : m.testBit 24 = false → t.stores = s.stores
  lanes : m.testBit 25 = false → t.lanes = s.lanes
  shadows : m.testBit 26 = false → t.shadows = s.shadows
  drt : m.testBit 27 = false → t.drt = s.drt
  beat : m.testBit 28 = false → t.beat = s.beat
  sched : m.testBit 29 = false → t.sched = s.sched
  prefetch : m.testBit 30 = false → t.prefetch = s.prefetch
  pageReqs : m.testBit 31 = false → t.pageReqs = s.pageReqs
  mem : m.testBit 32 = false → t.mem = s.mem
  ue : m.testBit 33 = false → t.ue = s.ue
  ueSeen : m.testBit 34 = false → t.ueSeen = s.ueSeen
  scrubPos : m.testBit 35 = false → t.scrubPos = s.scrubPos
  ports : m.testBit 36 = false → t.ports = s.ports
  chain : m.testBit 37 = false → t.chain = s.chain
  jtag : m.testBit 38 = false → t.jtag = s.jtag
  flash : m.testBit 39 = false → t.flash = s.flash
  fw : m.testBit 40 = false → t.fw = s.fw
  trc : m.testBit 41 = false → t.trc = s.trc
  freeze : m.testBit 42 = false → t.freeze = s.freeze
  snapQ : m.testBit 43 = false → t.snapQ = s.snapQ
  out : m.testBit 44 = false → t.out = s.out
  fresh : m.testBit 45 = false → t.fresh = s.fresh
  drains : m.testBit 46 = false → t.drains = s.drains
  errs : m.testBit 47 = false → t.errs = s.errs

theorem Changes.refl (m : Nat) (s : State) : Changes m s s := by
  constructor <;> first | (intro _; rfl) | exact fun h => h | exact Fuses.Later.refl _ | exact le_refl _ | exact List.prefix_rfl | rfl

theorem Changes.mask_bit {a m : Nat} (h : a ||| m = m) {i : Nat} (hi : m.testBit i = false) : a.testBit i = false := by
  have := congrArg (fun x => x.testBit i) h
  simp only [Nat.testBit_or, hi, Bool.or_false] at this
  exact this

theorem Changes.mask_trans {a b m : Nat} (h : Nat.lor a b = b) (k : Nat.lor b m = m) : Nat.lor a m = m := by
  calc Nat.lor a m = a ||| (b ||| m) := by rw [show b ||| m = m from k]; rfl
    _ = (a ||| b) ||| m := (Nat.or_assoc a b m).symm
    _ = m := by rw [show a ||| b = b from h]; exact k

/-- One operation after another. -/
theorem Changes.andThen {m a : Nat} {s t u : State} (h : Changes m s t) (k : Changes a t u) (hm : Nat.lor a m = m := by decide) :
    Changes m s u :=
  { pending := k.pending.trans h.pending, later := h.later.trans k.later, memWf := fun e => k.memWf (h.memWf e),
    freshLe := le_trans h.freshLe k.freshLe, outPrefix := h.outPrefix.trans k.outPrefix,
    fuses := fun e => (k.fuses (Changes.mask_bit hm e)).trans (h.fuses e),
    shadow := fun e => (k.shadow (Changes.mask_bit hm e)).trans (h.shadow e),
    pins := fun e => (k.pins (Changes.mask_bit hm e)).trans (h.pins e),
    supply := fun e => (k.supply (Changes.mask_bit hm e)).trans (h.supply e),
    ember := fun e => (k.ember (Changes.mask_bit hm e)).trans (h.ember e),
    rst := fun e => (k.rst (Changes.mask_bit hm e)).trans (h.rst e),
    kind := fun e => (k.kind (Changes.mask_bit hm e)).trans (h.kind e),
    doms := fun e => (k.doms (Changes.mask_bit hm e)).trans (h.doms e),
    lostClk := fun e => (k.lostClk (Changes.mask_bit hm e)).trans (h.lostClk e),
    pages := fun e => (k.pages (Changes.mask_bit hm e)).trans (h.pages e),
    ownBad := fun e => (k.ownBad (Changes.mask_bit hm e)).trans (h.ownBad e),
    queues := fun e => (k.queues (Changes.mask_bit hm e)).trans (h.queues e),
    order := fun e => (k.order (Changes.mask_bit hm e)).trans (h.order e),
    rr := fun e => (k.rr (Changes.mask_bit hm e)).trans (h.rr e),
    copies := fun e => (k.copies (Changes.mask_bit hm e)).trans (h.copies e),
    held := fun e => (k.held (Changes.mask_bit hm e)).trans (h.held e),
    ctxs := fun e => (k.ctxs (Changes.mask_bit hm e)).trans (h.ctxs e),
    psync := fun e => (k.psync (Changes.mask_bit hm e)).trans (h.psync e),
    psnap := fun e => (k.psnap (Changes.mask_bit hm e)).trans (h.psnap e),
    lsync := fun e => (k.lsync (Changes.mask_bit hm e)).trans (h.lsync e),
    lsnap := fun e => (k.lsnap (Changes.mask_bit hm e)).trans (h.lsnap e),
    cores := fun e => (k.cores (Changes.mask_bit hm e)).trans (h.cores e),
    engines := fun e => (k.engines (Changes.mask_bit hm e)).trans (h.engines e),
    stores := fun e => (k.stores (Changes.mask_bit hm e)).trans (h.stores e),
    lanes := fun e => (k.lanes (Changes.mask_bit hm e)).trans (h.lanes e),
    shadows := fun e => (k.shadows (Changes.mask_bit hm e)).trans (h.shadows e),
    drt := fun e => (k.drt (Changes.mask_bit hm e)).trans (h.drt e),
    beat := fun e => (k.beat (Changes.mask_bit hm e)).trans (h.beat e),
    sched := fun e => (k.sched (Changes.mask_bit hm e)).trans (h.sched e),
    prefetch := fun e => (k.prefetch (Changes.mask_bit hm e)).trans (h.prefetch e),
    pageReqs := fun e => (k.pageReqs (Changes.mask_bit hm e)).trans (h.pageReqs e),
    mem := fun e => (k.mem (Changes.mask_bit hm e)).trans (h.mem e),
    ue := fun e => (k.ue (Changes.mask_bit hm e)).trans (h.ue e),
    ueSeen := fun e => (k.ueSeen (Changes.mask_bit hm e)).trans (h.ueSeen e),
    scrubPos := fun e => (k.scrubPos (Changes.mask_bit hm e)).trans (h.scrubPos e),
    ports := fun e => (k.ports (Changes.mask_bit hm e)).trans (h.ports e),
    chain := fun e => (k.chain (Changes.mask_bit hm e)).trans (h.chain e),
    jtag := fun e => (k.jtag (Changes.mask_bit hm e)).trans (h.jtag e),
    flash := fun e => (k.flash (Changes.mask_bit hm e)).trans (h.flash e),
    fw := fun e => (k.fw (Changes.mask_bit hm e)).trans (h.fw e),
    trc := fun e => (k.trc (Changes.mask_bit hm e)).trans (h.trc e),
    freeze := fun e => (k.freeze (Changes.mask_bit hm e)).trans (h.freeze e),
    snapQ := fun e => (k.snapQ (Changes.mask_bit hm e)).trans (h.snapQ e),
    out := fun e => (k.out (Changes.mask_bit hm e)).trans (h.out e),
    fresh := fun e => (k.fresh (Changes.mask_bit hm e)).trans (h.fresh e),
    drains := fun e => (k.drains (Changes.mask_bit hm e)).trans (h.drains e),
    errs := fun e => (k.errs (Changes.mask_bit hm e)).trans (h.errs e) }

/-- One operation after another, the later first. -/
theorem Changes.after {m a : Nat} {s t u : State} (k : Changes a t u) (h : Changes m s t) (hm : Nat.lor a m = m) : Changes m s u :=
  h.andThen k hm

/-- A wider mask. -/
theorem Changes.widen {m a : Nat} {s t : State} (k : Changes a s t) (hm : Nat.lor a m = m := by decide) : Changes m s t :=
  (Changes.refl m s).andThen k hm

/-! One field set. -/
theorem Changes.set_fuses (s : State) (v : _) (h : Fuses.Later s.fuses v) : Changes 0x2 s { s with fuses := v } := by
  constructor <;> first | (intro _; rfl) | exact fun e => absurd e (by decide) | exact h | exact fun e => e | exact Fuses.Later.refl _ | exact le_refl _ | exact List.prefix_rfl | rfl
theorem Changes.set_shadow (s : State) (v : _)  : Changes 0x4 s { s with shadow := v } := by
  constructor <;> first | (intro _; rfl) | exact fun e => absurd e (by decide) | exact h | exact fun e => e | exact Fuses.Later.refl _ | exact le_refl _ | exact List.prefix_rfl | rfl
theorem Changes.set_pins (s : State) (v : _)  : Changes 0x8 s { s with pins := v } := by
  constructor <;> first | (intro _; rfl) | exact fun e => absurd e (by decide) | exact h | exact fun e => e | exact Fuses.Later.refl _ | exact le_refl _ | exact List.prefix_rfl | rfl
theorem Changes.set_supply (s : State) (v : _)  : Changes 0x10 s { s with supply := v } := by
  constructor <;> first | (intro _; rfl) | exact fun e => absurd e (by decide) | exact h | exact fun e => e | exact Fuses.Later.refl _ | exact le_refl _ | exact List.prefix_rfl | rfl
theorem Changes.set_ember (s : State) (v : _)  : Changes 0x20 s { s with ember := v } := by
  constructor <;> first | (intro _; rfl) | exact fun e => absurd e (by decide) | exact h | exact fun e => e | exact Fuses.Later.refl _ | exact le_refl _ | exact List.prefix_rfl | rfl
theorem Changes.set_rst (s : State) (v : _)  : Changes 0x40 s { s with rst := v } := by
  constructor <;> first | (intro _; rfl) | exact fun e => absurd e (by decide) | exact h | exact fun e => e | exact Fuses.Later.refl _ | exact le_refl _ | exact List.prefix_rfl | rfl
theorem Changes.set_kind (s : State) (v : _)  : Changes 0x80 s { s with kind := v } := by
  constructor <;> first | (intro _; rfl) | exact fun e => absurd e (by decide) | exact h | exact fun e => e | exact Fuses.Later.refl _ | exact le_refl _ | exact List.prefix_rfl | rfl
theorem Changes.set_doms (s : State) (v : _)  : Changes 0x100 s { s with doms := v } := by
  constructor <;> first | (intro _; rfl) | exact fun e => absurd e (by decide) | exact h | exact fun e => e | exact Fuses.Later.refl _ | exact le_refl _ | exact List.prefix_rfl | rfl
theorem Changes.set_lostClk (s : State) (v : _)  : Changes 0x200 s { s with lostClk := v } := by
  constructor <;> first | (intro _; rfl) | exact fun e => absurd e (by decide) | exact h | exact fun e => e | exact Fuses.Later.refl _ | exact le_refl _ | exact List.prefix_rfl | rfl
theorem Changes.set_pages (s : State) (v : _)  : Changes 0x400 s { s with pages := v } := by
  constructor <;> first | (intro _; rfl) | exact fun e => absurd e (by decide) | exact h | exact fun e => e | exact Fuses.Later.refl _ | exact le_refl _ | exact List.prefix_rfl | rfl
theorem Changes.set_ownBad (s : State) (v : _)  : Changes 0x800 s { s with ownBad := v } := by
  constructor <;> first | (intro _; rfl) | exact fun e => absurd e (by decide) | exact h | exact fun e => e | exact Fuses.Later.refl _ | exact le_refl _ | exact List.prefix_rfl | rfl
theorem Changes.set_queues (s : State) (v : _)  : Changes 0x1000 s { s with queues := v } := by
  constructor <;> first | (intro _; rfl) | exact fun e => absurd e (by decide) | exact h | exact fun e => e | exact Fuses.Later.refl _ | exact le_refl _ | exact List.prefix_rfl | rfl
theorem Changes.set_order (s : State) (v : _)  : Changes 0x2000 s { s with order := v } := by
  constructor <;> first | (intro _; rfl) | exact fun e => absurd e (by decide) | exact h | exact fun e => e | exact Fuses.Later.refl _ | exact le_refl _ | exact List.prefix_rfl | rfl
theorem Changes.set_rr (s : State) (v : _)  : Changes 0x4000 s { s with rr := v } := by
  constructor <;> first | (intro _; rfl) | exact fun e => absurd e (by decide) | exact h | exact fun e => e | exact Fuses.Later.refl _ | exact le_refl _ | exact List.prefix_rfl | rfl
theorem Changes.set_copies (s : State) (v : _)  : Changes 0x8000 s { s with copies := v } := by
  constructor <;> first | (intro _; rfl) | exact fun e => absurd e (by decide) | exact h | exact fun e => e | exact Fuses.Later.refl _ | exact le_refl _ | exact List.prefix_rfl | rfl
theorem Changes.set_held (s : State) (v : _)  : Changes 0x10000 s { s with held := v } := by
  constructor <;> first | (intro _; rfl) | exact fun e => absurd e (by decide) | exact h | exact fun e => e | exact Fuses.Later.refl _ | exact le_refl _ | exact List.prefix_rfl | rfl
theorem Changes.set_ctxs (s : State) (v : _)  : Changes 0x20000 s { s with ctxs := v } := by
  constructor <;> first | (intro _; rfl) | exact fun e => absurd e (by decide) | exact h | exact fun e => e | exact Fuses.Later.refl _ | exact le_refl _ | exact List.prefix_rfl | rfl
theorem Changes.set_psync (s : State) (v : _)  : Changes 0x40000 s { s with psync := v } := by
  constructor <;> first | (intro _; rfl) | exact fun e => absurd e (by decide) | exact h | exact fun e => e | exact Fuses.Later.refl _ | exact le_refl _ | exact List.prefix_rfl | rfl
theorem Changes.set_psnap (s : State) (v : _)  : Changes 0x80000 s { s with psnap := v } := by
  constructor <;> first | (intro _; rfl) | exact fun e => absurd e (by decide) | exact h | exact fun e => e | exact Fuses.Later.refl _ | exact le_refl _ | exact List.prefix_rfl | rfl
theorem Changes.set_lsync (s : State) (v : _)  : Changes 0x100000 s { s with lsync := v } := by
  constructor <;> first | (intro _; rfl) | exact fun e => absurd e (by decide) | exact h | exact fun e => e | exact Fuses.Later.refl _ | exact le_refl _ | exact List.prefix_rfl | rfl
theorem Changes.set_lsnap (s : State) (v : _)  : Changes 0x200000 s { s with lsnap := v } := by
  constructor <;> first | (intro _; rfl) | exact fun e => absurd e (by decide) | exact h | exact fun e => e | exact Fuses.Later.refl _ | exact le_refl _ | exact List.prefix_rfl | rfl
theorem Changes.set_cores (s : State) (v : _)  : Changes 0x400000 s { s with cores := v } := by
  constructor <;> first | (intro _; rfl) | exact fun e => absurd e (by decide) | exact h | exact fun e => e | exact Fuses.Later.refl _ | exact le_refl _ | exact List.prefix_rfl | rfl
theorem Changes.set_engines (s : State) (v : _)  : Changes 0x800000 s { s with engines := v } := by
  constructor <;> first | (intro _; rfl) | exact fun e => absurd e (by decide) | exact h | exact fun e => e | exact Fuses.Later.refl _ | exact le_refl _ | exact List.prefix_rfl | rfl
theorem Changes.set_stores (s : State) (v : _)  : Changes 0x1000000 s { s with stores := v } := by
  constructor <;> first | (intro _; rfl) | exact fun e => absurd e (by decide) | exact h | exact fun e => e | exact Fuses.Later.refl _ | exact le_refl _ | exact List.prefix_rfl | rfl
theorem Changes.set_lanes (s : State) (v : _)  : Changes 0x2000000 s { s with lanes := v } := by
  constructor <;> first | (intro _; rfl) | exact fun e => absurd e (by decide) | exact h | exact fun e => e | exact Fuses.Later.refl _ | exact le_refl _ | exact List.prefix_rfl | rfl
theorem Changes.set_shadows (s : State) (v : _)  : Changes 0x4000000 s { s with shadows := v } := by
  constructor <;> first | (intro _; rfl) | exact fun e => absurd e (by decide) | exact h | exact fun e => e | exact Fuses.Later.refl _ | exact le_refl _ | exact List.prefix_rfl | rfl
theorem Changes.set_drt (s : State) (v : _)  : Changes 0x8000000 s { s with drt := v } := by
  constructor <;> first | (intro _; rfl) | exact fun e => absurd e (by decide) | exact h | exact fun e => e | exact Fuses.Later.refl _ | exact le_refl _ | exact List.prefix_rfl | rfl
theorem Changes.set_beat (s : State) (v : _)  : Changes 0x10000000 s { s with beat := v } := by
  constructor <;> first | (intro _; rfl) | exact fun e => absurd e (by decide) | exact h | exact fun e => e | exact Fuses.Later.refl _ | exact le_refl _ | exact List.prefix_rfl | rfl
theorem Changes.set_sched (s : State) (v : _)  : Changes 0x20000000 s { s with sched := v } := by
  constructor <;> first | (intro _; rfl) | exact fun e => absurd e (by decide) | exact h | exact fun e => e | exact Fuses.Later.refl _ | exact le_refl _ | exact List.prefix_rfl | rfl
theorem Changes.set_prefetch (s : State) (v : _)  : Changes 0x40000000 s { s with prefetch := v } := by
  constructor <;> first | (intro _; rfl) | exact fun e => absurd e (by decide) | exact h | exact fun e => e | exact Fuses.Later.refl _ | exact le_refl _ | exact List.prefix_rfl | rfl
theorem Changes.set_pageReqs (s : State) (v : _)  : Changes 0x80000000 s { s with pageReqs := v } := by
  constructor <;> first | (intro _; rfl) | exact fun e => absurd e (by decide) | exact h | exact fun e => e | exact Fuses.Later.refl _ | exact le_refl _ | exact List.prefix_rfl | rfl
theorem Changes.set_mem (s : State) (v : _) (h : Memory.wf s.mem = true → Memory.wf v = true) : Changes 0x100000000 s { s with mem := v } := by
  constructor <;> first | (intro _; rfl) | exact fun e => absurd e (by decide) | exact h | exact fun e => e | exact Fuses.Later.refl _ | exact le_refl _ | exact List.prefix_rfl | rfl
theorem Changes.set_ue (s : State) (v : _)  : Changes 0x200000000 s { s with ue := v } := by
  constructor <;> first | (intro _; rfl) | exact fun e => absurd e (by decide) | exact h | exact fun e => e | exact Fuses.Later.refl _ | exact le_refl _ | exact List.prefix_rfl | rfl
theorem Changes.set_ueSeen (s : State) (v : _)  : Changes 0x400000000 s { s with ueSeen := v } := by
  constructor <;> first | (intro _; rfl) | exact fun e => absurd e (by decide) | exact h | exact fun e => e | exact Fuses.Later.refl _ | exact le_refl _ | exact List.prefix_rfl | rfl
theorem Changes.set_scrubPos (s : State) (v : _)  : Changes 0x800000000 s { s with scrubPos := v } := by
  constructor <;> first | (intro _; rfl) | exact fun e => absurd e (by decide) | exact h | exact fun e => e | exact Fuses.Later.refl _ | exact le_refl _ | exact List.prefix_rfl | rfl
theorem Changes.set_ports (s : State) (v : _)  : Changes 0x1000000000 s { s with ports := v } := by
  constructor <;> first | (intro _; rfl) | exact fun e => absurd e (by decide) | exact h | exact fun e => e | exact Fuses.Later.refl _ | exact le_refl _ | exact List.prefix_rfl | rfl
theorem Changes.set_chain (s : State) (v : _)  : Changes 0x2000000000 s { s with chain := v } := by
  constructor <;> first | (intro _; rfl) | exact fun e => absurd e (by decide) | exact h | exact fun e => e | exact Fuses.Later.refl _ | exact le_refl _ | exact List.prefix_rfl | rfl
theorem Changes.set_jtag (s : State) (v : _)  : Changes 0x4000000000 s { s with jtag := v } := by
  constructor <;> first | (intro _; rfl) | exact fun e => absurd e (by decide) | exact h | exact fun e => e | exact Fuses.Later.refl _ | exact le_refl _ | exact List.prefix_rfl | rfl
theorem Changes.set_flash (s : State) (v : _)  : Changes 0x8000000000 s { s with flash := v } := by
  constructor <;> first | (intro _; rfl) | exact fun e => absurd e (by decide) | exact h | exact fun e => e | exact Fuses.Later.refl _ | exact le_refl _ | exact List.prefix_rfl | rfl
theorem Changes.set_fw (s : State) (v : _)  : Changes 0x10000000000 s { s with fw := v } := by
  constructor <;> first | (intro _; rfl) | exact fun e => absurd e (by decide) | exact h | exact fun e => e | exact Fuses.Later.refl _ | exact le_refl _ | exact List.prefix_rfl | rfl
theorem Changes.set_trc (s : State) (v : _)  : Changes 0x20000000000 s { s with trc := v } := by
  constructor <;> first | (intro _; rfl) | exact fun e => absurd e (by decide) | exact h | exact fun e => e | exact Fuses.Later.refl _ | exact le_refl _ | exact List.prefix_rfl | rfl
theorem Changes.set_freeze (s : State) (v : _)  : Changes 0x40000000000 s { s with freeze := v } := by
  constructor <;> first | (intro _; rfl) | exact fun e => absurd e (by decide) | exact h | exact fun e => e | exact Fuses.Later.refl _ | exact le_refl _ | exact List.prefix_rfl | rfl
theorem Changes.set_snapQ (s : State) (v : _)  : Changes 0x80000000000 s { s with snapQ := v } := by
  constructor <;> first | (intro _; rfl) | exact fun e => absurd e (by decide) | exact h | exact fun e => e | exact Fuses.Later.refl _ | exact le_refl _ | exact List.prefix_rfl | rfl
theorem Changes.set_out (s : State) (v : _) (h : s.out <+: v) : Changes 0x100000000000 s { s with out := v } := by
  constructor <;> first | (intro _; rfl) | exact fun e => absurd e (by decide) | exact h | exact fun e => e | exact Fuses.Later.refl _ | exact le_refl _ | exact List.prefix_rfl | rfl
theorem Changes.set_fresh (s : State) (v : _) (h : s.fresh ≤ v) : Changes 0x200000000000 s { s with fresh := v } := by
  constructor <;> first | (intro _; rfl) | exact fun e => absurd e (by decide) | exact h | exact fun e => e | exact Fuses.Later.refl _ | exact le_refl _ | exact List.prefix_rfl | rfl
theorem Changes.set_drains (s : State) (v : _)  : Changes 0x400000000000 s { s with drains := v } := by
  constructor <;> first | (intro _; rfl) | exact fun e => absurd e (by decide) | exact h | exact fun e => e | exact Fuses.Later.refl _ | exact le_refl _ | exact List.prefix_rfl | rfl
theorem Changes.set_errs (s : State) (v : _)  : Changes 0x800000000000 s { s with errs := v } := by
  constructor <;> first | (intro _; rfl) | exact fun e => absurd e (by decide) | exact h | exact fun e => e | exact Fuses.Later.refl _ | exact le_refl _ | exact List.prefix_rfl | rfl

/-! Several fields set. -/
theorem Changes.set_ember_chain (s : State) (v0 : _) (v1 : _) : Changes 0x2000000020 s { s with ember := v0, chain := v1 } := by
  constructor <;> first | (intro _; rfl) | exact fun e => absurd e (by decide) | exact fun e => e | exact Fuses.Later.refl _ | exact le_refl _ | exact List.prefix_rfl | rfl
theorem Changes.set_lanes_shadows (s : State) (v0 : _) (v1 : _) : Changes 0x6000000 s { s with lanes := v0, shadows := v1 } := by
  constructor <;> first | (intro _; rfl) | exact fun e => absurd e (by decide) | exact fun e => e | exact Fuses.Later.refl _ | exact le_refl _ | exact List.prefix_rfl | rfl
theorem Changes.set_ember_rst (s : State) (v0 : _) (v1 : _) : Changes 0x60 s { s with ember := v0, rst := v1 } := by
  constructor <;> first | (intro _; rfl) | exact fun e => absurd e (by decide) | exact fun e => e | exact Fuses.Later.refl _ | exact le_refl _ | exact List.prefix_rfl | rfl
theorem Changes.set_pages_engines (s : State) (v0 : _) (v1 : _) : Changes 0x800400 s { s with pages := v0, engines := v1 } := by
  constructor <;> first | (intro _; rfl) | exact fun e => absurd e (by decide) | exact fun e => e | exact Fuses.Later.refl _ | exact le_refl _ | exact List.prefix_rfl | rfl
theorem Changes.set_kind_chain (s : State) (v0 : _) (v1 : _) : Changes 0x2000000080 s { s with kind := v0, chain := v1 } := by
  constructor <;> first | (intro _; rfl) | exact fun e => absurd e (by decide) | exact fun e => e | exact Fuses.Later.refl _ | exact le_refl _ | exact List.prefix_rfl | rfl
theorem Changes.set_psync_lsync (s : State) (v0 : _) (v1 : _) : Changes 0x140000 s { s with psync := v0, lsync := v1 } := by
  constructor <;> first | (intro _; rfl) | exact fun e => absurd e (by decide) | exact fun e => e | exact Fuses.Later.refl _ | exact le_refl _ | exact List.prefix_rfl | rfl
theorem Changes.set_stores_drains (s : State) (v0 : _) (v1 : _) : Changes 0x400001000000 s { s with stores := v0, drains := v1 } := by
  constructor <;> first | (intro _; rfl) | exact fun e => absurd e (by decide) | exact fun e => e | exact Fuses.Later.refl _ | exact le_refl _ | exact List.prefix_rfl | rfl
theorem Changes.set_ue_errs (s : State) (v0 : _) (v1 : _) : Changes 0x800200000000 s { s with ue := v0, errs := v1 } := by
  constructor <;> first | (intro _; rfl) | exact fun e => absurd e (by decide) | exact fun e => e | exact Fuses.Later.refl _ | exact le_refl _ | exact List.prefix_rfl | rfl
theorem Changes.set_ue_ueSeen_errs (s : State) (v0 : _) (v1 : _) (v2 : _) : Changes 0x800600000000 s { s with ue := v0, ueSeen := v1, errs := v2 } := by
  constructor <;> first | (intro _; rfl) | exact fun e => absurd e (by decide) | exact fun e => e | exact Fuses.Later.refl _ | exact le_refl _ | exact List.prefix_rfl | rfl
theorem Changes.set_psnap_lsnap (s : State) (v0 : _) (v1 : _) : Changes 0x280000 s { s with psnap := v0, lsnap := v1 } := by
  constructor <;> first | (intro _; rfl) | exact fun e => absurd e (by decide) | exact fun e => e | exact Fuses.Later.refl _ | exact le_refl _ | exact List.prefix_rfl | rfl
theorem Changes.set_shadow_ember_kind (s : State) (v0 : _) (v1 : _) (v2 : _) : Changes 0xa4 s { s with shadow := v0, ember := v1, kind := v2 } := by
  constructor <;> first | (intro _; rfl) | exact fun e => absurd e (by decide) | exact fun e => e | exact Fuses.Later.refl _ | exact le_refl _ | exact List.prefix_rfl | rfl
theorem Changes.set_sched_fw (s : State) (v0 : _) (v1 : _) : Changes 0x10020000000 s { s with sched := v0, fw := v1 } := by
  constructor <;> first | (intro _; rfl) | exact fun e => absurd e (by decide) | exact fun e => e | exact Fuses.Later.refl _ | exact le_refl _ | exact List.prefix_rfl | rfl
theorem Changes.set_copies_cores_prefetch_pageReqs (s : State) (v0 : _) (v1 : _) (v2 : _) (v3 : _) : Changes 0xc0408000 s { s with copies := v0, cores := v1, prefetch := v2, pageReqs := v3 } := by
  constructor <;> first | (intro _; rfl) | exact fun e => absurd e (by decide) | exact fun e => e | exact Fuses.Later.refl _ | exact le_refl _ | exact List.prefix_rfl | rfl
theorem Changes.set_order_copies (s : State) (v0 : _) (v1 : _) : Changes 0xa000 s { s with order := v0, copies := v1 } := by
  constructor <;> first | (intro _; rfl) | exact fun e => absurd e (by decide) | exact fun e => e | exact Fuses.Later.refl _ | exact le_refl _ | exact List.prefix_rfl | rfl
theorem Changes.set_engines_pageReqs (s : State) (v0 : _) (v1 : _) : Changes 0x80800000 s { s with engines := v0, pageReqs := v1 } := by
  constructor <;> first | (intro _; rfl) | exact fun e => absurd e (by decide) | exact fun e => e | exact Fuses.Later.refl _ | exact le_refl _ | exact List.prefix_rfl | rfl
theorem Changes.set_psync_psnap_lsync_lsnap (s : State) (v0 : _) (v1 : _) (v2 : _) (v3 : _) : Changes 0x3c0000 s { s with psync := v0, psnap := v1, lsync := v2, lsnap := v3 } := by
  constructor <;> first | (intro _; rfl) | exact fun e => absurd e (by decide) | exact fun e => e | exact Fuses.Later.refl _ | exact le_refl _ | exact List.prefix_rfl | rfl
theorem Changes.set_psync_psnap (s : State) (v0 : _) (v1 : _) : Changes 0xc0000 s { s with psync := v0, psnap := v1 } := by
  constructor <;> first | (intro _; rfl) | exact fun e => absurd e (by decide) | exact fun e => e | exact Fuses.Later.refl _ | exact le_refl _ | exact List.prefix_rfl | rfl
theorem Changes.set_ember_rst_kind (s : State) (v0 : _) (v1 : _) (v2 : _) : Changes 0xe0 s { s with ember := v0, rst := v1, kind := v2 } := by
  constructor <;> first | (intro _; rfl) | exact fun e => absurd e (by decide) | exact fun e => e | exact Fuses.Later.refl _ | exact le_refl _ | exact List.prefix_rfl | rfl
theorem Changes.set_lsync_lsnap (s : State) (v0 : _) (v1 : _) : Changes 0x300000 s { s with lsync := v0, lsnap := v1 } := by
  constructor <;> first | (intro _; rfl) | exact fun e => absurd e (by decide) | exact fun e => e | exact Fuses.Later.refl _ | exact le_refl _ | exact List.prefix_rfl | rfl

/-! Operations that may have no answer, or that answer a state beside other things. -/

/-- Every value of an `ok` answer satisfies `P`. -/
structure okAll {ε α : Type} (P : α → Prop) (r : Except ε α) : Prop where
  get : ∀ {a}, r = .ok a → P a

/-- Every error satisfies `P`. -/
structure errAll {ε α : Type} (P : ε → Prop) (r : Except ε α) : Prop where
  get : ∀ {a}, r = .error a → P a

/-- Every `some` answer satisfies `P`. -/
structure someAll {α : Type} (P : α → Prop) (r : Option α) : Prop where
  get : ∀ {a}, r = some a → P a

/-- Every next state satisfies `P`. -/
structure nextAll (P : State → Prop) (r : Host.Outcome State Fault Refusal) : Prop where
  get : ∀ {a}, r = .next a → P a

theorem okAll.ok {ε α : Type} {P : α → Prop} {a : α} (h : P a) : okAll P (Except.ok a : Except ε α) := ⟨fun e => by cases e; exact h⟩
theorem okAll.pure {ε α : Type} {P : α → Prop} {a : α} (h : P a) : okAll P (Pure.pure a : Except ε α) := okAll.ok h
theorem okAll.error {ε α : Type} {P : α → Prop} {a : ε} : okAll P (Except.error a : Except ε α) := ⟨fun e => by cases e⟩
theorem errAll.ok {ε α : Type} {P : ε → Prop} {a : α} : errAll P (Except.ok a : Except ε α) := ⟨fun e => by cases e⟩
theorem errAll.error {ε α : Type} {P : ε → Prop} {a : ε} (h : P a) : errAll P (Except.error a : Except ε α) := ⟨fun e => by cases e; exact h⟩
theorem errAll.mono {ε α : Type} {P Q : ε → Prop} {r : Except ε α} (h : errAll Q r) (k : ∀ a, r = .error a → Q a → P a) : errAll P r :=
  ⟨fun e => k _ e (h.get e)⟩
theorem errAll.ite {ε α : Type} {P : ε → Prop} {c : Prop} [Decidable c] {x y : Except ε α} (h : c → errAll P x) (k : ¬c → errAll P y) :
    errAll P (if c then x else y) := by split <;> simp_all
theorem okAll.mono {ε α : Type} {P Q : α → Prop} {r : Except ε α} (h : okAll Q r) (k : ∀ a, r = .ok a → Q a → P a) : okAll P r :=
  ⟨fun e => k _ e (h.get e)⟩
theorem okAll.bindT {ε α β : Type} {P : β → Prop} {r : Except ε α} {f : α → Except ε β} (k : ∀ a, r = .ok a → okAll P (f a)) :
    okAll P (r >>= f) := by
  cases r with
  | ok a => exact k a rfl
  | error e => exact okAll.error
theorem okAll.bind {ε α β : Type} {P : β → Prop} {Q : α → Prop} {r : Except ε α} {f : α → Except ε β} (h : okAll Q r)
    (k : ∀ a, r = .ok a → Q a → okAll P (f a)) : okAll P (r >>= f) := okAll.bindT fun a e => k a e (h.get e)
theorem okAll.mapT {ε α β : Type} {P : β → Prop} {r : Except ε α} {f : α → β} (k : ∀ a, r = .ok a → P (f a)) : okAll P (r.map f) := by
  cases r with
  | ok a => exact okAll.ok (k a rfl)
  | error e => exact okAll.error
theorem okAll.map {ε α β : Type} {P : β → Prop} {Q : α → Prop} {r : Except ε α} {f : α → β} (h : okAll Q r)
    (k : ∀ a, r = .ok a → Q a → P (f a)) : okAll P (r.map f) := okAll.mapT fun a e => k a e (h.get e)
theorem okAll.ite {ε α : Type} {P : α → Prop} {c : Prop} [Decidable c] {x y : Except ε α} (h : c → okAll P x) (k : ¬c → okAll P y) :
    okAll P (if c then x else y) := by split <;> simp_all
theorem okAll.foldlM {ε α β : Type} {P : β → Prop} {f : β → α → Except ε β} (l : List α) : ∀ (b : β), P b →
    (∀ b a, P b → okAll P (f b a)) → okAll P (l.foldlM f b) := by
  induction l with
  | nil => intro b h _; exact okAll.pure h
  | cons x r ih => intro b h k; exact okAll.bind (k b x h) fun a _ ha => ih a ha k

theorem okAll.bindPure {ε α β : Type} {P : β → Prop} {a : α} {f : α → Except ε β} (h : okAll P (f a)) :
    okAll P ((Pure.pure a : Except ε α) >>= f) := h

theorem someAll.some {α : Type} {P : α → Prop} {a : α} (h : P a) : someAll P (Option.some a) := ⟨fun e => by cases e; exact h⟩
theorem someAll.mapT {α β : Type} {P : β → Prop} {r : Option α} {f : α → β} (k : ∀ a, r = Option.some a → P (f a)) : someAll P (r.map f) := by
  cases r with
  | some a => exact ⟨fun e => by cases e; exact k a rfl⟩
  | none => exact ⟨fun e => by cases e⟩
theorem someAll.map {α β : Type} {P : β → Prop} {Q : α → Prop} {r : Option α} {f : α → β} (h : someAll Q r)
    (k : ∀ a, r = Option.some a → Q a → P (f a)) : someAll P (r.map f) := someAll.mapT fun a e => k a e (h.get e)
theorem someAll.none {α : Type} {P : α → Prop} : someAll P (Option.none : Option α) := ⟨fun e => by cases e⟩
theorem someAll.mono {α : Type} {P Q : α → Prop} {r : Option α} (h : someAll Q r) (k : ∀ a, r = Option.some a → Q a → P a) : someAll P r :=
  ⟨fun e => k _ e (h.get e)⟩
theorem someAll.ite {α : Type} {P : α → Prop} {c : Prop} [Decidable c] {x y : Option α} (h : c → someAll P x) (k : ¬c → someAll P y) :
    someAll P (if c then x else y) := by split <;> simp_all

theorem nextAll.next {P : State → Prop} {a : State} (h : P a) : nextAll P (.next a) := ⟨fun e => by cases e; exact h⟩
theorem nextAll.ite {P : State → Prop} {c : Prop} [Decidable c] {x y : Host.Outcome State Fault Refusal} (h : c → nextAll P x)
    (k : ¬c → nextAll P y) : nextAll P (if c then x else y) := by split <;> simp_all

theorem Changes.ite {m : Nat} {s x y : State} {c : Prop} [Decidable c] (h : c → Changes m s x) (k : ¬c → Changes m s y) :
    Changes m s (if c then x else y) := by split <;> simp_all

/-- A fold of an operation. -/
theorem Changes.foldl {α : Type} {m : Nat} {f : State → α → State} (l : List α) : ∀ {s t : State}, Changes m s t →
    (∀ u a, Changes m u (f u a)) → Changes m s (l.foldl f t) := by
  induction l with
  | nil => intro s t h _; exact h
  | cons x r ih =>
    intro s t h k
    exact ih (h.andThen (k t x) (Nat.or_self m)) k

/-- A fold of an operation that may fail, before another. -/
theorem okAll.bindFoldlM {ε α β : Type} {m : Nat} {P : β → Prop} {g : State → α → Except ε State} {f : State → Except ε β} {b : State} {l : List α}
    (hg : ∀ u a, okAll (Changes m u) (g u a)) (k : ∀ a, Changes m b a → okAll P (f a)) : okAll P (l.foldlM g b >>= f) :=
  okAll.bind (okAll.foldlM (P := Changes m b) l b (Changes.refl m b) fun u a hu =>
    (hg u a).mono fun _ _ hx => hx.after hu (Nat.or_self m)) fun a _ ha => k a ha

/-- A fold that carries a state and something else. -/
theorem Changes.foldlFst {α β : Type} {m : Nat} {f : State × β → α → State × β} (l : List α) : ∀ {s : State} {t : State × β},
    Changes m s t.1 → (∀ u a, Changes m u.1 (f u a).1) → Changes m s (l.foldl f t).1 := by
  induction l with
  | nil => intro s t h _; exact h
  | cons x r ih =>
    intro s t h k
    exact ih (h.andThen (k t x) (Nat.or_self m)) k

theorem Changes.fst {β : Type} {m : Nat} {s t : State} {p : State × β} {b : β} (h : Changes m s p.1) (e : p = (t, b)) : Changes m s t := by
  rw [e] at h; exact h

/-- A change that may not take place. -/
theorem Changes.getD {m a : Nat} {s d : State} {o : Option State} (k : someAll (Changes a d) o) (h : Changes m s d)
    (hm : Nat.lor a m = m := by decide) : Changes m s (o.getD d) := by
  cases o with
  | some t => exact h.andThen (k.get rfl) hm
  | none => exact h

/-- An error of a step that may be left out comes from the step. -/
theorem errAll.iteOk {ε α : Type} {P : ε → Prop} {c : Prop} [Decidable c] {x : Except ε α} {a : α} {e : ε}
    (h : (if c then x else .ok a) = .error e) (k : errAll P x) : P e := by
  by_cases hc : c
  · rw [if_pos hc] at h; exact k.get h
  · rw [if_neg hc] at h; cases h

/-- What a step that may be left out answers. -/
theorem okAll.iteOk {ε α : Type} {P : α → Prop} {c : Prop} [Decidable c] {x : Except ε α} {a b : α}
    (h : (if c then x else .ok a) = .ok b) (k : okAll P x) (ha : P a) : P b := by
  by_cases hc : c
  · rw [if_pos hc] at h; exact k.get h
  · rw [if_neg hc] at h; cases h; exact ha

/-- What holds of both ends of a run holds of it. -/
theorem onOk_cases {α β : Type} {P : β → Prop} (x : Except Fail α) (bad : Fail → β) (good : α → β)
    (hb : ∀ f, x = .error f → P (bad f)) (hg : ∀ a, x = .ok a → P (good a)) : P (onOk x bad good) := by
  cases x with
  | error f => exact hb f rfl
  | ok a => exact hg a rfl

end Sys2Proof.Machine
end

