-- ==== Sys2Proof/Laws/Ops.lean ====
section
/-! SUPPORT. What each operation of Machine/Ops.lean may change (the masks number the fields of State in order). -/

set_option Elab.async false

namespace Sys2Proof.Machine

theorem State.setDom_changes (s : State) (k : Nat) (d : Dom) :
    Changes 0x100 s (State.setDom s k d) := by
  unfold State.setDom
  repeat' (with_reducible first
    | exact Changes.refl _ _
    | (show Nat.lor _ _ = _; decide)
    | ((fail_if_success (apply Changes.after (Changes.set_snapQ _ _))); apply Changes.after (Changes.set_doms _ _)))

theorem State.setPage_changes (s : State) (pg : Nat) (p : Page) :
    Changes 0x400 s (State.setPage s pg p) := by
  unfold State.setPage
  repeat' (with_reducible first
    | exact Changes.refl _ _
    | (show Nat.lor _ _ = _; decide)
    | ((fail_if_success (apply Changes.after (Changes.set_snapQ _ _))); apply Changes.after (Changes.set_pages _ _)))

theorem State.setCtx_changes (s : State) (c : Nat) (x : Option Ctx) :
    Changes 0x20000 s (State.setCtx s c x) := by
  unfold State.setCtx
  repeat' (with_reducible first
    | exact Changes.refl _ _
    | (show Nat.lor _ _ = _; decide)
    | ((fail_if_success (apply Changes.after (Changes.set_snapQ _ _))); apply Changes.after (Changes.set_ctxs _ _)))

theorem State.setPort_changes (s : State) (p : Nat) (x : Port) :
    Changes 0x1000000000 s (State.setPort s p x) := by
  unfold State.setPort
  repeat' (with_reducible first
    | exact Changes.refl _ _
    | (show Nat.lor _ _ = _; decide)
    | ((fail_if_success (apply Changes.after (Changes.set_snapQ _ _))); apply Changes.after (Changes.set_ports _ _)))

theorem State.setByte_changes (s : State) (a : Nat) (b : Byte) : Changes 0x100000000 s (s.setByte a b) :=
  Changes.set_mem s _ fun h => SMap.wf_put s.mem (fun _ => 0) a b h

theorem State.setBytes_changes (s : State) (a : Nat) (bs : List Byte) : Changes 0x100000000 s (s.setBytes a bs) :=
  Changes.set_mem s _ fun h => SMap.wf_putBytes bs s.mem a h

theorem State.upset_changes (s : State) (a : Nat) (l : List Nat) :
    Changes 0x800200000000 s (State.upset s a l) := by
  unfold State.upset
  repeat' (with_reducible first
    | exact Changes.refl _ _
    | (show Nat.lor _ _ = _; decide)
    | apply Changes.ite
    | intro _
    | ((fail_if_success (apply Changes.after (Changes.set_snapQ _ _))); apply Changes.after (Changes.set_errs _ _))
    | ((fail_if_success (apply Changes.after (Changes.set_snapQ _ _))); apply Changes.after (Changes.set_ue_errs _ _ _)))

theorem State.setAt_changes (s : State) (ps : List Nat) (bs : List Byte) : Changes 0x100000000 s (s.setAt ps bs) := by
  induction ps generalizing s bs with
  | nil => exact Changes.refl _ _
  | cons p ps ih =>
    cases bs with
    | nil => exact Changes.refl _ _
    | cons b bs => exact (State.setByte_changes s p b).andThen (ih _ _)

theorem State.write_changes (s : State) (w : Who) (a : Nat) (bs : List Byte) : okAll (Changes 0x800700000000 s) (s.write w a bs) := by
  unfold State.write
  split
  · exact okAll.error
  · dsimp only
    split
    · exact okAll.error
    · exact okAll.ok ((Changes.set_ue_ueSeen_errs s _ _ _).widen.andThen (State.setAt_changes _ _ _))

theorem State.takeFree_changes (s : State) (n : Nat) : Changes 0x200000000000 s (s.takeFree n).2 :=
  Changes.set_fresh s _ (Nat.le_add_right _ _)

theorem State.scramble_changes (s : State) (w : Who) (a n : Nat) :
    Changes 0x200100000000 s (State.scramble s w a n) := by
  unfold State.scramble
  repeat' (with_reducible first
    | exact Changes.refl _ _
    | (show Nat.lor _ _ = _; decide)
    | apply Changes.ite
    | apply Changes.after (State.setByte_changes ..)
    | apply Changes.after (State.takeFree_changes ..)
    | apply Changes.foldl
    | intro _
    | split)

theorem State.scrambleBits_changes (s : State) (w : Who) (b n : Nat) :
    Changes 0x200100000000 s (State.scrambleBits s w b n) := by
  unfold State.scrambleBits
  repeat' (with_reducible first
    | exact Changes.refl _ _
    | (show Nat.lor _ _ = _; decide)
    | apply Changes.ite
    | apply Changes.after (State.setByte_changes ..)
    | apply Changes.after (State.takeFree_changes ..)
    | apply Changes.foldl
    | intro _
    | split)

end Sys2Proof.Machine
end

