-- ==== Sys2Proof/Laws/Events.lean ====
section
/-! SUPPORT. What each operation of Machine/Events.lean may change (the masks number the fields of State in order). -/

set_option Elab.async false

namespace Sys2Proof.Machine

theorem State.setQueue_changes (s : State) (q : Nat) (x : Queue) :
    Changes 0x1000 s (State.setQueue s q x) := by
  unfold State.setQueue
  repeat' (with_reducible first
    | exact Changes.refl _ _
    | (show Nat.lor _ _ = _; decide)
    | ((fail_if_success (apply Changes.after (Changes.set_snapQ _ _))); apply Changes.after (Changes.set_queues _ _)))

theorem State.addOut_changes (s : State) (o : Out) : Changes 0x100000000000 s (s.addOut o) :=
  Changes.set_out s _ (List.prefix_append _ _)

theorem State.hostLine_changes (s : State) (a : Addr) (bs : List Byte) :
    Changes 0x100010000 s (State.hostLine s a bs).1 := by
  unfold State.hostLine
  repeat' (with_reducible first
    | exact Changes.refl _ _
    | (show Nat.lor _ _ = _; decide)
    | apply Changes.after (State.setBytes_changes ..)
    | split
    | dsimp only
    | ((fail_if_success (apply Changes.after (Changes.set_snapQ _ _))); apply Changes.after (Changes.set_held _ _)))

theorem State.flushHeld_changes (s : State) :
    Changes 0x100010000 s (State.flushHeld s) := by
  unfold State.flushHeld
  repeat' (with_reducible first
    | exact Changes.refl _ _
    | (show Nat.lor _ _ = _; decide)
    | apply Changes.ite
    | apply Changes.after (State.setBytes_changes ..)
    | apply Changes.foldl
    | intro _
    | dsimp only
    | ((fail_if_success (apply Changes.after (Changes.set_snapQ _ _))); apply Changes.after (Changes.set_held _ _)))

theorem State.putEvent_changes (s : State) (q : Nat) (r : EventRec) :
    Changes 0x100011000 s (State.putEvent s q r) := by
  unfold State.putEvent
  repeat' (with_reducible first
    | exact Changes.refl _ _
    | (show Nat.lor _ _ = _; decide)
    | apply Changes.ite
    | apply Changes.after (State.setQueue_changes ..)
    | apply Changes.after (State.hostLine_changes ..)
    | intro _)

theorem State.event_changes (s : State) (q : Nat) (r : EventRec) :
    Changes 0x100011000 s (State.event s q r) := by
  unfold State.event
  repeat' (with_reducible first
    | exact Changes.refl _ _
    | (show Nat.lor _ _ = _; decide)
    | apply Changes.ite
    | apply Changes.after (State.setQueue_changes ..)
    | apply Changes.after (State.putEvent_changes ..)
    | intro _)

theorem State.pkgEvent_changes (s : State) (etype : Nat) (err : BitVec 16) (addr : Addr) (data : List Byte) :
    Changes 0x100011000 s (State.pkgEvent s etype err addr data) := by
  unfold State.pkgEvent
  repeat' (with_reducible first
    | exact Changes.refl _ _
    | (show Nat.lor _ _ = _; decide)
    | apply Changes.after (State.event_changes ..))

theorem State.pageIrq_changes (s : State) (pg : Nat) (p : Page) :
    Changes 0x100011400 s (State.pageIrq s pg p) := by
  unfold State.pageIrq
  repeat' (with_reducible first
    | exact Changes.refl _ _
    | (show Nat.lor _ _ = _; decide)
    | apply Changes.ite
    | apply Changes.after (State.pkgEvent_changes ..)
    | apply Changes.after (State.setPage_changes ..)
    | intro _)

theorem State.raise_changes (s : State) (pg : Nat) (m : BitVec 6) :
    Changes 0x100011400 s (State.raise s pg m) := by
  unfold State.raise
  repeat' (with_reducible first
    | exact Changes.refl _ _
    | (show Nat.lor _ _ = _; decide)
    | apply Changes.after (State.pageIrq_changes ..))

theorem State.pgErr_changes (s : State) (pg : Nat) (code : BitVec 16) (off : Nat) :
    Changes 0x100011400 s (State.pgErr s pg code off) := by
  unfold State.pgErr
  repeat' (with_reducible first
    | exact Changes.refl _ _
    | (show Nat.lor _ _ = _; decide)
    | apply Changes.ite
    | apply Changes.after (State.setPage_changes ..)
    | apply Changes.after (State.pageIrq_changes ..)
    | intro _)

theorem State.count_changes (s : State) (pg i n : Nat) :
    Changes 0x100011400 s (State.count s pg i n) := by
  unfold State.count
  repeat' (with_reducible first
    | exact Changes.refl _ _
    | (show Nat.lor _ _ = _; decide)
    | apply Changes.ite
    | apply Changes.after (State.raise_changes ..)
    | apply Changes.after (State.setPage_changes ..)
    | intro _
    | split)

theorem State.clearAqEn_changes (s : State) :
    Changes 0x400 s (State.clearAqEn s) := by
  unfold State.clearAqEn
  repeat' (with_reducible first
    | exact Changes.refl _ _
    | (show Nat.lor _ _ = _; decide)
    | apply Changes.after (State.setPage_changes ..))

theorem State.reapQueue_changes (s : State) (q : Nat) :
    Changes 0x1400 s (State.reapQueue s q) := by
  unfold State.reapQueue
  repeat' (with_reducible first
    | exact Changes.refl _ _
    | (show Nat.lor _ _ = _; decide)
    | apply Changes.ite
    | apply Changes.after (State.setQueue_changes ..)
    | apply Changes.after (State.clearAqEn_changes ..)
    | intro _)

theorem State.complete_changes (s : State) (q slot : Nat) (res : Result) (err : BitVec 16) (addr : Addr) (result : List Byte) :
    Changes 0x100011400 s (State.complete s q slot res err addr result) := by
  unfold State.complete
  repeat' (with_reducible first
    | exact Changes.refl _ _
    | (show Nat.lor _ _ = _; decide)
    | apply Changes.ite
    | apply Changes.after (State.setQueue_changes ..)
    | apply Changes.after (State.hostLine_changes ..)
    | apply Changes.after (State.event_changes ..)
    | apply Changes.after (State.reapQueue_changes ..)
    | intro _
    | split)

theorem State.done_changes (s : State) (q slot : Nat) (result : List Byte) :
    Changes 0x100011400 s (State.done s q slot result) := by
  unfold State.done
  repeat' (with_reducible first
    | exact Changes.refl _ _
    | (show Nat.lor _ _ = _; decide)
    | apply Changes.after (State.complete_changes ..))

theorem State.failCmd_changes (s : State) (q slot : Nat) (f : Fail) :
    Changes 0x100011400 s (State.failCmd s q slot f) := by
  unfold State.failCmd
  repeat' (with_reducible first
    | exact Changes.refl _ _
    | (show Nat.lor _ _ = _; decide)
    | apply Changes.after (State.complete_changes ..))

theorem State.malformed_changes (s : State) (q slot : Nat) :
    Changes 0x100011400 s (State.malformed s q slot) := by
  unfold State.malformed
  repeat' (with_reducible first
    | exact Changes.refl _ _
    | (show Nat.lor _ _ = _; decide)
    | apply Changes.after (State.failCmd_changes ..))

theorem State.setCmd_changes (s : State) (q slot : Nat) (f : Cmd → Cmd) :
    Changes 0x1000 s (State.setCmd s q slot f) := by
  unfold State.setCmd
  repeat' (with_reducible first
    | exact Changes.refl _ _
    | (show Nat.lor _ _ = _; decide)
    | apply Changes.after (State.setQueue_changes ..))

theorem State.sendFrame_changes (s : State) (up : Bool) (bytes : List Byte) :
    Changes 0x100100011400 s (State.sendFrame s up bytes) := by
  unfold State.sendFrame
  repeat' (with_reducible first
    | exact Changes.refl _ _
    | (show Nat.lor _ _ = _; decide)
    | apply Changes.ite
    | apply Changes.after (State.addOut_changes ..)
    | apply Changes.after (State.count_changes ..)
    | intro _)

theorem State.fwEvent_changes (s : State) (kind : Nat) (err : BitVec 16) (version : Word64) :
    Changes 0x300100011400 s (State.fwEvent s kind err version) := by
  unfold State.fwEvent
  repeat' (with_reducible first
    | exact Changes.refl _ _
    | (show Nat.lor _ _ = _; decide)
    | apply Changes.after (State.sendFrame_changes ..)
    | apply Changes.after (State.pkgEvent_changes ..)
    | apply Changes.after (State.takeFree_changes ..))

theorem State.linkEvent_changes (s : State) (kind port : Nat) :
    Changes 0x100011000 s (State.linkEvent s kind port) := by
  unfold State.linkEvent
  repeat' (with_reducible first
    | exact Changes.refl _ _
    | (show Nat.lor _ _ = _; decide)
    | apply Changes.after (State.pkgEvent_changes ..))

theorem State.chainEvent_changes (s : State) (kind port : Nat) :
    Changes 0x100011000 s (State.chainEvent s kind port) := by
  unfold State.chainEvent
  repeat' (with_reducible first
    | exact Changes.refl _ _
    | (show Nat.lor _ _ = _; decide)
    | apply Changes.after (State.pkgEvent_changes ..))

theorem State.memEvent_changes (s : State) (kind cord line : Nat) :
    Changes 0x100011400 s (State.memEvent s kind cord line) := by
  unfold State.memEvent
  repeat' (with_reducible first
    | exact Changes.refl _ _
    | (show Nat.lor _ _ = _; decide)
    | apply Changes.after (State.pkgEvent_changes ..)
    | apply Changes.after (State.count_changes ..))

theorem State.ueFound_changes (s : State) (kind cord line : Nat) :
    Changes 0x100011400 s (State.ueFound s kind cord line) := by
  unfold State.ueFound
  repeat' (with_reducible first
    | exact Changes.refl _ _
    | (show Nat.lor _ _ = _; decide)
    | apply Changes.ite
    | apply Changes.after (State.setPage_changes ..)
    | apply Changes.after (State.memEvent_changes ..)
    | apply Changes.after (State.count_changes ..)
    | intro _)

theorem State.isoResponse_changes (s : State) (pg : Nat) :
    Changes 0x100011400 s (State.isoResponse s pg) := by
  unfold State.isoResponse
  repeat' (with_reducible first
    | exact Changes.refl _ _
    | (show Nat.lor _ _ = _; decide)
    | apply Changes.after (State.raise_changes ..)
    | apply Changes.after (State.count_changes ..))

theorem State.memFail_changes (s : State) (w : Who) (f : Fail) :
    Changes 0x500011400 s (State.memFail s w f) := by
  unfold State.memFail
  repeat' (with_reducible first
    | exact Changes.refl _ _
    | (show Nat.lor _ _ = _; decide)
    | apply Changes.ite
    | apply Changes.after (State.isoResponse_changes ..)
    | apply Changes.after (State.ueFound_changes ..)
    | apply Changes.after (State.count_changes ..)
    | intro _
    | split
    | ((fail_if_success (apply Changes.after (Changes.set_snapQ _ _))); apply Changes.after (Changes.set_ueSeen _ _)))

theorem State.beatEvent_changes (s : State) (q ctx : Nat) (tag : BitVec 32) (res : Result) (err : BitVec 16) (addr : Addr) (b : Beat)
    (data : List Byte) :
    Changes 0x100011000 s (State.beatEvent s q ctx tag res err addr b data) := by
  unfold State.beatEvent
  repeat' (with_reducible first
    | exact Changes.refl _ _
    | (show Nat.lor _ _ = _; decide)
    | apply Changes.after (State.event_changes ..))

end Sys2Proof.Machine
end

