-- ==== Sys2Proof/Laws/Trace.lean ====
section
/-! SUPPORT. What each operation of Machine/Trace.lean may change (the masks number the fields of State in order). -/

set_option Elab.async false

namespace Sys2Proof.Machine

theorem State.setTrc_changes (s : State) (die : Nat) (t : TraceUnit) :
    Changes 0x20000000000 s (State.setTrc s die t) := by
  unfold State.setTrc
  repeat' (with_reducible first
    | exact Changes.refl _ _
    | (show Nat.lor _ _ = _; decide)
    | ((fail_if_success (apply Changes.after (Changes.set_snapQ _ _))); apply Changes.after (Changes.set_trc _ _)))

theorem State.traceBuf_changes (s : State) (die : Nat) (r : List Byte) :
    Changes 0x220100011400 s (State.traceBuf s die r) := by
  unfold State.traceBuf
  repeat' (with_reducible first
    | exact Changes.refl _ _
    | (show Nat.lor _ _ = _; decide)
    | apply Changes.ite
    | apply Changes.after (State.takeFree_changes ..)
    | apply Changes.after (State.count_changes ..)
    | apply Changes.after (State.setTrc_changes ..)
    | intro _)

theorem State.trace_changes (s : State) (die rtype blk unit ctx hearth : Nat) (b : Beat) (tag : BitVec 32) (data : List Byte) :
    Changes 0x220100011400 s (State.trace s die rtype blk unit ctx hearth b tag data) := by
  unfold State.trace
  repeat' (with_reducible first
    | exact Changes.refl _ _
    | (show Nat.lor _ _ = _; decide)
    | apply Changes.ite
    | apply Changes.after (State.traceBuf_changes ..)
    | apply Changes.after (State.takeFree_changes ..)
    | intro _)

theorem State.traceEng_changes (s : State) (e die rtype blk unit ctx hearth : Nat) (b : Beat) (tag : BitVec 32) (data : List Byte) :
    Changes 0x220100011400 s (State.traceEng s e die rtype blk unit ctx hearth b tag data) := by
  unfold State.traceEng
  repeat' (with_reducible first
    | exact Changes.refl _ _
    | (show Nat.lor _ _ = _; decide)
    | apply Changes.ite
    | apply Changes.after (State.trace_changes ..)
    | intro _)

theorem State.traceFlush_changes (s : State) (die : Nat) :
    Changes 0x220000000000 s (State.traceFlush s die) := by
  unfold State.traceFlush
  repeat' (with_reducible first
    | exact Changes.refl _ _
    | (show Nat.lor _ _ = _; decide)
    | apply Changes.ite
    | apply Changes.after (State.takeFree_changes ..)
    | apply Changes.after (State.setTrc_changes ..)
    | intro _)

theorem State.traceStored_changes (s : State) (die a : Nat) (bs : List Byte) (ok wrap : Bool) (pads : Nat) :
    Changes 0x800700011400 s (State.traceStored s die a bs ok wrap pads) := by
  unfold State.traceStored
  repeat' (with_reducible first
    | exact Changes.refl _ _
    | (show Nat.lor _ _ = _; decide)
    | apply Changes.ite
    | apply Changes.after (State.count_changes ..)
    | intro _
    | (have hh := okAll.get (State.write_changes ..) ‹_ = Except.ok _›; apply Changes.after hh; clear hh)
    | split)

theorem State.traceLine_changes (s : State) (die : Nat) (ok : Bool) :
    Changes 0x820700011400 s (State.traceLine s die ok) := by
  unfold State.traceLine
  repeat' (with_reducible first
    | exact Changes.refl _ _
    | (show Nat.lor _ _ = _; decide)
    | apply Changes.ite
    | apply Changes.after (State.traceStored_changes ..)
    | apply Changes.after (State.count_changes ..)
    | apply Changes.after (State.setTrc_changes ..)
    | intro _
    | split
    | dsimp only)

theorem State.fzTrace_changes (s : State) (k action src : Nat) :
    Changes 0x220100011400 s (State.fzTrace s k action src) := by
  unfold State.fzTrace
  repeat' (with_reducible first
    | exact Changes.refl _ _
    | (show Nat.lor _ _ = _; decide)
    | apply Changes.ite
    | apply Changes.after (State.trace_changes ..)
    | apply Changes.after (State.traceFlush_changes ..)
    | apply Changes.foldl
    | intro _)

theorem State.fzEvent_changes (s : State) (k action src idx q ctx : Nat) (tag : BitVec 32) :
    Changes 0x100011000 s (State.fzEvent s k action src idx q ctx tag) := by
  unfold State.fzEvent
  repeat' (with_reducible first
    | exact Changes.refl _ _
    | (show Nat.lor _ _ = _; decide)
    | apply Changes.after (State.beatEvent_changes ..))

theorem State.fzSet_changes (s : State) (k src : Nat) (err : BitVec 16) (q ctx : Nat) (tag : BitVec 32) (idx : Nat) :
    Changes 0x260100011400 s (State.fzSet s k src err q ctx tag idx) := by
  unfold State.fzSet
  repeat' (with_reducible first
    | exact Changes.refl _ _
    | (show Nat.lor _ _ = _; decide)
    | apply Changes.ite
    | apply Changes.after (State.fzEvent_changes ..)
    | apply Changes.after (State.fzTrace_changes ..)
    | apply Changes.after (State.count_changes ..)
    | apply Changes.foldl
    | intro _
    | split
    | ((fail_if_success (apply Changes.after (Changes.set_snapQ _ _))); apply Changes.after (Changes.set_freeze _ _)))

theorem State.fzClear_changes (s : State) (k : Nat) :
    Changes 0x400 s (State.fzClear s k) := by
  unfold State.fzClear
  repeat' (with_reducible first
    | exact Changes.refl _ _
    | (show Nat.lor _ _ = _; decide)
    | ((fail_if_success (apply Changes.after (Changes.set_snapQ _ _))); apply Changes.after (Changes.set_pages _ _)))

theorem State.fzThaw_changes (s : State) (k src : Nat) (q ctx : Nat) (tag : BitVec 32) (idx : Nat) :
    Changes 0x260100011400 s (State.fzThaw s k src q ctx tag idx) := by
  unfold State.fzThaw
  repeat' (with_reducible first
    | exact Changes.refl _ _
    | (show Nat.lor _ _ = _; decide)
    | apply Changes.ite
    | apply Changes.after (State.fzEvent_changes ..)
    | apply Changes.after (State.fzTrace_changes ..)
    | intro _
    | ((fail_if_success (apply Changes.after (Changes.set_snapQ _ _))); apply Changes.after (Changes.set_freeze _ _)))

theorem State.fzError_changes (s : State) (slot : Nat) (code : BitVec 16) :
    Changes 0x260100011400 s (State.fzError s slot code) := by
  unfold State.fzError
  repeat' (with_reducible first
    | exact Changes.refl _ _
    | (show Nat.lor _ _ = _; decide)
    | apply Changes.ite
    | apply Changes.after (State.fzSet_changes ..)
    | intro _)

end Sys2Proof.Machine
end

