-- ==== Sys2Proof/Laws/Mesh.lean ====
section
/-! SUPPORT. What each operation of Machine/Mesh.lean may change (the masks number the fields of State in order). -/

set_option Elab.async false

namespace Sys2Proof.Machine

theorem State.overStack_changes (s : State) (d n : Nat) :
    Changes 0x100011400 s (State.overStack s d n) := by
  unfold State.overStack
  repeat' (with_reducible first
    | exact Changes.refl _ _
    | (show Nat.lor _ _ = _; decide)
    | apply Changes.after (State.count_changes ..))

theorem State.overMesh_changes (s : State) (l : List (Nat × Edge)) (n : Nat) :
    Changes 0x100011400 s (State.overMesh s l n) := by
  unfold State.overMesh
  repeat' (with_reducible first
    | exact Changes.refl _ _
    | (show Nat.lor _ _ = _; decide)
    | apply Changes.after (State.count_changes ..)
    | apply Changes.foldl
    | intro _)

theorem State.corrected_changes (s : State) (k : Nat) :
    Changes 0x800100011400 s (State.corrected s k) := by
  unfold State.corrected
  repeat' (with_reducible first
    | exact Changes.refl _ _
    | (show Nat.lor _ _ = _; decide)
    | apply Changes.after (State.count_changes ..)
    | split
    | dsimp only
    | ((fail_if_success (apply Changes.after (Changes.set_snapQ _ _))); apply Changes.after (Changes.set_errs _ _)))

theorem State.readRun_changes (s : State) (r : Nat × Nat) :
    Changes 0x800100011400 s (State.readRun s r) := by
  unfold State.readRun
  repeat' (with_reducible first
    | exact Changes.refl _ _
    | (show Nat.lor _ _ = _; decide)
    | apply Changes.after (State.corrected_changes ..)
    | apply Changes.foldl
    | intro _)

theorem State.fetchRun_changes (s : State) (d port : Nat) (r : Nat × Nat) :
    Changes 0x800100011400 s (State.fetchRun s d port r) := by
  unfold State.fetchRun
  repeat' (with_reducible first
    | exact Changes.refl _ _
    | (show Nat.lor _ _ = _; decide)
    | apply Changes.after (State.overStack_changes ..)
    | apply Changes.after (State.readRun_changes ..)
    | apply Changes.after (State.count_changes ..)
    | apply Changes.after (State.overMesh_changes ..)
    | split)

theorem State.sendRun_changes (s : State) (d port : Nat) (r : Nat × Nat) :
    Changes 0x100011400 s (State.sendRun s d port r) := by
  unfold State.sendRun
  repeat' (with_reducible first
    | exact Changes.refl _ _
    | (show Nat.lor _ _ = _; decide)
    | apply Changes.after (State.overStack_changes ..)
    | apply Changes.after (State.count_changes ..)
    | apply Changes.after (State.overMesh_changes ..)
    | split)

theorem State.leftDie_changes (s : State) (d q : Nat) (r : Nat × Nat) :
    Changes 0x100011400 s (State.leftDie s d q r) := by
  unfold State.leftDie
  repeat' (with_reducible first
    | exact Changes.refl _ _
    | (show Nat.lor _ _ = _; decide)
    | apply Changes.ite
    | apply Changes.after (State.count_changes ..)
    | intro _
    | split)

theorem State.moved_changes (s : State) (w : Who) (d port : Nat) (src : Option Nat) (dst n : Nat) :
    Changes 0x800100011400 s (State.moved s w d port src dst n) := by
  unfold State.moved
  repeat' (with_reducible first
    | exact Changes.refl _ _
    | (show Nat.lor _ _ = _; decide)
    | apply Changes.after (State.fetchRun_changes ..)
    | apply Changes.after (State.sendRun_changes ..)
    | apply Changes.after (State.leftDie_changes ..)
    | apply Changes.foldl
    | intro _
    | split)

theorem State.nearMoved_changes (s : State) (w : Who) (k src dst n : Nat) :
    Changes 0xa00100011400 s (State.nearMoved s w k src dst n) := by
  unfold State.nearMoved
  repeat' (with_reducible first
    | exact Changes.refl _ _
    | (show Nat.lor _ _ = _; decide)
    | apply Changes.ite
    | apply Changes.after (State.overStack_changes ..)
    | apply Changes.after (State.fetchRun_changes ..)
    | apply Changes.after (State.readRun_changes ..)
    | apply Changes.after (State.sendRun_changes ..)
    | apply Changes.after (State.count_changes ..)
    | apply Changes.foldl
    | intro _
    | ((fail_if_success (apply Changes.after (Changes.set_snapQ _ _))); apply Changes.after (Changes.set_fresh _ _ (Nat.le_add_right _ _))))

theorem State.countAtomic_changes (s : State) (w : Who) (a : Nat) :
    Changes 0x100011400 s (State.countAtomic s w a) := by
  unfold State.countAtomic
  repeat' (with_reducible first
    | exact Changes.refl _ _
    | (show Nat.lor _ _ = _; decide)
    | apply Changes.after (State.count_changes ..)
    | split)

theorem State.countFree_changes (s : State) (pg i : Nat) :
    Changes 0x200100011400 s (State.countFree s pg i) := by
  unfold State.countFree
  repeat' (with_reducible first
    | exact Changes.refl _ _
    | (show Nat.lor _ _ = _; decide)
    | apply Changes.after (State.count_changes ..)
    | ((fail_if_success (apply Changes.after (Changes.set_snapQ _ _))); apply Changes.after (Changes.set_fresh _ _ (Nat.le_add_right _ _))))

theorem State.operandsMoved_changes (s : State) (c : Ctx) :
    Changes 0xa00100011400 s (State.operandsMoved s c) := by
  unfold State.operandsMoved
  repeat' (with_reducible first
    | exact Changes.refl _ _
    | (show Nat.lor _ _ = _; decide)
    | apply Changes.ite
    | apply Changes.after (State.countFree_changes ..)
    | apply Changes.after (State.corrected_changes ..)
    | apply Changes.foldl
    | intro _
    | ((fail_if_success (apply Changes.after (Changes.set_snapQ _ _))); apply Changes.after (Changes.set_fresh _ _ (Nat.le_add_right _ _))))

end Sys2Proof.Machine
end

