-- ==== Sys2Proof/Laws/Draught.lean ====
section
/-! SUPPORT. What each operation of Machine/Draught.lean may change (the masks number the fields of State in order). -/

set_option Elab.async false

namespace Sys2Proof.Machine

theorem State.setDrt_changes (s : State) (d : Draught) :
    Changes 0x8000000 s (State.setDrt s d) := by
  unfold State.setDrt
  repeat' (with_reducible first
    | exact Changes.refl _ _
    | (show Nat.lor _ _ = _; decide)
    | ((fail_if_success (apply Changes.after (Changes.set_snapQ _ _))); apply Changes.after (Changes.set_drt _ _)))

theorem State.drtEvent_changes (s : State) (kind : Nat) :
    Changes 0x100011000 s (State.drtEvent s kind) := by
  unfold State.drtEvent
  repeat' (with_reducible first
    | exact Changes.refl _ _
    | (show Nat.lor _ _ = _; decide)
    | apply Changes.after (State.pkgEvent_changes ..))

theorem State.capDieAt_changes (s : State) (pc dc d : Nat) :
    Changes 0x8000000 s (State.capDieAt s pc dc d) := by
  unfold State.capDieAt
  repeat' (with_reducible first
    | exact Changes.refl _ _
    | (show Nat.lor _ _ = _; decide)
    | apply Changes.after (State.setDrt_changes ..))

theorem State.capDie_changes (s : State) (d : Nat) :
    Changes 0x8000000 s (State.capDie s d) := by
  unfold State.capDie
  repeat' (with_reducible first
    | exact Changes.refl _ _
    | (show Nat.lor _ _ = _; decide)
    | apply Changes.after (State.capDieAt_changes ..))

theorem State.reclaim_changes (s : State) :
    Changes 0x108011400 s (State.reclaim s) := by
  unfold State.reclaim
  repeat' (with_reducible first
    | exact Changes.refl _ _
    | (show Nat.lor _ _ = _; decide)
    | apply Changes.ite
    | apply Changes.after (State.capDieAt_changes ..)
    | apply Changes.after (State.count_changes ..)
    | apply Changes.foldl
    | intro _)

theorem State.returnCredits_changes (s : State) (u n : Nat) :
    Changes 0x8000000 s (State.returnCredits s u n) := by
  unfold State.returnCredits
  repeat' (with_reducible first
    | exact Changes.refl _ _
    | (show Nat.lor _ _ = _; decide)
    | apply Changes.ite
    | apply Changes.after (State.setDrt_changes ..)
    | apply Changes.after (State.capDie_changes ..)
    | intro _
    | split)

theorem State.grantChunk_changes (s : State) (d n : Nat) :
    Changes 0x220108011400 s (State.grantChunk s d n) := by
  unfold State.grantChunk
  repeat' (with_reducible first
    | exact Changes.refl _ _
    | (show Nat.lor _ _ = _; decide)
    | apply Changes.after (State.trace_changes ..)
    | apply Changes.after (State.setDrt_changes ..)
    | apply Changes.after (State.count_changes ..))

theorem State.serveDraught_changes (fuel : Nat) (s : State) :
    Changes 0x220108011400 s (State.serveDraught fuel s) := by
  fun_induction State.serveDraught fuel s
  all_goals (repeat' (with_reducible first
    | exact Changes.refl _ _
    | (show Nat.lor _ _ = _; decide)
    | apply Changes.after (State.grantChunk_changes ..)
    | apply Changes.after (State.setDrt_changes ..)
    | apply Changes.after ‹Changes _ _ _›))

theorem State.endSurge_changes (s : State) :
    Changes 0x108011400 s (State.endSurge s) := by
  unfold State.endSurge
  repeat' (with_reducible first
    | exact Changes.refl _ _
    | (show Nat.lor _ _ = _; decide)
    | apply Changes.ite
    | apply Changes.after (State.reclaim_changes ..)
    | apply Changes.after (State.drtEvent_changes ..)
    | apply Changes.after (State.setDrt_changes ..)
    | apply Changes.after (State.count_changes ..)
    | intro _)

theorem State.ledgerFell_changes (s : State) :
    Changes 0x220108011400 s (State.ledgerFell s) := by
  unfold State.ledgerFell
  repeat' (with_reducible first
    | exact Changes.refl _ _
    | (show Nat.lor _ _ = _; decide)
    | apply Changes.ite
    | apply Changes.after (State.serveDraught_changes ..)
    | apply Changes.after (State.setDrt_changes ..)
    | apply Changes.after (State.endSurge_changes ..)
    | intro _)

theorem State.serveOrSurge_changes (s : State) :
    Changes 0x220108011400 s (State.serveOrSurge s) := by
  unfold State.serveOrSurge
  repeat' (with_reducible first
    | exact Changes.refl _ _
    | (show Nat.lor _ _ = _; decide)
    | apply Changes.ite
    | apply Changes.after (State.serveDraught_changes ..)
    | apply Changes.after (State.reclaim_changes ..)
    | apply Changes.after (State.setDrt_changes ..)
    | apply Changes.after (State.count_changes ..)
    | intro _)

theorem State.setBudget_changes (s : State) (v : Nat) :
    Changes 0x220108011400 s (State.setBudget s v) := by
  unfold State.setBudget
  repeat' (with_reducible first
    | exact Changes.refl _ _
    | (show Nat.lor _ _ = _; decide)
    | apply Changes.ite
    | apply Changes.after (State.reclaim_changes ..)
    | apply Changes.after (State.setDrt_changes ..)
    | apply Changes.after (State.ledgerFell_changes ..)
    | apply Changes.after (State.endSurge_changes ..)
    | intro _)

theorem State.setSurge_changes (s : State) (w : Nat) :
    Changes 0x220108011400 s (State.setSurge s w) := by
  unfold State.setSurge
  repeat' (with_reducible first
    | exact Changes.refl _ _
    | (show Nat.lor _ _ = _; decide)
    | apply Changes.ite
    | apply Changes.after (State.serveOrSurge_changes ..)
    | apply Changes.after (State.setDrt_changes ..)
    | intro _)

theorem State.setPrsv_changes (s : State) (k w : Nat) :
    Changes 0x8000400 s (State.setPrsv s k w) := by
  unfold State.setPrsv
  repeat' (with_reducible first
    | exact Changes.refl _ _
    | (show Nat.lor _ _ = _; decide)
    | apply Changes.ite
    | apply Changes.after (State.setDrt_changes ..)
    | apply Changes.after (State.setPage_changes ..)
    | intro _)

theorem execChunkGrant_changes (die : Nat) (s : State) :
    nextAll (Changes 0x8000000 s) (execChunkGrant die s) := by
  unfold execChunkGrant
  repeat' (with_reducible first
    | exact Changes.refl _ _
    | (show Nat.lor _ _ = _; decide)
    | apply nextAll.next
    | apply Changes.after (State.setDrt_changes ..)
    | apply Changes.after (State.capDie_changes ..))

theorem execCreditReturn_changes (die : Nat) (s : State) :
    nextAll (Changes 0x220108011400 s) (execCreditReturn die s) := by
  unfold execCreditReturn
  repeat' (with_reducible first
    | exact Changes.refl _ _
    | (show Nat.lor _ _ = _; decide)
    | apply nextAll.next
    | apply nextAll.ite
    | apply Changes.after (State.isoResponse_changes ..)
    | apply Changes.after (State.setDrt_changes ..)
    | apply Changes.after (State.ledgerFell_changes ..)
    | intro _)

theorem execSurgeEnd_changes (s : State) :
    nextAll (Changes 0x220108011400 s) (execSurgeEnd s) := by
  unfold execSurgeEnd
  repeat' (with_reducible first
    | exact Changes.refl _ _
    | (show Nat.lor _ _ = _; decide)
    | apply nextAll.next
    | apply nextAll.ite
    | apply Changes.after (State.serveDraught_changes ..)
    | apply Changes.after (State.endSurge_changes ..)
    | intro _)

theorem execRecoveryEnd_changes (s : State) :
    nextAll (Changes 0x220108011400 s) (execRecoveryEnd s) := by
  unfold execRecoveryEnd
  repeat' (with_reducible first
    | exact Changes.refl _ _
    | (show Nat.lor _ _ = _; decide)
    | apply nextAll.next
    | apply Changes.ite
    | apply Changes.after (State.serveOrSurge_changes ..)
    | apply Changes.after (State.setDrt_changes ..)
    | intro _)

theorem execSensorSample_changes (draw : BitVec 20) (s : State) :
    nextAll (Changes 0x108011400 s) (execSensorSample draw s) := by
  unfold execSensorSample
  repeat' (with_reducible first
    | exact Changes.refl _ _
    | (show Nat.lor _ _ = _; decide)
    | apply nextAll.next
    | apply nextAll.ite
    | apply Changes.ite
    | apply Changes.after (State.drtEvent_changes ..)
    | apply Changes.after (State.setDrt_changes ..)
    | apply Changes.after (State.count_changes ..)
    | apply Changes.after (State.endSurge_changes ..)
    | intro _)

theorem execAclkHalveEnd_changes (s : State) :
    nextAll (Changes 0x8000000 s) (execAclkHalveEnd s) := by
  unfold execAclkHalveEnd
  repeat' (with_reducible first
    | exact Changes.refl _ _
    | (show Nat.lor _ _ = _; decide)
    | apply nextAll.next
    | apply Changes.after (State.setDrt_changes ..))

theorem execSensorLimitWidenEnd_changes (s : State) :
    nextAll (Changes 0x8000000 s) (execSensorLimitWidenEnd s) := by
  unfold execSensorLimitWidenEnd
  repeat' (with_reducible first
    | exact Changes.refl _ _
    | (show Nat.lor _ _ = _; decide)
    | apply nextAll.next
    | apply Changes.after (State.setDrt_changes ..))

end Sys2Proof.Machine
end

