-- ==== Sys2Proof/Laws/Sync.lean ====
section
/-! SUPPORT. What each operation of Machine/Sync.lean may change (the masks number the fields of State in order). -/

set_option Elab.async false

namespace Sys2Proof.Machine

theorem State.setEngine_changes (s : State) (u : Nat) (e : Engine) :
    Changes 0x800000 s (State.setEngine s u e) := by
  unfold State.setEngine
  repeat' (with_reducible first
    | exact Changes.refl _ _
    | (show Nat.lor _ _ = _; decide)
    | ((fail_if_success (apply Changes.after (Changes.set_snapQ _ _))); apply Changes.after (Changes.set_engines _ _)))

theorem State.setEntry_changes (s : State) (u i : Nat) (f : Entry → Entry) :
    Changes 0x800000 s (State.setEntry s u i f) := by
  unfold State.setEntry
  repeat' (with_reducible first
    | exact Changes.refl _ _
    | (show Nat.lor _ _ = _; decide)
    | apply Changes.after (State.setEngine_changes ..))

theorem State.setCore_changes (s : State) (c : Nat) (x : Core) :
    Changes 0x400000 s (State.setCore s c x) := by
  unfold State.setCore
  repeat' (with_reducible first
    | exact Changes.refl _ _
    | (show Nat.lor _ _ = _; decide)
    | ((fail_if_success (apply Changes.after (Changes.set_snapQ _ _))); apply Changes.after (Changes.set_cores _ _)))

theorem State.setSync_changes (s : State) (r : SyncRef) (o : SyncObj) :
    Changes 0x140000 s (State.setSync s r o) := by
  unfold State.setSync
  repeat' (with_reducible first
    | exact Changes.refl _ _
    | (show Nat.lor _ _ = _; decide)
    | split
    | ((fail_if_success (apply Changes.after (Changes.set_snapQ _ _))); apply Changes.after (Changes.set_lsync _ _))
    | ((fail_if_success (apply Changes.after (Changes.set_snapQ _ _))); apply Changes.after (Changes.set_psync _ _)))

theorem State.signal_changes (s : State) (r : SyncRef) (rst : Bool) (add : BitVec 32) :
    Changes 0x140000 s (State.signal s r rst add) := by
  unfold State.signal
  repeat' (with_reducible first
    | exact Changes.refl _ _
    | (show Nat.lor _ _ = _; decide)
    | apply Changes.after (State.setSync_changes ..))

theorem State.signalFrom_changes (s : State) (c : Ctx) (g n : Nat) (rst : Bool) (add : BitVec 32) :
    Changes 0x100151400 s (State.signalFrom s c g n rst add) := by
  unfold State.signalFrom
  repeat' (with_reducible first
    | exact Changes.refl _ _
    | (show Nat.lor _ _ = _; decide)
    | apply Changes.after (State.signal_changes ..)
    | apply Changes.after (State.count_changes ..)
    | split)

theorem State.snapSync_changes (s : State) (c : Ctx) :
    Changes 0x280000 s (State.snapSync s c) := by
  unfold State.snapSync
  repeat' (with_reducible first
    | exact Changes.refl _ _
    | (show Nat.lor _ _ = _; decide)
    | dsimp only
    | ((fail_if_success (apply Changes.after (Changes.set_snapQ _ _))); apply Changes.after (Changes.set_psnap_lsnap _ _ _)))

theorem State.restoreSync_changes (s : State) (c : Ctx) :
    Changes 0x140000 s (State.restoreSync s c) := by
  unfold State.restoreSync
  repeat' (with_reducible first
    | exact Changes.refl _ _
    | (show Nat.lor _ _ = _; decide)
    | dsimp only
    | ((fail_if_success (apply Changes.after (Changes.set_snapQ _ _))); apply Changes.after (Changes.set_psync_lsync _ _ _)))

theorem State.zeroSync_changes (s : State) (c : Ctx) :
    Changes 0x3c0000 s (State.zeroSync s c) := by
  unfold State.zeroSync
  repeat' (with_reducible first
    | exact Changes.refl _ _
    | (show Nat.lor _ _ = _; decide)
    | dsimp only
    | ((fail_if_success (apply Changes.after (Changes.set_snapQ _ _))); apply Changes.after (Changes.set_psync_psnap_lsync_lsnap _ _ _ _ _)))

theorem State.copyShadows_changes (s : State) (c : Ctx) :
    Changes 0x4000000 s (State.copyShadows s c) := by
  unfold State.copyShadows
  repeat' (with_reducible first
    | exact Changes.refl _ _
    | (show Nat.lor _ _ = _; decide)
    | dsimp only
    | ((fail_if_success (apply Changes.after (Changes.set_snapQ _ _))); apply Changes.after (Changes.set_shadows _ _)))

theorem State.restoreLanes_changes (s : State) (c : Ctx) :
    Changes 0x2000000 s (State.restoreLanes s c) := by
  unfold State.restoreLanes
  repeat' (with_reducible first
    | exact Changes.refl _ _
    | (show Nat.lor _ _ = _; decide)
    | dsimp only
    | ((fail_if_success (apply Changes.after (Changes.set_snapQ _ _))); apply Changes.after (Changes.set_lanes _ _)))

theorem State.deriveLanes_changes (s : State) (c : Ctx) :
    Changes 0x6000000 s (State.deriveLanes s c) := by
  unfold State.deriveLanes
  repeat' (with_reducible first
    | exact Changes.refl _ _
    | (show Nat.lor _ _ = _; decide)
    | dsimp only
    | ((fail_if_success (apply Changes.after (Changes.set_snapQ _ _))); apply Changes.after (Changes.set_lanes_shadows _ _ _)))

end Sys2Proof.Machine
end

