-- ==== Sys2Proof/Laws/Rand.lean ====
section
/-! SUPPORT. What each operation of Machine/Rand.lean may change (the masks number the fields of State in order). -/

set_option Elab.async false

namespace Sys2Proof.Machine

theorem State.laneDraw_changes (s : State) (c : Ctx) (gl : Nat) :
    Changes 0x2000000 s (State.laneDraw s c gl).2 := by
  unfold State.laneDraw
  repeat' (with_reducible first
    | exact Changes.refl _ _
    | (show Nat.lor _ _ = _; decide)
    | dsimp only
    | ((fail_if_success (apply Changes.after (Changes.set_snapQ _ _))); apply Changes.after (Changes.set_lanes _ _)))

theorem State.drawGroups_changes (s : State) (c : Ctx) (g : Nat) (n0 : _) :
    Changes 0x2000000 s (State.drawGroups s c g n0).2 := by
  fun_induction State.drawGroups s c g n0
  all_goals (repeat' (with_reducible first
    | exact Changes.refl _ _
    | (show Nat.lor _ _ = _; decide)
    | apply Changes.after (State.laneDraw_changes ..)
    | apply Changes.after ‹Changes _ _ _›))

theorem State.serveWords_changes (s : State) (c : Ctx) (g : Nat) (wide : Bool) (es : List Nat) :
    Changes 0x102011400 s (State.serveWords s c g wide es).2 := by
  unfold State.serveWords
  repeat' (with_reducible first
    | exact Changes.refl _ _
    | (show Nat.lor _ _ = _; decide)
    | apply Changes.after (State.drawGroups_changes ..)
    | apply Changes.after (State.count_changes ..)
    | split)

end Sys2Proof.Machine
end

