-- ==== Sys2Proof/Laws/Window.lean ====
section
/-! SUPPORT. What each operation of Machine/Window.lean may change (the masks number the fields of State in order). -/

set_option Elab.async false

namespace Sys2Proof.Machine

theorem State.parityFound_changes (s : State) (pg : Nat) :
    Changes 0x100011400 s (State.parityFound s pg) := by
  unfold State.parityFound
  repeat' (with_reducible first
    | exact Changes.refl _ _
    | (show Nat.lor _ _ = _; decide)
    | apply Changes.ite
    | apply Changes.after (State.pageIrq_changes ..)
    | intro _)

theorem State.setProg_changes (s : State) (u i : Nat) (f : Progress → Progress) :
    Changes 0x800000 s (State.setProg s u i f) := by
  unfold State.setProg
  repeat' (with_reducible first
    | exact Changes.refl _ _
    | (show Nat.lor _ _ = _; decide)
    | apply Changes.after (State.setEntry_changes ..))

theorem State.endEntry_changes (s : State) (u i : Nat) (st : Status) :
    Changes 0x800000 s (State.endEntry s u i st) := by
  unfold State.endEntry
  repeat' (with_reducible first
    | exact Changes.refl _ _
    | (show Nat.lor _ _ = _; decide)
    | apply Changes.after (State.setEntry_changes ..))

theorem State.traceEntry_changes (s : State) (x : EngUnit) (e : Entry) (rtype : Nat) (data : List Byte) :
    Changes 0x220100011400 s (State.traceEntry s x e rtype data) := by
  unfold State.traceEntry
  repeat' (with_reducible first
    | exact Changes.refl _ _
    | (show Nat.lor _ _ = _; decide)
    | apply Changes.after (State.traceEng_changes ..))

theorem State.startEntry_changes (s : State) (u i : Nat) (x : EngUnit) (e : Entry) :
    Changes 0x220100811400 s (State.startEntry s u i x e) := by
  unfold State.startEntry
  repeat' (with_reducible first
    | exact Changes.refl _ _
    | (show Nat.lor _ _ = _; decide)
    | apply Changes.after (State.traceEntry_changes ..)
    | apply Changes.after (State.setEntry_changes ..))

/-- A descriptor's start changes what its run changes, beside its own record (R280). -/
theorem State.startEngine_changes {m : Nat} (s : State) (u eng op : Nat) (words : Ctx → Entry → List Nat)
    (run : EngUnit → Ctx → Nat → Entry → State → Option State)
    (hr : ∀ x c i e t, someAll (Changes m t) (run x c i e t)) (hm : Nat.lor 0x220100811400 m = m := by decide) :
    Changes m s (s.startEngine u eng op words run) := by
  have base : ∀ t, Changes 0x220100811400 s t → Changes m s t := fun t h => h.widen hm
  unfold State.startEngine
  split
  · split
    · exact Changes.refl _ _
    · split
      · split
        · refine base _ ?_
          split
          · exact (State.isoResponse_changes s u).widen.andThen (State.endEntry_changes ..)
          · exact (State.parityFound_changes s u).widen.andThen (State.endEntry_changes ..)
        · split
          · exact base _ (State.endEntry_changes ..).widen
          · split
            · dsimp only
              split
              · exact base _ ((State.startEntry_changes ..).widen.andThen (State.endEntry_changes ..))
              · split
                · split
                  · next h =>
                    exact (base _ (State.startEntry_changes ..).widen).andThen ((hr _ _ _ _ _).get h) (Nat.or_self m)
                  · exact Changes.refl _ _
                · exact Changes.refl _ _
            · exact Changes.refl _ _
      · exact Changes.refl _ _
  · exact Changes.refl _ _

theorem State.drawCredits_changes (s : State) (x : EngUnit) (n : Nat) :
    Changes 0x8000000 s (State.drawCredits s x n) := by
  unfold State.drawCredits
  repeat' (with_reducible first
    | exact Changes.refl _ _
    | (show Nat.lor _ _ = _; decide)
    | apply Changes.ite
    | apply Changes.after (State.setDrt_changes ..)
    | intro _)

theorem State.returnPass_changes (s : State) (u i group : Nat) :
    Changes 0x8800000 s (State.returnPass s u i group) := by
  unfold State.returnPass
  repeat' (with_reducible first
    | exact Changes.refl _ _
    | (show Nat.lor _ _ = _; decide)
    | apply Changes.ite
    | apply Changes.after (State.returnCredits_changes ..)
    | apply Changes.after (State.setEntry_changes ..)
    | intro _
    | split)

theorem State.leaveWindow_changes (s : State) (u i : Nat) (e : Entry) (st : Status) :
    Changes 0xa60108811400 s (State.leaveWindow s u i e st) := by
  unfold State.leaveWindow
  repeat' (with_reducible first
    | exact Changes.refl _ _
    | (show Nat.lor _ _ = _; decide)
    | apply Changes.ite
    | apply Changes.after (State.operandsMoved_changes ..)
    | apply Changes.after (State.traceEntry_changes ..)
    | apply Changes.after (State.returnCredits_changes ..)
    | apply Changes.after (State.setEngine_changes ..)
    | apply Changes.after (State.takeFree_changes ..)
    | apply Changes.after (State.count_changes ..)
    | apply Changes.after (State.event_changes ..)
    | apply Changes.after (State.fzError_changes ..)
    | intro _
    | split)

end Sys2Proof.Machine
end

