-- ==== Sys2Proof/Laws/Store.lean ====
section
/-! SUPPORT. What each operation of Machine/Store.lean may change (the masks number the fields of State in order). -/

set_option Elab.async false

namespace Sys2Proof.Machine

theorem State.settleDrain_changes (s : State) (g : Nat) :
    Changes 0x400000000000 s (State.settleDrain s g) := by
  unfold State.settleDrain
  repeat' (with_reducible first
    | exact Changes.refl _ _
    | (show Nat.lor _ _ = _; decide)
    | apply Changes.ite
    | intro _
    | ((fail_if_success (apply Changes.after (Changes.set_snapQ _ _))); apply Changes.after (Changes.set_drains _ _)))

theorem State.putStore_changes (s : State) (g st : Nat) (x : Store) :
    Changes 0x400001000000 s (State.putStore s g st x) := by
  unfold State.putStore
  repeat' (with_reducible first
    | exact Changes.refl _ _
    | (show Nat.lor _ _ = _; decide)
    | apply Changes.after (State.settleDrain_changes ..)
    | ((fail_if_success (apply Changes.after (Changes.set_snapQ _ _))); apply Changes.after (Changes.set_stores _ _)))

theorem State.openHandle_changes (s : State) (g : Nat) (h : Handle) (hv : BitVec 24) :
    Changes 0x400001000000 s (State.openHandle s g h hv) := by
  unfold State.openHandle
  repeat' (with_reducible first
    | exact Changes.refl _ _
    | (show Nat.lor _ _ = _; decide)
    | apply Changes.after (State.putStore_changes ..))

theorem State.freeHandle_changes (s : State) (g : Nat) (h : Handle) :
    Changes 0x400001000000 s (State.freeHandle s g h) := by
  unfold State.freeHandle
  repeat' (with_reducible first
    | exact Changes.refl _ _
    | (show Nat.lor _ _ = _; decide)
    | apply Changes.after (State.putStore_changes ..))

theorem State.setTile_changes (s : State) (g st : Nat) (cls i : Nat) (f : Tile → Tile) :
    Changes 0x400001000000 s (State.setTile s g st cls i f) := by
  unfold State.setTile
  repeat' (with_reducible first
    | exact Changes.refl _ _
    | (show Nat.lor _ _ = _; decide)
    | apply Changes.after (State.putStore_changes ..)
    | split
    | dsimp only)

theorem State.evict_changes (s : State) (c : Ctx) (g st i : Nat) (t : Tile) :
    okAll (Changes 0xc00701011400 s) (State.evict s c g st i t) := by
  unfold State.evict
  repeat' (with_reducible first
    | exact Changes.refl _ _
    | (show Nat.lor _ _ = _; decide)
    | exact okAll.error
    | apply okAll.ok
    | apply Changes.after (State.setTile_changes ..)
    | apply Changes.after (State.count_changes ..)
    | (have hh := okAll.get (State.write_changes ..) ‹_ = Except.ok _›; apply Changes.after hh; clear hh)
    | split)

theorem State.evictAll_changes (s : State) (c : Ctx) (g st : Nat) (n0 : _) :
    okAll (Changes 0xc00701011400 s) (State.evictAll s c g st n0) := by
  fun_induction State.evictAll s c g st n0
  all_goals (repeat' (with_reducible first
    | exact Changes.refl _ _
    | (show Nat.lor _ _ = _; decide)
    | exact okAll.error
    | apply okAll.ok
    | apply okAll.mono ‹okAll _ _›
    | intro _
    | apply Changes.after ‹Changes _ _ _›
    | (have hh := okAll.get (State.evict_changes ..) ‹_ = Except.ok _›; apply Changes.after hh; clear hh)))

theorem State.reloadAll_changes (s : State) (g st : Nat) (n0 : _) :
    Changes 0x400001000000 s (State.reloadAll s g st n0) := by
  fun_induction State.reloadAll s g st n0
  all_goals (repeat' (with_reducible first
    | exact Changes.refl _ _
    | (show Nat.lor _ _ = _; decide)
    | apply Changes.after (State.setTile_changes ..)
    | apply Changes.after ‹Changes _ _ _›))

theorem State.repartition_changes (s : State) (g st cls : Nat) :
    Changes 0x400101011400 s (State.repartition s g st cls) := by
  unfold State.repartition
  repeat' (with_reducible first
    | exact Changes.refl _ _
    | (show Nat.lor _ _ = _; decide)
    | apply Changes.after (State.putStore_changes ..)
    | apply Changes.after (State.count_changes ..))

theorem State.classChange_changes (s : State) (c : Ctx) (g st cls : Nat) :
    someAll (okAll (Changes 0xc00701011400 s)) (State.classChange s c g st cls) := by
  unfold State.classChange
  repeat' (with_reducible first
    | exact Changes.refl _ _
    | (show Nat.lor _ _ = _; decide)
    | exact okAll.error
    | apply okAll.ok
    | exact someAll.none
    | apply someAll.some
    | apply someAll.ite
    | apply Changes.after (State.repartition_changes ..)
    | apply Changes.after (State.reloadAll_changes ..)
    | intro _
    | (have hh := okAll.get (State.evictAll_changes ..) ‹_ = Except.ok _›; apply Changes.after hh; clear hh)
    | split)

theorem State.freeTile_changes (s : State) (g st cls i : Nat) :
    Changes 0x600001000000 s (State.freeTile s g st cls i) := by
  unfold State.freeTile
  repeat' (with_reducible first
    | exact Changes.refl _ _
    | (show Nat.lor _ _ = _; decide)
    | apply Changes.after (State.setTile_changes ..)
    | ((fail_if_success (apply Changes.after (Changes.set_snapQ _ _))); apply Changes.after (Changes.set_fresh _ _ (Nat.le_add_right _ _))))

theorem State.freeHandleTiles_changes (s : State) (g : Nat) (h : Handle) :
    Changes 0x600001000000 s (State.freeHandleTiles s g h) := by
  unfold State.freeHandleTiles
  repeat' (with_reducible first
    | exact Changes.refl _ _
    | (show Nat.lor _ _ = _; decide)
    | apply Changes.after (State.freeTile_changes ..)
    | apply Changes.foldl
    | intro _)

theorem State.clearStores_changes (s : State) (c : Ctx) :
    Changes 0x400001000000 s (State.clearStores s c).1 := by
  unfold State.clearStores
  repeat' (with_reducible first
    | exact Changes.refl _ _
    | (show Nat.lor _ _ = _; decide)
    | apply Changes.after (State.putStore_changes ..)
    | apply Changes.foldl
    | intro _)

theorem execStoreClassChange_changes (u : Nat) (s : State) :
    nextAll (Changes 0xc00701811400 s) (execStoreClassChange u s) := by
  unfold execStoreClassChange
  repeat' (with_reducible first
    | (have hh := okAll.get (someAll.get (State.classChange_changes ..) ‹_ = some (Except.ok _)›) rfl; apply Changes.after hh; clear hh)
    | exact Changes.refl _ _
    | (show Nat.lor _ _ = _; decide)
    | apply nextAll.next
    | apply nextAll.ite
    | apply Changes.after (State.endEntry_changes ..)
    | intro _
    | split)

end Sys2Proof.Machine
end

