-- ==== Sys2Proof/Laws/Stats.lean ====
section
/-! SUPPORT. What each operation of Machine/Stats.lean may change (the masks number the fields of State in order). -/

set_option Elab.async false

namespace Sys2Proof.Machine

theorem State.addContrib_changes (s : State) (c : Ctx) (step : BitVec 40) (k : Contrib) :
    okAll (Changes 0x800700011400 s) (State.addContrib s c step k) := by
  unfold State.addContrib
  repeat' (with_reducible first
    | exact Changes.refl _ _
    | (show Nat.lor _ _ = _; decide)
    | exact okAll.error
    | apply okAll.ok
    | apply okAll.ite
    | apply Changes.after (State.countAtomic_changes ..)
    | apply okAll.mono (State.write_changes ..)
    | intro _
    | apply Changes.after ‹Changes _ _ _›
    | (have hh := okAll.get (State.write_changes ..) ‹_ = Except.ok _›; apply Changes.after hh; clear hh)
    | split)

theorem State.clearHalf_changes (s : State) (c : Ctx) (h : Nat) : okAll (Changes 0x800700000000 s) (s.clearHalf c h) := by
  unfold State.clearHalf
  apply okAll.bind (Q := Changes 0x800700000000 s)
  · apply okAll.foldlM
    · exact Changes.refl _ _
    · intro b a hb
      apply okAll.mono (State.write_changes ..)
      intro x _ hx
      exact Changes.after hx hb (by decide)
  · intro a _ ha
    apply okAll.mono (State.write_changes ..)
    intro x _ hx
    exact Changes.after hx ha (by decide)

theorem State.finEntries_changes (s : State) (c : Ctx) (step : BitVec 40) (n0 : _) :
    okAll (Changes 0x800700000000 s) (State.finEntries s c step n0) := by
  fun_induction State.finEntries s c step n0
  all_goals (repeat' (with_reducible first
    | exact Changes.refl _ _
    | assumption
    | (show Nat.lor _ _ = _; decide)
    | exact okAll.error
    | apply okAll.ok
    | apply okAll.mono ‹okAll _ _›
    | intro _
    | apply Changes.after ‹Changes _ _ _›
    | (have hh := okAll.get (State.write_changes ..) ‹_ = Except.ok _›; apply Changes.after hh; clear hh)))

theorem State.stepRecord_changes (s : State) (c : Ctx) (r : StepRec) (fin : Nat) (ecode : BitVec 16) :
    okAll (Changes 0x800700000000 s) (State.stepRecord s c r fin ecode) := by
  unfold State.stepRecord
  repeat' (with_reducible first
    | assumption
    | apply okAll.mono (State.write_changes ..)
    | intro _)

theorem State.mapTrackers_changes (s : State) (c : Ctx) (f : List Byte → Option (List Byte)) (n0 : _) :
    okAll (Changes 0x800700000000 s) (State.mapTrackers s c f n0) := by
  fun_induction State.mapTrackers s c f n0
  all_goals (repeat' (with_reducible first
    | exact Changes.refl _ _
    | assumption
    | (show Nat.lor _ _ = _; decide)
    | exact okAll.error
    | apply okAll.ok
    | apply okAll.mono ‹okAll _ _›
    | intro _
    | apply Changes.after ‹Changes _ _ _›
    | (have hh := okAll.get (State.write_changes ..) ‹_ = Except.ok _›; apply Changes.after hh; clear hh)))

theorem State.clearOverrides_changes (s : State) (c : Ctx) :
    Changes 0x400 s (State.clearOverrides s c) := by
  unfold State.clearOverrides
  repeat' (with_reducible first
    | exact Changes.refl _ _
    | (show Nat.lor _ _ = _; decide)
    | apply Changes.after (State.setPage_changes ..)
    | apply Changes.foldl
    | intro _)

theorem State.writeOverrides_changes (s : State) (c : Ctx) (o : Overrides) :
    Changes 0x400 s (State.writeOverrides s c o) := by
  unfold State.writeOverrides
  repeat' (with_reducible first
    | exact Changes.refl _ _
    | (show Nat.lor _ _ = _; decide)
    | apply Changes.after (State.clearOverrides_changes ..)
    | apply Changes.after (State.setPage_changes ..)
    | apply Changes.foldl
    | intro _)

end Sys2Proof.Machine
end

