-- ==== Sys2Proof/Laws/Access.lean ====
section
/-! SUPPORT. What each operation of Machine/Access.lean may change (the masks number the fields of State in order). -/

set_option Elab.async false

namespace Sys2Proof.Machine

theorem State.wr_changes (s : State) (c : Ctx) (a : Nat) (bs : List Byte) :
    okAll (Changes 0x800700000000 s) (State.wr s c a bs) := by
  unfold State.wr
  repeat' (with_reducible first
    | assumption
    | apply okAll.mono (State.write_changes ..)
    | intro _)

theorem State.putW_changes (s : State) (c : Ctx) (f : WFmt) (base i : Nat) (codes : List Nat) :
    okAll (Changes 0x800700000000 s) (State.putW s c f base i codes) := by
  unfold State.putW
  repeat' (with_reducible first
    | assumption
    | exact okAll.error
    | apply okAll.ite
    | apply okAll.mono (State.wr_changes ..)
    | intro _
    | split)

theorem State.refuse_changes (s : State) (u i : Nat) (e : Entry) :
    someAll (Changes 0x800000 s) (State.refuse s u i e) := by
  unfold State.refuse
  repeat' (with_reducible first
    | exact Changes.refl _ _
    | (show Nat.lor _ _ = _; decide)
    | apply someAll.some
    | apply Changes.after (State.endEntry_changes ..))

end Sys2Proof.Machine
end

