-- ==== Sys2Proof/Laws/Fta.lean ====
section
/-! SUPPORT. What each operation of Machine/Fta.lean may change (the masks number the fields of State in order). -/

set_option Elab.async false

namespace Sys2Proof.Machine

theorem State.ftaStart_changes (s : State) (x : EngUnit) (i : Nat) (e : Entry) (u : Nat) :
    someAll (Changes 0x400001800000 s) (State.ftaStart s x i e u) := by
  unfold State.ftaStart
  repeat' (with_reducible first
    | exact Changes.refl _ _
    | (show Nat.lor _ _ = _; decide)
    | exact someAll.none
    | apply someAll.some
    | apply someAll.ite
    | apply Changes.after (State.openHandle_changes ..)
    | apply Changes.after (State.setProg_changes ..)
    | apply someAll.mono (State.refuse_changes ..)
    | intro _
    | apply Changes.after ‹Changes _ _ _›)

theorem State.ftaCount_changes (s : State) (c : Ctx) (u i : Nat) (e : Entry) (planes : List (List Nat)) (upto : Nat) :
    Changes 0x100811400 s (State.ftaCount s c u i e planes upto) := by
  unfold State.ftaCount
  repeat' (with_reducible first
    | exact Changes.refl _ _
    | (show Nat.lor _ _ = _; decide)
    | apply Changes.after (State.count_changes ..)
    | apply Changes.after (State.setProg_changes ..))

theorem State.ftaSpoil_changes (s : State) (c : Ctx) (x : EngUnit) (e : Entry) (j : Nat) :
    Changes 0x600101000000 s (State.ftaSpoil s c x e j) := by
  unfold State.ftaSpoil
  repeat' (with_reducible first
    | exact Changes.refl _ _
    | (show Nat.lor _ _ = _; decide)
    | apply Changes.ite
    | apply Changes.after (State.freeHandleTiles_changes ..)
    | apply Changes.after (State.scramble_changes ..)
    | apply Changes.foldl
    | intro _)

theorem State.ftaFail_changes (s : State) (c : Ctx) (x : EngUnit) (u i : Nat) (e : Entry) (f : Fail) :
    Changes 0x600101800000 s (State.ftaFail s c x u i e f) := by
  unfold State.ftaFail
  repeat' (with_reducible first
    | exact Changes.refl _ _
    | (show Nat.lor _ _ = _; decide)
    | apply Changes.after (State.endEntry_changes ..)
    | apply Changes.after (State.ftaSpoil_changes ..))

theorem State.ftaWrite_changes (s : State) (c : Ctx) (e : Entry) (j : Nat) (t : FtaTile) :
    okAll (Changes 0x800700000000 s) (State.ftaWrite s c e j t) := by
  unfold State.ftaWrite
  repeat' (with_reducible first
    | exact Changes.refl _ _
    | assumption
    | (show Nat.lor _ _ = _; decide)
    | apply okAll.mono (State.wr_changes ..)
    | apply okAll.foldlM
    | intro _
    | apply Changes.after ‹Changes _ _ _›)

theorem execFtaTableProduct_changes (u : Nat) (s : State) :
    nextAll (Changes 0x620101811400 s) (execFtaTableProduct u s) := by
  unfold execFtaTableProduct
  repeat' (with_reducible first
    | exact Changes.refl _ _
    | (show Nat.lor _ _ = _; decide)
    | apply nextAll.next
    | apply State.startEngine_changes
    | apply someAll.mono (State.ftaStart_changes ..)
    | intro _
    | apply Changes.after ‹Changes _ _ _›)

theorem execFtaTva7200Product_changes (u : Nat) (s : State) :
    nextAll (Changes 0x620101811400 s) (execFtaTva7200Product u s) := by
  unfold execFtaTva7200Product
  repeat' (with_reducible first
    | exact Changes.refl _ _
    | (show Nat.lor _ _ = _; decide)
    | apply nextAll.next
    | apply State.startEngine_changes
    | apply someAll.mono (State.ftaStart_changes ..)
    | intro _
    | apply Changes.after ‹Changes _ _ _›)

theorem execLaneGroupPass_changes (u group : Nat) (s : State) :
    nextAll (Changes 0x600109811400 s) (execLaneGroupPass u group s) := by
  unfold execLaneGroupPass
  repeat' (with_reducible first
    | exact Changes.refl _ _
    | (show Nat.lor _ _ = _; decide)
    | apply nextAll.next
    | apply nextAll.ite
    | apply Changes.ite
    | apply Changes.after (State.returnPass_changes ..)
    | apply Changes.after (State.ftaFail_changes ..)
    | apply Changes.after (State.ftaCount_changes ..)
    | apply Changes.after (State.count_changes ..)
    | apply Changes.after (State.setProg_changes ..)
    | intro _
    | split
    | dsimp only)

theorem execOutputTileDrain_changes (u : Nat) (s : State) :
    nextAll (Changes 0xe00701811400 s) (execOutputTileDrain u s) := by
  unfold execOutputTileDrain
  repeat' (with_reducible first
    | exact Changes.refl _ _
    | (show Nat.lor _ _ = _; decide)
    | apply nextAll.next
    | apply nextAll.ite
    | apply Changes.after (State.ftaFail_changes ..)
    | apply Changes.after (State.endEntry_changes ..)
    | apply Changes.after (State.ftaCount_changes ..)
    | apply Changes.after (State.setTile_changes ..)
    | apply Changes.after (State.count_changes ..)
    | apply Changes.after (State.setProg_changes ..)
    | intro _
    | (have hh := okAll.get (State.ftaWrite_changes ..) ‹_ = Except.ok _›; apply Changes.after hh; clear hh)
    | split
    | dsimp only)

end Sys2Proof.Machine
end

