-- ==== Sys2Proof/Laws/Bwa.lean ====
section
/-! SUPPORT. What each operation of Machine/Bwa.lean may change (the masks number the fields of State in order). -/

set_option Elab.async false

namespace Sys2Proof.Machine

theorem State.bwaFail_changes (s : State) (c : Ctx) (x : EngUnit) (u i : Nat) (e : Entry) (f : Fail) :
    Changes 0x600101800000 s (State.bwaFail s c x u i e f) := by
  unfold State.bwaFail
  repeat' (with_reducible first
    | exact Changes.refl _ _
    | (show Nat.lor _ _ = _; decide)
    | apply Changes.ite
    | apply Changes.after (State.freeHandleTiles_changes ..)
    | apply Changes.after (State.scramble_changes ..)
    | apply Changes.after (State.endEntry_changes ..)
    | apply Changes.foldl
    | intro _)

theorem State.bwaStart_changes (s : State) (x : EngUnit) (c : Ctx) (i : Nat) (e : Entry) (u : Nat) :
    someAll (Changes 0x600101800000 s) (State.bwaStart s x c i e u) := by
  unfold State.bwaStart
  repeat' (with_reducible first
    | exact Changes.refl _ _
    | (show Nat.lor _ _ = _; decide)
    | exact someAll.none
    | apply someAll.some
    | apply someAll.ite
    | apply Changes.after (State.openHandle_changes ..)
    | apply Changes.after (State.bwaFail_changes ..)
    | apply Changes.after (State.setProg_changes ..)
    | apply someAll.mono (State.refuse_changes ..)
    | intro _
    | apply Changes.after ‹Changes _ _ _›
    | split
    | dsimp only)

theorem State.bwaCount_changes (s : State) (u i : Nat) (e : Entry) (m : List Byte) (upto : Nat) :
    Changes 0x100811400 s (State.bwaCount s u i e m upto) := by
  unfold State.bwaCount
  repeat' (with_reducible first
    | exact Changes.refl _ _
    | (show Nat.lor _ _ = _; decide)
    | apply Changes.after (State.count_changes ..)
    | apply Changes.after (State.setProg_changes ..))

theorem State.bwaWrite_changes (s : State) (c : Ctx) (e : Entry) (t : Nat) (rs : List Rounded) :
    okAll (Changes 0x800700000000 s) (State.bwaWrite s c e t rs) := by
  unfold State.bwaWrite
  repeat' (with_reducible first
    | exact Changes.refl _ _
    | assumption
    | (show Nat.lor _ _ = _; decide)
    | apply okAll.mono (State.wr_changes ..)
    | apply okAll.foldlM
    | intro _
    | apply Changes.after ‹Changes _ _ _›)

theorem execBwaProduct_changes (u : Nat) (s : State) :
    nextAll (Changes 0x620101811400 s) (execBwaProduct u s) := by
  unfold execBwaProduct
  repeat' (with_reducible first
    | exact Changes.refl _ _
    | (show Nat.lor _ _ = _; decide)
    | apply nextAll.next
    | apply State.startEngine_changes
    | apply someAll.mono (State.bwaStart_changes ..)
    | intro _
    | apply Changes.after ‹Changes _ _ _›)

theorem execRowGroupPass_changes (u group : Nat) (s : State) :
    nextAll (Changes 0x600109811400 s) (execRowGroupPass u group s) := by
  unfold execRowGroupPass
  repeat' (with_reducible first
    | exact Changes.refl _ _
    | (show Nat.lor _ _ = _; decide)
    | apply nextAll.next
    | apply nextAll.ite
    | apply Changes.ite
    | apply Changes.after (State.returnPass_changes ..)
    | apply Changes.after (State.bwaCount_changes ..)
    | apply Changes.after (State.bwaFail_changes ..)
    | apply Changes.after (State.count_changes ..)
    | apply Changes.after (State.setProg_changes ..)
    | intro _
    | split)

theorem execBwaTileRetire_changes (u : Nat) (s : State) :
    nextAll (Changes 0xe00701811400 s) (execBwaTileRetire u s) := by
  unfold execBwaTileRetire
  repeat' (with_reducible first
    | exact Changes.refl _ _
    | (show Nat.lor _ _ = _; decide)
    | apply nextAll.next
    | apply nextAll.ite
    | apply Changes.ite
    | apply Changes.after (State.bwaCount_changes ..)
    | apply Changes.after (State.bwaFail_changes ..)
    | apply Changes.after (State.endEntry_changes ..)
    | apply Changes.after (State.setTile_changes ..)
    | apply Changes.after (State.count_changes ..)
    | apply Changes.after (State.setProg_changes ..)
    | intro _
    | (have hh := okAll.get (State.bwaWrite_changes ..) ‹_ = Except.ok _›; apply Changes.after hh; clear hh)
    | split
    | dsimp only)

end Sys2Proof.Machine
end

