-- ==== Sys2Proof/Laws/Cve.lean ====
section
/-! SUPPORT. What each operation of Machine/Cve.lean may change (the masks number the fields of State in order). -/

set_option Elab.async false

namespace Sys2Proof.Machine

theorem State.putRowInfo_changes (s : State) (c : Ctx) (d : List Byte) (r : Nat) (f : RowFit) :
    okAll (Changes 0x800700000000 s) (State.putRowInfo s c d r f) := by
  unfold State.putRowInfo
  repeat' (with_reducible first
    | assumption
    | (show Nat.lor _ _ = _; decide)
    | apply okAll.bind (State.wr_changes ..)
    | apply okAll.mono (State.wr_changes ..)
    | intro _
    | apply Changes.after ‹Changes _ _ _›)

theorem State.putPacked_changes (s : State) (c : Ctx) (d : List Byte) (r : Nat) (f : RowFit) :
    okAll (Changes 0x800700000000 s) (State.putPacked s c d r f) := by
  unfold State.putPacked
  repeat' (with_reducible first
    | exact Changes.refl _ _
    | assumption
    | (show Nat.lor _ _ = _; decide)
    | apply okAll.mono (State.wr_changes ..)
    | apply okAll.foldlM
    | intro _
    | apply Changes.after ‹Changes _ _ _›)

theorem State.putTiles_changes (s : State) (c : Ctx) (d : List Byte) (pos n : Nat) (fits : List RowFit) :
    okAll (Changes 0x800700000000 s) (State.putTiles s c d pos n fits) := by
  unfold State.putTiles
  repeat' (with_reducible first
    | exact Changes.refl _ _
    | assumption
    | (show Nat.lor _ _ = _; decide)
    | apply okAll.mono (State.wr_changes ..)
    | apply okAll.foldlM
    | intro _
    | apply Changes.after ‹Changes _ _ _›)

theorem State.putFits_changes (s : State) (c : Ctx) (d : List Byte) (r0 n pos : Nat) (fits : List RowFit) :
    okAll (Changes 0x800700000000 s) (State.putFits s c d r0 n pos fits) := by
  unfold State.putFits
  repeat' (with_reducible first
    | assumption
    | (show Nat.lor _ _ = _; decide)
    | apply okAll.pure
    | apply okAll.ite
    | apply okAll.bindFoldlM (m := 0x800700000000)
    | apply okAll.mono (State.putPacked_changes ..)
    | apply okAll.mono (State.putTiles_changes ..)
    | apply okAll.bind (State.putRowInfo_changes ..)
    | intro _
    | apply Changes.after ‹Changes _ _ _›)

theorem State.putPadWords_changes (s : State) (c : Ctx) (d : List Byte) :
    okAll (Changes 0x800700000000 s) (State.putPadWords s c d) := by
  unfold State.putPadWords
  repeat' (with_reducible first
    | assumption
    | apply okAll.mono (State.wr_changes ..)
    | intro _)

theorem State.putBlock_changes (s : State) (c : Ctx) (d : List Byte) (b n pos : Nat) (refused : Bool) (fits : List RowFit) :
    okAll (Changes 0x800700000000 s) (State.putBlock s c d b n pos refused fits) := by
  unfold State.putBlock
  repeat' (with_reducible first
    | assumption
    | (show Nat.lor _ _ = _; decide)
    | apply okAll.ite
    | apply okAll.bindPure
    | apply okAll.mono (State.wr_changes ..)
    | apply okAll.bind (State.putPadWords_changes ..)
    | apply okAll.bind (State.putFits_changes ..)
    | intro _
    | apply Changes.after ‹Changes _ _ _›)

theorem State.fitBlock_changes (s : State) (u : Nat) (c : Ctx) (d : List Byte) (w : Words) (ov b : Nat) (a : CveSum) :
    okAll (fun p => Changes 0x800700000000 s p.1) (State.fitBlock s u c d w ov b a) := by
  unfold State.fitBlock
  repeat' (with_reducible first
    | assumption
    | (show Nat.lor _ _ = _; decide)
    | apply okAll.pure
    | apply okAll.ite
    | apply okAll.bindPure
    | apply okAll.bind (State.putBlock_changes ..)
    | apply okAll.bindT
    | intro _
    | apply Changes.after ‹Changes _ _ _›)

theorem State.cveCount_changes (s : State) (u : Nat) (a : CveSum) :
    Changes 0x100011400 s (State.cveCount s u a) := by
  unfold State.cveCount
  repeat' (with_reducible first
    | exact Changes.refl _ _
    | (show Nat.lor _ _ = _; decide)
    | apply Changes.after (State.count_changes ..))

theorem State.cveDone_changes (s : State) (u i : Nat) (flags : List (BitVec 16)) (k : Option Contrib) :
    Changes 0x800000 s (State.cveDone s u i flags k) := by
  unfold State.cveDone
  repeat' (with_reducible first
    | exact Changes.refl _ _
    | (show Nat.lor _ _ = _; decide)
    | apply Changes.after (State.setEntry_changes ..))

theorem State.cveFail_changes (s : State) (c : Ctx) (u i : Nat) (d : List Byte) (lo n : Nat) (f : Fail) :
    Changes 0x200100800000 s (State.cveFail s c u i d lo n f) := by
  unfold State.cveFail
  repeat' (with_reducible first
    | exact Changes.refl _ _
    | (show Nat.lor _ _ = _; decide)
    | apply Changes.after (State.scramble_changes ..)
    | apply Changes.after (State.endEntry_changes ..))

theorem State.fitBlocks_changes (s : State) (u i : Nat) (c : Ctx) (d : List Byte) (w : Words) (ov : Nat) (n0 : _) (n1 : _) (n2 : _) :
    Changes 0xa00700811400 s (State.fitBlocks s u i c d w ov n0 n1 n2) := by
  fun_induction State.fitBlocks s u i c d w ov n0 n1 n2
  all_goals (repeat' (with_reducible first
    | exact Changes.refl _ _
    | (show Nat.lor _ _ = _; decide)
    | apply Changes.after (State.cveDone_changes ..)
    | apply Changes.after (State.cveFail_changes ..)
    | apply Changes.after (State.cveCount_changes ..)
    | apply Changes.after ‹Changes _ _ _›
    | (have hh := okAll.get (State.fitBlock_changes ..) ‹_ = Except.ok _›; apply Changes.after hh; clear hh)))

theorem State.cveRefuse_changes (s : State) (u i : Nat) (a : Addr) :
    someAll (Changes 0x800000 s) (State.cveRefuse s u i a) := by
  unfold State.cveRefuse
  repeat' (with_reducible first
    | exact Changes.refl _ _
    | (show Nat.lor _ _ = _; decide)
    | apply someAll.some
    | apply Changes.after (State.endEntry_changes ..))

theorem State.trackBlocks_changes (s : State) (c : Ctx) (d : List Byte) (fits : List RowFit) (n b pos : Nat) :
    errAll (fun p => Changes 0x800700000000 s p.2.1) (s.trackBlocks c d fits n b pos) ∧
      okAll (fun p => Changes 0x800700000000 s p.1) (s.trackBlocks c d fits n b pos) := by
  induction n generalizing s b pos with
  | zero => exact ⟨errAll.ok, okAll.ok (Changes.refl _ _)⟩
  | succ n ih =>
    unfold State.trackBlocks
    dsimp only
    split
    · exact ⟨errAll.error (Changes.refl _ _), okAll.error⟩
    · next t h =>
      have h1 : Changes 0x800700000000 s t := okAll.get (State.putBlock_changes ..) h
      exact ⟨(ih t _ _).1.mono fun p _ hp => h1.andThen hp, (ih t _ _).2.mono fun p _ hp => h1.andThen hp⟩

theorem State.trackStop_changes (s : State) (c : Ctx) (d : List Byte) (fits : List RowFit) :
    errAll (fun p => Changes 0xa00700000000 s p.2.1) (s.trackStop c d fits) ∧ okAll (Changes 0xa00700000000 s) (s.trackStop c d fits) := by
  unfold State.trackStop
  dsimp only
  split
  · next q h => exact ⟨errAll.error ((State.trackBlocks_changes ..).1.get h).widen, okAll.error⟩
  · next p h =>
    have h1 : Changes 0x800700000000 s p.1 := (State.trackBlocks_changes ..).2.get h
    split
    · exact ⟨errAll.error h1.widen, okAll.error⟩
    · next t h2 =>
      exact ⟨errAll.ok, okAll.ok (Changes.foldl _ (h1.widen.andThen (okAll.get (State.putFits_changes ..) h2))
        fun _ _ => (State.scramble_changes ..).widen)⟩

theorem State.useTracker_changes (s : State) (ctx : Nat) (a : Addr) :
    Changes 0x20000 s (State.useTracker s ctx a) := by
  unfold State.useTracker
  repeat' (with_reducible first
    | exact Changes.refl _ _
    | (show Nat.lor _ _ = _; decide)
    | apply Changes.ite
    | apply Changes.after (State.setCtx_changes ..)
    | intro _
    | split)

theorem State.putTracker_changes (s : State) (c : Ctx) (ctx : Nat) (a rmax : Nat) (miss : Bool) (shift : Option Int) :
    okAll (Changes 0x800700020000 s) (State.putTracker s c ctx a rmax miss shift) := by
  unfold State.putTracker
  repeat' (with_reducible first
    | exact Changes.refl _ _
    | (show Nat.lor _ _ = _; decide)
    | exact okAll.error
    | apply Changes.after (State.useTracker_changes ..)
    | apply okAll.map (State.wr_changes ..)
    | intro _
    | apply Changes.after ‹Changes _ _ _›
    | split)

theorem State.trackRun_changes (s : State) (x : EngUnit) (c : Ctx) (u i : Nat) (e : Entry) (trk : List Byte) :
    Changes 0xa00700831400 s (s.trackRun x c u i e trk) := by
  unfold State.trackRun
  dsimp only
  split
  · exact (State.cveFail_changes ..).widen
  · split
    · split
      · next q h => exact ((State.trackStop_changes ..).1.get h).widen.andThen (State.cveFail_changes ..)
      · next t h =>
        exact (((State.trackStop_changes ..).2.get h).widen.andThen (State.cveCount_changes ..)).andThen (State.endEntry_changes ..)
    · split
      · next q h =>
        have h1 := (State.trackBlocks_changes ..).1.get h
        exact h1.widen.andThen (State.cveFail_changes ..)
      · next p h =>
        have h1 : Changes 0x800700000000 s p.1 := (State.trackBlocks_changes ..).2.get h
        split
        · next q h =>
          refine Changes.andThen ?_ (State.cveFail_changes ..)
          have g := errAll.iteOk h (State.trackBlocks_changes ..).1
          exact h1.widen.andThen g
        · next z h =>
          have h2 : Changes 0x800700000000 s z.1 :=
            h1.andThen (okAll.iteOk (P := fun q : State × Nat => Changes 0x800700000000 p.1 q.1) h (State.trackBlocks_changes ..).2
              (Changes.refl _ _))
          split
          · exact h2.widen.andThen (State.cveFail_changes ..)
          · next t h =>
            exact (((h2.widen.andThen (okAll.get (State.putTracker_changes ..) h)).andThen (State.cveCount_changes ..)).andThen
              (State.count_changes ..)).andThen (State.cveDone_changes ..)

theorem State.wRows_changes (s : State) (c : Ctx) (u i : Nat) (d : List Byte) (t : WFmt) (row : Nat → Except Fail (List Rounded × Nat)) (n0 : _) (n1 : _) :
    Changes 0xa00700811400 s (State.wRows s c u i d t row n0 n1) := by
  fun_induction State.wRows s c u i d t row n0 n1
  all_goals (repeat' (with_reducible first
    | exact Changes.refl _ _
    | (show Nat.lor _ _ = _; decide)
    | apply Changes.after (State.endEntry_changes ..)
    | apply Changes.after (State.cveFail_changes ..)
    | apply Changes.after (State.count_changes ..)
    | apply Changes.after ‹Changes _ _ _›
    | (have hh := okAll.get (State.putW_changes ..) ‹_ = Except.ok _›; apply Changes.after hh; clear hh)))

theorem State.w12cRun_changes (s : State) (c : Ctx) (u i : Nat) (e : Entry) (f : WFmt) (trk : List Byte) :
    Changes 0xa00700831400 s (s.w12cRun c u i e f trk) := by
  unfold State.w12cRun
  dsimp only
  split
  · exact (State.cveFail_changes ..).widen
  · next p h =>
    have h1 : Changes 0x800700000000 s p.1 := by
      refine okAll.get (P := fun p : State × List (List Rounded × List (Option Rat)) => Changes 0x800700000000 s p.1) ?_ h
      apply okAll.bindT; intro rows _
      apply okAll.bind (State.wr_changes ..); intro s1 _ h1
      apply okAll.bind (Q := Changes 0x800700000000 s)
      · apply okAll.foldlM
        · exact h1.widen
        · intro b a hb
          exact (State.putW_changes ..).mono fun _ _ k => hb.andThen k
      · intro a _ ha
        exact okAll.pure ha
    split
    · exact h1.widen.andThen (State.cveFail_changes ..)
    · next t h =>
      have cnt : ∀ {x : State} {m j k : Nat}, Changes 0xa00700831400 s x → Changes 0xa00700831400 s (x.count m j k) := fun hx =>
        hx.andThen (State.count_changes ..)
      exact (cnt (cnt (cnt (cnt (cnt (h1.widen.andThen (okAll.get (State.putTracker_changes ..) h))))))).andThen (State.cveDone_changes ..)

theorem execFit_changes (u : Nat) (s : State) :
    nextAll (Changes 0xa20700811400 s) (execFit u s) := by
  unfold execFit
  repeat' (with_reducible first
    | exact Changes.refl _ _
    | (show Nat.lor _ _ = _; decide)
    | apply someAll.some
    | apply nextAll.next
    | apply State.startEngine_changes
    | apply Changes.after (State.fitBlocks_changes ..)
    | apply someAll.mono (State.cveRefuse_changes ..)
    | intro _
    | apply Changes.after ‹Changes _ _ _›
    | split)

theorem execTrack_changes (u : Nat) (s : State) :
    nextAll (Changes 0xa20700831400 s) (execTrack u s) := by
  unfold execTrack
  repeat' (with_reducible first
    | exact Changes.refl _ _
    | (show Nat.lor _ _ = _; decide)
    | exact someAll.none
    | apply someAll.some
    | apply someAll.ite
    | apply nextAll.next
    | apply State.startEngine_changes
    | apply Changes.after (State.endEntry_changes ..)
    | apply Changes.after (State.trackRun_changes ..)
    | apply someAll.mono (State.cveRefuse_changes ..)
    | apply someAll.mono (State.refuse_changes ..)
    | intro _
    | apply Changes.after ‹Changes _ _ _›
    | split)

theorem execWiden_changes (u : Nat) (s : State) :
    nextAll (Changes 0xa20700811400 s) (execWiden u s) := by
  unfold execWiden
  repeat' (with_reducible first
    | exact Changes.refl _ _
    | (show Nat.lor _ _ = _; decide)
    | apply someAll.some
    | apply nextAll.next
    | apply State.startEngine_changes
    | apply Changes.after (State.wRows_changes ..)
    | apply someAll.mono (State.cveRefuse_changes ..)
    | apply someAll.mono (State.refuse_changes ..)
    | intro _
    | apply Changes.after ‹Changes _ _ _›
    | split)

theorem execWconv_changes (u : Nat) (s : State) :
    nextAll (Changes 0xa20700811400 s) (execWconv u s) := by
  unfold execWconv
  repeat' (with_reducible first
    | exact Changes.refl _ _
    | (show Nat.lor _ _ = _; decide)
    | apply someAll.some
    | apply nextAll.next
    | apply State.startEngine_changes
    | apply Changes.after (State.wRows_changes ..)
    | apply someAll.mono (State.cveRefuse_changes ..)
    | apply someAll.mono (State.refuse_changes ..)
    | intro _
    | apply Changes.after ‹Changes _ _ _›
    | split)

theorem execW12c_changes (u : Nat) (s : State) :
    nextAll (Changes 0xa20700831400 s) (execW12c u s) := by
  unfold execW12c
  repeat' (with_reducible first
    | exact Changes.refl _ _
    | (show Nat.lor _ _ = _; decide)
    | apply someAll.some
    | apply someAll.ite
    | apply nextAll.next
    | apply State.startEngine_changes
    | apply Changes.after (State.endEntry_changes ..)
    | apply Changes.after (State.w12cRun_changes ..)
    | apply someAll.mono (State.cveRefuse_changes ..)
    | apply someAll.mono (State.refuse_changes ..)
    | intro _
    | apply Changes.after ‹Changes _ _ _›
    | split)

end Sys2Proof.Machine
end

