-- ==== Sys2Proof/Laws/Flit.lean ====
section
/-! SUPPORT. What each operation of Machine/Flit.lean may change (the masks number the fields of State in order). -/

set_option Elab.async false

namespace Sys2Proof.Machine

theorem State.putFlit_changes (s : State) (p ty seq : Nat) (payload : List Byte) :
    Changes 0x300100011400 s (State.putFlit s p ty seq payload) := by
  unfold State.putFlit
  repeat' (with_reducible first
    | exact Changes.refl _ _
    | (show Nat.lor _ _ = _; decide)
    | apply Changes.after (State.addOut_changes ..)
    | apply Changes.after (State.takeFree_changes ..)
    | apply Changes.after (State.count_changes ..))

theorem State.sendData_changes (s : State) (p : Nat) (data : List Byte) :
    Changes 0x1100011400 s (State.sendData s p data) := by
  unfold State.sendData
  repeat' (with_reducible first
    | exact Changes.refl _ _
    | (show Nat.lor _ _ = _; decide)
    | apply Changes.after (State.setPort_changes ..)
    | apply Changes.after (State.count_changes ..))

theorem State.sendControl_changes (s : State) (p : Nat) :
    Changes 0x201100011400 s (State.sendControl s p) := by
  unfold State.sendControl
  repeat' (with_reducible first
    | exact Changes.refl _ _
    | (show Nat.lor _ _ = _; decide)
    | apply Changes.after (State.setPort_changes ..)
    | apply Changes.after (State.takeFree_changes ..)
    | apply Changes.after (State.count_changes ..))

end Sys2Proof.Machine
end

