-- ==== Sys2Proof/Laws/Row.lean ====
section
/-! SUPPORT. What each operation of Machine/Row.lean may change (the masks number the fields of State in order). -/

set_option Elab.async false

namespace Sys2Proof.Machine

theorem State.rowFail_changes (s : State) (c : Ctx) (u i : Nat) (e : Entry) (r : Nat) (f : Fail) :
    Changes 0x200100800000 s (State.rowFail s c u i e r f) := by
  unfold State.rowFail
  repeat' (with_reducible first
    | exact Changes.refl _ _
    | (show Nat.lor _ _ = _; decide)
    | apply Changes.after (State.endEntry_changes ..)
    | apply Changes.after (State.scrambleBits_changes ..)
    | apply Changes.foldl
    | intro _)

theorem State.putMore_changes (s : State) (c : Ctx) (l : List (Nat × List Byte)) :
    okAll (Changes 0x800700000000 s) (State.putMore s c l) := by
  unfold State.putMore
  repeat' (with_reducible first
    | exact Changes.refl _ _
    | assumption
    | (show Nat.lor _ _ = _; decide)
    | apply okAll.mono (State.wr_changes ..)
    | apply okAll.foldlM
    | intro _
    | apply Changes.after ‹Changes _ _ _›)

theorem State.rowRun_changes (s : State) (c : Ctx) (u i : Nat) (e : Entry) (row : Nat → Except Fail RowRes) (n0 : _) (n1 : _) :
    Changes 0xa00700811400 s (State.rowRun s c u i e row n0 n1) := by
  fun_induction State.rowRun s c u i e row n0 n1
  all_goals (repeat' (with_reducible first
    | exact Changes.refl _ _
    | (show Nat.lor _ _ = _; decide)
    | apply Changes.after (State.rowFail_changes ..)
    | apply Changes.after (State.endEntry_changes ..)
    | apply Changes.after (State.scrambleBits_changes ..)
    | apply Changes.after (State.count_changes ..)
    | apply Changes.foldl
    | intro _
    | apply Changes.after ‹Changes _ _ _›
    | (have hh := okAll.get (State.putMore_changes ..) ‹_ = Except.ok _›; apply Changes.after hh; clear hh)
    | (have hh := okAll.get (State.putW_changes ..) ‹_ = Except.ok _›; apply Changes.after hh; clear hh)))

theorem State.rowOp_changes (s : State) (u op : Nat) (row : State → Ctx → Entry → Words → Nat → Except Fail RowRes) :
    Changes 0xa20700811400 s (s.rowOp u op row) := by
  unfold State.rowOp
  refine State.startEngine_changes _ _ _ _ _ _ (fun _ _ _ _ _ => ?_)
  split
  · exact someAll.some ((State.rowRun_changes ..).widen)
  · exact (State.refuse_changes ..).mono fun _ _ h => h.widen

theorem execAct_changes (u : Nat) (s : State) :
    nextAll (Changes 0xa20700811400 s) (execAct u s) := by
  unfold execAct
  repeat' (with_reducible first
    | exact Changes.refl _ _
    | (show Nat.lor _ _ = _; decide)
    | apply nextAll.next
    | apply Changes.after (State.rowOp_changes ..))

theorem execActb_changes (u : Nat) (s : State) :
    nextAll (Changes 0xa20700811400 s) (execActb u s) := by
  unfold execActb
  repeat' (with_reducible first
    | exact Changes.refl _ _
    | (show Nat.lor _ _ = _; decide)
    | apply nextAll.next
    | apply Changes.after (State.rowOp_changes ..))

theorem execSmx_changes (u : Nat) (s : State) :
    nextAll (Changes 0xa20700811400 s) (execSmx u s) := by
  unfold execSmx
  repeat' (with_reducible first
    | exact Changes.refl _ _
    | (show Nat.lor _ _ = _; decide)
    | apply nextAll.next
    | apply Changes.after (State.rowOp_changes ..))

theorem execSmxb_changes (u : Nat) (s : State) :
    nextAll (Changes 0xa20700811400 s) (execSmxb u s) := by
  unfold execSmxb
  repeat' (with_reducible first
    | exact Changes.refl _ _
    | (show Nat.lor _ _ = _; decide)
    | apply nextAll.next
    | apply Changes.after (State.rowOp_changes ..))

theorem execNorm_changes (u : Nat) (s : State) :
    nextAll (Changes 0xa20700811400 s) (execNorm u s) := by
  unfold execNorm
  repeat' (with_reducible first
    | exact Changes.refl _ _
    | (show Nat.lor _ _ = _; decide)
    | apply nextAll.next
    | apply Changes.after (State.rowOp_changes ..))

theorem execNormb_changes (u : Nat) (s : State) :
    nextAll (Changes 0xa20700811400 s) (execNormb u s) := by
  unfold execNormb
  repeat' (with_reducible first
    | exact Changes.refl _ _
    | (show Nat.lor _ _ = _; decide)
    | apply nextAll.next
    | apply Changes.after (State.rowOp_changes ..))

theorem execXent_changes (u : Nat) (s : State) :
    nextAll (Changes 0xa20700811400 s) (execXent u s) := by
  unfold execXent
  repeat' (with_reducible first
    | exact Changes.refl _ _
    | (show Nat.lor _ _ = _; decide)
    | apply nextAll.next
    | apply Changes.after (State.rowOp_changes ..))

theorem execEmul_changes (u : Nat) (s : State) :
    nextAll (Changes 0xa20700811400 s) (execEmul u s) := by
  unfold execEmul
  repeat' (with_reducible first
    | exact Changes.refl _ _
    | (show Nat.lor _ _ = _; decide)
    | apply nextAll.next
    | apply Changes.after (State.rowOp_changes ..))

end Sys2Proof.Machine
end

