-- ==== Sys2Proof/Laws/Rng.lean ====
section
/-! SUPPORT. What each operation of Machine/Rng.lean may change (the masks number the fields of State in order). -/

set_option Elab.async false

namespace Sys2Proof.Machine

theorem State.bitsBlock_changes (s : State) (c : Ctx) (g i : Nat) (e : Entry) :
    Changes 0x102011400 s (State.bitsBlock s c g i e).2 := by
  unfold State.bitsBlock
  repeat' (with_reducible first
    | exact Changes.refl _ _
    | (show Nat.lor _ _ = _; decide)
    | apply Changes.after (State.laneDraw_changes ..)
    | apply Changes.after (State.count_changes ..)
    | split)

theorem State.bitsRun_changes (s : State) (c : Ctx) (u w g : Nat) (e : Entry) (n0 : _) (n1 : _) :
    Changes 0x800702811400 s (State.bitsRun s c u w g e n0 n1) := by
  fun_induction State.bitsRun s c u w g e n0 n1
  all_goals (repeat' (with_reducible first
    | exact Changes.refl _ _
    | (show Nat.lor _ _ = _; decide)
    | apply Changes.after (State.bitsBlock_changes ..)
    | apply Changes.after (State.endEntry_changes ..)
    | apply Changes.after (State.count_changes ..)
    | apply Changes.after ‹Changes _ _ _›
    | (have hh := okAll.get (State.wr_changes ..) ‹_ = Except.ok _›; apply Changes.after hh; clear hh)))

theorem State.bernRun_changes (s : State) (c : Ctx) (u k : Nat) (e : Entry) (w : Words) (n0 : _) (n1 : _) :
    Changes 0x800700811400 s (State.bernRun s c u k e w n0 n1) := by
  fun_induction State.bernRun s c u k e w n0 n1
  all_goals (repeat' (with_reducible first
    | exact Changes.refl _ _
    | (show Nat.lor _ _ = _; decide)
    | apply Changes.after (State.endEntry_changes ..)
    | apply Changes.after (State.count_changes ..)
    | apply Changes.after ‹Changes _ _ _›
    | (have hh := okAll.get (State.wr_changes ..) ‹_ = Except.ok _›; apply Changes.after hh; clear hh)))

theorem State.bernDraws_changes (s : State) (c : Ctx) (g : Nat) (e : Entry) :
    Changes 0x102011400 s (State.bernDraws s c g e).2 := by
  unfold State.bernDraws
  repeat' (with_reducible first
    | exact Changes.refl _ _
    | (show Nat.lor _ _ = _; decide)
    | apply Changes.after (State.drawGroups_changes ..)
    | apply Changes.after (State.count_changes ..)
    | split)

theorem State.smpFail_changes (s : State) (c : Ctx) (u i : Nat) (e : Entry) (r : Nat) (f : Fail) :
    Changes 0x200100800000 s (State.smpFail s c u i e r f) := by
  unfold State.smpFail
  repeat' (with_reducible first
    | exact Changes.refl _ _
    | (show Nat.lor _ _ = _; decide)
    | apply Changes.ite
    | apply Changes.after (State.scramble_changes ..)
    | apply Changes.after (State.endEntry_changes ..)
    | intro _)

theorem State.smpPut_changes (s : State) (c : Ctx) (e : Entry) (r : Nat) (q : SmpRow) : okAll (Changes 0x800700000000 s) (s.smpPut c e r q) := by
  unfold State.smpPut
  apply okAll.bind (State.wr_changes ..)
  intro s1 _ h1
  split
  · exact okAll.mono (State.wr_changes ..) fun x _ hx => h1.andThen hx
  · exact okAll.ok h1

theorem State.smpCount_changes (s : State) (u : Nat) (d : List Byte) (q : SmpRow) :
    Changes 0x100011400 s (State.smpCount s u d q) := by
  unfold State.smpCount
  repeat' (with_reducible first
    | exact Changes.refl _ _
    | (show Nat.lor _ _ = _; decide)
    | apply Changes.after (State.count_changes ..))

theorem State.smpRun_changes (s : State) (c : Ctx) (u i : Nat) (e : Entry) (w : Words) (n r : Nat) : Changes 0xa00700811400 s (s.smpRun c u i e w n r) := by
  induction n generalizing s r with
  | zero => exact (State.endEntry_changes ..).widen
  | succ n ih =>
    unfold State.smpRun
    refine onOk_cases _ _ _ (fun _ _ => (State.smpFail_changes ..).widen) fun q _ => ?_
    refine onOk_cases _ _ _ (fun _ _ => (State.smpFail_changes ..).widen) fun s1 h => ?_
    exact ((okAll.get (State.smpPut_changes ..) h).widen.andThen (State.smpCount_changes ..)).andThen (ih ..)

theorem execBits_changes (u : Nat) (s : State) :
    nextAll (Changes 0xa20702811400 s) (execBits u s) := by
  unfold execBits
  repeat' (with_reducible first
    | exact Changes.refl _ _
    | (show Nat.lor _ _ = _; decide)
    | apply someAll.some
    | apply someAll.ite
    | apply nextAll.next
    | apply State.startEngine_changes
    | apply Changes.after (State.bitsRun_changes ..)
    | apply someAll.mono (State.refuse_changes ..)
    | intro _
    | apply Changes.after ‹Changes _ _ _›)

theorem execBern_changes (u : Nat) (s : State) :
    nextAll (Changes 0xa20702811400 s) (execBern u s) := by
  unfold execBern
  repeat' (with_reducible first
    | exact Changes.refl _ _
    | (show Nat.lor _ _ = _; decide)
    | apply someAll.some
    | apply someAll.ite
    | apply nextAll.next
    | apply State.startEngine_changes
    | apply Changes.after (State.bernRun_changes ..)
    | apply Changes.after (State.bernDraws_changes ..)
    | apply someAll.mono (State.refuse_changes ..)
    | intro _
    | apply Changes.after ‹Changes _ _ _›)

theorem execSmpSample_changes (u : Nat) (s : State) :
    nextAll (Changes 0xa20700811400 s) (execSmpSample u s) := by
  unfold execSmpSample
  repeat' (with_reducible first
    | exact Changes.refl _ _
    | (show Nat.lor _ _ = _; decide)
    | apply someAll.some
    | apply someAll.ite
    | apply nextAll.next
    | apply State.startEngine_changes
    | apply Changes.after (State.smpRun_changes ..)
    | apply someAll.mono (State.refuse_changes ..)
    | intro _
    | apply Changes.after ‹Changes _ _ _›)

end Sys2Proof.Machine
end

