-- ==== Sys2Proof/Laws/Upd.lean ====
section
/-! SUPPORT. What each operation of Machine/Upd.lean may change (the masks number the fields of State in order). -/

set_option Elab.async false

namespace Sys2Proof.Machine

theorem State.optStep_changes (s : State) (c : Ctx) (u : Nat) (e : Entry) (o : OptParams) (m : List Byte) (i : Nat) (k : OptAcc) :
    okAll (fun p => Changes 0x800700011400 s p.1) (State.optStep s c u e o m i k) := by
  unfold State.optStep
  repeat' (with_reducible first
    | exact Changes.refl _ _
    | (show Nat.lor _ _ = _; decide)
    | apply okAll.pure
    | apply okAll.ite
    | apply Changes.after (State.count_changes ..)
    | apply okAll.bindPure
    | apply okAll.bind (State.wr_changes ..)
    | apply okAll.bindT
    | intro _
    | cases ‹Except.ok _ = Except.ok _›
    | apply Changes.after ‹Changes _ _ _›
    | split
    | dsimp only)

theorem State.optFail_changes (s : State) (c : Ctx) (u k : Nat) (e : Entry) (sgd : Bool) (i : Nat) (f : Fail) :
    Changes 0x200100800000 s (State.optFail s c u k e sgd i f) := by
  unfold State.optFail
  repeat' (with_reducible first
    | exact Changes.refl _ _
    | (show Nat.lor _ _ = _; decide)
    | apply Changes.ite
    | apply Changes.after (State.scramble_changes ..)
    | apply Changes.after (State.endEntry_changes ..)
    | intro _)

theorem State.optRun_changes (s : State) (c : Ctx) (u k : Nat) (e : Entry) (o : OptParams) (m : List Byte) (n0 : _) (n1 : _) (n2 : _) :
    Changes 0xa00700811400 s (State.optRun s c u k e o m n0 n1 n2) := by
  fun_induction State.optRun s c u k e o m n0 n1 n2
  all_goals (repeat' (with_reducible first
    | exact Changes.refl _ _
    | (show Nat.lor _ _ = _; decide)
    | apply Changes.ite
    | apply Changes.after (State.setEntry_changes ..)
    | apply Changes.after (State.optFail_changes ..)
    | apply Changes.after (State.endEntry_changes ..)
    | intro _
    | apply Changes.after ‹Changes _ _ _›
    | (have hh := okAll.get (State.optStep_changes ..) ‹_ = Except.ok _›; apply Changes.after hh; clear hh)))

theorem State.tieRun_changes (s : State) (c : Ctx) (u k : Nat) (e : Entry) (w : Words) (slots : List Nat) (n0 : _) (n1 : _) :
    Changes 0xa00700811400 s (State.tieRun s c u k e w slots n0 n1) := by
  fun_induction State.tieRun s c u k e w slots n0 n1
  all_goals (repeat' (with_reducible first
    | exact Changes.refl _ _
    | (show Nat.lor _ _ = _; decide)
    | apply Changes.after (State.scramble_changes ..)
    | apply Changes.after (State.endEntry_changes ..)
    | apply Changes.after (State.count_changes ..)
    | apply Changes.after ‹Changes _ _ _›
    | (have hh := okAll.get (State.wr_changes ..) ‹_ = Except.ok _›; apply Changes.after hh; clear hh)))

theorem execOpt_changes (u : Nat) (s : State) :
    nextAll (Changes 0xa20700811400 s) (execOpt u s) := by
  unfold execOpt
  repeat' (with_reducible first
    | exact Changes.refl _ _
    | (show Nat.lor _ _ = _; decide)
    | apply someAll.some
    | apply nextAll.next
    | apply State.startEngine_changes
    | apply Changes.after (State.optFail_changes ..)
    | apply Changes.after (State.endEntry_changes ..)
    | apply Changes.after (State.optRun_changes ..)
    | intro _
    | split
    | dsimp only)

theorem execTiesum_changes (u : Nat) (s : State) :
    nextAll (Changes 0xa20700811400 s) (execTiesum u s) := by
  unfold execTiesum
  repeat' (with_reducible first
    | exact Changes.refl _ _
    | (show Nat.lor _ _ = _; decide)
    | apply someAll.some
    | apply nextAll.next
    | apply State.startEngine_changes
    | apply Changes.after (State.endEntry_changes ..)
    | apply Changes.after (State.tieRun_changes ..)
    | intro _
    | split)

end Sys2Proof.Machine
end

