-- ==== Sys2Proof/Laws/Xre.lean ====
section
/-! SUPPORT. What each operation of Machine/Xre.lean may change (the masks number the fields of State in order). -/

set_option Elab.async false

namespace Sys2Proof.Machine

/-- A sequence of steps changes what each step changes. -/
theorem State.each_changes {α : Type} {m : Nat} (f : State → α → Except Fail State) (hf : ∀ t a, okAll (Changes m t) (f t a)) :
    ∀ (s : State) (l : List α), Changes m s (State.each f s l).1
  | s, [] => Changes.refl m s
  | s, a :: r => by
    unfold State.each
    split
    · exact Changes.refl m s
    · next t h => exact ((hf s a).get h).andThen (State.each_changes f hf t r) (Nat.or_self m)

theorem State.addImage_changes (s : State) (c : Ctx) (u g : Nat) (h : Handle) (n0 : _) (n1 : _) (n2 : _) :
    Changes 0x400101011400 s (State.addImage s c u g h n0 n1 n2).1 := by
  fun_induction State.addImage s c u g h n0 n1 n2
  all_goals (repeat' (with_reducible first
    | exact Changes.refl _ _
    | (show Nat.lor _ _ = _; decide)
    | apply Changes.after (State.setTile_changes ..)
    | apply Changes.after (State.count_changes ..)
    | apply Changes.after ‹Changes _ _ _›))

theorem State.addImages_changes (s : State) (c : Ctx) (u g : Nat) (h : Handle) (n0 : _) :
    Changes 0x400101011400 s (State.addImages s c u g h n0).1 := by
  fun_induction State.addImages s c u g h n0
  all_goals (repeat' (with_reducible first
    | exact Changes.refl _ _
    | (show Nat.lor _ _ = _; decide)
    | apply Changes.after (State.addImage_changes ..)
    | apply Changes.after ‹Changes _ _ _›))

theorem State.addRun_changes (s : State) (c : Ctx) (u i g : Nat) (e : Entry) (h : Handle) :
    Changes 0x600101811400 s (State.addRun s c u i g e h) := by
  unfold State.addRun
  repeat' (with_reducible first
    | exact Changes.refl _ _
    | (show Nat.lor _ _ = _; decide)
    | apply Changes.after (State.freeHandleTiles_changes ..)
    | apply Changes.after (State.endEntry_changes ..)
    | apply Changes.after (State.addImages_changes ..)
    | split
    | dsimp only)

/-- A consumer of a handle changes what its run changes (R107). -/
theorem State.consume_changes {m : Nat} (s : State) (u i : Nat) (x : EngUnit) (e : Entry) (run : Option State)
    (hr : someAll (Changes m s) run) (hm : Nat.lor 0x800000 m = m := by decide) : someAll (Changes m s) (s.consume u i x e run) := by
  unfold State.consume
  dsimp only
  split
  · exact (State.refuse_changes s u i e).mono fun a _ h => h.widen hm
  · split
    · exact hr
    · exact someAll.none

theorem State.relHandle_changes (s : State) (g : Nat) (d : List Byte) :
    Changes 0x400001000000 s (State.relHandle s g d) := by
  unfold State.relHandle
  repeat' (with_reducible first
    | exact Changes.refl _ _
    | (show Nat.lor _ _ = _; decide)
    | apply Changes.ite
    | apply Changes.after (State.freeHandle_changes ..)
    | intro _)

theorem State.retireRun_changes (s : State) (c : Ctx) (u : Nat) (e : Entry) (w : Words) (ts : List (SMap Elem)) (un : List Rat × List Rat) :
    Changes 0x800700011400 s (State.retireRun s c u e w ts un).1 := by
  unfold State.retireRun
  repeat' (with_reducible first
    | exact Changes.refl _ _
    | (show Nat.lor _ _ = _; decide)
    | apply State.each_changes
    | apply Changes.after (State.count_changes ..)
    | apply okAll.map (State.putW_changes ..)
    | intro _
    | apply Changes.after ‹Changes _ _ _›)

theorem State.redAt_changes (s : State) (u i : Nat) (c : Ctx) (g : Nat) (ps : List Nat) (lv n : Nat) :
    Changes 0x800000 s (State.redAt s u i c g ps lv n) := by
  unfold State.redAt
  repeat' (with_reducible first
    | exact Changes.refl _ _
    | (show Nat.lor _ _ = _; decide)
    | apply Changes.ite
    | apply Changes.after (State.endEntry_changes ..)
    | apply Changes.after (State.setProg_changes ..)
    | intro _)

theorem State.redAdd_changes (s : State) (c : Ctx) (u g : Nat) (e : Entry) (h : Handle) (n0 : _) (n1 : _) :
    Changes 0x400101011400 s (State.redAdd s c u g e h n0 n1).1 := by
  fun_induction State.redAdd s c u g e h n0 n1
  all_goals (repeat' (with_reducible first
    | exact Changes.refl _ _
    | (show Nat.lor _ _ = _; decide)
    | apply Changes.after (State.addImage_changes ..)
    | apply Changes.after ‹Changes _ _ _›))

theorem State.redReload_changes (s : State) (c : Ctx) (g : Nat) (h : Handle) :
    someAll (okAll (Changes 0xc00701011400 s)) (State.redReload s c g h) := by
  unfold State.redReload
  repeat' (with_reducible first
    | exact Changes.refl _ _
    | assumption
    | apply okAll.ok
    | exact someAll.none
    | apply someAll.some
    | apply someAll.ite
    | apply someAll.mono (State.classChange_changes ..)
    | intro _)

theorem State.pkgForm_changes (s : State) (c : Ctx) (u : Nat) (d : List Byte) :
    Changes 0x800700011400 s (State.pkgForm s c u d).1 := by
  unfold State.pkgForm
  repeat' (with_reducible first
    | exact Changes.refl _ _
    | (show Nat.lor _ _ = _; decide)
    | apply Changes.after (State.count_changes ..)
    | (have hh := okAll.get (State.putW_changes ..) ‹_ = Except.ok _›; apply Changes.after hh; clear hh)
    | split
    | dsimp only)

theorem State.pkgUpload_changes (s : State) (c : Ctx) (e : Entry) (fmt : Nat) :
    okAll (fun p => Changes 0x200000000000 s p.2) (State.pkgUpload s c e fmt) := by
  unfold State.pkgUpload
  repeat' (with_reducible first
    | exact Changes.refl _ _
    | (show Nat.lor _ _ = _; decide)
    | apply Changes.after (State.takeFree_changes ..)
    | apply okAll.mapT
    | intro _)

theorem State.pkgForward_changes (s : State) (e : Entry) (bs : List Byte) :
    Changes 0x101100011400 s (State.pkgForward s e bs) := by
  unfold State.pkgForward
  repeat' (with_reducible first
    | exact Changes.refl _ _
    | (show Nat.lor _ _ = _; decide)
    | apply Changes.after (State.addOut_changes ..)
    | apply Changes.after (State.sendData_changes ..)
    | apply Changes.foldl
    | intro _
    | split)

theorem State.pkgProceed_changes (s : State) (c : Ctx) (u i : Nat) :
    Changes 0xb01700811400 s (State.pkgProceed s c u i) := by
  unfold State.pkgProceed
  repeat' (with_reducible first
    | exact Changes.refl _ _
    | (show Nat.lor _ _ = _; decide)
    | apply Changes.ite
    | apply Changes.after (State.addOut_changes ..)
    | apply Changes.after (State.sendControl_changes ..)
    | apply Changes.after (State.sendData_changes ..)
    | apply Changes.after (State.scramble_changes ..)
    | apply Changes.after (State.endEntry_changes ..)
    | apply Changes.after (State.pkgForward_changes ..)
    | apply Changes.after (State.pkgForm_changes ..)
    | apply Changes.after (State.setProg_changes ..)
    | intro _
    | (have hh := okAll.get (State.pkgUpload_changes ..) ‹_ = Except.ok _›; apply Changes.after hh; clear hh)
    | split
    | dsimp only)

theorem execXreAdd_changes (u : Nat) (s : State) :
    nextAll (Changes 0x620101811400 s) (execXreAdd u s) := by
  unfold execXreAdd
  repeat' (with_reducible first
    | exact Changes.refl _ _
    | (show Nat.lor _ _ = _; decide)
    | exact someAll.none
    | apply someAll.some
    | apply someAll.ite
    | apply nextAll.next
    | apply State.startEngine_changes
    | apply Changes.after (State.openHandle_changes ..)
    | apply Changes.after (State.addRun_changes ..)
    | apply someAll.mono (State.refuse_changes ..)
    | intro _
    | apply Changes.after ‹Changes _ _ _›)

theorem execExportImage_changes (u : Nat) (s : State) :
    nextAll (Changes 0xe20701811400 s) (execExportImage u s) := by
  unfold execExportImage
  repeat' (with_reducible first
    | exact Changes.refl _ _
    | (show Nat.lor _ _ = _; decide)
    | apply someAll.some
    | apply someAll.ite
    | apply nextAll.next
    | apply State.consume_changes
    | apply State.startEngine_changes
    | apply Changes.after (State.scramble_changes ..)
    | apply Changes.after (State.endEntry_changes ..)
    | apply Changes.after (State.relHandle_changes ..)
    | apply Changes.after (State.count_changes ..)
    | apply someAll.mono (State.refuse_changes ..)
    | intro _
    | apply Changes.after ‹Changes _ _ _›
    | (have hh := okAll.get (State.wr_changes ..) ‹_ = Except.ok _›; apply Changes.after hh; clear hh)
    | split
    | dsimp only)

theorem execRetire_changes (u : Nat) (s : State) :
    nextAll (Changes 0xe20701811400 s) (execRetire u s) := by
  unfold execRetire
  repeat' (with_reducible first
    | exact Changes.refl _ _
    | (show Nat.lor _ _ = _; decide)
    | apply someAll.some
    | apply nextAll.next
    | apply State.consume_changes
    | apply State.startEngine_changes
    | apply Changes.after (State.scramble_changes ..)
    | apply Changes.after (State.endEntry_changes ..)
    | apply Changes.after (State.relHandle_changes ..)
    | apply Changes.after (State.retireRun_changes ..)
    | intro _
    | split
    | dsimp only)

theorem execRelease_changes (u : Nat) (s : State) :
    nextAll (Changes 0x620101811400 s) (execRelease u s) := by
  unfold execRelease
  repeat' (with_reducible first
    | exact Changes.refl _ _
    | (show Nat.lor _ _ = _; decide)
    | apply someAll.some
    | apply someAll.ite
    | apply nextAll.next
    | apply State.consume_changes
    | apply State.startEngine_changes
    | apply Changes.after (State.freeHandle_changes ..)
    | apply Changes.after (State.endEntry_changes ..)
    | apply someAll.mono (State.refuse_changes ..)
    | intro _
    | apply Changes.after ‹Changes _ _ _›)

theorem execReduce_changes (u : Nat) (s : State) :
    nextAll (Changes 0x220100811400 s) (execReduce u s) := by
  unfold execReduce
  repeat' (with_reducible first
    | exact Changes.refl _ _
    | (show Nat.lor _ _ = _; decide)
    | exact someAll.none
    | apply someAll.some
    | apply someAll.ite
    | apply nextAll.next
    | apply State.startEngine_changes
    | apply Changes.after (State.redAt_changes ..)
    | apply Changes.after (State.setProg_changes ..)
    | apply someAll.mono (State.refuse_changes ..)
    | intro _
    | apply Changes.after ‹Changes _ _ _›
    | split
    | dsimp only)

theorem execReduceLevelProceed_changes (u : Nat) (s : State) :
    nextAll (Changes 0xe00701951400 s) (execReduceLevelProceed u s) := by
  unfold execReduceLevelProceed
  repeat' (with_reducible first
    | (have hh := okAll.get (someAll.get (State.redReload_changes ..) ‹_ = some (Except.ok _)›) rfl; apply Changes.after hh; clear hh)
    | exact Changes.refl _ _
    | (show Nat.lor _ _ = _; decide)
    | apply nextAll.next
    | apply nextAll.ite
    | apply Changes.after (State.redAt_changes ..)
    | apply Changes.after (State.freeHandle_changes ..)
    | apply Changes.after (State.redAdd_changes ..)
    | apply Changes.after (State.freeHandleTiles_changes ..)
    | apply Changes.after (State.endEntry_changes ..)
    | apply Changes.after (State.signal_changes ..)
    | apply Changes.after (State.count_changes ..)
    | intro _
    | (have hh := okAll.get (State.wr_changes ..) ‹_ = Except.ok _›; apply Changes.after hh; clear hh)
    | split
    | dsimp only)

theorem execPkgsum_changes (u : Nat) (s : State) :
    nextAll (Changes 0xb21700811400 s) (execPkgsum u s) := by
  unfold execPkgsum
  repeat' (with_reducible first
    | exact Changes.refl _ _
    | (show Nat.lor _ _ = _; decide)
    | apply someAll.some
    | apply nextAll.next
    | apply State.startEngine_changes
    | apply Changes.after (State.addOut_changes ..)
    | apply Changes.after (State.sendControl_changes ..)
    | apply Changes.after (State.pkgProceed_changes ..)
    | apply Changes.after (State.endEntry_changes ..)
    | apply Changes.after (State.setProg_changes ..)
    | apply Changes.foldl
    | intro _
    | split)

theorem execPkgsumGrant_changes (u : Nat) (addr : Addr) (fmt : Byte) (count : Nat) (s : State) :
    nextAll (Changes 0xb01700811400 s) (execPkgsumGrant u addr fmt count s) := by
  unfold execPkgsumGrant
  repeat' (with_reducible first
    | exact Changes.refl _ _
    | (show Nat.lor _ _ = _; decide)
    | apply nextAll.next
    | apply nextAll.ite
    | apply Changes.after (State.addOut_changes ..)
    | apply Changes.after (State.sendControl_changes ..)
    | apply Changes.after (State.pkgProceed_changes ..)
    | apply Changes.after (State.endEntry_changes ..)
    | apply Changes.after (State.setProg_changes ..)
    | intro _
    | split)

theorem execPkgsumErrorFlit_changes (u : Nat) (s : State) :
    nextAll (Changes 0x800000 s) (execPkgsumErrorFlit u s) := by
  unfold execPkgsumErrorFlit
  repeat' (with_reducible first
    | exact Changes.refl _ _
    | (show Nat.lor _ _ = _; decide)
    | apply nextAll.next
    | apply nextAll.ite
    | apply Changes.after (State.endEntry_changes ..)
    | intro _
    | split)

theorem execPkgsumChildArrival_changes (u child : Nat) (bytes : List Byte) (dst : Addr) (s : State) :
    nextAll (Changes 0xb01700811400 s) (execPkgsumChildArrival u child bytes dst s) := by
  unfold execPkgsumChildArrival
  repeat' (with_reducible first
    | exact Changes.refl _ _
    | (show Nat.lor _ _ = _; decide)
    | apply nextAll.next
    | apply nextAll.ite
    | apply Changes.after (State.pkgProceed_changes ..)
    | apply Changes.after (State.endEntry_changes ..)
    | apply Changes.after (State.setProg_changes ..)
    | intro _
    | (have hh := okAll.get (State.wr_changes ..) ‹_ = Except.ok _›; apply Changes.after hh; clear hh)
    | split)

theorem execPkgsumBroadcast_changes (u : Nat) (bytes : List Byte) (s : State) :
    nextAll (Changes 0xb01700811400 s) (execPkgsumBroadcast u bytes s) := by
  unfold execPkgsumBroadcast
  repeat' (with_reducible first
    | exact Changes.refl _ _
    | (show Nat.lor _ _ = _; decide)
    | apply nextAll.next
    | apply nextAll.ite
    | apply Changes.after (State.scramble_changes ..)
    | apply Changes.after (State.endEntry_changes ..)
    | apply Changes.after (State.pkgForward_changes ..)
    | intro _
    | (have hh := okAll.get (State.wr_changes ..) ‹_ = Except.ok _›; apply Changes.after hh; clear hh)
    | split)

end Sys2Proof.Machine
end

