-- ==== Sys2Proof/Laws/Dma.lean ====
section
/-! SUPPORT. What each operation of Machine/Dma.lean may change (the masks number the fields of State in order). -/

set_option Elab.async false

namespace Sys2Proof.Machine

theorem State.scrambleOverlap_changes (s : State) (c : Ctx) (d : List Byte) :
    Changes 0x200100000000 s (State.scrambleOverlap s c d) := by
  unfold State.scrambleOverlap
  repeat' (with_reducible first
    | exact Changes.refl _ _
    | (show Nat.lor _ _ = _; decide)
    | apply Changes.ite
    | apply Changes.after (State.takeFree_changes ..)
    | apply Changes.after (State.setBytes_changes ..)
    | apply Changes.foldl
    | intro _)

theorem State.dmaMoved_changes (s : State) (c : Ctx) (u port : Nat) (src : Option Nat) (dst n : Nat) :
    Changes 0x800100011400 s (State.dmaMoved s c u port src dst n) := by
  unfold State.dmaMoved
  repeat' (with_reducible first
    | exact Changes.refl _ _
    | (show Nat.lor _ _ = _; decide)
    | apply Changes.after (State.moved_changes ..)
    | split)

theorem State.cpyRun_changes (s : State) (s0 : State) (c : Ctx) (u i : Nat) (e : Entry) (n0 : _) (n1 : _) :
    Changes 0xa00700811400 s (State.cpyRun s s0 c u i e n0 n1) := by
  fun_induction State.cpyRun s s0 c u i e n0 n1
  all_goals (repeat' (with_reducible first
    | exact Changes.refl _ _
    | (show Nat.lor _ _ = _; decide)
    | apply Changes.after (State.dmaMoved_changes ..)
    | apply Changes.after (State.scrambleOverlap_changes ..)
    | apply Changes.after (State.scramble_changes ..)
    | apply Changes.after (State.endEntry_changes ..)
    | apply Changes.after (State.count_changes ..)
    | apply Changes.foldl
    | intro _
    | apply Changes.after ‹Changes _ _ _›
    | (have hh := okAll.get (State.wr_changes ..) ‹_ = Except.ok _›; apply Changes.after hh; clear hh)))

theorem execDmaCopy_changes (u : Nat) (s : State) :
    nextAll (Changes 0xa20700811400 s) (execDmaCopy u s) := by
  unfold execDmaCopy
  repeat' (with_reducible first
    | exact Changes.refl _ _
    | (show Nat.lor _ _ = _; decide)
    | apply someAll.some
    | apply someAll.ite
    | apply nextAll.next
    | apply State.startEngine_changes
    | apply Changes.after (State.cpyRun_changes ..)
    | apply someAll.mono (State.refuse_changes ..)
    | intro _
    | apply Changes.after ‹Changes _ _ _›)

theorem execStream_changes (u : Nat) (s : State) :
    nextAll (Changes 0x220100811400 s) (execStream u s) := by
  unfold execStream
  repeat' (with_reducible first
    | exact Changes.refl _ _
    | (show Nat.lor _ _ = _; decide)
    | apply someAll.some
    | apply someAll.ite
    | apply nextAll.next
    | apply State.startEngine_changes
    | apply Changes.after (State.setProg_changes ..)
    | apply someAll.mono (State.refuse_changes ..)
    | intro _
    | apply Changes.after ‹Changes _ _ _›)

theorem execStreamChunk_changes (u : Nat) (s : State) :
    nextAll (Changes 0xa00700951400 s) (execStreamChunk u s) := by
  unfold execStreamChunk
  repeat' (with_reducible first
    | exact Changes.refl _ _
    | (show Nat.lor _ _ = _; decide)
    | apply nextAll.next
    | apply nextAll.ite
    | apply Changes.ite
    | apply Changes.after (State.dmaMoved_changes ..)
    | apply Changes.after (State.signalFrom_changes ..)
    | apply Changes.after (State.scramble_changes ..)
    | apply Changes.after (State.endEntry_changes ..)
    | apply Changes.after (State.count_changes ..)
    | apply Changes.after (State.setProg_changes ..)
    | apply Changes.foldl
    | intro _
    | (have hh := okAll.get (State.wr_changes ..) ‹_ = Except.ok _›; apply Changes.after hh; clear hh)
    | split)

end Sys2Proof.Machine
end

