-- ==== Sys2Proof/Laws/Kv.lean ====
section
/-! SUPPORT. What each operation of Machine/Kv.lean may change (the masks number the fields of State in order). -/

set_option Elab.async false

namespace Sys2Proof.Machine

/-- Every state that an answer of the page service carries satisfies `P`. -/
inductive KvAns.all (P : State → Prop) : KvAns → Prop
  | done {s : State} (h : P s) : KvAns.all P (.done s)
  | parked {s : State} {code : BitVec 16} (h : P s) : KvAns.all P (.parked s code)
  | bad : KvAns.all P .bad

/-- Every state that a work entry of KVWRITE leaves satisfies `P`. -/
inductive KvWr.all (P : State → Prop) : KvWr → Prop
  | done {s : State} (h : P s) : KvWr.all P (.done s)
  | wait {s : State} (h : P s) : KvWr.all P (.wait s)

theorem KvWr.all.mono {P Q : State → Prop} {r : KvWr} (h : KvWr.all P r) (k : ∀ a, P a → Q a) : KvWr.all Q r := by
  cases h with
  | done h => exact .done (k _ h)
  | wait h => exact .wait (k _ h)

/-- Every state that a step of KVREAD leaves satisfies `P`. -/
inductive KvRd.all (P : State → Prop) : KvRd → Prop
  | done {s : State} (h : P s) : KvRd.all P (.done s)
  | wait {s : State} (h : P s) : KvRd.all P (.wait s)

theorem KvRd.all.mono {P Q : State → Prop} {r : KvRd} (h : KvRd.all P r) (k : ∀ a, P a → Q a) : KvRd.all Q r := by
  cases h with
  | done h => exact .done (k _ h)
  | wait h => exact .wait (k _ h)

/-- Every state that a walk's pins leave satisfies `P`. -/
inductive KvPins.holds (P : State → Prop) : KvPins → Prop
  | all {s : State} {l : List Nat} (h : P s) : KvPins.holds P (.all s l)
  | refused {s : State} {l : List Nat} (h : P s) : KvPins.holds P (.refused s l)
  | full {s : State} {l : List Nat} (h : P s) : KvPins.holds P (.full s l)

theorem KvPins.holds.mono {P Q : State → Prop} {r : KvPins} (h : KvPins.holds P r) (k : ∀ a, P a → Q a) : KvPins.holds Q r := by
  cases h with
  | all h => exact .all (k _ h)
  | refused h => exact .refused (k _ h)
  | full h => exact .full (k _ h)

/-- Every state that the page service leaves for a list entry satisfies `P`. -/
inductive Grown.all (P : State → Prop) : Grown → Prop
  | ok {s : State} (h : P s) : Grown.all P (.ok s)
  | noPage {s : State} (h : P s) : Grown.all P (.noPage s)
  | stale {s : State} (h : P s) : Grown.all P (.stale s)
  | ue {s : State} {f : Fail} (h : P s) : Grown.all P (.ue s f)

theorem KvAns.all.mono {P Q : State → Prop} {r : KvAns} (h : KvAns.all P r) (k : ∀ a, P a → Q a) : KvAns.all Q r := by
  cases h with
  | done h => exact .done (k _ h)
  | parked h => exact .parked (k _ h)
  | bad => exact .bad


theorem State.putVal_changes (s : State) (w : Who) (a n v : Nat) :
    okAll (Changes 0x800700000000 s) (State.putVal s w a n v) := by
  unfold State.putVal
  repeat' (with_reducible first
    | assumption
    | apply okAll.mono (State.write_changes ..)
    | intro _)

theorem State.setSeqState_changes (s : State) (w : Who) (q : Seqt) (slot : Nat) (r : SeqRec) (st : Nat) :
    okAll (Changes 0x800700000000 s) (State.setSeqState s w q slot r st) := by
  unfold State.setSeqState
  repeat' (with_reducible first
    | assumption
    | apply okAll.mono (State.putVal_changes ..)
    | intro _)

theorem State.poolBump_changes (s : State) (w : Who) (q : Seqt) (off : Nat) :
    okAll (Changes 0x800700000000 s) (State.poolBump s w q off) := by
  unfold State.poolBump
  repeat' (with_reducible first
    | assumption
    | exact okAll.error
    | apply okAll.mono (State.putVal_changes ..)
    | intro _
    | split)

theorem State.putMeta_changes (s : State) (w : Who) (q : Seqt) (n : Nat) (p : PageWord) :
    okAll (Changes 0x800700011400 s) (State.putMeta s w q n p) := by
  unfold State.putMeta
  repeat' (with_reducible first
    | exact Changes.refl _ _
    | (show Nat.lor _ _ = _; decide)
    | apply okAll.pure
    | apply Changes.after (State.countAtomic_changes ..)
    | apply okAll.bind (State.putVal_changes ..)
    | apply okAll.bindT
    | intro _
    | apply Changes.after ‹Changes _ _ _›)

theorem State.allocPage_changes (s : State) (w : Who) (q : Seqt) (fill : Nat) :
    okAll (someAll fun p => Changes 0x800700011400 s p.2) (State.allocPage s w q fill) := by
  unfold State.allocPage
  repeat' (with_reducible first
    | exact Changes.refl _ _
    | (show Nat.lor _ _ = _; decide)
    | apply okAll.pure
    | apply okAll.ite
    | exact someAll.none
    | apply someAll.some
    | apply okAll.bind (State.putMeta_changes ..)
    | apply okAll.bind (State.putVal_changes ..)
    | apply okAll.bind (State.poolBump_changes ..)
    | apply okAll.bindT
    | intro _
    | apply Changes.after ‹Changes _ _ _›)

theorem State.pageReturn_changes (s : State) (w : Who) (q : Seqt) (n : Nat) (m : PageWord) :
    okAll (Changes 0x800700011400 s) (State.pageReturn s w q n m) := by
  unfold State.pageReturn
  repeat' (with_reducible first
    | assumption
    | (show Nat.lor _ _ = _; decide)
    | apply okAll.ite
    | apply okAll.bind (State.putMeta_changes ..)
    | apply okAll.mono (State.putMeta_changes ..)
    | apply okAll.bind (State.putVal_changes ..)
    | apply okAll.mono (State.putVal_changes ..)
    | apply okAll.bindT
    | intro _
    | apply Changes.after ‹Changes _ _ _›)

theorem State.dropRef_changes (s : State) (w : Who) (q : Seqt) (n : Nat) :
    okAll (Changes 0x800700011400 s) (State.dropRef s w q n) := by
  unfold State.dropRef
  repeat' (with_reducible first
    | assumption
    | apply okAll.mono (State.pageReturn_changes ..)
    | apply okAll.bindT
    | intro _)

/-- An operation over pairs changes what it changes for each. -/
theorem State.overPairs_changes {m : Nat} (f : State → Nat → Nat → Except Fail State) (hf : ∀ t a b, okAll (Changes m t) (f t a b)) :
    ∀ (l : List (Nat × Nat)) (s : State), okAll (Changes m s) (s.overPairs f l)
  | [], s => okAll.ok (Changes.refl m s)
  | p :: r, s => by
    unfold State.overPairs
    split
    · exact okAll.error
    · next t h =>
      exact (State.overPairs_changes f hf r t).mono fun a _ ha => ((hf s p.1 p.2).get h).andThen ha (Nat.or_self m)

theorem State.dropEnt_changes (s : State) (w : Who) (q : Seqt) (r : SeqRec) (lh i : Nat) :
    okAll (Changes 0x800700011400 s) (State.dropEnt s w q r lh i) := by
  unfold State.dropEnt
  repeat' (with_reducible first
    | exact Changes.refl _ _
    | assumption
    | apply okAll.pure
    | apply okAll.mono (State.dropRef_changes ..)
    | apply okAll.bindT
    | intro _
    | split)

theorem State.parkSeq_changes (s : State) (c : Ctx) (k : KvSrc) (q : Seqt) (slot : Nat) (code : BitVec 16) (addr : Nat) :
    okAll (Changes 0x800700011400 s) (State.parkSeq s c k q slot code addr) := by
  unfold State.parkSeq
  repeat' (with_reducible first
    | exact Changes.refl _ _
    | (show Nat.lor _ _ = _; decide)
    | apply okAll.pure
    | apply okAll.ite
    | apply Changes.after (State.memFail_changes ..)
    | apply Changes.after (State.event_changes ..)
    | apply okAll.bindPure
    | apply okAll.bind (State.setSeqState_changes ..)
    | apply okAll.bind (State.poolBump_changes ..)
    | apply okAll.bindT
    | intro _
    | apply Changes.after ‹Changes _ _ _›)

theorem State.swapOut_changes (s : State) (w : Who) (q : Seqt) (slot : Nat) (r : SeqRec) :
    okAll (Changes 0x800700011400 s) (State.swapOut s w q slot r) := by
  unfold State.swapOut
  repeat' (with_reducible first
    | refine okAll.bind (State.overPairs_changes (m := 0x800700011400) _ (fun _ _ _ => ?_) _ _) ?_
    | exact Changes.refl _ _
    | assumption
    | (show Nat.lor _ _ = _; decide)
    | apply okAll.pure
    | apply okAll.bind (State.setSeqState_changes ..)
    | apply okAll.mono (State.write_changes ..)
    | apply okAll.mono (State.dropEnt_changes ..)
    | apply okAll.mono (State.poolBump_changes ..)
    | apply okAll.bindT
    | intro _
    | apply Changes.after ‹Changes _ _ _›
    | split)

theorem State.allocOrSwap_changes (s : State) (c : Ctx) (q : Seqt) (fill prio me : Nat) (l : List (Nat × SeqRec)) :
    okAll (fun p => (∀ q, p.1 = some q → Changes 0x800700011400 s q.2) ∧ Changes 0x800700011400 s p.2) (s.allocOrSwap c q fill prio me l) := by
  induction l generalizing s with
  | nil =>
    unfold State.allocOrSwap
    split
    · exact okAll.error
    · next r h =>
      refine okAll.ok ⟨fun x hx => ?_, Changes.refl _ _⟩
      dsimp only at hx; subst hx
      exact ((okAll.get (State.allocPage_changes ..) h).get rfl).widen
  | cons v rest ih =>
    unfold State.allocOrSwap
    split
    · exact okAll.error
    · next r h =>
      refine okAll.ok ⟨fun x hx => ?_, Changes.refl _ _⟩
      cases hx
      exact ((okAll.get (State.allocPage_changes ..) h).get rfl).widen
    · split
      · next s1 h =>
        have h1 := okAll.get (State.swapOut_changes ..) h
        exact (ih s1).mono fun p _ hp => ⟨fun x hx => h1.widen.andThen (hp.1 x hx), h1.widen.andThen hp.2⟩
      · exact ih s

theorem State.takePage_changes (s : State) (c : Ctx) (q : Seqt) (r : SeqRec) (fill me : Nat) :
    okAll (fun p => (∀ q, p.1 = some q → Changes 0x800700011400 s q.2) ∧ Changes 0x800700011400 s p.2) (s.takePage c q r fill me) :=
  State.allocOrSwap_changes ..

theorem State.takePage_some {s t u : State} {c : Ctx} {q : Seqt} {r : SeqRec} {fill me n : Nat}
    (h : s.takePage c q r fill me = .ok (some (n, t), u)) : Changes 0x800700011400 s t :=
  ((State.takePage_changes ..).get h).1 (n, t) rfl

theorem State.takePage_none {s u : State} {c : Ctx} {q : Seqt} {r : SeqRec} {fill me : Nat}
    (h : s.takePage c q r fill me = .ok (none, u)) : Changes 0x800700011400 s u :=
  ((State.takePage_changes ..).get h).2

theorem State.growEnt_changes (s : State) (c : Ctx) (q : Seqt) (slot : Nat) (r : SeqRec) (lh i : Nat) :
    okAll (Grown.all (Changes 0xa00700011400 s)) (State.growEnt s c q slot r lh i) := by
  unfold State.growEnt
  repeat' (with_reducible first
    | (have hh := State.takePage_some ‹_›; apply Changes.after hh; clear hh)
    | (have hh := State.takePage_none ‹_›; apply Changes.after hh; clear hh)
    | exact Changes.refl _ _
    | (show Nat.lor _ _ = _; decide)
    | apply okAll.pure
    | apply okAll.ite
    | apply Grown.all.ok
    | apply Grown.all.noPage
    | apply Grown.all.stale
    | apply Grown.all.ue
    | apply Changes.after (State.count_changes ..)
    | apply Changes.after (State.nearMoved_changes ..)
    | apply okAll.bind (State.takePage_changes ..)
    | apply okAll.bind (State.write_changes ..)
    | apply okAll.bind (State.putVal_changes ..)
    | apply okAll.bind (State.dropRef_changes ..)
    | apply okAll.bind (State.poolBump_changes ..)
    | apply okAll.bindT
    | intro _
    | apply Changes.after ‹Changes _ _ _›
    | split)

theorem State.growAll_changes (s : State) (c : Ctx) (q : Seqt) (slot : Nat) (r : SeqRec) (l : List (Nat × Nat)) :
    okAll (Grown.all (Changes 0xa00700011400 s)) (s.growAll c q slot r l) := by
  induction l generalizing s with
  | nil => exact okAll.ok (.ok (Changes.refl _ _))
  | cons p rest ih =>
    unfold State.growAll
    split
    · exact okAll.error
    · next t h =>
      cases okAll.get (State.growEnt_changes ..) h with
      | ok h1 =>
        refine (ih t).mono fun g _ hg => ?_
        cases hg with
        | ok h2 => exact .ok (h1.andThen h2)
        | noPage h2 => exact .noPage (h1.andThen h2)
        | stale h2 => exact .stale (h1.andThen h2)
        | ue h2 => exact .ue (h1.andThen h2)
    · next g _ h => exact okAll.ok (okAll.get (State.growEnt_changes ..) h)

theorem State.kvOpen_changes (s : State) (c : Ctx) (q : Seqt) (slot prio base cap swap : Nat) :
    okAll (KvAns.all (Changes 0x800700000000 s)) (State.kvOpen s c q slot prio base cap swap) := by
  unfold State.kvOpen
  repeat' (with_reducible first
    | refine okAll.bind (State.overPairs_changes (m := 0x800700000000) _ (fun _ _ _ => ?_) _ _) ?_
    | assumption
    | (show Nat.lor _ _ = _; decide)
    | apply okAll.pure
    | apply okAll.ite
    | apply KvAns.all.done
    | exact KvAns.all.bad
    | apply okAll.bindPure
    | apply okAll.bind (State.putVal_changes ..)
    | apply okAll.mono (State.putVal_changes ..)
    | apply okAll.bindT
    | intro _
    | apply Changes.after ‹Changes _ _ _›)

theorem State.kvFork_changes (s : State) (c : Ctx) (q : Seqt) (slot d len : Nat) :
    okAll (KvAns.all (Changes 0x800700011400 s)) (State.kvFork s c q slot d len) := by
  unfold State.kvFork
  repeat' (with_reducible first
    | refine okAll.bind (State.overPairs_changes (m := 0x800700011400) _ (fun _ _ _ => ?_) _ _) ?_
    | exact Changes.refl _ _
    | assumption
    | (show Nat.lor _ _ = _; decide)
    | apply okAll.pure
    | apply okAll.ite
    | apply KvAns.all.done
    | exact KvAns.all.bad
    | apply okAll.bind (State.setSeqState_changes ..)
    | apply okAll.mono (State.putMeta_changes ..)
    | apply okAll.bind (State.putVal_changes ..)
    | apply okAll.mono (State.putVal_changes ..)
    | apply okAll.bindT
    | intro _
    | apply Changes.after ‹Changes _ _ _›
    | split)

theorem State.kvSeal_changes (s : State) (c : Ctx) (q : Seqt) (slot : Nat) :
    okAll (KvAns.all (Changes 0x800700011400 s)) (State.kvSeal s c q slot) := by
  unfold State.kvSeal
  repeat' (with_reducible first
    | refine okAll.bind (State.overPairs_changes (m := 0x800700011400) _ (fun _ _ _ => ?_) _ _) ?_
    | exact Changes.refl _ _
    | assumption
    | apply okAll.pure
    | apply okAll.ite
    | apply KvAns.all.done
    | exact KvAns.all.bad
    | apply okAll.mono (State.putMeta_changes ..)
    | apply okAll.bindT
    | intro _
    | split)

theorem State.kvGrow_changes (s : State) (c : Ctx) (k : KvSrc) (q : Seqt) (slot len : Nat) :
    okAll (KvAns.all (Changes 0xa00700011400 s)) (State.kvGrow s c k q slot len) := by
  unfold State.kvGrow
  repeat' (with_reducible first
    | cases ‹Grown.all _ (Grown.ok _)›
    | cases ‹Grown.all _ (Grown.noPage _)›
    | cases ‹Grown.all _ (Grown.stale _)›
    | cases ‹Grown.all _ (Grown.ue _ _)›
    | exact Changes.refl _ _
    | assumption
    | (show Nat.lor _ _ = _; decide)
    | apply okAll.pure
    | apply okAll.ite
    | apply KvAns.all.done
    | apply KvAns.all.parked
    | exact KvAns.all.bad
    | apply okAll.bind (State.growAll_changes ..)
    | apply okAll.bind (State.parkSeq_changes ..)
    | apply okAll.bindT
    | intro _
    | apply Changes.after ‹Changes _ _ _›
    | split)

theorem State.kvTrim_changes (s : State) (c : Ctx) (q : Seqt) (slot len : Nat) :
    okAll (KvAns.all (Changes 0x800700011400 s)) (State.kvTrim s c q slot len) := by
  unfold State.kvTrim
  repeat' (with_reducible first
    | refine okAll.bind (State.overPairs_changes (m := 0x800700011400) _ (fun _ _ _ => ?_) _ _) ?_
    | exact Changes.refl _ _
    | assumption
    | (show Nat.lor _ _ = _; decide)
    | apply okAll.pure
    | apply okAll.ite
    | apply KvAns.all.done
    | exact KvAns.all.bad
    | apply okAll.bindPure
    | apply okAll.bind (State.dropEnt_changes ..)
    | apply okAll.bind (State.putVal_changes ..)
    | apply okAll.mono (State.putVal_changes ..)
    | apply okAll.bindT
    | intro _
    | apply Changes.after ‹Changes _ _ _›)

theorem State.kvFree_changes (s : State) (c : Ctx) (q : Seqt) (slot : Nat) :
    okAll (KvAns.all (Changes 0x800700011400 s)) (State.kvFree s c q slot) := by
  unfold State.kvFree
  repeat' (with_reducible first
    | refine okAll.bind (State.overPairs_changes (m := 0x800700011400) _ (fun _ _ _ => ?_) _ _) ?_
    | exact Changes.refl _ _
    | assumption
    | (show Nat.lor _ _ = _; decide)
    | apply okAll.pure
    | apply okAll.ite
    | apply KvAns.all.done
    | exact KvAns.all.bad
    | apply okAll.bindPure
    | apply okAll.bind (State.setSeqState_changes ..)
    | apply okAll.mono (State.dropEnt_changes ..)
    | apply okAll.bindT
    | intro _
    | apply Changes.after ‹Changes _ _ _›)

theorem State.kvResume_changes (s : State) (c : Ctx) (q : Seqt) (slot : Nat) :
    okAll (KvAns.all (Changes 0x800700000000 s)) (State.kvResume s c q slot) := by
  unfold State.kvResume
  repeat' (with_reducible first
    | assumption
    | apply okAll.pure
    | apply okAll.ite
    | apply KvAns.all.done
    | exact KvAns.all.bad
    | apply okAll.bind (State.setSeqState_changes ..)
    | apply okAll.bindT
    | intro _)

/-- A page of the swap area copied into page `n`. -/
theorem State.swapPut_changes (s : State) (w : Who) (q : Seqt) (src ent n : Nat) : okAll (Changes 0x800700000000 s) (do
    let bs ← s.read w src 65536
    let a ← s.pageData w q n
    let s2 ← s.write w a bs
    let m ← s2.pageMeta w q n
    s2.putVal w ent 8 (entOf n m.gen)) := by
  apply okAll.bindT; intro _ _
  apply okAll.bindT; intro _ _
  apply okAll.bind (State.write_changes ..); intro _ _ h
  apply okAll.bindT; intro _ _
  exact (State.putVal_changes ..).mono fun _ _ k => h.widen.andThen k

theorem State.swapFill_changes (s : State) (w : Who) (q : Seqt) (r : SeqRec) (l : List (Nat × Nat)) :
    okAll (someAll (Changes 0x800700011400 s)) (s.swapFill w q r l) := by
  induction l generalizing s with
  | nil => exact okAll.ok (someAll.some (Changes.refl _ _))
  | cons p rest ih =>
    unfold State.swapFill
    split
    · exact okAll.error
    · split
      · exact ih s
      · split
        · exact okAll.error
        · exact okAll.ok someAll.none
        · next n s1 h =>
          have h1 : Changes 0x800700011400 s s1 := (((okAll.get (State.allocPage_changes ..) h).get rfl)).widen
          dsimp only
          split
          · exact okAll.error
          · next s3 h3 =>
            have h2 : Changes 0x800700011400 s s3 := h1.andThen (okAll.get (State.swapPut_changes ..) h3)
            exact (ih s3).mono fun o _ ho => ho.mono fun a _ ha => h2.andThen ha

theorem State.kvSwapin_changes (s : State) (c : Ctx) (q : Seqt) (slot : Nat) :
    okAll (KvAns.all (Changes 0x800700011400 s)) (State.kvSwapin s c q slot) := by
  unfold State.kvSwapin
  repeat' (with_reducible first
    | (have hh := someAll.get ‹someAll _ (some _)› rfl; apply Changes.after hh; clear hh)
    | exact Changes.refl _ _
    | assumption
    | (show Nat.lor _ _ = _; decide)
    | apply okAll.pure
    | apply okAll.ite
    | apply KvAns.all.done
    | apply KvAns.all.parked
    | exact KvAns.all.bad
    | apply okAll.bindFoldlM (m := 0x800700011400)
    | apply okAll.bind (State.setSeqState_changes ..)
    | apply okAll.bind (State.swapFill_changes ..)
    | apply okAll.mono (State.dropRef_changes ..)
    | apply okAll.bind (State.allocPage_changes ..)
    | apply okAll.bindT
    | intro _
    | apply Changes.after ‹Changes _ _ _›
    | split)

theorem State.refreshList_changes (s : State) (c : Ctx) (q : Seqt) (slot : Nat) :
    okAll (fun p => Changes 0x800700000000 s p.1) (State.refreshList s c q slot) := by
  unfold State.refreshList
  repeat' (with_reducible first
    | refine okAll.bind (State.overPairs_changes (m := 0x800700000000) _ (fun _ _ _ => ?_) _ _) ?_
    | exact Changes.refl _ _
    | assumption
    | (show Nat.lor _ _ = _; decide)
    | apply okAll.pure
    | apply okAll.ite
    | apply okAll.bind (State.putVal_changes ..)
    | apply okAll.bind (State.poolBump_changes ..)
    | apply okAll.mono (State.poolBump_changes ..)
    | apply okAll.bindT
    | intro _
    | apply Changes.after ‹Changes _ _ _›)

theorem State.kvFinish_changes (s : State) (c : Ctx) (u i : Nat) (e : Entry) (b out : Nat) (err : BitVec 16) :
    okAll (Changes 0x800700811400 s) (State.kvFinish s c u i e b out err) := by
  unfold State.kvFinish
  repeat' (with_reducible first
    | exact Changes.refl _ _
    | (show Nat.lor _ _ = _; decide)
    | apply okAll.pure
    | apply Changes.ite
    | apply Changes.after (State.count_changes ..)
    | apply Changes.after (State.setProg_changes ..)
    | apply okAll.bind (State.wr_changes ..)
    | apply okAll.bindT
    | intro _
    | apply Changes.after ‹Changes _ _ _›)

theorem State.unpin_changes (s : State) (w : Who) (q : Seqt) (l : List Nat) : okAll (Changes 0x800700011400 s) (s.unpin w q l) := by
  induction l generalizing s with
  | nil => exact okAll.ok (Changes.refl _ _)
  | cons n r ih =>
    have h1 : okAll (Changes 0x800700011400 s) (do
        let m ← s.pageMeta w q n
        s.pageReturn w q n { m with pin := m.pin - 1 }) := by
      apply okAll.bindT; intro _ _
      exact (State.pageReturn_changes ..).mono fun _ _ h => h.widen
    unfold State.unpin
    dsimp only
    split
    · exact okAll.error
    · next t h => exact (ih t).mono fun _ _ k => (h1.get h).andThen k

theorem State.kvPin_changes (s : State) (c : Ctx) (u : Nat) (q : Seqt) (r : SeqRec) (lh n i : Nat) (pins : List Nat) :
    okAll (KvPins.holds (Changes 0x800700011400 s)) (s.kvPin c u q r lh n i pins) := by
  induction n generalizing s i pins with
  | zero => exact okAll.ok (.all (Changes.refl _ _))
  | succ n ih =>
    unfold State.kvPin
    split
    · exact okAll.error
    · split
      · exact okAll.ok (.full (Changes.refl _ _))
      · split
        · exact okAll.error
        · next t h =>
          have h1 := (okAll.get (State.putMeta_changes ..) h).widen (m := 0x800700011400)
          exact (ih _ _ _).mono fun p _ hp => hp.mono fun _ k => (h1.andThen (State.count_changes ..)).andThen k
    · exact okAll.ok (.refused (State.count_changes ..).widen)

theorem State.kvPutRows_changes (s : State) (c : Ctx) (e : Entry) (rb b : Nat) (rows : List (List Byte × List Byte)) :
    okAll (Changes 0x800700000000 s) (State.kvPutRows s c e rb b rows) := by
  unfold State.kvPutRows
  repeat' (with_reducible first
    | exact Changes.refl _ _
    | assumption
    | (show Nat.lor _ _ = _; decide)
    | apply okAll.pure
    | apply okAll.ite
    | apply okAll.bind (State.wr_changes ..)
    | apply okAll.mono (State.wr_changes ..)
    | apply okAll.foldlM
    | intro _
    | apply Changes.after ‹Changes _ _ _›
    | split)

theorem State.kvReadRows_changes (s : State) (c : Ctx) (x : EngUnit) (u i : Nat) (e : Entry) (q : Seqt) (b slot : Nat) (r : SeqRec)
    (pins : List Nat) :
    okAll (Changes 0x800700811400 s) (State.kvReadRows s c x u i e q b slot r pins) := by
  unfold State.kvReadRows
  repeat' (with_reducible first
    | exact Changes.refl _ _
    | (show Nat.lor _ _ = _; decide)
    | exact okAll.error
    | apply okAll.ite
    | apply Changes.after (State.count_changes ..)
    | apply okAll.mono (State.kvFinish_changes ..)
    | apply okAll.bind (State.kvPutRows_changes ..)
    | apply okAll.bind (State.unpin_changes ..)
    | apply okAll.bind (State.parkSeq_changes ..)
    | apply okAll.bindT
    | intro _
    | apply Changes.after ‹Changes _ _ _›
    | split)

theorem State.kvWalk_changes (s : State) (c : Ctx) (x : EngUnit) (u i : Nat) (e : Entry) (q : Seqt) (b slot : Nat) (r : SeqRec)
    (pins : List Nat) : okAll (KvRd.all (Changes 0x800700811400 s)) (s.kvWalk c x u i e q b slot r pins) := by
  unfold State.kvWalk
  apply okAll.bind (State.kvPin_changes ..); intro p _ hp
  cases hp with
  | all h =>
    exact okAll.bind (State.kvReadRows_changes ..) fun _ _ k => okAll.pure (.done (h.widen.andThen k))
  | refused h =>
    refine okAll.bind (State.unpin_changes ..) fun _ _ h1 => ?_
    refine okAll.bind (State.poolBump_changes ..) fun _ _ h2 => ?_
    exact okAll.bind (State.kvFinish_changes ..) fun _ _ h3 =>
      okAll.pure (.done (((h.widen.andThen h1).andThen h2).andThen h3))
  | full h => exact okAll.pure (.wait (h.widen.andThen (State.setProg_changes ..)))

theorem State.kvReadOne_changes (s : State) (c : Ctx) (x : EngUnit) (u i : Nat) (e : Entry) (q : Seqt) (b : Nat) (w : Option Walk) :
    okAll (KvRd.all (Changes 0x800700811400 s)) (s.kvReadOne c x u i e q b w) := by
  have fin : ∀ t out err, Changes 0x800700811400 s t →
      okAll (KvRd.all (Changes 0x800700811400 s)) (do let y ← t.kvFinish c u i e b out err; pure (KvRd.done y)) := fun t _ _ h =>
    okAll.bind (State.kvFinish_changes ..) fun _ _ k => okAll.pure (.done (h.andThen k))
  unfold State.kvReadOne
  apply okAll.bindT; intro v _
  dsimp only
  split
  · exact fin _ _ _ (Changes.refl _ _)
  · apply okAll.bindT; intro r _
    split
    · exact (State.kvWalk_changes ..).mono fun _ _ h => h.mono fun _ k => k.widen
    · split
      · exact fin _ _ _ (Changes.refl _ _)
      · apply okAll.bind (State.putVal_changes ..); intro s0 _ h0
        have h1 : Changes 0x800700811400 s s0 := h0.widen
        split
        · split
          · exact fin _ _ _ h1
          · exact okAll.bind (State.kvReadRows_changes ..) fun _ _ k => okAll.pure (.done (h1.andThen k))
        · exact (State.kvWalk_changes ..).mono fun _ _ h => h.mono fun _ k => h1.andThen k

theorem State.dropWalk_changes (s : State) (c : Ctx) (e : Entry) : Changes 0x800700011400 s (s.dropWalk c e) := by
  unfold State.dropWalk
  split
  · exact onOk_cases _ _ _ (fun _ _ => Changes.refl _ _) fun _ h => (okAll.get (State.unpin_changes ..) h).widen
  · exact Changes.refl _ _

theorem State.kvReadRun_changes (s : State) (c : Ctx) (x : EngUnit) (u i : Nat) (e : Entry) (q : Seqt) (n b : Nat) (w : Option Walk) :
    Changes 0xa00700811400 s (s.kvReadRun c x u i e q n b w) := by
  induction n generalizing s b w with
  | zero => exact (State.count_changes ..).widen.andThen (State.endEntry_changes ..)
  | succ n ih =>
    unfold State.kvReadRun
    refine onOk_cases _ _ _ (fun f _ => ?_) fun r h => ?_
    · exact (((State.dropWalk_changes ..).widen.andThen (State.scramble_changes ..)).andThen (State.scramble_changes ..)).andThen
        (State.endEntry_changes ..)
    · cases okAll.get (State.kvReadOne_changes ..) h with
      | done h1 => exact (h1.widen.andThen (State.setProg_changes ..)).andThen (ih ..)
      | wait h1 => exact h1.widen

theorem State.kvReadOn_changes (s : State) (u : Nat) :
    someAll (Changes 0xa00700811400 s) (State.kvReadOn s u) := by
  unfold State.kvReadOn
  repeat' (with_reducible first
    | exact Changes.refl _ _
    | (show Nat.lor _ _ = _; decide)
    | exact someAll.none
    | apply someAll.some
    | apply Changes.after (State.kvReadRun_changes ..)
    | apply Changes.after (State.endEntry_changes ..)
    | split)

theorem State.kvPutPair_changes (s : State) (c : Ctx) (kb vb n : Nat) (at_ : Except Fail (Nat × Nat)) : okAll (Changes 0x800700000000 s) (do
    let k ← s.read (.desc c) kb n
    let v ← s.read (.desc c) vb n
    let a ← at_
    let s1 ← s.wr c a.1 k
    s1.wr c a.2 v) := by
  apply okAll.bindT; intro _ _
  apply okAll.bindT; intro _ _
  apply okAll.bindT; intro _ _
  apply okAll.bind (State.wr_changes ..); intro _ _ h
  exact (State.wr_changes ..).mono fun _ _ k => h.andThen k

theorem State.kvPutPos_changes (s : State) (c : Ctx) (e : Entry) (q : Seqt) (b : Nat) (at_ : Nat → Except Fail (Nat × Nat)) (p0 : Nat)
    (l : List Nat) : okAll (Changes 0x800700000000 s) (s.kvPutPos c e q b at_ p0 l) := by
  induction l generalizing s with
  | nil => exact okAll.ok (Changes.refl _ _)
  | cons p rest ih =>
    unfold State.kvPutPos
    dsimp only
    split
    · exact okAll.error
    · next t h => exact (ih t).mono fun a _ ha => (okAll.get (State.kvPutPair_changes ..) h).andThen ha

theorem State.kvWriteEnts_changes (s : State) (c : Ctx) (u i : Nat) (e : Entry) (q : Seqt) (b slot p0 : Nat) (r : SeqRec) (n0 : _) (n1 : _) :
    okAll (KvWr.all (Changes 0x800780811400 s)) (State.kvWriteEnts s c u i e q b slot p0 r n0 n1) := by
  induction n0 generalizing s n1 with
  | zero =>
    unfold State.kvWriteEnts
    repeat' (with_reducible first
      | exact Changes.refl _ _
      | (show Nat.lor _ _ = _; decide)
      | apply okAll.pure
      | apply KvWr.all.done
      | apply Changes.after (State.setProg_changes ..)
      | apply okAll.bind (State.kvFinish_changes ..)
      | apply okAll.bind (State.putVal_changes ..)
      | intro _
      | apply Changes.after ‹Changes _ _ _›)
  | succ n ih =>
    unfold State.kvWriteEnts
    repeat' (with_reducible first
      | apply okAll.mono (ih _ _)
      | apply KvWr.all.mono ‹KvWr.all _ _›
      | exact Changes.refl _ _
      | (show Nat.lor _ _ = _; decide)
      | apply okAll.pure
      | apply okAll.ite
      | apply KvWr.all.done
      | apply KvWr.all.wait
      | apply Changes.after (State.count_changes ..)
      | apply Changes.after (State.setProg_changes ..)
      | apply okAll.bind (State.kvFinish_changes ..)
      | apply okAll.bind (State.putMeta_changes ..)
      | apply okAll.bind (State.poolBump_changes ..)
      | apply okAll.bind (State.kvPutPos_changes ..)
      | apply okAll.bindT
      | intro _
      | apply Changes.after ‹Changes _ _ _›
      | split
      | ((fail_if_success (apply Changes.after (Changes.set_snapQ _ _))); apply Changes.after (Changes.set_pageReqs _ _)))

theorem State.kvWriteOne_changes (s : State) (c : Ctx) (x : EngUnit) (u i : Nat) (e : Entry) (q : Seqt) (b k : Nat) :
    okAll (KvWr.all (Changes 0x800780811400 s)) (State.kvWriteOne s c x u i e q b k) := by
  unfold State.kvWriteOne
  repeat' (with_reducible first
    | apply KvWr.all.mono ‹KvWr.all _ _›
    | exact Changes.refl _ _
    | assumption
    | (show Nat.lor _ _ = _; decide)
    | apply okAll.pure
    | apply okAll.ite
    | apply KvWr.all.done
    | apply Changes.after (State.count_changes ..)
    | apply Changes.after (State.setProg_changes ..)
    | apply okAll.bind (State.kvFinish_changes ..)
    | apply okAll.bind (State.parkSeq_changes ..)
    | apply okAll.bind (State.kvPutPos_changes ..)
    | apply okAll.mono (State.kvWriteEnts_changes ..)
    | apply okAll.bindT
    | intro _
    | apply Changes.after ‹Changes _ _ _›
    | split)

theorem State.kvWriteRun_changes (s : State) (c : Ctx) (x : EngUnit) (u i : Nat) (e : Entry) (q : Seqt) (n b k : Nat) :
    Changes 0x800780811400 s (s.kvWriteRun c x u i e q n b k) := by
  induction n generalizing s b k with
  | zero => exact (State.count_changes ..).widen.andThen (State.endEntry_changes ..)
  | succ n ih =>
    unfold State.kvWriteRun
    refine onOk_cases _ _ _ (fun f _ => (State.endEntry_changes ..).widen) fun r h => ?_
    have hr := okAll.get (State.kvWriteOne_changes ..) h
    cases hr with
    | done h1 => exact h1.widen.andThen (ih ..)
    | wait h1 => exact h1.widen

theorem State.kvGoOn_changes (s : State) (c : Ctx) (x : EngUnit) (u i : Nat) (q : Seqt) :
    Changes 0x800780811400 s (State.kvGoOn s c x u i q) := by
  unfold State.kvGoOn
  repeat' (with_reducible first
    | exact Changes.refl _ _
    | (show Nat.lor _ _ = _; decide)
    | apply Changes.after (State.kvWriteRun_changes ..)
    | split)

theorem State.kvGiveUp_changes (s : State) (c : Ctx) (x : EngUnit) (r : PageReq) (i : Nat) (e : Entry) (q : Seqt) (code : BitVec 16) (a : Nat) :
    okAll (Changes 0x800780811400 s) (State.kvGiveUp s c x r i e q code a) := by
  unfold State.kvGiveUp
  repeat' (with_reducible first
    | exact Changes.refl _ _
    | (show Nat.lor _ _ = _; decide)
    | apply okAll.pure
    | apply Changes.after (State.kvGoOn_changes ..)
    | apply Changes.after (State.setProg_changes ..)
    | apply okAll.bind (State.kvFinish_changes ..)
    | apply okAll.bind (State.parkSeq_changes ..)
    | intro _
    | apply Changes.after ‹Changes _ _ _›)

theorem State.pageAnswer_changes (s : State) (c : Ctx) (x : EngUnit) (r : PageReq) (i : Nat) (e : Entry) :
    okAll (Changes 0xa00780811400 s) (s.pageAnswer c x r i e) := by
  unfold State.pageAnswer
  apply okAll.bindT; intro q _
  apply okAll.bindT; intro rc _
  split
  · exact okAll.pure (State.kvGoOn_changes ..).widen
  apply okAll.bind (State.growEnt_changes ..); intro g _ hg
  cases hg with
  | ok h => exact okAll.pure (h.widen.andThen (State.kvGoOn_changes ..))
  | noPage h => exact (State.kvGiveUp_changes ..).mono fun _ _ k => h.widen.andThen k
  | stale h => exact okAll.pure (h.widen.andThen (State.kvGoOn_changes ..))
  | ue h => exact (State.kvGiveUp_changes ..).mono fun _ _ k => h.widen.andThen k

theorem State.servePage_changes (s : State) (copy : Bool) : Changes 0xa00780811400 s (s.servePage copy) := by
  unfold State.servePage
  split
  · exact Changes.refl _ _
  · next r i e x c _ =>
    split
    · exact Changes.refl _ _
    · refine onOk_cases _ _ _ (fun f _ => ?_) fun t h => ?_
      · exact (Changes.set_pageReqs s _).widen.andThen (State.endEntry_changes ..)
      · exact (Changes.set_pageReqs s _).widen.andThen (okAll.get (State.pageAnswer_changes ..) h)

theorem execListRefresh_changes (ctx slot : Nat) (s : State) :
    nextAll (Changes 0x800700000000 s) (execListRefresh ctx slot s) := by
  unfold execListRefresh
  repeat' (with_reducible first
    | exact Changes.refl _ _
    | (show Nat.lor _ _ = _; decide)
    | apply nextAll.next
    | apply nextAll.ite
    | intro _
    | (have hh := okAll.get (State.refreshList_changes ..) ‹_ = Except.ok _›; apply Changes.after hh; clear hh)
    | split)

theorem execKvread_changes (u : Nat) (s : State) :
    nextAll (Changes 0xa20700811400 s) (execKvread u s) := by
  unfold execKvread
  repeat' (with_reducible first
    | exact Changes.refl _ _
    | (show Nat.lor _ _ = _; decide)
    | apply someAll.some
    | apply nextAll.next
    | apply State.startEngine_changes
    | apply Changes.after (State.kvReadRun_changes ..)
    | apply Changes.after (State.endEntry_changes ..)
    | intro _
    | (have hh := someAll.get (State.kvReadOn_changes ..) ‹_ = some _›; apply Changes.after hh; clear hh)
    | split)

theorem execKvwrite_changes (u : Nat) (s : State) :
    nextAll (Changes 0xa20780811400 s) (execKvwrite u s) := by
  unfold execKvwrite
  repeat' (with_reducible first
    | exact Changes.refl _ _
    | (show Nat.lor _ _ = _; decide)
    | apply someAll.some
    | apply nextAll.next
    | apply State.startEngine_changes
    | apply Changes.after (State.endEntry_changes ..)
    | apply Changes.after (State.kvWriteRun_changes ..)
    | intro _
    | split)

theorem execPageAllocationRequest_changes (s : State) :
    nextAll (Changes 0xa00780811400 s) (execPageAllocationRequest s) := by
  unfold execPageAllocationRequest
  repeat' (with_reducible first
    | exact Changes.refl _ _
    | (show Nat.lor _ _ = _; decide)
    | apply nextAll.next
    | apply Changes.after (State.servePage_changes ..))

theorem execCopyOnWrite_changes (s : State) :
    nextAll (Changes 0xa00780811400 s) (execCopyOnWrite s) := by
  unfold execCopyOnWrite
  repeat' (with_reducible first
    | exact Changes.refl _ _
    | (show Nat.lor _ _ = _; decide)
    | apply nextAll.next
    | apply Changes.after (State.servePage_changes ..))

end Sys2Proof.Machine
end

