-- ==== Sys2Proof/Laws/Abort.lean ====
section
/-! SUPPORT. What each operation of Machine/Abort.lean may change (the masks number the fields of State in order). -/

set_option Elab.async false

namespace Sys2Proof.Machine

theorem State.scrambleDest_changes (s : State) (c : Ctx) (e : Entry) :
    Changes 0xa00700011400 s (State.scrambleDest s c e) := by
  unfold State.scrambleDest
  repeat' (with_reducible first
    | exact Changes.refl _ _
    | (show Nat.lor _ _ = _; decide)
    | apply Changes.ite
    | apply Changes.after (State.dropWalk_changes ..)
    | apply Changes.after (State.scramble_changes ..)
    | apply Changes.foldl
    | intro _)

theorem State.setStep_changes (s : State) (ctx : Nat) (f : StepRec → StepRec) :
    Changes 0x20000 s (State.setStep s ctx f) := by
  unfold State.setStep
  repeat' (with_reducible first
    | exact Changes.refl _ _
    | (show Nat.lor _ _ = _; decide)
    | apply Changes.after (State.setCtx_changes ..)
    | split)

theorem State.addFlag_changes (s : State) (ctx : Nat) (code : BitVec 16) (tag stream : Option (BitVec 32)) (commit : Bool) :
    Changes 0x20000 s (State.addFlag s ctx code tag stream commit) := by
  unfold State.addFlag
  repeat' (with_reducible first
    | exact Changes.refl _ _
    | (show Nat.lor _ _ = _; decide)
    | apply Changes.after (State.setStep_changes ..))

theorem State.noteUe_changes (s : State) (ctx : Nat) (a : Addr) :
    Changes 0x20000 s (State.noteUe s ctx a) := by
  unfold State.noteUe
  repeat' (with_reducible first
    | exact Changes.refl _ _
    | (show Nat.lor _ _ = _; decide)
    | apply Changes.after (State.setStep_changes ..))

theorem State.noteError_changes (s : State) (ctx : Nat) (code : BitVec 16) (addr : Addr) (r231 : Bool) :
    Changes 0x20000 s (State.noteError s ctx code addr r231) := by
  unfold State.noteError
  repeat' (with_reducible first
    | exact Changes.refl _ _
    | (show Nat.lor _ _ = _; decide)
    | apply Changes.after (State.setStep_changes ..))

theorem State.passFlags_changes (s : State) (ctx : Nat) (e : Entry) :
    Changes 0x20000 s (State.passFlags s ctx e) := by
  unfold State.passFlags
  repeat' (with_reducible first
    | exact Changes.refl _ _
    | (show Nat.lor _ _ = _; decide)
    | apply Changes.after (State.addFlag_changes ..)
    | apply Changes.foldl
    | intro _)

theorem State.contribute_changes (s : State) (c : Ctx) (e : Entry) (st : Status) :
    Changes 0x800700011400 s (State.contribute s c e st).1 := by
  unfold State.contribute
  repeat' (with_reducible first
    | exact Changes.refl _ _
    | (show Nat.lor _ _ = _; decide)
    | (have hh := okAll.get (State.addContrib_changes ..) ‹_ = Except.ok _›; apply Changes.after hh; clear hh)
    | split)

theorem State.abortNotes_changes (s : State) (ctx : Nat) (c : Ctx) (e : Entry) (st : Status) :
    Changes 0x500031400 s (State.abortNotes s ctx c e st) := by
  unfold State.abortNotes
  repeat' (with_reducible first
    | exact Changes.refl _ _
    | (show Nat.lor _ _ = _; decide)
    | apply Changes.ite
    | apply Changes.after (State.memFail_changes ..)
    | apply Changes.after (State.passFlags_changes ..)
    | apply Changes.after (State.noteUe_changes ..)
    | apply Changes.after (State.noteError_changes ..)
    | apply Changes.after (State.addFlag_changes ..)
    | intro _
    | split)

theorem State.abortWindow_changes (fuel : Nat) (s : State) (u ctx : Nat) (c : Ctx) :
    Changes 0xa60708831400 s (State.abortWindow fuel s u ctx c) := by
  fun_induction State.abortWindow fuel s u ctx c
  all_goals (repeat' (with_reducible first
    | exact Changes.refl _ _
    | (show Nat.lor _ _ = _; decide)
    | apply Changes.after (State.leaveWindow_changes ..)
    | apply Changes.after (State.scrambleDest_changes ..)
    | apply Changes.after (State.abortNotes_changes ..)
    | apply Changes.after (State.contribute_changes ..)
    | apply Changes.after ‹Changes _ _ _›))

theorem State.stopCores_changes (s : State) (c : Ctx) :
    Changes 0x400000 s (State.stopCores s c) := by
  unfold State.stopCores
  repeat' (with_reducible first
    | exact Changes.refl _ _
    | (show Nat.lor _ _ = _; decide)
    | ((fail_if_success (apply Changes.after (Changes.set_snapQ _ _))); apply Changes.after (Changes.set_cores _ _)))

theorem State.dropPending_changes (s : State) (ctx : Nat) (c : Ctx) :
    Changes 0x80800000 s (State.dropPending s ctx c) := by
  unfold State.dropPending
  repeat' (with_reducible first
    | exact Changes.refl _ _
    | (show Nat.lor _ _ = _; decide)
    | ((fail_if_success (apply Changes.after (Changes.set_snapQ _ _))); apply Changes.after (Changes.set_engines_pageReqs _ _ _)))

theorem State.abortCtx_changes (s : State) (ctx : Nat) :
    Changes 0xa60788c31400 s (State.abortCtx s ctx) := by
  unfold State.abortCtx
  repeat' (with_reducible first
    | exact Changes.refl _ _
    | (show Nat.lor _ _ = _; decide)
    | apply Changes.after (State.dropPending_changes ..)
    | apply Changes.after (State.stopCores_changes ..)
    | apply Changes.after (State.abortWindow_changes ..)
    | apply Changes.foldl
    | intro _
    | split)

end Sys2Proof.Machine
end

