-- ==== Sys2Proof/Laws/Fw.lean ====
section
/-! SUPPORT. What each operation of Machine/Fw.lean may change (the masks number the fields of State in order). -/

set_option Elab.async false

namespace Sys2Proof.Machine

theorem State.setFlash_changes (s : State) (a : Nat) (bs : List Byte) :
    Changes 0x8000000000 s (State.setFlash s a bs) := by
  unfold State.setFlash
  repeat' (with_reducible first
    | exact Changes.refl _ _
    | (show Nat.lor _ _ = _; decide)
    | ((fail_if_success (apply Changes.after (Changes.set_snapQ _ _))); apply Changes.after (Changes.set_flash _ _)))

theorem State.writeBoot_changes (s : State) (f : BootRec → BootRec) :
    Changes 0x8000000000 s (State.writeBoot s f) := by
  unfold State.writeBoot
  repeat' (with_reducible first
    | exact Changes.refl _ _
    | (show Nat.lor _ _ = _; decide)
    | apply Changes.after (State.setFlash_changes ..))

theorem State.writeSlot_changes (s : State) (i sgen version : Nat) (recs : List SetRec) :
    Changes 0x8000000000 s (State.writeSlot s i sgen version recs) := by
  unfold State.writeSlot
  repeat' (with_reducible first
    | exact Changes.refl _ _
    | (show Nat.lor _ _ = _; decide)
    | apply Changes.after (State.setFlash_changes ..))

theorem State.setFw_changes (s : State) (f : Firmware) :
    Changes 0x10000000000 s (State.setFw s f) := by
  unfold State.setFw
  repeat' (with_reducible first
    | exact Changes.refl _ _
    | (show Nat.lor _ _ = _; decide)
    | ((fail_if_success (apply Changes.after (Changes.set_snapQ _ _))); apply Changes.after (Changes.set_fw _ _)))

theorem State.beginStage_changes (s : State) (n : Nat) (host : Bool) :
    Changes 0x18000000000 s (State.beginStage s n host) := by
  unfold State.beginStage
  repeat' (with_reducible first
    | exact Changes.refl _ _
    | (show Nat.lor _ _ = _; decide)
    | apply Changes.after (State.setFw_changes ..)
    | ((fail_if_success (apply Changes.after (Changes.set_snapQ _ _))); apply Changes.after (Changes.set_flash _ _)))

theorem State.dropStage_changes (s : State) :
    Changes 0x10000000000 s (State.dropStage s) := by
  unfold State.dropStage
  repeat' (with_reducible first
    | exact Changes.refl _ _
    | (show Nat.lor _ _ = _; decide)
    | apply Changes.after (State.setFw_changes ..))

theorem State.stageFail_changes (s : State) :
    Changes 0x310100011400 s (State.stageFail s) := by
  unfold State.stageFail
  repeat' (with_reducible first
    | exact Changes.refl _ _
    | (show Nat.lor _ _ = _; decide)
    | apply Changes.after (State.fwEvent_changes ..)
    | apply Changes.after (State.setFw_changes ..)
    | apply Changes.after (State.count_changes ..))

theorem State.stageBlock_changes (s : State) (i : Nat) :
    Changes 0x310100011400 s (State.stageBlock s i) := by
  unfold State.stageBlock
  repeat' (with_reducible first
    | exact Changes.refl _ _
    | (show Nat.lor _ _ = _; decide)
    | apply Changes.ite
    | apply Changes.after (State.setFw_changes ..)
    | apply Changes.after (State.stageFail_changes ..)
    | apply Changes.after (State.count_changes ..)
    | intro _)

theorem State.stageCheck_changes (s : State) :
    Changes 0x310100011400 s (State.stageCheck s) := by
  unfold State.stageCheck
  repeat' (with_reducible first
    | exact Changes.refl _ _
    | (show Nat.lor _ _ = _; decide)
    | apply Changes.ite
    | apply Changes.after (State.fwEvent_changes ..)
    | apply Changes.after (State.setFw_changes ..)
    | apply Changes.after (State.stageFail_changes ..)
    | intro _)

theorem State.disarm_changes (s : State) :
    Changes 0x10020000000 s (State.disarm s) := by
  unfold State.disarm
  repeat' (with_reducible first
    | exact Changes.refl _ _
    | (show Nat.lor _ _ = _; decide)
    | dsimp only
    | ((fail_if_success (apply Changes.after (Changes.set_snapQ _ _))); apply Changes.after (Changes.set_sched_fw _ _ _)))

theorem State.actEvent_changes (s : State) (a : Activation) (res : Result) (err : BitVec 16) :
    Changes 0x100011000 s (State.actEvent s a res err) := by
  unfold State.actEvent
  repeat' (with_reducible first
    | exact Changes.refl _ _
    | (show Nat.lor _ _ = _; decide)
    | apply Changes.after (State.beatEvent_changes ..)
    | split)

theorem State.activate_changes (s : State) (a : Activation) :
    Changes 0x318120011400 s (State.activate s a) := by
  unfold State.activate
  repeat' (with_reducible first
    | exact Changes.refl _ _
    | (show Nat.lor _ _ = _; decide)
    | apply Changes.ite
    | apply Changes.after (State.disarm_changes ..)
    | apply Changes.after (State.fwEvent_changes ..)
    | apply Changes.after (State.setFw_changes ..)
    | apply Changes.after (State.actEvent_changes ..)
    | apply Changes.after (State.count_changes ..)
    | apply Changes.after (State.writeBoot_changes ..)
    | intro _)

/-- The fuses blown at a commit: the anti-rollback count and the revocations only grow (R448, R457). -/
theorem State.burn_changes (s : State) (up : Nat) (rv : BitVec 4) (g : Bool) :
    Changes 0x10000000006 s
      { s with fuses := { s.fuses with arb := max s.fuses.arb up, revoked := s.fuses.revoked ||| rv },
               shadow := { s.shadow with arb := max s.shadow.arb up, revoked := s.shadow.revoked ||| rv },
               fw := { s.fw with trial := g } } :=
  (((Changes.set_fuses s { s.fuses with arb := max s.fuses.arb up, revoked := s.fuses.revoked ||| rv }
    ⟨rfl, rfl, rfl, by rw [← BitVec.or_assoc, BitVec.or_self], le_max_left _ _⟩).widen (m := 0x10000000006)).andThen
    (Changes.set_shadow _ { s.shadow with arb := max s.shadow.arb up, revoked := s.shadow.revoked ||| rv })).andThen
    (Changes.set_fw _ { s.fw with trial := g })

theorem State.commitTrial_changes (s : State) : Changes 0x318100011406 s s.commitTrial := by
  unfold State.commitTrial
  dsimp only
  split
  · have h : ∀ up rv, Changes 0x318100011406 s _ := fun up rv =>
      (State.writeBoot_changes s (fun r => { r with cbank := r.tbank, cver := r.tver, tbank := 0xFF, tver := 0, csgen := s.fw.csgen.toNat })).widen.andThen
        (State.burn_changes _ up rv false)
    split
    · exact (((h _ _).andThen (State.count_changes ..)).andThen (State.fwEvent_changes ..)).andThen (State.fwEvent_changes ..)
    · exact ((h _ _).andThen (State.count_changes ..)).andThen (State.fwEvent_changes ..)
  · exact Changes.refl _ _

theorem State.newFirmware_changes (s : State) :
    Changes 0x318100011400 s (State.newFirmware s) := by
  unfold State.newFirmware
  repeat' (with_reducible first
    | exact Changes.refl _ _
    | (show Nat.lor _ _ = _; decide)
    | apply Changes.ite
    | apply Changes.after (State.writeSlot_changes ..)
    | apply Changes.after (State.fwEvent_changes ..)
    | apply Changes.after (State.setFw_changes ..)
    | apply Changes.after (State.count_changes ..)
    | intro _
    | split)

end Sys2Proof.Machine
end

