-- ==== Sys2Proof/Laws/Beat.lean ====
section
/-! SUPPORT. What each operation of Machine/Beat.lean may change (the masks number the fields of State in order). -/

set_option Elab.async false

namespace Sys2Proof.Machine

theorem State.setBeat_changes (s : State) (b : BeatUnit) :
    Changes 0x10000000 s (State.setBeat s b) := by
  unfold State.setBeat
  repeat' (with_reducible first
    | exact Changes.refl _ _
    | (show Nat.lor _ _ = _; decide)
    | ((fail_if_success (apply Changes.after (Changes.set_snapQ _ _))); apply Changes.after (Changes.set_beat _ _)))

theorem State.reSource_changes (s : State) :
    Changes 0x10000000 s (State.reSource s) := by
  unfold State.reSource
  repeat' (with_reducible first
    | exact Changes.refl _ _
    | (show Nat.lor _ _ = _; decide)
    | apply Changes.after (State.setBeat_changes ..))

theorem State.sendMarker_changes (s : State) (port : Nat) (m : List Byte) :
    Changes 0x100100011400 s (State.sendMarker s port m) := by
  unfold State.sendMarker
  repeat' (with_reducible first
    | exact Changes.refl _ _
    | (show Nat.lor _ _ = _; decide)
    | apply Changes.after (State.addOut_changes ..)
    | apply Changes.after (State.count_changes ..))

theorem State.sendFrameOut_changes (s : State) (k : Nat) (b : Beat) (rd : Nat) :
    Changes 0x100100011400 s (State.sendFrameOut s k b rd) := by
  unfold State.sendFrameOut
  repeat' (with_reducible first
    | exact Changes.refl _ _
    | (show Nat.lor _ _ = _; decide)
    | apply Changes.ite
    | apply Changes.after (State.addOut_changes ..)
    | apply Changes.after (State.count_changes ..)
    | intro _)

theorem State.preGrow_changes (s : State) (c : Ctx) (k : KvSrc) (q : Seqt) (lens : List (Nat × Nat)) (l : List BatchEnt) :
    okAll (fun p => Changes 0xa00700011400 s p.2) (s.preGrow c k q lens l) := by
  induction l generalizing s with
  | nil => exact okAll.ok (Changes.refl _ _)
  | cons e r ih =>
    unfold State.preGrow
    apply okAll.bind (State.kvGrow_changes ..); intro ans _ ha
    apply okAll.bindT; intro v _
    apply okAll.bind (State.write_changes ..); intro t1 _ h1
    apply okAll.bind (ih t1); intro x _ hx
    refine okAll.pure (Changes.andThen (Changes.andThen ?_ h1 (by decide)) hx (by decide))
    cases ha with
    | done h => exact h.widen
    | parked h => exact h.widen
    | bad => exact Changes.refl _ _

theorem State.dropSwapped_changes (s : State) (c : Ctx) (q : Seqt) (l : List BatchEnt) :
    okAll (fun p => Changes 0x800700000000 s p.2) (s.dropSwapped c q l) := by
  induction l generalizing s with
  | nil => exact okAll.ok (Changes.refl _ _)
  | cons e r ih =>
    unfold State.dropSwapped
    apply okAll.bindT; intro q _
    split
    · exact okAll.bindPure (okAll.bind (ih _) fun _ _ h => okAll.pure h)
    · apply okAll.bindT; intro v _
      apply okAll.bind (State.write_changes ..); intro t _ h
      exact okAll.bind (ih t) fun _ _ k => okAll.pure (h.widen.andThen k)

theorem State.bucketing_changes (s : State) (c : Ctx) (ctx : Nat) (r : StepRec) :
    okAll (Changes 0xa00700011400 s) (State.bucketing s c ctx r) := by
  unfold State.bucketing
  repeat' (with_reducible first
    | exact Changes.refl _ _
    | assumption
    | (show Nat.lor _ _ = _; decide)
    | exact okAll.error
    | apply okAll.ok
    | apply okAll.ite
    | apply okAll.bind (State.preGrow_changes ..)
    | apply okAll.mono (State.write_changes ..)
    | apply okAll.bind (State.dropSwapped_changes ..)
    | apply okAll.bindT
    | intro _
    | apply Changes.after ‹Changes _ _ _›
    | split)

theorem State.startCores_changes (s : State) (r : StepRec) :
    Changes 0x200100411400 s (State.startCores s r) := by
  unfold State.startCores
  repeat' (with_reducible first
    | exact Changes.refl _ _
    | (show Nat.lor _ _ = _; decide)
    | apply Changes.ite
    | apply Changes.after (State.countFree_changes ..)
    | apply Changes.after (State.setCore_changes ..)
    | apply Changes.after (State.count_changes ..)
    | apply Changes.foldl
    | intro _)

theorem State.beginLists_changes (s : State) (ctx : Nat) :
    Changes 0xa007006b1400 s (State.beginLists s ctx) := by
  unfold State.beginLists
  repeat' (with_reducible first
    | exact Changes.refl _ _
    | (show Nat.lor _ _ = _; decide)
    | apply Changes.after (State.setStep_changes ..)
    | apply Changes.after (State.startCores_changes ..)
    | apply Changes.after (State.noteError_changes ..)
    | apply Changes.after (State.snapSync_changes ..)
    | (have hh := okAll.get (State.bucketing_changes ..) ‹_ = Except.ok _›; apply Changes.after hh; clear hh)
    | split
    | dsimp only)

theorem State.tryBegin_changes (s : State) (ctx : Nat) :
    Changes 0xa007006b1400 s (State.tryBegin s ctx) := by
  unfold State.tryBegin
  repeat' (with_reducible first
    | exact Changes.refl _ _
    | (show Nat.lor _ _ = _; decide)
    | apply Changes.ite
    | apply Changes.after (State.beginLists_changes ..)
    | intro _
    | split)

theorem State.setSched_changes (s : State) (slot idx : Nat) (e : Option SchedEnt) :
    Changes 0x20000000 s (State.setSched s slot idx e) := by
  unfold State.setSched
  repeat' (with_reducible first
    | exact Changes.refl _ _
    | (show Nat.lor _ _ = _; decide)
    | ((fail_if_success (apply Changes.after (Changes.set_snapQ _ _))); apply Changes.after (Changes.set_sched _ _)))

theorem State.fireAct_changes (s : State) (k idx : Nat) (e : SchedEnt) :
    Changes 0x37816015b400 s (State.fireAct s k idx e) := by
  unfold State.fireAct
  repeat' (with_reducible first
    | exact Changes.refl _ _
    | (show Nat.lor _ _ = _; decide)
    | apply Changes.ite
    | apply Changes.after (State.activate_changes ..)
    | apply Changes.after (State.fzThaw_changes ..)
    | apply Changes.after (State.signal_changes ..)
    | apply Changes.after (State.count_changes ..)
    | apply Changes.after (State.fzClear_changes ..)
    | apply Changes.after (State.beatEvent_changes ..)
    | apply Changes.after (State.fzSet_changes ..)
    | intro _
    | split
    | dsimp only
    | ((fail_if_success (apply Changes.after (Changes.set_snapQ _ _))); apply Changes.after (Changes.set_order_copies _ _ _))
    | ((fail_if_success (apply Changes.after (Changes.set_snapQ _ _))); apply Changes.after (Changes.set_prefetch _ _)))

theorem State.fireAll_changes (s : State) (k : Nat) (l : List (Nat × SchedEnt)) :
    Changes 0x37816015b400 s (State.fireAll s k l) := by
  unfold State.fireAll
  repeat' (with_reducible first
    | exact Changes.refl _ _
    | (show Nat.lor _ _ = _; decide)
    | apply Changes.after (State.fireAct_changes ..)
    | apply Changes.after (State.count_changes ..)
    | apply Changes.foldl
    | intro _)

theorem State.judgeSched_changes (s : State) (k : Nat) (b : Beat) :
    Changes 0x37816015b400 s (State.judgeSched s k b) := by
  unfold State.judgeSched
  repeat' (with_reducible first
    | exact Changes.refl _ _
    | (show Nat.lor _ _ = _; decide)
    | apply Changes.ite
    | apply Changes.after (State.setSched_changes ..)
    | apply Changes.after (State.fireAll_changes ..)
    | apply Changes.after (State.count_changes ..)
    | apply Changes.foldl
    | intro _)

theorem State.judgeLate_changes (s : State) (k : Nat) (b : Beat) :
    Changes 0x140011400 s (State.judgeLate s k b) := by
  unfold State.judgeLate
  repeat' (with_reducible first
    | exact Changes.refl _ _
    | (show Nat.lor _ _ = _; decide)
    | apply Changes.ite
    | apply Changes.after (State.count_changes ..)
    | apply Changes.after (State.beatEvent_changes ..)
    | apply Changes.foldl
    | intro _
    | ((fail_if_success (apply Changes.after (Changes.set_snapQ _ _))); apply Changes.after (Changes.set_prefetch _ _)))

theorem State.fireCommit_changes (s : State) (k : Nat) :
    Changes 0x37816015b400 s (State.fireCommit s k) := by
  unfold State.fireCommit
  repeat' (with_reducible first
    | exact Changes.refl _ _
    | (show Nat.lor _ _ = _; decide)
    | apply Changes.after (State.setSched_changes ..)
    | apply Changes.after (State.fireAll_changes ..)
    | apply Changes.after (State.judgeLate_changes ..)
    | apply Changes.foldl
    | intro _)

theorem State.releaseWaitbeat_changes (s : State) (c : Ctx) (b : Beat) :
    Changes 0x400000 s (State.releaseWaitbeat s c b) := by
  unfold State.releaseWaitbeat
  repeat' (with_reducible first
    | exact Changes.refl _ _
    | (show Nat.lor _ _ = _; decide)
    | ((fail_if_success (apply Changes.after (Changes.set_snapQ _ _))); apply Changes.after (Changes.set_cores _ _)))

theorem State.traceBeat_changes (s : State) (k : Nat) (old new : Beat) :
    Changes 0x220100011400 s (State.traceBeat s k old new) := by
  unfold State.traceBeat
  repeat' (with_reducible first
    | exact Changes.refl _ _
    | (show Nat.lor _ _ = _; decide)
    | apply Changes.after (State.trace_changes ..)
    | apply Changes.foldl
    | intro _)

theorem State.mendSlot_changes (s : State) (k : Nat) :
    Changes 0x400 s (State.mendSlot s k) := by
  unfold State.mendSlot
  repeat' (with_reducible first
    | exact Changes.refl _ _
    | (show Nat.lor _ _ = _; decide)
    | apply Changes.ite
    | apply Changes.after (State.setPage_changes ..)
    | intro _)

theorem State.applyBeat_changes (s : State) (k : Nat) (b : Beat) (intact : Bool) :
    Changes 0xb787747fb400 s (State.applyBeat s k b intact) := by
  unfold State.applyBeat
  repeat' (with_reducible first
    | exact Changes.refl _ _
    | (show Nat.lor _ _ = _; decide)
    | apply Changes.ite
    | apply Changes.after (State.setBeat_changes ..)
    | apply Changes.after (State.releaseWaitbeat_changes ..)
    | apply Changes.after (State.copyShadows_changes ..)
    | apply Changes.after (State.traceBeat_changes ..)
    | apply Changes.after (State.count_changes ..)
    | apply Changes.after (State.tryBegin_changes ..)
    | apply Changes.after (State.judgeLate_changes ..)
    | apply Changes.after (State.mendSlot_changes ..)
    | apply Changes.after (State.judgeSched_changes ..)
    | intro _
    | split
    | dsimp only)

theorem State.decideBeat_changes (s : State) (k kind : Nat) (b : Beat) :
    Changes 0xb787747fb400 s (State.decideBeat s k kind b) := by
  unfold State.decideBeat
  repeat' (with_reducible first
    | exact Changes.refl _ _
    | (show Nat.lor _ _ = _; decide)
    | apply Changes.ite
    | apply Changes.after (State.applyBeat_changes ..)
    | apply Changes.after (State.setBeat_changes ..)
    | apply Changes.after (State.sendMarker_changes ..)
    | apply Changes.after (State.sendFrameOut_changes ..)
    | apply Changes.foldl
    | intro _)

theorem State.moveBeat_changes (s : State) (k kind : Nat) (b : Beat) :
    Changes 0xb787747fb400 s (State.moveBeat s k kind b) := by
  unfold State.moveBeat
  repeat' (with_reducible first
    | exact Changes.refl _ _
    | (show Nat.lor _ _ = _; decide)
    | apply Changes.ite
    | apply Changes.after (State.applyBeat_changes ..)
    | apply Changes.after (State.decideBeat_changes ..)
    | apply Changes.after (State.sendFrameOut_changes ..)
    | intro _)

theorem State.replayBeat_changes (s : State) (k : Nat) (b : Beat) :
    Changes 0xb787747fb400 s (State.replayBeat s k b) := by
  unfold State.replayBeat
  repeat' (with_reducible first
    | exact Changes.refl _ _
    | (show Nat.lor _ _ = _; decide)
    | apply Changes.ite
    | apply Changes.after (State.applyBeat_changes ..)
    | apply Changes.after (State.decideBeat_changes ..)
    | intro _)

end Sys2Proof.Machine
end

