-- ==== Sys2Proof/Laws/Dom.lean ====
section
/-! SUPPORT. What each operation of Machine/Dom.lean may change (the masks number the fields of State in order). -/

set_option Elab.async false

namespace Sys2Proof.Machine

theorem State.stopDom_changes (s : State) (k : Nat) :
    Changes 0x220108011500 s (State.stopDom s k) := by
  unfold State.stopDom
  repeat' (with_reducible first
    | exact Changes.refl _ _
    | (show Nat.lor _ _ = _; decide)
    | apply Changes.ite
    | apply Changes.after (State.setDrt_changes ..)
    | apply Changes.after (State.ledgerFell_changes ..)
    | apply Changes.after (State.setDom_changes ..)
    | intro _)

theorem State.startDom_changes (s : State) (k : Nat) (st : BitVec 2) :
    Changes 0x220108011500 s (State.startDom s k st) := by
  unfold State.startDom
  repeat' (with_reducible first
    | exact Changes.refl _ _
    | (show Nat.lor _ _ = _; decide)
    | apply Changes.ite
    | apply Changes.after (State.serveDraught_changes ..)
    | apply Changes.after (State.reclaim_changes ..)
    | apply Changes.after (State.setDrt_changes ..)
    | apply Changes.after (State.setDom_changes ..)
    | apply Changes.after (State.stopDom_changes ..)
    | apply Changes.after (State.count_changes ..)
    | intro _)

theorem State.idleLower_changes (s : State) (ctx : Nat) :
    Changes 0x220108031500 s (State.idleLower s ctx) := by
  unfold State.idleLower
  repeat' (with_reducible first
    | exact Changes.refl _ _
    | (show Nat.lor _ _ = _; decide)
    | apply Changes.ite
    | apply Changes.after (State.startDom_changes ..)
    | apply Changes.after (State.setCtx_changes ..)
    | apply Changes.after (State.count_changes ..)
    | apply Changes.foldl
    | intro _
    | split)

theorem State.idleRaise_changes (s : State) (ctx : Nat) :
    Changes 0x220108031500 s (State.idleRaise s ctx) := by
  unfold State.idleRaise
  repeat' (with_reducible first
    | exact Changes.refl _ _
    | (show Nat.lor _ _ = _; decide)
    | apply Changes.ite
    | apply Changes.after (State.startDom_changes ..)
    | apply Changes.after (State.setCtx_changes ..)
    | apply Changes.foldl
    | intro _
    | split)

end Sys2Proof.Machine
end

