-- ==== Sys2Proof/Laws/StepCtl.lean ====
section
/-! SUPPORT. What each operation of Machine/StepCtl.lean may change (the masks number the fields of State in order). -/

set_option Elab.async false

namespace Sys2Proof.Machine

theorem State.sendReport_changes (s : State) (k : Nat) (r : Report) :
    Changes 0x100100011400 s (State.sendReport s k r) := by
  unfold State.sendReport
  repeat' (with_reducible first
    | exact Changes.refl _ _
    | (show Nat.lor _ _ = _; decide)
    | apply Changes.ite
    | apply Changes.after (State.sendMarker_changes ..)
    | intro _)

theorem State.reportFail_changes (s : State) (ctx : Nat) (code : BitVec 16) :
    Changes 0x100100011400 s (State.reportFail s ctx code) := by
  unfold State.reportFail
  repeat' (with_reducible first
    | exact Changes.refl _ _
    | (show Nat.lor _ _ = _; decide)
    | apply Changes.ite
    | apply Changes.after (State.sendReport_changes ..)
    | intro _
    | split)

theorem State.closeStep_changes (s : State) (ctx : Nat) (r : StepRec) (res : Result) (code : BitVec 16) (addr : Addr) (fin : Nat)
    (f : Ctx → Ctx) :
    Changes 0x220118031500 s (State.closeStep s ctx r res code addr fin f) := by
  unfold State.closeStep
  repeat' (with_reducible first
    | exact Changes.refl _ _
    | (show Nat.lor _ _ = _; decide)
    | apply Changes.ite
    | apply Changes.after (State.complete_changes ..)
    | apply Changes.after (State.setBeat_changes ..)
    | apply Changes.after (State.idleLower_changes ..)
    | apply Changes.after (State.setCtx_changes ..)
    | intro _
    | split)

theorem State.failStep_changes (s : State) (ctx : Nat) (code : BitVec 16) (addr : Addr) :
    Changes 0xf60799c31500 s (State.failStep s ctx code addr) := by
  unfold State.failStep
  repeat' (with_reducible first
    | exact Changes.refl _ _
    | (show Nat.lor _ _ = _; decide)
    | apply Changes.after (State.clearOverrides_changes ..)
    | apply Changes.after (State.clearStores_changes ..)
    | apply Changes.after (State.abortCtx_changes ..)
    | apply Changes.after (State.closeStep_changes ..)
    | apply Changes.after (State.reportFail_changes ..)
    | (have hh := okAll.get (State.stepRecord_changes ..) ‹_ = Except.ok _›; apply Changes.after hh; clear hh)
    | split)

theorem State.attemptError_changes (s : State) (ctx : Nat) (code : BitVec 16) (addr : Addr) (commit r231 : Bool) :
    Changes 0xf60799c31500 s (State.attemptError s ctx code addr commit r231) := by
  unfold State.attemptError
  repeat' (with_reducible first
    | exact Changes.refl _ _
    | (show Nat.lor _ _ = _; decide)
    | apply Changes.ite
    | apply Changes.after (State.failStep_changes ..)
    | apply Changes.after (State.noteError_changes ..)
    | apply Changes.after (State.reportFail_changes ..)
    | intro _
    | split)

theorem State.serviceError_changes (s : State) (ctx : Nat) (f : Fail) (commit r231 : Bool) :
    Changes 0xf60799c31500 s (State.serviceError s ctx f commit r231) := by
  unfold State.serviceError
  repeat' (with_reducible first
    | exact Changes.refl _ _
    | (show Nat.lor _ _ = _; decide)
    | apply Changes.after (State.memFail_changes ..)
    | apply Changes.after (State.attemptError_changes ..)
    | split)

theorem State.judgeLow_changes (s : State) (ctx : Nat) : okAll (Changes 0x800700020000 s) (s.judgeLow ctx) := by
  unfold State.judgeLow
  split
  · exact okAll.ok (Changes.refl _ _)
  · dsimp only
    split
    · exact okAll.error
    · next l _ =>
      split
      · exact okAll.error
      · next t h =>
        refine okAll.ok (Changes.andThen (Changes.foldl _ ?_ fun _ _ => ?_) (State.setStep_changes ..))
        · exact (okAll.get (State.mapTrackers_changes ..) h).widen
        · exact (State.addFlag_changes ..).widen

theorem State.startReplay_changes (s : State) (ctx : Nat) (c : Ctx) (r : StepRec) (low : BitVec 16) (forced : Bool) :
    Changes 0xe60789c31400 s (State.startReplay s ctx c r low forced) := by
  unfold State.startReplay
  repeat' (with_reducible first
    | exact Changes.refl _ _
    | (show Nat.lor _ _ = _; decide)
    | apply Changes.after (State.clearStores_changes ..)
    | apply Changes.after (State.setStep_changes ..)
    | apply Changes.after (State.abortCtx_changes ..)
    | apply Changes.after (State.event_changes ..))

theorem State.endAttempt_changes (s : State) (ctx : Nat) (n : List Nat) (low : BitVec 16) :
    Changes 0xf787fdffb500 s (State.endAttempt s ctx n low) := by
  unfold State.endAttempt
  repeat' (with_reducible first
    | exact Changes.refl _ _
    | (show Nat.lor _ _ = _; decide)
    | apply Changes.after (State.moveBeat_changes ..)
    | apply Changes.after (State.failStep_changes ..)
    | apply Changes.after (State.setStep_changes ..)
    | apply Changes.after (State.serviceError_changes ..)
    | apply Changes.after (State.startReplay_changes ..)
    | split)

theorem State.treeAdvance_changes (s : State) (ctx : Nat) (c : Ctx) (r : StepRec) (w : Report) :
    Changes 0xf787fdffb500 s (State.treeAdvance s ctx c r w) := by
  unfold State.treeAdvance
  repeat' (with_reducible first
    | exact Changes.refl _ _
    | (show Nat.lor _ _ = _; decide)
    | apply Changes.ite
    | apply Changes.after (State.moveBeat_changes ..)
    | apply Changes.after (State.setStep_changes ..)
    | apply Changes.after (State.endAttempt_changes ..)
    | apply Changes.after (State.serviceError_changes ..)
    | intro _
    | (have hh := okAll.get (State.judgeLow_changes ..) ‹_ = Except.ok _›; apply Changes.after hh; clear hh)
    | split)

theorem State.tryAdvance_changes (s : State) (ctx : Nat) :
    Changes 0xf787fdffb500 s (State.tryAdvance s ctx) := by
  unfold State.tryAdvance
  repeat' (with_reducible first
    | exact Changes.refl _ _
    | (show Nat.lor _ _ = _; decide)
    | apply Changes.ite
    | apply Changes.after (State.failStep_changes ..)
    | apply Changes.after (State.setStep_changes ..)
    | apply Changes.after (State.setBeat_changes ..)
    | apply Changes.after (State.treeAdvance_changes ..)
    | apply Changes.after (State.sendReport_changes ..)
    | intro _
    | split)

theorem State.phaseDone_changes (s : State) (ctx : Nat) (c : Ctx) (r : StepRec) :
    Changes 0xf60799c31500 s (State.phaseDone s ctx c r) := by
  unfold State.phaseDone
  repeat' (with_reducible first
    | exact Changes.refl _ _
    | (show Nat.lor _ _ = _; decide)
    | apply okAll.ok
    | apply okAll.ite
    | apply Changes.after (State.setStep_changes ..)
    | apply Changes.after (State.setBeat_changes ..)
    | apply Changes.after (State.serviceError_changes ..)
    | apply okAll.mono (State.judgeLow_changes ..)
    | intro _
    | apply Changes.after ‹Changes _ _ _›
    | split
    | dsimp only
    | refine okAll.get (P := Changes 0xf60799c31500 s) ?_ ‹_ = Except.ok _›)

theorem State.sendCommitReport_changes (s : State) (c : Ctx) (r : StepRec) :
    Changes 0x100110011400 s (State.sendCommitReport s c r) := by
  unfold State.sendCommitReport
  repeat' (with_reducible first
    | exact Changes.refl _ _
    | (show Nat.lor _ _ = _; decide)
    | apply Changes.ite
    | apply Changes.after (State.setBeat_changes ..)
    | apply Changes.after (State.sendReport_changes ..)
    | intro _
    | split)

theorem State.countShadows_changes (s : State) (c : Ctx) :
    Changes 0x100011400 s (State.countShadows s c) := by
  unfold State.countShadows
  repeat' (with_reducible first
    | exact Changes.refl _ _
    | (show Nat.lor _ _ = _; decide)
    | apply Changes.ite
    | apply Changes.after (State.count_changes ..)
    | apply Changes.foldl
    | intro _)

theorem State.replay_changes (s : State) (ctx : Nat) (c : Ctx) (r : StepRec) :
    Changes 0xf787ffffb500 s (State.replay s ctx c r) := by
  unfold State.replay
  repeat' (with_reducible first
    | exact Changes.refl _ _
    | (show Nat.lor _ _ = _; decide)
    | apply Changes.after (State.countShadows_changes ..)
    | apply Changes.after (State.setStep_changes ..)
    | apply Changes.after (State.setBeat_changes ..)
    | apply Changes.after (State.serviceError_changes ..)
    | apply Changes.after (State.abortCtx_changes ..)
    | apply Changes.after (State.replayBeat_changes ..)
    | apply Changes.after (State.writeOverrides_changes ..)
    | apply Changes.after (State.restoreSync_changes ..)
    | apply Changes.after (State.restoreLanes_changes ..)
    | (have hh := okAll.get (State.mapTrackers_changes ..) ‹_ = Except.ok _›; apply Changes.after hh; clear hh)
    | (have hh := okAll.get (State.clearHalf_changes ..) ‹_ = Except.ok _›; apply Changes.after hh; clear hh)
    | split
    | dsimp only)

theorem State.finalise_changes (s : State) (ctx : Nat) (c : Ctx) (r : StepRec) :
    Changes 0xf787f9d7b506 s (State.finalise s ctx c r) := by
  unfold State.finalise
  repeat' (with_reducible first
    | exact Changes.refl _ _
    | (show Nat.lor _ _ = _; decide)
    | apply Changes.ite
    | apply Changes.after (State.commitTrial_changes ..)
    | apply Changes.after (State.memFail_changes ..)
    | apply Changes.after (State.clearOverrides_changes ..)
    | apply Changes.after (State.failStep_changes ..)
    | apply Changes.after (State.clearStores_changes ..)
    | apply Changes.after (State.closeStep_changes ..)
    | apply Changes.after (State.fireCommit_changes ..)
    | apply Changes.after (State.noteError_changes ..)
    | apply Changes.after (State.event_changes ..)
    | apply okAll.bind (State.mapTrackers_changes ..)
    | apply okAll.mono (State.clearHalf_changes ..)
    | apply okAll.bind (State.finEntries_changes ..)
    | apply okAll.bind (State.stepRecord_changes ..)
    | intro _
    | apply Changes.after ‹Changes _ _ _›
    | split
    | dsimp only
    | refine okAll.get (P := Changes 0xf787f9d7b506 s) ?_ ‹_ = Except.ok _›)

theorem execPhaseDone_changes (ctx : Nat) (s : State) :
    nextAll (Changes 0xf787fdffb500 s) (execPhaseDone ctx s) := by
  unfold execPhaseDone
  repeat' (with_reducible first
    | exact Changes.refl _ _
    | (show Nat.lor _ _ = _; decide)
    | apply nextAll.next
    | apply nextAll.ite
    | apply Changes.after (State.sendCommitReport_changes ..)
    | apply Changes.after (State.failStep_changes ..)
    | apply Changes.after (State.tryAdvance_changes ..)
    | apply Changes.after (State.phaseDone_changes ..)
    | intro _
    | split)

theorem execReplay_changes (ctx : Nat) (s : State) :
    nextAll (Changes 0xf787ffffb500 s) (execReplay ctx s) := by
  unfold execReplay
  repeat' (with_reducible first
    | exact Changes.refl _ _
    | (show Nat.lor _ _ = _; decide)
    | apply nextAll.next
    | apply nextAll.ite
    | apply Changes.after (State.replay_changes ..)
    | intro _
    | split)

theorem execCommitFinalise_changes (ctx : Nat) (s : State) :
    nextAll (Changes 0xf787fdffb506 s) (execCommitFinalise ctx s) := by
  unfold execCommitFinalise
  repeat' (with_reducible first
    | exact Changes.refl _ _
    | (show Nat.lor _ _ = _; decide)
    | apply nextAll.next
    | apply nextAll.ite
    | apply Changes.after (State.moveBeat_changes ..)
    | apply Changes.after (State.finalise_changes ..)
    | intro _
    | split)

end Sys2Proof.Machine
end

