-- ==== Sys2Proof/Laws/Complete.lean ====
section
/-! SUPPORT. What each operation of Machine/Complete.lean may change (the masks number the fields of State in order). -/

set_option Elab.async false

namespace Sys2Proof.Machine

theorem State.flagUe_changes (s : State) (ctx : Nat) (tag : BitVec 32) (addr : Addr) :
    Changes 0xf787fdffb500 s (State.flagUe s ctx tag addr) := by
  unfold State.flagUe
  repeat' (with_reducible first
    | exact Changes.refl _ _
    | (show Nat.lor _ _ = _; decide)
    | apply Changes.ite
    | apply Changes.after (State.failStep_changes ..)
    | apply Changes.after (State.noteUe_changes ..)
    | apply Changes.after (State.abortCtx_changes ..)
    | apply Changes.after (State.treeAdvance_changes ..)
    | apply Changes.after (State.addFlag_changes ..)
    | intro _
    | split
    | dsimp only)

theorem State.abortReduce_changes (fuel : Nat) (s : State) (u ctx : Nat) (c : Ctx) (tag : BitVec 32) :
    Changes 0xe60109811400 s (State.abortReduce fuel s u ctx c tag) := by
  fun_induction State.abortReduce fuel s u ctx c tag
  all_goals (repeat' (with_reducible first
    | exact Changes.refl _ _
    | (show Nat.lor _ _ = _; decide)
    | apply Changes.ite
    | apply Changes.after (State.freeHandleTiles_changes ..)
    | apply Changes.after (State.leaveWindow_changes ..)
    | intro _
    | apply Changes.after ‹Changes _ _ _›))

theorem State.reduceFailed_changes (s : State) (ctx : Nat) (c : Ctx) (d : List Byte) :
    Changes 0xe60109811400 s (State.reduceFailed s ctx c d) := by
  unfold State.reduceFailed
  repeat' (with_reducible first
    | exact Changes.refl _ _
    | (show Nat.lor _ _ = _; decide)
    | apply Changes.ite
    | apply Changes.after (State.abortReduce_changes ..)
    | apply Changes.foldl
    | intro _)

theorem State.descFailed_changes (s : State) (ctx : Nat) (c : Ctx) (e : Entry) (st : Status) :
    Changes 0xf787fdffb500 s (State.descFailed s ctx c e st) := by
  unfold State.descFailed
  repeat' (with_reducible first
    | exact Changes.refl _ _
    | (show Nat.lor _ _ = _; decide)
    | apply Changes.ite
    | apply Changes.after (State.reduceFailed_changes ..)
    | apply Changes.after (State.attemptError_changes ..)
    | apply Changes.after (State.flagUe_changes ..)
    | intro _)

theorem execDescriptorComplete_changes (u idx : Nat) (s : State) :
    nextAll (Changes 0xf787fdffb500 s) (execDescriptorComplete u idx s) := by
  unfold execDescriptorComplete
  repeat' (with_reducible first
    | exact Changes.refl _ _
    | (show Nat.lor _ _ = _; decide)
    | apply nextAll.next
    | apply Changes.ite
    | apply Changes.after (State.memFail_changes ..)
    | apply Changes.after (State.passFlags_changes ..)
    | apply Changes.after (State.descFailed_changes ..)
    | apply Changes.after (State.signalFrom_changes ..)
    | apply Changes.after (State.leaveWindow_changes ..)
    | apply Changes.after (State.contribute_changes ..)
    | intro _
    | split)

end Sys2Proof.Machine
end

