-- ==== Sys2Proof/Laws/Queue.lean ====
section
/-! SUPPORT. What each operation of Machine/Queue.lean may change (the masks number the fields of State in order). -/

set_option Elab.async false

namespace Sys2Proof.Machine

theorem State.acceptOne_changes (s : State) (q : Nat) :
    someAll (Changes 0x100013400 s) (State.acceptOne s q) := by
  unfold State.acceptOne
  repeat' (with_reducible first
    | exact Changes.refl _ _
    | (show Nat.lor _ _ = _; decide)
    | exact someAll.none
    | apply someAll.some
    | apply someAll.ite
    | apply Changes.ite
    | apply Changes.after (State.setQueue_changes ..)
    | apply Changes.after (State.malformed_changes ..)
    | intro _
    | ((fail_if_success (apply Changes.after (Changes.set_snapQ _ _))); apply Changes.after (Changes.set_order _ _)))

theorem State.pollQueue_changes (fuel : Nat) (s : State) (q : Nat) :
    Changes 0x100013400 s (State.pollQueue fuel s q) := by
  fun_induction State.pollQueue fuel s q
  all_goals (repeat' (with_reducible first
    | exact Changes.refl _ _
    | (show Nat.lor _ _ = _; decide)
    | apply Changes.after ‹Changes _ _ _›
    | (have hh := someAll.get (State.acceptOne_changes ..) ‹_ = some _›; apply Changes.after hh; clear hh)))

theorem State.pollAll_changes (s : State) :
    Changes 0x100013400 s (State.pollAll s) := by
  unfold State.pollAll
  repeat' (with_reducible first
    | exact Changes.refl _ _
    | (show Nat.lor _ _ = _; decide)
    | apply Changes.after (State.pollQueue_changes ..)
    | apply Changes.foldl
    | intro _)

theorem State.cohEvent_changes (s : State) :
    Changes 0x100011400 s (State.cohEvent s) := by
  unfold State.cohEvent
  repeat' (with_reducible first
    | exact Changes.refl _ _
    | (show Nat.lor _ _ = _; decide)
    | apply Changes.after (State.count_changes ..))

theorem State.takeControl_changes (s : State) (q : Nat) (v : BitVec 32) :
    Changes 0x1000 s (State.takeControl s q v) := by
  unfold State.takeControl
  repeat' (with_reducible first
    | exact Changes.refl _ _
    | (show Nat.lor _ _ = _; decide)
    | apply Changes.after (State.setQueue_changes ..))

theorem execCommandLineWrite_changes (addr : Addr) (line : List Byte) (s : State) :
    nextAll (Changes 0x100013400 s) (execCommandLineWrite addr line s) := by
  unfold execCommandLineWrite
  repeat' (with_reducible first
    | exact Changes.refl _ _
    | (show Nat.lor _ _ = _; decide)
    | apply nextAll.next
    | apply nextAll.ite
    | apply Changes.ite
    | apply Changes.after (State.cohEvent_changes ..)
    | apply Changes.after (State.pollQueue_changes ..)
    | apply Changes.after (State.setBytes_changes ..)
    | intro _
    | split
    | dsimp only)

theorem execControlLineWrite_changes (q : Nat) (evCons : Word) (s : State) :
    nextAll (Changes 0x100011400 s) (execControlLineWrite q evCons s) := by
  unfold execControlLineWrite
  repeat' (with_reducible first
    | exact Changes.refl _ _
    | (show Nat.lor _ _ = _; decide)
    | apply nextAll.next
    | apply nextAll.ite
    | apply Changes.ite
    | apply Changes.after (State.cohEvent_changes ..)
    | apply Changes.after (State.setBytes_changes ..)
    | apply Changes.after (State.takeControl_changes ..)
    | intro _)

theorem execRingAccessFail_changes (q : Nat) (which : RingLine) (unreachable : Bool) (s : State) :
    nextAll (Changes 0x100011000 s) (execRingAccessFail q which unreachable s) := by
  unfold execRingAccessFail
  repeat' (with_reducible first
    | exact Changes.refl _ _
    | (show Nat.lor _ _ = _; decide)
    | apply nextAll.next
    | apply nextAll.ite
    | apply Changes.after (State.setQueue_changes ..)
    | apply Changes.after (State.event_changes ..)
    | intro _)

end Sys2Proof.Machine
end

