-- ==== Sys2Proof/Laws/Seq.lean ====
section
/-! SUPPORT. What each operation of Machine/Seq.lean may change (the masks number the fields of State in order). -/

set_option Elab.async false

namespace Sys2Proof.Machine

theorem State.dispatchFault_changes (s : State) (core : Nat) (ctx : Nat) (c : Ctx) (f : Fail) :
    Changes 0xf60799c31500 s (State.dispatchFault s core ctx c f) := by
  unfold State.dispatchFault
  repeat' (with_reducible first
    | exact Changes.refl _ _
    | (show Nat.lor _ _ = _; decide)
    | apply Changes.after (State.memFail_changes ..)
    | apply Changes.after (State.attemptError_changes ..)
    | apply Changes.after (State.setCore_changes ..)
    | apply Changes.after (State.count_changes ..)
    | apply Changes.after (State.event_changes ..))

/-- A dispatch word changes what its run changes, beside a dispatch fault (R264, R272). -/
theorem State.runWord_changes {m : Nat} (s : State) (core opc : Nat) (run : Nat → Ctx → Core → List Byte → State → State)
    (hr : ∀ ctx c x w t, Changes m t (run ctx c x w t)) (hm : Nat.lor 0xf60799c31500 m = m := by decide) :
    Changes m s (s.runWord core opc run) := by
  have base : ∀ t, Changes 0xf60799c31500 s t → Changes m s t := fun t h => h.widen hm
  unfold State.runWord
  dsimp only
  split
  · exact Changes.refl _ _
  · split
    · split
      · exact base _ (State.dispatchFault_changes ..).widen
      · split
        · exact base _ (State.dispatchFault_changes ..).widen
        · split
          · exact Changes.refl _ _
          · split
            · exact base _ (State.dispatchFault_changes ..).widen
            · exact hr _ _ _ _ _
    · exact Changes.refl _ _

theorem State.wordDone_changes (s : State) (core : Nat) :
    Changes 0x100011400 s (State.wordDone s core) := by
  unfold State.wordDone
  repeat' (with_reducible first
    | exact Changes.refl _ _
    | (show Nat.lor _ _ = _; decide)
    | apply Changes.after (State.count_changes ..))

theorem State.nextWord_changes (s : State) (core : Nat) (x : Core) :
    Changes 0x400000 s (State.nextWord s core x) := by
  unfold State.nextWord
  repeat' (with_reducible first
    | exact Changes.refl _ _
    | (show Nat.lor _ _ = _; decide)
    | apply Changes.after (State.setCore_changes ..))

theorem State.stall_changes (s : State) (core : Nat) (x : Core) (w : List Byte) (r : CoreRun) :
    Changes 0x400000 s (State.stall s core x w r) := by
  unfold State.stall
  repeat' (with_reducible first
    | exact Changes.refl _ _
    | (show Nat.lor _ _ = _; decide)
    | apply Changes.after (State.setCore_changes ..))

theorem State.wordSignal_changes (s : State) (c : Ctx) (core : Nat) (w : List Byte) :
    Changes 0x100151400 s (State.wordSignal s c core w) := by
  unfold State.wordSignal
  repeat' (with_reducible first
    | exact Changes.refl _ _
    | (show Nat.lor _ _ = _; decide)
    | apply Changes.after (State.signalFrom_changes ..))

theorem State.endList_changes (s : State) (c : Ctx) (core : Nat) (x : Core) (w : List Byte) :
    Changes 0x100551400 s (State.endList s c core x w) := by
  unfold State.endList
  repeat' (with_reducible first
    | exact Changes.refl _ _
    | (show Nat.lor _ _ = _; decide)
    | apply Changes.ite
    | apply Changes.after (State.signalFrom_changes ..)
    | apply Changes.after (State.setCore_changes ..)
    | intro _)

theorem execDispatchNop_changes (core : Nat) (s : State) :
    nextAll (Changes 0xf60799c31500 s) (execDispatchNop core s) := by
  unfold execDispatchNop
  repeat' (with_reducible first
    | exact Changes.refl _ _
    | (show Nat.lor _ _ = _; decide)
    | apply nextAll.next
    | apply State.runWord_changes
    | apply Changes.after (State.wordDone_changes ..)
    | apply Changes.after (State.nextWord_changes ..)
    | intro _)

theorem execIssueWord_changes (core time : Nat) (s : State) :
    nextAll (Changes 0xf60799c31500 s) (execIssueWord core time s) := by
  unfold execIssueWord
  repeat' (with_reducible first
    | exact Changes.refl _ _
    | (show Nat.lor _ _ = _; decide)
    | apply nextAll.next
    | apply Changes.ite
    | apply State.runWord_changes
    | apply Changes.after (State.stall_changes ..)
    | apply Changes.after (State.setEngine_changes ..)
    | apply Changes.after (State.wordDone_changes ..)
    | apply Changes.after (State.dispatchFault_changes ..)
    | intro _
    | split)

theorem execIssueAdmit_changes (u time : Nat) (s : State) :
    nextAll (Changes 0xf60799c31500 s) (execIssueAdmit u time s) := by
  unfold execIssueAdmit
  repeat' (with_reducible first
    | exact Changes.refl _ _
    | (show Nat.lor _ _ = _; decide)
    | apply nextAll.next
    | apply nextAll.ite
    | apply Changes.after (State.setEngine_changes ..)
    | apply Changes.after (State.nextWord_changes ..)
    | apply Changes.after (State.dispatchFault_changes ..)
    | apply Changes.after (State.count_changes ..)
    | intro _
    | split
    | dsimp only)

theorem execWaitWord_changes (core : Nat) (s : State) :
    nextAll (Changes 0xf60799c31500 s) (execWaitWord core s) := by
  unfold execWaitWord
  repeat' (with_reducible first
    | exact Changes.refl _ _
    | (show Nat.lor _ _ = _; decide)
    | apply nextAll.next
    | apply Changes.ite
    | apply State.runWord_changes
    | apply Changes.after (State.stall_changes ..)
    | apply Changes.after (State.wordDone_changes ..)
    | apply Changes.after (State.nextWord_changes ..)
    | intro _)

theorem execWaitRelease_changes (core : Nat) (s : State) :
    nextAll (Changes 0x400000 s) (execWaitRelease core s) := by
  unfold execWaitRelease
  repeat' (with_reducible first
    | exact Changes.refl _ _
    | (show Nat.lor _ _ = _; decide)
    | apply nextAll.next
    | apply nextAll.ite
    | apply Changes.after (State.nextWord_changes ..)
    | intro _
    | split)

theorem execSignalWord_changes (core : Nat) (s : State) :
    nextAll (Changes 0xf60799d71500 s) (execSignalWord core s) := by
  unfold execSignalWord
  repeat' (with_reducible first
    | exact Changes.refl _ _
    | (show Nat.lor _ _ = _; decide)
    | apply nextAll.next
    | apply Changes.ite
    | apply State.runWord_changes
    | apply Changes.after (State.stall_changes ..)
    | apply Changes.after (State.wordSignal_changes ..)
    | apply Changes.after (State.wordDone_changes ..)
    | apply Changes.after (State.nextWord_changes ..)
    | intro _)

theorem execDrainComplete_changes (core : Nat) (s : State) :
    nextAll (Changes 0x100551400 s) (execDrainComplete core s) := by
  unfold execDrainComplete
  repeat' (with_reducible first
    | exact Changes.refl _ _
    | (show Nat.lor _ _ = _; decide)
    | apply nextAll.next
    | apply nextAll.ite
    | apply Changes.after (State.endList_changes ..)
    | apply Changes.after (State.wordSignal_changes ..)
    | apply Changes.after (State.nextWord_changes ..)
    | intro _
    | split)

theorem execWaitbeatWord_changes (core : Nat) (s : State) :
    nextAll (Changes 0xf60799c31500 s) (execWaitbeatWord core s) := by
  unfold execWaitbeatWord
  repeat' (with_reducible first
    | exact Changes.refl _ _
    | (show Nat.lor _ _ = _; decide)
    | apply nextAll.next
    | apply Changes.ite
    | apply State.runWord_changes
    | apply Changes.after (State.stall_changes ..)
    | apply Changes.after (State.wordDone_changes ..)
    | apply Changes.after (State.nextWord_changes ..)
    | intro _)

theorem execLoopWord_changes (core : Nat) (s : State) :
    nextAll (Changes 0xf60799c31500 s) (execLoopWord core s) := by
  unfold execLoopWord
  repeat' (with_reducible first
    | exact Changes.refl _ _
    | (show Nat.lor _ _ = _; decide)
    | apply nextAll.next
    | apply Changes.ite
    | apply State.runWord_changes
    | apply Changes.after (State.setCore_changes ..)
    | apply Changes.after (State.wordDone_changes ..)
    | intro _)

theorem execJumpWord_changes (core : Nat) (s : State) :
    nextAll (Changes 0xf60799c31500 s) (execJumpWord core s) := by
  unfold execJumpWord
  repeat' (with_reducible first
    | exact Changes.refl _ _
    | (show Nat.lor _ _ = _; decide)
    | apply nextAll.next
    | apply State.runWord_changes
    | apply Changes.after (State.setCore_changes ..)
    | apply Changes.after (State.wordDone_changes ..)
    | intro _)

theorem execSetbaseWord_changes (core : Nat) (s : State) :
    nextAll (Changes 0xf60799c31500 s) (execSetbaseWord core s) := by
  unfold execSetbaseWord
  repeat' (with_reducible first
    | exact Changes.refl _ _
    | (show Nat.lor _ _ = _; decide)
    | apply nextAll.next
    | apply State.runWord_changes
    | apply Changes.after (State.setCore_changes ..)
    | apply Changes.after (State.wordDone_changes ..)
    | intro _)

theorem execTrapWord_changes (core : Nat) (s : State) :
    nextAll (Changes 0xf60799c31500 s) (execTrapWord core s) := by
  unfold execTrapWord
  repeat' (with_reducible first
    | exact Changes.refl _ _
    | (show Nat.lor _ _ = _; decide)
    | apply nextAll.next
    | apply State.runWord_changes
    | apply Changes.after (State.trace_changes ..)
    | apply Changes.after (State.wordDone_changes ..)
    | apply Changes.after (State.nextWord_changes ..)
    | apply Changes.after (State.event_changes ..)
    | intro _)

theorem execEndWord_changes (core : Nat) (s : State) :
    nextAll (Changes 0xf60799d71500 s) (execEndWord core s) := by
  unfold execEndWord
  repeat' (with_reducible first
    | exact Changes.refl _ _
    | (show Nat.lor _ _ = _; decide)
    | apply nextAll.next
    | apply Changes.ite
    | apply State.runWord_changes
    | apply Changes.after (State.endList_changes ..)
    | apply Changes.after (State.stall_changes ..)
    | apply Changes.after (State.wordDone_changes ..)
    | intro _)

theorem execRngWordRequest_changes (u : Nat) (s : State) :
    nextAll (Changes 0x102811400 s) (execRngWordRequest u s) := by
  unfold execRngWordRequest
  repeat' (with_reducible first
    | exact Changes.refl _ _
    | (show Nat.lor _ _ = _; decide)
    | apply nextAll.next
    | apply nextAll.ite
    | apply Changes.after (State.serveWords_changes ..)
    | apply Changes.after (State.setProg_changes ..)
    | intro _
    | split)

end Sys2Proof.Machine
end

