-- ==== Sys2Proof/Laws/Markers.lean ====
section
/-! SUPPORT. What each operation of Machine/Markers.lean may change (the masks number the fields of State in order). -/

set_option Elab.async false

namespace Sys2Proof.Machine

theorem State.abortStep_changes (s : State) (ctx : Nat) :
    Changes 0xe60799d71500 s (State.abortStep s ctx) := by
  unfold State.abortStep
  repeat' (with_reducible first
    | exact Changes.refl _ _
    | (show Nat.lor _ _ = _; decide)
    | apply Changes.ite
    | apply Changes.after (State.clearOverrides_changes ..)
    | apply Changes.after (State.clearStores_changes ..)
    | apply Changes.after (State.abortCtx_changes ..)
    | apply Changes.after (State.closeStep_changes ..)
    | apply Changes.after (State.restoreSync_changes ..)
    | intro _
    | (have hh := okAll.get (State.stepRecord_changes ..) ‹_ = Except.ok _›; apply Changes.after hh; clear hh)
    | split)

/-- A marker changes what its action changes, beside the counters (R427). -/
theorem State.onMarker_changes {m : Nat} (s : State) (port kind : Nat) (copies : List (List Byte)) (act : List Byte → State → State)
    (hr : ∀ l t, Changes m t (act l t)) (hm : Nat.lor 0x100011400 m = m := by decide) : Changes m s (s.onMarker port kind copies act) := by
  unfold State.onMarker
  split
  · split
    · exact (State.count_changes ..).widen hm
    · split
      · exact (((State.count_changes ..).widen hm).andThen (State.count_changes ..) hm).andThen (hr _ _) (Nat.or_self m)
      · exact Changes.refl _ _
  · exact Changes.refl _ _

theorem State.takeReport_changes (s : State) (port : Nat) (m : List Byte) :
    Changes 0xf797fdffb500 s (State.takeReport s port m) := by
  unfold State.takeReport
  repeat' (with_reducible first
    | exact Changes.refl _ _
    | (show Nat.lor _ _ = _; decide)
    | apply Changes.ite
    | apply Changes.after (State.setPort_changes ..)
    | apply Changes.after (State.attemptError_changes ..)
    | apply Changes.after (State.sendCommitReport_changes ..)
    | apply Changes.after (State.setBeat_changes ..)
    | apply Changes.after (State.tryAdvance_changes ..)
    | intro _
    | split
    | dsimp only)

theorem State.announce_changes (s : State) (set : Bool) (b : Beat) :
    Changes 0xe60799d71500 s (State.announce s set b) := by
  unfold State.announce
  repeat' (with_reducible first
    | exact Changes.refl _ _
    | (show Nat.lor _ _ = _; decide)
    | apply Changes.ite
    | apply Changes.after (State.abortStep_changes ..)
    | apply Changes.after (State.setStep_changes ..)
    | apply Changes.after (State.complete_changes ..)
    | apply Changes.after (State.done_changes ..)
    | intro _
    | split)

theorem State.workerReplay_changes (s : State) (ctx : Nat) (c : Ctx) (r : StepRec) :
    Changes 0xf60799c31500 s (State.workerReplay s ctx c r) := by
  unfold State.workerReplay
  repeat' (with_reducible first
    | exact Changes.refl _ _
    | (show Nat.lor _ _ = _; decide)
    | apply Changes.after (State.serviceError_changes ..)
    | apply Changes.after (State.startReplay_changes ..)
    | split)

theorem State.treeFailed_changes (s : State) (ctx : Nat) (r : StepRec) (b : Beat) :
    Changes 0xf60799c31500 s (State.treeFailed s ctx r b) := by
  unfold State.treeFailed
  repeat' (with_reducible first
    | exact Changes.refl _ _
    | (show Nat.lor _ _ = _; decide)
    | apply Changes.ite
    | apply Changes.after (State.failStep_changes ..)
    | intro _
    | ((fail_if_success (apply Changes.after (Changes.set_snapQ _ _))); apply Changes.after (Changes.set_fresh _ _ (Nat.le_add_right _ _))))

theorem State.followBeat_changes (s : State) (k : Nat) (b : Beat) (intact : Bool) :
    Changes 0xf787fdffb506 s (State.followBeat s k b intact) := by
  unfold State.followBeat
  repeat' (with_reducible first
    | exact Changes.refl _ _
    | (show Nat.lor _ _ = _; decide)
    | apply Changes.ite
    | apply Changes.after (State.applyBeat_changes ..)
    | apply Changes.after (State.setBeat_changes ..)
    | apply Changes.after (State.treeFailed_changes ..)
    | apply Changes.after (State.workerReplay_changes ..)
    | apply Changes.after (State.finalise_changes ..)
    | intro _
    | split
    | dsimp only
    | ((fail_if_success (apply Changes.after (Changes.set_snapQ _ _))); apply Changes.after (Changes.set_beat _ _)))

theorem State.judgeRestored_changes (s : State) (b : Beat) :
    Changes 0x110011000 s (State.judgeRestored s b) := by
  unfold State.judgeRestored
  repeat' (with_reducible first
    | exact Changes.refl _ _
    | (show Nat.lor _ _ = _; decide)
    | apply Changes.ite
    | apply Changes.after (State.setBeat_changes ..)
    | apply Changes.after (State.beatEvent_changes ..)
    | intro _
    | split)

theorem State.takeBeat_changes (s : State) (set : Bool) (b : Beat) (rd : Int) :
    Changes 0xf787fdffb506 s (State.takeBeat s set b rd) := by
  unfold State.takeBeat
  repeat' (with_reducible first
    | exact Changes.refl _ _
    | (show Nat.lor _ _ = _; decide)
    | apply Changes.ite
    | apply Changes.after (State.announce_changes ..)
    | apply Changes.after (State.setBeat_changes ..)
    | apply Changes.after (State.followBeat_changes ..)
    | apply Changes.after (State.judgeRestored_changes ..)
    | apply Changes.after (State.count_changes ..)
    | intro _)

theorem State.takeMarker_changes (s : State) (kind : Nat) (m : List Byte) :
    Changes 0xf787fdffb506 s (State.takeMarker s kind m) := by
  unfold State.takeMarker
  repeat' (with_reducible first
    | exact Changes.refl _ _
    | (show Nat.lor _ _ = _; decide)
    | apply Changes.ite
    | apply Changes.after (State.takeBeat_changes ..)
    | apply Changes.after (State.sendMarker_changes ..)
    | apply Changes.after (State.sendFrameOut_changes ..)
    | apply Changes.after (State.count_changes ..)
    | apply Changes.foldl
    | intro _
    | ((fail_if_success (apply Changes.after (Changes.set_snapQ _ _))); apply Changes.after (Changes.set_fresh _ _ (Nat.le_add_right _ _))))

theorem State.prefetchUe_changes (s : State) (ctx : Nat) (c : Ctx) (tag : BitVec 32) (addr : Addr) :
    Changes 0xf787fdffb500 s (State.prefetchUe s ctx c tag addr) := by
  unfold State.prefetchUe
  repeat' (with_reducible first
    | exact Changes.refl _ _
    | (show Nat.lor _ _ = _; decide)
    | apply Changes.ite
    | apply Changes.after (State.attemptError_changes ..)
    | apply Changes.after (State.noteUe_changes ..)
    | apply Changes.after (State.flagUe_changes ..)
    | apply Changes.after (State.addFlag_changes ..)
    | intro _
    | split)

theorem State.movePiece_changes (s : State) (c : Ctx) (f : Prefetch) (k : Nat) (p : Nat × Nat) :
    okAll (Changes 0x800700011400 s) (State.movePiece s c f k p) := by
  unfold State.movePiece
  repeat' (with_reducible first
    | exact Changes.refl _ _
    | (show Nat.lor _ _ = _; decide)
    | apply okAll.pure
    | apply Changes.after (State.moved_changes ..)
    | apply Changes.after (State.count_changes ..)
    | apply okAll.bind (State.write_changes ..)
    | apply okAll.bindT
    | intro _
    | apply Changes.after ‹Changes _ _ _›)

theorem State.movePieces_changes (s : State) (c : Ctx) (f : Prefetch) :
    okAll (Changes 0x800700011400 s) (State.movePieces s c f) := by
  unfold State.movePieces
  repeat' (with_reducible first
    | exact Changes.refl _ _
    | assumption
    | (show Nat.lor _ _ = _; decide)
    | apply okAll.mono (State.movePiece_changes ..)
    | apply okAll.foldlM
    | intro _
    | apply Changes.after ‹Changes _ _ _›)

theorem execReportMarker_changes (port : Nat) (copies : List (List Byte)) (s : State) :
    nextAll (Changes 0xf797fdffb500 s) (execReportMarker port copies s) := by
  unfold execReportMarker
  repeat' (with_reducible first
    | exact Changes.refl _ _
    | (show Nat.lor _ _ = _; decide)
    | apply nextAll.next
    | apply Changes.ite
    | apply State.onMarker_changes
    | apply Changes.after (State.takeReport_changes ..)
    | apply Changes.after (State.count_changes ..)
    | intro _)

theorem execAdvanceMarker_changes (copies : List (List Byte)) (s : State) :
    nextAll (Changes 0xf787fdffb506 s) (execAdvanceMarker copies s) := by
  unfold execAdvanceMarker
  repeat' (with_reducible first
    | exact Changes.refl _ _
    | (show Nat.lor _ _ = _; decide)
    | apply nextAll.next
    | apply State.onMarker_changes
    | apply Changes.after (State.takeMarker_changes ..)
    | intro _)

theorem execSetMarker_changes (copies : List (List Byte)) (s : State) :
    nextAll (Changes 0xf787fdffb506 s) (execSetMarker copies s) := by
  unfold execSetMarker
  repeat' (with_reducible first
    | exact Changes.refl _ _
    | (show Nat.lor _ _ = _; decide)
    | apply nextAll.next
    | apply State.onMarker_changes
    | apply Changes.after (State.takeMarker_changes ..)
    | intro _)

theorem execRootMarkerRepeat_changes (s : State) :
    nextAll (Changes 0x100100011400 s) (execRootMarkerRepeat s) := by
  unfold execRootMarkerRepeat
  repeat' (with_reducible first
    | exact Changes.refl _ _
    | (show Nat.lor _ _ = _; decide)
    | apply nextAll.next
    | apply Changes.ite
    | apply Changes.after (State.sendMarker_changes ..)
    | apply Changes.foldl
    | intro _)

theorem execBeatOutRepeat_changes (s : State) :
    nextAll (Changes 0x100100011400 s) (execBeatOutRepeat s) := by
  unfold execBeatOutRepeat
  repeat' (with_reducible first
    | exact Changes.refl _ _
    | (show Nat.lor _ _ = _; decide)
    | apply nextAll.next
    | apply Changes.ite
    | apply Changes.after (State.sendFrameOut_changes ..)
    | intro _)

theorem execBeatApply_changes (slot : Nat) (s : State) :
    nextAll (Changes 0xf787fdffb506 s) (execBeatApply slot s) := by
  unfold execBeatApply
  repeat' (with_reducible first
    | exact Changes.refl _ _
    | (show Nat.lor _ _ = _; decide)
    | apply nextAll.next
    | apply nextAll.ite
    | apply Changes.after (State.followBeat_changes ..)
    | intro _
    | split)

theorem execBeatInFrame_changes (frame : List Byte) (s : State) :
    nextAll (Changes 0xf787fdffb506 s) (execBeatInFrame frame s) := by
  unfold execBeatInFrame
  repeat' (with_reducible first
    | exact Changes.refl _ _
    | (show Nat.lor _ _ = _; decide)
    | apply nextAll.next
    | apply nextAll.ite
    | apply Changes.ite
    | apply Changes.after (State.takeBeat_changes ..)
    | apply Changes.after (State.setBeat_changes ..)
    | apply Changes.after (State.sendFrameOut_changes ..)
    | apply Changes.after (State.reSource_changes ..)
    | apply Changes.after (State.count_changes ..)
    | intro _)

theorem execBeatSourceLost_changes (s : State) :
    nextAll (Changes 0x110011000 s) (execBeatSourceLost s) := by
  unfold execBeatSourceLost
  repeat' (with_reducible first
    | exact Changes.refl _ _
    | (show Nat.lor _ _ = _; decide)
    | apply nextAll.next
    | apply nextAll.ite
    | apply Changes.after (State.setBeat_changes ..)
    | apply Changes.after (State.beatEvent_changes ..)
    | intro _
    | split)

theorem execPrefetchComplete_changes (i : Nat) (s : State) :
    nextAll (Changes 0xf787fdffb500 s) (execPrefetchComplete i s) := by
  unfold execPrefetchComplete
  repeat' (with_reducible first
    | exact Changes.refl _ _
    | (show Nat.lor _ _ = _; decide)
    | apply nextAll.next
    | apply nextAll.ite
    | apply Changes.ite
    | apply Changes.after (State.memFail_changes ..)
    | apply Changes.after (State.returnCredits_changes ..)
    | apply Changes.after (State.prefetchUe_changes ..)
    | apply Changes.after (State.scramble_changes ..)
    | apply Changes.after (State.signal_changes ..)
    | apply Changes.after (State.beatEvent_changes ..)
    | apply Changes.foldl
    | intro _
    | (have hh := okAll.get (State.movePieces_changes ..) ‹_ = Except.ok _›; apply Changes.after hh; clear hh)
    | split
    | ((fail_if_success (apply Changes.after (Changes.set_snapQ _ _))); apply Changes.after (Changes.set_prefetch _ _)))

theorem execNewFirmwareStart_changes (s : State) :
    nextAll (Changes 0xb787747fb400 s) (execNewFirmwareStart s) := by
  unfold execNewFirmwareStart
  repeat' (with_reducible first
    | exact Changes.refl _ _
    | (show Nat.lor _ _ = _; decide)
    | apply nextAll.next
    | apply nextAll.ite
    | apply Changes.after (State.pollAll_changes ..)
    | apply Changes.after (State.moveBeat_changes ..)
    | apply Changes.after (State.newFirmware_changes ..)
    | apply Changes.after (State.actEvent_changes ..)
    | intro _
    | split)

end Sys2Proof.Machine
end

