-- ==== Sys2Proof/Laws/Context.lean ====
section
/-! SUPPORT. What each operation of Machine/Context.lean may change (the masks number the fields of State in order). -/

set_option Elab.async false

namespace Sys2Proof.Machine

theorem State.freshCopies_changes (s : State) (c : Ctx) :
    Changes 0x800 s (State.freshCopies s c) := by
  unfold State.freshCopies
  repeat' (with_reducible first
    | exact Changes.refl _ _
    | (show Nat.lor _ _ = _; decide)
    | ((fail_if_success (apply Changes.after (Changes.set_snapQ _ _))); apply Changes.after (Changes.set_ownBad _ _)))

theorem State.loadRng_changes (s : State) (c : Ctx) :
    Changes 0x400 s (State.loadRng s c) := by
  unfold State.loadRng
  repeat' (with_reducible first
    | exact Changes.refl _ _
    | (show Nat.lor _ _ = _; decide)
    | ((fail_if_success (apply Changes.after (Changes.set_snapQ _ _))); apply Changes.after (Changes.set_pages _ _)))

theorem State.makeLive_changes (s : State) (id : Nat) (c : Ctx) :
    Changes 0x22010e3f1d00 s (State.makeLive s id c) := by
  unfold State.makeLive
  repeat' (with_reducible first
    | exact Changes.refl _ _
    | (show Nat.lor _ _ = _; decide)
    | apply Changes.after (State.idleLower_changes ..)
    | apply Changes.after (State.freshCopies_changes ..)
    | apply Changes.after (State.deriveLanes_changes ..)
    | apply Changes.after (State.loadRng_changes ..)
    | apply Changes.after (State.setCtx_changes ..)
    | apply Changes.after (State.zeroSync_changes ..))

theorem State.dropSched_changes (s : State) (slot : Nat) :
    Changes 0x20000000 s (State.dropSched s slot) := by
  unfold State.dropSched
  repeat' (with_reducible first
    | exact Changes.refl _ _
    | (show Nat.lor _ _ = _; decide)
    | ((fail_if_success (apply Changes.after (Changes.set_snapQ _ _))); apply Changes.after (Changes.set_sched _ _)))

theorem State.dropFloor_changes (s : State) (slot : Nat) :
    Changes 0x220108011400 s (State.dropFloor s slot) := by
  unfold State.dropFloor
  repeat' (with_reducible first
    | exact Changes.refl _ _
    | (show Nat.lor _ _ = _; decide)
    | apply Changes.after (State.setDrt_changes ..)
    | apply Changes.after (State.ledgerFell_changes ..)
    | apply Changes.after (State.setPage_changes ..))

theorem State.endCtx_changes (s : State) (id : Nat) (c : Ctx) :
    Changes 0x2601ee7f9d00 s (State.endCtx s id c) := by
  unfold State.endCtx
  repeat' (with_reducible first
    | exact Changes.refl _ _
    | (show Nat.lor _ _ = _; decide)
    | apply Changes.after (State.clearOverrides_changes ..)
    | apply Changes.after (State.freshCopies_changes ..)
    | apply Changes.after (State.dropSched_changes ..)
    | apply Changes.after (State.deriveLanes_changes ..)
    | apply Changes.after (State.fzThaw_changes ..)
    | apply Changes.after (State.loadRng_changes ..)
    | apply Changes.after (State.idleRaise_changes ..)
    | apply Changes.after (State.setCtx_changes ..)
    | apply Changes.after (State.dropFloor_changes ..)
    | apply Changes.after (State.zeroSync_changes ..)
    | ((fail_if_success (apply Changes.after (Changes.set_snapQ _ _))); apply Changes.after (Changes.set_copies_cores_prefetch_pageReqs _ _ _ _ _)))

end Sys2Proof.Machine
end

