-- ==== Sys2Proof/Laws/HostCmd.lean ====
section
/-! SUPPORT. What each operation of Machine/HostCmd.lean may change (the masks number the fields of State in order). -/

set_option Elab.async false

namespace Sys2Proof.Machine

theorem State.cmdFail_changes (s : State) (q slot : Nat) (w : Who) (f : Fail) :
    Changes 0x500011400 s (State.cmdFail s q slot w f) := by
  unfold State.cmdFail
  repeat' (with_reducible first
    | exact Changes.refl _ _
    | (show Nat.lor _ _ = _; decide)
    | apply Changes.after (State.memFail_changes ..)
    | apply Changes.after (State.failCmd_changes ..))

theorem State.doQcreate_changes (s : State) (q : Nat) (c : Cmd) :
    Changes 0x100013400 s (State.doQcreate s q c) := by
  unfold State.doQcreate
  repeat' (with_reducible first
    | exact Changes.refl _ _
    | (show Nat.lor _ _ = _; decide)
    | apply Changes.ite
    | apply Changes.after (State.setQueue_changes ..)
    | apply Changes.after (State.done_changes ..)
    | apply Changes.after (State.malformed_changes ..)
    | apply Changes.after (State.pollQueue_changes ..)
    | intro _)

theorem State.doQdestroy_changes (s : State) (q : Nat) (c : Cmd) :
    Changes 0x100011400 s (State.doQdestroy s q c) := by
  unfold State.doQdestroy
  repeat' (with_reducible first
    | exact Changes.refl _ _
    | (show Nat.lor _ _ = _; decide)
    | apply Changes.ite
    | apply Changes.after (State.setCmd_changes ..)
    | apply Changes.after (State.setQueue_changes ..)
    | apply Changes.after (State.done_changes ..)
    | apply Changes.after (State.malformed_changes ..)
    | apply Changes.after (State.reapQueue_changes ..)
    | intro _)

theorem State.doCtxCreate_changes (s : State) (q : Nat) (c : Cmd) :
    Changes 0x22050e3f1d00 s (State.doCtxCreate s q c) := by
  unfold State.doCtxCreate
  repeat' (with_reducible first
    | exact Changes.refl _ _
    | (show Nat.lor _ _ = _; decide)
    | apply Changes.ite
    | apply Changes.after (State.cmdFail_changes ..)
    | apply Changes.after (State.makeLive_changes ..)
    | apply Changes.after (State.done_changes ..)
    | apply Changes.after (State.malformed_changes ..)
    | intro _
    | split
    | dsimp only)

theorem State.doCtxDestroy_changes (s : State) (q : Nat) (c : Cmd) :
    Changes 0x2601ee7f9d00 s (State.doCtxDestroy s q c) := by
  unfold State.doCtxDestroy
  repeat' (with_reducible first
    | exact Changes.refl _ _
    | (show Nat.lor _ _ = _; decide)
    | apply Changes.after (State.endCtx_changes ..)
    | apply Changes.after (State.done_changes ..)
    | apply Changes.after (State.malformed_changes ..)
    | split)

theorem State.doSyncSig_changes (s : State) (q : Nat) (c : Cmd) :
    Changes 0x100151400 s (State.doSyncSig s q c) := by
  unfold State.doSyncSig
  repeat' (with_reducible first
    | exact Changes.refl _ _
    | (show Nat.lor _ _ = _; decide)
    | apply Changes.after (State.done_changes ..)
    | apply Changes.after (State.malformed_changes ..)
    | apply Changes.after (State.signal_changes ..)
    | split)

theorem State.arm_changes (s : State) (slot idx : Nat) (e : SchedEnt) :
    Changes 0x10020000000 s (State.arm s slot idx e) := by
  unfold State.arm
  repeat' (with_reducible first
    | exact Changes.refl _ _
    | (show Nat.lor _ _ = _; decide)
    | apply Changes.ite
    | apply Changes.after (State.setSched_changes ..)
    | apply Changes.after (State.setFw_changes ..)
    | intro _)

theorem State.doSched_changes (s : State) (q : Nat) (k : Cmd) :
    Changes 0x10120011400 s (State.doSched s q k) := by
  unfold State.doSched
  repeat' (with_reducible first
    | exact Changes.refl _ _
    | (show Nat.lor _ _ = _; decide)
    | apply Changes.ite
    | apply Changes.after (State.setSched_changes ..)
    | apply Changes.after (State.arm_changes ..)
    | apply Changes.after (State.done_changes ..)
    | apply Changes.after (State.malformed_changes ..)
    | apply Changes.after (State.setFw_changes ..)
    | intro _
    | split
    | dsimp only)

/-- The answer's line changes what the answer changed, beside the completion (R244). -/
theorem State.kvAnswer_changes {m : Nat} (s : State) (q : Nat) (k : Cmd) (c : Ctx) (a : Except Fail KvAns)
    (ha : okAll (KvAns.all (Changes m s)) a) (hm : Nat.lor 0x500011400 m = m := by decide) : Changes m s (s.kvAnswer q k c a) := by
  unfold State.kvAnswer
  split
  · next t => cases ha.get rfl with | done h => exact h.andThen (State.done_changes ..) (Changes.mask_trans (by decide) hm)
  · next t code => cases ha.get rfl with | parked h => exact h.andThen (State.complete_changes ..) (Changes.mask_trans (by decide) hm)
  · exact (State.malformed_changes ..).widen (Changes.mask_trans (by decide) hm)
  · exact (State.cmdFail_changes ..).widen (Changes.mask_trans (by decide) hm)

theorem State.doPageReq_changes (s : State) (q : Nat) (k : Cmd) :
    Changes 0xa00700011400 s (State.doPageReq s q k) := by
  unfold State.doPageReq
  repeat' (with_reducible first
    | apply State.kvAnswer_changes
    | refine okAll.mono (State.kvOpen_changes ..) (fun _ _ h => h.mono fun _ h => h.widen)
    | refine okAll.mono (State.kvFork_changes ..) (fun _ _ h => h.mono fun _ h => h.widen)
    | refine okAll.mono (State.kvSeal_changes ..) (fun _ _ h => h.mono fun _ h => h.widen)
    | refine okAll.mono (State.kvGrow_changes ..) (fun _ _ h => h.mono fun _ h => h.widen)
    | refine okAll.mono (State.kvTrim_changes ..) (fun _ _ h => h.mono fun _ h => h.widen)
    | refine okAll.mono (State.kvFree_changes ..) (fun _ _ h => h.mono fun _ h => h.widen)
    | refine okAll.mono (State.kvResume_changes ..) (fun _ _ h => h.mono fun _ h => h.widen)
    | refine okAll.mono (State.kvSwapin_changes ..) (fun _ _ h => h.mono fun _ h => h.widen)
    | exact Changes.refl _ _
    | (show Nat.lor _ _ = _; decide)
    | apply Changes.ite
    | apply Changes.after (State.cmdFail_changes ..)
    | apply Changes.after (State.malformed_changes ..)
    | intro _
    | split
    | dsimp only)

theorem State.billetScramble_changes (s : State) (c : Cmd) :
    Changes 0x200100000000 s (State.billetScramble s c) := by
  unfold State.billetScramble
  repeat' (with_reducible first
    | exact Changes.refl _ _
    | (show Nat.lor _ _ = _; decide)
    | apply Changes.after (State.scramble_changes ..)
    | split
    | dsimp only)

theorem State.restoreScramble_changes (s : State) (q : Nat) (c : Cmd) :
    Changes 0x200100000000 s (State.restoreScramble s q c) := by
  unfold State.restoreScramble
  repeat' (with_reducible first
    | exact Changes.refl _ _
    | (show Nat.lor _ _ = _; decide)
    | apply Changes.ite
    | apply Changes.after (State.scramble_changes ..)
    | apply Changes.foldl
    | intro _
    | split)

theorem State.abortTarget_changes (s : State) (q : Nat) (c : Cmd) :
    Changes 0x210100011400 s (State.abortTarget s q c) := by
  unfold State.abortTarget
  repeat' (with_reducible first
    | exact Changes.refl _ _
    | (show Nat.lor _ _ = _; decide)
    | apply Changes.ite
    | apply Changes.after (State.setQueue_changes ..)
    | apply Changes.after (State.dropStage_changes ..)
    | apply Changes.after (State.billetScramble_changes ..)
    | apply Changes.after (State.complete_changes ..)
    | apply Changes.after (State.restoreScramble_changes ..)
    | intro _)

theorem State.doAbort_changes (s : State) (q : Nat) (k : Cmd) :
    Changes 0xe70799d71500 s (State.doAbort s q k) := by
  unfold State.doAbort
  repeat' (with_reducible first
    | exact Changes.refl _ _
    | (show Nat.lor _ _ = _; decide)
    | apply Changes.ite
    | apply Changes.after (State.setCmd_changes ..)
    | apply Changes.after (State.abortStep_changes ..)
    | apply Changes.after (State.setStep_changes ..)
    | apply Changes.after (State.complete_changes ..)
    | apply Changes.after (State.done_changes ..)
    | apply Changes.after (State.malformed_changes ..)
    | apply Changes.after (State.abortTarget_changes ..)
    | intro _
    | split)

theorem State.serveImm_changes (s : State) (q : Nat) (c : Cmd) :
    Changes 0xe707ffffbd00 s (State.serveImm s q c) := by
  unfold State.serveImm
  repeat' (with_reducible first
    | exact Changes.refl _ _
    | (show Nat.lor _ _ = _; decide)
    | apply Changes.ite
    | apply Changes.after (State.doPageReq_changes ..)
    | apply Changes.after (State.doSyncSig_changes ..)
    | apply Changes.after (State.doCtxCreate_changes ..)
    | apply Changes.after (State.doQcreate_changes ..)
    | apply Changes.after (State.doCtxDestroy_changes ..)
    | apply Changes.after (State.done_changes ..)
    | apply Changes.after (State.malformed_changes ..)
    | apply Changes.after (State.doQdestroy_changes ..)
    | apply Changes.after (State.doSched_changes ..)
    | apply Changes.after (State.doAbort_changes ..)
    | intro _
    | split)

theorem State.serveNext_changes (s : State) (q slot : Nat) (f : List Byte → Bool) :
    Changes 0xe707ffffbd00 s (State.serveNext s q slot f) := by
  unfold State.serveNext
  repeat' (with_reducible first
    | exact Changes.refl _ _
    | (show Nat.lor _ _ = _; decide)
    | apply Changes.ite
    | apply Changes.after (State.serveImm_changes ..)
    | intro _
    | split)

theorem State.startStep_changes (s : State) (ctx : Nat) (c : Ctx) (q slot : Nat) (r : StepRec) :
    Changes 0xf787fdffb500 s (State.startStep s ctx c q slot r) := by
  unfold State.startStep
  repeat' (with_reducible first
    | exact Changes.refl _ _
    | (show Nat.lor _ _ = _; decide)
    | apply Changes.ite
    | apply Changes.after (State.setCmd_changes ..)
    | apply Changes.after (State.moveBeat_changes ..)
    | apply Changes.after (State.clearOverrides_changes ..)
    | apply Changes.after (State.serviceError_changes ..)
    | apply Changes.after (State.idleRaise_changes ..)
    | apply Changes.after (State.setCtx_changes ..)
    | apply Changes.after (State.tryBegin_changes ..)
    | intro _
    | (have hh := okAll.get (State.clearHalf_changes ..) ‹_ = Except.ok _›; apply Changes.after hh; clear hh)
    | split)

theorem execNopCommand_changes (q slot : Nat) (s : State) :
    nextAll (Changes 0xe707ffffbd00 s) (execNopCommand q slot s) := by
  unfold execNopCommand
  repeat' (with_reducible first
    | exact Changes.refl _ _
    | (show Nat.lor _ _ = _; decide)
    | apply nextAll.next
    | apply Changes.after (State.serveNext_changes ..))

theorem execQcreate_changes (q slot : Nat) (s : State) :
    nextAll (Changes 0xe707ffffbd00 s) (execQcreate q slot s) := by
  unfold execQcreate
  repeat' (with_reducible first
    | exact Changes.refl _ _
    | (show Nat.lor _ _ = _; decide)
    | apply nextAll.next
    | apply Changes.after (State.serveNext_changes ..))

theorem execQdestroy_changes (q slot : Nat) (s : State) :
    nextAll (Changes 0xe707ffffbd00 s) (execQdestroy q slot s) := by
  unfold execQdestroy
  repeat' (with_reducible first
    | exact Changes.refl _ _
    | (show Nat.lor _ _ = _; decide)
    | apply nextAll.next
    | apply Changes.after (State.serveNext_changes ..))

theorem execCtxCreate_changes (q slot : Nat) (s : State) :
    nextAll (Changes 0xe707ffffbd00 s) (execCtxCreate q slot s) := by
  unfold execCtxCreate
  repeat' (with_reducible first
    | exact Changes.refl _ _
    | (show Nat.lor _ _ = _; decide)
    | apply nextAll.next
    | apply Changes.after (State.serveNext_changes ..))

theorem execCtxDestroy_changes (q slot : Nat) (s : State) :
    nextAll (Changes 0xe707ffffbd00 s) (execCtxDestroy q slot s) := by
  unfold execCtxDestroy
  repeat' (with_reducible first
    | exact Changes.refl _ _
    | (show Nat.lor _ _ = _; decide)
    | apply nextAll.next
    | apply Changes.after (State.serveNext_changes ..))

theorem execAbortCommand_changes (q slot : Nat) (s : State) :
    nextAll (Changes 0xe707ffffbd00 s) (execAbortCommand q slot s) := by
  unfold execAbortCommand
  repeat' (with_reducible first
    | exact Changes.refl _ _
    | (show Nat.lor _ _ = _; decide)
    | apply nextAll.next
    | apply Changes.after (State.serveNext_changes ..))

theorem execSyncSig_changes (q slot : Nat) (s : State) :
    nextAll (Changes 0xe707ffffbd00 s) (execSyncSig q slot s) := by
  unfold execSyncSig
  repeat' (with_reducible first
    | exact Changes.refl _ _
    | (show Nat.lor _ _ = _; decide)
    | apply nextAll.next
    | apply Changes.after (State.serveNext_changes ..))

theorem execSchedCancel_changes (q slot : Nat) (s : State) :
    nextAll (Changes 0xe707ffffbd00 s) (execSchedCancel q slot s) := by
  unfold execSchedCancel
  repeat' (with_reducible first
    | exact Changes.refl _ _
    | (show Nat.lor _ _ = _; decide)
    | apply nextAll.next
    | apply Changes.after (State.serveNext_changes ..))

theorem execSchedCkptCopy_changes (q slot : Nat) (s : State) :
    nextAll (Changes 0xe707ffffbd00 s) (execSchedCkptCopy q slot s) := by
  unfold execSchedCkptCopy
  repeat' (with_reducible first
    | exact Changes.refl _ _
    | (show Nat.lor _ _ = _; decide)
    | apply nextAll.next
    | apply Changes.after (State.serveNext_changes ..))

theorem execSchedPrefetch_changes (q slot : Nat) (s : State) :
    nextAll (Changes 0xe707ffffbd00 s) (execSchedPrefetch q slot s) := by
  unfold execSchedPrefetch
  repeat' (with_reducible first
    | exact Changes.refl _ _
    | (show Nat.lor _ _ = _; decide)
    | apply nextAll.next
    | apply Changes.after (State.serveNext_changes ..))

theorem execSchedFreeze_changes (q slot : Nat) (s : State) :
    nextAll (Changes 0xe707ffffbd00 s) (execSchedFreeze q slot s) := by
  unfold execSchedFreeze
  repeat' (with_reducible first
    | exact Changes.refl _ _
    | (show Nat.lor _ _ = _; decide)
    | apply nextAll.next
    | apply Changes.after (State.serveNext_changes ..))

theorem execSchedFwActivate_changes (q slot : Nat) (s : State) :
    nextAll (Changes 0xe707ffffbd00 s) (execSchedFwActivate q slot s) := by
  unfold execSchedFwActivate
  repeat' (with_reducible first
    | exact Changes.refl _ _
    | (show Nat.lor _ _ = _; decide)
    | apply nextAll.next
    | apply Changes.after (State.serveNext_changes ..))

theorem execSchedSyncSignal_changes (q slot : Nat) (s : State) :
    nextAll (Changes 0xe707ffffbd00 s) (execSchedSyncSignal q slot s) := by
  unfold execSchedSyncSignal
  repeat' (with_reducible first
    | exact Changes.refl _ _
    | (show Nat.lor _ _ = _; decide)
    | apply nextAll.next
    | apply Changes.after (State.serveNext_changes ..))

theorem execPageReqOpen_changes (q slot : Nat) (s : State) :
    nextAll (Changes 0xe707ffffbd00 s) (execPageReqOpen q slot s) := by
  unfold execPageReqOpen
  repeat' (with_reducible first
    | exact Changes.refl _ _
    | (show Nat.lor _ _ = _; decide)
    | apply nextAll.next
    | apply Changes.after (State.serveNext_changes ..))

theorem execPageReqFork_changes (q slot : Nat) (s : State) :
    nextAll (Changes 0xe707ffffbd00 s) (execPageReqFork q slot s) := by
  unfold execPageReqFork
  repeat' (with_reducible first
    | exact Changes.refl _ _
    | (show Nat.lor _ _ = _; decide)
    | apply nextAll.next
    | apply Changes.after (State.serveNext_changes ..))

theorem execPageReqSeal_changes (q slot : Nat) (s : State) :
    nextAll (Changes 0xe707ffffbd00 s) (execPageReqSeal q slot s) := by
  unfold execPageReqSeal
  repeat' (with_reducible first
    | exact Changes.refl _ _
    | (show Nat.lor _ _ = _; decide)
    | apply nextAll.next
    | apply Changes.after (State.serveNext_changes ..))

theorem execPageReqGrow_changes (q slot : Nat) (s : State) :
    nextAll (Changes 0xe707ffffbd00 s) (execPageReqGrow q slot s) := by
  unfold execPageReqGrow
  repeat' (with_reducible first
    | exact Changes.refl _ _
    | (show Nat.lor _ _ = _; decide)
    | apply nextAll.next
    | apply Changes.after (State.serveNext_changes ..))

theorem execPageReqTrim_changes (q slot : Nat) (s : State) :
    nextAll (Changes 0xe707ffffbd00 s) (execPageReqTrim q slot s) := by
  unfold execPageReqTrim
  repeat' (with_reducible first
    | exact Changes.refl _ _
    | (show Nat.lor _ _ = _; decide)
    | apply nextAll.next
    | apply Changes.after (State.serveNext_changes ..))

theorem execPageReqFree_changes (q slot : Nat) (s : State) :
    nextAll (Changes 0xe707ffffbd00 s) (execPageReqFree q slot s) := by
  unfold execPageReqFree
  repeat' (with_reducible first
    | exact Changes.refl _ _
    | (show Nat.lor _ _ = _; decide)
    | apply nextAll.next
    | apply Changes.after (State.serveNext_changes ..))

theorem execPageReqResume_changes (q slot : Nat) (s : State) :
    nextAll (Changes 0xe707ffffbd00 s) (execPageReqResume q slot s) := by
  unfold execPageReqResume
  repeat' (with_reducible first
    | exact Changes.refl _ _
    | (show Nat.lor _ _ = _; decide)
    | apply nextAll.next
    | apply Changes.after (State.serveNext_changes ..))

theorem execPageReqSwapin_changes (q slot : Nat) (s : State) :
    nextAll (Changes 0xe707ffffbd00 s) (execPageReqSwapin q slot s) := by
  unfold execPageReqSwapin
  repeat' (with_reducible first
    | exact Changes.refl _ _
    | (show Nat.lor _ _ = _; decide)
    | apply nextAll.next
    | apply Changes.after (State.serveNext_changes ..))

theorem execStepCommand_changes (q slot : Nat) (s : State) :
    nextAll (Changes 0xf787fdffb500 s) (execStepCommand q slot s) := by
  unfold execStepCommand
  repeat' (with_reducible first
    | exact Changes.refl _ _
    | (show Nat.lor _ _ = _; decide)
    | apply nextAll.next
    | apply nextAll.ite
    | apply Changes.after (State.cmdFail_changes ..)
    | apply Changes.after (State.malformed_changes ..)
    | apply Changes.after (State.startStep_changes ..)
    | intro _
    | split)

end Sys2Proof.Machine
end

