-- ==== Sys2Proof/Laws/Billet.lean ====
section
/-! SUPPORT. What each operation of Machine/Billet.lean may change (the masks number the fields of State in order). -/

set_option Elab.async false

namespace Sys2Proof.Machine

theorem State.doSave_changes (s : State) (q : Nat) (k : Cmd) :
    Changes 0x800700011400 s (State.doSave s q k) := by
  unfold State.doSave
  repeat' (with_reducible first
    | exact Changes.refl _ _
    | (show Nat.lor _ _ = _; decide)
    | apply Changes.ite
    | apply Changes.after (State.setCmd_changes ..)
    | apply Changes.after (State.cmdFail_changes ..)
    | apply Changes.after (State.done_changes ..)
    | apply Changes.after (State.malformed_changes ..)
    | apply okAll.mono (State.write_changes ..)
    | apply okAll.bindT
    | intro _
    | apply Changes.after ‹Changes _ _ _›
    | (have hh := okAll.get (State.write_changes ..) ‹_ = Except.ok _›; apply Changes.after hh; clear hh)
    | split
    | dsimp only
    | refine okAll.get (P := Changes 0x800700011400 s) ?_ ‹_ = Except.ok _›)

theorem State.putPiece_changes (s : State) (c : Ctx) (img : List Byte) (p : Option (Nat × Nat × Nat)) :
    okAll (Changes 0x800700000000 s) (State.putPiece s c img p) := by
  unfold State.putPiece
  repeat' (with_reducible first
    | exact Changes.refl _ _
    | assumption
    | apply okAll.ok
    | apply okAll.mono (State.write_changes ..)
    | intro _
    | split)

theorem State.putSync_changes (s : State) (c : Ctx) (img : List Byte) (p : ImgParts) :
    Changes 0xc0000 s (State.putSync s c img p) := by
  unfold State.putSync
  repeat' (with_reducible first
    | exact Changes.refl _ _
    | (show Nat.lor _ _ = _; decide)
    | apply Changes.foldl
    | intro _
    | ((fail_if_success (apply Changes.after (Changes.set_snapQ _ _))); apply Changes.after (Changes.set_psync_psnap _ _ _)))

theorem State.putLocal_changes (s : State) (c : Ctx) (img : List Byte) (p : ImgParts) :
    Changes 0x300000 s (State.putLocal s c img p) := by
  unfold State.putLocal
  repeat' (with_reducible first
    | exact Changes.refl _ _
    | (show Nat.lor _ _ = _; decide)
    | apply Changes.foldl
    | intro _
    | split
    | ((fail_if_success (apply Changes.after (Changes.set_snapQ _ _))); apply Changes.after (Changes.set_lsync_lsnap _ _ _)))

theorem State.putCores_changes (s : State) (c : Ctx) (img : List Byte) (p : ImgParts) :
    Changes 0x400000 s (State.putCores s c img p) := by
  unfold State.putCores
  repeat' (with_reducible first
    | exact Changes.refl _ _
    | (show Nat.lor _ _ = _; decide)
    | apply Changes.after (State.setCore_changes ..)
    | apply Changes.foldl
    | intro _
    | split
    | dsimp only)

theorem State.putLanes_changes (s : State) (c : Ctx) (img : List Byte) (p : ImgParts) :
    Changes 0x6000000 s (State.putLanes s c img p) := by
  unfold State.putLanes
  repeat' (with_reducible first
    | exact Changes.refl _ _
    | (show Nat.lor _ _ = _; decide)
    | apply Changes.foldl
    | intro _
    | split
    | ((fail_if_success (apply Changes.after (Changes.set_snapQ _ _))); apply Changes.after (Changes.set_lanes_shadows _ _ _)))

theorem State.restoreBeat_changes (s : State) (slot : Nat) (b : Beat) :
    Changes 0xb787747fb400 s (State.restoreBeat s slot b) := by
  unfold State.restoreBeat
  repeat' (with_reducible first
    | exact Changes.refl _ _
    | (show Nat.lor _ _ = _; decide)
    | apply Changes.ite
    | apply Changes.after (State.moveBeat_changes ..)
    | apply Changes.after (State.setBeat_changes ..)
    | apply Changes.after (State.setFw_changes ..)
    | intro _
    | ((fail_if_success (apply Changes.after (Changes.set_snapQ _ _))); apply Changes.after (Changes.set_sched _ _)))

theorem State.restoreLive_changes (s : State) (q : Nat) (k : Cmd) (id : Nat) (x : Ctx) (img : List Byte) :
    Changes 0xb7877e7fbd00 s (State.restoreLive s q k id x img) := by
  unfold State.restoreLive
  repeat' (with_reducible first
    | exact Changes.refl _ _
    | (show Nat.lor _ _ = _; decide)
    | apply Changes.ite
    | apply Changes.after (State.putSync_changes ..)
    | apply Changes.after (State.putLocal_changes ..)
    | apply Changes.after (State.complete_changes ..)
    | apply Changes.after (State.restoreBeat_changes ..)
    | apply Changes.after (State.putLanes_changes ..)
    | apply Changes.after (State.putCores_changes ..)
    | apply Changes.after (State.makeLive_changes ..)
    | apply Changes.after (State.count_changes ..)
    | apply Changes.foldl
    | intro _)

theorem State.restoreRun_changes (s : State) (q : Nat) (k : Cmd) (id : Nat) (c : Ctx) (img : List Byte) :
    Changes 0xb7877e7fbd00 s (State.restoreRun s q k id c img) := by
  unfold State.restoreRun
  repeat' (with_reducible first
    | exact Changes.refl _ _
    | (show Nat.lor _ _ = _; decide)
    | apply Changes.ite
    | apply Changes.after (State.setCmd_changes ..)
    | apply Changes.after (State.restoreLive_changes ..)
    | apply Changes.after (State.cmdFail_changes ..)
    | apply Changes.after (State.scramble_changes ..)
    | apply Changes.foldl
    | intro _
    | (have hh := okAll.get (State.putPiece_changes ..) ‹_ = Except.ok _›; apply Changes.after hh; clear hh)
    | split
    | dsimp only)

theorem State.doRestore_changes (s : State) (q : Nat) (k : Cmd) :
    Changes 0xb7877e7fbd00 s (State.doRestore s q k) := by
  unfold State.doRestore
  repeat' (with_reducible first
    | exact Changes.refl _ _
    | (show Nat.lor _ _ = _; decide)
    | apply Changes.ite
    | apply Changes.after (State.cmdFail_changes ..)
    | apply Changes.after (State.failCmd_changes ..)
    | apply Changes.after (State.restoreRun_changes ..)
    | apply Changes.after (State.malformed_changes ..)
    | intro _
    | split
    | dsimp only)

theorem State.copyPiece_changes (s : State) (w : Who) (src dst len pos : Nat) :
    okAll (fun p => Changes 0xa00700011400 s p.1) (State.copyPiece s w src dst len pos) := by
  unfold State.copyPiece
  repeat' (with_reducible first
    | exact Changes.refl _ _
    | (show Nat.lor _ _ = _; decide)
    | apply okAll.pure
    | apply Changes.after (State.count_changes ..)
    | apply Changes.after (State.nearMoved_changes ..)
    | apply okAll.bind (State.write_changes ..)
    | apply okAll.bindT
    | intro _
    | apply Changes.after ‹Changes _ _ _›
    | split)

theorem State.doCopy_changes (s : State) (q : Nat) (k : Cmd) :
    Changes 0xa00700011400 s (State.doCopy s q k) := by
  unfold State.doCopy
  repeat' (with_reducible first
    | exact Changes.refl _ _
    | (show Nat.lor _ _ = _; decide)
    | apply Changes.ite
    | apply Changes.after (State.setCmd_changes ..)
    | apply Changes.after (State.cmdFail_changes ..)
    | apply Changes.after (State.scramble_changes ..)
    | apply Changes.after (State.done_changes ..)
    | apply Changes.after (State.malformed_changes ..)
    | intro _
    | (have hh := okAll.get (State.copyPiece_changes ..) ‹_ = Except.ok _›; apply Changes.after hh; clear hh)
    | split)

theorem State.doFired_changes (s : State) (i : Nat) (f : FiredCopy) :
    Changes 0xa00700019400 s (State.doFired s i f) := by
  unfold State.doFired
  repeat' (with_reducible first
    | exact Changes.refl _ _
    | (show Nat.lor _ _ = _; decide)
    | apply Changes.ite
    | apply Changes.after (State.memFail_changes ..)
    | apply Changes.after (State.scramble_changes ..)
    | apply Changes.after (State.beatEvent_changes ..)
    | intro _
    | cases ‹Except.ok _ = Except.ok _›
    | (have hh := okAll.get (State.copyPiece_changes ..) ‹_ = Except.ok _›; apply Changes.after hh; clear hh)
    | split
    | dsimp only
    | ((fail_if_success (apply Changes.after (Changes.set_snapQ _ _))); apply Changes.after (Changes.set_copies _ _)))

theorem State.scrubCord_changes (s : State) (kind k : Nat) :
    Changes 0x800100011400 s (State.scrubCord s kind k).1 := by
  unfold State.scrubCord
  repeat' (with_reducible first
    | exact Changes.refl _ _
    | (show Nat.lor _ _ = _; decide)
    | apply Changes.after (State.ueFound_changes ..)
    | apply Changes.after (State.corrected_changes ..)
    | apply Changes.after (State.count_changes ..)
    | apply Changes.foldl
    | intro _)

theorem State.doScrub_changes (s : State) (q : Nat) (k : Cmd) :
    Changes 0x800100011400 s (State.doScrub s q k) := by
  unfold State.doScrub
  repeat' (with_reducible first
    | exact Changes.refl _ _
    | (show Nat.lor _ _ = _; decide)
    | apply Changes.ite
    | apply Changes.after (State.setCmd_changes ..)
    | apply Changes.after (State.failCmd_changes ..)
    | apply Changes.after (State.scrubCord_changes ..)
    | apply Changes.after (State.done_changes ..)
    | apply Changes.after (State.malformed_changes ..)
    | intro _
    | split)

theorem State.movePage_changes (s : State) (c : Ctx) (q : Seqt) (r : SeqRec) (lh i : Nat) :
    okAll (fun p => Changes 0x800700011400 s p.1) (State.movePage s c q r lh i) := by
  unfold State.movePage
  repeat' (with_reducible first
    | (have hh := someAll.get ‹someAll _ (some _)› rfl; apply Changes.after hh; clear hh)
    | exact Changes.refl _ _
    | (show Nat.lor _ _ = _; decide)
    | apply okAll.pure
    | apply okAll.ite
    | apply okAll.bind (State.write_changes ..)
    | apply okAll.bind (State.putMeta_changes ..)
    | apply okAll.bind (State.putVal_changes ..)
    | apply okAll.bind (State.dropRef_changes ..)
    | apply okAll.bind (State.allocPage_changes ..)
    | apply okAll.bindT
    | intro _
    | apply Changes.after ‹Changes _ _ _›
    | split)

theorem State.compactSlot_changes (s : State) (c : Ctx) (q : Seqt) (slot : Nat) :
    okAll (fun p => Changes 0xa00700011400 s p.1) (State.compactSlot s c q slot) := by
  unfold State.compactSlot
  repeat' (with_reducible first
    | exact Changes.refl _ _
    | assumption
    | (show Nat.lor _ _ = _; decide)
    | apply okAll.pure
    | apply okAll.ite
    | apply okAll.bind (State.movePage_changes ..)
    | apply okAll.bindT
    | apply okAll.foldlM
    | intro _
    | apply Changes.after ‹Changes _ _ _›
    | dsimp only
    | ((fail_if_success (apply Changes.after (Changes.set_snapQ _ _))); apply Changes.after (Changes.set_fresh _ _ (Nat.le_add_right _ _))))

theorem State.doCompact_changes (s : State) (q : Nat) (k : Cmd) :
    Changes 0xa00700011400 s (State.doCompact s q k) := by
  unfold State.doCompact
  repeat' (with_reducible first
    | exact Changes.refl _ _
    | (show Nat.lor _ _ = _; decide)
    | apply Changes.ite
    | apply Changes.after (State.setCmd_changes ..)
    | apply Changes.after (State.cmdFail_changes ..)
    | apply Changes.after (State.done_changes ..)
    | apply Changes.after (State.malformed_changes ..)
    | intro _
    | (have hh := okAll.get (State.compactSlot_changes ..) ‹_ = Except.ok _›; apply Changes.after hh; clear hh)
    | split)

theorem State.doRefresh_changes (s : State) (q : Nat) (k : Cmd) :
    Changes 0x800700011400 s (State.doRefresh s q k) := by
  unfold State.doRefresh
  repeat' (with_reducible first
    | exact Changes.refl _ _
    | (show Nat.lor _ _ = _; decide)
    | apply Changes.ite
    | apply Changes.after (State.setCmd_changes ..)
    | apply Changes.after (State.cmdFail_changes ..)
    | apply Changes.after (State.done_changes ..)
    | apply Changes.after (State.malformed_changes ..)
    | intro _
    | (have hh := okAll.get (State.refreshList_changes ..) ‹_ = Except.ok _›; apply Changes.after hh; clear hh)
    | split
    | dsimp only)

theorem State.doRebuild_changes (s : State) (q : Nat) (k : Cmd) :
    Changes 0x100011c04 s (State.doRebuild s q k) := by
  unfold State.doRebuild
  repeat' (with_reducible first
    | exact Changes.refl _ _
    | (show Nat.lor _ _ = _; decide)
    | apply Changes.ite
    | apply Changes.after (State.done_changes ..)
    | intro _
    | ((fail_if_success (apply Changes.after (Changes.set_snapQ _ _))); apply Changes.after (Changes.set_ownBad _ _))
    | ((fail_if_success (apply Changes.after (Changes.set_snapQ _ _))); apply Changes.after (Changes.set_shadow _ _)))

theorem State.stagePut_changes (s : State) (off : Nat) (b : List Byte) :
    Changes 0x10000000000 s (State.stagePut s off b) := by
  unfold State.stagePut
  repeat' (with_reducible first
    | exact Changes.refl _ _
    | (show Nat.lor _ _ = _; decide)
    | apply Changes.after (State.setFw_changes ..))

theorem State.doStage_changes (s : State) (q : Nat) (k : Cmd) :
    Changes 0x318500011400 s (State.doStage s q k) := by
  unfold State.doStage
  repeat' (with_reducible first
    | exact Changes.refl _ _
    | (show Nat.lor _ _ = _; decide)
    | apply Changes.ite
    | apply Changes.after (State.stageBlock_changes ..)
    | apply Changes.after (State.setCmd_changes ..)
    | apply Changes.after (State.stagePut_changes ..)
    | apply Changes.after (State.dropStage_changes ..)
    | apply Changes.after (State.cmdFail_changes ..)
    | apply Changes.after (State.complete_changes ..)
    | apply Changes.after (State.failCmd_changes ..)
    | apply Changes.after (State.beginStage_changes ..)
    | apply Changes.after (State.done_changes ..)
    | apply Changes.after (State.malformed_changes ..)
    | apply Changes.after (State.stageFail_changes ..)
    | intro _
    | split
    | dsimp only)

theorem State.runCmdBillet_changes (s : State) (q : Nat) (c : Cmd) :
    Changes 0xb7877e7fbd04 s (State.runCmdBillet s q c) := by
  unfold State.runCmdBillet
  repeat' (with_reducible first
    | exact Changes.refl _ _
    | (show Nat.lor _ _ = _; decide)
    | apply Changes.ite
    | apply Changes.after (State.doScrub_changes ..)
    | apply Changes.after (State.doCompact_changes ..)
    | apply Changes.after (State.doCopy_changes ..)
    | apply Changes.after (State.doRestore_changes ..)
    | apply Changes.after (State.doStage_changes ..)
    | apply Changes.after (State.doSave_changes ..)
    | apply Changes.after (State.doRebuild_changes ..)
    | apply Changes.after (State.malformed_changes ..)
    | apply Changes.after (State.doRefresh_changes ..)
    | intro _
    | split)

theorem State.runBillet_changes (s : State) (b : Billet) :
    Changes 0xb7877e7ffd04 s (State.runBillet s b) := by
  unfold State.runBillet
  repeat' (with_reducible first
    | exact Changes.refl _ _
    | (show Nat.lor _ _ = _; decide)
    | apply Changes.after (State.doFired_changes ..)
    | apply Changes.after (State.runCmdBillet_changes ..)
    | split
    | ((fail_if_success (apply Changes.after (Changes.set_snapQ _ _))); apply Changes.after (Changes.set_rr _ _)))

theorem State.billetOf_changes (s : State) (q slot : Nat) (f : List Byte → Bool) :
    Changes 0xb7877e7ffd04 s (State.billetOf s q slot f) := by
  unfold State.billetOf
  repeat' (with_reducible first
    | exact Changes.refl _ _
    | (show Nat.lor _ _ = _; decide)
    | apply Changes.ite
    | apply Changes.after (State.runBillet_changes ..)
    | intro _
    | split)

theorem State.serveAll_changes (n : Nat) (s : State) : Changes 0xe707ffffbd00 s (State.serveAll n s) := by
  induction n generalizing s with
  | zero => exact Changes.refl _ _
  | succ n ih =>
    unfold State.serveAll
    split
    · exact (State.serveImm_changes ..).andThen (ih _)
    · exact Changes.refl _ _

theorem execCtxSave_changes (q slot : Nat) (s : State) :
    nextAll (Changes 0xb7877e7ffd04 s) (execCtxSave q slot s) := by
  unfold execCtxSave
  repeat' (with_reducible first
    | exact Changes.refl _ _
    | (show Nat.lor _ _ = _; decide)
    | apply nextAll.next
    | apply Changes.after (State.billetOf_changes ..))

theorem execCtxRestore_changes (q slot : Nat) (s : State) :
    nextAll (Changes 0xb7877e7ffd04 s) (execCtxRestore q slot s) := by
  unfold execCtxRestore
  repeat' (with_reducible first
    | exact Changes.refl _ _
    | (show Nat.lor _ _ = _; decide)
    | apply nextAll.next
    | apply Changes.after (State.billetOf_changes ..))

theorem execCkptCopy_changes (q slot : Nat) (s : State) :
    nextAll (Changes 0xb7877e7ffd04 s) (execCkptCopy q slot s) := by
  unfold execCkptCopy
  repeat' (with_reducible first
    | exact Changes.refl _ _
    | (show Nat.lor _ _ = _; decide)
    | apply nextAll.next
    | apply Changes.after (State.billetOf_changes ..))

theorem execScrub_changes (q slot : Nat) (s : State) :
    nextAll (Changes 0xb7877e7ffd04 s) (execScrub q slot s) := by
  unfold execScrub
  repeat' (with_reducible first
    | exact Changes.refl _ _
    | (show Nat.lor _ _ = _; decide)
    | apply nextAll.next
    | apply Changes.after (State.billetOf_changes ..))

theorem execPoolCompact_changes (q slot : Nat) (s : State) :
    nextAll (Changes 0xb7877e7ffd04 s) (execPoolCompact q slot s) := by
  unfold execPoolCompact
  repeat' (with_reducible first
    | exact Changes.refl _ _
    | (show Nat.lor _ _ = _; decide)
    | apply nextAll.next
    | apply Changes.after (State.billetOf_changes ..))

theorem execPageRefresh_changes (q slot : Nat) (s : State) :
    nextAll (Changes 0xb7877e7ffd04 s) (execPageRefresh q slot s) := by
  unfold execPageRefresh
  repeat' (with_reducible first
    | exact Changes.refl _ _
    | (show Nat.lor _ _ = _; decide)
    | apply nextAll.next
    | apply Changes.after (State.billetOf_changes ..))

theorem execTableRebuildOwnership_changes (q slot : Nat) (s : State) :
    nextAll (Changes 0xb7877e7ffd04 s) (execTableRebuildOwnership q slot s) := by
  unfold execTableRebuildOwnership
  repeat' (with_reducible first
    | exact Changes.refl _ _
    | (show Nat.lor _ _ = _; decide)
    | apply nextAll.next
    | apply Changes.after (State.billetOf_changes ..))

theorem execTableRebuildFuses_changes (q slot : Nat) (s : State) :
    nextAll (Changes 0xb7877e7ffd04 s) (execTableRebuildFuses q slot s) := by
  unfold execTableRebuildFuses
  repeat' (with_reducible first
    | exact Changes.refl _ _
    | (show Nat.lor _ _ = _; decide)
    | apply nextAll.next
    | apply Changes.after (State.billetOf_changes ..))

theorem execFwStage_changes (q slot : Nat) (s : State) :
    nextAll (Changes 0xb7877e7ffd04 s) (execFwStage q slot s) := by
  unfold execFwStage
  repeat' (with_reducible first
    | exact Changes.refl _ _
    | (show Nat.lor _ _ = _; decide)
    | apply nextAll.next
    | apply Changes.after (State.billetOf_changes ..))

theorem execBilletEnd_changes (s : State) :
    nextAll (Changes 0xf787fffffd04 s) (execBilletEnd s) := by
  unfold execBilletEnd
  repeat' (with_reducible first
    | exact Changes.refl _ _
    | (show Nat.lor _ _ = _; decide)
    | apply nextAll.next
    | apply nextAll.ite
    | apply Changes.after (State.serveAll_changes ..)
    | apply Changes.after (State.runBillet_changes ..)
    | intro _
    | split
    | dsimp only)

end Sys2Proof.Machine
end

