-- ==== Sys2Proof/Laws/Links.lean ====
section
/-! SUPPORT. What each operation of Machine/Links.lean may change (the masks number the fields of State in order). -/

set_option Elab.async false

namespace Sys2Proof.Machine

theorem State.portTo_changes (s : State) (p : Nat) (x : Port) :
    Changes 0x221100011400 s (State.portTo s p x) := by
  unfold State.portTo
  repeat' (with_reducible first
    | exact Changes.refl _ _
    | (show Nat.lor _ _ = _; decide)
    | apply Changes.ite
    | apply Changes.after (State.setPort_changes ..)
    | apply Changes.after (State.trace_changes ..)
    | intro _)

theorem State.portStart_changes (s : State) (p : Nat) :
    Changes 0x221100011400 s (State.portStart s p) := by
  unfold State.portStart
  repeat' (with_reducible first
    | exact Changes.refl _ _
    | (show Nat.lor _ _ = _; decide)
    | apply Changes.ite
    | apply Changes.after (State.portTo_changes ..)
    | intro _)

theorem State.failPkgsums_changes (s : State) (p : Nat) :
    Changes 0x800000 s (State.failPkgsums s p) := by
  unfold State.failPkgsums
  repeat' (with_reducible first
    | exact Changes.refl _ _
    | (show Nat.lor _ _ = _; decide)
    | apply Changes.ite
    | apply Changes.after (State.endEntry_changes ..)
    | apply Changes.foldl
    | intro _
    | split)

theorem State.breakTree_changes (s : State) (p : Nat) :
    Changes 0xf60799c31500 s (State.breakTree s p) := by
  unfold State.breakTree
  repeat' (with_reducible first
    | exact Changes.refl _ _
    | (show Nat.lor _ _ = _; decide)
    | apply Changes.ite
    | apply Changes.after (State.attemptError_changes ..)
    | apply Changes.after (State.failStep_changes ..)
    | intro _
    | split)

theorem State.portLost_changes (s : State) (p : Nat) (st : Nat) :
    Changes 0xf61799c31500 s (State.portLost s p st) := by
  unfold State.portLost
  repeat' (with_reducible first
    | exact Changes.refl _ _
    | (show Nat.lor _ _ = _; decide)
    | apply Changes.ite
    | apply Changes.after (State.breakTree_changes ..)
    | apply Changes.after (State.failPkgsums_changes ..)
    | apply Changes.after (State.portTo_changes ..)
    | intro _)

theorem State.portDown_changes (s : State) (p : Nat) :
    Changes 0xf61799c31500 s (State.portDown s p) := by
  unfold State.portDown
  repeat' (with_reducible first
    | exact Changes.refl _ _
    | (show Nat.lor _ _ = _; decide)
    | apply Changes.after (State.linkEvent_changes ..)
    | apply Changes.after (State.portLost_changes ..))

theorem State.rereadLines_changes (s : State) :
    Changes 0x100013400 s (State.rereadLines s) := by
  unfold State.rereadLines
  repeat' (with_reducible first
    | exact Changes.refl _ _
    | (show Nat.lor _ _ = _; decide)
    | apply Changes.ite
    | apply Changes.after (State.pollAll_changes ..)
    | apply Changes.after (State.takeControl_changes ..)
    | apply Changes.foldl
    | intro _)

theorem State.reportAgain_changes (s : State) (p : Nat) :
    Changes 0xf787fdffb500 s (State.reportAgain s p) := by
  unfold State.reportAgain
  repeat' (with_reducible first
    | exact Changes.refl _ _
    | (show Nat.lor _ _ = _; decide)
    | apply Changes.ite
    | apply Changes.after (State.sendCommitReport_changes ..)
    | apply Changes.after (State.tryAdvance_changes ..)
    | intro _
    | split)

theorem State.resend_changes (s : State) (p : Nat) :
    Changes 0x301100011400 s (State.resend s p) := by
  unfold State.resend
  repeat' (with_reducible first
    | exact Changes.refl _ _
    | (show Nat.lor _ _ = _; decide)
    | apply Changes.ite
    | apply Changes.after (State.setPort_changes ..)
    | apply Changes.after (State.putFlit_changes ..)
    | apply Changes.after (State.count_changes ..)
    | apply Changes.foldl
    | intro _)

theorem State.portActive_changes (s : State) (p : Nat) (lat : BitVec 16) :
    Changes 0x321110013400 s (State.portActive s p lat) := by
  unfold State.portActive
  repeat' (with_reducible first
    | exact Changes.refl _ _
    | (show Nat.lor _ _ = _; decide)
    | apply Changes.ite
    | apply Changes.after (State.rereadLines_changes ..)
    | apply Changes.after (State.resend_changes ..)
    | apply Changes.after (State.flushHeld_changes ..)
    | apply Changes.after (State.reSource_changes ..)
    | apply Changes.after (State.portTo_changes ..)
    | apply Changes.after (State.linkEvent_changes ..)
    | intro _)

theorem State.portRetrain_changes (s : State) (p : Nat) :
    Changes 0x221100011400 s (State.portRetrain s p) := by
  unfold State.portRetrain
  repeat' (with_reducible first
    | exact Changes.refl _ _
    | (show Nat.lor _ _ = _; decide)
    | apply Changes.ite
    | apply Changes.after (State.count_changes ..)
    | apply Changes.after (State.portTo_changes ..)
    | intro _)

theorem State.takeAck_changes (s : State) (p : Nat) (ack : BitVec 12) :
    Changes 0xf797fdffb500 s (State.takeAck s p ack) := by
  unfold State.takeAck
  repeat' (with_reducible first
    | exact Changes.refl _ _
    | (show Nat.lor _ _ = _; decide)
    | apply Changes.ite
    | apply Changes.after (State.setPort_changes ..)
    | apply Changes.after (State.reportAgain_changes ..)
    | intro _)

theorem State.takeNak_changes (s : State) (p : Nat) (ack : BitVec 12) :
    Changes 0xf797fdffb500 s (State.takeNak s p ack) := by
  unfold State.takeNak
  repeat' (with_reducible first
    | exact Changes.refl _ _
    | (show Nat.lor _ _ = _; decide)
    | apply Changes.ite
    | apply Changes.after (State.takeAck_changes ..)
    | apply Changes.after (State.resend_changes ..)
    | apply Changes.after (State.portRetrain_changes ..)
    | intro _)

theorem State.discardFlit_changes (s : State) (p : Nat) :
    Changes 0x301100011400 s (State.discardFlit s p) := by
  unfold State.discardFlit
  repeat' (with_reducible first
    | exact Changes.refl _ _
    | (show Nat.lor _ _ = _; decide)
    | apply Changes.after (State.setPort_changes ..)
    | apply Changes.after (State.putFlit_changes ..)
    | apply Changes.after (State.count_changes ..))

theorem State.portEnable_changes (s : State) (p : Nat) :
    Changes 0xf61799c31500 s (State.portEnable s p) := by
  unfold State.portEnable
  repeat' (with_reducible first
    | exact Changes.refl _ _
    | (show Nat.lor _ _ = _; decide)
    | apply Changes.ite
    | apply Changes.after (State.portStart_changes ..)
    | apply Changes.after (State.portLost_changes ..)
    | intro _)

theorem execFlitReceive_changes (port : Nat) (flit : List Byte) (corrected : Bool) (s : State) :
    nextAll (Changes 0xf797fdffb500 s) (execFlitReceive port flit corrected s) := by
  unfold execFlitReceive
  repeat' (with_reducible first
    | exact Changes.refl _ _
    | (show Nat.lor _ _ = _; decide)
    | apply nextAll.next
    | apply nextAll.ite
    | apply Changes.ite
    | apply Changes.after (State.addOut_changes ..)
    | apply Changes.after (State.takeAck_changes ..)
    | apply Changes.after (State.setPort_changes ..)
    | apply Changes.after (State.discardFlit_changes ..)
    | apply Changes.after (State.count_changes ..)
    | apply Changes.after (State.takeNak_changes ..)
    | intro _)

theorem execNakReceive_changes (port : Nat) (ack : BitVec 12) (s : State) :
    nextAll (Changes 0xf797fdffb500 s) (execNakReceive port ack s) := by
  unfold execNakReceive
  repeat' (with_reducible first
    | exact Changes.refl _ _
    | (show Nat.lor _ _ = _; decide)
    | apply nextAll.next
    | apply Changes.ite
    | apply Changes.after (State.takeNak_changes ..)
    | intro _)

theorem execLinkDetect_changes (port : Nat) (found : Bool) (s : State) :
    nextAll (Changes 0x221100011400 s) (execLinkDetect port found s) := by
  unfold execLinkDetect
  repeat' (with_reducible first
    | exact Changes.refl _ _
    | (show Nat.lor _ _ = _; decide)
    | apply nextAll.next
    | apply Changes.ite
    | apply Changes.after (State.portTo_changes ..)
    | intro _)

theorem execLinkEqualiseDone_changes (port : Nat) (ok : Bool) (s : State) :
    nextAll (Changes 0xf61799c31500 s) (execLinkEqualiseDone port ok s) := by
  unfold execLinkEqualiseDone
  repeat' (with_reducible first
    | exact Changes.refl _ _
    | (show Nat.lor _ _ = _; decide)
    | apply nextAll.next
    | apply Changes.ite
    | apply Changes.after (State.portDown_changes ..)
    | apply Changes.after (State.portTo_changes ..)
    | intro _)

theorem execLinkAlignDone_changes (port : Nat) (bad : Word) (s : State) :
    nextAll (Changes 0xf61799c33500 s) (execLinkAlignDone port bad s) := by
  unfold execLinkAlignDone
  repeat' (with_reducible first
    | exact Changes.refl _ _
    | (show Nat.lor _ _ = _; decide)
    | apply nextAll.next
    | apply nextAll.ite
    | apply Changes.ite
    | apply Changes.after (State.portDown_changes ..)
    | apply Changes.after (State.portActive_changes ..)
    | apply Changes.after (State.portTo_changes ..)
    | apply Changes.after (State.linkEvent_changes ..)
    | intro _
    | split
    | ((fail_if_success (apply Changes.after (Changes.set_snapQ _ _))); apply Changes.after (Changes.set_fresh _ _ (Nat.le_add_right _ _))))

theorem execLinkIdentifyDone_changes (port peer : Nat) (part : BitVec 16) (rtt : Nat) (s : State) :
    nextAll (Changes 0xf61799c33500 s) (execLinkIdentifyDone port peer part rtt s) := by
  unfold execLinkIdentifyDone
  repeat' (with_reducible first
    | exact Changes.refl _ _
    | (show Nat.lor _ _ = _; decide)
    | apply nextAll.next
    | apply nextAll.ite
    | apply Changes.after (State.setPort_changes ..)
    | apply Changes.after (State.portActive_changes ..)
    | apply Changes.after (State.linkEvent_changes ..)
    | apply Changes.after (State.portLost_changes ..)
    | intro _)

theorem execLinkRetrainTimeout_changes (port : Nat) (s : State) :
    nextAll (Changes 0xf61799c31500 s) (execLinkRetrainTimeout port s) := by
  unfold execLinkRetrainTimeout
  repeat' (with_reducible first
    | exact Changes.refl _ _
    | (show Nat.lor _ _ = _; decide)
    | apply nextAll.next
    | apply Changes.ite
    | apply Changes.after (State.portDown_changes ..)
    | intro _)

theorem execLinkDownRetry_changes (port : Nat) (s : State) :
    nextAll (Changes 0x221100011400 s) (execLinkDownRetry port s) := by
  unfold execLinkDownRetry
  repeat' (with_reducible first
    | exact Changes.refl _ _
    | (show Nat.lor _ _ = _; decide)
    | apply nextAll.next
    | apply Changes.ite
    | apply Changes.after (State.portTo_changes ..)
    | intro _)

theorem execLinkAlignmentLost_changes (port : Nat) (s : State) :
    nextAll (Changes 0x221100011400 s) (execLinkAlignmentLost port s) := by
  unfold execLinkAlignmentLost
  repeat' (with_reducible first
    | exact Changes.refl _ _
    | (show Nat.lor _ _ = _; decide)
    | apply nextAll.next
    | apply Changes.ite
    | apply Changes.after (State.portRetrain_changes ..)
    | intro _)

theorem execWatchedLineSnoop_changes (addr : Addr) (s : State) :
    nextAll (Changes 0x100013400 s) (execWatchedLineSnoop addr s) := by
  unfold execWatchedLineSnoop
  repeat' (with_reducible first
    | exact Changes.refl _ _
    | (show Nat.lor _ _ = _; decide)
    | apply nextAll.next
    | apply nextAll.ite
    | apply Changes.after (State.cohEvent_changes ..)
    | apply Changes.after (State.pollQueue_changes ..)
    | apply Changes.after (State.takeControl_changes ..)
    | intro _
    | split)

theorem execAperturePlacement_changes (sapb : BitVec 7) (uapb : BitVec 2) (s : State) :
    nextAll (Changes 0x400 s) (execAperturePlacement sapb uapb s) := by
  unfold execAperturePlacement
  repeat' (with_reducible first
    | exact Changes.refl _ _
    | (show Nat.lor _ _ = _; decide)
    | apply nextAll.next
    | apply nextAll.ite
    | apply Changes.after (State.setPage_changes ..)
    | apply Changes.foldl
    | intro _)

end Sys2Proof.Machine
end

