-- ==== Sys2Proof/Laws/Reset.lean ====
section
/-! SUPPORT. What each operation of Machine/Reset.lean may change (the masks number the fields of State in order). -/

set_option Elab.async false

namespace Sys2Proof.Machine

theorem State.killWindow_changes (fuel : Nat) (s : State) (u : Nat) (code : BitVec 16) (l : List Entry) :
    Changes 0xa60708811400 s (s.killWindow fuel u code l).1 := by
  induction fuel generalizing s l with
  | zero => exact Changes.refl _ _
  | succ n ih =>
    unfold State.killWindow
    split
    · exact Changes.refl _ _
    · split
      · exact Changes.refl _ _
      · dsimp only
        refine Changes.andThen ?_ (ih _ _)
        apply Changes.after (State.leaveWindow_changes ..)
        · apply Changes.ite <;> intro _ <;> (try apply Changes.after (State.isoResponse_changes ..)) <;> (try decide) <;>
            (split <;> first | exact (State.scrambleDest_changes ..).widen | exact Changes.refl _ _)
        · decide

theorem State.killEngines_changes (s : State) (us : List Nat) (code : BitVec 16) : Changes 0xf787fdffb500 s (s.killEngines us code) := by
  unfold State.killEngines
  dsimp only
  apply Changes.foldl
  · exact Changes.foldlFst us (Changes.refl _ _) fun a u => (State.killWindow_changes ..).widen
  · intro t e
    split
    · exact (State.descFailed_changes ..).widen
    · exact Changes.refl _ _

theorem State.killCores_changes (s : State) (f : Nat → Bool) :
    Changes 0xf60799c31500 s (State.killCores s f) := by
  unfold State.killCores
  repeat' (with_reducible first
    | exact Changes.refl _ _
    | (show Nat.lor _ _ = _; decide)
    | apply Changes.ite
    | apply Changes.after (State.setCore_changes ..)
    | apply Changes.after (State.dispatchFault_changes ..)
    | apply Changes.foldl
    | intro _
    | split)

theorem State.holdDrt_changes (s : State) :
    Changes 0x108011400 s (State.holdDrt s) := by
  unfold State.holdDrt
  repeat' (with_reducible first
    | exact Changes.refl _ _
    | (show Nat.lor _ _ = _; decide)
    | apply Changes.after (State.isoResponse_changes ..)
    | apply Changes.after (State.setDrt_changes ..)
    | apply Changes.foldl
    | intro _)

theorem State.holdBlock_changes (s : State) (pg : Nat) (code : BitVec 16) :
    Changes 0xf787fdffb500 s (State.holdBlock s pg code) := by
  unfold State.holdBlock
  repeat' (with_reducible first
    | exact Changes.refl _ _
    | (show Nat.lor _ _ = _; decide)
    | apply Changes.ite
    | apply Changes.after (State.killEngines_changes ..)
    | apply Changes.after (State.holdDrt_changes ..)
    | apply Changes.after (State.killCores_changes ..)
    | apply Changes.after (State.setPage_changes ..)
    | intro _
    | split)

theorem State.holdDies_changes (s : State) (ds : List Nat) :
    Changes 0xf787fdffb500 s (State.holdDies s ds) := by
  unfold State.holdDies
  repeat' (with_reducible first
    | exact Changes.refl _ _
    | (show Nat.lor _ _ = _; decide)
    | apply Changes.after (State.killEngines_changes ..)
    | apply Changes.after (State.killCores_changes ..))

theorem State.scrambleCmd_changes (s : State) (l : List Byte) :
    Changes 0x200100000000 s (State.scrambleCmd s l) := by
  unfold State.scrambleCmd
  repeat' (with_reducible first
    | exact Changes.refl _ _
    | (show Nat.lor _ _ = _; decide)
    | apply Changes.after (State.scramble_changes ..)
    | apply Changes.foldl
    | intro _)

theorem State.scrambleFlight_changes (s : State) :
    Changes 0xa00700011400 s (State.scrambleFlight s) := by
  unfold State.scrambleFlight
  repeat' (with_reducible first
    | exact Changes.refl _ _
    | (show Nat.lor _ _ = _; decide)
    | apply Changes.after (State.scramble_changes ..)
    | apply Changes.after (State.scrambleDest_changes ..)
    | apply Changes.after (State.scrambleCmd_changes ..)
    | apply Changes.foldl
    | intro _
    | split)

theorem State.wipe_changes (s : State) (cold : Bool) : Changes 0xcf7fffffff00 s (s.wipe cold) := by
  constructor <;> first
    | (intro _; rfl)
    | exact fun e => absurd e (by decide)
    | exact fun h => SMap.wf_filter _ _ _ h
    | exact Fuses.Later.refl _
    | exact le_refl _
    | exact List.prefix_rfl
    | rfl

theorem State.applySettings_changes (s : State) :
    Changes 0x8000400 s (State.applySettings s) := by
  unfold State.applySettings
  repeat' (with_reducible first
    | exact Changes.refl _ _
    | (show Nat.lor _ _ = _; decide)
    | apply Changes.after (State.setDrt_changes ..)
    | apply Changes.after (State.setPage_changes ..)
    | apply Changes.foldl
    | intro _
    | split)

theorem State.holdCold_changes (s : State) :
    Changes 0xef7fffffff80 s (State.holdCold s) := by
  unfold State.holdCold
  repeat' (with_reducible first
    | exact Changes.refl _ _
    | (show Nat.lor _ _ = _; decide)
    | apply Changes.after (State.wipe_changes ..)
    | apply Changes.after (State.scrambleFlight_changes ..)
    | dsimp only
    | ((fail_if_success (apply Changes.after (Changes.set_snapQ _ _))); apply Changes.after (Changes.set_kind _ _)))

theorem State.holdWarm_changes (s : State) :
    Changes 0xef7fffffff80 s (State.holdWarm s) := by
  unfold State.holdWarm
  repeat' (with_reducible first
    | exact Changes.refl _ _
    | (show Nat.lor _ _ = _; decide)
    | apply Changes.ite
    | apply Changes.after (State.holdCold_changes ..)
    | apply Changes.after (State.wipe_changes ..)
    | apply Changes.after (State.reSource_changes ..)
    | apply Changes.after (State.applySettings_changes ..)
    | apply Changes.after (State.scrambleFlight_changes ..)
    | intro _
    | dsimp only
    | ((fail_if_success (apply Changes.after (Changes.set_snapQ _ _))); apply Changes.after (Changes.set_kind _ _)))

theorem State.endByReset_changes (s : State) (id : Nat) :
    Changes 0xf607ffff9d00 s (State.endByReset s id) := by
  unfold State.endByReset
  repeat' (with_reducible first
    | exact Changes.refl _ _
    | (show Nat.lor _ _ = _; decide)
    | apply Changes.after (State.failStep_changes ..)
    | apply Changes.after (State.endCtx_changes ..)
    | apply Changes.after (State.failCmd_changes ..)
    | apply Changes.after (State.abortCtx_changes ..)
    | apply Changes.after (State.scrambleCmd_changes ..)
    | apply Changes.foldl
    | intro _
    | split
    | dsimp only
    | ((fail_if_success (apply Changes.after (Changes.set_snapQ _ _))); apply Changes.after (Changes.set_queues _ _)))

theorem State.dropCredits_changes (s : State) (ds : List Nat) :
    Changes 0x220108011400 s (State.dropCredits s ds) := by
  unfold State.dropCredits
  repeat' (with_reducible first
    | exact Changes.refl _ _
    | (show Nat.lor _ _ = _; decide)
    | apply Changes.after (State.setDrt_changes ..)
    | apply Changes.after (State.ledgerFell_changes ..))

theorem State.cutDies_changes (s : State) (ds : List Nat) : Changes 0xc20f07f00e00 s (s.cutDies ds) := by
  constructor <;> first
    | (intro _; rfl)
    | exact fun e => absurd e (by decide)
    | (intro h; unfold State.cutDies; dsimp only; exact SMap.wf_dropKeys s.mem (fun _ => 0) _ h)
    | exact Fuses.Later.refl _
    | exact le_refl _
    | exact List.prefix_rfl
    | rfl

theorem State.resetDies_changes (s : State) (ds : List Nat) : Changes 0xe20f0ff11e00 s (s.resetDies ds) :=
  ((State.cutDies_changes s ds).widen (m := 0xe20f0ff11e00)).andThen (State.dropCredits_changes ..)

theorem State.blockLogic_changes (s : State) (i : PageInfo) :
    Changes 0xf61f99c31500 s (State.blockLogic s i) := by
  unfold State.blockLogic
  repeat' (with_reducible first
    | exact Changes.refl _ _
    | (show Nat.lor _ _ = _; decide)
    | apply Changes.ite
    | apply Changes.after (State.startDom_changes ..)
    | apply Changes.after (State.setQueue_changes ..)
    | apply Changes.after (State.setDrt_changes ..)
    | apply Changes.after (State.ledgerFell_changes ..)
    | apply Changes.after (State.reSource_changes ..)
    | apply Changes.after (State.portStart_changes ..)
    | apply Changes.after (State.setTrc_changes ..)
    | apply Changes.after (State.portLost_changes ..)
    | apply Changes.foldl
    | intro _
    | split
    | ((fail_if_success (apply Changes.after (Changes.set_snapQ _ _))); apply Changes.after (Changes.set_scrubPos _ _)))

theorem State.recoverBlock_changes (s : State) (pg : Nat) :
    Changes 0xf61f99c31500 s (State.recoverBlock s pg) := by
  unfold State.recoverBlock
  repeat' (with_reducible first
    | exact Changes.refl _ _
    | (show Nat.lor _ _ = _; decide)
    | apply Changes.after (State.pageIrq_changes ..)
    | apply Changes.after (State.blockLogic_changes ..)
    | apply Changes.after (State.count_changes ..)
    | split)

theorem State.markEarly_changes (s : State) (pg : Nat) :
    Changes 0x100011400 s (State.markEarly s pg) := by
  unfold State.markEarly
  repeat' (with_reducible first
    | exact Changes.refl _ _
    | (show Nat.lor _ _ = _; decide)
    | apply Changes.ite
    | apply Changes.after (State.setPage_changes ..)
    | apply Changes.after (State.count_changes ..)
    | intro _)

theorem State.releaseBlock_changes (s : State) (pg : Nat) :
    Changes 0xf61f99c31500 s (State.releaseBlock s pg) := by
  unfold State.releaseBlock
  repeat' (with_reducible first
    | exact Changes.refl _ _
    | (show Nat.lor _ _ = _; decide)
    | apply Changes.ite
    | apply Changes.after (State.recoverBlock_changes ..)
    | apply Changes.after (State.markEarly_changes ..)
    | intro _
    | split)

theorem State.endStage_changes (s : State) : Changes 0x10000000000 s s.endStage :=
  Changes.ite (fun _ => State.dropStage_changes ..) fun _ => Changes.refl _ _

theorem State.noteSource_changes (s : State) (x : Source) : Changes 0x10000000060 s (s.noteSource x) :=
  (State.endStage_changes s).widen.andThen (Changes.set_ember_rst _ _ _)

theorem State.assertSource_changes (s : State) (x : Source) : Changes 0xffffffffffe0 s (s.assertSource x) := by
  have h : Changes 0xffffffffffe0 s (s.noteSource x) := (State.noteSource_changes s x).widen
  unfold State.assertSource
  dsimp only
  split
  · split
    · exact h.andThen (State.holdCold_changes ..)
    · split
      · exact h.andThen (Changes.set_kind _ _)
      · split
        · exact h.andThen (State.holdWarm_changes ..)
        · split
          · exact h.andThen (State.holdBlock_changes ..)
          · exact h.andThen (State.holdDies_changes ..)
  · exact Changes.refl _ _

theorem State.recoverDies_changes (s : State) (part : Bool) (ds : List Nat) :
    Changes 0xf60fffff9f80 s (State.recoverDies s part ds) := by
  unfold State.recoverDies
  repeat' (with_reducible first
    | exact Changes.refl _ _
    | (show Nat.lor _ _ = _; decide)
    | apply Changes.ite
    | apply Changes.after (State.endByReset_changes ..)
    | apply Changes.after (State.markEarly_changes ..)
    | apply Changes.after (State.count_changes ..)
    | apply Changes.after (State.resetDies_changes ..)
    | apply Changes.foldl
    | intro _
    | split
    | ((fail_if_success (apply Changes.after (Changes.set_snapQ _ _))); apply Changes.after (Changes.set_kind _ _)))

theorem State.noteRecovery_changes (s : State) (l : Nat) : Changes 0x60 s (s.noteRecovery l) := Changes.set_ember_rst _ _ _

theorem State.recover_changes (s : State) : Changes 0xf61fffff9fe0 s s.recover := by
  unfold State.recover
  split
  · exact Changes.refl _ _
  · next l _ =>
    have h : Changes 0xf61fffff9fe0 s (s.noteRecovery l) := (State.noteRecovery_changes s l).widen
    dsimp only
    split
    · exact (h.andThen (Changes.set_kind _ _)).andThen (State.count_changes ..)
    · split
      · exact h
      · apply Changes.foldl
        · exact Changes.ite (fun _ => h) fun _ => h.andThen (State.recoverDies_changes ..)
        · intro t pg
          exact (State.releaseBlock_changes ..).widen

theorem State.releaseSource_changes (s : State) (cause pg : Nat) :
    Changes 0xf61fffff9fe0 s (State.releaseSource s cause pg) := by
  unfold State.releaseSource
  repeat' (with_reducible first
    | exact Changes.refl _ _
    | (show Nat.lor _ _ = _; decide)
    | apply Changes.ite
    | apply Changes.after (State.recover_changes ..)
    | intro _
    | dsimp only
    | ((fail_if_success (apply Changes.after (Changes.set_snapQ _ _))); apply Changes.after (Changes.set_rst _ _)))

theorem State.setTemp_changes (s : State) (die temp : Nat) :
    Changes 0x10 s (State.setTemp s die temp) := by
  unfold State.setTemp
  repeat' (with_reducible first
    | exact Changes.refl _ _
    | (show Nat.lor _ _ = _; decide)
    | dsimp only
    | ((fail_if_success (apply Changes.after (Changes.set_snapQ _ _))); apply Changes.after (Changes.set_supply _ _)))

theorem State.goPart_changes (s : State) (mask : Nat) :
    Changes 0xffffffffffe0 s (State.goPart s mask) := by
  unfold State.goPart
  repeat' (with_reducible first
    | exact Changes.refl _ _
    | (show Nat.lor _ _ = _; decide)
    | apply Changes.ite
    | apply Changes.after (State.pgErr_changes ..)
    | apply Changes.after (State.assertSource_changes ..)
    | intro _)

theorem State.goDie_changes (s : State) (d : Nat) :
    Changes 0xffffffffffe0 s (State.goDie s d) := by
  unfold State.goDie
  repeat' (with_reducible first
    | exact Changes.refl _ _
    | (show Nat.lor _ _ = _; decide)
    | apply Changes.ite
    | apply Changes.after (State.pgErr_changes ..)
    | apply Changes.after (State.assertSource_changes ..)
    | intro _
    | split)

theorem State.kick_changes (s : State) (m : Bool) (v : Nat) :
    Changes 0xffffffffffe0 s (State.kick s m v) := by
  unfold State.kick
  repeat' (with_reducible first
    | exact Changes.refl _ _
    | (show Nat.lor _ _ = _; decide)
    | apply Changes.ite
    | apply Changes.after (State.pgErr_changes ..)
    | apply Changes.after (State.count_changes ..)
    | apply Changes.after (State.assertSource_changes ..)
    | intro _)

theorem execRstnPin_changes (s : State) :
    nextAll (Changes 0xffffffffffe8 s) (execRstnPin s) := by
  unfold execRstnPin
  repeat' (with_reducible first
    | exact Changes.refl _ _
    | (show Nat.lor _ _ = _; decide)
    | apply nextAll.next
    | apply Changes.ite
    | apply Changes.after (State.assertSource_changes ..)
    | intro _
    | dsimp only
    | ((fail_if_success (apply Changes.after (Changes.set_snapQ _ _))); apply Changes.after (Changes.set_pins _ _)))

theorem execWrstnPin_changes (s : State) :
    nextAll (Changes 0xffffffffffe8 s) (execWrstnPin s) := by
  unfold execWrstnPin
  repeat' (with_reducible first
    | exact Changes.refl _ _
    | (show Nat.lor _ _ = _; decide)
    | apply nextAll.next
    | apply Changes.ite
    | apply Changes.after (State.assertSource_changes ..)
    | intro _
    | dsimp only
    | ((fail_if_success (apply Changes.after (Changes.set_snapQ _ _))); apply Changes.after (Changes.set_pins _ _)))

theorem execHostLinkReset_changes (port : Nat) (s : State) :
    nextAll (Changes 0xffffffffffe0 s) (execHostLinkReset port s) := by
  unfold execHostLinkReset
  repeat' (with_reducible first
    | exact Changes.refl _ _
    | (show Nat.lor _ _ = _; decide)
    | apply nextAll.next
    | apply Changes.ite
    | apply Changes.after (State.assertSource_changes ..)
    | intro _)

theorem execRefclkLoss_changes (s : State) :
    nextAll (Changes 0xffffffffffe8 s) (execRefclkLoss s) := by
  unfold execRefclkLoss
  repeat' (with_reducible first
    | exact Changes.refl _ _
    | (show Nat.lor _ _ = _; decide)
    | apply nextAll.next
    | apply Changes.ite
    | apply Changes.after (State.assertSource_changes ..)
    | intro _
    | dsimp only
    | ((fail_if_success (apply Changes.after (Changes.set_snapQ _ _))); apply Changes.after (Changes.set_pins _ _)))

theorem execThermalTrip_changes (die temp : Nat) (s : State) :
    nextAll (Changes 0xfffffffffff0 s) (execThermalTrip die temp s) := by
  unfold execThermalTrip
  repeat' (with_reducible first
    | exact Changes.refl _ _
    | (show Nat.lor _ _ = _; decide)
    | apply nextAll.next
    | apply nextAll.ite
    | apply Changes.after (State.assertSource_changes ..)
    | apply Changes.after (State.setTemp_changes ..)
    | intro _)

theorem execTjWarning_changes (die temp : Nat) (s : State) :
    nextAll (Changes 0x100011010 s) (execTjWarning die temp s) := by
  unfold execTjWarning
  repeat' (with_reducible first
    | exact Changes.refl _ _
    | (show Nat.lor _ _ = _; decide)
    | apply nextAll.next
    | apply nextAll.ite
    | apply Changes.ite
    | apply Changes.after (State.pkgEvent_changes ..)
    | apply Changes.after (State.setTemp_changes ..)
    | intro _)

theorem execWatchdogTimeout_changes (s : State) :
    nextAll (Changes 0xffffffffffe0 s) (execWatchdogTimeout s) := by
  unfold execWatchdogTimeout
  repeat' (with_reducible first
    | exact Changes.refl _ _
    | (show Nat.lor _ _ = _; decide)
    | apply nextAll.next
    | apply Changes.ite
    | apply Changes.after (State.assertSource_changes ..)
    | intro _)

theorem execResetSourceRelease_changes (cause pg : Nat) (s : State) :
    nextAll (Changes 0xf61fffff9fe8 s) (execResetSourceRelease cause pg s) := by
  unfold execResetSourceRelease
  repeat' (with_reducible first
    | exact Changes.refl _ _
    | (show Nat.lor _ _ = _; decide)
    | apply nextAll.next
    | apply nextAll.ite
    | apply Changes.after (State.releaseSource_changes ..)
    | intro _
    | ((fail_if_success (apply Changes.after (Changes.set_snapQ _ _))); apply Changes.after (Changes.set_pins _ _)))

theorem execClockQualLoss_changes (die : Nat) (clk : Clock) (s : State) :
    nextAll (Changes 0xf79ffdffb700 s) (execClockQualLoss die clk s) := by
  unfold execClockQualLoss
  repeat' (with_reducible first
    | exact Changes.refl _ _
    | (show Nat.lor _ _ = _; decide)
    | apply nextAll.next
    | apply nextAll.ite
    | apply Changes.ite
    | apply Changes.after (State.holdBlock_changes ..)
    | apply Changes.after (State.raise_changes ..)
    | apply Changes.after (State.releaseBlock_changes ..)
    | apply Changes.after (State.count_changes ..)
    | apply Changes.after (State.endStage_changes ..)
    | apply Changes.foldl
    | intro _
    | ((fail_if_success (apply Changes.after (Changes.set_snapQ _ _))); apply Changes.after (Changes.set_lostClk _ _)))

theorem execClockQualified_changes (die : Nat) (clk : Clock) (s : State) :
    nextAll (Changes 0xf61f99c31700 s) (execClockQualified die clk s) := by
  unfold execClockQualified
  repeat' (with_reducible first
    | exact Changes.refl _ _
    | (show Nat.lor _ _ = _; decide)
    | apply nextAll.next
    | apply nextAll.ite
    | apply Changes.ite
    | apply Changes.after (State.releaseBlock_changes ..)
    | apply Changes.foldl
    | intro _
    | ((fail_if_success (apply Changes.after (Changes.set_snapQ _ _))); apply Changes.after (Changes.set_lostClk _ _)))

end Sys2Proof.Machine
end

