-- ==== Sys2Proof/Laws/Power.lean ====
section
/-! SUPPORT. What each operation of Machine/Power.lean may change (the masks number the fields of State in order). -/

set_option Elab.async false

namespace Sys2Proof.Machine

theorem State.setVin_changes (s : State) (v : BitVec 16) (good : Bool) :
    Changes 0x10 s (State.setVin s v good) := by
  unfold State.setVin
  repeat' (with_reducible first
    | exact Changes.refl _ _
    | (show Nat.lor _ _ = _; decide)
    | dsimp only
    | ((fail_if_success (apply Changes.after (Changes.set_snapQ _ _))); apply Changes.after (Changes.set_supply _ _)))

theorem State.setVstby_changes (s : State) (v : BitVec 12) (good : Bool) :
    Changes 0x10 s (State.setVstby s v good) := by
  unfold State.setVstby
  repeat' (with_reducible first
    | exact Changes.refl _ _
    | (show Nat.lor _ _ = _; decide)
    | dsimp only
    | ((fail_if_success (apply Changes.after (Changes.set_snapQ _ _))); apply Changes.after (Changes.set_supply _ _)))

theorem State.assertPins_changes (s : State) :
    Changes 0xffffffffffe0 s (State.assertPins s) := by
  unfold State.assertPins
  repeat' (with_reducible first
    | exact Changes.refl _ _
    | (show Nat.lor _ _ = _; decide)
    | apply Changes.ite
    | apply Changes.after (State.assertSource_changes ..)
    | intro _)

theorem State.halt_changes (s : State) (code die : Nat) : Changes 0xef7fffffff80 s (s.halt code die) := by
  have h : Changes 0xef7fffffff80 s (s.scrambleFlight.wipe true) := (State.scrambleFlight_changes ..).widen.andThen (State.wipe_changes ..)
  unfold State.halt
  refine Changes.andThen ?_ (State.count_changes ..)
  exact { h with
    kind := fun e => absurd e (by decide), doms := fun e => absurd e (by decide), lostClk := fun e => absurd e (by decide),
    pages := fun e => absurd e (by decide), ports := fun e => absurd e (by decide), chain := fun e => absurd e (by decide),
    jtag := fun e => absurd e (by decide), trc := fun e => absurd e (by decide) }

theorem State.rollback_changes (s : State) :
    Changes 0x308100011400 s (State.rollback s) := by
  unfold State.rollback
  repeat' (with_reducible first
    | exact Changes.refl _ _
    | (show Nat.lor _ _ = _; decide)
    | apply Changes.ite
    | apply Changes.after (State.fwEvent_changes ..)
    | apply Changes.after (State.count_changes ..)
    | apply Changes.after (State.writeBoot_changes ..)
    | intro _
    | split)

theorem State.bootFlash_changes (s : State) :
    Changes 0x308100011400 s (State.bootFlash s).1 := by
  unfold State.bootFlash
  repeat' (with_reducible first
    | exact Changes.refl _ _
    | (show Nat.lor _ _ = _; decide)
    | apply Changes.after (State.rollback_changes ..)
    | apply Changes.after (State.count_changes ..)
    | apply Changes.after (State.writeBoot_changes ..)
    | split
    | dsimp only)

theorem State.sendEnum_changes (s : State) (a : Nat) :
    Changes 0x300100011400 s (State.sendEnum s a) := by
  unfold State.sendEnum
  repeat' (with_reducible first
    | exact Changes.refl _ _
    | (show Nat.lor _ _ = _; decide)
    | apply Changes.after (State.sendFrame_changes ..)
    | apply Changes.after (State.takeFree_changes ..))

theorem State.enumHead_changes (s : State) :
    Changes 0x302100011420 s (State.enumHead s) := by
  unfold State.enumHead
  repeat' (with_reducible first
    | exact Changes.refl _ _
    | (show Nat.lor _ _ = _; decide)
    | apply Changes.ite
    | apply Changes.after (State.sendEnum_changes ..)
    | intro _
    | dsimp only
    | ((fail_if_success (apply Changes.after (Changes.set_snapQ _ _))); apply Changes.after (Changes.set_ember_chain _ _ _)))

theorem State.startFw_changes (s : State) (version : Word64) (runb chain : Bool) :
    Changes 0x3331000114a0 s (State.startFw s version runb chain) := by
  unfold State.startFw
  repeat' (with_reducible first
    | exact Changes.refl _ _
    | (show Nat.lor _ _ = _; decide)
    | apply Changes.after (State.setPage_changes ..)
    | apply Changes.after (State.setFw_changes ..)
    | apply Changes.after (State.portStart_changes ..)
    | apply Changes.after (State.enumHead_changes ..)
    | apply Changes.foldl
    | intro _
    | dsimp only
    | ((fail_if_success (apply Changes.after (Changes.set_snapQ _ _))); apply Changes.after (Changes.set_kind _ _)))

theorem State.writeDom_changes (s : State) (k : Nat) (st : BitVec 2) :
    Changes 0x220108011500 s (State.writeDom s k st) := by
  unfold State.writeDom
  repeat' (with_reducible first
    | exact Changes.refl _ _
    | (show Nat.lor _ _ = _; decide)
    | apply Changes.ite
    | apply Changes.after (State.startDom_changes ..)
    | apply Changes.after (State.pgErr_changes ..)
    | intro _)

theorem State.dropPages_changes (s : State) (f : Nat → Bool) : Changes 0x800400 s (s.dropPages f) := Changes.set_pages_engines _ _ _

theorem State.dropHearths_changes (s : State) (d : Nat) : Changes 0x800706700000 s (s.dropHearths d) := by
  constructor <;> first
    | (intro _; rfl)
    | exact fun e => absurd e (by decide)
    | (intro h; unfold State.dropHearths; dsimp only; exact SMap.wf_dropKeys s.mem (fun _ => 0) _ h)
    | exact Fuses.Later.refl _
    | exact le_refl _
    | exact List.prefix_rfl
    | rfl

theorem State.dropStack_changes (s : State) (k : Nat) : Changes 0x800700000000 s (s.dropStack k) := by
  constructor <;> first
    | (intro _; rfl)
    | exact fun e => absurd e (by decide)
    | (intro h; unfold State.dropStack; dsimp only; exact SMap.wf_dropKeys s.mem (fun _ => 0) _ h)
    | exact Fuses.Later.refl _
    | exact le_refl _
    | exact List.prefix_rfl
    | rfl

theorem State.domLost_changes (s : State) (k : Nat) : Changes 0xf61f9ff31500 s (s.domLost k) := by
  have h : ∀ f, Changes 0xf61f9ff31500 s (s.dropPages f) := fun f => (State.dropPages_changes s f).widen
  unfold State.domLost
  dsimp only
  split
  · split
    · exact (h _).andThen (Changes.set_stores_drains _ _ _)
    · exact (h _).andThen (State.dropHearths_changes ..)
  · split
    · split
      · exact (h _).andThen (State.dropStack_changes ..)
      · exact (h _).andThen (Changes.set_scrubPos _ _)
    · split
      · exact (h _).andThen (State.setTrc_changes ..)
      · split
        · exact (h _).andThen (State.portLost_changes ..)
        · exact h _

theorem execVin56Good_changes (sample : BitVec 16) (s : State) :
    nextAll (Changes 0xf61fffff9ff0 s) (execVin56Good sample s) := by
  unfold execVin56Good
  repeat' (with_reducible first
    | exact Changes.refl _ _
    | (show Nat.lor _ _ = _; decide)
    | apply nextAll.next
    | apply Changes.ite
    | apply Changes.after (State.setVin_changes ..)
    | apply Changes.after (State.releaseSource_changes ..)
    | intro _)

theorem execVin56Lost_changes (sample : BitVec 16) (s : State) :
    nextAll (Changes 0xfffffffffff0 s) (execVin56Lost sample s) := by
  unfold execVin56Lost
  repeat' (with_reducible first
    | exact Changes.refl _ _
    | (show Nat.lor _ _ = _; decide)
    | apply nextAll.next
    | apply Changes.ite
    | apply Changes.after (State.setVin_changes ..)
    | apply Changes.after (State.assertSource_changes ..)
    | intro _)

theorem execVstbyGood_changes (sample : BitVec 12) (s : State) :
    nextAll (Changes 0xfffffffffff0 s) (execVstbyGood sample s) := by
  unfold execVstbyGood
  repeat' (with_reducible first
    | exact Changes.refl _ _
    | (show Nat.lor _ _ = _; decide)
    | apply nextAll.next
    | apply Changes.ite
    | apply Changes.after (State.setVstby_changes ..)
    | apply Changes.after (State.assertPins_changes ..)
    | intro _
    | dsimp only
    | ((fail_if_success (apply Changes.after (Changes.set_snapQ _ _))); apply Changes.after (Changes.set_ember _ _)))

theorem execVstbyLost_changes (sample : BitVec 12) (s : State) :
    nextAll (Changes 0xef7ffffffff0 s) (execVstbyLost sample s) := by
  unfold execVstbyLost
  repeat' (with_reducible first
    | exact Changes.refl _ _
    | (show Nat.lor _ _ = _; decide)
    | apply nextAll.next
    | apply nextAll.ite
    | apply Changes.after (State.holdCold_changes ..)
    | apply Changes.after (State.setVstby_changes ..)
    | intro _
    | ((fail_if_success (apply Changes.after (Changes.set_snapQ _ _))); apply Changes.after (Changes.set_ember_rst_kind _ _ _ _)))

theorem execEmber_changes (s : State) :
    nextAll (Changes 0x80 s) (execEmber s) := by
  unfold execEmber
  repeat' (with_reducible first
    | exact Changes.refl _ _
    | (show Nat.lor _ _ = _; decide)
    | apply nextAll.next
    | apply nextAll.ite
    | intro _
    | dsimp only
    | ((fail_if_success (apply Changes.after (Changes.set_snapQ _ _))); apply Changes.after (Changes.set_kind _ _)))

theorem State.cooled_changes (s : State) : Changes 0x200000000010 s (State.cooled s) := by
  unfold State.cooled
  refine Changes.ite (fun _ => ?_) fun _ => (Changes.set_supply s _).widen
  have h : Changes 0x200000000010 s _ := (Changes.set_supply s { s.supply with
    tj := BitVec.ofNat 8 (Config.freeNat s.fresh % 96), hot := false }).widen
  exact h.andThen (Changes.set_fresh _ (s.fresh + 1) (Nat.le_succ _))

theorem State.holdHot_changes (s : State) : Changes 0x10 s (State.holdHot s) := Changes.set_supply _ _

theorem execConverters_changes (hot : Bool) (s : State) :
    nextAll (Changes 0x202000000090 s) (execConverters hot s) := by
  unfold execConverters
  repeat' (with_reducible first
    | exact Changes.refl _ _
    | (show Nat.lor _ _ = _; decide)
    | apply nextAll.next
    | apply nextAll.ite
    | apply Changes.after (State.cooled_changes ..)
    | apply Changes.after (State.holdHot_changes ..)
    | intro _
    | dsimp only
    | ((fail_if_success (apply Changes.after (Changes.set_snapQ _ _))); apply Changes.after (Changes.set_kind_chain _ _ _)))

theorem execOptionLoading_changes (bad : Option Nat) (s : State) :
    nextAll (Changes 0xef7fffffffa4 s) (execOptionLoading bad s) := by
  unfold execOptionLoading
  repeat' (with_reducible first
    | exact Changes.refl _ _
    | (show Nat.lor _ _ = _; decide)
    | apply nextAll.next
    | apply nextAll.ite
    | apply Changes.after (State.halt_changes ..)
    | apply Changes.after (State.reSource_changes ..)
    | apply Changes.after (State.applySettings_changes ..)
    | intro _
    | split
    | dsimp only
    | ((fail_if_success (apply Changes.after (Changes.set_snapQ _ _))); apply Changes.after (Changes.set_shadow_ember_kind _ _ _ _)))

theorem execDieEnumeration_changes (missing unlocked : Option Nat) (s : State) :
    nextAll (Changes 0xef7fffffff80 s) (execDieEnumeration missing unlocked s) := by
  unfold execDieEnumeration
  repeat' (with_reducible first
    | exact Changes.refl _ _
    | (show Nat.lor _ _ = _; decide)
    | apply nextAll.next
    | apply nextAll.ite
    | apply Changes.after (State.halt_changes ..)
    | intro _
    | split
    | dsimp only
    | ((fail_if_success (apply Changes.after (Changes.set_snapQ _ _))); apply Changes.after (Changes.set_kind _ _)))

theorem execStackTraining_changes (bad : Option Nat) (s : State) :
    nextAll (Changes 0xef7fffffff80 s) (execStackTraining bad s) := by
  unfold execStackTraining
  repeat' (with_reducible first
    | exact Changes.refl _ _
    | (show Nat.lor _ _ = _; decide)
    | apply nextAll.next
    | apply nextAll.ite
    | apply Changes.after (State.halt_changes ..)
    | apply Changes.after (State.scrubCord_changes ..)
    | apply Changes.foldl
    | intro _
    | split
    | dsimp only
    | ((fail_if_success (apply Changes.after (Changes.set_snapQ _ _))); apply Changes.after (Changes.set_kind _ _)))

theorem execFirmwareStart_changes (s : State) : nextAll (Changes 0xffffffffffa0 s) (execFirmwareStart s) := by
  unfold execFirmwareStart
  split
  · split
    · split
      · split
        · exact nextAll.next (State.startFw_changes ..).widen
        · exact nextAll.next ((State.setFw_changes ..).widen.andThen (State.count_changes ..))
      · exact nextAll.next (Changes.refl _ _)
    · have h := State.bootFlash_changes s
      split
      · next t b e => rw [e] at h; exact nextAll.next (h.widen.andThen (State.startFw_changes ..))
      · next t e => rw [e] at h; exact nextAll.next (h.widen.andThen (State.halt_changes ..))
  · exact nextAll.next (Changes.refl _ _)

theorem execLinkTraining_changes (upLock downLock : Bool) (s : State) :
    nextAll (Changes 0x21000110a0 s) (execLinkTraining upLock downLock s) := by
  unfold execLinkTraining
  split
  · refine nextAll.next (Changes.andThen (Changes.andThen (Changes.foldl _ (Changes.refl _ _) fun t p => ?_)
      (Changes.set_ember_chain _ _ _)) (Changes.set_kind _ _))
    exact Changes.ite (fun _ => (State.linkEvent_changes ..).widen) fun _ => Changes.refl _ _
  · exact nextAll.next (Changes.refl _ _)

theorem execDomainTransitionDone_changes (k : Nat) (s : State) :
    nextAll (Changes 0xf61f9ffb1500 s) (execDomainTransitionDone k s) := by
  unfold execDomainTransitionDone
  repeat' (with_reducible first
    | exact Changes.refl _ _
    | (show Nat.lor _ _ = _; decide)
    | apply nextAll.next
    | apply nextAll.ite
    | apply Changes.ite
    | apply Changes.after (State.domLost_changes ..)
    | apply Changes.after (State.ledgerFell_changes ..)
    | apply Changes.after (State.setDom_changes ..)
    | apply Changes.after (State.portStart_changes ..)
    | apply Changes.after (State.tryBegin_changes ..)
    | apply Changes.foldl
    | intro _)

end Sys2Proof.Machine
end

