-- ==== Sys2Proof/Laws/FwCtl.lean ====
section
/-! SUPPORT. What each operation of Machine/FwCtl.lean may change (the masks number the fields of State in order). -/

set_option Elab.async false

namespace Sys2Proof.Machine

theorem State.fwBegin_changes (s : State) (n : Nat) :
    someAll (Changes 0x18000000000 s) (State.fwBegin s n) := by
  unfold State.fwBegin
  repeat' (with_reducible first
    | exact Changes.refl _ _
    | (show Nat.lor _ _ = _; decide)
    | exact someAll.none
    | apply someAll.some
    | apply someAll.ite
    | apply Changes.after (State.beginStage_changes ..)
    | intro _)

theorem State.fwAbort_changes (s : State) :
    someAll (Changes 0x10000000000 s) (State.fwAbort s) := by
  unfold State.fwAbort
  repeat' (with_reducible first
    | exact Changes.refl _ _
    | (show Nat.lor _ _ = _; decide)
    | exact someAll.none
    | apply someAll.some
    | apply someAll.ite
    | apply Changes.after (State.dropStage_changes ..)
    | intro _)

theorem State.fwCommit_changes (s : State) :
    someAll (Changes 0x318100011406 s) (State.fwCommit s) := by
  unfold State.fwCommit
  repeat' (with_reducible first
    | exact Changes.refl _ _
    | (show Nat.lor _ _ = _; decide)
    | exact someAll.none
    | apply someAll.some
    | apply someAll.ite
    | apply Changes.after (State.commitTrial_changes ..)
    | intro _)

theorem State.fwNow_changes (s : State) :
    someAll (Changes 0x318120011400 s) (State.fwNow s) := by
  unfold State.fwNow
  repeat' (with_reducible first
    | exact Changes.refl _ _
    | (show Nat.lor _ _ = _; decide)
    | exact someAll.none
    | apply someAll.some
    | apply someAll.ite
    | apply Changes.after (State.activate_changes ..)
    | intro _)

theorem State.fwActivate_changes (s : State) (p : List Byte) :
    someAll (Changes 0x318120011400 s) (State.fwActivate s p) := by
  unfold State.fwActivate
  repeat' (with_reducible first
    | exact Changes.refl _ _
    | assumption
    | (show Nat.lor _ _ = _; decide)
    | exact someAll.none
    | apply someAll.ite
    | apply someAll.mapT
    | apply Changes.after (State.arm_changes ..)
    | apply someAll.mono (State.fwNow_changes ..)
    | intro _)

theorem State.fwSetwr_changes (s : State) (p : List Byte) :
    someAll (Changes 0x18000000000 s) (State.fwSetwr s p) := by
  unfold State.fwSetwr
  repeat' (with_reducible first
    | exact Changes.refl _ _
    | (show Nat.lor _ _ = _; decide)
    | exact someAll.none
    | apply someAll.ite
    | apply someAll.mapT
    | apply Changes.after (State.writeSlot_changes ..)
    | apply Changes.after (State.setFw_changes ..)
    | apply Changes.after (State.writeBoot_changes ..)
    | intro _)

theorem State.stagePiece_changes (s : State) (off : Nat) (b : List Byte) :
    Changes 0x310100011400 s (State.stagePiece s off b) := by
  unfold State.stagePiece
  repeat' (with_reducible first
    | exact Changes.refl _ _
    | (show Nat.lor _ _ = _; decide)
    | apply Changes.ite
    | apply Changes.after (State.stageBlock_changes ..)
    | apply Changes.after (State.stagePut_changes ..)
    | apply Changes.after (State.setFw_changes ..)
    | apply Changes.after (State.count_changes ..)
    | intro _)

theorem State.bootPiece_changes (s : State) (off : Nat) (b : List Byte) :
    Changes 0x10000000000 s (State.bootPiece s off b) := by
  unfold State.bootPiece
  repeat' (with_reducible first
    | exact Changes.refl _ _
    | (show Nat.lor _ _ = _; decide)
    | apply Changes.ite
    | apply Changes.after (State.setFw_changes ..)
    | intro _)

theorem State.takeImg_changes (s : State) (boot : Bool) (off : Nat) (b : List Byte) :
    Changes 0x310100011400 s (State.takeImg s boot off b) := by
  unfold State.takeImg
  repeat' (with_reducible first
    | exact Changes.refl _ _
    | (show Nat.lor _ _ = _; decide)
    | apply Changes.ite
    | apply Changes.after (State.stagePiece_changes ..)
    | apply Changes.after (State.bootPiece_changes ..)
    | intro _)

theorem execFlashProgramDone_changes (s : State) :
    nextAll (Changes 0x318100011400 s) (execFlashProgramDone s) := by
  unfold execFlashProgramDone
  repeat' (with_reducible first
    | exact Changes.refl _ _
    | (show Nat.lor _ _ = _; decide)
    | apply nextAll.next
    | apply nextAll.ite
    | apply Changes.after (State.setFw_changes ..)
    | apply Changes.after (State.count_changes ..)
    | apply Changes.after (State.stageCheck_changes ..)
    | apply Changes.after (State.setFlash_changes ..)
    | intro _
    | split
    | dsimp only
    | ((fail_if_success (apply Changes.after (Changes.set_snapQ _ _))); apply Changes.after (Changes.set_fw _ _)))

end Sys2Proof.Machine
end

