-- ==== Sys2Proof/Laws/RegView.lean ====
section
/-! SUPPORT. What each operation of Machine/RegView.lean may change (the masks number the fields of State in order). -/

set_option Elab.async false

namespace Sys2Proof.Machine

theorem State.settleSeed_changes (s : State) (pg : Nat) :
    Changes 0x200000000400 s (State.settleSeed s pg) := by
  unfold State.settleSeed
  repeat' (with_reducible first
    | exact Changes.refl _ _
    | (show Nat.lor _ _ = _; decide)
    | apply Changes.ite
    | apply Changes.after (State.setPage_changes ..)
    | intro _
    | ((fail_if_success (apply Changes.after (Changes.set_snapQ _ _))); apply Changes.after (Changes.set_fresh _ _ (Nat.le_add_right _ _))))

theorem State.reach_changes (s : State) (prv : Priv) (a size : Nat) (write : Bool) (v : Nat) :
    errAll (Changes 0x100011400 s) (State.reach s prv a size write v) := by
  unfold State.reach
  repeat' (with_reducible first
    | exact Changes.refl _ _
    | (show Nat.lor _ _ = _; decide)
    | exact errAll.ok
    | apply errAll.error
    | apply Changes.after (State.pgErr_changes ..)
    | split
    | dsimp only)

theorem State.setLatch_changes (s : State) (pg : Nat) (l : Option (Nat × Word)) :
    Changes 0x400 s (State.setLatch s pg l) := by
  unfold State.setLatch
  repeat' (with_reducible first
    | exact Changes.refl _ _
    | (show Nat.lor _ _ = _; decide)
    | apply Changes.after (State.setPage_changes ..))

theorem State.readWord_changes (s : State) (i : PageInfo) (pg off : Nat) :
    Changes 0x200000000400 s (State.readWord s i pg off).1 := by
  unfold State.readWord
  repeat' (with_reducible first
    | exact Changes.refl _ _
    | (show Nat.lor _ _ = _; decide)
    | apply Changes.ite
    | apply Changes.after (State.setLatch_changes ..)
    | apply Changes.after (State.settleSeed_changes ..)
    | intro _
    | split
    | dsimp only
    | ((fail_if_success (apply Changes.after (Changes.set_snapQ _ _))); apply Changes.after (Changes.set_fresh _ _ (Nat.le_add_right _ _))))

theorem State.readReg_changes (s : State) (prv : Priv) (a size : Nat) :
    Changes 0x200100011400 s (State.readReg s prv a size).1 := by
  unfold State.readReg
  repeat' (with_reducible first
    | exact Changes.refl _ _
    | (show Nat.lor _ _ = _; decide)
    | apply Changes.after (State.readWord_changes ..)
    | (have hh := errAll.get (State.reach_changes ..) ‹_ = Except.error _›; apply Changes.after hh; clear hh)
    | split)

theorem State.hostRead_changes (s : State) (prv : Priv) (a size : Nat) :
    Changes 0x300100011400 s (State.hostRead s prv a size) := by
  unfold State.hostRead
  repeat' (with_reducible first
    | exact Changes.refl _ _
    | (show Nat.lor _ _ = _; decide)
    | apply Changes.after (State.addOut_changes ..)
    | apply Changes.after (State.readReg_changes ..))

end Sys2Proof.Machine
end

