-- ==== Sys2Proof/Laws/Regs.lean ====
section
/-! SUPPORT. What each operation of Machine/Regs.lean may change (the masks number the fields of State in order). -/

set_option Elab.async false

namespace Sys2Proof.Machine

theorem State.putReg_changes (s : State) (pg off : Nat) (d : RegDef) (v : Nat) :
    Changes 0x400 s (State.putReg s pg off d v) := by
  unfold State.putReg
  repeat' (with_reducible first
    | exact Changes.refl _ _
    | (show Nat.lor _ _ = _; decide)
    | apply Changes.after (State.setPage_changes ..))

theorem State.putFw_changes (s : State) (pg off mask v : Nat) :
    Changes 0x400 s (State.putFw s pg off mask v) := by
  unfold State.putFw
  repeat' (with_reducible first
    | exact Changes.refl _ _
    | (show Nat.lor _ _ = _; decide)
    | apply Changes.after (State.setPage_changes ..))

theorem State.freshPar_changes (s : State) (pg off : Nat) :
    Changes 0x400 s (State.freshPar s pg off) := by
  unfold State.freshPar
  repeat' (with_reducible first
    | exact Changes.refl _ _
    | (show Nat.lor _ _ = _; decide)
    | apply Changes.after (State.setPage_changes ..))

theorem State.closeUnlock_changes (s : State) (pg : Nat) :
    Changes 0x200000000400 s (State.closeUnlock s pg) := by
  unfold State.closeUnlock
  repeat' (with_reducible first
    | exact Changes.refl _ _
    | (show Nat.lor _ _ = _; decide)
    | apply Changes.ite
    | apply Changes.after (State.setPage_changes ..)
    | apply Changes.after (State.settleSeed_changes ..)
    | intro _)

theorem State.writeLock_changes (s : State) (pg key : Nat) :
    Changes 0x200000000400 s (State.writeLock s pg key) := by
  unfold State.writeLock
  repeat' (with_reducible first
    | exact Changes.refl _ _
    | (show Nat.lor _ _ = _; decide)
    | apply Changes.ite
    | apply Changes.after (State.closeUnlock_changes ..)
    | apply Changes.after (State.setPage_changes ..)
    | intro _)

theorem State.writeCtl_changes (s : State) (pg v : Nat) :
    Changes 0xffffffffffe0 s (State.writeCtl s pg v) := by
  unfold State.writeCtl
  repeat' (with_reducible first
    | exact Changes.refl _ _
    | (show Nat.lor _ _ = _; decide)
    | apply Changes.ite
    | apply Changes.after (State.setPage_changes ..)
    | apply Changes.after (State.assertSource_changes ..)
    | intro _)

theorem State.writePt_changes (s : State) (pg off : Nat) (d : RegDef) (v : Nat) :
    Changes 0x200100011400 s (State.writePt s pg off d v) := by
  unfold State.writePt
  repeat' (with_reducible first
    | exact Changes.refl _ _
    | (show Nat.lor _ _ = _; decide)
    | apply Changes.ite
    | apply Changes.after (State.putReg_changes ..)
    | apply Changes.after (State.pgErr_changes ..)
    | apply Changes.after (State.settleSeed_changes ..)
    | intro _)

theorem State.writeSnap_changes (s : State) (pg v : Nat) :
    Changes 0x80000000400 s (State.writeSnap s pg v) := by
  unfold State.writeSnap
  repeat' (with_reducible first
    | exact Changes.refl _ _
    | (show Nat.lor _ _ = _; decide)
    | apply Changes.ite
    | apply Changes.after (State.setPage_changes ..)
    | intro _
    | dsimp only
    | ((fail_if_success (apply Changes.after (Changes.set_jtag _ _))); apply Changes.after (Changes.set_snapQ _ _)))

theorem State.writeCommon_changes (s : State) (i : PageInfo) (pg off v : Nat) :
    Changes 0xffffffffffe0 s (State.writeCommon s i pg off v) := by
  unfold State.writeCommon
  repeat' (with_reducible first
    | exact Changes.refl _ _
    | (show Nat.lor _ _ = _; decide)
    | apply Changes.ite
    | apply Changes.after (State.writeCtl_changes ..)
    | apply Changes.after (State.writeLock_changes ..)
    | apply Changes.after (State.writeSnap_changes ..)
    | apply Changes.after (State.setPage_changes ..)
    | apply Changes.after (State.pageIrq_changes ..)
    | apply Changes.after (State.writePt_changes ..)
    | intro _
    | split)

theorem State.writeAq_changes (s : State) (d : RegDef) (v : Nat) :
    Changes 0x100013400 s (State.writeAq s d v) := by
  unfold State.writeAq
  repeat' (with_reducible first
    | exact Changes.refl _ _
    | (show Nat.lor _ _ = _; decide)
    | apply Changes.ite
    | apply Changes.after (State.putReg_changes ..)
    | apply Changes.after (State.setQueue_changes ..)
    | apply Changes.after (State.pollQueue_changes ..)
    | apply Changes.after (State.reapQueue_changes ..)
    | intro _)

theorem State.writeSplit_changes (s : State) (i : PageInfo) (pg off : Nat) (d : RegDef) (v : Nat) :
    Changes 0x400001000400 s (State.writeSplit s i pg off d v) := by
  unfold State.writeSplit
  repeat' (with_reducible first
    | exact Changes.refl _ _
    | (show Nat.lor _ _ = _; decide)
    | apply Changes.after (State.putReg_changes ..)
    | apply Changes.after (State.putStore_changes ..))

theorem State.writeDrain_changes (s : State) (i : PageInfo) (pg off : Nat) (d : RegDef) (v : Nat) :
    Changes 0x400000000400 s (State.writeDrain s i pg off d v) := by
  unfold State.writeDrain
  repeat' (with_reducible first
    | exact Changes.refl _ _
    | (show Nat.lor _ _ = _; decide)
    | apply Changes.after (State.putReg_changes ..)
    | apply Changes.after (State.settleDrain_changes ..)
    | ((fail_if_success (apply Changes.after (Changes.set_snapQ _ _))); apply Changes.after (Changes.set_drains _ _)))

theorem State.writeStk_changes (s : State) (i : PageInfo) (pg off : Nat) (d : RegDef) (v : Nat) :
    Changes 0x400 s (State.writeStk s i pg off d v) := by
  unfold State.writeStk
  repeat' (with_reducible first
    | exact Changes.refl _ _
    | (show Nat.lor _ _ = _; decide)
    | apply Changes.ite
    | apply Changes.after (State.putReg_changes ..)
    | apply Changes.after (State.setPage_changes ..)
    | intro _)

theorem State.writePort_changes (s : State) (i : PageInfo) (pg off : Nat) (d : RegDef) (v : Nat) :
    Changes 0xf61799c31500 s (State.writePort s i pg off d v) := by
  unfold State.writePort
  repeat' (with_reducible first
    | exact Changes.refl _ _
    | (show Nat.lor _ _ = _; decide)
    | apply Changes.ite
    | apply Changes.after (State.putReg_changes ..)
    | apply Changes.after (State.portRetrain_changes ..)
    | apply Changes.after (State.portEnable_changes ..)
    | intro _)

theorem State.writeDrt_changes (s : State) (pg off : Nat) (d : RegDef) (v : Nat) :
    Changes 0x220108011400 s (State.writeDrt s pg off d v) := by
  unfold State.writeDrt
  repeat' (with_reducible first
    | exact Changes.refl _ _
    | (show Nat.lor _ _ = _; decide)
    | apply Changes.ite
    | apply Changes.after (State.putReg_changes ..)
    | apply Changes.after (State.setBudget_changes ..)
    | apply Changes.after (State.setPrsv_changes ..)
    | apply Changes.after (State.setSurge_changes ..)
    | apply Changes.after (State.freshPar_changes ..)
    | intro _)

theorem State.writeBeatSlot_changes (s : State) (k : Nat) (hi : Bool) (v : Nat) :
    Changes 0xb787747fb400 s (State.writeBeatSlot s k hi v) := by
  unfold State.writeBeatSlot
  repeat' (with_reducible first
    | exact Changes.refl _ _
    | (show Nat.lor _ _ = _; decide)
    | apply Changes.ite
    | apply Changes.after (State.putReg_changes ..)
    | apply Changes.after (State.moveBeat_changes ..)
    | intro _)

theorem State.writeBeat_changes (s : State) (pg off : Nat) (d : RegDef) (v : Nat) :
    Changes 0xb787747fb400 s (State.writeBeat s pg off d v) := by
  unfold State.writeBeat
  repeat' (with_reducible first
    | exact Changes.refl _ _
    | (show Nat.lor _ _ = _; decide)
    | apply Changes.ite
    | apply Changes.after (State.putReg_changes ..)
    | apply Changes.after (State.writeBeatSlot_changes ..)
    | apply Changes.after (State.reSource_changes ..)
    | intro _
    | split)

theorem State.writeRst_changes (s : State) (m : Bool) (pg off : Nat) (d : RegDef) (v : Nat) :
    Changes 0xffffffffffe0 s (State.writeRst s m pg off d v) := by
  unfold State.writeRst
  repeat' (with_reducible first
    | exact Changes.refl _ _
    | (show Nat.lor _ _ = _; decide)
    | apply Changes.ite
    | apply Changes.after (State.putReg_changes ..)
    | apply Changes.after (State.kick_changes ..)
    | apply Changes.after (State.goPart_changes ..)
    | apply Changes.after (State.releaseBlock_changes ..)
    | apply Changes.after (State.pgErr_changes ..)
    | apply Changes.after (State.goDie_changes ..)
    | apply Changes.foldl
    | intro _
    | split
    | dsimp only
    | ((fail_if_success (apply Changes.after (Changes.set_snapQ _ _))); apply Changes.after (Changes.set_ember _ _)))

theorem State.writePwr_changes (s : State) (pg off : Nat) (d : RegDef) (v : Nat) :
    Changes 0x220108031500 s (State.writePwr s pg off d v) := by
  unfold State.writePwr
  repeat' (with_reducible first
    | exact Changes.refl _ _
    | (show Nat.lor _ _ = _; decide)
    | apply Changes.ite
    | apply Changes.after (State.putReg_changes ..)
    | apply Changes.after (State.idleLower_changes ..)
    | apply Changes.after (State.writeDom_changes ..)
    | apply Changes.after (State.idleRaise_changes ..)
    | apply Changes.foldl
    | intro _
    | split)

theorem State.writeTrcCtl_changes (s : State) (die pg : Nat) (d : RegDef) (v : Nat) :
    Changes 0x220100011400 s (State.writeTrcCtl s die pg d v) := by
  unfold State.writeTrcCtl
  repeat' (with_reducible first
    | exact Changes.refl _ _
    | (show Nat.lor _ _ = _; decide)
    | apply Changes.ite
    | apply Changes.after (State.putReg_changes ..)
    | apply Changes.after (State.traceFlush_changes ..)
    | apply Changes.after (State.pgErr_changes ..)
    | apply Changes.after (State.setTrc_changes ..)
    | intro _)

theorem State.writeFctl_changes (s : State) (pg : Nat) (d : RegDef) (v : Nat) :
    Changes 0x260100011400 s (State.writeFctl s pg d v) := by
  unfold State.writeFctl
  repeat' (with_reducible first
    | exact Changes.refl _ _
    | (show Nat.lor _ _ = _; decide)
    | apply Changes.ite
    | apply Changes.after (State.putReg_changes ..)
    | apply Changes.after (State.fzThaw_changes ..)
    | apply Changes.after (State.fzSet_changes ..)
    | intro _)

theorem State.writeTrc_changes (s : State) (die pg off : Nat) (d : RegDef) (v : Nat) :
    Changes 0x260100011400 s (State.writeTrc s die pg off d v) := by
  unfold State.writeTrc
  repeat' (with_reducible first
    | exact Changes.refl _ _
    | (show Nat.lor _ _ = _; decide)
    | apply Changes.ite
    | apply Changes.after (State.putReg_changes ..)
    | apply Changes.after (State.writeFctl_changes ..)
    | apply Changes.after (State.writeTrcCtl_changes ..)
    | intro _
    | split)

theorem State.writeFw_changes (s : State) (pg off : Nat) (d : RegDef) (v : Nat) :
    Changes 0x318120011406 s (State.writeFw s pg off d v) := by
  unfold State.writeFw
  repeat' (with_reducible first
    | apply Changes.getD (State.fwAbort_changes ..)
    | apply Changes.getD (State.fwNow_changes ..)
    | apply Changes.getD (State.fwCommit_changes ..)
    | exact Changes.refl _ _
    | (show Nat.lor _ _ = _; decide)
    | apply Changes.ite
    | apply Changes.after (State.putReg_changes ..)
    | intro _)

theorem State.writeBlock_changes (s : State) (m : Bool) (i : PageInfo) (pg off : Nat) (d : RegDef) (v : Nat) :
    Changes 0xffffffffffe6 s (State.writeBlock s m i pg off d v) := by
  unfold State.writeBlock
  repeat' (with_reducible first
    | exact Changes.refl _ _
    | (show Nat.lor _ _ = _; decide)
    | apply Changes.ite
    | apply Changes.after (State.putReg_changes ..)
    | apply Changes.after (State.writeDrain_changes ..)
    | apply Changes.after (State.writeRst_changes ..)
    | apply Changes.after (State.writePwr_changes ..)
    | apply Changes.after (State.writeAq_changes ..)
    | apply Changes.after (State.writeStk_changes ..)
    | apply Changes.after (State.writeTrc_changes ..)
    | apply Changes.after (State.putFw_changes ..)
    | apply Changes.after (State.writeBeat_changes ..)
    | apply Changes.after (State.writeDrt_changes ..)
    | apply Changes.after (State.pgErr_changes ..)
    | apply Changes.after (State.writeFw_changes ..)
    | apply Changes.after (State.enumHead_changes ..)
    | apply Changes.after (State.writeSplit_changes ..)
    | apply Changes.after (State.writePort_changes ..)
    | intro _
    | split)

theorem State.writeReg_changes (s : State) (prv : Priv) (a size v : Nat) :
    Changes 0xffffffffffe6 s (State.writeReg s prv a size v).1 := by
  unfold State.writeReg
  repeat' (with_reducible first
    | exact Changes.refl _ _
    | (show Nat.lor _ _ = _; decide)
    | apply Changes.after (State.writeBlock_changes ..)
    | apply Changes.after (State.writeCommon_changes ..)
    | (have hh := errAll.get (State.reach_changes ..) ‹_ = Except.error _›; apply Changes.after hh; clear hh)
    | split)

theorem State.hostWrite_changes (s : State) (prv : Priv) (a size v : Nat) :
    Changes 0xffffffffffe6 s (State.hostWrite s prv a size v) := by
  unfold State.hostWrite
  repeat' (with_reducible first
    | exact Changes.refl _ _
    | (show Nat.lor _ _ = _; decide)
    | apply Changes.ite
    | apply Changes.after (State.addOut_changes ..)
    | apply Changes.after (State.writeReg_changes ..)
    | intro _)

theorem State.pageWrite_changes (s : State) (prv : Priv) (pg off v : Nat) :
    Changes 0xffffffffffe6 s (State.pageWrite s prv pg off v) := by
  unfold State.pageWrite
  repeat' (with_reducible first
    | exact Changes.refl _ _
    | (show Nat.lor _ _ = _; decide)
    | apply Changes.after (State.hostWrite_changes ..))

theorem State.capture_changes (s : State) (pg : Nat) :
    Changes 0x100011400 s (State.capture s pg) := by
  unfold State.capture
  repeat' (with_reducible first
    | exact Changes.refl _ _
    | (show Nat.lor _ _ = _; decide)
    | apply Changes.ite
    | apply Changes.after (State.raise_changes ..)
    | apply Changes.after (State.setPage_changes ..)
    | intro _
    | split)

theorem State.upsetWord_changes (s : State) (pg : Nat) (x : Nat × Nat) :
    Changes 0x100011400 s (State.upsetWord s pg x) := by
  unfold State.upsetWord
  repeat' (with_reducible first
    | exact Changes.refl _ _
    | (show Nat.lor _ _ = _; decide)
    | apply Changes.after (State.pageIrq_changes ..)
    | split)

theorem State.useReset_changes (s : State) (i : PageInfo) (off : Nat) :
    Changes 0xf61799c31500 s (State.useReset s i off) := by
  unfold State.useReset
  repeat' (with_reducible first
    | exact Changes.refl _ _
    | (show Nat.lor _ _ = _; decide)
    | apply Changes.ite
    | apply Changes.after (State.startDom_changes ..)
    | apply Changes.after (State.setQueue_changes ..)
    | apply Changes.after (State.setBeat_changes ..)
    | apply Changes.after (State.setDrt_changes ..)
    | apply Changes.after (State.ledgerFell_changes ..)
    | apply Changes.after (State.idleRaise_changes ..)
    | apply Changes.after (State.reSource_changes ..)
    | apply Changes.after (State.portEnable_changes ..)
    | apply Changes.after (State.reapQueue_changes ..)
    | apply Changes.foldl
    | intro _
    | split)

theorem execPgLockWrite_changes (prv : Priv) (pg : Nat) (val : Word) (s : State) :
    nextAll (Changes 0xffffffffffe6 s) (execPgLockWrite prv pg val s) := by
  unfold execPgLockWrite
  repeat' (with_reducible first
    | exact Changes.refl _ _
    | (show Nat.lor _ _ = _; decide)
    | apply nextAll.next
    | apply Changes.after (State.pageWrite_changes ..))

theorem execUnlockArmExpiry_changes (pg : Nat) (s : State) :
    nextAll (Changes 0x400 s) (execUnlockArmExpiry pg s) := by
  unfold execUnlockArmExpiry
  repeat' (with_reducible first
    | exact Changes.refl _ _
    | (show Nat.lor _ _ = _; decide)
    | apply nextAll.next
    | apply Changes.after (State.setPage_changes ..))

theorem execPgCtlSrst_changes (prv : Priv) (pg : Nat) (s : State) :
    nextAll (Changes 0xffffffffffe6 s) (execPgCtlSrst prv pg s) := by
  unfold execPgCtlSrst
  repeat' (with_reducible first
    | exact Changes.refl _ _
    | (show Nat.lor _ _ = _; decide)
    | apply nextAll.next
    | apply Changes.after (State.pageWrite_changes ..))

theorem execPgCtlPinj_changes (prv : Priv) (pg : Nat) (s : State) :
    nextAll (Changes 0xffffffffffe6 s) (execPgCtlPinj prv pg s) := by
  unfold execPgCtlPinj
  repeat' (with_reducible first
    | exact Changes.refl _ _
    | (show Nat.lor _ _ = _; decide)
    | apply nextAll.next
    | apply Changes.after (State.pageWrite_changes ..))

theorem execPgCtlCntclr_changes (prv : Priv) (pg : Nat) (s : State) :
    nextAll (Changes 0xffffffffffe6 s) (execPgCtlCntclr prv pg s) := by
  unfold execPgCtlCntclr
  repeat' (with_reducible first
    | exact Changes.refl _ _
    | (show Nat.lor _ _ = _; decide)
    | apply nextAll.next
    | apply Changes.after (State.pageWrite_changes ..))

theorem execPgErrClear_changes (prv : Priv) (pg : Nat) (s : State) :
    nextAll (Changes 0xffffffffffe6 s) (execPgErrClear prv pg s) := by
  unfold execPgErrClear
  repeat' (with_reducible first
    | exact Changes.refl _ _
    | (show Nat.lor _ _ = _; decide)
    | apply nextAll.next
    | apply Changes.after (State.pageWrite_changes ..))

theorem execPgIrqRawClear_changes (prv : Priv) (pg : Nat) (val : Word) (s : State) :
    nextAll (Changes 0xffffffffffe6 s) (execPgIrqRawClear prv pg val s) := by
  unfold execPgIrqRawClear
  repeat' (with_reducible first
    | exact Changes.refl _ _
    | (show Nat.lor _ _ = _; decide)
    | apply nextAll.next
    | apply Changes.after (State.pageWrite_changes ..))

theorem execPgSnapWrite_changes (prv : Priv) (pg : Nat) (val : Word) (s : State) :
    nextAll (Changes 0xffffffffffe6 s) (execPgSnapWrite prv pg val s) := by
  unfold execPgSnapWrite
  repeat' (with_reducible first
    | exact Changes.refl _ _
    | (show Nat.lor _ _ = _; decide)
    | apply nextAll.next
    | apply Changes.after (State.pageWrite_changes ..))

theorem execSnapshotCapture_changes (s : State) :
    nextAll (Changes 0x80100011400 s) (execSnapshotCapture s) := by
  unfold execSnapshotCapture
  repeat' (with_reducible first
    | exact Changes.refl _ _
    | (show Nat.lor _ _ = _; decide)
    | apply nextAll.next
    | apply Changes.after (State.setPage_changes ..)
    | apply Changes.after (State.capture_changes ..)
    | apply Changes.foldl
    | intro _
    | split
    | ((fail_if_success (apply Changes.after (Changes.set_jtag _ _))); apply Changes.after (Changes.set_snapQ _ _)))

theorem execParityScan_changes (pg : Nat) (upset : List (Nat × Nat)) (s : State) :
    nextAll (Changes 0xf61799c31500 s) (execParityScan pg upset s) := by
  unfold execParityScan
  repeat' (with_reducible first
    | exact Changes.refl _ _
    | (show Nat.lor _ _ = _; decide)
    | apply nextAll.next
    | apply nextAll.ite
    | apply Changes.ite
    | apply Changes.after (State.useReset_changes ..)
    | apply Changes.after (State.parityFound_changes ..)
    | apply Changes.after (State.upsetWord_changes ..)
    | apply Changes.foldl
    | intro _
    | split)

theorem execCounterLowRead_changes (prv : Priv) (pg off : Nat) (s : State) :
    nextAll (Changes 0x300100011400 s) (execCounterLowRead prv pg off s) := by
  unfold execCounterLowRead
  repeat' (with_reducible first
    | exact Changes.refl _ _
    | (show Nat.lor _ _ = _; decide)
    | apply nextAll.next
    | apply Changes.ite
    | apply Changes.after (State.hostRead_changes ..)
    | intro _)

theorem execBeatSlotLoRead_changes (prv : Priv) (k : Nat) (s : State) :
    nextAll (Changes 0x300100011400 s) (execBeatSlotLoRead prv k s) := by
  unfold execBeatSlotLoRead
  repeat' (with_reducible first
    | exact Changes.refl _ _
    | (show Nat.lor _ _ = _; decide)
    | apply nextAll.next
    | apply Changes.ite
    | apply Changes.after (State.hostRead_changes ..)
    | intro _)

theorem execTrcLoRead_changes (prv : Priv) (pg off : Nat) (s : State) :
    nextAll (Changes 0x300100011400 s) (execTrcLoRead prv pg off s) := by
  unfold execTrcLoRead
  repeat' (with_reducible first
    | exact Changes.refl _ _
    | (show Nat.lor _ _ = _; decide)
    | apply nextAll.next
    | apply Changes.ite
    | apply Changes.after (State.hostRead_changes ..)
    | intro _
    | split)

theorem execBeatSlotWrite_changes (prv : Priv) (k : Nat) (hi : Bool) (val : Word) (s : State) :
    nextAll (Changes 0xffffffffffe6 s) (execBeatSlotWrite prv k hi val s) := by
  unfold execBeatSlotWrite
  repeat' (with_reducible first
    | exact Changes.refl _ _
    | (show Nat.lor _ _ = _; decide)
    | apply nextAll.next
    | apply Changes.ite
    | apply Changes.after (State.pageWrite_changes ..)
    | intro _)

theorem execMgrAqCfgWrite_changes (prv : Priv) (val : Word) (s : State) :
    nextAll (Changes 0xffffffffffe6 s) (execMgrAqCfgWrite prv val s) := by
  unfold execMgrAqCfgWrite
  repeat' (with_reducible first
    | exact Changes.refl _ _
    | (show Nat.lor _ _ = _; decide)
    | apply nextAll.next
    | apply Changes.after (State.pageWrite_changes ..))

theorem execRegisterWrite_changes (prv : Priv) (addr : Addr) (size : Nat) (val : Word64) (s : State) :
    nextAll (Changes 0xffffffffffe6 s) (execRegisterWrite prv addr size val s) := by
  unfold execRegisterWrite
  repeat' (with_reducible first
    | exact Changes.refl _ _
    | (show Nat.lor _ _ = _; decide)
    | apply nextAll.next
    | apply Changes.after (State.hostWrite_changes ..))

theorem execPwrDomWrite_changes (prv : Priv) (k : Nat) (val : Word) (s : State) :
    nextAll (Changes 0xffffffffffe6 s) (execPwrDomWrite prv k val s) := by
  unfold execPwrDomWrite
  repeat' (with_reducible first
    | exact Changes.refl _ _
    | (show Nat.lor _ _ = _; decide)
    | apply nextAll.next
    | apply Changes.ite
    | apply Changes.after (State.pageWrite_changes ..)
    | intro _)

theorem execRstPartGo_changes (prv : Priv) (val : Word) (s : State) :
    nextAll (Changes 0xffffffffffe6 s) (execRstPartGo prv val s) := by
  unfold execRstPartGo
  repeat' (with_reducible first
    | exact Changes.refl _ _
    | (show Nat.lor _ _ = _; decide)
    | apply nextAll.next
    | apply Changes.after (State.pageWrite_changes ..))

theorem execRstDieGo_changes (prv : Priv) (val : Word) (s : State) :
    nextAll (Changes 0xffffffffffe6 s) (execRstDieGo prv val s) := by
  unfold execRstDieGo
  repeat' (with_reducible first
    | exact Changes.refl _ _
    | (show Nat.lor _ _ = _; decide)
    | apply nextAll.next
    | apply Changes.after (State.pageWrite_changes ..))

theorem execRstWdtkWrite_changes (prv : Priv) (val : Word) (s : State) :
    nextAll (Changes 0xffffffffffe6 s) (execRstWdtkWrite prv val s) := by
  unfold execRstWdtkWrite
  repeat' (with_reducible first
    | exact Changes.refl _ _
    | (show Nat.lor _ _ = _; decide)
    | apply nextAll.next
    | apply Changes.after (State.pageWrite_changes ..))

theorem execRstRclrWrite_changes (prv : Priv) (val : Word) (s : State) :
    nextAll (Changes 0xffffffffffe6 s) (execRstRclrWrite prv val s) := by
  unfold execRstRclrWrite
  repeat' (with_reducible first
    | exact Changes.refl _ _
    | (show Nat.lor _ _ = _; decide)
    | apply nextAll.next
    | apply Changes.after (State.pageWrite_changes ..))

theorem execDrtBudgetWrite_changes (prv : Priv) (val : Word) (s : State) :
    nextAll (Changes 0xffffffffffe6 s) (execDrtBudgetWrite prv val s) := by
  unfold execDrtBudgetWrite
  repeat' (with_reducible first
    | exact Changes.refl _ _
    | (show Nat.lor _ _ = _; decide)
    | apply nextAll.next
    | apply Changes.after (State.pageWrite_changes ..))

theorem execDrtSurgeWrite_changes (prv : Priv) (val : Word) (s : State) :
    nextAll (Changes 0xffffffffffe6 s) (execDrtSurgeWrite prv val s) := by
  unfold execDrtSurgeWrite
  repeat' (with_reducible first
    | exact Changes.refl _ _
    | (show Nat.lor _ _ = _; decide)
    | apply nextAll.next
    | apply Changes.after (State.pageWrite_changes ..))

theorem execDrtPrsvWrite_changes (prv : Priv) (k : Nat) (val : Word) (s : State) :
    nextAll (Changes 0xffffffffffe6 s) (execDrtPrsvWrite prv k val s) := by
  unfold execDrtPrsvWrite
  repeat' (with_reducible first
    | exact Changes.refl _ _
    | (show Nat.lor _ _ = _; decide)
    | apply nextAll.next
    | apply Changes.ite
    | apply Changes.after (State.pageWrite_changes ..)
    | intro _)

theorem execHlkCfgRetrain_changes (prv : Priv) (port : Nat) (s : State) :
    nextAll (Changes 0xffffffffffe6 s) (execHlkCfgRetrain prv port s) := by
  unfold execHlkCfgRetrain
  repeat' (with_reducible first
    | exact Changes.refl _ _
    | (show Nat.lor _ _ = _; decide)
    | apply nextAll.next
    | apply Changes.ite
    | apply Changes.after (State.pageWrite_changes ..)
    | intro _)

theorem execHlkCfgEn_changes (prv : Priv) (port : Nat) (val : Word) (s : State) :
    nextAll (Changes 0xffffffffffe6 s) (execHlkCfgEn prv port val s) := by
  unfold execHlkCfgEn
  repeat' (with_reducible first
    | exact Changes.refl _ _
    | (show Nat.lor _ _ = _; decide)
    | apply nextAll.next
    | apply Changes.ite
    | apply Changes.after (State.pageWrite_changes ..)
    | intro _)

theorem execRdpCfgRetrain_changes (prv : Priv) (port : Nat) (s : State) :
    nextAll (Changes 0xffffffffffe6 s) (execRdpCfgRetrain prv port s) := by
  unfold execRdpCfgRetrain
  repeat' (with_reducible first
    | exact Changes.refl _ _
    | (show Nat.lor _ _ = _; decide)
    | apply nextAll.next
    | apply Changes.ite
    | apply Changes.after (State.pageWrite_changes ..)
    | intro _)

theorem execRdpCfgEn_changes (prv : Priv) (port : Nat) (val : Word) (s : State) :
    nextAll (Changes 0xffffffffffe6 s) (execRdpCfgEn prv port val s) := by
  unfold execRdpCfgEn
  repeat' (with_reducible first
    | exact Changes.refl _ _
    | (show Nat.lor _ _ = _; decide)
    | apply nextAll.next
    | apply Changes.ite
    | apply Changes.after (State.pageWrite_changes ..)
    | intro _)

theorem execSvcCfgEnum_changes (prv : Priv) (s : State) :
    nextAll (Changes 0xffffffffffe6 s) (execSvcCfgEnum prv s) := by
  unfold execSvcCfgEnum
  repeat' (with_reducible first
    | exact Changes.refl _ _
    | (show Nat.lor _ _ = _; decide)
    | apply nextAll.next
    | apply Changes.after (State.pageWrite_changes ..))

theorem execFwCtlCommit_changes (prv : Priv) (s : State) :
    nextAll (Changes 0xffffffffffe6 s) (execFwCtlCommit prv s) := by
  unfold execFwCtlCommit
  repeat' (with_reducible first
    | exact Changes.refl _ _
    | (show Nat.lor _ _ = _; decide)
    | apply nextAll.next
    | apply Changes.after (State.pageWrite_changes ..))

theorem execFwCtlActnow_changes (prv : Priv) (s : State) :
    nextAll (Changes 0xffffffffffe6 s) (execFwCtlActnow prv s) := by
  unfold execFwCtlActnow
  repeat' (with_reducible first
    | exact Changes.refl _ _
    | (show Nat.lor _ _ = _; decide)
    | apply nextAll.next
    | apply Changes.after (State.pageWrite_changes ..))

theorem execFwCtlAbort_changes (prv : Priv) (s : State) :
    nextAll (Changes 0xffffffffffe6 s) (execFwCtlAbort prv s) := by
  unfold execFwCtlAbort
  repeat' (with_reducible first
    | exact Changes.refl _ _
    | (show Nat.lor _ _ = _; decide)
    | apply nextAll.next
    | apply Changes.after (State.pageWrite_changes ..))

theorem execTrcFctlGo_changes (prv : Priv) (val : Word) (s : State) :
    nextAll (Changes 0xffffffffffe6 s) (execTrcFctlGo prv val s) := by
  unfold execTrcFctlGo
  repeat' (with_reducible first
    | exact Changes.refl _ _
    | (show Nat.lor _ _ = _; decide)
    | apply nextAll.next
    | apply Changes.after (State.pageWrite_changes ..))

theorem execTrcFctlThaw_changes (prv : Priv) (val : Word) (s : State) :
    nextAll (Changes 0xffffffffffe6 s) (execTrcFctlThaw prv val s) := by
  unfold execTrcFctlThaw
  repeat' (with_reducible first
    | exact Changes.refl _ _
    | (show Nat.lor _ _ = _; decide)
    | apply nextAll.next
    | apply Changes.after (State.pageWrite_changes ..))

theorem execTrcFctlSgo_changes (prv : Priv) (val : Word) (s : State) :
    nextAll (Changes 0xffffffffffe6 s) (execTrcFctlSgo prv val s) := by
  unfold execTrcFctlSgo
  repeat' (with_reducible first
    | exact Changes.refl _ _
    | (show Nat.lor _ _ = _; decide)
    | apply nextAll.next
    | apply Changes.after (State.pageWrite_changes ..))

theorem execTrcFctlSthaw_changes (prv : Priv) (val : Word) (s : State) :
    nextAll (Changes 0xffffffffffe6 s) (execTrcFctlSthaw prv val s) := by
  unfold execTrcFctlSthaw
  repeat' (with_reducible first
    | exact Changes.refl _ _
    | (show Nat.lor _ _ = _; decide)
    | apply nextAll.next
    | apply Changes.after (State.pageWrite_changes ..))

theorem execFrznEdge_changes (s : State) :
    nextAll (Changes 0x260100011400 s) (execFrznEdge s) := by
  unfold execFrznEdge
  repeat' (with_reducible first
    | exact Changes.refl _ _
    | (show Nat.lor _ _ = _; decide)
    | apply nextAll.next
    | apply Changes.ite
    | apply Changes.after (State.fzSet_changes ..)
    | intro _)

theorem execTrcCtlWrite_changes (prv : Priv) (die : Nat) (val : Word) (s : State) :
    nextAll (Changes 0xffffffffffe6 s) (execTrcCtlWrite prv die val s) := by
  unfold execTrcCtlWrite
  repeat' (with_reducible first
    | exact Changes.refl _ _
    | (show Nat.lor _ _ = _; decide)
    | apply nextAll.next
    | apply Changes.ite
    | apply Changes.after (State.pageWrite_changes ..)
    | intro _)

theorem execTraceFlush_changes (die : Nat) (s : State) :
    nextAll (Changes 0x220000000000 s) (execTraceFlush die s) := by
  unfold execTraceFlush
  repeat' (with_reducible first
    | exact Changes.refl _ _
    | (show Nat.lor _ _ = _; decide)
    | apply nextAll.next
    | apply Changes.ite
    | apply Changes.after (State.traceFlush_changes ..)
    | intro _)

theorem execTraceLineWrite_changes (die : Nat) (ok : Bool) (s : State) :
    nextAll (Changes 0x820700011400 s) (execTraceLineWrite die ok s) := by
  unfold execTraceLineWrite
  repeat' (with_reducible first
    | exact Changes.refl _ _
    | (show Nat.lor _ _ = _; decide)
    | apply nextAll.next
    | apply Changes.ite
    | apply Changes.after (State.traceLine_changes ..)
    | intro _)

theorem execBackgroundScrub_changes (cord line : Nat) (err : Option (Nat × List Nat)) (s : State) :
    nextAll (Changes 0x800b00011400 s) (execBackgroundScrub cord line err s) := by
  unfold execBackgroundScrub
  repeat' (with_reducible first
    | exact Changes.refl _ _
    | (show Nat.lor _ _ = _; decide)
    | apply nextAll.next
    | apply nextAll.ite
    | apply Changes.ite
    | apply Changes.after (State.ueFound_changes ..)
    | apply Changes.after (State.corrected_changes ..)
    | apply Changes.after (State.upset_changes ..)
    | apply Changes.after (State.count_changes ..)
    | intro _
    | split
    | ((fail_if_success (apply Changes.after (Changes.set_snapQ _ _))); apply Changes.after (Changes.set_scrubPos _ _)))

end Sys2Proof.Machine
end

