-- ==== Sys2Proof/Laws/Chain.lean ====
section
/-! SUPPORT. What each operation of Machine/Chain.lean may change (the masks number the fields of State in order). -/

set_option Elab.async false

namespace Sys2Proof.Machine

theorem State.setChain_changes (s : State) (c : Chain) :
    Changes 0x2000000000 s (State.setChain s c) := by
  unfold State.setChain
  repeat' (with_reducible first
    | exact Changes.refl _ _
    | (show Nat.lor _ _ = _; decide)
    | ((fail_if_success (apply Changes.after (Changes.set_snapQ _ _))); apply Changes.after (Changes.set_chain _ _)))

theorem State.upSeen_changes (s : State) :
    Changes 0x2000000000 s (State.upSeen s) := by
  unfold State.upSeen
  repeat' (with_reducible first
    | exact Changes.refl _ _
    | (show Nat.lor _ _ = _; decide)
    | apply Changes.after (State.setChain_changes ..))

theorem State.frameIn_changes (s : State) (fromUp : Bool) (f : List Byte) :
    Changes 0x2100011400 s (State.frameIn s fromUp f) := by
  unfold State.frameIn
  repeat' (with_reducible first
    | exact Changes.refl _ _
    | (show Nat.lor _ _ = _; decide)
    | apply Changes.ite
    | apply Changes.after (State.upSeen_changes ..)
    | apply Changes.after (State.count_changes ..)
    | intro _)

theorem State.relayOn_changes (s : State) (up : Bool) (f : List Byte) :
    Changes 0x100100011400 s (State.relayOn s up f) := by
  unfold State.relayOn
  repeat' (with_reducible first
    | exact Changes.refl _ _
    | (show Nat.lor _ _ = _; decide)
    | apply Changes.after (State.addOut_changes ..)
    | apply Changes.after (State.count_changes ..))

theorem State.enumOver_changes (s : State) :
    Changes 0x2000000000 s (State.enumOver s) := by
  unfold State.enumOver
  repeat' (with_reducible first
    | exact Changes.refl _ _
    | (show Nat.lor _ _ = _; decide)
    | apply Changes.ite
    | apply Changes.after (State.setChain_changes ..)
    | intro _)

theorem State.takeAddr_changes (s : State) (n : Nat) :
    Changes 0x302100011420 s (State.takeAddr s n) := by
  unfold State.takeAddr
  repeat' (with_reducible first
    | exact Changes.refl _ _
    | (show Nat.lor _ _ = _; decide)
    | apply Changes.after (State.sendEnum_changes ..)
    | apply Changes.after (State.chainEvent_changes ..)
    | split
    | dsimp only
    | ((fail_if_success (apply Changes.after (Changes.set_snapQ _ _))); apply Changes.after (Changes.set_ember_chain _ _ _)))

theorem State.answer_changes (s : State) (f : List Byte) (code : BitVec 16) (payload : List Byte) :
    Changes 0x102100011400 s (State.answer s f code payload) := by
  unfold State.answer
  repeat' (with_reducible first
    | exact Changes.refl _ _
    | (show Nat.lor _ _ = _; decide)
    | apply Changes.ite
    | apply Changes.after (State.sendFrame_changes ..)
    | apply Changes.after (State.setChain_changes ..)
    | intro _)

/-- A chain frame changes what its action changes, beside the relay (R434, R435). -/
theorem State.onFrame_changes {m : Nat} (s : State) (f : List Byte) (mine : Bool) (act : State → State)
    (hr : ∀ t, Changes m t (act t)) (hm : Nat.lor 0x102100011400 m = m := by decide) : Changes m s (s.onFrame f mine act) := by
  have base : ∀ t, Changes 0x102100011400 s t → Changes m s t := fun t h => h.widen hm
  unfold State.onFrame
  dsimp only
  split
  · split
    · split
      · refine (base _ ?_).andThen (hr _) (Nat.or_self m)
        split
        · exact (State.frameIn_changes ..).widen.andThen (State.relayOn_changes ..)
        · exact (State.frameIn_changes ..).widen
      · exact Changes.refl _ _
    · exact base _ (State.frameIn_changes ..).widen
  · exact Changes.refl _ _

/-- A request changes what its action changes, beside its response (R435). -/
theorem State.request_changes {m : Nat} (s : State) (f : List Byte) (mine : Bool) (act : State → State × BitVec 16 × List Byte)
    (hr : ∀ t, Changes m t (act t).1) (hm : Nat.lor 0x102100011400 m = m := by decide) : Changes m s (s.request f mine act) := by
  unfold State.request
  refine State.onFrame_changes s f mine _ (fun t => ?_) ((Changes.mask_trans (by decide) hm))
  dsimp only
  split
  · exact ((State.sendFrame_changes ..).widen (a := _) (Changes.mask_trans (by decide) hm)).andThen (State.count_changes ..) (Changes.mask_trans (by decide) hm)
  · exact (hr t).andThen (State.answer_changes ..) (Changes.mask_trans (by decide) hm)

/-- A firmware request changes what its action changes, beside its response (R452). -/
theorem State.fwctl_changes {m : Nat} (s : State) (f : List Byte) (op : Nat) (act : State → Option State)
    (hr : ∀ t, someAll (Changes m t) (act t)) (hm : Nat.lor 0x102100011400 m = m := by decide) : Changes m s (s.fwctl f op act) := by
  unfold State.fwctl
  refine State.request_changes s f _ _ (fun t => ?_) hm
  split
  · exact Changes.refl _ _
  · split
    · next h => exact (hr t).get h
    · exact Changes.refl _ _

theorem execFrameRelay_changes (fromUp : Bool) (frame : List Byte) (s : State) :
    nextAll (Changes 0x102100011400 s) (execFrameRelay fromUp frame s) := by
  unfold execFrameRelay
  repeat' (with_reducible first
    | exact Changes.refl _ _
    | (show Nat.lor _ _ = _; decide)
    | apply nextAll.next
    | apply nextAll.ite
    | apply Changes.ite
    | apply Changes.after (State.frameIn_changes ..)
    | apply Changes.after (State.enumOver_changes ..)
    | apply Changes.after (State.relayOn_changes ..)
    | intro _)

theorem execEnumFrame_changes (fromUp : Bool) (frame : List Byte) (s : State) :
    nextAll (Changes 0x302100011420 s) (execEnumFrame fromUp frame s) := by
  unfold execEnumFrame
  repeat' (with_reducible first
    | exact Changes.refl _ _
    | (show Nat.lor _ _ = _; decide)
    | apply nextAll.next
    | apply nextAll.ite
    | apply Changes.after (State.takeAddr_changes ..)
    | apply Changes.after (State.frameIn_changes ..)
    | apply Changes.after (State.chainEvent_changes ..)
    | apply Changes.after (State.count_changes ..)
    | intro _
    | dsimp only
    | ((fail_if_success (apply Changes.after (Changes.set_snapQ _ _))); apply Changes.after (Changes.set_ember_chain _ _ _)))

theorem execEnumDone_changes (received : Option (List Byte)) (s : State) :
    nextAll (Changes 0x302100011400 s) (execEnumDone received s) := by
  unfold execEnumDone
  repeat' (with_reducible first
    | exact Changes.refl _ _
    | (show Nat.lor _ _ = _; decide)
    | apply nextAll.next
    | apply nextAll.ite
    | apply Changes.after (State.sendFrame_changes ..)
    | apply Changes.after (State.frameIn_changes ..)
    | apply Changes.after (State.setChain_changes ..)
    | apply Changes.after (State.relayOn_changes ..)
    | apply Changes.after (State.takeFree_changes ..)
    | intro _
    | split)

theorem execChainUpPortLost_changes (s : State) :
    nextAll (Changes 0x2100011000 s) (execChainUpPortLost s) := by
  unfold execChainUpPortLost
  repeat' (with_reducible first
    | exact Changes.refl _ _
    | (show Nat.lor _ _ = _; decide)
    | apply nextAll.next
    | apply nextAll.ite
    | apply Changes.after (State.setChain_changes ..)
    | apply Changes.after (State.chainEvent_changes ..)
    | intro _)

theorem execRegRd_changes (frame : List Byte) (s : State) :
    nextAll (Changes 0x302100011400 s) (execRegRd frame s) := by
  unfold execRegRd
  repeat' (with_reducible first
    | (have hh := Changes.fst (State.readReg_changes ..) ‹_ = (_, _)›; apply Changes.after hh; clear hh)
    | exact Changes.refl _ _
    | (show Nat.lor _ _ = _; decide)
    | apply nextAll.next
    | apply State.request_changes
    | intro _
    | split)

theorem execRegWr_changes (frame : List Byte) (s : State) :
    nextAll (Changes 0xffffffffffe6 s) (execRegWr frame s) := by
  unfold execRegWr
  repeat' (with_reducible first
    | exact Changes.refl _ _
    | (show Nat.lor _ _ = _; decide)
    | apply nextAll.next
    | apply State.request_changes
    | apply Changes.after (State.writeReg_changes ..)
    | intro _
    | split)

theorem execChainReset_changes (frame : List Byte) (s : State) :
    nextAll (Changes 0xffffffffffe0 s) (execChainReset frame s) := by
  unfold execChainReset
  repeat' (with_reducible first
    | exact Changes.refl _ _
    | (show Nat.lor _ _ = _; decide)
    | apply nextAll.next
    | apply State.onFrame_changes
    | apply Changes.after (State.assertSource_changes ..)
    | intro _)

theorem execImgFrame_changes (frame : List Byte) (s : State) :
    nextAll (Changes 0x312100011400 s) (execImgFrame frame s) := by
  unfold execImgFrame
  repeat' (with_reducible first
    | exact Changes.refl _ _
    | (show Nat.lor _ _ = _; decide)
    | apply nextAll.next
    | apply State.onFrame_changes
    | apply Changes.after (State.takeImg_changes ..)
    | intro _)

theorem execPing_changes (frame : List Byte) (s : State) :
    nextAll (Changes 0x102100011400 s) (execPing frame s) := by
  unfold execPing
  repeat' (with_reducible first
    | exact Changes.refl _ _
    | (show Nat.lor _ _ = _; decide)
    | apply nextAll.next
    | apply State.request_changes
    | intro _)

theorem execFwctlBegin_changes (frame : List Byte) (s : State) :
    nextAll (Changes 0x11a100011400 s) (execFwctlBegin frame s) := by
  unfold execFwctlBegin
  repeat' (with_reducible first
    | exact Changes.refl _ _
    | (show Nat.lor _ _ = _; decide)
    | apply nextAll.next
    | apply State.fwctl_changes
    | apply someAll.mono (State.fwBegin_changes ..)
    | intro _
    | apply Changes.after ‹Changes _ _ _›)

theorem execFwctlStatus_changes (frame : List Byte) (s : State) :
    nextAll (Changes 0x102100011400 s) (execFwctlStatus frame s) := by
  unfold execFwctlStatus
  repeat' (with_reducible first
    | exact Changes.refl _ _
    | (show Nat.lor _ _ = _; decide)
    | apply nextAll.next
    | apply State.request_changes
    | intro _)

theorem execFwctlActivate_changes (frame : List Byte) (s : State) :
    nextAll (Changes 0x31a120011400 s) (execFwctlActivate frame s) := by
  unfold execFwctlActivate
  repeat' (with_reducible first
    | exact Changes.refl _ _
    | (show Nat.lor _ _ = _; decide)
    | apply nextAll.next
    | apply State.fwctl_changes
    | apply someAll.mono (State.fwActivate_changes ..)
    | intro _
    | apply Changes.after ‹Changes _ _ _›)

theorem execFwctlAbort_changes (frame : List Byte) (s : State) :
    nextAll (Changes 0x112100011400 s) (execFwctlAbort frame s) := by
  unfold execFwctlAbort
  repeat' (with_reducible first
    | exact Changes.refl _ _
    | (show Nat.lor _ _ = _; decide)
    | apply nextAll.next
    | apply State.fwctl_changes
    | apply someAll.mono (State.fwAbort_changes ..)
    | intro _
    | apply Changes.after ‹Changes _ _ _›)

theorem execFwctlCommit_changes (frame : List Byte) (s : State) :
    nextAll (Changes 0x31a100011406 s) (execFwctlCommit frame s) := by
  unfold execFwctlCommit
  repeat' (with_reducible first
    | exact Changes.refl _ _
    | (show Nat.lor _ _ = _; decide)
    | apply nextAll.next
    | apply State.fwctl_changes
    | apply someAll.mono (State.fwCommit_changes ..)
    | intro _
    | apply Changes.after ‹Changes _ _ _›)

theorem execFwctlSetwr_changes (frame : List Byte) (s : State) :
    nextAll (Changes 0x11a100011400 s) (execFwctlSetwr frame s) := by
  unfold execFwctlSetwr
  repeat' (with_reducible first
    | exact Changes.refl _ _
    | (show Nat.lor _ _ = _; decide)
    | apply nextAll.next
    | apply State.fwctl_changes
    | apply someAll.mono (State.fwSetwr_changes ..)
    | intro _
    | apply Changes.after ‹Changes _ _ _›)

end Sys2Proof.Machine
end

