-- ==== Sys2Proof/Laws/Credit.lean ====
section
/-! SUPPORT. What each operation of Machine/Credit.lean may change (the masks number the fields of State in order). -/

set_option Elab.async false

namespace Sys2Proof.Machine

theorem State.setPoolQ_changes (s : State) (g : Nat) (l : List CreditReq) :
    Changes 0x8000000 s (State.setPoolQ s g l) := by
  unfold State.setPoolQ
  repeat' (with_reducible first
    | exact Changes.refl _ _
    | (show Nat.lor _ _ = _; decide)
    | apply Changes.after (State.setDrt_changes ..))

theorem State.setDieQ_changes (s : State) (d : Nat) (l : List DieReq) :
    Changes 0x8000000 s (State.setDieQ s d l) := by
  unfold State.setDieQ
  repeat' (with_reducible first
    | exact Changes.refl _ _
    | (show Nat.lor _ _ = _; decide)
    | apply Changes.after (State.setDrt_changes ..))

theorem State.enqueue_changes (s : State) (x : EngUnit) (r : CreditReq) :
    Changes 0x8000000 s (State.enqueue s x r).1 := by
  unfold State.enqueue
  repeat' (with_reducible first
    | exact Changes.refl _ _
    | (show Nat.lor _ _ = _; decide)
    | apply Changes.after (State.setPoolQ_changes ..)
    | apply Changes.after (State.setDieQ_changes ..)
    | split)

theorem State.dequeue_changes (s : State) (x : EngUnit) (r : CreditReq) :
    Changes 0x8000000 s (State.dequeue s x r) := by
  unfold State.dequeue
  repeat' (with_reducible first
    | exact Changes.refl _ _
    | (show Nat.lor _ _ = _; decide)
    | apply Changes.ite
    | apply Changes.after (State.setPoolQ_changes ..)
    | apply Changes.after (State.setDieQ_changes ..)
    | intro _)

theorem State.grantPrefetch_changes (s : State) (x : EngUnit) (u i : Nat) :
    Changes 0x48000000 s (State.grantPrefetch s x u i) := by
  unfold State.grantPrefetch
  repeat' (with_reducible first
    | exact Changes.refl _ _
    | (show Nat.lor _ _ = _; decide)
    | apply Changes.ite
    | apply Changes.after (State.dequeue_changes ..)
    | apply Changes.after (State.enqueue_changes ..)
    | apply Changes.after (State.drawCredits_changes ..)
    | intro _
    | split
    | dsimp only
    | ((fail_if_success (apply Changes.after (Changes.set_snapQ _ _))); apply Changes.after (Changes.set_prefetch _ _)))

theorem execEngineCreditGrant_changes (u idx group : Nat) (s : State) :
    nextAll (Changes 0x220148811400 s) (execEngineCreditGrant u idx group s) := by
  unfold execEngineCreditGrant
  repeat' (with_reducible first
    | exact Changes.refl _ _
    | (show Nat.lor _ _ = _; decide)
    | apply nextAll.next
    | apply nextAll.ite
    | apply Changes.ite
    | apply Changes.after (State.traceEntry_changes ..)
    | apply Changes.after (State.dequeue_changes ..)
    | apply Changes.after (State.enqueue_changes ..)
    | apply Changes.after (State.setEntry_changes ..)
    | apply Changes.after (State.grantPrefetch_changes ..)
    | apply Changes.after (State.drawCredits_changes ..)
    | apply Changes.after (State.takeFree_changes ..)
    | intro _
    | split)

theorem execHearthPoolDraw_changes (hearth : Nat) (s : State) :
    nextAll (Changes 0x8000000 s) (execHearthPoolDraw hearth s) := by
  unfold execHearthPoolDraw
  repeat' (with_reducible first
    | exact Changes.refl _ _
    | (show Nat.lor _ _ = _; decide)
    | apply nextAll.next
    | apply nextAll.ite
    | apply Changes.after (State.setDrt_changes ..)
    | apply Changes.after (State.setDieQ_changes ..)
    | apply Changes.after (State.capDie_changes ..)
    | intro _)

theorem execChunkRequest_changes (die : Nat) (s : State) :
    nextAll (Changes 0x220108011400 s) (execChunkRequest die s) := by
  unfold execChunkRequest
  repeat' (with_reducible first
    | exact Changes.refl _ _
    | (show Nat.lor _ _ = _; decide)
    | apply nextAll.next
    | apply nextAll.ite
    | apply Changes.ite
    | apply Changes.after (State.isoResponse_changes ..)
    | apply Changes.after (State.serveOrSurge_changes ..)
    | apply Changes.after (State.setDrt_changes ..)
    | apply Changes.after (State.count_changes ..)
    | intro _)

theorem execDraughtTimeout_changes (u idx : Nat) (s : State) :
    nextAll (Changes 0x100811400 s) (execDraughtTimeout u idx s) := by
  unfold execDraughtTimeout
  repeat' (with_reducible first
    | exact Changes.refl _ _
    | (show Nat.lor _ _ = _; decide)
    | apply nextAll.next
    | apply nextAll.ite
    | apply Changes.after (State.setEntry_changes ..)
    | apply Changes.after (State.count_changes ..)
    | apply Changes.after (State.event_changes ..)
    | intro _
    | split)

end Sys2Proof.Machine
end

