-- ==== Sys2Proof/Laws/Frames.lean ====
section
/-! SUPPORT. What one host command or one register write may change, where its command or its register alone is looked at: the
commands that share a way into the state (an immediate command, a billet, a register write) each change less than all of them
together. -/

set_option Elab.async false

namespace Sys2Proof.Machine

/-! Immediate commands. -/

theorem State.serveNext_frame {m : Nat} {s : State} {f : List Byte → Bool} {g : State → Nat → Cmd → State} (q slot : Nat)
    (hm : Nat.lor 0x100011400 m = m)
    (hf : ∀ c : Cmd, f c.line = true → s.ctxFieldOk (s.queue q) c.line = true → s.serveImm q c = g s q c)
    (hg : ∀ c, f c.line = true → Changes m s (g s q c)) : Changes m s (s.serveNext q slot f) := by
  unfold State.serveNext
  split
  · split
    · split
      · rename_i k c _ h
        obtain ⟨rfl, -, hl⟩ := h
        cases ho : s.ctxFieldOk (s.queue k) c.line with
        | true => rw [hf c hl ho]; exact hg c hl
        | false =>
          have : s.serveImm k c = s.malformed k c.slot := by simp [State.serveImm, ho]
          rw [this]
          exact (State.malformed_changes s k c.slot).widen hm
      · exact Changes.refl _ _
    · exact Changes.refl _ _
  · exact Changes.refl _ _

theorem State.doSyncSig_frame (s : State) (q : Nat) (c : Cmd) : Changes 0x100051400 s (s.doSyncSig q c) := by
  unfold State.doSyncSig
  repeat' (with_reducible first
    | exact Changes.refl _ _
    | (show Nat.lor _ _ = _; decide)
    | apply Changes.after (State.malformed_changes ..)
    | apply Changes.after (State.done_changes ..)
    | split)
  exact Changes.widen (a := 0x40000) (Changes.set_psync s _)

/-- A SCHED of another kind than an activation leaves the firmware's registers. -/
theorem State.doSched_frame (s : State) (q : Nat) (k : Cmd) (h0 : fld k.line 16 1 ≠ 0) (h4 : fld k.line 16 1 ≠ 4) :
    Changes 0x120011400 s (s.doSched q k) := by
  unfold State.doSched State.arm
  simp only [if_neg h0, if_neg h4]
  repeat' (with_reducible first
    | exact Changes.refl _ _
    | (show Nat.lor _ _ = _; decide)
    | apply Changes.after (State.malformed_changes ..)
    | apply Changes.after (State.done_changes ..)
    | apply Changes.after (State.setSched_changes ..)
    | split)

theorem execNopCommand_frame (q slot : Nat) (s : State) : nextAll (Changes 0x100011400 s) (execNopCommand q slot s) := by
  refine nextAll.next (State.serveNext_frame (g := fun s q c => s.done q c.slot []) q slot (by decide) ?_ ?_)
  · intro c h k; simp_all [State.serveImm]
  · intro c _; exact State.done_changes ..

theorem execQcreate_frame (q slot : Nat) (s : State) : nextAll (Changes 0x100013400 s) (execQcreate q slot s) := by
  refine nextAll.next (State.serveNext_frame (g := State.doQcreate) q slot (by decide) ?_ ?_)
  · intro c h k; simp_all [State.serveImm]
  · intro c _; exact State.doQcreate_changes ..

theorem execQdestroy_frame (q slot : Nat) (s : State) : nextAll (Changes 0x100011400 s) (execQdestroy q slot s) := by
  refine nextAll.next (State.serveNext_frame (g := State.doQdestroy) q slot (by decide) ?_ ?_)
  · intro c h k; simp_all [State.serveImm]
  · intro c _; exact State.doQdestroy_changes ..

theorem execCtxCreate_frame (q slot : Nat) (s : State) : nextAll (Changes 0x22050e3f1d00 s) (execCtxCreate q slot s) := by
  refine nextAll.next (State.serveNext_frame (g := State.doCtxCreate) q slot (by decide) ?_ ?_)
  · intro c h k; simp_all [State.serveImm]
  · intro c _; exact State.doCtxCreate_changes ..

theorem execCtxDestroy_frame (q slot : Nat) (s : State) : nextAll (Changes 0x2601ee7f9d00 s) (execCtxDestroy q slot s) := by
  refine nextAll.next (State.serveNext_frame (g := State.doCtxDestroy) q slot (by decide) ?_ ?_)
  · intro c h k; simp_all [State.serveImm]
  · intro c _; exact State.doCtxDestroy_changes ..

theorem execAbortCommand_frame (q slot : Nat) (s : State) : nextAll (Changes 0xe70799d71500 s) (execAbortCommand q slot s) := by
  refine nextAll.next (State.serveNext_frame (g := State.doAbort) q slot (by decide) ?_ ?_)
  · intro c h k; simp_all [State.serveImm]
  · intro c _; exact State.doAbort_changes ..

theorem execSyncSig_frame (q slot : Nat) (s : State) : nextAll (Changes 0x100051400 s) (execSyncSig q slot s) := by
  refine nextAll.next (State.serveNext_frame (g := State.doSyncSig) q slot (by decide) ?_ ?_)
  · intro c h k; simp_all [State.serveImm]
  · intro c _; exact State.doSyncSig_frame ..

theorem execSchedCancel_frame (q slot : Nat) (s : State) : nextAll (Changes 0x10120011400 s) (execSchedCancel q slot s) := by
  refine nextAll.next (State.serveNext_frame (g := State.doSched) q slot (by decide) ?_ ?_)
  · intro c h k; simp_all [State.serveImm, isSched]
  · intro c _; exact State.doSched_changes ..

theorem execSchedFwActivate_frame (q slot : Nat) (s : State) : nextAll (Changes 0x10120011400 s) (execSchedFwActivate q slot s) := by
  refine nextAll.next (State.serveNext_frame (g := State.doSched) q slot (by decide) ?_ ?_)
  · intro c h k; simp_all [State.serveImm, isSched]
  · intro c _; exact State.doSched_changes ..

theorem execSchedCkptCopy_frame (q slot : Nat) (s : State) : nextAll (Changes 0x120011400 s) (execSchedCkptCopy q slot s) := by
  refine nextAll.next (State.serveNext_frame (g := State.doSched) q slot (by decide) ?_ ?_)
  · intro c h k; simp_all [State.serveImm, isSched]
  · intro c h; exact State.doSched_frame s q c (by simp_all [isSched]) (by simp_all [isSched])

theorem execSchedPrefetch_frame (q slot : Nat) (s : State) : nextAll (Changes 0x120011400 s) (execSchedPrefetch q slot s) := by
  refine nextAll.next (State.serveNext_frame (g := State.doSched) q slot (by decide) ?_ ?_)
  · intro c h k; simp_all [State.serveImm, isSched]
  · intro c h; exact State.doSched_frame s q c (by simp_all [isSched]) (by simp_all [isSched])

theorem execSchedFreeze_frame (q slot : Nat) (s : State) : nextAll (Changes 0x120011400 s) (execSchedFreeze q slot s) := by
  refine nextAll.next (State.serveNext_frame (g := State.doSched) q slot (by decide) ?_ ?_)
  · intro c h k; simp_all [State.serveImm, isSched]
  · intro c h; exact State.doSched_frame s q c (by simp_all [isSched]) (by simp_all [isSched])

theorem execSchedSyncSignal_frame (q slot : Nat) (s : State) : nextAll (Changes 0x120011400 s) (execSchedSyncSignal q slot s) := by
  refine nextAll.next (State.serveNext_frame (g := State.doSched) q slot (by decide) ?_ ?_)
  · intro c h k; simp_all [State.serveImm, isSched]
  · intro c h; exact State.doSched_frame s q c (by simp_all [isSched]) (by simp_all [isSched])

theorem execPageReqOpen_frame (q slot : Nat) (s : State) : nextAll (Changes 0xa00700011400 s) (execPageReqOpen q slot s) := by
  refine nextAll.next (State.serveNext_frame (g := State.doPageReq) q slot (by decide) ?_ ?_)
  · intro c h k; simp_all [State.serveImm, isPageReq]
  · intro c _; exact State.doPageReq_changes ..

theorem execPageReqFork_frame (q slot : Nat) (s : State) : nextAll (Changes 0xa00700011400 s) (execPageReqFork q slot s) := by
  refine nextAll.next (State.serveNext_frame (g := State.doPageReq) q slot (by decide) ?_ ?_)
  · intro c h k; simp_all [State.serveImm, isPageReq]
  · intro c _; exact State.doPageReq_changes ..

theorem execPageReqSeal_frame (q slot : Nat) (s : State) : nextAll (Changes 0xa00700011400 s) (execPageReqSeal q slot s) := by
  refine nextAll.next (State.serveNext_frame (g := State.doPageReq) q slot (by decide) ?_ ?_)
  · intro c h k; simp_all [State.serveImm, isPageReq]
  · intro c _; exact State.doPageReq_changes ..

theorem execPageReqGrow_frame (q slot : Nat) (s : State) : nextAll (Changes 0xa00700011400 s) (execPageReqGrow q slot s) := by
  refine nextAll.next (State.serveNext_frame (g := State.doPageReq) q slot (by decide) ?_ ?_)
  · intro c h k; simp_all [State.serveImm, isPageReq]
  · intro c _; exact State.doPageReq_changes ..

theorem execPageReqTrim_frame (q slot : Nat) (s : State) : nextAll (Changes 0xa00700011400 s) (execPageReqTrim q slot s) := by
  refine nextAll.next (State.serveNext_frame (g := State.doPageReq) q slot (by decide) ?_ ?_)
  · intro c h k; simp_all [State.serveImm, isPageReq]
  · intro c _; exact State.doPageReq_changes ..

theorem execPageReqFree_frame (q slot : Nat) (s : State) : nextAll (Changes 0xa00700011400 s) (execPageReqFree q slot s) := by
  refine nextAll.next (State.serveNext_frame (g := State.doPageReq) q slot (by decide) ?_ ?_)
  · intro c h k; simp_all [State.serveImm, isPageReq]
  · intro c _; exact State.doPageReq_changes ..

theorem execPageReqResume_frame (q slot : Nat) (s : State) : nextAll (Changes 0xa00700011400 s) (execPageReqResume q slot s) := by
  refine nextAll.next (State.serveNext_frame (g := State.doPageReq) q slot (by decide) ?_ ?_)
  · intro c h k; simp_all [State.serveImm, isPageReq]
  · intro c _; exact State.doPageReq_changes ..

theorem execPageReqSwapin_frame (q slot : Nat) (s : State) : nextAll (Changes 0xa00700011400 s) (execPageReqSwapin q slot s) := by
  refine nextAll.next (State.serveNext_frame (g := State.doPageReq) q slot (by decide) ?_ ?_)
  · intro c h k; simp_all [State.serveImm, isPageReq]
  · intro c _; exact State.doPageReq_changes ..

/-! Billets. -/

theorem State.billetOf_frame {m : Nat} {s : State} {f : List Byte → Bool} {g : State → Nat → Cmd → State} (q slot : Nat)
    (hm : Nat.lor 0x100015400 m = m) (hf : ∀ (t : State) (c : Cmd), f c.line = true → (!c.started && !t.ctxFieldOk (t.queue q) c.line) = false →
      t.runCmdBillet q c = g t q c)
    (hg : ∀ (t : State) c, f c.line = true → Changes m t (g t q c)) : Changes m s (s.billetOf q slot f) := by
  unfold State.billetOf
  split
  · split
    · split
      · rename_i k c _ h
        obtain ⟨rfl, -, hl⟩ := h
        simp only [State.runBillet]
        have hr : Changes m s { s with rr := (Billet.cmd k c).order + 1 } :=
          (Changes.set_rr s _).widen (Changes.mask_trans (b := 0x100015400) (by decide) hm)
        cases ho : (!c.started && !State.ctxFieldOk { s with rr := (Billet.cmd k c).order + 1 }
            (State.queue { s with rr := (Billet.cmd k c).order + 1 } k) c.line) with
        | false => rw [hf _ c hl ho]; exact hr.andThen (hg _ c hl) (Nat.or_self m)
        | true =>
          have : State.runCmdBillet { s with rr := (Billet.cmd k c).order + 1 } k c
              = State.malformed { s with rr := (Billet.cmd k c).order + 1 } k c.slot := by simp [State.runCmdBillet, ho]
          rw [this]
          exact hr.andThen (State.malformed_changes ..) (Changes.mask_trans (b := 0x100015400) (by decide) hm)
      · exact Changes.refl _ _
    · exact Changes.refl _ _
  · exact Changes.refl _ _

theorem State.doRebuild_frame_ownership (s : State) (q : Nat) (k : Cmd) (h : fld k.line 8 1 = 1) :
    Changes 0x100011c00 s (s.doRebuild q k) := by
  simp only [State.doRebuild, h, ↓reduceIte]
  exact ((Changes.set_ownBad s _).widen (m := 0x100011c00) (by decide)).andThen (State.done_changes ..)

theorem State.doRebuild_frame_fuses (s : State) (q : Nat) (k : Cmd) (h : fld k.line 8 1 = 2) :
    Changes 0x100011404 s (s.doRebuild q k) := by
  simp only [State.doRebuild, h]
  exact ((Changes.set_shadow s _).widen (m := 0x100011404) (by decide)).andThen (State.done_changes ..)

theorem execCtxSave_frame (q slot : Nat) (s : State) : nextAll (Changes 0x800700015400 s) (execCtxSave q slot s) := by
  refine nextAll.next (State.billetOf_frame (g := State.doSave) q slot (by decide) ?_ ?_)
  · intro t c h k; simp_all [State.runCmdBillet]
  · intro t c h; exact (State.doSave_changes t q c).widen

theorem execCtxRestore_frame (q slot : Nat) (s : State) : nextAll (Changes 0xb7877e7ffd00 s) (execCtxRestore q slot s) := by
  refine nextAll.next (State.billetOf_frame (g := State.doRestore) q slot (by decide) ?_ ?_)
  · intro t c h k; simp_all [State.runCmdBillet]
  · intro t c h; exact (State.doRestore_changes t q c).widen

theorem execCkptCopy_frame (q slot : Nat) (s : State) : nextAll (Changes 0xa00700015400 s) (execCkptCopy q slot s) := by
  refine nextAll.next (State.billetOf_frame (g := State.doCopy) q slot (by decide) ?_ ?_)
  · intro t c h k; simp_all [State.runCmdBillet]
  · intro t c h; exact (State.doCopy_changes t q c).widen

theorem execScrub_frame (q slot : Nat) (s : State) : nextAll (Changes 0x800100015400 s) (execScrub q slot s) := by
  refine nextAll.next (State.billetOf_frame (g := State.doScrub) q slot (by decide) ?_ ?_)
  · intro t c h k; simp_all [State.runCmdBillet]
  · intro t c h; exact (State.doScrub_changes t q c).widen

theorem execPoolCompact_frame (q slot : Nat) (s : State) : nextAll (Changes 0xa00700015400 s) (execPoolCompact q slot s) := by
  refine nextAll.next (State.billetOf_frame (g := State.doCompact) q slot (by decide) ?_ ?_)
  · intro t c h k; simp_all [State.runCmdBillet]
  · intro t c h; exact (State.doCompact_changes t q c).widen

theorem execPageRefresh_frame (q slot : Nat) (s : State) : nextAll (Changes 0x800700015400 s) (execPageRefresh q slot s) := by
  refine nextAll.next (State.billetOf_frame (g := State.doRefresh) q slot (by decide) ?_ ?_)
  · intro t c h k; simp_all [State.runCmdBillet]
  · intro t c h; exact (State.doRefresh_changes t q c).widen

theorem execFwStage_frame (q slot : Nat) (s : State) : nextAll (Changes 0x318500015400 s) (execFwStage q slot s) := by
  refine nextAll.next (State.billetOf_frame (g := State.doStage) q slot (by decide) ?_ ?_)
  · intro t c h k; simp_all [State.runCmdBillet]
  · intro t c h; exact (State.doStage_changes t q c).widen

theorem execTableRebuildOwnership_frame (q slot : Nat) (s : State) : nextAll (Changes 0x100015c00 s) (execTableRebuildOwnership q slot s) := by
  refine nextAll.next (State.billetOf_frame (g := State.doRebuild) q slot (by decide) ?_ ?_)
  · intro t c h k; simp_all [State.runCmdBillet]
  · intro t c h; exact (State.doRebuild_frame_ownership t q c (by simp_all)).widen

theorem execTableRebuildFuses_frame (q slot : Nat) (s : State) : nextAll (Changes 0x100015404 s) (execTableRebuildFuses q slot s) := by
  refine nextAll.next (State.billetOf_frame (g := State.doRebuild) q slot (by decide) ?_ ?_)
  · intro t c h k; simp_all [State.runCmdBillet]
  · intro t c h; exact (State.doRebuild_frame_fuses t q c (by simp_all)).widen

/-! Register writes. -/

/-- What the write of an offset of a page that is reached does. -/
def State.wordWrite (s : State) (prv : Priv) (pg : Nat) (i : PageInfo) (off v : Nat) : State :=
  if off < 0x100 then s.writeCommon i pg off (v % 2 ^ 32)
  else if off < 0xC00 then
    match s.regDef i off with
    | some d => s.writeBlock (decide (prv = .m)) i pg off d (v % 2 ^ 32)
    | none => s
  else s

theorem State.reach_ok {s : State} {prv : Priv} {pg off v : Nat} {w : Bool} {r : Nat × PageInfo × Nat} (h : off < 4096)
    (e : s.reach prv (pageAddr pg + off) 4 w v = .ok r) : ∃ i, r = (pg, i, off) ∧ s.pageInfo pg = some i := by
  have h1 : (pageAddr pg + off - 0x0C0000000000) / 4096 = pg := by unfold pageAddr; omega
  have h2 : (pageAddr pg + off) % 4096 = off := by unfold pageAddr; omega
  unfold State.reach at e
  simp only [h1, h2] at e
  split at e
  · cases e
  · cases hi : s.pageInfo pg with
    | none => simp only [hi] at e; cases e
    | some i =>
      simp only [hi] at e
      split at e
      · cases e
      · cases e; exact ⟨i, rfl, rfl⟩

theorem State.pageWrite_frame {m : Nat} {s : State} (prv : Priv) (pg off v : Nat) (h : off < 4096)
    (hm : Nat.lor 0x100100011400 m = m) (hw : ∀ i, s.pageInfo pg = some i → Changes m s (s.wordWrite prv pg i off v)) :
    Changes m s (s.pageWrite prv pg off v) := by
  unfold State.pageWrite State.hostWrite State.writeReg
  cases e : s.reach prv (pageAddr pg + off) 4 true v with
  | error t =>
    have ht := (State.reach_changes s prv (pageAddr pg + off) 4 true v).get e
    exact (ht.widen (Changes.mask_trans (b := 0x100100011400) (by decide) hm)).andThen (State.addOut_changes ..) (Changes.mask_trans (b := 0x100100011400) (by decide) hm)
  | ok r =>
    obtain ⟨i, rfl, hi⟩ := State.reach_ok h e
    have := hw i hi
    unfold State.wordWrite at this
    simp only
    split
    · rename_i h1; simpa only [h1, ↓reduceIte] using this
    · rename_i h1
      split
      · rename_i h2
        simp only [h1, h2, ↓reduceIte] at this
        cases hd : s.regDef i off with
        | some d => simpa only [hd, ↓reduceIte] using this
        | none => simpa only [hd, ↓reduceIte] using this
      · rename_i h2
        simpa only [h1, h2, ↓reduceIte] using this

theorem State.wordWrite_common {m : Nat} {s : State} {prv : Priv} {pg off v : Nat} {i : PageInfo} (h : off < 0x100)
    (hw : Changes m s (s.writeCommon i pg off (v % 2 ^ 32))) : Changes m s (s.wordWrite prv pg i off v) := by
  unfold State.wordWrite; rw [if_pos h]; exact hw

theorem State.wordWrite_block {m : Nat} {s : State} {prv : Priv} {pg off v : Nat} {i : PageInfo} (h : 0x100 ≤ off)
    (hw : ∀ d b, s.regDef i off = some d → Changes m s (s.writeBlock b i pg off d (v % 2 ^ 32))) :
    Changes m s (s.wordWrite prv pg i off v) := by
  unfold State.wordWrite
  rw [if_neg (by omega)]
  split
  · cases hd : s.regDef i off with
    | some d => exact hw d _ hd
    | none => exact Changes.refl _ _
  · exact Changes.refl _ _

/-! Which block a page is. -/

theorem State.pageInfo_blk_98 {s : State} {k : Nat} {i : PageInfo} (hk : k < 8) (h : s.pageInfo (diePage 98 k) = some i) :
    i.blk = [0x10, 0x13, 0x16, 0x0F, 0x0F, 0x0F, 0x0F, 0x15].getD k 0 ∧ i.die = 98 := by
  have h0 : diePage 98 k = 99 * 16384 + k := by simp [diePage]
  have h1 : (diePage 98 k) / 16384 = 99 := by omega
  have h2 : (diePage 98 k) % 16384 = k := by omega
  unfold State.pageInfo at h
  simp only [h1, h2] at h
  interval_cases k <;> (simp at h; obtain ⟨-, rfl⟩ := h; exact ⟨rfl, rfl⟩)

theorem State.pageInfo_blk_99 {s : State} {k : Nat} {i : PageInfo} (hk : k < 6) (h : s.pageInfo k = some i) :
    i.blk = [0x01, 0x11, 0x12, 0x0D, 0x14, 0x15].getD k 0 ∧ i.die = 99 := by
  unfold State.pageInfo at h
  interval_cases k <;> (simp at h; subst h; exact ⟨rfl, rfl⟩)

theorem State.pageInfo_blk_hlk {s : State} {p : Nat} {i : PageInfo} (hp : p < 2) (h : s.pageInfo (pgHlk p) = some i) : i.blk = 0x0E := by
  have h1 : (pgHlk p) / 16384 = 97 + p := by simp only [pgHlk, diePage]; rw [if_neg (by omega)]; omega
  have h2 : (pgHlk p) % 16384 = 0 := by simp only [pgHlk, diePage]; rw [if_neg (by omega)]; omega
  unfold State.pageInfo at h
  simp only [h1, h2] at h
  interval_cases p <;> (simp at h; obtain ⟨-, rfl⟩ := h; rfl)

theorem State.pageInfo_blk_port {s : State} {p : Nat} {i : PageInfo} (hp : p ≤ 5) (h : s.pageInfo (portPage p) = some i) :
    i.blk = 0x0E ∨ i.blk = 0x0F := by
  by_cases h2 : p < 2
  · left; rw [show portPage p = pgHlk p by simp [portPage, h2]] at h; exact State.pageInfo_blk_hlk h2 h
  · right
    rw [show portPage p = diePage 98 (3 + (p - 2)) by simp [portPage, h2, pgRdp]] at h
    have := (State.pageInfo_blk_98 (by omega) h).1
    rw [this]
    interval_cases p <;> first | rfl | omega

theorem State.pageInfo_blk_trc {s : State} {d : Nat} {i : PageInfo} (hd : s.hasTrc d = true) (h : s.pageInfo (pgTrc d) = some i) :
    i.blk = 0x15 := by
  have hd' : d < 72 ∨ d = 96 ∨ d = 97 ∨ d = 98 ∨ d = 99 := by
    unfold State.hasTrc State.hasDie at hd
    split at hd <;> simp at hd <;> omega
  rcases hd' with h72 | rfl | rfl | rfl | rfl
  · have h1 : (pgTrc d) / 16384 = d + 1 := by simp only [pgTrc, diePage, h72, ↓reduceIte]; rw [if_neg (by omega)]; omega
    have h2 : (pgTrc d) % 16384 = 9 := by simp only [pgTrc, diePage, h72, ↓reduceIte]; rw [if_neg (by omega)]; omega
    unfold State.pageInfo at h
    simp only [h1, h2] at h
    simp [h72] at h
    obtain ⟨-, rfl⟩ := h
    rfl
  · simp [pgTrc, diePage, State.pageInfo] at h; obtain ⟨-, rfl⟩ := h; rfl
  · simp [pgTrc, diePage, State.pageInfo] at h; obtain ⟨-, rfl⟩ := h; rfl
  · rw [show pgTrc 98 = diePage 98 7 by rfl] at h
    exact (State.pageInfo_blk_98 (by decide) h).1
  · rw [show pgTrc 99 = 5 by rfl] at h
    exact (State.pageInfo_blk_99 (by decide) h).1

theorem execPgLockWrite_frame (prv : Priv) (pg : Nat) (val : Word) (s : State) : nextAll (Changes 0x300100011400 s) (execPgLockWrite prv pg val s) := by
  unfold execPgLockWrite
  refine nextAll.next ?_
  refine State.pageWrite_frame _ _ _ _ (by decide) (by decide) fun i _ => State.wordWrite_common (by decide) ?_
  simp only [State.writeCommon]
  exact (State.writeLock_changes ..).widen

theorem execPgCtlSrst_frame (prv : Priv) (pg : Nat) (s : State) : nextAll (Changes 0xffffffffffe0 s) (execPgCtlSrst prv pg s) := by
  unfold execPgCtlSrst
  refine nextAll.next ?_
  refine State.pageWrite_frame _ _ _ _ (by decide) (by decide) fun i _ => State.wordWrite_common (by decide) ?_
  simp only [State.writeCommon]
  exact (State.writeCtl_changes ..).widen

theorem execPgCtlPinj_frame (prv : Priv) (pg : Nat) (s : State) : nextAll (Changes 0x100100011400 s) (execPgCtlPinj prv pg s) := by
  unfold execPgCtlPinj
  refine nextAll.next ?_
  refine State.pageWrite_frame _ _ _ _ (by decide) (by decide) fun i _ => State.wordWrite_common (by decide) ?_
  simp only [State.writeCommon]
  have h : bit (0x100 % 2 ^ 32) 31 = false := by decide
  simp only [State.writeCtl, h, Bool.false_and, Bool.false_eq_true, ↓reduceIte]
  exact (State.setPage_changes ..).widen

theorem execPgCtlCntclr_frame (prv : Priv) (pg : Nat) (s : State) : nextAll (Changes 0x100100011400 s) (execPgCtlCntclr prv pg s) := by
  unfold execPgCtlCntclr
  refine nextAll.next ?_
  refine State.pageWrite_frame _ _ _ _ (by decide) (by decide) fun i _ => State.wordWrite_common (by decide) ?_
  simp only [State.writeCommon]
  have h : bit (1 % 2 ^ 32) 31 = false := by decide
  simp only [State.writeCtl, h, Bool.false_and, Bool.false_eq_true, ↓reduceIte]
  exact (State.setPage_changes ..).widen

theorem execPgErrClear_frame (prv : Priv) (pg : Nat) (s : State) : nextAll (Changes 0x100100011400 s) (execPgErrClear prv pg s) := by
  unfold execPgErrClear
  refine nextAll.next ?_
  refine State.pageWrite_frame _ _ _ _ (by decide) (by decide) fun i _ => State.wordWrite_common (by decide) ?_
  simp only [State.writeCommon]
  split
  · exact (State.setPage_changes ..).widen
  · exact Changes.refl _ _

theorem execPgIrqRawClear_frame (prv : Priv) (pg : Nat) (val : Word) (s : State) : nextAll (Changes 0x100100011400 s) (execPgIrqRawClear prv pg val s) := by
  unfold execPgIrqRawClear
  refine nextAll.next ?_
  refine State.pageWrite_frame _ _ _ _ (by decide) (by decide) fun i _ => State.wordWrite_common (by decide) ?_
  simp only [State.writeCommon]
  exact (State.pageIrq_changes ..).widen

theorem execPgSnapWrite_frame (prv : Priv) (pg : Nat) (val : Word) (s : State) : nextAll (Changes 0x180100011400 s) (execPgSnapWrite prv pg val s) := by
  unfold execPgSnapWrite
  refine nextAll.next ?_
  refine State.pageWrite_frame _ _ _ _ (by decide) (by decide) fun i _ => State.wordWrite_common (by decide) ?_
  simp only [State.writeCommon]
  exact (State.writeSnap_changes ..).widen

theorem execMgrAqCfgWrite_frame (prv : Priv) (val : Word) (s : State) : nextAll (Changes 0x100100013400 s) (execMgrAqCfgWrite prv val s) := by
  unfold execMgrAqCfgWrite
  refine nextAll.next ?_
  refine State.pageWrite_frame _ _ _ _ (by decide) (by decide) fun i hi => State.wordWrite_block (by decide) fun d b _ => ?_
  unfold State.writeBlock
  split
  · exact (State.pgErr_changes ..).widen
  · obtain ⟨hb, -⟩ := State.pageInfo_blk_99 (k := 0) (by decide) hi
    simp only [List.getD_cons_zero, List.getD_cons_succ] at hb
    rw [hb]
    dsimp only
    exact (State.writeAq_changes ..).widen

theorem execDrtBudgetWrite_frame (prv : Priv) (val : Word) (s : State) : nextAll (Changes 0x320108011400 s) (execDrtBudgetWrite prv val s) := by
  unfold execDrtBudgetWrite
  refine nextAll.next ?_
  refine State.pageWrite_frame _ _ _ _ (by decide) (by decide) fun i hi => State.wordWrite_block (by decide) fun d b _ => ?_
  unfold State.writeBlock
  split
  · exact (State.pgErr_changes ..).widen
  · obtain ⟨hb, -⟩ := State.pageInfo_blk_99 (k := 1) (by decide) hi
    simp only [List.getD_cons_zero, List.getD_cons_succ] at hb
    rw [hb]
    dsimp only
    simp only [State.writeDrt, ↓reduceIte]
    exact ((State.putReg_changes ..).widen (by decide)).andThen (State.setBudget_changes ..)

theorem execDrtSurgeWrite_frame (prv : Priv) (val : Word) (s : State) : nextAll (Changes 0x320108011400 s) (execDrtSurgeWrite prv val s) := by
  unfold execDrtSurgeWrite
  refine nextAll.next ?_
  refine State.pageWrite_frame _ _ _ _ (by decide) (by decide) fun i hi => State.wordWrite_block (by decide) fun d b _ => ?_
  unfold State.writeBlock
  split
  · exact (State.pgErr_changes ..).widen
  · obtain ⟨hb, -⟩ := State.pageInfo_blk_99 (k := 1) (by decide) hi
    simp only [List.getD_cons_zero, List.getD_cons_succ] at hb
    rw [hb]
    dsimp only
    simp only [State.writeDrt, ↓reduceIte]
    exact ((State.putReg_changes ..).widen (by decide)).andThen (State.setSurge_changes ..)

theorem execDrtPrsvWrite_frame (prv : Priv) (k : Nat) (val : Word) (s : State) : nextAll (Changes 0x100108011400 s) (execDrtPrsvWrite prv k val s) := by
  unfold execDrtPrsvWrite
  refine nextAll.next ?_
  split; swap; · exact Changes.refl _ _
  refine State.pageWrite_frame _ _ _ _ (by omega) (by decide) fun i hi => State.wordWrite_block (by omega) fun d b _ => ?_
  unfold State.writeBlock
  split
  · exact (State.pgErr_changes ..).widen
  · obtain ⟨hb, -⟩ := State.pageInfo_blk_99 (k := 1) (by decide) hi
    simp only [List.getD_cons_zero, List.getD_cons_succ] at hb
    rw [hb]
    dsimp only
    change Changes _ s (s.writeDrt _ _ _ _)
    unfold State.writeDrt
    rw [if_neg (by omega), if_neg (by omega), if_neg (by omega), if_pos (by omega)]
    exact ((State.freshPar_changes ..).widen (by decide)).andThen (State.setPrsv_changes ..)

theorem execBeatSlotWrite_frame (prv : Priv) (k : Nat) (hi : Bool) (val : Word) (s : State) : nextAll (Changes 0xb787747fb400 s) (execBeatSlotWrite prv k hi val s) := by
  unfold execBeatSlotWrite
  refine nextAll.next ?_
  split; swap; · exact Changes.refl _ _
  have hb2 : b2n hi ≤ 1 := by cases hi <;> decide
  refine State.pageWrite_frame _ _ _ _ (by omega) (by decide) fun i hi => State.wordWrite_block (by omega) fun d b _ => ?_
  unfold State.writeBlock
  split
  · exact (State.pgErr_changes ..).widen
  · obtain ⟨hb, -⟩ := State.pageInfo_blk_99 (k := 2) (by decide) hi
    simp only [List.getD_cons_zero, List.getD_cons_succ] at hb
    rw [hb]
    dsimp only
    change Changes _ s (s.writeBeat _ _ _ _)
    unfold State.writeBeat
    rw [if_neg (by omega), if_neg (by omega)]
    split
    · exact (State.writeBeatSlot_changes ..).widen
    · exact Changes.refl _ _

theorem execPwrDomWrite_frame (prv : Priv) (k : Nat) (val : Word) (s : State) : nextAll (Changes 0x320108011500 s) (execPwrDomWrite prv k val s) := by
  unfold execPwrDomWrite
  refine nextAll.next ?_
  split; swap; · exact Changes.refl _ _
  refine State.pageWrite_frame _ _ _ _ (by omega) (by decide) fun i hi => State.wordWrite_block (by omega) fun d b _ => ?_
  unfold State.writeBlock
  split
  · exact (State.pgErr_changes ..).widen
  · obtain ⟨hb, -⟩ := State.pageInfo_blk_99 (k := 4) (by decide) hi
    simp only [List.getD_cons_zero, List.getD_cons_succ] at hb
    rw [hb]
    dsimp only
    change Changes _ s (s.writePwr _ _ _ _)
    unfold State.writePwr
    rw [if_neg (by omega)]
    split
    · exact ((State.putReg_changes ..).widen (by decide)).andThen (State.writeDom_changes ..)
    · exact Changes.refl _ _

theorem execRstPartGo_frame (prv : Priv) (val : Word) (s : State) : nextAll (Changes 0xffffffffffe0 s) (execRstPartGo prv val s) := by
  unfold execRstPartGo
  refine nextAll.next ?_
  refine State.pageWrite_frame _ _ _ _ (by decide) (by decide) fun i hi => State.wordWrite_block (by decide) fun d b _ => ?_
  unfold State.writeBlock
  split
  · exact (State.pgErr_changes ..).widen
  · obtain ⟨hb, -⟩ := State.pageInfo_blk_98 (k := 1) (by decide) hi
    simp only [List.getD_cons_zero, List.getD_cons_succ] at hb
    rw [hb]
    dsimp only
    simp only [State.writeRst]
    split
    · exact ((State.putReg_changes ..).widen (by decide)).andThen (State.goPart_changes ..)
    · exact (State.putReg_changes ..).widen

theorem execRstDieGo_frame (prv : Priv) (val : Word) (s : State) : nextAll (Changes 0xffffffffffe0 s) (execRstDieGo prv val s) := by
  unfold execRstDieGo
  refine nextAll.next ?_
  refine State.pageWrite_frame _ _ _ _ (by decide) (by decide) fun i hi => State.wordWrite_block (by decide) fun d b _ => ?_
  unfold State.writeBlock
  split
  · exact (State.pgErr_changes ..).widen
  · obtain ⟨hb, -⟩ := State.pageInfo_blk_98 (k := 1) (by decide) hi
    simp only [List.getD_cons_zero, List.getD_cons_succ] at hb
    rw [hb]
    dsimp only
    simp only [State.writeRst]
    split
    · exact ((State.putReg_changes ..).widen (by decide)).andThen (State.goDie_changes ..)
    · exact (State.putReg_changes ..).widen

theorem execRstWdtkWrite_frame (prv : Priv) (val : Word) (s : State) : nextAll (Changes 0xffffffffffe0 s) (execRstWdtkWrite prv val s) := by
  unfold execRstWdtkWrite
  refine nextAll.next ?_
  refine State.pageWrite_frame _ _ _ _ (by decide) (by decide) fun i hi => State.wordWrite_block (by decide) fun d b _ => ?_
  unfold State.writeBlock
  split
  · exact (State.pgErr_changes ..).widen
  · obtain ⟨hb, -⟩ := State.pageInfo_blk_98 (k := 1) (by decide) hi
    simp only [List.getD_cons_zero, List.getD_cons_succ] at hb
    rw [hb]
    dsimp only
    exact (State.kick_changes ..).widen

theorem execRstRclrWrite_frame (prv : Priv) (val : Word) (s : State) : nextAll (Changes 0x100100011420 s) (execRstRclrWrite prv val s) := by
  unfold execRstRclrWrite
  refine nextAll.next ?_
  refine State.pageWrite_frame _ _ _ _ (by decide) (by decide) fun i hi => State.wordWrite_block (by decide) fun d b _ => ?_
  unfold State.writeBlock
  split
  · exact (State.pgErr_changes ..).widen
  · obtain ⟨hb, -⟩ := State.pageInfo_blk_98 (k := 1) (by decide) hi
    simp only [List.getD_cons_zero, List.getD_cons_succ] at hb
    rw [hb]
    dsimp only
    simp only [State.writeRst]
    split
    · exact (Changes.set_ember s _).widen
    · exact Changes.refl _ _

theorem execSvcCfgEnum_frame (prv : Priv) (s : State) : nextAll (Changes 0x302100011420 s) (execSvcCfgEnum prv s) := by
  unfold execSvcCfgEnum
  refine nextAll.next ?_
  refine State.pageWrite_frame _ _ _ _ (by decide) (by decide) fun i hi => State.wordWrite_block (by decide) fun d b _ => ?_
  unfold State.writeBlock
  split
  · exact (State.pgErr_changes ..).widen
  · obtain ⟨hb, -⟩ := State.pageInfo_blk_98 (k := 0) (by decide) hi
    simp only [List.getD_cons_zero, List.getD_cons_succ] at hb
    rw [hb]
    dsimp only
    simp only [↓reduceIte]
    split
    · exact ((State.putReg_changes ..).widen (by decide)).andThen (State.enumHead_changes ..)
    · exact (State.putReg_changes ..).widen

theorem execFwCtlCommit_frame (prv : Priv) (s : State) : nextAll (Changes 0x318100011406 s) (execFwCtlCommit prv s) := by
  unfold execFwCtlCommit
  refine nextAll.next ?_
  refine State.pageWrite_frame _ _ _ _ (by decide) (by decide) fun i hi => State.wordWrite_block (by decide) fun d b _ => ?_
  unfold State.writeBlock
  split
  · exact (State.pgErr_changes ..).widen
  · obtain ⟨hb, -⟩ := State.pageInfo_blk_98 (k := 2) (by decide) hi
    simp only [List.getD_cons_zero, List.getD_cons_succ] at hb
    rw [hb]
    dsimp only
    have h0 : bit (1 % 2 ^ 32) 0 = true := by decide
    have h1 : bit (1 % 2 ^ 32) 1 = false := by decide
    have h2 : bit (1 % 2 ^ 32) 2 = false := by decide
    simp only [State.writeFw, h0, h1, h2, Bool.false_eq_true, ↓reduceIte]
    exact Changes.getD (State.fwCommit_changes ..) (Changes.refl _ _)

theorem execFwCtlActnow_frame (prv : Priv) (s : State) : nextAll (Changes 0x318120011400 s) (execFwCtlActnow prv s) := by
  unfold execFwCtlActnow
  refine nextAll.next ?_
  refine State.pageWrite_frame _ _ _ _ (by decide) (by decide) fun i hi => State.wordWrite_block (by decide) fun d b _ => ?_
  unfold State.writeBlock
  split
  · exact (State.pgErr_changes ..).widen
  · obtain ⟨hb, -⟩ := State.pageInfo_blk_98 (k := 2) (by decide) hi
    simp only [List.getD_cons_zero, List.getD_cons_succ] at hb
    rw [hb]
    dsimp only
    have h0 : bit (2 % 2 ^ 32) 0 = false := by decide
    have h1 : bit (2 % 2 ^ 32) 1 = true := by decide
    have h2 : bit (2 % 2 ^ 32) 2 = false := by decide
    simp only [State.writeFw, h0, h1, h2, Bool.false_eq_true, ↓reduceIte]
    exact Changes.getD (State.fwNow_changes ..) (Changes.refl _ _)

theorem execFwCtlAbort_frame (prv : Priv) (s : State) : nextAll (Changes 0x110100011400 s) (execFwCtlAbort prv s) := by
  unfold execFwCtlAbort
  refine nextAll.next ?_
  refine State.pageWrite_frame _ _ _ _ (by decide) (by decide) fun i hi => State.wordWrite_block (by decide) fun d b _ => ?_
  unfold State.writeBlock
  split
  · exact (State.pgErr_changes ..).widen
  · obtain ⟨hb, -⟩ := State.pageInfo_blk_98 (k := 2) (by decide) hi
    simp only [List.getD_cons_zero, List.getD_cons_succ] at hb
    rw [hb]
    dsimp only
    have h0 : bit (4 % 2 ^ 32) 0 = false := by decide
    have h1 : bit (4 % 2 ^ 32) 1 = false := by decide
    have h2 : bit (4 % 2 ^ 32) 2 = true := by decide
    simp only [State.writeFw, h0, h1, h2, Bool.false_eq_true, ↓reduceIte]
    exact Changes.getD (State.fwAbort_changes ..) (Changes.refl _ _)

theorem execTrcFctlGo_frame (prv : Priv) (val : Word) (s : State) : nextAll (Changes 0x360100011400 s) (execTrcFctlGo prv val s) := by
  unfold execTrcFctlGo
  refine nextAll.next ?_
  refine State.pageWrite_frame _ _ _ _ (by decide) (by decide) fun i hi => State.wordWrite_block (by decide) fun d b _ => ?_
  unfold State.writeBlock
  split
  · exact (State.pgErr_changes ..).widen
  · obtain ⟨hb, -⟩ := State.pageInfo_blk_99 (k := 5) (by decide) hi
    simp only [List.getD_cons_zero, List.getD_cons_succ] at hb
    rw [hb]
    dsimp only
    exact (State.writeFctl_changes ..).widen

theorem execTrcFctlThaw_frame (prv : Priv) (val : Word) (s : State) : nextAll (Changes 0x360100011400 s) (execTrcFctlThaw prv val s) := by
  unfold execTrcFctlThaw
  refine nextAll.next ?_
  refine State.pageWrite_frame _ _ _ _ (by decide) (by decide) fun i hi => State.wordWrite_block (by decide) fun d b _ => ?_
  unfold State.writeBlock
  split
  · exact (State.pgErr_changes ..).widen
  · obtain ⟨hb, -⟩ := State.pageInfo_blk_99 (k := 5) (by decide) hi
    simp only [List.getD_cons_zero, List.getD_cons_succ] at hb
    rw [hb]
    dsimp only
    exact (State.writeFctl_changes ..).widen

theorem execTrcFctlSgo_frame (prv : Priv) (val : Word) (s : State) : nextAll (Changes 0x360100011400 s) (execTrcFctlSgo prv val s) := by
  unfold execTrcFctlSgo
  refine nextAll.next ?_
  refine State.pageWrite_frame _ _ _ _ (by decide) (by decide) fun i hi => State.wordWrite_block (by decide) fun d b _ => ?_
  unfold State.writeBlock
  split
  · exact (State.pgErr_changes ..).widen
  · obtain ⟨hb, -⟩ := State.pageInfo_blk_99 (k := 5) (by decide) hi
    simp only [List.getD_cons_zero, List.getD_cons_succ] at hb
    rw [hb]
    dsimp only
    exact (State.writeFctl_changes ..).widen

theorem execTrcFctlSthaw_frame (prv : Priv) (val : Word) (s : State) : nextAll (Changes 0x360100011400 s) (execTrcFctlSthaw prv val s) := by
  unfold execTrcFctlSthaw
  refine nextAll.next ?_
  refine State.pageWrite_frame _ _ _ _ (by decide) (by decide) fun i hi => State.wordWrite_block (by decide) fun d b _ => ?_
  unfold State.writeBlock
  split
  · exact (State.pgErr_changes ..).widen
  · obtain ⟨hb, -⟩ := State.pageInfo_blk_99 (k := 5) (by decide) hi
    simp only [List.getD_cons_zero, List.getD_cons_succ] at hb
    rw [hb]
    dsimp only
    exact (State.writeFctl_changes ..).widen

theorem execHlkCfgRetrain_frame (prv : Priv) (port : Nat) (s : State) : nextAll (Changes 0xf61799c31500 s) (execHlkCfgRetrain prv port s) := by
  unfold execHlkCfgRetrain
  refine nextAll.next ?_
  split; swap; · exact Changes.refl _ _
  refine State.pageWrite_frame _ _ _ _ (by decide) (by decide) fun i hi => State.wordWrite_block (by decide) fun d b _ => ?_
  unfold State.writeBlock
  split
  · exact (State.pgErr_changes ..).widen
  · have hb := State.pageInfo_blk_hlk (by assumption) hi
    rw [hb]
    exact (State.writePort_changes ..).widen

theorem execHlkCfgEn_frame (prv : Priv) (port : Nat) (val : Word) (s : State) : nextAll (Changes 0xf61799c31500 s) (execHlkCfgEn prv port val s) := by
  unfold execHlkCfgEn
  refine nextAll.next ?_
  split; swap; · exact Changes.refl _ _
  refine State.pageWrite_frame _ _ _ _ (by decide) (by decide) fun i hi => State.wordWrite_block (by decide) fun d b _ => ?_
  unfold State.writeBlock
  split
  · exact (State.pgErr_changes ..).widen
  · have hb := State.pageInfo_blk_hlk (by assumption) hi
    rw [hb]
    exact (State.writePort_changes ..).widen

theorem execRdpCfgRetrain_frame (prv : Priv) (port : Nat) (s : State) : nextAll (Changes 0xf61799c31500 s) (execRdpCfgRetrain prv port s) := by
  unfold execRdpCfgRetrain
  refine nextAll.next ?_
  split; swap; · exact Changes.refl _ _
  refine State.pageWrite_frame _ _ _ _ (by decide) (by decide) fun i hi => State.wordWrite_block (by decide) fun d b _ => ?_
  unfold State.writeBlock
  split
  · exact (State.pgErr_changes ..).widen
  · have hb := State.pageInfo_blk_port (by omega) hi
    rcases hb with hb | hb <;> (rw [hb]; exact (State.writePort_changes ..).widen)

theorem execRdpCfgEn_frame (prv : Priv) (port : Nat) (val : Word) (s : State) : nextAll (Changes 0xf61799c31500 s) (execRdpCfgEn prv port val s) := by
  unfold execRdpCfgEn
  refine nextAll.next ?_
  split; swap; · exact Changes.refl _ _
  refine State.pageWrite_frame _ _ _ _ (by decide) (by decide) fun i hi => State.wordWrite_block (by decide) fun d b _ => ?_
  unfold State.writeBlock
  split
  · exact (State.pgErr_changes ..).widen
  · have hb := State.pageInfo_blk_port (by omega) hi
    rcases hb with hb | hb <;> (rw [hb]; exact (State.writePort_changes ..).widen)

theorem execTrcCtlWrite_frame (prv : Priv) (die : Nat) (val : Word) (s : State) : nextAll (Changes 0x320100011400 s) (execTrcCtlWrite prv die val s) := by
  unfold execTrcCtlWrite
  refine nextAll.next ?_
  split; swap; · exact Changes.refl _ _
  refine State.pageWrite_frame _ _ _ _ (by decide) (by decide) fun i hi => State.wordWrite_block (by decide) fun d b _ => ?_
  unfold State.writeBlock
  split
  · exact (State.pgErr_changes ..).widen
  · have hb := State.pageInfo_blk_trc (by assumption) hi
    rw [hb]
    exact (State.writeTrcCtl_changes ..).widen

end Sys2Proof.Machine
end

