-- ==== Sys2Proof/Laws/Service.lean ====
section
/-! SUPPORT. What each operation of Machine/Service.lean may change (the masks number the fields of State in order). -/

set_option Elab.async false

namespace Sys2Proof.Machine

theorem State.smbus_changes (s : State) (o : Out) :
    Changes 0x100100011400 s (State.smbus s o) := by
  unfold State.smbus
  repeat' (with_reducible first
    | exact Changes.refl _ _
    | (show Nat.lor _ _ = _; decide)
    | apply Changes.ite
    | apply Changes.after (State.addOut_changes ..)
    | apply Changes.after (State.count_changes ..)
    | intro _)

theorem State.smbEmber_changes (s : State) (code n v : Nat) :
    Changes 0x100100011400 s (State.smbEmber s code n v) := by
  unfold State.smbEmber
  repeat' (with_reducible first
    | exact Changes.refl _ _
    | (show Nat.lor _ _ = _; decide)
    | apply Changes.after (State.smbus_changes ..))

theorem State.smbMain_changes (s : State) (code n v : Nat) :
    Changes 0x100100011400 s (State.smbMain s code n v) := by
  unfold State.smbMain
  repeat' (with_reducible first
    | exact Changes.refl _ _
    | (show Nat.lor _ _ = _; decide)
    | apply Changes.after (State.smbus_changes ..))

theorem State.setJtag_changes (s : State) (j : Jtag) :
    Changes 0x4000000000 s (State.setJtag s j) := by
  unfold State.setJtag
  repeat' (with_reducible first
    | exact Changes.refl _ _
    | (show Nat.lor _ _ = _; decide)
    | ((fail_if_success (apply Changes.after (Changes.set_snapQ _ _))); apply Changes.after (Changes.set_jtag _ _)))

theorem State.setIr_changes (s : State) (c : Byte) :
    Changes 0x4000000000 s (State.setIr s c) := by
  unfold State.setIr
  repeat' (with_reducible first
    | exact Changes.refl _ _
    | (show Nat.lor _ _ = _; decide)
    | apply Changes.ite
    | apply Changes.after (State.setJtag_changes ..)
    | intro _)

theorem execSmbReadVin_changes (s : State) :
    nextAll (Changes 0x100100011400 s) (execSmbReadVin s) := by
  unfold execSmbReadVin
  repeat' (with_reducible first
    | exact Changes.refl _ _
    | (show Nat.lor _ _ = _; decide)
    | apply nextAll.next
    | apply Changes.after (State.smbMain_changes ..))

theorem execSmbReadVstby_changes (s : State) :
    nextAll (Changes 0x100100011400 s) (execSmbReadVstby s) := by
  unfold execSmbReadVstby
  repeat' (with_reducible first
    | exact Changes.refl _ _
    | (show Nat.lor _ _ = _; decide)
    | apply nextAll.next
    | apply Changes.after (State.smbMain_changes ..))

theorem execSmbReadTj_changes (s : State) :
    nextAll (Changes 0x100100011400 s) (execSmbReadTj s) := by
  unfold execSmbReadTj
  repeat' (with_reducible first
    | exact Changes.refl _ _
    | (show Nat.lor _ _ = _; decide)
    | apply nextAll.next
    | apply Changes.after (State.smbMain_changes ..))

theorem execSmbReadDraw_changes (s : State) :
    nextAll (Changes 0x100100011400 s) (execSmbReadDraw s) := by
  unfold execSmbReadDraw
  repeat' (with_reducible first
    | exact Changes.refl _ _
    | (show Nat.lor _ _ = _; decide)
    | apply nextAll.next
    | apply Changes.after (State.smbMain_changes ..))

theorem execSmbReadBudget_changes (s : State) :
    nextAll (Changes 0x100100011400 s) (execSmbReadBudget s) := by
  unfold execSmbReadBudget
  repeat' (with_reducible first
    | exact Changes.refl _ _
    | (show Nat.lor _ _ = _; decide)
    | apply nextAll.next
    | apply Changes.after (State.smbMain_changes ..))

theorem execSmbReadKsts_changes (s : State) :
    nextAll (Changes 0x100100011400 s) (execSmbReadKsts s) := by
  unfold execSmbReadKsts
  repeat' (with_reducible first
    | exact Changes.refl _ _
    | (show Nat.lor _ _ = _; decide)
    | apply nextAll.next
    | apply Changes.after (State.smbMain_changes ..))

theorem execSmbReadCause_changes (s : State) :
    nextAll (Changes 0x100100011400 s) (execSmbReadCause s) := by
  unfold execSmbReadCause
  repeat' (with_reducible first
    | exact Changes.refl _ _
    | (show Nat.lor _ _ = _; decide)
    | apply nextAll.next
    | apply Changes.after (State.smbEmber_changes ..))

theorem execSmbReadRtotal_changes (s : State) :
    nextAll (Changes 0x100100011400 s) (execSmbReadRtotal s) := by
  unfold execSmbReadRtotal
  repeat' (with_reducible first
    | exact Changes.refl _ _
    | (show Nat.lor _ _ = _; decide)
    | apply nextAll.next
    | apply Changes.after (State.smbEmber_changes ..))

theorem execSmbReadStrap_changes (s : State) :
    nextAll (Changes 0x100100011400 s) (execSmbReadStrap s) := by
  unfold execSmbReadStrap
  repeat' (with_reducible first
    | exact Changes.refl _ _
    | (show Nat.lor _ _ = _; decide)
    | apply nextAll.next
    | apply Changes.after (State.smbEmber_changes ..))

theorem execSmbReadCaddr_changes (s : State) :
    nextAll (Changes 0x100100011400 s) (execSmbReadCaddr s) := by
  unfold execSmbReadCaddr
  repeat' (with_reducible first
    | exact Changes.refl _ _
    | (show Nat.lor _ _ = _; decide)
    | apply nextAll.next
    | apply Changes.after (State.smbEmber_changes ..))

theorem execSmbReadRcnt_changes (c : Nat) (s : State) :
    nextAll (Changes 0x100100011400 s) (execSmbReadRcnt c s) := by
  unfold execSmbReadRcnt
  repeat' (with_reducible first
    | exact Changes.refl _ _
    | (show Nat.lor _ _ = _; decide)
    | apply nextAll.next
    | apply Changes.ite
    | apply Changes.after (State.smbEmber_changes ..)
    | intro _)

theorem execSmbReadIdcode_changes (s : State) :
    nextAll (Changes 0x100100011400 s) (execSmbReadIdcode s) := by
  unfold execSmbReadIdcode
  repeat' (with_reducible first
    | exact Changes.refl _ _
    | (show Nat.lor _ _ = _; decide)
    | apply nextAll.next
    | apply Changes.after (State.smbEmber_changes ..))

theorem execSmbWrite_changes (_code : Byte) (s : State) :
    nextAll (Changes 0x100100011400 s) (execSmbWrite _code s) := by
  unfold execSmbWrite
  repeat' (with_reducible first
    | exact Changes.refl _ _
    | (show Nat.lor _ _ = _; decide)
    | apply nextAll.next
    | apply Changes.after (State.smbus_changes ..))

theorem execExtest_changes (s : State) :
    nextAll (Changes 0x4000000000 s) (execExtest s) := by
  unfold execExtest
  repeat' (with_reducible first
    | exact Changes.refl _ _
    | (show Nat.lor _ _ = _; decide)
    | apply nextAll.next
    | apply Changes.after (State.setIr_changes ..))

/-- A free boundary register taken. -/
theorem State.sample_changes (t : State) (j : Jtag) : Changes 0x204000000000 t { t.setJtag j with fresh := t.fresh + 1 } :=
  ((State.setJtag_changes t j).widen (m := 0x204000000000)).andThen (Changes.set_fresh (t.setJtag j) (t.fresh + 1) (Nat.le_succ t.fresh))

theorem execSamplePreload_changes (s : State) : nextAll (Changes 0x204000000000 s) (execSamplePreload s) := by
  unfold execSamplePreload
  split
  · exact nextAll.next ((State.setIr_changes s 0x01).widen.andThen (State.sample_changes _ _))
  · exact nextAll.next (Changes.refl _ _)

theorem execIdcode_changes (s : State) :
    nextAll (Changes 0x104000000000 s) (execIdcode s) := by
  unfold execIdcode
  repeat' (with_reducible first
    | exact Changes.refl _ _
    | (show Nat.lor _ _ = _; decide)
    | apply nextAll.next
    | apply Changes.ite
    | apply Changes.after (State.addOut_changes ..)
    | apply Changes.after (State.setIr_changes ..)
    | intro _)

theorem execBypass_changes (code : Byte) (s : State) :
    nextAll (Changes 0x4000000000 s) (execBypass code s) := by
  unfold execBypass
  repeat' (with_reducible first
    | exact Changes.refl _ _
    | (show Nat.lor _ _ = _; decide)
    | apply nextAll.next
    | apply Changes.ite
    | apply Changes.after (State.setIr_changes ..)
    | intro _)

theorem execRegaccUpdate_changes (dr : BitVec 83) (s : State) :
    nextAll (Changes 0xffffffffffe6 s) (execRegaccUpdate dr s) := by
  unfold execRegaccUpdate
  repeat' (with_reducible first
    | (have hh := Changes.fst (State.readReg_changes ..) ‹_ = (_, _)›; apply Changes.after hh; clear hh)
    | exact Changes.refl _ _
    | (show Nat.lor _ _ = _; decide)
    | apply nextAll.next
    | apply nextAll.ite
    | apply Changes.after (State.setJtag_changes ..)
    | apply Changes.after (State.writeReg_changes ..)
    | apply Changes.after (State.count_changes ..)
    | intro _
    | split
    | ((fail_if_success (apply Changes.after (Changes.set_snapQ _ _))); apply Changes.after (Changes.set_fresh _ _ (Nat.le_add_right _ _))))

theorem execRegaccCapture_changes (s : State) :
    nextAll (Changes 0x4000000000 s) (execRegaccCapture s) := by
  unfold execRegaccCapture
  repeat' (with_reducible first
    | exact Changes.refl _ _
    | (show Nat.lor _ _ = _; decide)
    | apply nextAll.next
    | apply Changes.after (State.setJtag_changes ..)
    | split)

end Sys2Proof.Machine
end

