-- ==== Sys2Proof/Laws/State.lean ====
section
/-! SUPPORT. What each named update of State leaves in each field, true by rfl, and what is read after it. -/

set_option Elab.async false

namespace Sys2Proof.Machine

@[simp] theorem State.setDom_pending (s : State) (k : Nat) (d : Dom) : (s.setDom k d).pending = s.pending := rfl
@[simp] theorem State.setDom_fuses (s : State) (k : Nat) (d : Dom) : (s.setDom k d).fuses = s.fuses := rfl
@[simp] theorem State.setDom_shadow (s : State) (k : Nat) (d : Dom) : (s.setDom k d).shadow = s.shadow := rfl
@[simp] theorem State.setDom_pins (s : State) (k : Nat) (d : Dom) : (s.setDom k d).pins = s.pins := rfl
@[simp] theorem State.setDom_supply (s : State) (k : Nat) (d : Dom) : (s.setDom k d).supply = s.supply := rfl
@[simp] theorem State.setDom_ember (s : State) (k : Nat) (d : Dom) : (s.setDom k d).ember = s.ember := rfl
@[simp] theorem State.setDom_rst (s : State) (k : Nat) (d : Dom) : (s.setDom k d).rst = s.rst := rfl
@[simp] theorem State.setDom_kind (s : State) (k : Nat) (d : Dom) : (s.setDom k d).kind = s.kind := rfl
@[simp] theorem State.setDom_doms (s : State) (k : Nat) (d : Dom) : (s.setDom k d).doms = SMap.put s.doms (s.domDflt k) k d := rfl
@[simp] theorem State.setDom_lostClk (s : State) (k : Nat) (d : Dom) : (s.setDom k d).lostClk = s.lostClk := rfl
@[simp] theorem State.setDom_pages (s : State) (k : Nat) (d : Dom) : (s.setDom k d).pages = s.pages := rfl
@[simp] theorem State.setDom_ownBad (s : State) (k : Nat) (d : Dom) : (s.setDom k d).ownBad = s.ownBad := rfl
@[simp] theorem State.setDom_queues (s : State) (k : Nat) (d : Dom) : (s.setDom k d).queues = s.queues := rfl
@[simp] theorem State.setDom_order (s : State) (k : Nat) (d : Dom) : (s.setDom k d).order = s.order := rfl
@[simp] theorem State.setDom_rr (s : State) (k : Nat) (d : Dom) : (s.setDom k d).rr = s.rr := rfl
@[simp] theorem State.setDom_copies (s : State) (k : Nat) (d : Dom) : (s.setDom k d).copies = s.copies := rfl
@[simp] theorem State.setDom_held (s : State) (k : Nat) (d : Dom) : (s.setDom k d).held = s.held := rfl
@[simp] theorem State.setDom_ctxs (s : State) (k : Nat) (d : Dom) : (s.setDom k d).ctxs = s.ctxs := rfl
@[simp] theorem State.setDom_psync (s : State) (k : Nat) (d : Dom) : (s.setDom k d).psync = s.psync := rfl
@[simp] theorem State.setDom_psnap (s : State) (k : Nat) (d : Dom) : (s.setDom k d).psnap = s.psnap := rfl
@[simp] theorem State.setDom_lsync (s : State) (k : Nat) (d : Dom) : (s.setDom k d).lsync = s.lsync := rfl
@[simp] theorem State.setDom_lsnap (s : State) (k : Nat) (d : Dom) : (s.setDom k d).lsnap = s.lsnap := rfl
@[simp] theorem State.setDom_cores (s : State) (k : Nat) (d : Dom) : (s.setDom k d).cores = s.cores := rfl
@[simp] theorem State.setDom_engines (s : State) (k : Nat) (d : Dom) : (s.setDom k d).engines = s.engines := rfl
@[simp] theorem State.setDom_stores (s : State) (k : Nat) (d : Dom) : (s.setDom k d).stores = s.stores := rfl
@[simp] theorem State.setDom_lanes (s : State) (k : Nat) (d : Dom) : (s.setDom k d).lanes = s.lanes := rfl
@[simp] theorem State.setDom_shadows (s : State) (k : Nat) (d : Dom) : (s.setDom k d).shadows = s.shadows := rfl
@[simp] theorem State.setDom_drt (s : State) (k : Nat) (d : Dom) : (s.setDom k d).drt = s.drt := rfl
@[simp] theorem State.setDom_beat (s : State) (k : Nat) (d : Dom) : (s.setDom k d).beat = s.beat := rfl
@[simp] theorem State.setDom_sched (s : State) (k : Nat) (d : Dom) : (s.setDom k d).sched = s.sched := rfl
@[simp] theorem State.setDom_prefetch (s : State) (k : Nat) (d : Dom) : (s.setDom k d).prefetch = s.prefetch := rfl
@[simp] theorem State.setDom_pageReqs (s : State) (k : Nat) (d : Dom) : (s.setDom k d).pageReqs = s.pageReqs := rfl
@[simp] theorem State.setDom_mem (s : State) (k : Nat) (d : Dom) : (s.setDom k d).mem = s.mem := rfl
@[simp] theorem State.setDom_ue (s : State) (k : Nat) (d : Dom) : (s.setDom k d).ue = s.ue := rfl
@[simp] theorem State.setDom_ueSeen (s : State) (k : Nat) (d : Dom) : (s.setDom k d).ueSeen = s.ueSeen := rfl
@[simp] theorem State.setDom_scrubPos (s : State) (k : Nat) (d : Dom) : (s.setDom k d).scrubPos = s.scrubPos := rfl
@[simp] theorem State.setDom_ports (s : State) (k : Nat) (d : Dom) : (s.setDom k d).ports = s.ports := rfl
@[simp] theorem State.setDom_chain (s : State) (k : Nat) (d : Dom) : (s.setDom k d).chain = s.chain := rfl
@[simp] theorem State.setDom_jtag (s : State) (k : Nat) (d : Dom) : (s.setDom k d).jtag = s.jtag := rfl
@[simp] theorem State.setDom_flash (s : State) (k : Nat) (d : Dom) : (s.setDom k d).flash = s.flash := rfl
@[simp] theorem State.setDom_fw (s : State) (k : Nat) (d : Dom) : (s.setDom k d).fw = s.fw := rfl
@[simp] theorem State.setDom_trc (s : State) (k : Nat) (d : Dom) : (s.setDom k d).trc = s.trc := rfl
@[simp] theorem State.setDom_freeze (s : State) (k : Nat) (d : Dom) : (s.setDom k d).freeze = s.freeze := rfl
@[simp] theorem State.setDom_snapQ (s : State) (k : Nat) (d : Dom) : (s.setDom k d).snapQ = s.snapQ := rfl
@[simp] theorem State.setDom_out (s : State) (k : Nat) (d : Dom) : (s.setDom k d).out = s.out := rfl
@[simp] theorem State.setDom_fresh (s : State) (k : Nat) (d : Dom) : (s.setDom k d).fresh = s.fresh := rfl
@[simp] theorem State.setDom_drains (s : State) (k : Nat) (d : Dom) : (s.setDom k d).drains = s.drains := rfl
@[simp] theorem State.setDom_errs (s : State) (k : Nat) (d : Dom) : (s.setDom k d).errs = s.errs := rfl

@[simp] theorem State.setPage_pending (s : State) (pg : Nat) (p : Page) : (s.setPage pg p).pending = s.pending := rfl
@[simp] theorem State.setPage_fuses (s : State) (pg : Nat) (p : Page) : (s.setPage pg p).fuses = s.fuses := rfl
@[simp] theorem State.setPage_shadow (s : State) (pg : Nat) (p : Page) : (s.setPage pg p).shadow = s.shadow := rfl
@[simp] theorem State.setPage_pins (s : State) (pg : Nat) (p : Page) : (s.setPage pg p).pins = s.pins := rfl
@[simp] theorem State.setPage_supply (s : State) (pg : Nat) (p : Page) : (s.setPage pg p).supply = s.supply := rfl
@[simp] theorem State.setPage_ember (s : State) (pg : Nat) (p : Page) : (s.setPage pg p).ember = s.ember := rfl
@[simp] theorem State.setPage_rst (s : State) (pg : Nat) (p : Page) : (s.setPage pg p).rst = s.rst := rfl
@[simp] theorem State.setPage_kind (s : State) (pg : Nat) (p : Page) : (s.setPage pg p).kind = s.kind := rfl
@[simp] theorem State.setPage_doms (s : State) (pg : Nat) (p : Page) : (s.setPage pg p).doms = s.doms := rfl
@[simp] theorem State.setPage_lostClk (s : State) (pg : Nat) (p : Page) : (s.setPage pg p).lostClk = s.lostClk := rfl
@[simp] theorem State.setPage_pages (s : State) (pg : Nat) (p : Page) : (s.setPage pg p).pages = SMap.put s.pages Page.reset pg p := rfl
@[simp] theorem State.setPage_ownBad (s : State) (pg : Nat) (p : Page) : (s.setPage pg p).ownBad = s.ownBad := rfl
@[simp] theorem State.setPage_queues (s : State) (pg : Nat) (p : Page) : (s.setPage pg p).queues = s.queues := rfl
@[simp] theorem State.setPage_order (s : State) (pg : Nat) (p : Page) : (s.setPage pg p).order = s.order := rfl
@[simp] theorem State.setPage_rr (s : State) (pg : Nat) (p : Page) : (s.setPage pg p).rr = s.rr := rfl
@[simp] theorem State.setPage_copies (s : State) (pg : Nat) (p : Page) : (s.setPage pg p).copies = s.copies := rfl
@[simp] theorem State.setPage_held (s : State) (pg : Nat) (p : Page) : (s.setPage pg p).held = s.held := rfl
@[simp] theorem State.setPage_ctxs (s : State) (pg : Nat) (p : Page) : (s.setPage pg p).ctxs = s.ctxs := rfl
@[simp] theorem State.setPage_psync (s : State) (pg : Nat) (p : Page) : (s.setPage pg p).psync = s.psync := rfl
@[simp] theorem State.setPage_psnap (s : State) (pg : Nat) (p : Page) : (s.setPage pg p).psnap = s.psnap := rfl
@[simp] theorem State.setPage_lsync (s : State) (pg : Nat) (p : Page) : (s.setPage pg p).lsync = s.lsync := rfl
@[simp] theorem State.setPage_lsnap (s : State) (pg : Nat) (p : Page) : (s.setPage pg p).lsnap = s.lsnap := rfl
@[simp] theorem State.setPage_cores (s : State) (pg : Nat) (p : Page) : (s.setPage pg p).cores = s.cores := rfl
@[simp] theorem State.setPage_engines (s : State) (pg : Nat) (p : Page) : (s.setPage pg p).engines = s.engines := rfl
@[simp] theorem State.setPage_stores (s : State) (pg : Nat) (p : Page) : (s.setPage pg p).stores = s.stores := rfl
@[simp] theorem State.setPage_lanes (s : State) (pg : Nat) (p : Page) : (s.setPage pg p).lanes = s.lanes := rfl
@[simp] theorem State.setPage_shadows (s : State) (pg : Nat) (p : Page) : (s.setPage pg p).shadows = s.shadows := rfl
@[simp] theorem State.setPage_drt (s : State) (pg : Nat) (p : Page) : (s.setPage pg p).drt = s.drt := rfl
@[simp] theorem State.setPage_beat (s : State) (pg : Nat) (p : Page) : (s.setPage pg p).beat = s.beat := rfl
@[simp] theorem State.setPage_sched (s : State) (pg : Nat) (p : Page) : (s.setPage pg p).sched = s.sched := rfl
@[simp] theorem State.setPage_prefetch (s : State) (pg : Nat) (p : Page) : (s.setPage pg p).prefetch = s.prefetch := rfl
@[simp] theorem State.setPage_pageReqs (s : State) (pg : Nat) (p : Page) : (s.setPage pg p).pageReqs = s.pageReqs := rfl
@[simp] theorem State.setPage_mem (s : State) (pg : Nat) (p : Page) : (s.setPage pg p).mem = s.mem := rfl
@[simp] theorem State.setPage_ue (s : State) (pg : Nat) (p : Page) : (s.setPage pg p).ue = s.ue := rfl
@[simp] theorem State.setPage_ueSeen (s : State) (pg : Nat) (p : Page) : (s.setPage pg p).ueSeen = s.ueSeen := rfl
@[simp] theorem State.setPage_scrubPos (s : State) (pg : Nat) (p : Page) : (s.setPage pg p).scrubPos = s.scrubPos := rfl
@[simp] theorem State.setPage_ports (s : State) (pg : Nat) (p : Page) : (s.setPage pg p).ports = s.ports := rfl
@[simp] theorem State.setPage_chain (s : State) (pg : Nat) (p : Page) : (s.setPage pg p).chain = s.chain := rfl
@[simp] theorem State.setPage_jtag (s : State) (pg : Nat) (p : Page) : (s.setPage pg p).jtag = s.jtag := rfl
@[simp] theorem State.setPage_flash (s : State) (pg : Nat) (p : Page) : (s.setPage pg p).flash = s.flash := rfl
@[simp] theorem State.setPage_fw (s : State) (pg : Nat) (p : Page) : (s.setPage pg p).fw = s.fw := rfl
@[simp] theorem State.setPage_trc (s : State) (pg : Nat) (p : Page) : (s.setPage pg p).trc = s.trc := rfl
@[simp] theorem State.setPage_freeze (s : State) (pg : Nat) (p : Page) : (s.setPage pg p).freeze = s.freeze := rfl
@[simp] theorem State.setPage_snapQ (s : State) (pg : Nat) (p : Page) : (s.setPage pg p).snapQ = s.snapQ := rfl
@[simp] theorem State.setPage_out (s : State) (pg : Nat) (p : Page) : (s.setPage pg p).out = s.out := rfl
@[simp] theorem State.setPage_fresh (s : State) (pg : Nat) (p : Page) : (s.setPage pg p).fresh = s.fresh := rfl
@[simp] theorem State.setPage_drains (s : State) (pg : Nat) (p : Page) : (s.setPage pg p).drains = s.drains := rfl
@[simp] theorem State.setPage_errs (s : State) (pg : Nat) (p : Page) : (s.setPage pg p).errs = s.errs := rfl

@[simp] theorem State.setCtx_pending (s : State) (c : Nat) (x : Option Ctx) : (s.setCtx c x).pending = s.pending := rfl
@[simp] theorem State.setCtx_fuses (s : State) (c : Nat) (x : Option Ctx) : (s.setCtx c x).fuses = s.fuses := rfl
@[simp] theorem State.setCtx_shadow (s : State) (c : Nat) (x : Option Ctx) : (s.setCtx c x).shadow = s.shadow := rfl
@[simp] theorem State.setCtx_pins (s : State) (c : Nat) (x : Option Ctx) : (s.setCtx c x).pins = s.pins := rfl
@[simp] theorem State.setCtx_supply (s : State) (c : Nat) (x : Option Ctx) : (s.setCtx c x).supply = s.supply := rfl
@[simp] theorem State.setCtx_ember (s : State) (c : Nat) (x : Option Ctx) : (s.setCtx c x).ember = s.ember := rfl
@[simp] theorem State.setCtx_rst (s : State) (c : Nat) (x : Option Ctx) : (s.setCtx c x).rst = s.rst := rfl
@[simp] theorem State.setCtx_kind (s : State) (c : Nat) (x : Option Ctx) : (s.setCtx c x).kind = s.kind := rfl
@[simp] theorem State.setCtx_doms (s : State) (c : Nat) (x : Option Ctx) : (s.setCtx c x).doms = s.doms := rfl
@[simp] theorem State.setCtx_lostClk (s : State) (c : Nat) (x : Option Ctx) : (s.setCtx c x).lostClk = s.lostClk := rfl
@[simp] theorem State.setCtx_pages (s : State) (c : Nat) (x : Option Ctx) : (s.setCtx c x).pages = s.pages := rfl
@[simp] theorem State.setCtx_ownBad (s : State) (c : Nat) (x : Option Ctx) : (s.setCtx c x).ownBad = s.ownBad := rfl
@[simp] theorem State.setCtx_queues (s : State) (c : Nat) (x : Option Ctx) : (s.setCtx c x).queues = s.queues := rfl
@[simp] theorem State.setCtx_order (s : State) (c : Nat) (x : Option Ctx) : (s.setCtx c x).order = s.order := rfl
@[simp] theorem State.setCtx_rr (s : State) (c : Nat) (x : Option Ctx) : (s.setCtx c x).rr = s.rr := rfl
@[simp] theorem State.setCtx_copies (s : State) (c : Nat) (x : Option Ctx) : (s.setCtx c x).copies = s.copies := rfl
@[simp] theorem State.setCtx_held (s : State) (c : Nat) (x : Option Ctx) : (s.setCtx c x).held = s.held := rfl
@[simp] theorem State.setCtx_ctxs (s : State) (c : Nat) (x : Option Ctx) : (s.setCtx c x).ctxs = SMap.put s.ctxs none c x := rfl
@[simp] theorem State.setCtx_psync (s : State) (c : Nat) (x : Option Ctx) : (s.setCtx c x).psync = s.psync := rfl
@[simp] theorem State.setCtx_psnap (s : State) (c : Nat) (x : Option Ctx) : (s.setCtx c x).psnap = s.psnap := rfl
@[simp] theorem State.setCtx_lsync (s : State) (c : Nat) (x : Option Ctx) : (s.setCtx c x).lsync = s.lsync := rfl
@[simp] theorem State.setCtx_lsnap (s : State) (c : Nat) (x : Option Ctx) : (s.setCtx c x).lsnap = s.lsnap := rfl
@[simp] theorem State.setCtx_cores (s : State) (c : Nat) (x : Option Ctx) : (s.setCtx c x).cores = s.cores := rfl
@[simp] theorem State.setCtx_engines (s : State) (c : Nat) (x : Option Ctx) : (s.setCtx c x).engines = s.engines := rfl
@[simp] theorem State.setCtx_stores (s : State) (c : Nat) (x : Option Ctx) : (s.setCtx c x).stores = s.stores := rfl
@[simp] theorem State.setCtx_lanes (s : State) (c : Nat) (x : Option Ctx) : (s.setCtx c x).lanes = s.lanes := rfl
@[simp] theorem State.setCtx_shadows (s : State) (c : Nat) (x : Option Ctx) : (s.setCtx c x).shadows = s.shadows := rfl
@[simp] theorem State.setCtx_drt (s : State) (c : Nat) (x : Option Ctx) : (s.setCtx c x).drt = s.drt := rfl
@[simp] theorem State.setCtx_beat (s : State) (c : Nat) (x : Option Ctx) : (s.setCtx c x).beat = s.beat := rfl
@[simp] theorem State.setCtx_sched (s : State) (c : Nat) (x : Option Ctx) : (s.setCtx c x).sched = s.sched := rfl
@[simp] theorem State.setCtx_prefetch (s : State) (c : Nat) (x : Option Ctx) : (s.setCtx c x).prefetch = s.prefetch := rfl
@[simp] theorem State.setCtx_pageReqs (s : State) (c : Nat) (x : Option Ctx) : (s.setCtx c x).pageReqs = s.pageReqs := rfl
@[simp] theorem State.setCtx_mem (s : State) (c : Nat) (x : Option Ctx) : (s.setCtx c x).mem = s.mem := rfl
@[simp] theorem State.setCtx_ue (s : State) (c : Nat) (x : Option Ctx) : (s.setCtx c x).ue = s.ue := rfl
@[simp] theorem State.setCtx_ueSeen (s : State) (c : Nat) (x : Option Ctx) : (s.setCtx c x).ueSeen = s.ueSeen := rfl
@[simp] theorem State.setCtx_scrubPos (s : State) (c : Nat) (x : Option Ctx) : (s.setCtx c x).scrubPos = s.scrubPos := rfl
@[simp] theorem State.setCtx_ports (s : State) (c : Nat) (x : Option Ctx) : (s.setCtx c x).ports = s.ports := rfl
@[simp] theorem State.setCtx_chain (s : State) (c : Nat) (x : Option Ctx) : (s.setCtx c x).chain = s.chain := rfl
@[simp] theorem State.setCtx_jtag (s : State) (c : Nat) (x : Option Ctx) : (s.setCtx c x).jtag = s.jtag := rfl
@[simp] theorem State.setCtx_flash (s : State) (c : Nat) (x : Option Ctx) : (s.setCtx c x).flash = s.flash := rfl
@[simp] theorem State.setCtx_fw (s : State) (c : Nat) (x : Option Ctx) : (s.setCtx c x).fw = s.fw := rfl
@[simp] theorem State.setCtx_trc (s : State) (c : Nat) (x : Option Ctx) : (s.setCtx c x).trc = s.trc := rfl
@[simp] theorem State.setCtx_freeze (s : State) (c : Nat) (x : Option Ctx) : (s.setCtx c x).freeze = s.freeze := rfl
@[simp] theorem State.setCtx_snapQ (s : State) (c : Nat) (x : Option Ctx) : (s.setCtx c x).snapQ = s.snapQ := rfl
@[simp] theorem State.setCtx_out (s : State) (c : Nat) (x : Option Ctx) : (s.setCtx c x).out = s.out := rfl
@[simp] theorem State.setCtx_fresh (s : State) (c : Nat) (x : Option Ctx) : (s.setCtx c x).fresh = s.fresh := rfl
@[simp] theorem State.setCtx_drains (s : State) (c : Nat) (x : Option Ctx) : (s.setCtx c x).drains = s.drains := rfl
@[simp] theorem State.setCtx_errs (s : State) (c : Nat) (x : Option Ctx) : (s.setCtx c x).errs = s.errs := rfl

@[simp] theorem State.setPort_pending (s : State) (p : Nat) (x : Port) : (s.setPort p x).pending = s.pending := rfl
@[simp] theorem State.setPort_fuses (s : State) (p : Nat) (x : Port) : (s.setPort p x).fuses = s.fuses := rfl
@[simp] theorem State.setPort_shadow (s : State) (p : Nat) (x : Port) : (s.setPort p x).shadow = s.shadow := rfl
@[simp] theorem State.setPort_pins (s : State) (p : Nat) (x : Port) : (s.setPort p x).pins = s.pins := rfl
@[simp] theorem State.setPort_supply (s : State) (p : Nat) (x : Port) : (s.setPort p x).supply = s.supply := rfl
@[simp] theorem State.setPort_ember (s : State) (p : Nat) (x : Port) : (s.setPort p x).ember = s.ember := rfl
@[simp] theorem State.setPort_rst (s : State) (p : Nat) (x : Port) : (s.setPort p x).rst = s.rst := rfl
@[simp] theorem State.setPort_kind (s : State) (p : Nat) (x : Port) : (s.setPort p x).kind = s.kind := rfl
@[simp] theorem State.setPort_doms (s : State) (p : Nat) (x : Port) : (s.setPort p x).doms = s.doms := rfl
@[simp] theorem State.setPort_lostClk (s : State) (p : Nat) (x : Port) : (s.setPort p x).lostClk = s.lostClk := rfl
@[simp] theorem State.setPort_pages (s : State) (p : Nat) (x : Port) : (s.setPort p x).pages = s.pages := rfl
@[simp] theorem State.setPort_ownBad (s : State) (p : Nat) (x : Port) : (s.setPort p x).ownBad = s.ownBad := rfl
@[simp] theorem State.setPort_queues (s : State) (p : Nat) (x : Port) : (s.setPort p x).queues = s.queues := rfl
@[simp] theorem State.setPort_order (s : State) (p : Nat) (x : Port) : (s.setPort p x).order = s.order := rfl
@[simp] theorem State.setPort_rr (s : State) (p : Nat) (x : Port) : (s.setPort p x).rr = s.rr := rfl
@[simp] theorem State.setPort_copies (s : State) (p : Nat) (x : Port) : (s.setPort p x).copies = s.copies := rfl
@[simp] theorem State.setPort_held (s : State) (p : Nat) (x : Port) : (s.setPort p x).held = s.held := rfl
@[simp] theorem State.setPort_ctxs (s : State) (p : Nat) (x : Port) : (s.setPort p x).ctxs = s.ctxs := rfl
@[simp] theorem State.setPort_psync (s : State) (p : Nat) (x : Port) : (s.setPort p x).psync = s.psync := rfl
@[simp] theorem State.setPort_psnap (s : State) (p : Nat) (x : Port) : (s.setPort p x).psnap = s.psnap := rfl
@[simp] theorem State.setPort_lsync (s : State) (p : Nat) (x : Port) : (s.setPort p x).lsync = s.lsync := rfl
@[simp] theorem State.setPort_lsnap (s : State) (p : Nat) (x : Port) : (s.setPort p x).lsnap = s.lsnap := rfl
@[simp] theorem State.setPort_cores (s : State) (p : Nat) (x : Port) : (s.setPort p x).cores = s.cores := rfl
@[simp] theorem State.setPort_engines (s : State) (p : Nat) (x : Port) : (s.setPort p x).engines = s.engines := rfl
@[simp] theorem State.setPort_stores (s : State) (p : Nat) (x : Port) : (s.setPort p x).stores = s.stores := rfl
@[simp] theorem State.setPort_lanes (s : State) (p : Nat) (x : Port) : (s.setPort p x).lanes = s.lanes := rfl
@[simp] theorem State.setPort_shadows (s : State) (p : Nat) (x : Port) : (s.setPort p x).shadows = s.shadows := rfl
@[simp] theorem State.setPort_drt (s : State) (p : Nat) (x : Port) : (s.setPort p x).drt = s.drt := rfl
@[simp] theorem State.setPort_beat (s : State) (p : Nat) (x : Port) : (s.setPort p x).beat = s.beat := rfl
@[simp] theorem State.setPort_sched (s : State) (p : Nat) (x : Port) : (s.setPort p x).sched = s.sched := rfl
@[simp] theorem State.setPort_prefetch (s : State) (p : Nat) (x : Port) : (s.setPort p x).prefetch = s.prefetch := rfl
@[simp] theorem State.setPort_pageReqs (s : State) (p : Nat) (x : Port) : (s.setPort p x).pageReqs = s.pageReqs := rfl
@[simp] theorem State.setPort_mem (s : State) (p : Nat) (x : Port) : (s.setPort p x).mem = s.mem := rfl
@[simp] theorem State.setPort_ue (s : State) (p : Nat) (x : Port) : (s.setPort p x).ue = s.ue := rfl
@[simp] theorem State.setPort_ueSeen (s : State) (p : Nat) (x : Port) : (s.setPort p x).ueSeen = s.ueSeen := rfl
@[simp] theorem State.setPort_scrubPos (s : State) (p : Nat) (x : Port) : (s.setPort p x).scrubPos = s.scrubPos := rfl
@[simp] theorem State.setPort_ports (s : State) (p : Nat) (x : Port) : (s.setPort p x).ports = SMap.put s.ports Port.reset p x := rfl
@[simp] theorem State.setPort_chain (s : State) (p : Nat) (x : Port) : (s.setPort p x).chain = s.chain := rfl
@[simp] theorem State.setPort_jtag (s : State) (p : Nat) (x : Port) : (s.setPort p x).jtag = s.jtag := rfl
@[simp] theorem State.setPort_flash (s : State) (p : Nat) (x : Port) : (s.setPort p x).flash = s.flash := rfl
@[simp] theorem State.setPort_fw (s : State) (p : Nat) (x : Port) : (s.setPort p x).fw = s.fw := rfl
@[simp] theorem State.setPort_trc (s : State) (p : Nat) (x : Port) : (s.setPort p x).trc = s.trc := rfl
@[simp] theorem State.setPort_freeze (s : State) (p : Nat) (x : Port) : (s.setPort p x).freeze = s.freeze := rfl
@[simp] theorem State.setPort_snapQ (s : State) (p : Nat) (x : Port) : (s.setPort p x).snapQ = s.snapQ := rfl
@[simp] theorem State.setPort_out (s : State) (p : Nat) (x : Port) : (s.setPort p x).out = s.out := rfl
@[simp] theorem State.setPort_fresh (s : State) (p : Nat) (x : Port) : (s.setPort p x).fresh = s.fresh := rfl
@[simp] theorem State.setPort_drains (s : State) (p : Nat) (x : Port) : (s.setPort p x).drains = s.drains := rfl
@[simp] theorem State.setPort_errs (s : State) (p : Nat) (x : Port) : (s.setPort p x).errs = s.errs := rfl

@[simp] theorem State.setByte_pending (s : State) (a : Nat) (b : Byte) : (s.setByte a b).pending = s.pending := rfl
@[simp] theorem State.setByte_fuses (s : State) (a : Nat) (b : Byte) : (s.setByte a b).fuses = s.fuses := rfl
@[simp] theorem State.setByte_shadow (s : State) (a : Nat) (b : Byte) : (s.setByte a b).shadow = s.shadow := rfl
@[simp] theorem State.setByte_pins (s : State) (a : Nat) (b : Byte) : (s.setByte a b).pins = s.pins := rfl
@[simp] theorem State.setByte_supply (s : State) (a : Nat) (b : Byte) : (s.setByte a b).supply = s.supply := rfl
@[simp] theorem State.setByte_ember (s : State) (a : Nat) (b : Byte) : (s.setByte a b).ember = s.ember := rfl
@[simp] theorem State.setByte_rst (s : State) (a : Nat) (b : Byte) : (s.setByte a b).rst = s.rst := rfl
@[simp] theorem State.setByte_kind (s : State) (a : Nat) (b : Byte) : (s.setByte a b).kind = s.kind := rfl
@[simp] theorem State.setByte_doms (s : State) (a : Nat) (b : Byte) : (s.setByte a b).doms = s.doms := rfl
@[simp] theorem State.setByte_lostClk (s : State) (a : Nat) (b : Byte) : (s.setByte a b).lostClk = s.lostClk := rfl
@[simp] theorem State.setByte_pages (s : State) (a : Nat) (b : Byte) : (s.setByte a b).pages = s.pages := rfl
@[simp] theorem State.setByte_ownBad (s : State) (a : Nat) (b : Byte) : (s.setByte a b).ownBad = s.ownBad := rfl
@[simp] theorem State.setByte_queues (s : State) (a : Nat) (b : Byte) : (s.setByte a b).queues = s.queues := rfl
@[simp] theorem State.setByte_order (s : State) (a : Nat) (b : Byte) : (s.setByte a b).order = s.order := rfl
@[simp] theorem State.setByte_rr (s : State) (a : Nat) (b : Byte) : (s.setByte a b).rr = s.rr := rfl
@[simp] theorem State.setByte_copies (s : State) (a : Nat) (b : Byte) : (s.setByte a b).copies = s.copies := rfl
@[simp] theorem State.setByte_held (s : State) (a : Nat) (b : Byte) : (s.setByte a b).held = s.held := rfl
@[simp] theorem State.setByte_ctxs (s : State) (a : Nat) (b : Byte) : (s.setByte a b).ctxs = s.ctxs := rfl
@[simp] theorem State.setByte_psync (s : State) (a : Nat) (b : Byte) : (s.setByte a b).psync = s.psync := rfl
@[simp] theorem State.setByte_psnap (s : State) (a : Nat) (b : Byte) : (s.setByte a b).psnap = s.psnap := rfl
@[simp] theorem State.setByte_lsync (s : State) (a : Nat) (b : Byte) : (s.setByte a b).lsync = s.lsync := rfl
@[simp] theorem State.setByte_lsnap (s : State) (a : Nat) (b : Byte) : (s.setByte a b).lsnap = s.lsnap := rfl
@[simp] theorem State.setByte_cores (s : State) (a : Nat) (b : Byte) : (s.setByte a b).cores = s.cores := rfl
@[simp] theorem State.setByte_engines (s : State) (a : Nat) (b : Byte) : (s.setByte a b).engines = s.engines := rfl
@[simp] theorem State.setByte_stores (s : State) (a : Nat) (b : Byte) : (s.setByte a b).stores = s.stores := rfl
@[simp] theorem State.setByte_lanes (s : State) (a : Nat) (b : Byte) : (s.setByte a b).lanes = s.lanes := rfl
@[simp] theorem State.setByte_shadows (s : State) (a : Nat) (b : Byte) : (s.setByte a b).shadows = s.shadows := rfl
@[simp] theorem State.setByte_drt (s : State) (a : Nat) (b : Byte) : (s.setByte a b).drt = s.drt := rfl
@[simp] theorem State.setByte_beat (s : State) (a : Nat) (b : Byte) : (s.setByte a b).beat = s.beat := rfl
@[simp] theorem State.setByte_sched (s : State) (a : Nat) (b : Byte) : (s.setByte a b).sched = s.sched := rfl
@[simp] theorem State.setByte_prefetch (s : State) (a : Nat) (b : Byte) : (s.setByte a b).prefetch = s.prefetch := rfl
@[simp] theorem State.setByte_pageReqs (s : State) (a : Nat) (b : Byte) : (s.setByte a b).pageReqs = s.pageReqs := rfl
@[simp] theorem State.setByte_mem (s : State) (a : Nat) (b : Byte) : (s.setByte a b).mem = SMap.put s.mem 0 a b := rfl
@[simp] theorem State.setByte_ue (s : State) (a : Nat) (b : Byte) : (s.setByte a b).ue = s.ue := rfl
@[simp] theorem State.setByte_ueSeen (s : State) (a : Nat) (b : Byte) : (s.setByte a b).ueSeen = s.ueSeen := rfl
@[simp] theorem State.setByte_scrubPos (s : State) (a : Nat) (b : Byte) : (s.setByte a b).scrubPos = s.scrubPos := rfl
@[simp] theorem State.setByte_ports (s : State) (a : Nat) (b : Byte) : (s.setByte a b).ports = s.ports := rfl
@[simp] theorem State.setByte_chain (s : State) (a : Nat) (b : Byte) : (s.setByte a b).chain = s.chain := rfl
@[simp] theorem State.setByte_jtag (s : State) (a : Nat) (b : Byte) : (s.setByte a b).jtag = s.jtag := rfl
@[simp] theorem State.setByte_flash (s : State) (a : Nat) (b : Byte) : (s.setByte a b).flash = s.flash := rfl
@[simp] theorem State.setByte_fw (s : State) (a : Nat) (b : Byte) : (s.setByte a b).fw = s.fw := rfl
@[simp] theorem State.setByte_trc (s : State) (a : Nat) (b : Byte) : (s.setByte a b).trc = s.trc := rfl
@[simp] theorem State.setByte_freeze (s : State) (a : Nat) (b : Byte) : (s.setByte a b).freeze = s.freeze := rfl
@[simp] theorem State.setByte_snapQ (s : State) (a : Nat) (b : Byte) : (s.setByte a b).snapQ = s.snapQ := rfl
@[simp] theorem State.setByte_out (s : State) (a : Nat) (b : Byte) : (s.setByte a b).out = s.out := rfl
@[simp] theorem State.setByte_fresh (s : State) (a : Nat) (b : Byte) : (s.setByte a b).fresh = s.fresh := rfl
@[simp] theorem State.setByte_drains (s : State) (a : Nat) (b : Byte) : (s.setByte a b).drains = s.drains := rfl
@[simp] theorem State.setByte_errs (s : State) (a : Nat) (b : Byte) : (s.setByte a b).errs = s.errs := rfl

@[simp] theorem State.setBytes_pending (s : State) (a : Nat) (bs : List Byte) : (s.setBytes a bs).pending = s.pending := rfl
@[simp] theorem State.setBytes_fuses (s : State) (a : Nat) (bs : List Byte) : (s.setBytes a bs).fuses = s.fuses := rfl
@[simp] theorem State.setBytes_shadow (s : State) (a : Nat) (bs : List Byte) : (s.setBytes a bs).shadow = s.shadow := rfl
@[simp] theorem State.setBytes_pins (s : State) (a : Nat) (bs : List Byte) : (s.setBytes a bs).pins = s.pins := rfl
@[simp] theorem State.setBytes_supply (s : State) (a : Nat) (bs : List Byte) : (s.setBytes a bs).supply = s.supply := rfl
@[simp] theorem State.setBytes_ember (s : State) (a : Nat) (bs : List Byte) : (s.setBytes a bs).ember = s.ember := rfl
@[simp] theorem State.setBytes_rst (s : State) (a : Nat) (bs : List Byte) : (s.setBytes a bs).rst = s.rst := rfl
@[simp] theorem State.setBytes_kind (s : State) (a : Nat) (bs : List Byte) : (s.setBytes a bs).kind = s.kind := rfl
@[simp] theorem State.setBytes_doms (s : State) (a : Nat) (bs : List Byte) : (s.setBytes a bs).doms = s.doms := rfl
@[simp] theorem State.setBytes_lostClk (s : State) (a : Nat) (bs : List Byte) : (s.setBytes a bs).lostClk = s.lostClk := rfl
@[simp] theorem State.setBytes_pages (s : State) (a : Nat) (bs : List Byte) : (s.setBytes a bs).pages = s.pages := rfl
@[simp] theorem State.setBytes_ownBad (s : State) (a : Nat) (bs : List Byte) : (s.setBytes a bs).ownBad = s.ownBad := rfl
@[simp] theorem State.setBytes_queues (s : State) (a : Nat) (bs : List Byte) : (s.setBytes a bs).queues = s.queues := rfl
@[simp] theorem State.setBytes_order (s : State) (a : Nat) (bs : List Byte) : (s.setBytes a bs).order = s.order := rfl
@[simp] theorem State.setBytes_rr (s : State) (a : Nat) (bs : List Byte) : (s.setBytes a bs).rr = s.rr := rfl
@[simp] theorem State.setBytes_copies (s : State) (a : Nat) (bs : List Byte) : (s.setBytes a bs).copies = s.copies := rfl
@[simp] theorem State.setBytes_held (s : State) (a : Nat) (bs : List Byte) : (s.setBytes a bs).held = s.held := rfl
@[simp] theorem State.setBytes_ctxs (s : State) (a : Nat) (bs : List Byte) : (s.setBytes a bs).ctxs = s.ctxs := rfl
@[simp] theorem State.setBytes_psync (s : State) (a : Nat) (bs : List Byte) : (s.setBytes a bs).psync = s.psync := rfl
@[simp] theorem State.setBytes_psnap (s : State) (a : Nat) (bs : List Byte) : (s.setBytes a bs).psnap = s.psnap := rfl
@[simp] theorem State.setBytes_lsync (s : State) (a : Nat) (bs : List Byte) : (s.setBytes a bs).lsync = s.lsync := rfl
@[simp] theorem State.setBytes_lsnap (s : State) (a : Nat) (bs : List Byte) : (s.setBytes a bs).lsnap = s.lsnap := rfl
@[simp] theorem State.setBytes_cores (s : State) (a : Nat) (bs : List Byte) : (s.setBytes a bs).cores = s.cores := rfl
@[simp] theorem State.setBytes_engines (s : State) (a : Nat) (bs : List Byte) : (s.setBytes a bs).engines = s.engines := rfl
@[simp] theorem State.setBytes_stores (s : State) (a : Nat) (bs : List Byte) : (s.setBytes a bs).stores = s.stores := rfl
@[simp] theorem State.setBytes_lanes (s : State) (a : Nat) (bs : List Byte) : (s.setBytes a bs).lanes = s.lanes := rfl
@[simp] theorem State.setBytes_shadows (s : State) (a : Nat) (bs : List Byte) : (s.setBytes a bs).shadows = s.shadows := rfl
@[simp] theorem State.setBytes_drt (s : State) (a : Nat) (bs : List Byte) : (s.setBytes a bs).drt = s.drt := rfl
@[simp] theorem State.setBytes_beat (s : State) (a : Nat) (bs : List Byte) : (s.setBytes a bs).beat = s.beat := rfl
@[simp] theorem State.setBytes_sched (s : State) (a : Nat) (bs : List Byte) : (s.setBytes a bs).sched = s.sched := rfl
@[simp] theorem State.setBytes_prefetch (s : State) (a : Nat) (bs : List Byte) : (s.setBytes a bs).prefetch = s.prefetch := rfl
@[simp] theorem State.setBytes_pageReqs (s : State) (a : Nat) (bs : List Byte) : (s.setBytes a bs).pageReqs = s.pageReqs := rfl
@[simp] theorem State.setBytes_mem (s : State) (a : Nat) (bs : List Byte) : (s.setBytes a bs).mem = SMap.putBytes s.mem a bs := rfl
@[simp] theorem State.setBytes_ue (s : State) (a : Nat) (bs : List Byte) : (s.setBytes a bs).ue = s.ue := rfl
@[simp] theorem State.setBytes_ueSeen (s : State) (a : Nat) (bs : List Byte) : (s.setBytes a bs).ueSeen = s.ueSeen := rfl
@[simp] theorem State.setBytes_scrubPos (s : State) (a : Nat) (bs : List Byte) : (s.setBytes a bs).scrubPos = s.scrubPos := rfl
@[simp] theorem State.setBytes_ports (s : State) (a : Nat) (bs : List Byte) : (s.setBytes a bs).ports = s.ports := rfl
@[simp] theorem State.setBytes_chain (s : State) (a : Nat) (bs : List Byte) : (s.setBytes a bs).chain = s.chain := rfl
@[simp] theorem State.setBytes_jtag (s : State) (a : Nat) (bs : List Byte) : (s.setBytes a bs).jtag = s.jtag := rfl
@[simp] theorem State.setBytes_flash (s : State) (a : Nat) (bs : List Byte) : (s.setBytes a bs).flash = s.flash := rfl
@[simp] theorem State.setBytes_fw (s : State) (a : Nat) (bs : List Byte) : (s.setBytes a bs).fw = s.fw := rfl
@[simp] theorem State.setBytes_trc (s : State) (a : Nat) (bs : List Byte) : (s.setBytes a bs).trc = s.trc := rfl
@[simp] theorem State.setBytes_freeze (s : State) (a : Nat) (bs : List Byte) : (s.setBytes a bs).freeze = s.freeze := rfl
@[simp] theorem State.setBytes_snapQ (s : State) (a : Nat) (bs : List Byte) : (s.setBytes a bs).snapQ = s.snapQ := rfl
@[simp] theorem State.setBytes_out (s : State) (a : Nat) (bs : List Byte) : (s.setBytes a bs).out = s.out := rfl
@[simp] theorem State.setBytes_fresh (s : State) (a : Nat) (bs : List Byte) : (s.setBytes a bs).fresh = s.fresh := rfl
@[simp] theorem State.setBytes_drains (s : State) (a : Nat) (bs : List Byte) : (s.setBytes a bs).drains = s.drains := rfl
@[simp] theorem State.setBytes_errs (s : State) (a : Nat) (bs : List Byte) : (s.setBytes a bs).errs = s.errs := rfl

@[simp] theorem State.setQueue_pending (s : State) (q : Nat) (x : Queue) : (s.setQueue q x).pending = s.pending := rfl
@[simp] theorem State.setQueue_fuses (s : State) (q : Nat) (x : Queue) : (s.setQueue q x).fuses = s.fuses := rfl
@[simp] theorem State.setQueue_shadow (s : State) (q : Nat) (x : Queue) : (s.setQueue q x).shadow = s.shadow := rfl
@[simp] theorem State.setQueue_pins (s : State) (q : Nat) (x : Queue) : (s.setQueue q x).pins = s.pins := rfl
@[simp] theorem State.setQueue_supply (s : State) (q : Nat) (x : Queue) : (s.setQueue q x).supply = s.supply := rfl
@[simp] theorem State.setQueue_ember (s : State) (q : Nat) (x : Queue) : (s.setQueue q x).ember = s.ember := rfl
@[simp] theorem State.setQueue_rst (s : State) (q : Nat) (x : Queue) : (s.setQueue q x).rst = s.rst := rfl
@[simp] theorem State.setQueue_kind (s : State) (q : Nat) (x : Queue) : (s.setQueue q x).kind = s.kind := rfl
@[simp] theorem State.setQueue_doms (s : State) (q : Nat) (x : Queue) : (s.setQueue q x).doms = s.doms := rfl
@[simp] theorem State.setQueue_lostClk (s : State) (q : Nat) (x : Queue) : (s.setQueue q x).lostClk = s.lostClk := rfl
@[simp] theorem State.setQueue_pages (s : State) (q : Nat) (x : Queue) : (s.setQueue q x).pages = s.pages := rfl
@[simp] theorem State.setQueue_ownBad (s : State) (q : Nat) (x : Queue) : (s.setQueue q x).ownBad = s.ownBad := rfl
@[simp] theorem State.setQueue_queues (s : State) (q : Nat) (x : Queue) : (s.setQueue q x).queues = SMap.put s.queues Queue.none q x := rfl
@[simp] theorem State.setQueue_order (s : State) (q : Nat) (x : Queue) : (s.setQueue q x).order = s.order := rfl
@[simp] theorem State.setQueue_rr (s : State) (q : Nat) (x : Queue) : (s.setQueue q x).rr = s.rr := rfl
@[simp] theorem State.setQueue_copies (s : State) (q : Nat) (x : Queue) : (s.setQueue q x).copies = s.copies := rfl
@[simp] theorem State.setQueue_held (s : State) (q : Nat) (x : Queue) : (s.setQueue q x).held = s.held := rfl
@[simp] theorem State.setQueue_ctxs (s : State) (q : Nat) (x : Queue) : (s.setQueue q x).ctxs = s.ctxs := rfl
@[simp] theorem State.setQueue_psync (s : State) (q : Nat) (x : Queue) : (s.setQueue q x).psync = s.psync := rfl
@[simp] theorem State.setQueue_psnap (s : State) (q : Nat) (x : Queue) : (s.setQueue q x).psnap = s.psnap := rfl
@[simp] theorem State.setQueue_lsync (s : State) (q : Nat) (x : Queue) : (s.setQueue q x).lsync = s.lsync := rfl
@[simp] theorem State.setQueue_lsnap (s : State) (q : Nat) (x : Queue) : (s.setQueue q x).lsnap = s.lsnap := rfl
@[simp] theorem State.setQueue_cores (s : State) (q : Nat) (x : Queue) : (s.setQueue q x).cores = s.cores := rfl
@[simp] theorem State.setQueue_engines (s : State) (q : Nat) (x : Queue) : (s.setQueue q x).engines = s.engines := rfl
@[simp] theorem State.setQueue_stores (s : State) (q : Nat) (x : Queue) : (s.setQueue q x).stores = s.stores := rfl
@[simp] theorem State.setQueue_lanes (s : State) (q : Nat) (x : Queue) : (s.setQueue q x).lanes = s.lanes := rfl
@[simp] theorem State.setQueue_shadows (s : State) (q : Nat) (x : Queue) : (s.setQueue q x).shadows = s.shadows := rfl
@[simp] theorem State.setQueue_drt (s : State) (q : Nat) (x : Queue) : (s.setQueue q x).drt = s.drt := rfl
@[simp] theorem State.setQueue_beat (s : State) (q : Nat) (x : Queue) : (s.setQueue q x).beat = s.beat := rfl
@[simp] theorem State.setQueue_sched (s : State) (q : Nat) (x : Queue) : (s.setQueue q x).sched = s.sched := rfl
@[simp] theorem State.setQueue_prefetch (s : State) (q : Nat) (x : Queue) : (s.setQueue q x).prefetch = s.prefetch := rfl
@[simp] theorem State.setQueue_pageReqs (s : State) (q : Nat) (x : Queue) : (s.setQueue q x).pageReqs = s.pageReqs := rfl
@[simp] theorem State.setQueue_mem (s : State) (q : Nat) (x : Queue) : (s.setQueue q x).mem = s.mem := rfl
@[simp] theorem State.setQueue_ue (s : State) (q : Nat) (x : Queue) : (s.setQueue q x).ue = s.ue := rfl
@[simp] theorem State.setQueue_ueSeen (s : State) (q : Nat) (x : Queue) : (s.setQueue q x).ueSeen = s.ueSeen := rfl
@[simp] theorem State.setQueue_scrubPos (s : State) (q : Nat) (x : Queue) : (s.setQueue q x).scrubPos = s.scrubPos := rfl
@[simp] theorem State.setQueue_ports (s : State) (q : Nat) (x : Queue) : (s.setQueue q x).ports = s.ports := rfl
@[simp] theorem State.setQueue_chain (s : State) (q : Nat) (x : Queue) : (s.setQueue q x).chain = s.chain := rfl
@[simp] theorem State.setQueue_jtag (s : State) (q : Nat) (x : Queue) : (s.setQueue q x).jtag = s.jtag := rfl
@[simp] theorem State.setQueue_flash (s : State) (q : Nat) (x : Queue) : (s.setQueue q x).flash = s.flash := rfl
@[simp] theorem State.setQueue_fw (s : State) (q : Nat) (x : Queue) : (s.setQueue q x).fw = s.fw := rfl
@[simp] theorem State.setQueue_trc (s : State) (q : Nat) (x : Queue) : (s.setQueue q x).trc = s.trc := rfl
@[simp] theorem State.setQueue_freeze (s : State) (q : Nat) (x : Queue) : (s.setQueue q x).freeze = s.freeze := rfl
@[simp] theorem State.setQueue_snapQ (s : State) (q : Nat) (x : Queue) : (s.setQueue q x).snapQ = s.snapQ := rfl
@[simp] theorem State.setQueue_out (s : State) (q : Nat) (x : Queue) : (s.setQueue q x).out = s.out := rfl
@[simp] theorem State.setQueue_fresh (s : State) (q : Nat) (x : Queue) : (s.setQueue q x).fresh = s.fresh := rfl
@[simp] theorem State.setQueue_drains (s : State) (q : Nat) (x : Queue) : (s.setQueue q x).drains = s.drains := rfl
@[simp] theorem State.setQueue_errs (s : State) (q : Nat) (x : Queue) : (s.setQueue q x).errs = s.errs := rfl

@[simp] theorem State.addOut_pending (s : State) (o : Out) : (s.addOut o).pending = s.pending := rfl
@[simp] theorem State.addOut_fuses (s : State) (o : Out) : (s.addOut o).fuses = s.fuses := rfl
@[simp] theorem State.addOut_shadow (s : State) (o : Out) : (s.addOut o).shadow = s.shadow := rfl
@[simp] theorem State.addOut_pins (s : State) (o : Out) : (s.addOut o).pins = s.pins := rfl
@[simp] theorem State.addOut_supply (s : State) (o : Out) : (s.addOut o).supply = s.supply := rfl
@[simp] theorem State.addOut_ember (s : State) (o : Out) : (s.addOut o).ember = s.ember := rfl
@[simp] theorem State.addOut_rst (s : State) (o : Out) : (s.addOut o).rst = s.rst := rfl
@[simp] theorem State.addOut_kind (s : State) (o : Out) : (s.addOut o).kind = s.kind := rfl
@[simp] theorem State.addOut_doms (s : State) (o : Out) : (s.addOut o).doms = s.doms := rfl
@[simp] theorem State.addOut_lostClk (s : State) (o : Out) : (s.addOut o).lostClk = s.lostClk := rfl
@[simp] theorem State.addOut_pages (s : State) (o : Out) : (s.addOut o).pages = s.pages := rfl
@[simp] theorem State.addOut_ownBad (s : State) (o : Out) : (s.addOut o).ownBad = s.ownBad := rfl
@[simp] theorem State.addOut_queues (s : State) (o : Out) : (s.addOut o).queues = s.queues := rfl
@[simp] theorem State.addOut_order (s : State) (o : Out) : (s.addOut o).order = s.order := rfl
@[simp] theorem State.addOut_rr (s : State) (o : Out) : (s.addOut o).rr = s.rr := rfl
@[simp] theorem State.addOut_copies (s : State) (o : Out) : (s.addOut o).copies = s.copies := rfl
@[simp] theorem State.addOut_held (s : State) (o : Out) : (s.addOut o).held = s.held := rfl
@[simp] theorem State.addOut_ctxs (s : State) (o : Out) : (s.addOut o).ctxs = s.ctxs := rfl
@[simp] theorem State.addOut_psync (s : State) (o : Out) : (s.addOut o).psync = s.psync := rfl
@[simp] theorem State.addOut_psnap (s : State) (o : Out) : (s.addOut o).psnap = s.psnap := rfl
@[simp] theorem State.addOut_lsync (s : State) (o : Out) : (s.addOut o).lsync = s.lsync := rfl
@[simp] theorem State.addOut_lsnap (s : State) (o : Out) : (s.addOut o).lsnap = s.lsnap := rfl
@[simp] theorem State.addOut_cores (s : State) (o : Out) : (s.addOut o).cores = s.cores := rfl
@[simp] theorem State.addOut_engines (s : State) (o : Out) : (s.addOut o).engines = s.engines := rfl
@[simp] theorem State.addOut_stores (s : State) (o : Out) : (s.addOut o).stores = s.stores := rfl
@[simp] theorem State.addOut_lanes (s : State) (o : Out) : (s.addOut o).lanes = s.lanes := rfl
@[simp] theorem State.addOut_shadows (s : State) (o : Out) : (s.addOut o).shadows = s.shadows := rfl
@[simp] theorem State.addOut_drt (s : State) (o : Out) : (s.addOut o).drt = s.drt := rfl
@[simp] theorem State.addOut_beat (s : State) (o : Out) : (s.addOut o).beat = s.beat := rfl
@[simp] theorem State.addOut_sched (s : State) (o : Out) : (s.addOut o).sched = s.sched := rfl
@[simp] theorem State.addOut_prefetch (s : State) (o : Out) : (s.addOut o).prefetch = s.prefetch := rfl
@[simp] theorem State.addOut_pageReqs (s : State) (o : Out) : (s.addOut o).pageReqs = s.pageReqs := rfl
@[simp] theorem State.addOut_mem (s : State) (o : Out) : (s.addOut o).mem = s.mem := rfl
@[simp] theorem State.addOut_ue (s : State) (o : Out) : (s.addOut o).ue = s.ue := rfl
@[simp] theorem State.addOut_ueSeen (s : State) (o : Out) : (s.addOut o).ueSeen = s.ueSeen := rfl
@[simp] theorem State.addOut_scrubPos (s : State) (o : Out) : (s.addOut o).scrubPos = s.scrubPos := rfl
@[simp] theorem State.addOut_ports (s : State) (o : Out) : (s.addOut o).ports = s.ports := rfl
@[simp] theorem State.addOut_chain (s : State) (o : Out) : (s.addOut o).chain = s.chain := rfl
@[simp] theorem State.addOut_jtag (s : State) (o : Out) : (s.addOut o).jtag = s.jtag := rfl
@[simp] theorem State.addOut_flash (s : State) (o : Out) : (s.addOut o).flash = s.flash := rfl
@[simp] theorem State.addOut_fw (s : State) (o : Out) : (s.addOut o).fw = s.fw := rfl
@[simp] theorem State.addOut_trc (s : State) (o : Out) : (s.addOut o).trc = s.trc := rfl
@[simp] theorem State.addOut_freeze (s : State) (o : Out) : (s.addOut o).freeze = s.freeze := rfl
@[simp] theorem State.addOut_snapQ (s : State) (o : Out) : (s.addOut o).snapQ = s.snapQ := rfl
@[simp] theorem State.addOut_out (s : State) (o : Out) : (s.addOut o).out = s.out ++ [o] := rfl
@[simp] theorem State.addOut_fresh (s : State) (o : Out) : (s.addOut o).fresh = s.fresh := rfl
@[simp] theorem State.addOut_drains (s : State) (o : Out) : (s.addOut o).drains = s.drains := rfl
@[simp] theorem State.addOut_errs (s : State) (o : Out) : (s.addOut o).errs = s.errs := rfl

@[simp] theorem State.setEngine_pending (s : State) (u : Nat) (e : Engine) : (s.setEngine u e).pending = s.pending := rfl
@[simp] theorem State.setEngine_fuses (s : State) (u : Nat) (e : Engine) : (s.setEngine u e).fuses = s.fuses := rfl
@[simp] theorem State.setEngine_shadow (s : State) (u : Nat) (e : Engine) : (s.setEngine u e).shadow = s.shadow := rfl
@[simp] theorem State.setEngine_pins (s : State) (u : Nat) (e : Engine) : (s.setEngine u e).pins = s.pins := rfl
@[simp] theorem State.setEngine_supply (s : State) (u : Nat) (e : Engine) : (s.setEngine u e).supply = s.supply := rfl
@[simp] theorem State.setEngine_ember (s : State) (u : Nat) (e : Engine) : (s.setEngine u e).ember = s.ember := rfl
@[simp] theorem State.setEngine_rst (s : State) (u : Nat) (e : Engine) : (s.setEngine u e).rst = s.rst := rfl
@[simp] theorem State.setEngine_kind (s : State) (u : Nat) (e : Engine) : (s.setEngine u e).kind = s.kind := rfl
@[simp] theorem State.setEngine_doms (s : State) (u : Nat) (e : Engine) : (s.setEngine u e).doms = s.doms := rfl
@[simp] theorem State.setEngine_lostClk (s : State) (u : Nat) (e : Engine) : (s.setEngine u e).lostClk = s.lostClk := rfl
@[simp] theorem State.setEngine_pages (s : State) (u : Nat) (e : Engine) : (s.setEngine u e).pages = s.pages := rfl
@[simp] theorem State.setEngine_ownBad (s : State) (u : Nat) (e : Engine) : (s.setEngine u e).ownBad = s.ownBad := rfl
@[simp] theorem State.setEngine_queues (s : State) (u : Nat) (e : Engine) : (s.setEngine u e).queues = s.queues := rfl
@[simp] theorem State.setEngine_order (s : State) (u : Nat) (e : Engine) : (s.setEngine u e).order = s.order := rfl
@[simp] theorem State.setEngine_rr (s : State) (u : Nat) (e : Engine) : (s.setEngine u e).rr = s.rr := rfl
@[simp] theorem State.setEngine_copies (s : State) (u : Nat) (e : Engine) : (s.setEngine u e).copies = s.copies := rfl
@[simp] theorem State.setEngine_held (s : State) (u : Nat) (e : Engine) : (s.setEngine u e).held = s.held := rfl
@[simp] theorem State.setEngine_ctxs (s : State) (u : Nat) (e : Engine) : (s.setEngine u e).ctxs = s.ctxs := rfl
@[simp] theorem State.setEngine_psync (s : State) (u : Nat) (e : Engine) : (s.setEngine u e).psync = s.psync := rfl
@[simp] theorem State.setEngine_psnap (s : State) (u : Nat) (e : Engine) : (s.setEngine u e).psnap = s.psnap := rfl
@[simp] theorem State.setEngine_lsync (s : State) (u : Nat) (e : Engine) : (s.setEngine u e).lsync = s.lsync := rfl
@[simp] theorem State.setEngine_lsnap (s : State) (u : Nat) (e : Engine) : (s.setEngine u e).lsnap = s.lsnap := rfl
@[simp] theorem State.setEngine_cores (s : State) (u : Nat) (e : Engine) : (s.setEngine u e).cores = s.cores := rfl
@[simp] theorem State.setEngine_engines (s : State) (u : Nat) (e : Engine) : (s.setEngine u e).engines = SMap.put s.engines Engine.empty u e := rfl
@[simp] theorem State.setEngine_stores (s : State) (u : Nat) (e : Engine) : (s.setEngine u e).stores = s.stores := rfl
@[simp] theorem State.setEngine_lanes (s : State) (u : Nat) (e : Engine) : (s.setEngine u e).lanes = s.lanes := rfl
@[simp] theorem State.setEngine_shadows (s : State) (u : Nat) (e : Engine) : (s.setEngine u e).shadows = s.shadows := rfl
@[simp] theorem State.setEngine_drt (s : State) (u : Nat) (e : Engine) : (s.setEngine u e).drt = s.drt := rfl
@[simp] theorem State.setEngine_beat (s : State) (u : Nat) (e : Engine) : (s.setEngine u e).beat = s.beat := rfl
@[simp] theorem State.setEngine_sched (s : State) (u : Nat) (e : Engine) : (s.setEngine u e).sched = s.sched := rfl
@[simp] theorem State.setEngine_prefetch (s : State) (u : Nat) (e : Engine) : (s.setEngine u e).prefetch = s.prefetch := rfl
@[simp] theorem State.setEngine_pageReqs (s : State) (u : Nat) (e : Engine) : (s.setEngine u e).pageReqs = s.pageReqs := rfl
@[simp] theorem State.setEngine_mem (s : State) (u : Nat) (e : Engine) : (s.setEngine u e).mem = s.mem := rfl
@[simp] theorem State.setEngine_ue (s : State) (u : Nat) (e : Engine) : (s.setEngine u e).ue = s.ue := rfl
@[simp] theorem State.setEngine_ueSeen (s : State) (u : Nat) (e : Engine) : (s.setEngine u e).ueSeen = s.ueSeen := rfl
@[simp] theorem State.setEngine_scrubPos (s : State) (u : Nat) (e : Engine) : (s.setEngine u e).scrubPos = s.scrubPos := rfl
@[simp] theorem State.setEngine_ports (s : State) (u : Nat) (e : Engine) : (s.setEngine u e).ports = s.ports := rfl
@[simp] theorem State.setEngine_chain (s : State) (u : Nat) (e : Engine) : (s.setEngine u e).chain = s.chain := rfl
@[simp] theorem State.setEngine_jtag (s : State) (u : Nat) (e : Engine) : (s.setEngine u e).jtag = s.jtag := rfl
@[simp] theorem State.setEngine_flash (s : State) (u : Nat) (e : Engine) : (s.setEngine u e).flash = s.flash := rfl
@[simp] theorem State.setEngine_fw (s : State) (u : Nat) (e : Engine) : (s.setEngine u e).fw = s.fw := rfl
@[simp] theorem State.setEngine_trc (s : State) (u : Nat) (e : Engine) : (s.setEngine u e).trc = s.trc := rfl
@[simp] theorem State.setEngine_freeze (s : State) (u : Nat) (e : Engine) : (s.setEngine u e).freeze = s.freeze := rfl
@[simp] theorem State.setEngine_snapQ (s : State) (u : Nat) (e : Engine) : (s.setEngine u e).snapQ = s.snapQ := rfl
@[simp] theorem State.setEngine_out (s : State) (u : Nat) (e : Engine) : (s.setEngine u e).out = s.out := rfl
@[simp] theorem State.setEngine_fresh (s : State) (u : Nat) (e : Engine) : (s.setEngine u e).fresh = s.fresh := rfl
@[simp] theorem State.setEngine_drains (s : State) (u : Nat) (e : Engine) : (s.setEngine u e).drains = s.drains := rfl
@[simp] theorem State.setEngine_errs (s : State) (u : Nat) (e : Engine) : (s.setEngine u e).errs = s.errs := rfl

@[simp] theorem State.setCore_pending (s : State) (c : Nat) (x : Core) : (s.setCore c x).pending = s.pending := rfl
@[simp] theorem State.setCore_fuses (s : State) (c : Nat) (x : Core) : (s.setCore c x).fuses = s.fuses := rfl
@[simp] theorem State.setCore_shadow (s : State) (c : Nat) (x : Core) : (s.setCore c x).shadow = s.shadow := rfl
@[simp] theorem State.setCore_pins (s : State) (c : Nat) (x : Core) : (s.setCore c x).pins = s.pins := rfl
@[simp] theorem State.setCore_supply (s : State) (c : Nat) (x : Core) : (s.setCore c x).supply = s.supply := rfl
@[simp] theorem State.setCore_ember (s : State) (c : Nat) (x : Core) : (s.setCore c x).ember = s.ember := rfl
@[simp] theorem State.setCore_rst (s : State) (c : Nat) (x : Core) : (s.setCore c x).rst = s.rst := rfl
@[simp] theorem State.setCore_kind (s : State) (c : Nat) (x : Core) : (s.setCore c x).kind = s.kind := rfl
@[simp] theorem State.setCore_doms (s : State) (c : Nat) (x : Core) : (s.setCore c x).doms = s.doms := rfl
@[simp] theorem State.setCore_lostClk (s : State) (c : Nat) (x : Core) : (s.setCore c x).lostClk = s.lostClk := rfl
@[simp] theorem State.setCore_pages (s : State) (c : Nat) (x : Core) : (s.setCore c x).pages = s.pages := rfl
@[simp] theorem State.setCore_ownBad (s : State) (c : Nat) (x : Core) : (s.setCore c x).ownBad = s.ownBad := rfl
@[simp] theorem State.setCore_queues (s : State) (c : Nat) (x : Core) : (s.setCore c x).queues = s.queues := rfl
@[simp] theorem State.setCore_order (s : State) (c : Nat) (x : Core) : (s.setCore c x).order = s.order := rfl
@[simp] theorem State.setCore_rr (s : State) (c : Nat) (x : Core) : (s.setCore c x).rr = s.rr := rfl
@[simp] theorem State.setCore_copies (s : State) (c : Nat) (x : Core) : (s.setCore c x).copies = s.copies := rfl
@[simp] theorem State.setCore_held (s : State) (c : Nat) (x : Core) : (s.setCore c x).held = s.held := rfl
@[simp] theorem State.setCore_ctxs (s : State) (c : Nat) (x : Core) : (s.setCore c x).ctxs = s.ctxs := rfl
@[simp] theorem State.setCore_psync (s : State) (c : Nat) (x : Core) : (s.setCore c x).psync = s.psync := rfl
@[simp] theorem State.setCore_psnap (s : State) (c : Nat) (x : Core) : (s.setCore c x).psnap = s.psnap := rfl
@[simp] theorem State.setCore_lsync (s : State) (c : Nat) (x : Core) : (s.setCore c x).lsync = s.lsync := rfl
@[simp] theorem State.setCore_lsnap (s : State) (c : Nat) (x : Core) : (s.setCore c x).lsnap = s.lsnap := rfl
@[simp] theorem State.setCore_cores (s : State) (c : Nat) (x : Core) : (s.setCore c x).cores = SMap.put s.cores Core.reset c x := rfl
@[simp] theorem State.setCore_engines (s : State) (c : Nat) (x : Core) : (s.setCore c x).engines = s.engines := rfl
@[simp] theorem State.setCore_stores (s : State) (c : Nat) (x : Core) : (s.setCore c x).stores = s.stores := rfl
@[simp] theorem State.setCore_lanes (s : State) (c : Nat) (x : Core) : (s.setCore c x).lanes = s.lanes := rfl
@[simp] theorem State.setCore_shadows (s : State) (c : Nat) (x : Core) : (s.setCore c x).shadows = s.shadows := rfl
@[simp] theorem State.setCore_drt (s : State) (c : Nat) (x : Core) : (s.setCore c x).drt = s.drt := rfl
@[simp] theorem State.setCore_beat (s : State) (c : Nat) (x : Core) : (s.setCore c x).beat = s.beat := rfl
@[simp] theorem State.setCore_sched (s : State) (c : Nat) (x : Core) : (s.setCore c x).sched = s.sched := rfl
@[simp] theorem State.setCore_prefetch (s : State) (c : Nat) (x : Core) : (s.setCore c x).prefetch = s.prefetch := rfl
@[simp] theorem State.setCore_pageReqs (s : State) (c : Nat) (x : Core) : (s.setCore c x).pageReqs = s.pageReqs := rfl
@[simp] theorem State.setCore_mem (s : State) (c : Nat) (x : Core) : (s.setCore c x).mem = s.mem := rfl
@[simp] theorem State.setCore_ue (s : State) (c : Nat) (x : Core) : (s.setCore c x).ue = s.ue := rfl
@[simp] theorem State.setCore_ueSeen (s : State) (c : Nat) (x : Core) : (s.setCore c x).ueSeen = s.ueSeen := rfl
@[simp] theorem State.setCore_scrubPos (s : State) (c : Nat) (x : Core) : (s.setCore c x).scrubPos = s.scrubPos := rfl
@[simp] theorem State.setCore_ports (s : State) (c : Nat) (x : Core) : (s.setCore c x).ports = s.ports := rfl
@[simp] theorem State.setCore_chain (s : State) (c : Nat) (x : Core) : (s.setCore c x).chain = s.chain := rfl
@[simp] theorem State.setCore_jtag (s : State) (c : Nat) (x : Core) : (s.setCore c x).jtag = s.jtag := rfl
@[simp] theorem State.setCore_flash (s : State) (c : Nat) (x : Core) : (s.setCore c x).flash = s.flash := rfl
@[simp] theorem State.setCore_fw (s : State) (c : Nat) (x : Core) : (s.setCore c x).fw = s.fw := rfl
@[simp] theorem State.setCore_trc (s : State) (c : Nat) (x : Core) : (s.setCore c x).trc = s.trc := rfl
@[simp] theorem State.setCore_freeze (s : State) (c : Nat) (x : Core) : (s.setCore c x).freeze = s.freeze := rfl
@[simp] theorem State.setCore_snapQ (s : State) (c : Nat) (x : Core) : (s.setCore c x).snapQ = s.snapQ := rfl
@[simp] theorem State.setCore_out (s : State) (c : Nat) (x : Core) : (s.setCore c x).out = s.out := rfl
@[simp] theorem State.setCore_fresh (s : State) (c : Nat) (x : Core) : (s.setCore c x).fresh = s.fresh := rfl
@[simp] theorem State.setCore_drains (s : State) (c : Nat) (x : Core) : (s.setCore c x).drains = s.drains := rfl
@[simp] theorem State.setCore_errs (s : State) (c : Nat) (x : Core) : (s.setCore c x).errs = s.errs := rfl

@[simp] theorem State.setTrc_pending (s : State) (die : Nat) (t : TraceUnit) : (s.setTrc die t).pending = s.pending := rfl
@[simp] theorem State.setTrc_fuses (s : State) (die : Nat) (t : TraceUnit) : (s.setTrc die t).fuses = s.fuses := rfl
@[simp] theorem State.setTrc_shadow (s : State) (die : Nat) (t : TraceUnit) : (s.setTrc die t).shadow = s.shadow := rfl
@[simp] theorem State.setTrc_pins (s : State) (die : Nat) (t : TraceUnit) : (s.setTrc die t).pins = s.pins := rfl
@[simp] theorem State.setTrc_supply (s : State) (die : Nat) (t : TraceUnit) : (s.setTrc die t).supply = s.supply := rfl
@[simp] theorem State.setTrc_ember (s : State) (die : Nat) (t : TraceUnit) : (s.setTrc die t).ember = s.ember := rfl
@[simp] theorem State.setTrc_rst (s : State) (die : Nat) (t : TraceUnit) : (s.setTrc die t).rst = s.rst := rfl
@[simp] theorem State.setTrc_kind (s : State) (die : Nat) (t : TraceUnit) : (s.setTrc die t).kind = s.kind := rfl
@[simp] theorem State.setTrc_doms (s : State) (die : Nat) (t : TraceUnit) : (s.setTrc die t).doms = s.doms := rfl
@[simp] theorem State.setTrc_lostClk (s : State) (die : Nat) (t : TraceUnit) : (s.setTrc die t).lostClk = s.lostClk := rfl
@[simp] theorem State.setTrc_pages (s : State) (die : Nat) (t : TraceUnit) : (s.setTrc die t).pages = s.pages := rfl
@[simp] theorem State.setTrc_ownBad (s : State) (die : Nat) (t : TraceUnit) : (s.setTrc die t).ownBad = s.ownBad := rfl
@[simp] theorem State.setTrc_queues (s : State) (die : Nat) (t : TraceUnit) : (s.setTrc die t).queues = s.queues := rfl
@[simp] theorem State.setTrc_order (s : State) (die : Nat) (t : TraceUnit) : (s.setTrc die t).order = s.order := rfl
@[simp] theorem State.setTrc_rr (s : State) (die : Nat) (t : TraceUnit) : (s.setTrc die t).rr = s.rr := rfl
@[simp] theorem State.setTrc_copies (s : State) (die : Nat) (t : TraceUnit) : (s.setTrc die t).copies = s.copies := rfl
@[simp] theorem State.setTrc_held (s : State) (die : Nat) (t : TraceUnit) : (s.setTrc die t).held = s.held := rfl
@[simp] theorem State.setTrc_ctxs (s : State) (die : Nat) (t : TraceUnit) : (s.setTrc die t).ctxs = s.ctxs := rfl
@[simp] theorem State.setTrc_psync (s : State) (die : Nat) (t : TraceUnit) : (s.setTrc die t).psync = s.psync := rfl
@[simp] theorem State.setTrc_psnap (s : State) (die : Nat) (t : TraceUnit) : (s.setTrc die t).psnap = s.psnap := rfl
@[simp] theorem State.setTrc_lsync (s : State) (die : Nat) (t : TraceUnit) : (s.setTrc die t).lsync = s.lsync := rfl
@[simp] theorem State.setTrc_lsnap (s : State) (die : Nat) (t : TraceUnit) : (s.setTrc die t).lsnap = s.lsnap := rfl
@[simp] theorem State.setTrc_cores (s : State) (die : Nat) (t : TraceUnit) : (s.setTrc die t).cores = s.cores := rfl
@[simp] theorem State.setTrc_engines (s : State) (die : Nat) (t : TraceUnit) : (s.setTrc die t).engines = s.engines := rfl
@[simp] theorem State.setTrc_stores (s : State) (die : Nat) (t : TraceUnit) : (s.setTrc die t).stores = s.stores := rfl
@[simp] theorem State.setTrc_lanes (s : State) (die : Nat) (t : TraceUnit) : (s.setTrc die t).lanes = s.lanes := rfl
@[simp] theorem State.setTrc_shadows (s : State) (die : Nat) (t : TraceUnit) : (s.setTrc die t).shadows = s.shadows := rfl
@[simp] theorem State.setTrc_drt (s : State) (die : Nat) (t : TraceUnit) : (s.setTrc die t).drt = s.drt := rfl
@[simp] theorem State.setTrc_beat (s : State) (die : Nat) (t : TraceUnit) : (s.setTrc die t).beat = s.beat := rfl
@[simp] theorem State.setTrc_sched (s : State) (die : Nat) (t : TraceUnit) : (s.setTrc die t).sched = s.sched := rfl
@[simp] theorem State.setTrc_prefetch (s : State) (die : Nat) (t : TraceUnit) : (s.setTrc die t).prefetch = s.prefetch := rfl
@[simp] theorem State.setTrc_pageReqs (s : State) (die : Nat) (t : TraceUnit) : (s.setTrc die t).pageReqs = s.pageReqs := rfl
@[simp] theorem State.setTrc_mem (s : State) (die : Nat) (t : TraceUnit) : (s.setTrc die t).mem = s.mem := rfl
@[simp] theorem State.setTrc_ue (s : State) (die : Nat) (t : TraceUnit) : (s.setTrc die t).ue = s.ue := rfl
@[simp] theorem State.setTrc_ueSeen (s : State) (die : Nat) (t : TraceUnit) : (s.setTrc die t).ueSeen = s.ueSeen := rfl
@[simp] theorem State.setTrc_scrubPos (s : State) (die : Nat) (t : TraceUnit) : (s.setTrc die t).scrubPos = s.scrubPos := rfl
@[simp] theorem State.setTrc_ports (s : State) (die : Nat) (t : TraceUnit) : (s.setTrc die t).ports = s.ports := rfl
@[simp] theorem State.setTrc_chain (s : State) (die : Nat) (t : TraceUnit) : (s.setTrc die t).chain = s.chain := rfl
@[simp] theorem State.setTrc_jtag (s : State) (die : Nat) (t : TraceUnit) : (s.setTrc die t).jtag = s.jtag := rfl
@[simp] theorem State.setTrc_flash (s : State) (die : Nat) (t : TraceUnit) : (s.setTrc die t).flash = s.flash := rfl
@[simp] theorem State.setTrc_fw (s : State) (die : Nat) (t : TraceUnit) : (s.setTrc die t).fw = s.fw := rfl
@[simp] theorem State.setTrc_trc (s : State) (die : Nat) (t : TraceUnit) : (s.setTrc die t).trc = SMap.put s.trc TraceUnit.reset die t := rfl
@[simp] theorem State.setTrc_freeze (s : State) (die : Nat) (t : TraceUnit) : (s.setTrc die t).freeze = s.freeze := rfl
@[simp] theorem State.setTrc_snapQ (s : State) (die : Nat) (t : TraceUnit) : (s.setTrc die t).snapQ = s.snapQ := rfl
@[simp] theorem State.setTrc_out (s : State) (die : Nat) (t : TraceUnit) : (s.setTrc die t).out = s.out := rfl
@[simp] theorem State.setTrc_fresh (s : State) (die : Nat) (t : TraceUnit) : (s.setTrc die t).fresh = s.fresh := rfl
@[simp] theorem State.setTrc_drains (s : State) (die : Nat) (t : TraceUnit) : (s.setTrc die t).drains = s.drains := rfl
@[simp] theorem State.setTrc_errs (s : State) (die : Nat) (t : TraceUnit) : (s.setTrc die t).errs = s.errs := rfl

@[simp] theorem State.setDrt_pending (s : State) (d : Draught) : (s.setDrt d).pending = s.pending := rfl
@[simp] theorem State.setDrt_fuses (s : State) (d : Draught) : (s.setDrt d).fuses = s.fuses := rfl
@[simp] theorem State.setDrt_shadow (s : State) (d : Draught) : (s.setDrt d).shadow = s.shadow := rfl
@[simp] theorem State.setDrt_pins (s : State) (d : Draught) : (s.setDrt d).pins = s.pins := rfl
@[simp] theorem State.setDrt_supply (s : State) (d : Draught) : (s.setDrt d).supply = s.supply := rfl
@[simp] theorem State.setDrt_ember (s : State) (d : Draught) : (s.setDrt d).ember = s.ember := rfl
@[simp] theorem State.setDrt_rst (s : State) (d : Draught) : (s.setDrt d).rst = s.rst := rfl
@[simp] theorem State.setDrt_kind (s : State) (d : Draught) : (s.setDrt d).kind = s.kind := rfl
@[simp] theorem State.setDrt_doms (s : State) (d : Draught) : (s.setDrt d).doms = s.doms := rfl
@[simp] theorem State.setDrt_lostClk (s : State) (d : Draught) : (s.setDrt d).lostClk = s.lostClk := rfl
@[simp] theorem State.setDrt_pages (s : State) (d : Draught) : (s.setDrt d).pages = s.pages := rfl
@[simp] theorem State.setDrt_ownBad (s : State) (d : Draught) : (s.setDrt d).ownBad = s.ownBad := rfl
@[simp] theorem State.setDrt_queues (s : State) (d : Draught) : (s.setDrt d).queues = s.queues := rfl
@[simp] theorem State.setDrt_order (s : State) (d : Draught) : (s.setDrt d).order = s.order := rfl
@[simp] theorem State.setDrt_rr (s : State) (d : Draught) : (s.setDrt d).rr = s.rr := rfl
@[simp] theorem State.setDrt_copies (s : State) (d : Draught) : (s.setDrt d).copies = s.copies := rfl
@[simp] theorem State.setDrt_held (s : State) (d : Draught) : (s.setDrt d).held = s.held := rfl
@[simp] theorem State.setDrt_ctxs (s : State) (d : Draught) : (s.setDrt d).ctxs = s.ctxs := rfl
@[simp] theorem State.setDrt_psync (s : State) (d : Draught) : (s.setDrt d).psync = s.psync := rfl
@[simp] theorem State.setDrt_psnap (s : State) (d : Draught) : (s.setDrt d).psnap = s.psnap := rfl
@[simp] theorem State.setDrt_lsync (s : State) (d : Draught) : (s.setDrt d).lsync = s.lsync := rfl
@[simp] theorem State.setDrt_lsnap (s : State) (d : Draught) : (s.setDrt d).lsnap = s.lsnap := rfl
@[simp] theorem State.setDrt_cores (s : State) (d : Draught) : (s.setDrt d).cores = s.cores := rfl
@[simp] theorem State.setDrt_engines (s : State) (d : Draught) : (s.setDrt d).engines = s.engines := rfl
@[simp] theorem State.setDrt_stores (s : State) (d : Draught) : (s.setDrt d).stores = s.stores := rfl
@[simp] theorem State.setDrt_lanes (s : State) (d : Draught) : (s.setDrt d).lanes = s.lanes := rfl
@[simp] theorem State.setDrt_shadows (s : State) (d : Draught) : (s.setDrt d).shadows = s.shadows := rfl
@[simp] theorem State.setDrt_drt (s : State) (d : Draught) : (s.setDrt d).drt = d := rfl
@[simp] theorem State.setDrt_beat (s : State) (d : Draught) : (s.setDrt d).beat = s.beat := rfl
@[simp] theorem State.setDrt_sched (s : State) (d : Draught) : (s.setDrt d).sched = s.sched := rfl
@[simp] theorem State.setDrt_prefetch (s : State) (d : Draught) : (s.setDrt d).prefetch = s.prefetch := rfl
@[simp] theorem State.setDrt_pageReqs (s : State) (d : Draught) : (s.setDrt d).pageReqs = s.pageReqs := rfl
@[simp] theorem State.setDrt_mem (s : State) (d : Draught) : (s.setDrt d).mem = s.mem := rfl
@[simp] theorem State.setDrt_ue (s : State) (d : Draught) : (s.setDrt d).ue = s.ue := rfl
@[simp] theorem State.setDrt_ueSeen (s : State) (d : Draught) : (s.setDrt d).ueSeen = s.ueSeen := rfl
@[simp] theorem State.setDrt_scrubPos (s : State) (d : Draught) : (s.setDrt d).scrubPos = s.scrubPos := rfl
@[simp] theorem State.setDrt_ports (s : State) (d : Draught) : (s.setDrt d).ports = s.ports := rfl
@[simp] theorem State.setDrt_chain (s : State) (d : Draught) : (s.setDrt d).chain = s.chain := rfl
@[simp] theorem State.setDrt_jtag (s : State) (d : Draught) : (s.setDrt d).jtag = s.jtag := rfl
@[simp] theorem State.setDrt_flash (s : State) (d : Draught) : (s.setDrt d).flash = s.flash := rfl
@[simp] theorem State.setDrt_fw (s : State) (d : Draught) : (s.setDrt d).fw = s.fw := rfl
@[simp] theorem State.setDrt_trc (s : State) (d : Draught) : (s.setDrt d).trc = s.trc := rfl
@[simp] theorem State.setDrt_freeze (s : State) (d : Draught) : (s.setDrt d).freeze = s.freeze := rfl
@[simp] theorem State.setDrt_snapQ (s : State) (d : Draught) : (s.setDrt d).snapQ = s.snapQ := rfl
@[simp] theorem State.setDrt_out (s : State) (d : Draught) : (s.setDrt d).out = s.out := rfl
@[simp] theorem State.setDrt_fresh (s : State) (d : Draught) : (s.setDrt d).fresh = s.fresh := rfl
@[simp] theorem State.setDrt_drains (s : State) (d : Draught) : (s.setDrt d).drains = s.drains := rfl
@[simp] theorem State.setDrt_errs (s : State) (d : Draught) : (s.setDrt d).errs = s.errs := rfl

@[simp] theorem State.setBeat_pending (s : State) (b : BeatUnit) : (s.setBeat b).pending = s.pending := rfl
@[simp] theorem State.setBeat_fuses (s : State) (b : BeatUnit) : (s.setBeat b).fuses = s.fuses := rfl
@[simp] theorem State.setBeat_shadow (s : State) (b : BeatUnit) : (s.setBeat b).shadow = s.shadow := rfl
@[simp] theorem State.setBeat_pins (s : State) (b : BeatUnit) : (s.setBeat b).pins = s.pins := rfl
@[simp] theorem State.setBeat_supply (s : State) (b : BeatUnit) : (s.setBeat b).supply = s.supply := rfl
@[simp] theorem State.setBeat_ember (s : State) (b : BeatUnit) : (s.setBeat b).ember = s.ember := rfl
@[simp] theorem State.setBeat_rst (s : State) (b : BeatUnit) : (s.setBeat b).rst = s.rst := rfl
@[simp] theorem State.setBeat_kind (s : State) (b : BeatUnit) : (s.setBeat b).kind = s.kind := rfl
@[simp] theorem State.setBeat_doms (s : State) (b : BeatUnit) : (s.setBeat b).doms = s.doms := rfl
@[simp] theorem State.setBeat_lostClk (s : State) (b : BeatUnit) : (s.setBeat b).lostClk = s.lostClk := rfl
@[simp] theorem State.setBeat_pages (s : State) (b : BeatUnit) : (s.setBeat b).pages = s.pages := rfl
@[simp] theorem State.setBeat_ownBad (s : State) (b : BeatUnit) : (s.setBeat b).ownBad = s.ownBad := rfl
@[simp] theorem State.setBeat_queues (s : State) (b : BeatUnit) : (s.setBeat b).queues = s.queues := rfl
@[simp] theorem State.setBeat_order (s : State) (b : BeatUnit) : (s.setBeat b).order = s.order := rfl
@[simp] theorem State.setBeat_rr (s : State) (b : BeatUnit) : (s.setBeat b).rr = s.rr := rfl
@[simp] theorem State.setBeat_copies (s : State) (b : BeatUnit) : (s.setBeat b).copies = s.copies := rfl
@[simp] theorem State.setBeat_held (s : State) (b : BeatUnit) : (s.setBeat b).held = s.held := rfl
@[simp] theorem State.setBeat_ctxs (s : State) (b : BeatUnit) : (s.setBeat b).ctxs = s.ctxs := rfl
@[simp] theorem State.setBeat_psync (s : State) (b : BeatUnit) : (s.setBeat b).psync = s.psync := rfl
@[simp] theorem State.setBeat_psnap (s : State) (b : BeatUnit) : (s.setBeat b).psnap = s.psnap := rfl
@[simp] theorem State.setBeat_lsync (s : State) (b : BeatUnit) : (s.setBeat b).lsync = s.lsync := rfl
@[simp] theorem State.setBeat_lsnap (s : State) (b : BeatUnit) : (s.setBeat b).lsnap = s.lsnap := rfl
@[simp] theorem State.setBeat_cores (s : State) (b : BeatUnit) : (s.setBeat b).cores = s.cores := rfl
@[simp] theorem State.setBeat_engines (s : State) (b : BeatUnit) : (s.setBeat b).engines = s.engines := rfl
@[simp] theorem State.setBeat_stores (s : State) (b : BeatUnit) : (s.setBeat b).stores = s.stores := rfl
@[simp] theorem State.setBeat_lanes (s : State) (b : BeatUnit) : (s.setBeat b).lanes = s.lanes := rfl
@[simp] theorem State.setBeat_shadows (s : State) (b : BeatUnit) : (s.setBeat b).shadows = s.shadows := rfl
@[simp] theorem State.setBeat_drt (s : State) (b : BeatUnit) : (s.setBeat b).drt = s.drt := rfl
@[simp] theorem State.setBeat_beat (s : State) (b : BeatUnit) : (s.setBeat b).beat = b := rfl
@[simp] theorem State.setBeat_sched (s : State) (b : BeatUnit) : (s.setBeat b).sched = s.sched := rfl
@[simp] theorem State.setBeat_prefetch (s : State) (b : BeatUnit) : (s.setBeat b).prefetch = s.prefetch := rfl
@[simp] theorem State.setBeat_pageReqs (s : State) (b : BeatUnit) : (s.setBeat b).pageReqs = s.pageReqs := rfl
@[simp] theorem State.setBeat_mem (s : State) (b : BeatUnit) : (s.setBeat b).mem = s.mem := rfl
@[simp] theorem State.setBeat_ue (s : State) (b : BeatUnit) : (s.setBeat b).ue = s.ue := rfl
@[simp] theorem State.setBeat_ueSeen (s : State) (b : BeatUnit) : (s.setBeat b).ueSeen = s.ueSeen := rfl
@[simp] theorem State.setBeat_scrubPos (s : State) (b : BeatUnit) : (s.setBeat b).scrubPos = s.scrubPos := rfl
@[simp] theorem State.setBeat_ports (s : State) (b : BeatUnit) : (s.setBeat b).ports = s.ports := rfl
@[simp] theorem State.setBeat_chain (s : State) (b : BeatUnit) : (s.setBeat b).chain = s.chain := rfl
@[simp] theorem State.setBeat_jtag (s : State) (b : BeatUnit) : (s.setBeat b).jtag = s.jtag := rfl
@[simp] theorem State.setBeat_flash (s : State) (b : BeatUnit) : (s.setBeat b).flash = s.flash := rfl
@[simp] theorem State.setBeat_fw (s : State) (b : BeatUnit) : (s.setBeat b).fw = s.fw := rfl
@[simp] theorem State.setBeat_trc (s : State) (b : BeatUnit) : (s.setBeat b).trc = s.trc := rfl
@[simp] theorem State.setBeat_freeze (s : State) (b : BeatUnit) : (s.setBeat b).freeze = s.freeze := rfl
@[simp] theorem State.setBeat_snapQ (s : State) (b : BeatUnit) : (s.setBeat b).snapQ = s.snapQ := rfl
@[simp] theorem State.setBeat_out (s : State) (b : BeatUnit) : (s.setBeat b).out = s.out := rfl
@[simp] theorem State.setBeat_fresh (s : State) (b : BeatUnit) : (s.setBeat b).fresh = s.fresh := rfl
@[simp] theorem State.setBeat_drains (s : State) (b : BeatUnit) : (s.setBeat b).drains = s.drains := rfl
@[simp] theorem State.setBeat_errs (s : State) (b : BeatUnit) : (s.setBeat b).errs = s.errs := rfl

@[simp] theorem State.setFw_pending (s : State) (f : Firmware) : (s.setFw f).pending = s.pending := rfl
@[simp] theorem State.setFw_fuses (s : State) (f : Firmware) : (s.setFw f).fuses = s.fuses := rfl
@[simp] theorem State.setFw_shadow (s : State) (f : Firmware) : (s.setFw f).shadow = s.shadow := rfl
@[simp] theorem State.setFw_pins (s : State) (f : Firmware) : (s.setFw f).pins = s.pins := rfl
@[simp] theorem State.setFw_supply (s : State) (f : Firmware) : (s.setFw f).supply = s.supply := rfl
@[simp] theorem State.setFw_ember (s : State) (f : Firmware) : (s.setFw f).ember = s.ember := rfl
@[simp] theorem State.setFw_rst (s : State) (f : Firmware) : (s.setFw f).rst = s.rst := rfl
@[simp] theorem State.setFw_kind (s : State) (f : Firmware) : (s.setFw f).kind = s.kind := rfl
@[simp] theorem State.setFw_doms (s : State) (f : Firmware) : (s.setFw f).doms = s.doms := rfl
@[simp] theorem State.setFw_lostClk (s : State) (f : Firmware) : (s.setFw f).lostClk = s.lostClk := rfl
@[simp] theorem State.setFw_pages (s : State) (f : Firmware) : (s.setFw f).pages = s.pages := rfl
@[simp] theorem State.setFw_ownBad (s : State) (f : Firmware) : (s.setFw f).ownBad = s.ownBad := rfl
@[simp] theorem State.setFw_queues (s : State) (f : Firmware) : (s.setFw f).queues = s.queues := rfl
@[simp] theorem State.setFw_order (s : State) (f : Firmware) : (s.setFw f).order = s.order := rfl
@[simp] theorem State.setFw_rr (s : State) (f : Firmware) : (s.setFw f).rr = s.rr := rfl
@[simp] theorem State.setFw_copies (s : State) (f : Firmware) : (s.setFw f).copies = s.copies := rfl
@[simp] theorem State.setFw_held (s : State) (f : Firmware) : (s.setFw f).held = s.held := rfl
@[simp] theorem State.setFw_ctxs (s : State) (f : Firmware) : (s.setFw f).ctxs = s.ctxs := rfl
@[simp] theorem State.setFw_psync (s : State) (f : Firmware) : (s.setFw f).psync = s.psync := rfl
@[simp] theorem State.setFw_psnap (s : State) (f : Firmware) : (s.setFw f).psnap = s.psnap := rfl
@[simp] theorem State.setFw_lsync (s : State) (f : Firmware) : (s.setFw f).lsync = s.lsync := rfl
@[simp] theorem State.setFw_lsnap (s : State) (f : Firmware) : (s.setFw f).lsnap = s.lsnap := rfl
@[simp] theorem State.setFw_cores (s : State) (f : Firmware) : (s.setFw f).cores = s.cores := rfl
@[simp] theorem State.setFw_engines (s : State) (f : Firmware) : (s.setFw f).engines = s.engines := rfl
@[simp] theorem State.setFw_stores (s : State) (f : Firmware) : (s.setFw f).stores = s.stores := rfl
@[simp] theorem State.setFw_lanes (s : State) (f : Firmware) : (s.setFw f).lanes = s.lanes := rfl
@[simp] theorem State.setFw_shadows (s : State) (f : Firmware) : (s.setFw f).shadows = s.shadows := rfl
@[simp] theorem State.setFw_drt (s : State) (f : Firmware) : (s.setFw f).drt = s.drt := rfl
@[simp] theorem State.setFw_beat (s : State) (f : Firmware) : (s.setFw f).beat = s.beat := rfl
@[simp] theorem State.setFw_sched (s : State) (f : Firmware) : (s.setFw f).sched = s.sched := rfl
@[simp] theorem State.setFw_prefetch (s : State) (f : Firmware) : (s.setFw f).prefetch = s.prefetch := rfl
@[simp] theorem State.setFw_pageReqs (s : State) (f : Firmware) : (s.setFw f).pageReqs = s.pageReqs := rfl
@[simp] theorem State.setFw_mem (s : State) (f : Firmware) : (s.setFw f).mem = s.mem := rfl
@[simp] theorem State.setFw_ue (s : State) (f : Firmware) : (s.setFw f).ue = s.ue := rfl
@[simp] theorem State.setFw_ueSeen (s : State) (f : Firmware) : (s.setFw f).ueSeen = s.ueSeen := rfl
@[simp] theorem State.setFw_scrubPos (s : State) (f : Firmware) : (s.setFw f).scrubPos = s.scrubPos := rfl
@[simp] theorem State.setFw_ports (s : State) (f : Firmware) : (s.setFw f).ports = s.ports := rfl
@[simp] theorem State.setFw_chain (s : State) (f : Firmware) : (s.setFw f).chain = s.chain := rfl
@[simp] theorem State.setFw_jtag (s : State) (f : Firmware) : (s.setFw f).jtag = s.jtag := rfl
@[simp] theorem State.setFw_flash (s : State) (f : Firmware) : (s.setFw f).flash = s.flash := rfl
@[simp] theorem State.setFw_fw (s : State) (f : Firmware) : (s.setFw f).fw = f := rfl
@[simp] theorem State.setFw_trc (s : State) (f : Firmware) : (s.setFw f).trc = s.trc := rfl
@[simp] theorem State.setFw_freeze (s : State) (f : Firmware) : (s.setFw f).freeze = s.freeze := rfl
@[simp] theorem State.setFw_snapQ (s : State) (f : Firmware) : (s.setFw f).snapQ = s.snapQ := rfl
@[simp] theorem State.setFw_out (s : State) (f : Firmware) : (s.setFw f).out = s.out := rfl
@[simp] theorem State.setFw_fresh (s : State) (f : Firmware) : (s.setFw f).fresh = s.fresh := rfl
@[simp] theorem State.setFw_drains (s : State) (f : Firmware) : (s.setFw f).drains = s.drains := rfl
@[simp] theorem State.setFw_errs (s : State) (f : Firmware) : (s.setFw f).errs = s.errs := rfl

@[simp] theorem State.setFlash_pending (s : State) (a : Nat) (bs : List Byte) : (s.setFlash a bs).pending = s.pending := rfl
@[simp] theorem State.setFlash_fuses (s : State) (a : Nat) (bs : List Byte) : (s.setFlash a bs).fuses = s.fuses := rfl
@[simp] theorem State.setFlash_shadow (s : State) (a : Nat) (bs : List Byte) : (s.setFlash a bs).shadow = s.shadow := rfl
@[simp] theorem State.setFlash_pins (s : State) (a : Nat) (bs : List Byte) : (s.setFlash a bs).pins = s.pins := rfl
@[simp] theorem State.setFlash_supply (s : State) (a : Nat) (bs : List Byte) : (s.setFlash a bs).supply = s.supply := rfl
@[simp] theorem State.setFlash_ember (s : State) (a : Nat) (bs : List Byte) : (s.setFlash a bs).ember = s.ember := rfl
@[simp] theorem State.setFlash_rst (s : State) (a : Nat) (bs : List Byte) : (s.setFlash a bs).rst = s.rst := rfl
@[simp] theorem State.setFlash_kind (s : State) (a : Nat) (bs : List Byte) : (s.setFlash a bs).kind = s.kind := rfl
@[simp] theorem State.setFlash_doms (s : State) (a : Nat) (bs : List Byte) : (s.setFlash a bs).doms = s.doms := rfl
@[simp] theorem State.setFlash_lostClk (s : State) (a : Nat) (bs : List Byte) : (s.setFlash a bs).lostClk = s.lostClk := rfl
@[simp] theorem State.setFlash_pages (s : State) (a : Nat) (bs : List Byte) : (s.setFlash a bs).pages = s.pages := rfl
@[simp] theorem State.setFlash_ownBad (s : State) (a : Nat) (bs : List Byte) : (s.setFlash a bs).ownBad = s.ownBad := rfl
@[simp] theorem State.setFlash_queues (s : State) (a : Nat) (bs : List Byte) : (s.setFlash a bs).queues = s.queues := rfl
@[simp] theorem State.setFlash_order (s : State) (a : Nat) (bs : List Byte) : (s.setFlash a bs).order = s.order := rfl
@[simp] theorem State.setFlash_rr (s : State) (a : Nat) (bs : List Byte) : (s.setFlash a bs).rr = s.rr := rfl
@[simp] theorem State.setFlash_copies (s : State) (a : Nat) (bs : List Byte) : (s.setFlash a bs).copies = s.copies := rfl
@[simp] theorem State.setFlash_held (s : State) (a : Nat) (bs : List Byte) : (s.setFlash a bs).held = s.held := rfl
@[simp] theorem State.setFlash_ctxs (s : State) (a : Nat) (bs : List Byte) : (s.setFlash a bs).ctxs = s.ctxs := rfl
@[simp] theorem State.setFlash_psync (s : State) (a : Nat) (bs : List Byte) : (s.setFlash a bs).psync = s.psync := rfl
@[simp] theorem State.setFlash_psnap (s : State) (a : Nat) (bs : List Byte) : (s.setFlash a bs).psnap = s.psnap := rfl
@[simp] theorem State.setFlash_lsync (s : State) (a : Nat) (bs : List Byte) : (s.setFlash a bs).lsync = s.lsync := rfl
@[simp] theorem State.setFlash_lsnap (s : State) (a : Nat) (bs : List Byte) : (s.setFlash a bs).lsnap = s.lsnap := rfl
@[simp] theorem State.setFlash_cores (s : State) (a : Nat) (bs : List Byte) : (s.setFlash a bs).cores = s.cores := rfl
@[simp] theorem State.setFlash_engines (s : State) (a : Nat) (bs : List Byte) : (s.setFlash a bs).engines = s.engines := rfl
@[simp] theorem State.setFlash_stores (s : State) (a : Nat) (bs : List Byte) : (s.setFlash a bs).stores = s.stores := rfl
@[simp] theorem State.setFlash_lanes (s : State) (a : Nat) (bs : List Byte) : (s.setFlash a bs).lanes = s.lanes := rfl
@[simp] theorem State.setFlash_shadows (s : State) (a : Nat) (bs : List Byte) : (s.setFlash a bs).shadows = s.shadows := rfl
@[simp] theorem State.setFlash_drt (s : State) (a : Nat) (bs : List Byte) : (s.setFlash a bs).drt = s.drt := rfl
@[simp] theorem State.setFlash_beat (s : State) (a : Nat) (bs : List Byte) : (s.setFlash a bs).beat = s.beat := rfl
@[simp] theorem State.setFlash_sched (s : State) (a : Nat) (bs : List Byte) : (s.setFlash a bs).sched = s.sched := rfl
@[simp] theorem State.setFlash_prefetch (s : State) (a : Nat) (bs : List Byte) : (s.setFlash a bs).prefetch = s.prefetch := rfl
@[simp] theorem State.setFlash_pageReqs (s : State) (a : Nat) (bs : List Byte) : (s.setFlash a bs).pageReqs = s.pageReqs := rfl
@[simp] theorem State.setFlash_mem (s : State) (a : Nat) (bs : List Byte) : (s.setFlash a bs).mem = s.mem := rfl
@[simp] theorem State.setFlash_ue (s : State) (a : Nat) (bs : List Byte) : (s.setFlash a bs).ue = s.ue := rfl
@[simp] theorem State.setFlash_ueSeen (s : State) (a : Nat) (bs : List Byte) : (s.setFlash a bs).ueSeen = s.ueSeen := rfl
@[simp] theorem State.setFlash_scrubPos (s : State) (a : Nat) (bs : List Byte) : (s.setFlash a bs).scrubPos = s.scrubPos := rfl
@[simp] theorem State.setFlash_ports (s : State) (a : Nat) (bs : List Byte) : (s.setFlash a bs).ports = s.ports := rfl
@[simp] theorem State.setFlash_chain (s : State) (a : Nat) (bs : List Byte) : (s.setFlash a bs).chain = s.chain := rfl
@[simp] theorem State.setFlash_jtag (s : State) (a : Nat) (bs : List Byte) : (s.setFlash a bs).jtag = s.jtag := rfl
@[simp] theorem State.setFlash_flash (s : State) (a : Nat) (bs : List Byte) : (s.setFlash a bs).flash = putFlash s.flash a bs := rfl
@[simp] theorem State.setFlash_fw (s : State) (a : Nat) (bs : List Byte) : (s.setFlash a bs).fw = s.fw := rfl
@[simp] theorem State.setFlash_trc (s : State) (a : Nat) (bs : List Byte) : (s.setFlash a bs).trc = s.trc := rfl
@[simp] theorem State.setFlash_freeze (s : State) (a : Nat) (bs : List Byte) : (s.setFlash a bs).freeze = s.freeze := rfl
@[simp] theorem State.setFlash_snapQ (s : State) (a : Nat) (bs : List Byte) : (s.setFlash a bs).snapQ = s.snapQ := rfl
@[simp] theorem State.setFlash_out (s : State) (a : Nat) (bs : List Byte) : (s.setFlash a bs).out = s.out := rfl
@[simp] theorem State.setFlash_fresh (s : State) (a : Nat) (bs : List Byte) : (s.setFlash a bs).fresh = s.fresh := rfl
@[simp] theorem State.setFlash_drains (s : State) (a : Nat) (bs : List Byte) : (s.setFlash a bs).drains = s.drains := rfl
@[simp] theorem State.setFlash_errs (s : State) (a : Nat) (bs : List Byte) : (s.setFlash a bs).errs = s.errs := rfl

@[simp] theorem State.setJtag_pending (s : State) (j : Jtag) : (s.setJtag j).pending = s.pending := rfl
@[simp] theorem State.setJtag_fuses (s : State) (j : Jtag) : (s.setJtag j).fuses = s.fuses := rfl
@[simp] theorem State.setJtag_shadow (s : State) (j : Jtag) : (s.setJtag j).shadow = s.shadow := rfl
@[simp] theorem State.setJtag_pins (s : State) (j : Jtag) : (s.setJtag j).pins = s.pins := rfl
@[simp] theorem State.setJtag_supply (s : State) (j : Jtag) : (s.setJtag j).supply = s.supply := rfl
@[simp] theorem State.setJtag_ember (s : State) (j : Jtag) : (s.setJtag j).ember = s.ember := rfl
@[simp] theorem State.setJtag_rst (s : State) (j : Jtag) : (s.setJtag j).rst = s.rst := rfl
@[simp] theorem State.setJtag_kind (s : State) (j : Jtag) : (s.setJtag j).kind = s.kind := rfl
@[simp] theorem State.setJtag_doms (s : State) (j : Jtag) : (s.setJtag j).doms = s.doms := rfl
@[simp] theorem State.setJtag_lostClk (s : State) (j : Jtag) : (s.setJtag j).lostClk = s.lostClk := rfl
@[simp] theorem State.setJtag_pages (s : State) (j : Jtag) : (s.setJtag j).pages = s.pages := rfl
@[simp] theorem State.setJtag_ownBad (s : State) (j : Jtag) : (s.setJtag j).ownBad = s.ownBad := rfl
@[simp] theorem State.setJtag_queues (s : State) (j : Jtag) : (s.setJtag j).queues = s.queues := rfl
@[simp] theorem State.setJtag_order (s : State) (j : Jtag) : (s.setJtag j).order = s.order := rfl
@[simp] theorem State.setJtag_rr (s : State) (j : Jtag) : (s.setJtag j).rr = s.rr := rfl
@[simp] theorem State.setJtag_copies (s : State) (j : Jtag) : (s.setJtag j).copies = s.copies := rfl
@[simp] theorem State.setJtag_held (s : State) (j : Jtag) : (s.setJtag j).held = s.held := rfl
@[simp] theorem State.setJtag_ctxs (s : State) (j : Jtag) : (s.setJtag j).ctxs = s.ctxs := rfl
@[simp] theorem State.setJtag_psync (s : State) (j : Jtag) : (s.setJtag j).psync = s.psync := rfl
@[simp] theorem State.setJtag_psnap (s : State) (j : Jtag) : (s.setJtag j).psnap = s.psnap := rfl
@[simp] theorem State.setJtag_lsync (s : State) (j : Jtag) : (s.setJtag j).lsync = s.lsync := rfl
@[simp] theorem State.setJtag_lsnap (s : State) (j : Jtag) : (s.setJtag j).lsnap = s.lsnap := rfl
@[simp] theorem State.setJtag_cores (s : State) (j : Jtag) : (s.setJtag j).cores = s.cores := rfl
@[simp] theorem State.setJtag_engines (s : State) (j : Jtag) : (s.setJtag j).engines = s.engines := rfl
@[simp] theorem State.setJtag_stores (s : State) (j : Jtag) : (s.setJtag j).stores = s.stores := rfl
@[simp] theorem State.setJtag_lanes (s : State) (j : Jtag) : (s.setJtag j).lanes = s.lanes := rfl
@[simp] theorem State.setJtag_shadows (s : State) (j : Jtag) : (s.setJtag j).shadows = s.shadows := rfl
@[simp] theorem State.setJtag_drt (s : State) (j : Jtag) : (s.setJtag j).drt = s.drt := rfl
@[simp] theorem State.setJtag_beat (s : State) (j : Jtag) : (s.setJtag j).beat = s.beat := rfl
@[simp] theorem State.setJtag_sched (s : State) (j : Jtag) : (s.setJtag j).sched = s.sched := rfl
@[simp] theorem State.setJtag_prefetch (s : State) (j : Jtag) : (s.setJtag j).prefetch = s.prefetch := rfl
@[simp] theorem State.setJtag_pageReqs (s : State) (j : Jtag) : (s.setJtag j).pageReqs = s.pageReqs := rfl
@[simp] theorem State.setJtag_mem (s : State) (j : Jtag) : (s.setJtag j).mem = s.mem := rfl
@[simp] theorem State.setJtag_ue (s : State) (j : Jtag) : (s.setJtag j).ue = s.ue := rfl
@[simp] theorem State.setJtag_ueSeen (s : State) (j : Jtag) : (s.setJtag j).ueSeen = s.ueSeen := rfl
@[simp] theorem State.setJtag_scrubPos (s : State) (j : Jtag) : (s.setJtag j).scrubPos = s.scrubPos := rfl
@[simp] theorem State.setJtag_ports (s : State) (j : Jtag) : (s.setJtag j).ports = s.ports := rfl
@[simp] theorem State.setJtag_chain (s : State) (j : Jtag) : (s.setJtag j).chain = s.chain := rfl
@[simp] theorem State.setJtag_jtag (s : State) (j : Jtag) : (s.setJtag j).jtag = j := rfl
@[simp] theorem State.setJtag_flash (s : State) (j : Jtag) : (s.setJtag j).flash = s.flash := rfl
@[simp] theorem State.setJtag_fw (s : State) (j : Jtag) : (s.setJtag j).fw = s.fw := rfl
@[simp] theorem State.setJtag_trc (s : State) (j : Jtag) : (s.setJtag j).trc = s.trc := rfl
@[simp] theorem State.setJtag_freeze (s : State) (j : Jtag) : (s.setJtag j).freeze = s.freeze := rfl
@[simp] theorem State.setJtag_snapQ (s : State) (j : Jtag) : (s.setJtag j).snapQ = s.snapQ := rfl
@[simp] theorem State.setJtag_out (s : State) (j : Jtag) : (s.setJtag j).out = s.out := rfl
@[simp] theorem State.setJtag_fresh (s : State) (j : Jtag) : (s.setJtag j).fresh = s.fresh := rfl
@[simp] theorem State.setJtag_drains (s : State) (j : Jtag) : (s.setJtag j).drains = s.drains := rfl
@[simp] theorem State.setJtag_errs (s : State) (j : Jtag) : (s.setJtag j).errs = s.errs := rfl

@[simp] theorem State.setChain_pending (s : State) (c : Chain) : (s.setChain c).pending = s.pending := rfl
@[simp] theorem State.setChain_fuses (s : State) (c : Chain) : (s.setChain c).fuses = s.fuses := rfl
@[simp] theorem State.setChain_shadow (s : State) (c : Chain) : (s.setChain c).shadow = s.shadow := rfl
@[simp] theorem State.setChain_pins (s : State) (c : Chain) : (s.setChain c).pins = s.pins := rfl
@[simp] theorem State.setChain_supply (s : State) (c : Chain) : (s.setChain c).supply = s.supply := rfl
@[simp] theorem State.setChain_ember (s : State) (c : Chain) : (s.setChain c).ember = s.ember := rfl
@[simp] theorem State.setChain_rst (s : State) (c : Chain) : (s.setChain c).rst = s.rst := rfl
@[simp] theorem State.setChain_kind (s : State) (c : Chain) : (s.setChain c).kind = s.kind := rfl
@[simp] theorem State.setChain_doms (s : State) (c : Chain) : (s.setChain c).doms = s.doms := rfl
@[simp] theorem State.setChain_lostClk (s : State) (c : Chain) : (s.setChain c).lostClk = s.lostClk := rfl
@[simp] theorem State.setChain_pages (s : State) (c : Chain) : (s.setChain c).pages = s.pages := rfl
@[simp] theorem State.setChain_ownBad (s : State) (c : Chain) : (s.setChain c).ownBad = s.ownBad := rfl
@[simp] theorem State.setChain_queues (s : State) (c : Chain) : (s.setChain c).queues = s.queues := rfl
@[simp] theorem State.setChain_order (s : State) (c : Chain) : (s.setChain c).order = s.order := rfl
@[simp] theorem State.setChain_rr (s : State) (c : Chain) : (s.setChain c).rr = s.rr := rfl
@[simp] theorem State.setChain_copies (s : State) (c : Chain) : (s.setChain c).copies = s.copies := rfl
@[simp] theorem State.setChain_held (s : State) (c : Chain) : (s.setChain c).held = s.held := rfl
@[simp] theorem State.setChain_ctxs (s : State) (c : Chain) : (s.setChain c).ctxs = s.ctxs := rfl
@[simp] theorem State.setChain_psync (s : State) (c : Chain) : (s.setChain c).psync = s.psync := rfl
@[simp] theorem State.setChain_psnap (s : State) (c : Chain) : (s.setChain c).psnap = s.psnap := rfl
@[simp] theorem State.setChain_lsync (s : State) (c : Chain) : (s.setChain c).lsync = s.lsync := rfl
@[simp] theorem State.setChain_lsnap (s : State) (c : Chain) : (s.setChain c).lsnap = s.lsnap := rfl
@[simp] theorem State.setChain_cores (s : State) (c : Chain) : (s.setChain c).cores = s.cores := rfl
@[simp] theorem State.setChain_engines (s : State) (c : Chain) : (s.setChain c).engines = s.engines := rfl
@[simp] theorem State.setChain_stores (s : State) (c : Chain) : (s.setChain c).stores = s.stores := rfl
@[simp] theorem State.setChain_lanes (s : State) (c : Chain) : (s.setChain c).lanes = s.lanes := rfl
@[simp] theorem State.setChain_shadows (s : State) (c : Chain) : (s.setChain c).shadows = s.shadows := rfl
@[simp] theorem State.setChain_drt (s : State) (c : Chain) : (s.setChain c).drt = s.drt := rfl
@[simp] theorem State.setChain_beat (s : State) (c : Chain) : (s.setChain c).beat = s.beat := rfl
@[simp] theorem State.setChain_sched (s : State) (c : Chain) : (s.setChain c).sched = s.sched := rfl
@[simp] theorem State.setChain_prefetch (s : State) (c : Chain) : (s.setChain c).prefetch = s.prefetch := rfl
@[simp] theorem State.setChain_pageReqs (s : State) (c : Chain) : (s.setChain c).pageReqs = s.pageReqs := rfl
@[simp] theorem State.setChain_mem (s : State) (c : Chain) : (s.setChain c).mem = s.mem := rfl
@[simp] theorem State.setChain_ue (s : State) (c : Chain) : (s.setChain c).ue = s.ue := rfl
@[simp] theorem State.setChain_ueSeen (s : State) (c : Chain) : (s.setChain c).ueSeen = s.ueSeen := rfl
@[simp] theorem State.setChain_scrubPos (s : State) (c : Chain) : (s.setChain c).scrubPos = s.scrubPos := rfl
@[simp] theorem State.setChain_ports (s : State) (c : Chain) : (s.setChain c).ports = s.ports := rfl
@[simp] theorem State.setChain_chain (s : State) (c : Chain) : (s.setChain c).chain = c := rfl
@[simp] theorem State.setChain_jtag (s : State) (c : Chain) : (s.setChain c).jtag = s.jtag := rfl
@[simp] theorem State.setChain_flash (s : State) (c : Chain) : (s.setChain c).flash = s.flash := rfl
@[simp] theorem State.setChain_fw (s : State) (c : Chain) : (s.setChain c).fw = s.fw := rfl
@[simp] theorem State.setChain_trc (s : State) (c : Chain) : (s.setChain c).trc = s.trc := rfl
@[simp] theorem State.setChain_freeze (s : State) (c : Chain) : (s.setChain c).freeze = s.freeze := rfl
@[simp] theorem State.setChain_snapQ (s : State) (c : Chain) : (s.setChain c).snapQ = s.snapQ := rfl
@[simp] theorem State.setChain_out (s : State) (c : Chain) : (s.setChain c).out = s.out := rfl
@[simp] theorem State.setChain_fresh (s : State) (c : Chain) : (s.setChain c).fresh = s.fresh := rfl
@[simp] theorem State.setChain_drains (s : State) (c : Chain) : (s.setChain c).drains = s.drains := rfl
@[simp] theorem State.setChain_errs (s : State) (c : Chain) : (s.setChain c).errs = s.errs := rfl

@[simp] theorem State.setSched_pending (s : State) (slot idx : Nat) (e : Option SchedEnt) : (s.setSched slot idx e).pending = s.pending := rfl
@[simp] theorem State.setSched_fuses (s : State) (slot idx : Nat) (e : Option SchedEnt) : (s.setSched slot idx e).fuses = s.fuses := rfl
@[simp] theorem State.setSched_shadow (s : State) (slot idx : Nat) (e : Option SchedEnt) : (s.setSched slot idx e).shadow = s.shadow := rfl
@[simp] theorem State.setSched_pins (s : State) (slot idx : Nat) (e : Option SchedEnt) : (s.setSched slot idx e).pins = s.pins := rfl
@[simp] theorem State.setSched_supply (s : State) (slot idx : Nat) (e : Option SchedEnt) : (s.setSched slot idx e).supply = s.supply := rfl
@[simp] theorem State.setSched_ember (s : State) (slot idx : Nat) (e : Option SchedEnt) : (s.setSched slot idx e).ember = s.ember := rfl
@[simp] theorem State.setSched_rst (s : State) (slot idx : Nat) (e : Option SchedEnt) : (s.setSched slot idx e).rst = s.rst := rfl
@[simp] theorem State.setSched_kind (s : State) (slot idx : Nat) (e : Option SchedEnt) : (s.setSched slot idx e).kind = s.kind := rfl
@[simp] theorem State.setSched_doms (s : State) (slot idx : Nat) (e : Option SchedEnt) : (s.setSched slot idx e).doms = s.doms := rfl
@[simp] theorem State.setSched_lostClk (s : State) (slot idx : Nat) (e : Option SchedEnt) : (s.setSched slot idx e).lostClk = s.lostClk := rfl
@[simp] theorem State.setSched_pages (s : State) (slot idx : Nat) (e : Option SchedEnt) : (s.setSched slot idx e).pages = s.pages := rfl
@[simp] theorem State.setSched_ownBad (s : State) (slot idx : Nat) (e : Option SchedEnt) : (s.setSched slot idx e).ownBad = s.ownBad := rfl
@[simp] theorem State.setSched_queues (s : State) (slot idx : Nat) (e : Option SchedEnt) : (s.setSched slot idx e).queues = s.queues := rfl
@[simp] theorem State.setSched_order (s : State) (slot idx : Nat) (e : Option SchedEnt) : (s.setSched slot idx e).order = s.order := rfl
@[simp] theorem State.setSched_rr (s : State) (slot idx : Nat) (e : Option SchedEnt) : (s.setSched slot idx e).rr = s.rr := rfl
@[simp] theorem State.setSched_copies (s : State) (slot idx : Nat) (e : Option SchedEnt) : (s.setSched slot idx e).copies = s.copies := rfl
@[simp] theorem State.setSched_held (s : State) (slot idx : Nat) (e : Option SchedEnt) : (s.setSched slot idx e).held = s.held := rfl
@[simp] theorem State.setSched_ctxs (s : State) (slot idx : Nat) (e : Option SchedEnt) : (s.setSched slot idx e).ctxs = s.ctxs := rfl
@[simp] theorem State.setSched_psync (s : State) (slot idx : Nat) (e : Option SchedEnt) : (s.setSched slot idx e).psync = s.psync := rfl
@[simp] theorem State.setSched_psnap (s : State) (slot idx : Nat) (e : Option SchedEnt) : (s.setSched slot idx e).psnap = s.psnap := rfl
@[simp] theorem State.setSched_lsync (s : State) (slot idx : Nat) (e : Option SchedEnt) : (s.setSched slot idx e).lsync = s.lsync := rfl
@[simp] theorem State.setSched_lsnap (s : State) (slot idx : Nat) (e : Option SchedEnt) : (s.setSched slot idx e).lsnap = s.lsnap := rfl
@[simp] theorem State.setSched_cores (s : State) (slot idx : Nat) (e : Option SchedEnt) : (s.setSched slot idx e).cores = s.cores := rfl
@[simp] theorem State.setSched_engines (s : State) (slot idx : Nat) (e : Option SchedEnt) : (s.setSched slot idx e).engines = s.engines := rfl
@[simp] theorem State.setSched_stores (s : State) (slot idx : Nat) (e : Option SchedEnt) : (s.setSched slot idx e).stores = s.stores := rfl
@[simp] theorem State.setSched_lanes (s : State) (slot idx : Nat) (e : Option SchedEnt) : (s.setSched slot idx e).lanes = s.lanes := rfl
@[simp] theorem State.setSched_shadows (s : State) (slot idx : Nat) (e : Option SchedEnt) : (s.setSched slot idx e).shadows = s.shadows := rfl
@[simp] theorem State.setSched_drt (s : State) (slot idx : Nat) (e : Option SchedEnt) : (s.setSched slot idx e).drt = s.drt := rfl
@[simp] theorem State.setSched_beat (s : State) (slot idx : Nat) (e : Option SchedEnt) : (s.setSched slot idx e).beat = s.beat := rfl
@[simp] theorem State.setSched_sched (s : State) (slot idx : Nat) (e : Option SchedEnt) : (s.setSched slot idx e).sched = SMap.put s.sched none (schedKey slot idx) e := rfl
@[simp] theorem State.setSched_prefetch (s : State) (slot idx : Nat) (e : Option SchedEnt) : (s.setSched slot idx e).prefetch = s.prefetch := rfl
@[simp] theorem State.setSched_pageReqs (s : State) (slot idx : Nat) (e : Option SchedEnt) : (s.setSched slot idx e).pageReqs = s.pageReqs := rfl
@[simp] theorem State.setSched_mem (s : State) (slot idx : Nat) (e : Option SchedEnt) : (s.setSched slot idx e).mem = s.mem := rfl
@[simp] theorem State.setSched_ue (s : State) (slot idx : Nat) (e : Option SchedEnt) : (s.setSched slot idx e).ue = s.ue := rfl
@[simp] theorem State.setSched_ueSeen (s : State) (slot idx : Nat) (e : Option SchedEnt) : (s.setSched slot idx e).ueSeen = s.ueSeen := rfl
@[simp] theorem State.setSched_scrubPos (s : State) (slot idx : Nat) (e : Option SchedEnt) : (s.setSched slot idx e).scrubPos = s.scrubPos := rfl
@[simp] theorem State.setSched_ports (s : State) (slot idx : Nat) (e : Option SchedEnt) : (s.setSched slot idx e).ports = s.ports := rfl
@[simp] theorem State.setSched_chain (s : State) (slot idx : Nat) (e : Option SchedEnt) : (s.setSched slot idx e).chain = s.chain := rfl
@[simp] theorem State.setSched_jtag (s : State) (slot idx : Nat) (e : Option SchedEnt) : (s.setSched slot idx e).jtag = s.jtag := rfl
@[simp] theorem State.setSched_flash (s : State) (slot idx : Nat) (e : Option SchedEnt) : (s.setSched slot idx e).flash = s.flash := rfl
@[simp] theorem State.setSched_fw (s : State) (slot idx : Nat) (e : Option SchedEnt) : (s.setSched slot idx e).fw = s.fw := rfl
@[simp] theorem State.setSched_trc (s : State) (slot idx : Nat) (e : Option SchedEnt) : (s.setSched slot idx e).trc = s.trc := rfl
@[simp] theorem State.setSched_freeze (s : State) (slot idx : Nat) (e : Option SchedEnt) : (s.setSched slot idx e).freeze = s.freeze := rfl
@[simp] theorem State.setSched_snapQ (s : State) (slot idx : Nat) (e : Option SchedEnt) : (s.setSched slot idx e).snapQ = s.snapQ := rfl
@[simp] theorem State.setSched_out (s : State) (slot idx : Nat) (e : Option SchedEnt) : (s.setSched slot idx e).out = s.out := rfl
@[simp] theorem State.setSched_fresh (s : State) (slot idx : Nat) (e : Option SchedEnt) : (s.setSched slot idx e).fresh = s.fresh := rfl
@[simp] theorem State.setSched_drains (s : State) (slot idx : Nat) (e : Option SchedEnt) : (s.setSched slot idx e).drains = s.drains := rfl
@[simp] theorem State.setSched_errs (s : State) (slot idx : Nat) (e : Option SchedEnt) : (s.setSched slot idx e).errs = s.errs := rfl

/-! A read after an update. -/

@[simp] theorem State.page_setPage (s : State) (pg : Nat) (p : Page) : (s.setPage pg p).page pg = p := SMap.get_put_self ..
theorem State.page_setPage_ne (s : State) (pg : Nat) (p : Page) (j : Nat) (h : j ≠ pg) : (s.setPage pg p).page j = s.page j := SMap.get_put_ne _ _ _ _ _ _ h
@[simp] theorem State.ctx?_setCtx (s : State) (c : Nat) (x : Option Ctx) : (s.setCtx c x).ctx? c = x := SMap.get_put_self ..
theorem State.ctx?_setCtx_ne (s : State) (c : Nat) (x : Option Ctx) (j : Nat) (h : j ≠ c) : (s.setCtx c x).ctx? j = s.ctx? j := SMap.get_put_ne _ _ _ _ _ _ h
@[simp] theorem State.port_setPort (s : State) (p : Nat) (x : Port) : (s.setPort p x).port p = x := SMap.get_put_self ..
theorem State.port_setPort_ne (s : State) (p : Nat) (x : Port) (j : Nat) (h : j ≠ p) : (s.setPort p x).port j = s.port j := SMap.get_put_ne _ _ _ _ _ _ h
@[simp] theorem State.queue_setQueue (s : State) (q : Nat) (x : Queue) : (s.setQueue q x).queue q = x := SMap.get_put_self ..
theorem State.queue_setQueue_ne (s : State) (q : Nat) (x : Queue) (j : Nat) (h : j ≠ q) : (s.setQueue q x).queue j = s.queue j := SMap.get_put_ne _ _ _ _ _ _ h
@[simp] theorem State.engine_setEngine (s : State) (u : Nat) (e : Engine) : (s.setEngine u e).engine u = e := SMap.get_put_self ..
theorem State.engine_setEngine_ne (s : State) (u : Nat) (e : Engine) (j : Nat) (h : j ≠ u) : (s.setEngine u e).engine j = s.engine j := SMap.get_put_ne _ _ _ _ _ _ h
@[simp] theorem State.core_setCore (s : State) (c : Nat) (x : Core) : (s.setCore c x).core c = x := SMap.get_put_self ..
theorem State.core_setCore_ne (s : State) (c : Nat) (x : Core) (j : Nat) (h : j ≠ c) : (s.setCore c x).core j = s.core j := SMap.get_put_ne _ _ _ _ _ _ h
@[simp] theorem State.trcUnit_setTrc (s : State) (die : Nat) (t : TraceUnit) : (s.setTrc die t).trcUnit die = t := SMap.get_put_self ..
theorem State.trcUnit_setTrc_ne (s : State) (die : Nat) (t : TraceUnit) (j : Nat) (h : j ≠ die) : (s.setTrc die t).trcUnit j = s.trcUnit j := SMap.get_put_ne _ _ _ _ _ _ h
@[simp] theorem State.byte_setByte (s : State) (a : Nat) (b : Byte) : (s.setByte a b).byte a = b := SMap.get_put_self ..
theorem State.byte_setByte_ne (s : State) (a : Nat) (b : Byte) (j : Nat) (h : j ≠ a) : (s.setByte a b).byte j = s.byte j := SMap.get_put_ne _ _ _ _ _ _ h

/-- A byte outside the written range reads as before. -/
theorem State.byte_setBytes_out (s : State) (a : Nat) (bs : List Byte) (j : Nat) (h : j < a ∨ a + bs.length ≤ j) :
    (s.setBytes a bs).byte j = s.byte j := SMap.get_putBytes_out bs s.mem a j h

/-- A byte of the written range reads as it was written. -/
theorem State.byte_setBytes_in (s : State) (a : Nat) (bs : List Byte) (i : Nat) (h : i < bs.length) :
    (s.setBytes a bs).byte (a + i) = bs.getD i 0 := SMap.get_putBytes_in bs s.mem a i h

end Sys2Proof.Machine
end

