-- ==== Sys2Proof/Safety.lean ====
section
/-! DEFINITION. What counts as a safe run: every state it meets holds its maps in canonical form, no fault and no refusal. -/

set_option Elab.async false

namespace Sys2Proof.Machine

/-- The run of `n` steps from `s` ends in a next state. -/
def runs (n : Nat) (s : State) : Prop := ∃ t, Host.Core.run Sys2Proof.core n s = .next t

end Sys2Proof.Machine
end

