-- ==== Sys2Proof/WellFormed.lean ====
section
/-! DEFINITION. The operands a command can have: unit numbers within the package, lines of 64 bytes, flits of 256, registers'
indices within their blocks. -/

set_option Elab.async false

namespace Sys2Proof

/-- The operands lie within what the package has (R6, R7, R13, R284, R299, R364, R398, R417). -/
def Instr.wf (c : Instr) : Bool :=
  match c with
  | .commandLineWrite _ line => decide (line.length = 64)
  | .controlLineWrite q _ => decide (q < 64)
  | .ringAccessFail q _ _ => decide (q < 64)
  | .nopCommand q slot => decide (q < 64) && decide (slot < 65536)
  | .qcreate q slot => decide (q < 64) && decide (slot < 65536)
  | .qdestroy q slot => decide (q < 64) && decide (slot < 65536)
  | .ctxCreate q slot => decide (q < 64) && decide (slot < 65536)
  | .ctxDestroy q slot => decide (q < 64) && decide (slot < 65536)
  | .ctxSave q slot => decide (q < 64) && decide (slot < 65536)
  | .ctxRestore q slot => decide (q < 64) && decide (slot < 65536)
  | .stepCommand q slot => decide (q < 64) && decide (slot < 65536)
  | .abortCommand q slot => decide (q < 64) && decide (slot < 65536)
  | .syncSig q slot => decide (q < 64) && decide (slot < 65536)
  | .schedCancel q slot => decide (q < 64) && decide (slot < 65536)
  | .schedCkptCopy q slot => decide (q < 64) && decide (slot < 65536)
  | .schedPrefetch q slot => decide (q < 64) && decide (slot < 65536)
  | .schedFreeze q slot => decide (q < 64) && decide (slot < 65536)
  | .schedFwActivate q slot => decide (q < 64) && decide (slot < 65536)
  | .schedSyncSignal q slot => decide (q < 64) && decide (slot < 65536)
  | .ckptCopy q slot => decide (q < 64) && decide (slot < 65536)
  | .scrub q slot => decide (q < 64) && decide (slot < 65536)
  | .pageReqOpen q slot => decide (q < 64) && decide (slot < 65536)
  | .pageReqFork q slot => decide (q < 64) && decide (slot < 65536)
  | .pageReqSeal q slot => decide (q < 64) && decide (slot < 65536)
  | .pageReqGrow q slot => decide (q < 64) && decide (slot < 65536)
  | .pageReqTrim q slot => decide (q < 64) && decide (slot < 65536)
  | .pageReqFree q slot => decide (q < 64) && decide (slot < 65536)
  | .pageReqResume q slot => decide (q < 64) && decide (slot < 65536)
  | .pageReqSwapin q slot => decide (q < 64) && decide (slot < 65536)
  | .poolCompact q slot => decide (q < 64) && decide (slot < 65536)
  | .pageRefresh q slot => decide (q < 64) && decide (slot < 65536)
  | .tableRebuildOwnership q slot => decide (q < 64) && decide (slot < 65536)
  | .tableRebuildFuses q slot => decide (q < 64) && decide (slot < 65536)
  | .fwStage q slot => decide (q < 64) && decide (slot < 65536)
  | .billetEnd => true
  | .dispatchNop core => decide (core < 27648)
  | .issueWord core _ => decide (core < 27648)
  | .issueAdmit u _ => decide (u < 1638400)
  | .waitWord core => decide (core < 27648)
  | .waitRelease core => decide (core < 27648)
  | .signalWord core => decide (core < 27648)
  | .drainComplete core => decide (core < 27648)
  | .waitbeatWord core => decide (core < 27648)
  | .loopWord core => decide (core < 27648)
  | .jumpWord core => decide (core < 27648)
  | .setbaseWord core => decide (core < 27648)
  | .trapWord core => decide (core < 27648)
  | .endWord core => decide (core < 27648)
  | .descriptorComplete u idx => decide (u < 1638400) && decide (idx < 8)
  | .ftaTableProduct u => decide (u < 1638400)
  | .ftaTva7200Product u => decide (u < 1638400)
  | .laneGroupPass u group => decide (u < 1638400) && decide (group < 64)
  | .outputTileDrain u => decide (u < 1638400)
  | .bwaProduct u => decide (u < 1638400)
  | .rowGroupPass u group => decide (u < 1638400) && decide (group < 64)
  | .bwaTileRetire u => decide (u < 1638400)
  | .storeClassChange u => decide (u < 1638400)
  | .fit u => decide (u < 1638400)
  | .track u => decide (u < 1638400)
  | .widen u => decide (u < 1638400)
  | .wconv u => decide (u < 1638400)
  | .w12c u => decide (u < 1638400)
  | .act u => decide (u < 1638400)
  | .actb u => decide (u < 1638400)
  | .smx u => decide (u < 1638400)
  | .smxb u => decide (u < 1638400)
  | .norm u => decide (u < 1638400)
  | .normb u => decide (u < 1638400)
  | .xent u => decide (u < 1638400)
  | .emul u => decide (u < 1638400)
  | .bits u => decide (u < 1638400)
  | .bern u => decide (u < 1638400)
  | .rngWordRequest u => decide (u < 1638400)
  | .smpSample u => decide (u < 1638400)
  | .opt u => decide (u < 1638400)
  | .tiesum u => decide (u < 1638400)
  | .xreAdd u => decide (u < 1638400)
  | .exportImage u => decide (u < 1638400)
  | .retire u => decide (u < 1638400)
  | .reduce u => decide (u < 1638400)
  | .reduceLevelProceed u => decide (u < 1638400)
  | .pkgsum u => decide (u < 1638400)
  | .pkgsumGrant u _ _ _ => decide (u < 1638400)
  | .pkgsumErrorFlit u => decide (u < 1638400)
  | .pkgsumChildArrival u child _ _ => decide (u < 1638400) && decide (child < 3)
  | .pkgsumBroadcast u _ => decide (u < 1638400)
  | .release u => decide (u < 1638400)
  | .dmaCopy u => decide (u < 1638400)
  | .stream u => decide (u < 1638400)
  | .streamChunk u => decide (u < 1638400)
  | .kvread u => decide (u < 1638400)
  | .kvwrite u => decide (u < 1638400)
  | .pageAllocationRequest => true
  | .copyOnWrite => true
  | .listRefresh ctx slot => decide (ctx < 255) && decide (slot < 65536)
  | .phaseDone ctx => decide (ctx < 255)
  | .reportMarker port _ => decide (port < 6)
  | .replay ctx => decide (ctx < 255)
  | .commitFinalise ctx => decide (ctx < 255)
  | .advanceMarker _ => true
  | .setMarker _ => true
  | .rootMarkerRepeat => true
  | .beatApply slot => decide (slot < 24)
  | .beatOutRepeat => true
  | .beatInFrame frame => decide (frame.length = 14)
  | .beatSourceLost => true
  | .prefetchComplete _ => true
  | .newFirmwareStart => true
  | .chunkRequest die => decide (die < 100)
  | .chunkGrant die => decide (die < 100)
  | .hearthPoolDraw hearth => decide (hearth < 3456)
  | .engineCreditGrant u idx group => decide (u < 1638400) && decide (idx < 6152) && decide (group < 64)
  | .creditReturn die => decide (die < 100)
  | .surgeEnd => true
  | .recoveryEnd => true
  | .sensorSample _ => true
  | .aclkHalveEnd => true
  | .sensorLimitWidenEnd => true
  | .draughtTimeout u idx => decide (u < 1638400) && decide (idx < 8)
  | .drtBudgetWrite _ _ => true
  | .drtSurgeWrite _ _ => true
  | .drtPrsvWrite _ k _ => decide (k < 24)
  | .backgroundScrub cord line err => decide (cord < 24) && decide (line < 2147483648) && match err with
    | some e => decide (e.1 < 281474976710656) && decide (e.2 ≠ []) && e.2.all fun i => decide (i < 80)
    | none => true
  | .pgLockWrite _ pg _ => decide (pg < 1638400)
  | .unlockArmExpiry pg => decide (pg < 1638400)
  | .pgCtlSrst _ pg => decide (pg < 1638400)
  | .pgCtlPinj _ pg => decide (pg < 1638400)
  | .pgCtlCntclr _ pg => decide (pg < 1638400)
  | .pgErrClear _ pg => decide (pg < 1638400)
  | .pgIrqRawClear _ pg _ => decide (pg < 1638400)
  | .pgSnapWrite _ pg _ => decide (pg < 1638400)
  | .snapshotCapture => true
  | .parityScan pg _ => decide (pg < 1638400)
  | .counterLowRead _ pg off => decide (pg < 1638400) && decide (off < 4096 ∧ off % 4 = 0)
  | .beatSlotLoRead _ k => decide (k < 24)
  | .trcLoRead _ pg off => decide (pg < 1638400) && decide (off < 4096 ∧ off % 4 = 0)
  | .beatSlotWrite _ k _ _ => decide (k < 24)
  | .mgrAqCfgWrite _ _ => true
  | .registerWrite _ _ size _ => decide (size = 4 ∨ size = 8)
  | .vin56Good _ => true
  | .vin56Lost _ => true
  | .vstbyGood _ => true
  | .vstbyLost _ => true
  | .ember => true
  | .converters _ => true
  | .optionLoading _ => true
  | .dieEnumeration _ _ => true
  | .stackTraining _ => true
  | .firmwareStart => true
  | .linkTraining _ _ => true
  | .pwrDomWrite _ k _ => decide (k < 290)
  | .domainTransitionDone k => decide (k < 290)
  | .rstnPin => true
  | .wrstnPin => true
  | .hostLinkReset port => decide (port < 2)
  | .refclkLoss => true
  | .thermalTrip die temp => decide (die < 100) && decide (temp < 256)
  | .tjWarning die temp => decide (die < 100) && decide (temp < 256)
  | .rstPartGo _ _ => true
  | .rstDieGo _ _ => true
  | .rstWdtkWrite _ _ => true
  | .watchdogTimeout => true
  | .rstRclrWrite _ _ => true
  | .resetSourceRelease cause pg => decide (cause < 12) && decide (pg < 1638400)
  | .clockQualified die _ => decide (die < 100)
  | .clockQualLoss die _ => decide (die < 100)
  | .flitReceive port flit _ => decide (port < 6) && decide (flit.length = 256)
  | .nakReceive port _ => decide (port < 6)
  | .linkDetect port _ => decide (port < 6)
  | .linkEqualiseDone port _ => decide (port < 6)
  | .linkAlignDone port _ => decide (port < 6)
  | .linkIdentifyDone port _ _ _ => decide (port < 6)
  | .linkRetrainTimeout port => decide (port < 6)
  | .linkDownRetry port => decide (port < 6)
  | .hlkCfgRetrain _ port => decide (port < 2)
  | .hlkCfgEn _ port _ => decide (port < 2)
  | .rdpCfgRetrain _ port => decide (port < 4)
  | .rdpCfgEn _ port _ => decide (port < 4)
  | .watchedLineSnoop _ => true
  | .frameRelay _ frame => decide (20 ≤ frame.length)
  | .enumFrame _ frame => decide (20 ≤ frame.length)
  | .enumDone _ => true
  | .svcCfgEnum _ => true
  | .regRd frame => decide (20 ≤ frame.length)
  | .regWr frame => decide (20 ≤ frame.length)
  | .chainReset frame => decide (20 ≤ frame.length)
  | .imgFrame frame => decide (20 ≤ frame.length)
  | .fwctlBegin frame => decide (20 ≤ frame.length)
  | .fwctlStatus frame => decide (20 ≤ frame.length)
  | .fwctlActivate frame => decide (20 ≤ frame.length)
  | .fwctlAbort frame => decide (20 ≤ frame.length)
  | .fwctlCommit frame => decide (20 ≤ frame.length)
  | .fwctlSetwr frame => decide (20 ≤ frame.length)
  | .ping frame => decide (20 ≤ frame.length)
  | .chainUpPortLost => true
  | .fwCtlCommit _ => true
  | .fwCtlActnow _ => true
  | .fwCtlAbort _ => true
  | .smbReadVin => true
  | .smbReadVstby => true
  | .smbReadTj => true
  | .smbReadDraw => true
  | .smbReadBudget => true
  | .smbReadKsts => true
  | .smbReadCause => true
  | .smbReadRtotal => true
  | .smbReadStrap => true
  | .smbReadCaddr => true
  | .smbReadRcnt c => decide (c < 12)
  | .smbReadIdcode => true
  | .smbWrite _ => true
  | .extest => true
  | .samplePreload => true
  | .idcode => true
  | .bypass _ => true
  | .regaccUpdate _ => true
  | .regaccCapture => true
  | .trcFctlGo _ _ => true
  | .trcFctlThaw _ _ => true
  | .trcFctlSgo _ _ => true
  | .trcFctlSthaw _ _ => true
  | .frznEdge => true
  | .trcCtlWrite _ die _ => decide (die < 100)
  | .traceFlush die => decide (die < 100)
  | .traceLineWrite die _ => decide (die < 100)
  | .linkAlignmentLost port => decide (port < 6)
  | .flashProgramDone => true
  | .aperturePlacement _ _ => true

end Sys2Proof
end

