-- ==== Sys2Proof/Tests/Slice0.lean ====
section
/-! SUPPORT. Tests. Operands that are refused; for every statement, states and operands that meet its hypotheses together, at
the values where its clauses meet; for some commands, one step with a result worked out from the manual. -/

namespace Sys2Proof.Tests

open Sys2Proof Sys2Proof.Machine Sys2Proof.Cert

set_option Elab.async false

/-! States the tests share. -/

/-- Kindled, with Larfort port A up and the chain relaying; straps at their biases. -/
def up : State :=
  { State.reset with
    supply := { State.reset.supply with vinGood := true, vstbyGood := true }
    kind := { State.reset.kind with phase := 7, pwr := true, qual := true, opts := true }
    chain := { State.reset.chain with relay := true }
    ember := { State.reset.ember with straps := 0x1E0 }
    ports := [(0, { Port.reset with tstate := 5 })] }

/-- A context block over cord 0: one sync object, one statistics entry. -/
def blk0 : List Byte := leBytes 3 1 ++ zeros 3 ++ leBytes 2 1 ++ zeros 16 ++ leBytes 4 1 ++ zeros 484

/-- Its context. -/
def ctx0 : Ctx :=
  { block := blk0, seed := 0, slot := 0, syncBase := 0, lane := false, rseq := 0, queue := 0, used := [], step := none,
    dead := false, redo := false, idleBanked := false }

/-- With context 0 live on cord 0. -/
def upCtx : State := { up with ctxs := [(0, some ctx0)] }

/-- A queue of 16 slots whose rings lie in host memory from `a` on. -/
def ringAt (a : Nat) : Queue :=
  { Queue.none with
    live := true, cmd := BitVec.ofNat 48 a, cpl := BitVec.ofNat 48 (a + 0x400), ev := BitVec.ofNat 48 (a + 0x800),
    ctl := BitVec.ofNat 48 (a + 0xC00) }

/-- An accepted command of slot 0 with line `l`. -/
def cmd0 (l : List Byte) : Cmd := { slot := 0, line := l, order := 0, started := false, pos := 0, count := 0, aux := 0 }

/-- `s` with the admin queue live and the commands `cs` accepted. -/
def withAdmin (s : State) (cs : List Cmd) : State :=
  { s with queues := [(0, { ringAt 0x800000000000 with cmds := cs })], order := cs.length }

/-- A command line: OPC, FLAGS 0x80 (PHASE 1), CTX, TAG 7, and the arguments from byte 8. -/
def cline (opc ctx : Nat) (args : List Byte) : List Byte :=
  leBytes 1 opc ++ leBytes 1 0x80 ++ leBytes 2 ctx ++ leBytes 4 7 ++ args ++ zeros (56 - args.length)

/-! Operands within reach. -/

/-- Agent `w` reaches every direct address from `lo` to `hi` under its own name, and no unit of them holds an uncorrectable error. -/
def Plain (s : State) (w : Who) (lo hi : Nat) : Prop := ∀ a, lo ≤ a → a < hi → s.resolve w a = .ok a ∧ s.isUe a = false

theorem plain_host (s : State) (w : Who) (ha : ∀ a, w.allowed .host a = true) (hh : s.hostUp = true) (hu : s.ue = []) :
    Plain s w 0x800000000000 0x1000000000000 := by
  intro a h1 h2
  have hp : s.place a = .host := by
    unfold State.place
    rw [if_neg (by omega), if_neg (by omega), if_pos (by omega)]
  constructor
  · unfold State.resolve State.phys isWindow
    rw [if_neg (by simp; omega)]
    simp [hp, ha, State.placeUp, hh]
  · simp [State.isUe, hu]

theorem plain_stack (s : State) (w : Who) (k : Nat) (ha : ∀ a, w.allowed (.stack k) a = true)
    (h : k < s.nCords ∧ k < 24 ∧ s.placeUp (.stack k) = true ∧ s.ownBad = [] ∧ s.ue = []) :
    Plain s w (k * 0x2000000000) ((k + 1) * 0x2000000000) := by
  obtain ⟨hk, h24, hup, ho, hu⟩ := h
  intro a h1 h2
  have hq : a / 0x2000000000 = k := by omega
  have hp : s.place a = .stack k := by
    unfold State.place
    rw [if_pos (by omega)]
    simp only [hq, hk, if_true]
  constructor
  · unfold State.resolve State.phys isWindow
    rw [if_neg (by simp; omega)]
    cases w <;> simp [hp, ha, hup, ho]
  · simp [State.isUe, hu]

theorem plain_hearth (s : State) (w : Who) (ha : ∀ a, w.allowed (.hearth 0) a = true)
    (h : s.hasDie 0 = true ∧ s.placeUp (.hearth 0) = true ∧ s.ownBad = [] ∧ s.ue = []) : Plain s w 0x080000000000 0x080000600000 := by
  obtain ⟨hd, hup, ho, hu⟩ := h
  intro a h1 h2
  have hp : s.place a = .hearth 0 := by
    have e1 : (a - 0x080000000000) / 0x20000000 = 0 := by omega
    have e2 : (a - 0x080000000000) % 0x20000000 / 0x800000 = 0 := by omega
    have e3 : (a - 0x080000000000) % 0x800000 < 0x600000 := by omega
    unfold State.place
    rw [if_neg (by omega), if_pos (by omega)]
    simp only [e1, e2, hd, e3]
    decide
  constructor
  · unfold State.resolve State.phys isWindow
    rw [if_neg (by simp; omega)]
    cases w <;> simp [hp, ha, hup, ho]
  · simp [State.isUe, hu]

theorem Plain.reach {s : State} {w : Who} {lo hi : Nat} (h : Plain s w lo hi) {a n : Nat} (hr : lo ≤ a ∧ a + n ≤ hi) : Open s w a n :=
  fun k _ => ⟨a + k, h _ (by omega) (by omega)⟩

theorem Plain.apart {s : State} {w : Who} {lo hi : Nat} (h : Plain s w lo hi) {x y : Nat × Nat} (hx : lo ≤ x.1 ∧ x.1 + x.2 ≤ hi)
    (hy : lo ≤ y.1 ∧ y.1 + y.2 ≤ hi) (hn : x.1 + x.2 ≤ y.1 ∨ y.1 + y.2 ≤ x.1) : Apart s w x y := by
  intro i hi' j hj p hp hq
  rw [(h (x.1 + i) (by omega) (by omega)).1] at hp
  rw [(h (y.1 + j) (by omega) (by omega)).1, ← hp] at hq
  simp only [Except.ok.injEq] at hq
  omega

/-- A read within reach answers the bytes that stand there. -/
theorem Plain.read {s : State} {w : Who} {lo hi : Nat} (h : Plain s w lo hi) : ∀ n a, lo ≤ a ∧ a + n ≤ hi →
    s.read w a n = .ok ((List.range n).map fun i => s.byte (a + i))
  | 0, _, _ => rfl
  | n + 1, a, hr => by
    have hb : s.readByte w a = .ok (s.byte a) := by
      unfold State.readByte
      simp [(h a (by omega) (by omega)).1, (h a (by omega) (by omega)).2]
    rw [State.read, hb, h.read n (a + 1) (by omega), List.range_succ_eq_map, List.map_cons, List.map_map]
    simp only [Nat.add_zero, Function.comp_def, Nat.add_assoc, Nat.add_comm 1, Nat.succ_eq_add_one]

/-- What stands there, byte by byte. -/
theorem Plain.read_eq {s : State} {w : Who} {lo hi : Nat} (h : Plain s w lo hi) {a n : Nat} {bs : List Byte}
    (hr : (lo ≤ a ∧ a + n ≤ hi) ∧ bs.length = n) (hm : ∀ i < n, s.byte (a + i) = bs.getD i 0) : s.read w a n = .ok bs := by
  rw [h.read n a hr.1]
  refine congrArg _ (List.ext_getElem (by simp [hr.2]) fun i h1 h2 => ?_)
  simp only [List.length_map, List.length_range] at h1
  rw [List.getElem_map, List.getElem_range, hm i h1, List.getD_eq_getElem]

/-- No line of a queue's event ring meets the addresses from `lo` to `hi`. -/
def ringOff (q : Queue) (lo hi : Nat) : Prop :=
  ∀ k < 2 ^ q.logEv, hi ≤ (q.ev + BitVec.ofNat 48 (64 * k)).toNat ∨ (q.ev + BitVec.ofNat 48 (64 * k)).toNat + 64 ≤ lo

theorem ringOff_none : ringOff Queue.none 0x080000000000 0x080000600000 := by
  unfold ringOff
  decide +kernel

theorem Plain.off {s : State} {w : Who} {lo hi : Nat} (h : Plain s w lo hi) {q : Queue} (hq : ringOff q lo hi) {x : Nat × Nat}
    (hx : lo ≤ x.1 ∧ x.1 + x.2 ≤ hi) : OffRing s w q x := by
  intro i hi' p hp ⟨k, hk, h1, h2⟩
  have := hq k hk
  rw [(h (x.1 + i) (by omega) (by omega)).1] at hp
  simp only [Except.ok.injEq] at hp
  omega

/-- Ranges of numbers without a number in common, all from `lo` to `hi`. -/
def within (lo hi : Nat) (l : List (Nat × Nat)) : Bool :=
  l.all (fun x => decide (lo ≤ x.1 ∧ x.1 + x.2 ≤ hi)) && decide (l.Pairwise fun x y => x.1 + x.2 ≤ y.1 ∨ y.1 + y.2 ≤ x.1)

theorem Plain.laid {s : State} {w : Who} {lo hi : Nat} (h : Plain s w lo hi) {x : Queue} {l : List (Nat × Nat)}
    (hl : within lo hi l = true) (h0 : ringOff (s.queue 0) lo hi) (hx : ringOff x lo hi) : Laid s w x l := by
  simp only [within, Bool.and_eq_true, List.all_eq_true, decide_eq_true_eq] at hl
  exact ⟨fun z hz => h.reach (hl.1 z hz), hl.2.imp_of_mem fun ha hb => h.apart (hl.1 _ ha) (hl.1 _ hb),
    fun z hz => ⟨h.off h0 (hl.1 z hz), h.off hx (hl.1 z hz)⟩⟩

/-- The same over the reach from `lo` to `hi` and from `lo'` to `hi'`. -/
def within2 (lo hi lo' hi' : Nat) (l : List (Nat × Nat)) : Bool :=
  l.all (fun x => decide ((lo ≤ x.1 ∧ x.1 + x.2 ≤ hi) ∨ (lo' ≤ x.1 ∧ x.1 + x.2 ≤ hi')))
    && decide (l.Pairwise fun x y => x.1 + x.2 ≤ y.1 ∨ y.1 + y.2 ≤ x.1)

theorem Plain.laid2 {s : State} {w : Who} {lo hi lo' hi' : Nat} (h : Plain s w lo hi) (h' : Plain s w lo' hi') {x : Queue}
    {l : List (Nat × Nat)} (hl : within2 lo hi lo' hi' l = true) (h0 : ringOff (s.queue 0) lo hi ∧ ringOff (s.queue 0) lo' hi')
    (hx : ringOff x lo hi ∧ ringOff x lo' hi') : Laid s w x l := by
  simp only [within2, Bool.and_eq_true, List.all_eq_true, decide_eq_true_eq] at hl
  have hr : ∀ z ∈ l, ∀ k < z.2, s.resolve w (z.1 + k) = .ok (z.1 + k) ∧ s.isUe (z.1 + k) = false := fun z hz k hk =>
    (hl.1 z hz).elim (fun hz' => h _ (by omega) (by omega)) fun hz' => h' _ (by omega) (by omega)
  refine ⟨fun z hz k hk => ⟨_, hr z hz k hk⟩, hl.2.imp_of_mem fun {a b} ha hb hn i hi j hj p hp hq => ?_, fun z hz => ?_⟩
  · rw [(hr a ha i hi).1] at hp
    rw [(hr b hb j hj).1, ← hp] at hq
    simp only [Except.ok.injEq] at hq
    omega
  · exact (hl.1 z hz).elim (fun hz' => ⟨h.off h0.1 hz', h.off hx.1 hz'⟩) fun hz' => ⟨h'.off h0.2 hz', h'.off hx.2 hz'⟩

theorem Plain.mono {s : State} {w : Who} {lo hi lo' hi' : Nat} (h : Plain s w lo hi) (hb : lo ≤ lo' ∧ hi' ≤ hi) : Plain s w lo' hi' :=
  fun a h1 h2 => h a (by omega) (by omega)

/-- Each of `n` reads is free of failure. -/
def allOk {α : Type} (n : Nat) (f : Nat → Except Fail α) : Bool := (List.range n).all fun r => (f r).toBool

/-! Turns of commands. -/

theorem served_of {s : State} {q slot : Nat} {k : Cmd}
    (h : s.serving = true ∧ s.nextImm = some (q, k) ∧ k.slot = slot ∧ s.ctxFieldOk (s.queue q) k.line = true) : Served s q slot k :=
  ⟨h.1, h.2.1, h.2.2.1, h.2.2.2⟩

theorem turn_of {s : State} {q slot : Nat} {k : Cmd} (h : s.serving = true ∧ s.nextImm = none ∧ s.nextBillet = some (.cmd q k)
    ∧ k.slot = slot ∧ (k.started || s.ctxFieldOk (s.queue q) k.line) = true) : Turn s q slot k :=
  ⟨h.1, h.2.1, h.2.2.1, h.2.2.2.1, by simpa using h.2.2.2.2⟩

/-- A failure-free answer exists. -/
theorem ok_ex {ε α : Type} {x : Except ε α} (h : x.toBool = true) : ∃ a, x = .ok a := by
  cases x with
  | error e => simp [Except.toBool] at h
  | ok a => exact ⟨a, rfl⟩

theorem allOk_ex {α : Type} {n : Nat} {f : Nat → Except Fail α} (h : allOk n f = true) : ∀ r < n, ∃ l, f r = .ok l := fun r hr =>
  ok_ex (List.all_eq_true.mp h r (List.mem_range.mpr hr))

/-- A range within reach can be written. -/
theorem Plain.write {s : State} {w : Who} {lo hi : Nat} (h : Plain s w lo hi) {bs : List Byte} {a : Nat}
    (hr : lo ≤ a ∧ a + bs.length ≤ hi) : ∃ t, s.write w a bs = .ok t := by
  have hl : ∀ n a, lo ≤ a → a + n ≤ hi → s.resolveAll w a n = .ok ((List.range n).map (a + ·)) := by
    intro n
    induction n with
    | zero => exact fun _ _ _ => rfl
    | succ n hn =>
      intro a h1 h2
      rw [State.resolveAll, (h a h1 (by omega)).1, hn (a + 1) (by omega) (by omega), List.range_succ_eq_map, List.map_cons, List.map_map]
      simp only [Nat.add_zero, Function.comp_def, Nat.add_assoc, Nat.add_comm 1, Nat.succ_eq_add_one]
  unfold State.write
  rw [hl _ _ hr.1 hr.2]
  dsimp only
  split
  · rename_i x hx
    have h1 := List.find?_some hx
    have h2 := List.mem_of_find?_eq_some hx
    have h3 := List.mem_map_of_mem (f := Prod.fst) h2
    rw [List.zipIdx_map_fst, List.mem_map] at h3
    obtain ⟨i, hi, h4⟩ := h3
    rw [List.mem_range] at hi
    simp only [← h4, (h (a + i) (by omega) (by omega)).2, Bool.false_and, Bool.false_eq_true] at h1
  · exact ⟨_, rfl⟩

/-- An answer exists. -/
theorem some_ex {α : Type} {x : Option α} (h : x.isSome = true) : ∃ a, x = some a := Option.isSome_iff_exists.mp h

/-- Whether a page-service request is performed. -/
def served (x : Except Fail KvAns) : Bool :=
  match x with
  | .ok (.done _) => true
  | _ => false

theorem served_ex {x : Except Fail KvAns} (h : served x = true) : ∃ u, x = .ok (.done u) := by
  unfold served at h
  split at h
  · exact ⟨_, rfl⟩
  · simp at h

/-! Operands that are refused (R6, R7, R13, R284, R299, R364, R398, R417). -/

theorem test_wf_line_length : Instr.wf (.commandLineWrite 0 (zeros 63)) = false ∧ Instr.wf (.commandLineWrite 0 (zeros 64)) = true := by
  decide +kernel

theorem test_wf_queue : Instr.wf (.controlLineWrite 64 0) = false ∧ Instr.wf (.ringAccessFail 64 .command true) = false
    ∧ Instr.wf (.nopCommand 64 0) = false ∧ Instr.wf (.nopCommand 63 65535) = true := by decide +kernel

theorem test_wf_slot : Instr.wf (.nopCommand 0 65536) = false ∧ Instr.wf (.fwStage 0 65536) = false := by decide +kernel

theorem test_wf_core : Instr.wf (.dispatchNop 27648) = false ∧ Instr.wf (.issueWord 27648 0) = false
    ∧ Instr.wf (.dispatchNop 27647) = true := by decide +kernel

theorem test_wf_unit : Instr.wf (.fit 1638400) = false ∧ Instr.wf (.issueAdmit 1638400 0) = false
    ∧ Instr.wf (.draughtTimeout 1638400 0) = false := by decide +kernel

theorem test_wf_index : Instr.wf (.descriptorComplete 0 8) = false ∧ Instr.wf (.draughtTimeout 0 8) = false
    ∧ Instr.wf (.engineCreditGrant 0 6152 0) = false := by decide +kernel

theorem test_wf_group : Instr.wf (.laneGroupPass 0 64) = false ∧ Instr.wf (.rowGroupPass 0 64) = false
    ∧ Instr.wf (.engineCreditGrant 0 0 64) = false := by decide +kernel

theorem test_wf_child : Instr.wf (.pkgsumChildArrival 0 3 [] 0) = false := by decide +kernel

theorem test_wf_context : Instr.wf (.listRefresh 255 0) = false ∧ Instr.wf (.phaseDone 255) = false
    ∧ Instr.wf (.phaseDone 254) = true := by decide +kernel

theorem test_wf_port : Instr.wf (.nakReceive 6 0) = false ∧ Instr.wf (.hostLinkReset 2) = false ∧ Instr.wf (.hlkCfgRetrain .m 2) = false
    ∧ Instr.wf (.rdpCfgRetrain .m 4) = false ∧ Instr.wf (.reportMarker 6 []) = false := by decide +kernel

theorem test_wf_beat_slot : Instr.wf (.beatApply 24) = false ∧ Instr.wf (.beatSlotLoRead .m 24) = false
    ∧ Instr.wf (.drtPrsvWrite .m 24 0) = false ∧ Instr.wf (.beatSlotWrite .m 24 true 0) = false := by decide +kernel

theorem test_wf_beat_frame : Instr.wf (.beatInFrame (zeros 13)) = false ∧ Instr.wf (.beatInFrame (zeros 14)) = true := by decide +kernel

theorem test_wf_die : Instr.wf (.chunkRequest 100) = false ∧ Instr.wf (.tjWarning 100 110) = false ∧ Instr.wf (.traceFlush 100) = false
    ∧ Instr.wf (.chunkRequest 99) = true := by decide +kernel

theorem test_wf_hearth : Instr.wf (.hearthPoolDraw 3456) = false ∧ Instr.wf (.hearthPoolDraw 3455) = true := by decide +kernel

theorem test_wf_stack_line : Instr.wf (.backgroundScrub 24 0 none) = false ∧ Instr.wf (.backgroundScrub 0 2147483648 none) = false
    ∧ Instr.wf (.backgroundScrub 23 2147483647 none) = true := by decide +kernel

theorem test_wf_page : Instr.wf (.pgLockWrite .m 1638400 0) = false ∧ Instr.wf (.unlockArmExpiry 1638400) = false
    ∧ Instr.wf (.parityScan 1638399 []) = true := by decide +kernel

theorem test_wf_offset : Instr.wf (.counterLowRead .m 0 4096) = false ∧ Instr.wf (.counterLowRead .m 0 2) = false
    ∧ Instr.wf (.trcLoRead .m 0 0x10E) = false ∧ Instr.wf (.counterLowRead .m 0 0xFFC) = true := by decide +kernel

theorem test_wf_access_size : Instr.wf (.registerWrite .m 0 2 0) = false ∧ Instr.wf (.registerWrite .m 0 8 0) = true := by decide +kernel

theorem test_wf_domain : Instr.wf (.pwrDomWrite .m 290 0) = false ∧ Instr.wf (.domainTransitionDone 290) = false := by decide +kernel

theorem test_wf_temperature : Instr.wf (.thermalTrip 0 256) = false ∧ Instr.wf (.tjWarning 0 255) = true := by decide +kernel

theorem test_wf_cause : Instr.wf (.resetSourceRelease 12 0) = false ∧ Instr.wf (.smbReadRcnt 12) = false
    ∧ Instr.wf (.smbReadRcnt 11) = true := by decide +kernel

theorem test_wf_flit : Instr.wf (.flitReceive 0 (zeros 255) false) = false ∧ Instr.wf (.flitReceive 0 (zeros 256) false) = true := by
  decide +kernel

theorem test_wf_chain_frame : Instr.wf (.ping (zeros 19)) = false ∧ Instr.wf (.frameRelay true (zeros 19)) = false
    ∧ Instr.wf (.ping (zeros 20)) = true := by decide +kernel

/-! Witnesses: the step, the frames, the host's commands. -/

/-- Two words written to a state with a command waiting. -/
def upNop : State := { up with pending := [.nopCommand 0 0, .recoveryEnd] }

theorem test_meets_StepRunsFrontCommand : upNop.pending = .nopCommand 0 0 :: [.recoveryEnd] ∧ up.pending = [] := ⟨rfl, rfl⟩

theorem test_meets_StepKeepsMemoryForm : ∃ t, Memory.wf (upNop.setBytes 0x8000 [1, 0, 2]).mem = true
    ∧ step (upNop.setBytes 0x8000 [1, 0, 2]) = .next t :=
  ⟨_, by decide +kernel, rfl⟩

theorem test_meets_StepOnlyBlowsFuses : ∃ t, step upNop = .next t ∧ upNop.pending = .nopCommand 0 0 :: [.recoveryEnd]
    ∧ mayBlowFuses (.nopCommand 0 0) = false :=
  ⟨_, rfl, rfl, rfl⟩

theorem test_meets_FrameOfHostCommands : ∃ l t, hostChanges (.nopCommand 0 0) = some l ∧ exec (.nopCommand 0 0) up = .next t
    ∧ Part.fuses ∉ l :=
  ⟨_, _, rfl, rfl, by decide⟩

theorem test_meets_FrameOfEngineCommands : ∃ l t, engineChanges (.waitRelease 0) = some l ∧ exec (.waitRelease 0) up = .next t
    ∧ Part.mem ∉ l :=
  ⟨_, _, rfl, rfl, by decide⟩

theorem test_meets_FrameOfStepCommands : ∃ l t, stepChanges .recoveryEnd = some l ∧ exec .recoveryEnd up = .next t ∧ Part.cores ∉ l :=
  ⟨_, _, rfl, rfl, by decide⟩

theorem test_meets_FrameOfRegisterCommands : ∃ l t, registerChanges (.unlockArmExpiry 0) = some l
    ∧ exec (.unlockArmExpiry 0) up = .next t ∧ Part.mem ∉ l :=
  ⟨_, _, rfl, rfl, by decide⟩

theorem test_meets_FrameOfPackageCommands : ∃ l t, packageChanges .extest = some l ∧ exec .extest up = .next t ∧ Part.chain ∉ l :=
  ⟨_, _, rfl, rfl, by decide⟩

/-! COMMAND_LINE_WRITE, CONTROL_LINE_WRITE, RING_ACCESS_FAIL, records and completions. -/

/-- The admin queue live, its slot H written with a NOP of the expected phase. -/
def upLine : State := (withAdmin up []).setBytes 0x800000000000 (cline 1 0xFF [])

/-- The same with slot H the ring's last. -/
def upLast : State :=
  { up with queues := [(0, { ringAt 0x800000000000 with head := 15 })] }.setBytes 0x8000000003C0 (cline 1 0xFF [])

theorem test_meets_CommandLineWrite_elsewhere : (cline 1 0xFF []).length = 64
    ∧ hostAligned (BitVec.toNat (0x800000010000 : Addr)) = true
    ∧ ((withAdmin up []).setBytes (BitVec.toNat (0x800000010000 : Addr)) (cline 1 0xFF [])).watchedBy
        (BitVec.toNat (0x800000010000 : Addr)) = none := by decide +kernel

theorem test_meets_CommandLineWrite_seen : (cline 1 0xFF []).length = 64
    ∧ hostAligned (BitVec.toNat (0x800000000000 : Addr)) = true ∧ (withAdmin up []).hostUp = true
    ∧ (withAdmin up []).watchedBy (BitVec.toNat (0x800000000000 : Addr)) = some 0 := by decide +kernel

theorem test_meets_CommandLineWrite_accepted : (upLine.queue 0).live = true ∧ (upLine.queue 0).stopped = false
    ∧ (upLine.queue 0).closing = false ∧ upLine.hostUp = true ∧ upLine.serving = true
    ∧ cPhase (upLine.bytes ((upLine.queue 0).slotAddr (upLine.queue 0).head) 64) = (upLine.queue 0).phase
    ∧ (upLine.queue 0).refuses 0 (upLine.bytes ((upLine.queue 0).slotAddr (upLine.queue 0).head) 64) = false := by decide +kernel

theorem test_meets_CommandLineWrite_last : (upLast.queue 0).live = true ∧ (upLast.queue 0).stopped = false
    ∧ (upLast.queue 0).closing = false ∧ upLast.hostUp = true ∧ upLast.serving = true
    ∧ cPhase (upLast.bytes ((upLast.queue 0).slotAddr (upLast.queue 0).head) 64) = (upLast.queue 0).phase
    ∧ (upLast.queue 0).head + 1 = 2 ^ (upLast.queue 0).logN := by decide +kernel

theorem test_meets_ControlLineWrite : ((withAdmin up []).queue 0).live = true ∧ (withAdmin up []).hostUp = true
    ∧ ((withAdmin up []).queue 0).stopped = false
    ∧ ¬ inRing ((withAdmin up []).queue 0) (((withAdmin up []).queue 0).ctl.toNat + 63) := by
  refine ⟨by decide +kernel, by decide +kernel, by decide +kernel, ?_⟩
  unfold inRing
  decide +kernel

theorem test_meets_ControlLineWrite_stopped :
    ({ up with queues := [(3, { ringAt 0x800000000000 with stopped := true })] }.queue 3).live = true
    ∧ ({ up with queues := [(3, { ringAt 0x800000000000 with stopped := true })] } : State).hostUp = true
    ∧ ({ up with queues := [(3, { ringAt 0x800000000000 with stopped := true })] }.queue 3).stopped = true := by decide +kernel

/-- Queue 3 live beside the admin queue. -/
def upTwo : State := { up with queues := [(0, ringAt 0x800000000000), (3, ringAt 0x800000010000)] }

theorem test_meets_RingAccessFail : (upTwo.queue 0).live = true ∧ (upTwo.queue 0).stopped = false ∧ upTwo.hostUp = true
    ∧ 3 ≠ 0 ∧ (upTwo.queue 3).live = true ∧ (upTwo.queue 3).stopped = false := by decide +kernel

theorem test_meets_RecordsStay : ¬ inRing (upTwo.queue 0) 0x800000000C00 ∧ ¬ inRing (upTwo.queue 0) 0x8000000007FF
    ∧ ¬ inCompletion (upTwo.queue 0) 0 0x800000000440 := by
  unfold inRing inCompletion
  decide +kernel

/-- A NOP accepted on the admin queue. -/
def nop0 : Cmd := cmd0 (cline 1 0xFF [])

theorem test_meets_CompletionWritesItsLine : CanComplete (withAdmin up [nop0]) 0 0 nop0 ∧ cIrq nop0.line = false
    ∧ ((withAdmin up [nop0]).queue 0).closing = false :=
  ⟨⟨by decide +kernel, by decide +kernel, by decide +kernel⟩, by decide +kernel, by decide +kernel⟩

/-! QCREATE, QDESTROY, contexts. -/

/-- `s` with the one command of line `l` accepted on the admin queue, beside queue 3. -/
def withCmd (s : State) (l : List Byte) : State :=
  { s with queues := [(0, { ringAt 0x800000000000 with cmds := [cmd0 l] }), (3, ringAt 0x800000010000)], order := 1 }

theorem test_meets_Nop : Served (withCmd up (cline 1 0xFF [])) 0 0 (cmd0 (cline 1 0xFF [])) ∧ cOpc (cline 1 0xFF []) = 0x01 :=
  ⟨served_of (by decide +kernel), by decide +kernel⟩

/-- QCREATE of queue 5, for a queue of privilege U that owns context 0. -/
def qcreate5 : List Byte :=
  cline 2 0xFF (leBytes 1 5 ++ leBytes 1 4 ++ leBytes 1 0x80 ++ leBytes 1 0 ++ leBytes 1 4 ++ zeros 3 ++ leBytes 8 0x800000020000
    ++ leBytes 8 0x800000020400 ++ leBytes 8 0x800000020800 ++ leBytes 8 0x800000020C00)

theorem test_meets_Qcreate : (Served (withCmd upCtx qcreate5) 0 0 (cmd0 qcreate5) ∧ cOpc qcreate5 = 0x02)
    ∧ ((withCmd upCtx qcreate5).queue (fld qcreate5 8 1)).live = false
    ∧ ringsFree (withCmd upCtx qcreate5) (queueOf qcreate5)
    ∧ (queueOf qcreate5).ownU = true ∧ ∃ c, (withCmd upCtx qcreate5).ctx? (queueOf qcreate5).octx = some c := by
  refine ⟨⟨served_of (by decide +kernel), by decide +kernel⟩, by decide +kernel, ?_,
    by decide +kernel, some_ex (by decide +kernel)⟩
  refine ⟨by decide +kernel, by decide +kernel, by decide +kernel⟩

def qdestroy3 : List Byte := cline 3 0xFF (leBytes 1 3)

theorem test_meets_Qdestroy_empty : (Served (withCmd up qdestroy3) 0 0 (cmd0 qdestroy3) ∧ cOpc qdestroy3 = 0x03)
    ∧ (cmd0 qdestroy3).aux ≠ 1 ∧ fld qdestroy3 8 1 ≠ 0 ∧ ((withCmd up qdestroy3).queue (fld qdestroy3 8 1)).live = true
    ∧ ((withCmd up qdestroy3).queue (fld qdestroy3 8 1)).cmds = [] :=
  ⟨⟨served_of (by decide +kernel), by decide +kernel⟩, by decide +kernel⟩

/-- QDESTROY of a queue with a STEP uncompleted. -/
def busy3 : State :=
  { up with queues := [(0, { ringAt 0x800000000000 with cmds := [cmd0 qdestroy3] }),
                       (3, { ringAt 0x800000010000 with cmds := [{ cmd0 (cline 8 0 []) with order := 1, started := true }] })], order := 2 }

theorem test_meets_Qdestroy_waits : Served busy3 0 0 (cmd0 qdestroy3) ∧ cOpc qdestroy3 = 0x03
    ∧ (cmd0 qdestroy3).aux ≠ 1 ∧ fld qdestroy3 8 1 ≠ 0 ∧ (busy3.queue (fld qdestroy3 8 1)).live = true
    ∧ (busy3.queue (fld qdestroy3 8 1)).cmds ≠ [] :=
  ⟨served_of (by decide +kernel), by decide +kernel⟩

/-- CTX_CREATE of the block at 0x8000_0003_0000. -/
def create0 : List Byte := cline 4 0xFF (leBytes 6 0x800000030000)

/-- The block written in host memory. -/
def upBlock : State := (withCmd up create0).setBytes 0x800000030000 blk0

theorem test_meets_CtxCreate : Served upBlock 0 0 (cmd0 create0) ∧ cOpc create0 = 0x04
    ∧ upBlock.read .cmdHost (fld create0 8 6) 512 = .ok blk0 ∧ upBlock.ctxBlockOk blk0 = true ∧ upBlock.freeCtxId = some 0
    ∧ upBlock.blkSeqtOk (upBlock.newCtx blk0 0) = .ok true :=
  ⟨served_of (by decide +kernel), by decide +kernel⟩

theorem test_meets_CtxDestroy : Served (withCmd upCtx (cline 5 0 [])) 0 0 (cmd0 (cline 5 0 [])) ∧ cOpc (cline 5 0 []) = 0x05
    ∧ (withCmd upCtx (cline 5 0 [])).ctx? (cCtx (cline 5 0 [])) = some ctx0 :=
  ⟨served_of (by decide +kernel), by decide +kernel⟩

/-! ABORT, SYNC_SIG, SCHED, STEP. -/

/-- ABORT of the command of slot 1 of queue 3 with TAG 9. -/
def abort3 : List Byte := cline 9 0xFF (leBytes 1 3 ++ zeros 1 ++ leBytes 2 1 ++ leBytes 4 9)

/-- TAG 9 was the last completed in slot 1. -/
def abortLate : State :=
  { up with queues := [(0, { ringAt 0x800000000000 with cmds := [cmd0 abort3] }),
                       (3, { ringAt 0x800000010000 with lastTag := [(1, 10)] })], order := 1 }

theorem test_meets_Abort_completed : Served abortLate 0 0 (cmd0 abort3) ∧ cOpc abort3 = 0x09
    ∧ abortLate.mayAbort 0 (fld abort3 8 1) = true
    ∧ ((abortLate.queue (fld abort3 8 1)).cmds.find? (fun c => decide (c.slot = fld abort3 10 2
        ∧ cTag c.line = BitVec.ofNat 32 (fld abort3 12 4) ∧ ¬ (fld abort3 8 1 = 0 ∧ fld abort3 10 2 = (cmd0 abort3).slot)))) = none
    ∧ SMap.get (abortLate.queue (fld abort3 8 1)).lastTag 0 (fld abort3 10 2) = (BitVec.ofNat 32 (fld abort3 12 4)).toNat + 1 :=
  ⟨served_of (by decide +kernel), by decide +kernel⟩

/-- A command of TAG 9 in slot 1 of queue 3. -/
def target9 (opc : Nat) : Cmd := { cmd0 (setFld (cline opc 0 []) 4 4 9) with slot := 1, order := 1 }

/-- Aborts of a waiting NOP. -/
def abortNop (ctxs : SMap (Option Ctx)) (opc : Nat) : State :=
  { up with queues := [(0, { ringAt 0x800000000000 with cmds := [cmd0 abort3] }),
                       (3, { ringAt 0x800000010000 with cmds := [target9 opc] })], order := 2, ctxs := ctxs }

/-- A step of context 0 run by the command of slot 1 of queue 3. -/
def step9 (decided : Bool) : StepRec :=
  { step := 0, att := 0, q := 3, slot := 1, entries := [], batch := 0, nseq := 0, bnd := [], bout := 0, lens := [], flags := [],
    nue := 0, ueAddr := 0, failed := none, failAddr := 0, treeCode := 0, judged := [], decided := decided, forced := false, replaying := false, begun := true,
    reported := none, abortWait := none }

/-- Context 0 in that step. -/
def ctxStep (decided : Bool) : Ctx := { ctx0 with step := some (step9 decided) }

theorem test_meets_Abort_waiting : Served (abortNop [(0, some ctx0)] 6) 0 0 (cmd0 abort3) ∧ cOpc abort3 = 0x09
    ∧ (abortNop [(0, some ctx0)] 6).mayAbort 0 (fld abort3 8 1) = true
    ∧ (((abortNop [(0, some ctx0)] 6).queue (fld abort3 8 1)).cmds.find? (fun c => decide (c.slot = fld abort3 10 2
        ∧ cTag c.line = BitVec.ofNat 32 (fld abort3 12 4) ∧ ¬ (fld abort3 8 1 = 0 ∧ fld abort3 10 2 = (cmd0 abort3).slot))))
        = some (target9 6)
    ∧ (abortNop [(0, some ctx0)] 6).stepOf (fld abort3 8 1) (fld abort3 10 2) = none :=
  ⟨served_of (by decide +kernel), by decide +kernel⟩

theorem test_meets_Abort_step (d : Bool) : Served (abortNop [(0, some (ctxStep d))] 8) 0 0 (cmd0 abort3) ∧ cOpc abort3 = 0x09
    ∧ (abortNop [(0, some (ctxStep d))] 8).mayAbort 0 (fld abort3 8 1) = true
    ∧ (((abortNop [(0, some (ctxStep d))] 8).queue (fld abort3 8 1)).cmds.find? (fun c => decide (c.slot = fld abort3 10 2
        ∧ cTag c.line = BitVec.ofNat 32 (fld abort3 12 4) ∧ ¬ (fld abort3 8 1 = 0 ∧ fld abort3 10 2 = (cmd0 abort3).slot))))
        = some (target9 8)
    ∧ (abortNop [(0, some (ctxStep d))] 8).stepOf (fld abort3 8 1) (fld abort3 10 2) = some (0, ctxStep d, step9 d)
    ∧ (step9 d).decided = d ∧ (abortNop [(0, some (ctxStep d))] 8).awaitsRoot (ctxStep d) (step9 d) = false
    ∧ (abortNop [(0, some (ctxStep d))] 8).ctx? 0 = some (ctxStep d) := by
  cases d
  · exact ⟨served_of (by decide +kernel), by decide +kernel⟩
  · exact ⟨served_of (by decide +kernel), by decide +kernel⟩

/-- A worker's step that has reported its beat done and awaits the root. -/
def ctxWaits : Ctx := { ctx0 with step := some { step9 false with reported := some { step := 0, phase := 0 } } }

def awaiting : State := { abortNop [(0, some ctxWaits)] 8 with beat := { up.beat with actsrc := 2 } }

theorem test_meets_Abort_waits : (Served awaiting 0 0 (cmd0 abort3) ∧ cOpc abort3 = 0x09)
    ∧ awaiting.mayAbort 0 (fld abort3 8 1) = true
    ∧ ((awaiting.queue (fld abort3 8 1)).cmds.find? (fun c => decide (c.slot = fld abort3 10 2
        ∧ cTag c.line = BitVec.ofNat 32 (fld abort3 12 4) ∧ ¬ (fld abort3 8 1 = 0 ∧ fld abort3 10 2 = (cmd0 abort3).slot))))
        = some (target9 8)
    ∧ ∃ r, awaiting.stepOf (fld abort3 8 1) (fld abort3 10 2) = some (0, ctxWaits, r) ∧ r.decided = false
      ∧ awaiting.awaitsRoot ctxWaits r = true ∧ awaiting.ctx? 0 = some ctxWaits :=
  ⟨⟨served_of (by decide +kernel), by decide +kernel⟩, by decide +kernel, by decide +kernel,
    { step9 false with reported := some { step := 0, phase := 0 } }, by decide +kernel⟩

/-- SYNC_SIG of package sync object 0: a reset of the epoch, or 5 more. -/
def sig (rst : Nat) : List Byte := cline 0x0A 0 (leBytes 2 0 ++ leBytes 2 rst ++ leBytes 4 (if rst = 1 then 0 else 5))

theorem test_meets_SyncSig (rst : Nat) (h : rst ∈ [0, 1]) : Served (withCmd upCtx (sig rst)) 0 0 (cmd0 (sig rst))
    ∧ cOpc (sig rst) = 0x0A ∧ (withCmd upCtx (sig rst)).ctx? (cCtx (sig rst)) = some ctx0
    ∧ syncRef ctx0 0 (fld (sig rst) 8 2) = .package 0 := by
  fin_cases h <;> exact ⟨served_of (by decide +kernel), by decide +kernel⟩

/-- An armed sync signal at the greatest index of the table, and the SCHED that cancels it. -/
def armed : SchedEnt :=
  { target := { step := 1, phase := 0 }, anchor := 0, kind := 5, kargs := zeros 40, q := 0, tag := 7, ctx := 0, fired := false }

def cancel255 : List Byte := cline 0x0B 0 (zeros 10 ++ leBytes 2 255)

theorem test_meets_SchedCancel : Served { withCmd upCtx cancel255 with sched := [(255, some armed)] } 0 0 (cmd0 cancel255)
    ∧ cOpc cancel255 = 0x0B ∧ fld cancel255 16 1 = 0 ∧ upCtx.ctx? (cCtx cancel255) = some ctx0 ∧ fld cancel255 18 2 < 256
    ∧ ({ withCmd upCtx cancel255 with sched := [(255, some armed)] } : State).schedAt ctx0.slot (fld cancel255 18 2) = some armed :=
  ⟨served_of (by decide +kernel), by decide +kernel⟩

/-- SCHED at beat (1, 0), or (0, 0xFFFF) for an activation. -/
def sched (kind : Nat) : List Byte :=
  cline 0x0B 0 (leBytes 8 (if kind = 4 then 0xFFFF else 0x10000) ++ leBytes 2 kind ++ zeros 6 ++ (match kind with
    | 1 => leBytes 8 0x800000040000 ++ leBytes 8 0x800000050000 ++ leBytes 8 64
    | 2 => leBytes 8 0x800000040000 ++ leBytes 8 0 ++ leBytes 8 64
    | 4 => leBytes 4 1
    | _ => []))

/-- An image is staged for bank B. -/
def stagedB : State := { upCtx with fw := { upCtx.fw with sstate := 3, target := true } }

theorem test_meets_Sched (kind : Nat) (h : kind ∈ [1, 2, 3, 4, 5]) : Served (withCmd stagedB (sched kind)) 0 0 (cmd0 (sched kind))
    ∧ cOpc (sched kind) = 0x0B ∧ fld (sched kind) 16 1 = kind ∧ (withCmd stagedB (sched kind)).ctx? (cCtx (sched kind)) = some ctx0
    ∧ (withCmd stagedB (sched kind)).freeSched ctx0.slot = some 0
    ∧ targetOk ((withCmd stagedB (sched kind)).slotBeat ctx0.slot) (Beat.ofNat (fld (sched kind) 8 8)) = true
    ∧ (withCmd stagedB (sched kind)).schedOk ctx0 ((withCmd stagedB (sched kind)).queue 0) (sched kind)
        (Beat.ofNat (fld (sched kind) 8 8)) = true := by
  fin_cases h <;> exact ⟨served_of (by decide +kernel), by decide +kernel⟩

/-- STEP of context 0 over an empty program table in host memory. -/
def stepLine : List Byte := cline 8 0 (leBytes 6 0x800000040000)

/-- Every byte of an empty memory's host range reads 0. -/
theorem read_host_zero (s : State) (c : Ctx) (hm : s.mem = []) (hu : s.ue = []) (hh : s.hostUp = true) :
    ∀ n a, 0x800000000000 ≤ a → a + n ≤ 0x1000000000000 → s.read (.cmd c) a n = .ok (List.replicate n 0)
  | 0, _, _, _ => rfl
  | n + 1, a, h1, h2 => by
    have hp : s.place a = .host := by
      unfold State.place
      rw [if_neg (by omega), if_neg (by omega), if_pos (by omega)]
    have hr : s.resolve (.cmd c) a = .ok a := by
      unfold State.resolve State.phys isWindow
      rw [if_neg (by simp; omega)]
      simp [hp, Who.allowed, State.placeUp, hh]
    have hb : s.readByte (.cmd c) a = .ok 0 := by
      unfold State.readByte State.isUe State.byte
      simp [hr, hu, hm, SMap.get]
    unfold State.read
    rw [hb, read_host_zero s c hm hu hh n (a + 1) (by omega) (by omega)]
    rfl

theorem fld_zeros (n off k : Nat) : fld (List.replicate n 0) off k = 0 := by
  unfold fld
  rw [List.drop_replicate, List.take_replicate]
  induction min k (n - off) with
  | zero => rfl
  | succ m ih => rw [List.replicate_succ, leVal, ih]; rfl

theorem test_meets_StepCommand : ((withCmd upCtx stepLine).queue 0).nextCmd = some (cmd0 stepLine) ∧ (cmd0 stepLine).slot = 0
    ∧ cOpc stepLine = 0x08 ∧ (withCmd upCtx stepLine).serving = true
    ∧ (withCmd upCtx stepLine).ctxFieldOk ((withCmd upCtx stepLine).queue 0) stepLine = true
    ∧ (withCmd upCtx stepLine).ctx? (cCtx stepLine) = some ctx0 ∧ ctx0.step = none
    ∧ (withCmd upCtx stepLine).nextBeat ctx0.slot = none ∧ ((withCmd upCtx stepLine).slotBeat ctx0.slot).phase = 0
    ∧ ctx0.dead = false ∧ (withCmd upCtx stepLine).subtree ≤ 64 := by decide +kernel

theorem stepTables_zeros (s : State) (c : Ctx) (l : List Byte) (m : Nat) (hb : fld l 16 6 = 0)
    (hr : s.read (.cmd c) (fld l 8 6) (8 * 8 * 48 * c.dies.length) = .ok (List.replicate m 0)) :
    ∃ r, s.stepTables c l = .ok (r, true) := by
  unfold State.stepTables
  simp only [hr, hb, fld_zeros, Bind.bind, Except.bind, pure, Except.pure, ne_eq, not_true_eq_false, decide_false]
  rw [List.find?_eq_none.mpr (fun _ _ => Bool.false_ne_true)]
  exact ⟨_, rfl⟩

theorem test_meets_StepCommand_tables : ∃ r, (withCmd upCtx stepLine).stepTables ctx0 stepLine = .ok (r, true) := by
  refine stepTables_zeros _ _ _ _ (by decide +kernel) (read_host_zero _ _ rfl rfl (by decide +kernel) _ _ ?_ ?_)
  · decide +kernel
  · decide +kernel

/-- Context 0 after a step that ended without commit. -/
def deadCtx : State := { up with ctxs := [(0, some { ctx0 with dead := true })] }

theorem test_meets_StepCommand_dead : ((withCmd deadCtx stepLine).queue 0).nextCmd = some (cmd0 stepLine) ∧ cOpc stepLine = 0x08
    ∧ (withCmd deadCtx stepLine).serving = true
    ∧ (withCmd deadCtx stepLine).ctxFieldOk ((withCmd deadCtx stepLine).queue 0) stepLine = true
    ∧ (withCmd deadCtx stepLine).ctx? (cCtx stepLine) = some { ctx0 with dead := true }
    ∧ (withCmd deadCtx stepLine).nextBeat ctx0.slot = none := by decide +kernel

/-! Witnesses: page requests and billets. -/

/-- A context whose block names the sequence table at 0x10000 of stack 0. -/
def ctxKv : Ctx := { ctx0 with block := setFld blk0 28 6 0x10000 }

/-- A sequence table of 4 slots in the given KVMODE, each with CAP 1 and a list of one entry: slot 0 free, 1 active with 32 tokens in page
0, 2 parked and 3 swapped. Its pool has two pages; page 1 is free and next in the ring. -/
def kvMem (mode : Nat) : SMap Byte :=
  let row := fun (k : Nat) => leBytes 4 k ++ leBytes 4 (if k = 1 then 32 else 0) ++ leBytes 6 (0x30000 + 0x1000 * k) ++ leBytes 4 1
    ++ zeros 14 ++ leBytes 6 (if k = 3 then 0x50000 else 0)
  [(0x10000, leBytes 1 mode ++ leBytes 1 1 ++ leBytes 2 64 ++ leBytes 4 4 ++ leBytes 6 0x20000 ++ leBytes 2 1),
    (0x10040, (List.range 4).flatMap fun k => row k ++ zeros (64 - (row k).length)),
    (0x20000, leBytes 6 0x100000 ++ leBytes 6 0x21000 ++ leBytes 6 0x22000 ++ leBytes 4 2 ++ leBytes 4 1 ++ leBytes 4 1),
    (0x21000, leBytes 8 (2 ^ 62 + 2 ^ 8)), (0x22004, [1]), (0x32000, leBytes 4 0x0FFFFFFF)].foldl (fun m p => SMap.putBytes m p.1 p.2) []

/-- With the table in stack 0. -/
def kvUp (mode : Nat) : State := { up with ctxs := [(0, some ctxKv)], mem := kvMem mode }

/-- A PAGE_REQ of context 0 on a slot, the other slot d, LEN, and what OPEN takes. -/
def pageReq (req slot d len : Nat) : List Byte :=
  cline 0x0E 0 (leBytes 4 req ++ leBytes 4 slot ++ leBytes 4 d ++ leBytes 4 len ++ zeros 8 ++ leBytes 8 0x30000 ++ leBytes 4 1)

/-- The table header as it is read. -/
def kvHead (mode : Nat) : Seqt := { base := 0x10000, mode := mode, kfmt := 1, hgw := 64, nseqt := 4, pool := 0x20000, nlh := 1 }

/-- The record of a slot as it is read. -/
def recOf (slot : Nat) : SeqRec :=
  { state := slot, prio := 0, len := if slot = 1 then 32 else 0, base := 0x30000 + 0x1000 * slot, cap := 1, lastuse := 0, refstamp := 0,
    swap := if slot = 3 then 0x50000 else 0 }

/-- The state in which a request is accepted. -/
def kvState (mode : Nat) (l : List Byte) : State := withCmd (kvUp mode) l

/-- What every page request of the statements asks of its state. -/
structure Asks (mode req slot : Nat) (l : List Byte) : Prop where
  served : Served (kvState mode l) 0 0 (cmd0 l)
  opc : cOpc l = 0x0E
  table : Table (kvState mode l) l ctxKv (kvHead mode)
  req : fld l 8 1 = req
  row : (kvState mode l).seqRec (.service ctxKv) (kvHead mode) (fld l 12 4) = .ok (recOf slot)

theorem asks_of {mode req slot : Nat} {l : List Byte}
    (h : ((kvState mode l).serving = true ∧ (kvState mode l).nextImm = some (0, cmd0 l)
        ∧ (kvState mode l).ctxFieldOk ((kvState mode l).queue 0) l = true ∧ cOpc l = 0x0E)
      ∧ ((kvState mode l).ctx? (cCtx l) = some ctxKv
        ∧ (kvState mode l).seqt (.service ctxKv) (blkSeqt ctxKv.block) = .ok (kvHead mode) ∧ fld l 12 4 < 4)
      ∧ fld l 8 1 = req ∧ (kvState mode l).seqRec (.service ctxKv) (kvHead mode) (fld l 12 4) = .ok (recOf slot)) :
    Asks mode req slot l :=
  ⟨⟨h.1.1, h.1.2.1, rfl, h.1.2.2.1⟩, h.1.2.2.2, ⟨h.2.1.1, by decide +kernel, h.2.1.2.1, h.2.1.2.2⟩, h.2.2.1, h.2.2.2⟩

theorem kv_plain (mode : Nat) (l : List Byte) : Plain (kvState mode l) (.service ctxKv) (0 * 0x2000000000) ((0 + 1) * 0x2000000000) := by
  have hk : bit (blkCords ctxKv.block) 0 = true := by decide +kernel
  have hp : (kvState mode l).placeUp (.stack 0) = up.placeUp (.stack 0) := rfl
  exact plain_stack _ _ 0 (fun _ => hk) ⟨show 0 < up.nCords by decide +kernel, by decide, by rw [hp]; decide +kernel, rfl, rfl⟩

theorem kv_ring (mode : Nat) (l : List Byte) : ringOff ((kvState mode l).queue 0) (0 * 0x2000000000) ((0 + 1) * 0x2000000000) := by
  have h : (kvState mode l).queue 0 = { ringAt 0x800000000000 with cmds := [cmd0 l] } := rfl
  rw [ringOff, h]
  show ∀ k < 2 ^ (ringAt 0x800000000000).logEv, _ ≤ ((ringAt 0x800000000000).ev + BitVec.ofNat 48 (64 * k)).toNat
    ∨ ((ringAt 0x800000000000).ev + BitVec.ofNat 48 (64 * k)).toNat + 64 ≤ _
  decide +kernel

theorem kv_pool {l : List Byte} (h : (((kvState 1 l).pool (.service ctxKv) (kvHead 1) 0 6 = .ok 0x100000
      ∧ (kvState 1 l).pool (.service ctxKv) (kvHead 1) 6 6 = .ok 0x21000)
      ∧ (kvState 1 l).pool (.service ctxKv) (kvHead 1) 12 6 = .ok 0x22000 ∧ (kvState 1 l).pool (.service ctxKv) (kvHead 1) 18 4 = .ok 2)
      ∧ ∀ k < 2, (kvState 1 l).readVal (.service ctxKv) (0x22000 + 4 * k) 4 = .ok k) :
    PoolOk (kvState 1 l) (.service ctxKv) (kvHead 1) 2 0x100000 0x21000 0x22000 :=
  ⟨h.1.1.1, h.1.1.2, h.1.2.1, h.1.2.2, by decide, by decide, fun k hk => ⟨k, hk, h.2 k hk⟩⟩

theorem kv_flat {l : List Byte} {rs : List SeqRec} {more : List (Nat × Nat)}
    (h : within 0 0x2000000000 ((0x10000, 320) :: rs.map (seqPart (kvHead 0)) ++ more) = true) :
    CacheOk (kvState 0 l) (.service ctxKv) ((kvState 0 l).queue ctxKv.queue) (kvHead 0) rs more :=
  ⟨by decide, fun _ => (kv_plain 0 l).laid h (kv_ring 0 l) (kv_ring 0 l), fun h => absurd h (by decide)⟩

theorem kv_paged {l : List Byte} {rs : List SeqRec} {more : List (Nat × Nat)}
    (hp : PoolOk (kvState 1 l) (.service ctxKv) (kvHead 1) 2 0x100000 0x21000 0x22000)
    (h : within 0 0x2000000000
      ((0x10000, 320) :: poolParts (kvHead 1) 2 0x100000 0x21000 0x22000 ++ rs.map (seqPart (kvHead 1)) ++ more) = true) :
    CacheOk (kvState 1 l) (.service ctxKv) ((kvState 1 l).queue ctxKv.queue) (kvHead 1) rs more :=
  ⟨by decide, fun h => absurd h (by decide), fun _ => ⟨2, 0x100000, 0x21000, 0x22000, hp, (kv_plain 1 l).laid h (kv_ring 1 l) (kv_ring 1 l)⟩⟩

theorem test_meets_PageOpen_flat : Asks 0 1 0 (pageReq 1 0 0 0) ∧ (recOf 0).state = 0 ∧ fld (pageReq 1 0 0 0) 24 1 ≤ 3
    ∧ fld (pageReq 1 0 0 0) 40 4 ≠ 0 ∧ fld (pageReq 1 0 0 0) 40 4 ≤ 4194303
    ∧ CacheOk (kvState 0 (pageReq 1 0 0 0)) (.service ctxKv) ((kvState 0 (pageReq 1 0 0 0)).queue ctxKv.queue) (kvHead 0)
        [{ recOf 0 with base := fld (pageReq 1 0 0 0) 32 6, cap := fld (pageReq 1 0 0 0) 40 4 }] [] :=
  ⟨asks_of (by decide +kernel), by decide, by decide +kernel, by decide +kernel, by decide +kernel, kv_flat (by decide +kernel)⟩

theorem test_meets_PageOpen_paged : Asks 1 1 0 (pageReq 1 0 0 0) ∧ (recOf 0).state = 0 ∧ fld (pageReq 1 0 0 0) 40 4 ≤ 65535
    ∧ CacheOk (kvState 1 (pageReq 1 0 0 0)) (.service ctxKv) ((kvState 1 (pageReq 1 0 0 0)).queue ctxKv.queue) (kvHead 1)
        [{ recOf 0 with base := fld (pageReq 1 0 0 0) 32 6, cap := fld (pageReq 1 0 0 0) 40 4 }] [] :=
  ⟨asks_of (by decide +kernel), by decide, by decide +kernel, kv_paged (kv_pool (by decide +kernel)) (by decide +kernel)⟩

theorem test_meets_PageFork : Asks 1 2 1 (pageReq 2 1 0 32) ∧ (fld (pageReq 2 1 0 32) 16 4 = 0 ∧ fld (pageReq 2 1 0 32) 12 4 = 1
    ∧ (kvState 1 (pageReq 2 1 0 32)).seqRec (.service ctxKv) (kvHead 1) 0 = .ok (recOf 0)
    ∧ fld (pageReq 2 1 0 32) 20 4 ≤ (recOf 1).len ∧ (fld (pageReq 2 1 0 32) 20 4 + 31) / 32 ≤ (recOf 0).cap)
    ∧ CacheOk (kvState 1 (pageReq 2 1 0 32)) (.service ctxKv) ((kvState 1 (pageReq 2 1 0 32)).queue ctxKv.queue) (kvHead 1)
        [recOf 1, recOf 0] []
    ∧ (kvState 1 (pageReq 2 1 0 32)).entAt (.service ctxKv) (kvHead 1) (recOf 1) 0 0 = .ok (.page 0 ⟨1, 0, 0, 0, 1⟩) :=
  ⟨asks_of (by decide +kernel), by decide +kernel, kv_paged (kv_pool (by decide +kernel)) (by decide +kernel), by decide +kernel⟩

theorem test_meets_PageSeal : Asks 1 3 1 (pageReq 3 1 0 0) ∧ (recOf 1).state = 1
    ∧ CacheOk (kvState 1 (pageReq 3 1 0 0)) (.service ctxKv) ((kvState 1 (pageReq 3 1 0 0)).queue ctxKv.queue) (kvHead 1) [recOf 1] [] :=
  ⟨asks_of (by decide +kernel), by decide, kv_paged (kv_pool (by decide +kernel)) (by decide +kernel)⟩

theorem test_meets_PageGrow_flat : Asks 0 4 1 (pageReq 4 1 0 1) ∧ (recOf 1).state = 1 ∧ fld (pageReq 4 1 0 1) 20 4 ≤ (recOf 1).cap :=
  ⟨asks_of (by decide +kernel), by decide, by decide +kernel⟩

theorem test_meets_PageGrow_paged : Asks 1 4 1 (pageReq 4 1 0 32) ∧ fld (pageReq 4 1 0 32) 20 4 ≤ 32 * (recOf 1).cap
    ∧ CacheOk (kvState 1 (pageReq 4 1 0 32)) (.service ctxKv) ((kvState 1 (pageReq 4 1 0 32)).queue ctxKv.queue) (kvHead 1) [recOf 1] []
    ∧ freePages (kvState 1 (pageReq 4 1 0 32)) (.service ctxKv) (kvHead 1) 1
    ∧ (kvHead 1).nlh * ((fld (pageReq 4 1 0 32) 20 4 + 31) / 32) ≤ 1
    ∧ (kvState 1 (pageReq 4 1 0 32)).entAt (.service ctxKv) (kvHead 1) (recOf 1) 0 0 = .ok (.page 0 ⟨1, 0, 0, 0, 1⟩) :=
  ⟨asks_of (by decide +kernel), by decide +kernel, kv_paged (kv_pool (by decide +kernel)) (by decide +kernel),
    show _ = _ by decide +kernel, by decide +kernel, by decide +kernel⟩

theorem test_meets_PageTrim (slot : Nat) (h : slot ∈ [1, 2]) : Asks 1 5 slot (pageReq 5 slot 0 0)
    ∧ ((recOf slot).state = 1 ∨ (recOf slot).state = 2) ∧ fld (pageReq 5 slot 0 0) 20 4 ≤ (recOf slot).len
    ∧ CacheOk (kvState 1 (pageReq 5 slot 0 0)) (.service ctxKv) ((kvState 1 (pageReq 5 slot 0 0)).queue ctxKv.queue) (kvHead 1)
        [recOf slot] [] := by
  fin_cases h <;>
    exact ⟨asks_of (by decide +kernel), by decide, by decide +kernel, kv_paged (kv_pool (by decide +kernel)) (by decide +kernel)⟩

theorem test_meets_PageFree : Asks 1 6 1 (pageReq 6 1 0 0) ∧ (recOf 1).state ≠ 0
    ∧ CacheOk (kvState 1 (pageReq 6 1 0 0)) (.service ctxKv) ((kvState 1 (pageReq 6 1 0 0)).queue ctxKv.queue) (kvHead 1) [recOf 1] [] :=
  ⟨asks_of (by decide +kernel), by decide, kv_paged (kv_pool (by decide +kernel)) (by decide +kernel)⟩

theorem test_meets_PageResume : Asks 0 7 2 (pageReq 7 2 0 0) ∧ (recOf 2).state = 2
    ∧ CacheOk (kvState 0 (pageReq 7 2 0 0)) (.service ctxKv) ((kvState 0 (pageReq 7 2 0 0)).queue ctxKv.queue) (kvHead 0) [recOf 2] [] :=
  ⟨asks_of (by decide +kernel), by decide, kv_flat (by decide +kernel)⟩

theorem test_meets_PageSwapin : Asks 1 8 3 (pageReq 8 3 0 0) ∧ (recOf 3).state = 3
    ∧ CacheOk (kvState 1 (pageReq 8 3 0 0)) (.service ctxKv) ((kvState 1 (pageReq 8 3 0 0)).queue ctxKv.queue) (kvHead 1) [recOf 3]
        [((recOf 3).swap, 65536 * ((kvHead 1).nlh * (recOf 3).cap))]
    ∧ freePages (kvState 1 (pageReq 8 3 0 0)) (.service ctxKv) (kvHead 1) 1 ∧ (kvHead 1).nlh * (recOf 3).cap ≤ 1 :=
  ⟨asks_of (by decide +kernel), by decide, kv_paged (kv_pool (by decide +kernel)) (by decide +kernel), show _ = _ by decide +kernel,
    by decide +kernel⟩

theorem test_meets_PageStates : (∀ mode ∈ [0, 1], ∀ k < 4, (kvUp mode).seqRec (.service ctxKv) (kvHead mode) k = .ok (recOf k))
    ∧ (∀ k < 4, (recOf k).state = k) ∧ (kvHead 0).mode = 0 ∧ (kvHead 1).mode = 1 := by decide +kernel

theorem test_meets_PageStates_writes : (∃ u, (kvUp 0).write (.service ctxKv) ((kvHead 0).recAt 2) [BitVec.ofNat 8 (1 + 4 * (recOf 2).prio)]
      = .ok u) ∧ ∃ u, (kvUp 0).write (.service ctxKv) ((kvHead 0).recAt 1) [BitVec.ofNat 8 (4 * (recOf 1).prio)] = .ok u :=
  ⟨ok_ex (by decide +kernel), ok_ex (by decide +kernel)⟩

/-! Billets. -/

/-- `s` with the command `k` accepted on the admin queue, beside queue 3. -/
def withK (s : State) (k : Cmd) : State :=
  { s with queues := [(0, { ringAt 0x800000000000 with cmds := [k] }), (3, ringAt 0x800000010000)], order := 1 }

/-- A command that has begun, at piece `pos`, with `count` kept. -/
def begunAt (l : List Byte) (pos count : Nat) : Cmd := { cmd0 l with started := true, pos := pos, count := count }

/-- A billeted command of context 0. -/
def billet (opc arg : Nat) : List Byte := cline opc 0 (leBytes 1 arg)

theorem test_meets_Billeted : ∀ p ∈ [(0x06, 0), (0x07, 0), (0x0C, 0), (0x0D, 0), (0x0F, 0), (0x10, 0), (0x11, 1), (0x11, 2), (0x12, 0)],
    Turn (withCmd upCtx (billet p.1 p.2)) 0 0 (cmd0 (billet p.1 p.2)) ∧ cOpc (billet p.1 p.2) = p.1
      ∧ fld (billet p.1 p.2) 8 1 = p.2 := by
  intro p hp
  fin_cases hp <;> exact ⟨turn_of (by decide +kernel), by decide +kernel⟩

/-- The 2^47 bytes of host memory that a command of context 0 can reach. -/
theorem host_plain (k : Cmd) : Plain (withK upCtx k) (.cmd ctx0) 0x800000000000 0x1000000000000 :=
  plain_host _ _ (fun _ => rfl) (show up.hostUp = true by decide +kernel) rfl

/-- CTX_SAVE of context 0 to host memory, with SIZE 2^24. -/
def saveLine : List Byte := cline 6 0 (leBytes 8 0x800000100000 ++ leBytes 8 0x1000000)

/-- A first piece of 2 MiB of an image of 5 MiB, and the whole of a shorter one. -/
theorem test_meets_CtxSave (n : Nat) (h : n ∈ [0x500000, 0x100000]) : (Turn (withK upCtx (begunAt saveLine 0 n)) 0 0 (begunAt saveLine 0 n)
      ∧ cOpc saveLine = 0x06 ∧ (withK upCtx (begunAt saveLine 0 n)).ctx? (cCtx saveLine) = some ctx0)
    ∧ (if fld saveLine 14 1 % 2 = 1 then (withK upCtx (begunAt saveLine 0 n)).regionBytes ctx0 else .ok []) = .ok []
    ∧ n = (if (begunAt saveLine 0 n).started then (begunAt saveLine 0 n).count else 64) ∧ n ≤ fld saveLine 16 8 ∧ 64 + 0 ≤ n
    ∧ Open (withK upCtx (begunAt saveLine 0 n)) (.cmd ctx0) (fld saveLine 8 6) n
    ∧ (0 + 2097152 < 0x500000 - 64) ∧ 0x100000 - 64 ≤ 0 + 2097152 := by
  fin_cases h <;>
    exact ⟨⟨turn_of (by decide +kernel), by decide +kernel⟩, by decide +kernel, by decide +kernel, by decide +kernel, by decide,
      (host_plain _).reach (by decide +kernel), by decide⟩

/-- A context block with two persistent regions of 64 bytes in stack 0. -/
def blkP : List Byte := setFld (setFld (setFld (setFld (setFld blk0 4 1 2) 192 6 0x40000) 200 8 64) 208 6 0x41000) 216 8 64

/-- An image of it from another geometry: no core, no local object, 128 bytes of regions. Its header up to the CRC, and the rest. -/
def imageHead32 : List Byte := leBytes 4 0x58435654 ++ leBytes 2 0x0100 ++ zeros 18 ++ leBytes 8 832

def imageRest : List Byte := zeros 28 ++ blkP ++ zeros 128 ++ List.replicate 128 5

def imageP : List Byte := imageHead32 ++ leBytes 4 (crc32 (imageHead32 ++ leBytes 4 0 ++ imageRest)).toNat ++ imageRest

theorem leVal_leBytes4 (v : Nat) : leVal (leBytes 4 v) = v % 2 ^ 32 := by
  simp only [leBytes, leVal, BitVec.toNat_ofNat]
  omega

theorem imageP_ok : imgOk imageP = true := by
  have hl : imageHead32.length = 32 := by decide +kernel
  have h4 : ∀ v, (leBytes 4 v).length = 4 := fun v => rfl
  have hf : ∀ v, fld (imageHead32 ++ leBytes 4 v ++ imageRest) 32 4 = v % 2 ^ 32 := fun v => by
    rw [fld, List.append_assoc, List.drop_append_of_le_length (by omega), List.drop_of_length_le (by omega), List.nil_append,
      List.take_append_of_le_length (by rw [h4]), List.take_of_length_le (by rw [h4]), leVal_leBytes4]
  have hs : ∀ v, setFld (imageHead32 ++ leBytes 4 v ++ imageRest) 32 4 0 = imageHead32 ++ leBytes 4 0 ++ imageRest := fun v => by
    rw [setFld, List.append_assoc imageHead32, List.take_append_of_le_length (by omega), List.take_of_length_le (by omega),
      ← List.append_assoc imageHead32, List.drop_append_of_le_length (by simp [hl, h4]), List.drop_of_length_le (by simp [hl, h4]),
      List.nil_append]
  have h0 : fld imageP 0 4 = 0x58435654 ∧ fld imageP 4 2 = 0x0100 := by decide +kernel
  unfold imgOk
  rw [decide_eq_true_eq]
  refine ⟨h0.1, h0.2, ?_⟩
  rw [imageP, hf, hs]
  exact Nat.mod_eq_of_lt (BitVec.isLt _)

/-- CTX_RESTORE from host memory, at its region piece `pos`. -/
def restoreLine : List Byte := cline 7 0xFF (leBytes 8 0x800000100000 ++ leBytes 8 0x800000200000)

def upImage (pos : Nat) : State :=
  { withK up (begunAt restoreLine pos 0) with mem := SMap.putBytes (SMap.putBytes [] 0x800000200000 blkP) 0x800000100000 imageP }

/-- The context that it makes. -/
def ctxP : Ctx := restoredCtx (up.newCtx blkP 0) imageP (imgParts imageP)

theorem image_plain (pos : Nat) : Plain (upImage pos) (.service ctxP) (0 * 0x2000000000) ((0 + 1) * 0x2000000000) := by
  have hk : bit (blkCords ctxP.block) 0 = true := by decide +kernel
  have e : (upImage pos).placeUp (.stack 0) = up.placeUp (.stack 0) := rfl
  refine plain_stack _ _ 0 (fun a => ?_) ⟨show 0 < up.nCords by decide +kernel, by decide, by rw [e]; decide +kernel, rfl, rfl⟩
  rw [Who.allowed, hk]

theorem image_reads (pos : Nat) : (∀ n ≤ 832, (upImage pos).read .cmdHost 0x800000100000 n = .ok (imageP.take n))
    ∧ (upImage pos).read .cmdHost 0x800000200000 512 = .ok blkP := by
  have hp : Plain (upImage pos) .cmdHost 0x800000000000 0x1000000000000 :=
    plain_host _ _ (fun _ => rfl) (show up.hostUp = true by decide +kernel) rfl
  have hl : imageP.length = 832 := by decide +kernel
  have hb : blkP.length = 512 := by decide +kernel
  constructor
  · intro n hn
    refine hp.read_eq ⟨by omega, by simp [hl, hn]⟩ fun i hi => ?_
    rw [State.byte, upImage, Sys2Proof.SMap.get_putBytes_in _ _ _ _ (by omega)]
    simp [List.getD_eq_getElem?_getD, List.getElem?_take, hi]
  · refine hp.read_eq ⟨by omega, hb⟩ fun i hi => ?_
    rw [State.byte, upImage, Sys2Proof.SMap.get_putBytes_out _ _ _ _ (by omega), Sys2Proof.SMap.get_putBytes_in _ _ _ _ (by omega)]

theorem test_meets_CtxRestore (pos : Nat) (h : pos ∈ [0, 1]) : Turn (upImage pos) 0 0 (begunAt restoreLine pos 0)
    ∧ cOpc restoreLine = 0x07 ∧ Image_ (upImage pos) 0 (begunAt restoreLine pos 0) imageP blkP 0 ctxP := by
  have hr : ∀ i < blkNpreg ctxP.block, Open (upImage pos) (.service ctxP) (blkPreg ctxP.block i).1 (blkPreg ctxP.block i).2 := by
    have : ∀ i < blkNpreg ctxP.block, 0 * 0x2000000000 ≤ (blkPreg ctxP.block i).1
      ∧ (blkPreg ctxP.block i).1 + (blkPreg ctxP.block i).2 ≤ (0 + 1) * 0x2000000000 := by decide +kernel
    exact fun i hi => (image_plain pos).reach (this i hi)
  have ha : fld restoreLine 8 6 = 0x800000100000 ∧ fld restoreLine 16 6 = 0x800000200000 := by decide +kernel
  have hh : fld (imageP.take 64) 24 8 = 832 := by decide +kernel
  have hl : imageP.take 832 = imageP := List.take_of_length_le (by decide +kernel)
  obtain ⟨hi, hb⟩ := image_reads pos
  refine ⟨?_, by decide +kernel, ⟨⟨imageP.take 64, ?_, by decide +kernel, by decide +kernel, by rw [hh]; decide, ?_⟩, ?_, imageP_ok, ?_, ?_,
    by decide +kernel, ?_, ?_, rfl, hr⟩⟩
  · fin_cases h <;> exact turn_of (by decide +kernel)
  · exact (congrArg ((upImage pos).read .cmdHost · 64) ha.1).trans (hi 64 (by decide))
  · rw [hh]
    exact (congrArg ((upImage pos).read .cmdHost · 832) ha.1).trans ((hi 832 (by decide)).trans (congrArg _ hl))
  · exact (congrArg ((upImage pos).read .cmdHost · 512) ha.2).trans hb
  · fin_cases h <;> decide +kernel
  · fin_cases h <;> decide +kernel
  · fin_cases h <;> decide +kernel
  · fin_cases h <;> decide +kernel

/-- Its region pieces: one left after the first, none after the second. -/
theorem test_meets_CtxRestore_pieces : (imgParts imageP).data < imageP.length
    ∧ (regionPieces ctxP (List.range (blkNpreg ctxP.block)) (imgParts imageP).data).length = 2
    ∧ (regionPieces ctxP (List.range (blkNpreg ctxP.block)) (imgParts imageP).data)[0]? = some (0x40000, 704, 64) := by decide +kernel

/-- CKPT_COPY of context 0 within host memory. -/
def copyLine (len : Nat) : List Byte := cline 0x0C 0 (leBytes 8 0x800000100000 ++ leBytes 8 0x800008000000 ++ leBytes 8 len)

theorem test_meets_CkptCopy (len : Nat) (h : len ∈ [0x400000, 0x200000]) : (Turn (withCmd upCtx (copyLine len)) 0 0 (cmd0 (copyLine len))
      ∧ cOpc (copyLine len) = 0x0C ∧ (withCmd upCtx (copyLine len)).cmdWho (copyLine len) = .cmd ctx0 ∧ fld (copyLine len) 24 8 = len)
    ∧ (withCmd upCtx (copyLine len)).copyOk (.cmd ctx0) (fld (copyLine len) 8 6) (fld (copyLine len) 16 6) len = true
    ∧ Open (withCmd upCtx (copyLine len)) (.cmd ctx0) (fld (copyLine len) 8 6) len
    ∧ Open (withCmd upCtx (copyLine len)) (.cmd ctx0) (fld (copyLine len) 16 6) len
    ∧ 0 + 2097152 < 0x400000 ∧ 0x200000 ≤ 0 + 2097152 := by
  have hp : Plain (withCmd upCtx (copyLine len)) (.cmd ctx0) 0x800000000000 0x1000000000000 := host_plain (cmd0 (copyLine len))
  fin_cases h <;>
    exact ⟨⟨turn_of (by decide +kernel), by decide +kernel⟩, by decide +kernel, hp.reach (by decide +kernel), hp.reach (by decide +kernel),
      by decide⟩

/-- A range in stack 0, off the admin queue's ring. -/
theorem test_meets_CkptCopy_offRing : OffRing (kvState 0 []) (.service ctxKv) ((kvState 0 []).queue 0) (0x40000, 2097152) :=
  (kv_plain 0 []).off (kv_ring 0 []) (by decide)

/-- SCRUB of stacks 0 and 1, at its first and its last billet; of none. -/
theorem test_meets_Scrub (pos : Nat) (h : pos ∈ [0, 1]) : Turn (withK up (begunAt (billet 0x0D 3) pos 0)) 0 0 (begunAt (billet 0x0D 3) pos 0)
    ∧ cOpc (billet 0x0D 3) = 0x0D ∧ (∀ c ∈ cordsOf (fld (billet 0x0D 3) 8 3), c < up.nCords)
    ∧ (cordsOf (fld (billet 0x0D 3) 8 3))[pos]? = some pos ∧ (cordsOf (fld (billet 0x0D 3) 8 3)).length = 2
    ∧ (withK up (begunAt (billet 0x0D 3) pos 0)).placeUp (.stack pos) = true := by
  fin_cases h <;> exact ⟨turn_of (by decide +kernel), by decide +kernel⟩

theorem test_meets_Scrub_none : Turn (withCmd upCtx (billet 0x0D 0)) 0 0 (cmd0 (billet 0x0D 0)) ∧ cOpc (billet 0x0D 0) = 0x0D
    ∧ (cordsOf (fld (billet 0x0D 0) 8 3)).length ≤ (cmd0 (billet 0x0D 0)).pos := ⟨turn_of (by decide +kernel), by decide +kernel⟩

/-- POOL_COMPACT at a slot, and PAGE_REFRESH of one slot or of all. -/
theorem test_meets_PoolWork (opc pos arg : Nat) (h : (opc, pos, arg) ∈ [(0x0F, 1, 0), (0x0F, 3, 0), (0x10, 1, 0xFFFFFFFF), (0x10, 0, 1)]) :
    Turn (withK (kvUp 1) (begunAt (cline opc 0 (leBytes 4 arg)) pos 0)) 0 0 (begunAt (cline opc 0 (leBytes 4 arg)) pos 0)
    ∧ (withK (kvUp 1) (begunAt (cline opc 0 (leBytes 4 arg)) pos 0)).ctx? (cCtx (cline opc 0 (leBytes 4 arg))) = some ctxKv
    ∧ blkSeqt ctxKv.block ≠ 0
    ∧ (withK (kvUp 1) (begunAt (cline opc 0 (leBytes 4 arg)) pos 0)).seqt (.service ctxKv) (blkSeqt ctxKv.block) = .ok (kvHead 1)
    ∧ cOpc (cline opc 0 (leBytes 4 arg)) = opc ∧ fld (cline opc 0 (leBytes 4 arg)) 8 4 = arg
    ∧ (withK (kvUp 1) (begunAt (cline opc 0 (leBytes 4 arg)) pos 0)).seqRec (.service ctxKv) (kvHead 1) (if arg = 1 then 1 else pos)
        = .ok (recOf (if arg = 1 then 1 else pos)) := by
  fin_cases h <;> exact ⟨turn_of (by decide +kernel), by decide +kernel⟩

/-- Their cache, with the slot's list. -/
theorem test_meets_PoolWork_cache (slot : Nat) (h : slot ∈ [1, 3]) :
    CacheOk (kvState 1 (billet 0x0F 0)) (.service ctxKv) ((kvState 1 (billet 0x0F 0)).queue ctxKv.queue) (kvHead 1) [recOf slot] [] := by
  fin_cases h <;> exact kv_paged (kv_pool (by decide +kernel)) (by decide +kernel)

/-- FW_STAGE of one block for bank B. -/
def stageLine : List Byte := cline 0x12 0xFF (zeros 8 ++ leBytes 4 65536 ++ leBytes 1 1)

theorem test_meets_FwStage : Turn (withCmd up stageLine) 0 0 (cmd0 stageLine) ∧ cOpc stageLine = 0x12 ∧ fld stageLine 16 4 = 65536 * 1
    ∧ fld stageLine 20 1 ≠ (if (withCmd up stageLine).cbank then 1 else 0) ∧ (withCmd up stageLine).chainStaging = false
    ∧ (withCmd up stageLine).fw.trial = false := ⟨turn_of (by decide +kernel), by decide +kernel⟩

theorem test_meets_FwStage_ends (st : Nat) (h : st ∈ [3, 4]) :
    Turn (withK { up with fw := { up.fw with sstate := st } } (begunAt stageLine 0 0)) 0 0 (begunAt stageLine 0 0)
    ∧ (begunAt stageLine 0 0).started = true ∧ (withK { up with fw := { up.fw with sstate := st } } (begunAt stageLine 0 0)).fw.sstate = st := by
  fin_cases h <;> exact ⟨turn_of (by decide +kernel), by decide +kernel⟩

theorem test_meets_FwStage_compact : Turn (kvState 0 (billet 0x0F 0)) 0 0 (cmd0 (billet 0x0F 0)) ∧ cOpc (billet 0x0F 0) = 0x0F
    ∧ (kvState 0 (billet 0x0F 0)).ctx? (cCtx (billet 0x0F 0)) = some ctxKv ∧ blkSeqt ctxKv.block ≠ 0
    ∧ (kvState 0 (billet 0x0F 0)).seqt (.service ctxKv) (blkSeqt ctxKv.block) = .ok (kvHead 0) := ⟨turn_of (by decide +kernel), by decide +kernel⟩

theorem test_meets_BilletEnd_billet : (withCmd upCtx (billet 0x11 1)).serving = true ∧ (withCmd upCtx (billet 0x11 1)).nextImm = none
    ∧ (withCmd upCtx (billet 0x11 1)).nextBillet = some (.cmd 0 (cmd0 (billet 0x11 1))) := by decide +kernel

theorem test_meets_BilletEnd_immediate : (withAdmin up [nop0]).serving = true ∧ (withAdmin up [nop0]).nextImm = some (0, nop0)
    ∧ ((withAdmin up [nop0]).queues.map fun p => p.2.cmds.length).sum = 1
    ∧ ((withAdmin up [nop0]).serveImm 0 nop0).nextBillet = none := by decide +kernel

theorem test_meets_BilletEnd_idle : up.nextImm = none ∧ up.nextBillet = none := by decide +kernel

/-- A fired copy of context 0 within host memory, at its last piece. -/
def fired : FiredCopy :=
  { ctx := 0, slot := 0, idx := 0, q := 0, tag := 7, src := 0x800000100000, dst := 0x800008000000, len := 0x400000, hold := false,
    pos := 0x200000, order := 0 }

def upFired : State := { upCtx with copies := [fired] }

theorem test_meets_BilletEnd_copy : upFired.serving = true ∧ upFired.nextImm = none ∧ upFired.nextBillet = some (.copy 0 fired)
    ∧ upFired.ctx? fired.ctx = some ctx0 ∧ Open upFired (.cmd ctx0) fired.src.toNat fired.len
    ∧ Open upFired (.cmd ctx0) fired.dst.toNat fired.len ∧ fired.len ≤ fired.pos + 2097152 := by
  have hp : Plain upFired (.cmd ctx0) 0x800000000000 0x1000000000000 :=
    plain_host _ _ (fun _ => rfl) (show up.hostUp = true by decide +kernel) rfl
  exact ⟨by decide +kernel, by decide +kernel, by decide +kernel, by decide +kernel, hp.reach (by decide +kernel),
    hp.reach (by decide +kernel), by decide⟩
/-! Witnesses: dispatch words. -/

/-- A memory that holds the bytes `bs` from address `a` on. -/
def memOf (a : Nat) (bs : List Byte) : SMap Byte :=
  (bs.zipIdx.map fun p => (a + p.2, p.1)).filter fun p => decide (p.2 ≠ 0)

/-- Core 0 of context 0 runs and stands at address 0 of stack 0, where the word `w` lies. -/
def atW (w : List Byte) : State := { upCtx with cores := [(0, { Core.reset with run := .running })], mem := memOf 0 w }

/-- A window's entry: descriptor `d` of core 0 and context 0, holding `k` credits, its words served. -/
def entry0 (d : List Byte) (k : Nat) : Entry :=
  { desc := d, addr := 0x1000, core := 0, ctx := 0, credits := k, started := false, startBeat := Beat.zero, tmo := false,
    prog := { Progress.start with served := true }, flags := [], contrib := none, ended := none }

/-- The same with a descriptor of core 0 outstanding on the FTA of hearth 0. -/
def atWBusy (w : List Byte) : State :=
  { atW w with engines := [(hearthPage 0 1, { Engine.empty with win := [entry0 (zeros 64) 0] })] }

/-- A dispatch word: opcode, byte 1, bytes 2 and 3, and what follows from byte 4. -/
def word (opc b1 b2 : Nat) (rest : List Byte) : List Byte :=
  leBytes 1 opc ++ leBytes 1 b1 ++ leBytes 2 b2 ++ rest ++ zeros (12 - rest.length)

theorem at_of (s : State) (opc : Nat) (w : List Byte)
    (h : s.hearthCtx (0 / 8) = some (0, ctx0) ∧ (s.core 0).run = .running ∧ s.hrtUp (0 / 8) = true ∧ (s.core 0).pc.toNat % 16 = 0
      ∧ s.fetchBytes ctx0 (s.core 0).pc (s.core 0).pc.toNat 16 = .ok w ∧ wOpc w = opc ∧ wordForm w = true
      ∧ wordSyncOk ctx0 (0 / 8) w = true) : AtWord s 0 opc 0 ctx0 w :=
  ⟨h.1, h.2.1, h.2.2.1, h.2.2.2.1, h.2.2.2.2.1, h.2.2.2.2.2.1, h.2.2.2.2.2.2.1, h.2.2.2.2.2.2.2⟩

/-- LOOP of LC[3] with COUNT 2 and TGT −1: it branches at 0 and falls through at 1. -/
def loopW : List Byte := word 5 3 0 (leBytes 4 2 ++ leBytes 4 0xFFFFFFFF)

/-- LC[3] is 1. -/
def atLoop1 : State :=
  { atW loopW with cores := [(0, { Core.reset with run := .running, lc := #v[0, 0, 0, 1] })] }

theorem test_meets_Loop : AtWord (atW loopW) 0 5 0 ctx0 loopW ∧ (3 : Fin 4).val = fld loopW 1 1 % 4
    ∧ ((atW loopW).core 0).lc[(3 : Fin 4)].toNat + 1 < fld loopW 4 4 :=
  ⟨at_of _ _ _ (by decide +kernel), by decide +kernel, by decide +kernel⟩

theorem test_meets_Loop_last : AtWord atLoop1 0 5 0 ctx0 loopW ∧ (3 : Fin 4).val = fld loopW 1 1 % 4
    ∧ fld loopW 4 4 ≤ (atLoop1.core 0).lc[(3 : Fin 4)].toNat + 1 :=
  ⟨at_of _ _ _ (by decide +kernel), by decide +kernel, by decide +kernel⟩

theorem test_meets_NopWord : AtWord (atW (word 0 0 0 [])) 0 0 0 ctx0 (word 0 0 0 []) := at_of _ _ _ (by decide +kernel)

theorem test_meets_Jump : AtWord (atW (word 6 0 0 (zeros 4 ++ leBytes 4 0xFFFFFFFF))) 0 6 0 ctx0
    (word 6 0 0 (zeros 4 ++ leBytes 4 0xFFFFFFFF)) := at_of _ _ _ (by decide +kernel)

/-- SETBASE of BASE[7] with ADD. -/
def setbaseW : List Byte := word 7 15 0 (zeros 4 ++ leBytes 6 0x10)

theorem test_meets_Setbase : AtWord (atW setbaseW) 0 7 0 ctx0 setbaseW ∧ (7 : Fin 8).val = fld setbaseW 1 1 % 8 :=
  ⟨at_of _ _ _ (by decide +kernel), by decide +kernel⟩

/-- WAIT on package object 0, for count 0 or 1. -/
def waitW (n : Nat) : List Byte := word 2 0 0 (leBytes 3 n)

theorem test_meets_Wait : AtWord (atW (waitW 0)) 0 2 0 ctx0 (waitW 0) ∧ AtWord (atW (waitW 1)) 0 2 0 ctx0 (waitW 1)
    ∧ (atW (waitW 0)).waitOk ctx0 0 (wSync (waitW 0)) (fld (waitW 0) 4 3) (fld (waitW 0) 7 1) = true
    ∧ (atW (waitW 1)).waitOk ctx0 0 (wSync (waitW 1)) (fld (waitW 1) 4 3) (fld (waitW 1) 7 1) = false :=
  ⟨at_of _ _ _ (by decide +kernel), at_of _ _ _ (by decide +kernel), by decide +kernel, by decide +kernel⟩

/-- A core stalled on a WAIT that a signal has met. -/
def released : State :=
  { upCtx with cores := [(0, { Core.reset with run := .waiting, word := waitW 1 })], psync := [(0, { count := 1, epoch := 0 })] }

theorem test_meets_WaitRelease : released.hearthCtx (0 / 8) = some (0, ctx0) ∧ (released.core 0).run = .waiting
    ∧ released.hrtUp (0 / 8) = true
    ∧ released.waitOk ctx0 (0 / 8) (wSync (released.core 0).word) (fld (released.core 0).word 4 3) (fld (released.core 0).word 7 1)
        = true := by decide +kernel

/-- The condition where its clauses meet: the epoch 127 and 128 ahead, the count 2^23 behind and 2^23 ahead (R274). -/
theorem test_wait_met_edges : waitMet ⟨0, 127⟩ 0 0 = true ∧ waitMet ⟨0, 128⟩ 0 0 = false ∧ waitMet ⟨0, 0⟩ 0x800001 0 = true
    ∧ waitMet ⟨0, 0⟩ 0x800000 0 = false ∧ (0xFFFFFF : Nat) < 2 ^ 24 ∧ (0xFF : Nat) < 2 ^ 8 := by decide +kernel

/-- SIGNAL of package object 0 with DRAIN, adding 5. -/
def signalW : List Byte := word 3 2 0 (leBytes 4 5)

theorem test_meets_Signal : AtWord (atW signalW) 0 3 0 ctx0 signalW ∧ (atW signalW).outstanding 0 = 0 :=
  ⟨at_of _ _ _ (by decide +kernel), by decide +kernel⟩

theorem test_meets_Signal_stalls : AtWord (atWBusy signalW) 0 3 0 ctx0 signalW ∧ fld signalW 1 1 / 2 % 2 = 1
    ∧ (atWBusy signalW).outstanding 0 ≠ 0 :=
  ⟨at_of _ _ _ (by decide +kernel), by decide +kernel, by decide +kernel⟩

theorem test_meets_Drain (r : CoreRun) (h : r ∈ [CoreRun.draining, .ending]) :
    ({ upCtx with cores := [(0, { Core.reset with run := r, word := signalW })] } : State).hearthCtx (0 / 8) = some (0, ctx0)
    ∧ ({ upCtx with cores := [(0, { Core.reset with run := r, word := signalW })] } : State).hrtUp (0 / 8) = true
    ∧ ({ upCtx with cores := [(0, { Core.reset with run := r, word := signalW })] } : State).outstanding 0 = 0
    ∧ (({ upCtx with cores := [(0, { Core.reset with run := r, word := signalW })] } : State).core 0).run = r := by
  fin_cases h <;> decide +kernel

/-- WAITBEAT with REL, for one STEP more; and for the beat that stands. -/
def waitbeatW (n : Nat) : List Byte := word 4 1 0 (leBytes 5 n)

theorem test_meets_Waitbeat : AtWord (atW (waitbeatW 0)) 0 4 0 ctx0 (waitbeatW 0) ∧ AtWord (atW (waitbeatW 1)) 0 4 0 ctx0 (waitbeatW 1)
    ∧ ((atW (waitbeatW 0)).slotBeat ctx0.slot).reaches (beatGoal ((atW (waitbeatW 0)).core 0) (waitbeatW 0)) = true
    ∧ ((atW (waitbeatW 1)).slotBeat ctx0.slot).reaches (beatGoal ((atW (waitbeatW 1)).core 0) (waitbeatW 1)) = false :=
  ⟨at_of _ _ _ (by decide +kernel), at_of _ _ _ (by decide +kernel), by decide +kernel, by decide +kernel⟩

def trapW : List Byte := word 8 0 0 (leBytes 4 0x1234)

theorem test_meets_Trap : AtWord (atW trapW) 0 8 0 ctx0 trapW := at_of _ _ _ (by decide +kernel)

theorem test_meets_Trap_full : (({ up with queues := [(0, { ringAt 0x800000000000 with evCount := 16 })] } : State).queue ctx0.queue).live = true
    ∧ (({ up with queues := [(0, { ringAt 0x800000000000 with evCount := 16 })] } : State).queue ctx0.queue).stopped = false
    ∧ (({ up with queues := [(0, { ringAt 0x800000000000 with evCount := 16 })] } : State).queue ctx0.queue).evFull = true := by
  decide +kernel

/-- END that signals package object 0. -/
def endW : List Byte := word 9 1 0 []

theorem test_meets_End : AtWord (atW endW) 0 9 0 ctx0 endW ∧ (atW endW).outstanding 0 = 0 ∧ fld endW 1 1 % 2 = 1
    ∧ AtWord (atWBusy endW) 0 9 0 ctx0 endW ∧ (atWBusy endW).outstanding 0 ≠ 0 :=
  ⟨at_of _ _ _ (by decide +kernel), by decide +kernel, by decide +kernel, at_of _ _ _ (by decide +kernel), by decide +kernel⟩

/-- ISSUE to the FTA engine of a descriptor at BASE[0] + 0x40, with LC[0] × STRIDE. -/
def issueW : List Byte := word 1 1 0x8000 (leBytes 2 1 ++ zeros 2 ++ leBytes 6 0x40)

/-- The descriptor at 0x40 is one of the FTA. -/
def atIssue : State := { atW issueW with mem := memOf 0 issueW ++ [(0x40, 1), (0x41, 1)] }

theorem test_meets_Issue : AtWord atIssue 0 1 0 ctx0 issueW ∧ engPage (0 / 8) (wEng issueW) (wInst issueW) = some (hearthPage 0 1)
    ∧ (descriptorAt (atIssue.core 0) issueW).toNat % 64 = 0
    ∧ atIssue.fetchBytes ctx0 (atIssue.core 0).pc (descriptorAt (atIssue.core 0) issueW).toNat 64 = .ok ([1, 1] ++ zeros 62)
    ∧ hEng ([1, 1] ++ zeros 62) = wEng issueW :=
  ⟨at_of _ _ _ (by decide +kernel), by decide +kernel⟩

/-- That ISSUE pends on the engine. -/
def issued : State :=
  { atIssue with
    cores := [(0, { Core.reset with run := .issuing, word := issueW })]
    engines := [(hearthPage 0 1, { Engine.empty with pend := [{ core := 0, addr := 0x40, time := 0 }] })] }

theorem test_meets_IssueAdmit : issued.unit (hearthPage 0 1) = some { eng := 1, inst := 0, g := 0, die := 0 }
    ∧ issued.cordCtx (0 / 3) = some (0, ctx0) ∧ (issued.engine (hearthPage 0 1)).win.length < 8
    ∧ issued.admits ctx0 { eng := 1, inst := 0, g := 0, die := 0 } (hearthPage 0 1) 100 = some { core := 0, addr := 0x40, time := 0 }
    ∧ issued.fetchBytes ctx0 (issued.core 0).pc 0x40 64 = .ok ([1, 1] ++ zeros 62) ∧ hEng ([1, 1] ++ zeros 62) = 1 := by
  decide +kernel

/-- A word of reserved opcode 10. -/
theorem test_meets_DispatchFault : (atW (word 10 0 0 [])).hearthCtx (0 / 8) = some (0, ctx0)
    ∧ ((atW (word 10 0 0 [])).core 0).run = .running ∧ (atW (word 10 0 0 [])).hrtUp (0 / 8) = true
    ∧ ((atW (word 10 0 0 [])).core 0).pc.toNat % 16 = 0
    ∧ (atW (word 10 0 0 [])).fetchBytes ctx0 ((atW (word 10 0 0 [])).core 0).pc 0 16 = .ok (word 10 0 0 []) ∧ 9 < wOpc (word 10 0 0 [])
    := by decide +kernel

/-- A PC that is not aligned. -/
theorem test_meets_DispatchFault_pc :
    ({ upCtx with cores := [(0, { Core.reset with run := .running, pc := 8 })] } : State).hearthCtx (0 / 8) = some (0, ctx0)
    ∧ ({ upCtx with cores := [(0, { Core.reset with run := .running, pc := 8 })] } : State).hrtUp (0 / 8) = true
    ∧ (({ upCtx with cores := [(0, { Core.reset with run := .running, pc := 8 })] } : State).core 0).run = .running
    ∧ (({ upCtx with cores := [(0, { Core.reset with run := .running, pc := 8 })] } : State).core 0).pc.toNat % 16 ≠ 0 := by
  decide +kernel

/-! Witnesses: engines. -/

/-- A context with EXPERT over cord 0. -/
def ctxX : Ctx := { ctx0 with block := setFld blk0 3 1 8 }

/-- The same with a sequence table at 0x10000 of stack 0. -/
def ctxXk : Ctx := { ctx0 with block := setFld (setFld blk0 3 1 8) 28 6 0x10000 }

/-- A descriptor: engine, OP, CCLS with flags, no wait, no signal, and its other fields by offset and width. -/
def desc (eng op ccls : Nat) (fs : List (Nat × Nat × Nat)) : List Byte :=
  fs.foldl (fun d f => setFld d f.1 f.2.1 f.2.2)
    (leBytes 1 eng ++ leBytes 1 op ++ leBytes 1 ccls ++ zeros 5 ++ leBytes 4 0xFFFFFFFF ++ zeros 52)

/-- Context `c` live, the descriptor `d` with `k` credits alone in the window of engine `u`. -/
def onEng (c : Ctx) (u : Nat) (d : List Byte) (k : Nat) : State :=
  { up with ctxs := [(0, some c)], engines := [(u, { Engine.empty with win := [entry0 d k] })] }

/-- That descriptor running. -/
def runEng (c : Ctx) (u : Nat) (d : List Byte) (k : Nat) (p : Progress) : State :=
  { up with ctxs := [(0, some c)],
            engines := [(u, { Engine.empty with win := [{ entry0 d k with started := true, prog := p }] })] }

theorem ready_of (s : State) (u eng op : Nat) (x : EngUnit) (c : Ctx) (e : Entry)
    (h : s.unit u = some x ∧ x.eng = eng ∧ (s.engine u).head = some (0, e) ∧ hOp e.desc = op ∧ s.ctx? e.ctx = some c
      ∧ s.blockFail u e = none ∧ headerOk c e.hearth e.desc = true
      ∧ s.waitOk c e.hearth (hWait e.desc) (hCount e.desc) (hEpoch e.desc) = true ∧ s.need c e ≤ e.credits
      ∧ e.prog.served = true) : Ready s u eng op x c 0 e :=
  ⟨h.1, h.2.1, h.2.2.1, h.2.2.2.1, h.2.2.2.2.1, .inr rfl, h.2.2.2.2.2.1, h.2.2.2.2.2.2.1, h.2.2.2.2.2.2.2.1, h.2.2.2.2.2.2.2.2.1,
    .inl h.2.2.2.2.2.2.2.2.2⟩

theorem running_of (s : State) (u eng : Nat) (x : EngUnit) (c : Ctx) (e : Entry)
    (h : s.unit u = some x ∧ x.eng = eng ∧ (s.engine u).running = some (0, e) ∧ s.ctx? e.ctx = some c) :
    Running s u eng x c 0 e := ⟨h.1, h.2.1, h.2.2.1, h.2.2.2⟩

/-- The engine units of hearth 0, by their place among its pages, and its die's first DMA engine. -/
def unitOf (q : Nat) : Nat := hearthPage 0 q
def dma0 : Nat := diePage 0 1
def engU (eng : Nat) : EngUnit := { die := 0, g := 0, eng := eng, inst := 0 }

/-- `s` with store `st` of hearth 0 at class `cls`, holding the tiles `t`. -/
def withStore (s : State) (st cls : Nat) (t : SMap Tile) : State :=
  { s with stores := [(st, { Store.empty with cls := some cls, tiles := t })] }

/-- A live tile of a class, all zero. -/
def tile0 (cls : Nat) : Tile := { cls := cls, handle := BitVec.ofNat 24 (cls * 256), drained := false, elems := [] }

/-! The array engines. -/

/-- FTA: KLEN 64, one row, one tile of shape 2 (32 × 32), no outliers; W16 destination, or the handle of tile 0 under DACC. -/
def ftaD (op : Nat) (dacc accin : Bool) : List Byte :=
  desc 1 op 5 [(22, 6, 0x2000), (28, 6, 2 ^ 48 - 1), (40, 3, 2 ^ 24 - 1), (43, 3, if dacc then 0x200 else 0), (46, 3, 64), (49, 1, 1),
    (50, 2, 1), (58, 2, 0x800 + (if dacc then 0x1000 else 0) + (if accin then 0x200 else 0)), (60, 1, if dacc then 0x20 else 1)]

def ftaS (op : Nat) (dacc accin : Bool) : State :=
  withStore (onEng ctxX (unitOf 1) (ftaD op dacc accin) 8) 0 2 (if accin then [(128, tile0 2)] else [])

theorem test_meets_FtaStarts : ∀ op ∈ [1, 2], ∀ p ∈ [(false, false), (true, true), (true, false)],
    Ready (ftaS op p.1 p.2) (unitOf 1) 1 op (engU 1) ctxX 0 (entry0 (ftaD op p.1 p.2) 8)
    ∧ (begun (ftaS op p.1 p.2) (unitOf 1) 0 (engU 1) (entry0 (ftaD op p.1 p.2) 8)).ftaBody (engU 1) (ftaD op p.1 p.2) = true
    ∧ (begun (ftaS op p.1 p.2) (unitOf 1) 0 (engU 1) (entry0 (ftaD op p.1 p.2) 8)).classForeign (engU 1)
        (live (ftaS op p.1 p.2) (entry0 (ftaD op p.1 p.2) 8)) = false
    ∧ (begun (ftaS op p.1 p.2) (unitOf 1) 0 (engU 1) (entry0 (ftaD op p.1 p.2) 8)).classReady (engU 1)
        (live (ftaS op p.1 p.2) (entry0 (ftaD op p.1 p.2) 8)) = true
    ∧ ftaDacc (ftaD op p.1 p.2) = p.1 ∧ ftaAccin (ftaD op p.1 p.2) = p.2
    ∧ (begun (ftaS op p.1 p.2) (unitOf 1) 0 (engU 1) (entry0 (ftaD op p.1 p.2) 8)).handleLive 0 (ftaHandle (ftaD op true true)) = p.2
    ∧ (begun (ftaS op p.1 p.2) (unitOf 1) 0 (engU 1) (entry0 (ftaD op p.1 p.2) 8)).handleFree 0 (ftaHandle (ftaD op true true)) = !p.2 := by
  intro op hop p hp
  fin_cases hop <;> fin_cases hp <;> exact ⟨ready_of _ _ _ _ _ _ _ (by decide +kernel), by decide +kernel⟩

/-- BWA: one tile of CLS 0, KLEN 1, W16 operands; W16 destination, or the handle of tile 0 under DACC. -/
def bwaD (dacc accin : Bool) : List Byte :=
  desc 2 1 11 [(28, 3, if dacc then 0x202000 else 0), (40, 3, 1), (43, 1, 0x11), (44, 2, 1), (46, 2, 1), (48, 2, 1), (50, 2, 1),
    (54, 2, (if dacc then 0x2000 else 0) + (if accin then 0x1000 else 0))]

def bwaS (dacc accin : Bool) : State :=
  withStore (onEng ctxX (unitOf 2) (bwaD dacc accin) 11) 1 0x20 (if accin then [(2048, tile0 0x20)] else [])

theorem test_meets_BwaStarts : ∀ p ∈ [(false, false), (true, true), (true, false)],
    Ready (bwaS p.1 p.2) (unitOf 2) 2 1 (engU 2) ctxX 0 (entry0 (bwaD p.1 p.2) 11)
    ∧ (begun (bwaS p.1 p.2) (unitOf 2) 0 (engU 2) (entry0 (bwaD p.1 p.2) 11)).bwaBody (engU 2) (bwaD p.1 p.2) = true
    ∧ (begun (bwaS p.1 p.2) (unitOf 2) 0 (engU 2) (entry0 (bwaD p.1 p.2) 11)).classForeign (engU 2)
        (live (bwaS p.1 p.2) (entry0 (bwaD p.1 p.2) 11)) = false
    ∧ (begun (bwaS p.1 p.2) (unitOf 2) 0 (engU 2) (entry0 (bwaD p.1 p.2) 11)).classReady (engU 2)
        (live (bwaS p.1 p.2) (entry0 (bwaD p.1 p.2) 11)) = true
    ∧ (begun (bwaS p.1 p.2) (unitOf 2) 0 (engU 2) (entry0 (bwaD p.1 p.2) 11)).bwaMask ctxX
        (live (bwaS p.1 p.2) (entry0 (bwaD p.1 p.2) 11)) = .ok []
    ∧ bwaDacc (bwaD p.1 p.2) = p.1 ∧ bwaAccin (bwaD p.1 p.2) = p.2
    ∧ (begun (bwaS p.1 p.2) (unitOf 2) 0 (engU 2) (entry0 (bwaD p.1 p.2) 11)).handleLive 0 (bwaHandle (bwaD true true)) = p.2
    ∧ (begun (bwaS p.1 p.2) (unitOf 2) 0 (engU 2) (entry0 (bwaD p.1 p.2) 11)).handleFree 0 (bwaHandle (bwaD true true)) = !p.2 := by
  intro p hp
  fin_cases hp <;> exact ⟨ready_of _ _ _ _ _ _ _ (by decide +kernel), by decide +kernel⟩

/-- The FTA descriptor running, its weight tile at 0 all present: 1 pass of each lane by its codes' width. -/
def ftaRun (dacc : Bool) (done : Nat) : State :=
  withStore { runEng ctxX (unitOf 1) (ftaD 1 dacc true) 9 { Progress.start with groups := List.replicate 64 done, held := [0, 7] } with
      mem := [(0, 0xFF), (1, 0xFF), (2, 0xFF), (3, 0xFF), (4, 0xFF), (5, 0xFF), (6, 0xFF), (7, 0xFF)] } 0 2 [(128, tile0 2)]

def ftaE (dacc : Bool) (done : Nat) : Entry :=
  { entry0 (ftaD 1 dacc true) 9 with
    started := true, prog := { Progress.start with groups := List.replicate 64 done, held := [0, 7] } }

/-- A group with lanes that may run, and one without a lane in the shape. -/
theorem test_meets_LaneGroupPass : Running (ftaRun false 0) (unitOf 1) 1 (engU 1) ctxX 0 (ftaE false 0)
    ∧ (∀ k ∈ [0, 7], k < 8 ∧ k ∈ (ftaE false 0).prog.held)
    ∧ ((ftaRun false 0).ftaFront ctxX (ftaE false 0) (ftaE false 0).prog.groups).err = none
    ∧ (∀ p ∈ [(0, true), (7, false)], decide (((List.range 8).map fun k => 8 * p.1 + k).filter (laneReady
        ((ftaRun false 0).ftaFront ctxX (ftaE false 0) (ftaE false 0).prog.groups).planes (ftaE false 0).prog.ragged
        (ftaKt (ftaE false 0).desc) (ftaE false 0).prog.tiles (ftaE false 0).prog.groups) ≠ []) = p.2) :=
  ⟨running_of _ _ _ _ _ _ (by decide +kernel), by decide +kernel⟩

theorem test_meets_Deposited (dacc : Bool) : Running (ftaRun dacc 1) (unitOf 1) 1 (engU 1) ctxX 0 (ftaE dacc 1)
    ∧ Deposited (ftaRun dacc 1) ctxX (ftaE dacc 1) ∧ ((ftaRun dacc 1).store 0 0).inForce (ftaClass (ftaE dacc 1).desc) = true
    ∧ (∃ t, (ftaRun dacc 1).ftaTile ctxX (ftaE dacc 1) (ftaE dacc 1).prog.tiles = .ok t)
    ∧ ftaDacc (ftaE dacc 1).desc = dacc := by
  cases dacc <;>
    exact ⟨running_of _ _ _ _ _ _ (by decide +kernel), ⟨by decide +kernel, by decide +kernel⟩, by decide +kernel, ok_ex (by decide +kernel),
      by decide +kernel⟩

theorem test_meets_OutputTileDrain_handle :
    ((ftaRun true 1).store 0 0).tile? (ftaHandle (ftaE true 1).desc).cls ((ftaHandle (ftaE true 1).desc).base + 0) = some (tile0 2) := by
  decide +kernel

/-- A descriptor reaches the whole memory of its own hearth, off every ring in host memory. -/
theorem hearth_plain (s : State) (e : up.placeUp (.hearth 0) = s.placeUp (.hearth 0))
    (h : s.small = up.small ∧ s.ownBad = [] ∧ s.ue = []) : Plain s (.desc ctxX) 0x080000000000 0x080000600000 := by
  have hk : bit (blkCords ctxX.block) (0 / 144) = true := by decide +kernel
  have hd : s.hasDie 0 = up.hasDie 0 := by unfold State.hasDie; rw [h.1]
  exact plain_hearth s _ (fun _ => hk) ⟨hd.trans (by decide +kernel), e ▸ (by decide +kernel), h.2.1, h.2.2⟩

theorem test_meets_OutputTileDrain_write : ((ftaRun false 1).store 0 0).hasSlot 0 (ftaClass (ftaE false 1).desc) = true
    ∧ ∀ r < ftaMrows (ftaE false 1).desc, Open (ftaRun false 1) (.desc ctxX) (ftaRowAt (ftaE false 1) 0 r).1 (ftaRowAt (ftaE false 1) 0 r).2
      ∧ OffRing (ftaRun false 1) (.desc ctxX) ((ftaRun false 1).queue 0) (ftaRowAt (ftaE false 1) 0 r) := by
  have hp := hearth_plain (ftaRun false 1) rfl ⟨rfl, rfl, rfl⟩
  have : ∀ r < ftaMrows (ftaE false 1).desc, 0x080000000000 ≤ (ftaRowAt (ftaE false 1) 0 r).1
    ∧ (ftaRowAt (ftaE false 1) 0 r).1 + (ftaRowAt (ftaE false 1) 0 r).2 ≤ 0x080000600000 := by decide +kernel
  exact ⟨by decide +kernel, fun r hr => ⟨hp.reach (this r hr), hp.off ringOff_none (this r hr)⟩⟩

/-- The BWA descriptor running, each row group's pass done or still to do. -/
def bwaRun (dacc : Bool) (done : Nat) : State :=
  withStore (runEng ctxX (unitOf 2) (bwaD dacc true) 11 { Progress.start with groups := List.replicate 4 done, held := [3] }) 1 0x20
    (if dacc then [(2048, tile0 0x20)] else [])

def bwaE (dacc : Bool) (done : Nat) : Entry :=
  { entry0 (bwaD dacc true) 11 with
    started := true, prog := { Progress.start with groups := List.replicate 4 done, held := [3] } }

/-- A row group with its tile to pass, and one that has passed it. -/
theorem test_meets_RowGroupPass : Running (bwaRun false 0) (unitOf 2) 2 (engU 2) ctxX 0 (bwaE false 0) ∧ 3 ∈ (bwaE false 0).prog.held
    ∧ (bwaRun false 0).bwaMask ctxX (bwaE false 0) = .ok [] ∧ (bwaRun false 0).bwaGo (engU 2) (bwaE false 0) [] (List.replicate 4 0) 3 = some 0
    ∧ ∃ ts, (bwaRun false 0).bwaTerms ctxX (bwaE false 0) [] 0 [3] = .ok ts :=
  ⟨running_of _ _ _ _ _ _ (by decide +kernel), by decide +kernel, by decide +kernel, by decide +kernel, ok_ex (by decide +kernel)⟩

theorem test_meets_RowGroupPass_none : Running (bwaRun false 1) (unitOf 2) 2 (engU 2) ctxX 0 (bwaE false 1)
    ∧ (bwaRun false 1).bwaGo (engU 2) (bwaE false 1) [] (bwaE false 1).prog.groups 3 = none :=
  ⟨running_of _ _ _ _ _ _ (by decide +kernel), by decide +kernel⟩

theorem test_meets_BwaTileRetire (dacc : Bool) : Running (bwaRun dacc 1) (unitOf 2) 2 (engU 2) ctxX 0 (bwaE dacc 1)
    ∧ (bwaRun dacc 1).bwaMask ctxX (bwaE dacc 1) = .ok []
    ∧ (bwaE dacc 1).prog.tiles < curTile (bwaActive (bwaE dacc 1).desc []) (bwaTiles (bwaE dacc 1).desc) 0 (bwaE dacc 1).prog.groups
    ∧ ((bwaRun dacc 1).store 0 1).inForce (bwaClass (bwaE dacc 1).desc) = true ∧ bwaDacc (bwaE dacc 1).desc = dacc
    ∧ ∃ ts, (bwaRun dacc 1).bwaTerms ctxX (bwaE dacc 1) [] 0 [0, 1, 2, 3] = .ok ts := by
  cases dacc <;>
    exact ⟨running_of _ _ _ _ _ _ (by decide +kernel), by decide +kernel, by decide +kernel, by decide +kernel, by decide +kernel,
      ok_ex (by decide +kernel)⟩

theorem test_meets_BwaTileRetire_write : ∀ r < 32, Open (bwaRun false 1) (.desc ctxX) (bwaRowAt (bwaE false 1) 0 r).1
    (bwaRowAt (bwaE false 1) 0 r).2 ∧ OffRing (bwaRun false 1) (.desc ctxX) ((bwaRun false 1).queue 0) (bwaRowAt (bwaE false 1) 0 r) := by
  have hp := hearth_plain (bwaRun false 1) rfl ⟨rfl, rfl, rfl⟩
  have : ∀ r < 32, 0x080000000000 ≤ (bwaRowAt (bwaE false 1) 0 r).1
    ∧ (bwaRowAt (bwaE false 1) 0 r).1 + (bwaRowAt (bwaE false 1) 0 r).2 ≤ 0x080000600000 := by decide +kernel
  exact fun r hr => ⟨hp.reach (this r hr), hp.off ringOff_none (this r hr)⟩

/-- The tile masked away as a whole: MMODE 1 over a mask of 32 set bits at offset 0x100 of the hearth's memory. -/
def bwaMD : List Byte := setFld (setFld (bwaD false false) 54 2 0x100) 37 3 0x100

def bwaMS : State :=
  withStore { runEng ctxX (unitOf 2) bwaMD 11 { Progress.start with groups := List.replicate 4 0 } with
      mem := [(0x080000000100, 0xFF), (0x080000000101, 0xFF), (0x080000000102, 0xFF), (0x080000000103, 0xFF)] } 1 0x20 []

def bwaME : Entry := { entry0 bwaMD 11 with started := true, prog := { Progress.start with groups := List.replicate 4 0 } }

theorem test_meets_BwaTileRetire_masked : Running bwaMS (unitOf 2) 2 (engU 2) ctxX 0 bwaME
    ∧ bwaMS.bwaMask ctxX bwaME = .ok [0xFF, 0xFF, 0xFF, 0xFF] ∧ bwaDacc bwaMD = false
    ∧ bwaME.prog.tiles < curTile (bwaActive bwaMD [0xFF, 0xFF, 0xFF, 0xFF]) (bwaTiles bwaMD) 0 bwaME.prog.groups
    ∧ (bwaMS.store 0 1).inForce (bwaClass bwaMD) = true ∧ bwaTileMasked bwaMD [0xFF, 0xFF, 0xFF, 0xFF] 0 = true
    ∧ ∃ ts, bwaMS.bwaTerms ctxX bwaME [0xFF, 0xFF, 0xFF, 0xFF] 0 [0, 1, 2, 3] = .ok ts :=
  ⟨running_of _ _ _ _ _ _ (by decide +kernel), by decide +kernel, by decide +kernel, by decide +kernel, by decide +kernel,
    by decide +kernel, ok_ex (by decide +kernel)⟩

/-- A store without a class, and one whose live tile no eviction may move. -/
def classS (t : SMap Tile) : State :=
  { withStore (onEng ctxX (unitOf 1) (ftaD 1 false false) 8) 0 0 t with
    pages := [(unitOf 12, { Page.reset with cfg := [(0x100, 0x4A)] })] }

theorem test_meets_StoreTakesClass : ∀ t ∈ [([] : SMap Tile), [(0, tile0 0)]],
    (classS t).unit (unitOf 1) = some (engU 1) ∧ ((classS t).engine (unitOf 1)).head = some (0, entry0 (ftaD 1 false false) 8)
    ∧ (classS t).ctx? 0 = some ctxX ∧ (classS t).blockFail (unitOf 1) (entry0 (ftaD 1 false false) 8) = none
    ∧ headerOk ctxX 0 (ftaD 1 false false) = true
    ∧ (classS t).waitOk ctxX 0 (hWait (ftaD 1 false false)) (hCount (ftaD 1 false false)) (hEpoch (ftaD 1 false false)) = true
    ∧ (classS t).need ctxX (entry0 (ftaD 1 false false) 8) ≤ 8 ∧ (classS t).classReady (engU 1) (entry0 (ftaD 1 false false) 8) = false
    ∧ (classS t).storeBusy (unitOf 1) (engU 1) (entry0 (ftaD 1 false false) 8) = false
    ∧ (classS t).classNeed (engU 1) (entry0 (ftaD 1 false false) 8) = some (0, 2)
    ∧ ((classS t).store 0 0).tiles = t ∧ (∀ p ∈ ((classS t).store 0 0).tiles, p.2.drained = false)
    ∧ ((classS t).xreDrain 0) / 2 ^ 31 % 2 = 0 ∧ ((classS t).store 0 0).split = (classS t).splitCfg 0 0 := by decide +kernel

/-! Conversions and rows. -/

/-- A CVE descriptor: SFMT, DFMT, LEN 32, one row, EXPERT, the tracker line at 0x4000. -/
def cveD (op sf df : Nat) (fs : List (Nat × Nat × Nat)) : List Byte :=
  desc 3 op 0x12 ([(22, 6, 0x2000), (28, 6, 0x4000), (34, 6, 0x6000), (40, 1, sf), (41, 1, df), (42, 3, 32), (51, 2, 1)] ++ fs)

/-- With a valid tracker line, and a live tile of class 0x20 in store 1. -/
def cveS (d : List Byte) : State :=
  withStore { onEng ctxX (unitOf 6) d 2 with mem := [(0x4027, 1)] } 1 0x20 [(2048, tile0 0x20)]

theorem test_meets_Conversions : ∀ d ∈ [cveD 1 1 0x11 [(53, 2, 1)], cveD 2 1 0x11 [(53, 2, 1)],
      cveD 2 0x22 0x11 [(53, 2, 1), (16, 6, 0x202000)], cveD 3 0x10 1 [(53, 2, 0)], cveD 4 1 2 [], cveD 5 1 3 []],
    Ready (cveS d) (unitOf 6) 3 (hOp d) (engU 3) ctxX 0 (entry0 d 2)
    ∧ (begun (cveS d) (unitOf 6) 0 (engU 3) (entry0 d 2)).cveBody (unitOf 6) (engU 3) (live (cveS d) (entry0 d 2)) = none := by
  intro d hd
  fin_cases hd <;> exact ⟨ready_of _ _ _ _ _ _ _ (by decide +kernel), by decide +kernel⟩

/-- The tracker line that TRACK and W12C read, and the deposited handle of an accumulator source. -/
theorem test_meets_Trackers : (∃ b, (begun (cveS (cveD 5 1 3 [])) (unitOf 6) 0 (engU 3) (entry0 (cveD 5 1 3 []) 2)).read (.desc ctxX)
      (cveMetaF (cveD 5 1 3 [])) 64 = .ok b ∧ fld b 39 1 % 2 = 1)
    ∧ isAcc (cveSfmt (cveD 2 0x22 0x11 [])) = true
    ∧ (cveS (cveD 2 0x22 0x11 [(16, 6, 0x202000)])).deposited 0 (cveHandle (cveD 2 0x22 0x11 [(16, 6, 0x202000)])) = true := by
  refine ⟨⟨zeros 39 ++ [1] ++ zeros 24, by decide +kernel, by decide +kernel⟩, by decide +kernel, by decide +kernel⟩

/-- A ROW descriptor of one row of 4 elements, W16 throughout, PARAM 1. -/
def rowD (op : Nat) (fs : List (Nat × Nat × Nat)) : List Byte :=
  desc 4 op 2 ([(34, 3, 4), (37, 2, 1), (40, 1, 1), (42, 1, 1), (45, 2, 0x4000), (22, 3, 0x100), (25, 3, 0x200)] ++ fs)

/-- ACT and ACTB of FN 1, the others of FN 0; XENT with BWD. -/
def rowOp (op : Nat) : List Byte :=
  match op with
  | 1 => rowD 1 [(39, 1, 1)]
  | 2 => rowD 2 [(39, 1, 1), (41, 1, 1)]
  | 4 => rowD 4 [(41, 1, 1)]
  | 6 => rowD 6 [(41, 1, 1)]
  | 7 => setFld (rowD 7 []) 2 1 0x42
  | 8 => rowD 8 [(41, 1, 1)]
  | _ => rowD op []

theorem test_meets_Rows : ∀ op ∈ [1, 2, 3, 4, 5, 6, 7, 8],
    Ready (onEng ctxX (unitOf 8) (rowOp op) 2) (unitOf 8) 4 op (engU 4) ctxX 0 (entry0 (rowOp op) 2) ∧ rowBody (rowOp op) = true := by
  intro op hop
  fin_cases hop <;> exact ⟨ready_of _ _ _ _ _ _ _ (by decide +kernel), by decide +kernel⟩

/-- EMUL of rows with a NaR at element 2 and at element 1: they are read, and the row runs and is written. -/
def emulS : State :=
  { onEng ctxX (unitOf 8) (rowOp 8) 2 with mem := [(1, 0x3C), (3, 0x3C), (5, 0x80), (0x080000000103, 0x80), (0x080000000105, 0x3C), (0x080000000107, 0x3C)] }

theorem test_meets_Emul : (∃ a b, emulS.rowSrc ctxX (entry0 (rowOp 8) 2) 0 = .ok a ∧ emulS.rowSrc2 ctxX (entry0 (rowOp 8) 2) 0 = .ok b
      ∧ a.map Option.isSome = [true, true, false, true] ∧ b.map Option.isSome = [true, false, true, true])
    ∧ ∃ q, emulS.emulRow ctxX (entry0 (rowOp 8) 2) (rowW emulS ctxX (entry0 (rowOp 8) 2)) 0 = .ok q := by
  refine ⟨?_, ok_ex (by decide +kernel)⟩
  have h : (match emulS.rowSrc ctxX (entry0 (rowOp 8) 2) 0, emulS.rowSrc2 ctxX (entry0 (rowOp 8) 2) 0 with
    | .ok a, .ok b => decide (a.map Option.isSome = [true, true, false, true] ∧ b.map Option.isSome = [true, false, true, true])
    | _, _ => false) = true := by decide +kernel
  split at h
  · rename_i a b ha hb
    exact ⟨a, b, ha, hb, of_decide_eq_true h⟩
  · simp at h

theorem test_meets_RowWrites : ∃ q t, emulS.emulRow ctxX (entry0 (rowOp 8) 2) (rowW emulS ctxX (entry0 (rowOp 8) 2)) 0 = .ok q
    ∧ q.more = [] ∧ emulS.putW ctxX (rowO (rowOp 8)) ((entry0 (rowOp 8) 2).base + fld (rowOp 8) 25 3) (0 * rowLenp (rowOp 8))
        (q.out.map fun z => z.code) = .ok t := by
  have h : (match emulS.emulRow ctxX (entry0 (rowOp 8) 2) (rowW emulS ctxX (entry0 (rowOp 8) 2)) 0 with
    | .ok q => decide (q.more = []) && (emulS.putW ctxX (rowO (rowOp 8)) ((entry0 (rowOp 8) 2).base + fld (rowOp 8) 25 3)
        (0 * rowLenp (rowOp 8)) (q.out.map fun z => z.code)).toBool
    | .error _ => false) = true := by decide +kernel
  split at h
  · rename_i q hq
    rw [Bool.and_eq_true] at h
    obtain ⟨t, ht⟩ := ok_ex h.2
    exact ⟨q, t, hq, of_decide_eq_true h.1, ht⟩
  · simp at h

/-! Random words. -/

/-- RNG: 3 elements; SMP: one row of 4. -/
def rngD (op : Nat) : List Byte := desc 5 op 2 [(28, 4, 3)]
def smpD : List Byte := desc 6 1 2 [(28, 3, 4), (31, 2, 1), (33, 1, 1), (34, 2, 0x3C00)]

theorem test_meets_Random : (∀ op ∈ [1, 2], Ready (onEng ctxX (unitOf 9) (rngD op) 2) (unitOf 9) 5 op (engU 5) ctxX 0 (entry0 (rngD op) 2)
      ∧ rngBody ctxX (rngD op) = true)
    ∧ Ready (onEng ctxX (unitOf 10) smpD 2) (unitOf 10) 6 1 (engU 6) ctxX 0 (entry0 smpD 2) ∧ smpBody smpD = true := by
  refine ⟨?_, ready_of _ _ _ _ _ _ _ (by decide +kernel), by decide +kernel⟩
  intro op hop
  fin_cases hop <;> exact ⟨ready_of _ _ _ _ _ _ _ (by decide +kernel), by decide +kernel⟩

/-- The sampler's descriptor before its words are served. -/
def unserved : Entry := { entry0 smpD 2 with prog := Progress.start }

def unservedS : State := { up with ctxs := [(0, some ctxX)], engines := [(unitOf 10, { Engine.empty with win := [unserved] })] }

theorem test_meets_WordRequest : unservedS.unit (unitOf 10) = some (engU 6) ∧ (unservedS.engine (unitOf 10)).head = some (0, unserved)
    ∧ unservedS.ctx? unserved.ctx = some ctxX ∧ unserved.prog.served = false ∧ headerOk ctxX unserved.hearth unserved.desc = true
    ∧ unservedS.need ctxX unserved ≤ unserved.credits
    ∧ unservedS.wordsAsked (unitOf 10) (engU 6) ctxX { unserved with startBeat := unservedS.ctxBeat unserved.ctx } ≠ []
    ∧ unservedS.waitOk ctxX unserved.hearth (hWait unserved.desc) (hCount unserved.desc) (hEpoch unserved.desc) = true := by
  decide +kernel

theorem test_meets_IndexedWords : ctxX.lane = false
    ∧ unserved.startBeat.step = { unserved with started := true }.startBeat.step := ⟨rfl, rfl⟩

/-! Witnesses: updates, copies, pages. -/

/-- The engine's context 0 in phase 0xFFFF of its step. -/
def atCommit (s : State) : State := { s with beat := { s.beat with slots := [(0, { step := 0, phase := 0xFFFF })] } }

/-- OPT of 4 elements, W16 gradients; its parameter block at 0x1000 of stack 0, all +0. -/
def optD : List Byte := desc 7 1 4 [(46, 4, 4), (55, 1, 0x10)]

theorem test_meets_Opt : Ready (atCommit (onEng ctxX (unitOf 11) optD 4)) (unitOf 11) 7 1 (engU 7) ctxX 0 (entry0 optD 4)
    ∧ optBody (live (atCommit (onEng ctxX (unitOf 11) optD 4)) (entry0 optD 4)) = none
    ∧ (begun (atCommit (onEng ctxX (unitOf 11) optD 4)) (unitOf 11) 0 (engU 7) (entry0 optD 4)).read (.desc ctxX) (updP optD) 64
        = .ok (zeros 64)
    ∧ (∃ o, OptParams.of? (zeros 64) = some o)
    ∧ ∃ m, (begun (atCommit (onEng ctxX (unitOf 11) optD 4)) (unitOf 11) 0 (engU 7) (entry0 optD 4)).read (.desc ctxX)
        ((entry0 optD 4).base + updMask optD) ((updMaskBits optD + 7) / 8) = .ok m :=
  ⟨ready_of _ _ _ _ _ _ _ (by decide +kernel), by decide +kernel, by decide +kernel, some_ex (by decide +kernel),
    ok_ex (by decide +kernel)⟩

/-- TIESUM of one slot of 4 elements. -/
def tieD : List Byte := desc 7 2 2 [(46, 4, 4), (55, 1, 0x11)]

theorem test_meets_Tiesum : Ready (onEng ctxX (unitOf 11) tieD 2) (unitOf 11) 7 2 (engU 7) ctxX 0 (entry0 tieD 2)
    ∧ tieBody (live (onEng ctxX (unitOf 11) tieD 2) (entry0 tieD 2)) = none
    ∧ ∃ l, (begun (onEng ctxX (unitOf 11) tieD 2) (unitOf 11) 0 (engU 7) (entry0 tieD 2)).tieSlots ctxX tieD = .ok l :=
  ⟨ready_of _ _ _ _ _ _ _ (by decide +kernel), by decide +kernel, ok_ex (by decide +kernel)⟩

/-- COPY of one row of 64 bytes; STREAM of 2 chunks of 64 bytes through a ring of one, ASYNC and CSYNC local objects. -/
def cpyD : List Byte := desc 8 1 1 [(22, 6, 0x1000), (28, 4, 64), (32, 2, 1)]
def strD : List Byte := desc 8 2 0x11 [(22, 6, 0x1000), (28, 4, 64), (32, 4, 2), (36, 1, 1), (38, 2, 0x8000), (40, 2, 0x8001)]

theorem test_meets_Copy : Ready (onEng ctxX dma0 cpyD 1) dma0 8 1 (engU 8) ctxX 0 (entry0 cpyD 1) ∧ cpyBody cpyD = true :=
  ⟨ready_of _ _ _ _ _ _ _ (by decide +kernel), by decide +kernel⟩

theorem test_meets_Stream : Ready (onEng ctxX dma0 strD 1) dma0 8 2 (engU 8) ctxX 0 (entry0 strD 1)
    ∧ strBody ctxX (live (onEng ctxX dma0 strD 1) (entry0 strD 1)) = true :=
  ⟨ready_of _ _ _ _ _ _ _ (by decide +kernel), by decide +kernel⟩

/-- Its chunk `k`, with room in the ring by what CSYNC counts. -/
def strP (k : Nat) : Progress := { Progress.start with tiles := k, pos := 1 }
def strS (k : Nat) : State := { runEng ctxX dma0 strD 1 (strP k) with lsync := [(1, { count := 1, epoch := 0 })] }
def strE (k : Nat) : Entry := { entry0 strD 1 with started := true, prog := strP k }

theorem test_meets_StreamChunk : ∀ k ∈ [0, 1], Running (strS k) dma0 8 (engU 8) ctxX 0 (strE k) ∧ hOp strD = 2
    ∧ ((strS k).syncObj (syncRef ctxX 0 (strCsync strD))).epoch = (strE k).prog.e0
    ∧ k < min (strN strD) (strDist strD + (((strS k).syncObj (syncRef ctxX 0 (strCsync strD))).count - (strE k).prog.c0).toNat % 2 ^ 24)
    ∧ (strS k).read (.desc ctxX) (fld strD 16 6 + k * strChunk strD) (strChunk strD) = .ok (zeros 64)
    ∧ ∃ w, (strS k).write (.desc ctxX) (fld strD 22 6 + k % strDist strD * strChunk strD) (zeros 64) = .ok w := by
  intro k hk
  fin_cases hk <;>
    exact ⟨running_of _ _ _ _ _ _ (by decide +kernel), by decide +kernel, by decide +kernel, by decide +kernel, by decide +kernel,
      ok_ex (by decide +kernel)⟩

/-- KVREAD and KVWRITE of one work entry, one position, on the table at 0x10000. -/
def kvD (op : Nat) : List Byte := desc 8 op 1 [(16, 3, 0x100), (19, 3, 0x1000), (22, 6, 0x10000), (28, 2, 1), (35, 2, 1)]

def kvS (mode : Nat) (s : State) : State := { s with mem := kvMem mode }

theorem test_meets_Kv : ∀ op ∈ [0x10, 0x11], Ready (kvS 0 (onEng ctxX dma0 (kvD op) 1)) dma0 8 op (engU 8) ctxX 0 (entry0 (kvD op) 1)
    ∧ (begun (kvS 0 (onEng ctxX dma0 (kvD op) 1)) dma0 0 (engU 8) (entry0 (kvD op) 1)).kvTable ctxX
        (live (kvS 0 (onEng ctxX dma0 (kvD op) 1)) (entry0 (kvD op) 1)) = .ok (kvHead 0)
    ∧ (kvS 0 (onEng ctxX dma0 (kvD op) 1)).kvReadOn dma0 = none := by
  intro op hop
  fin_cases hop <;> exact ⟨ready_of _ _ _ _ _ _ _ (by decide +kernel), by decide +kernel⟩

/-- A page request of slot 1 by a running KVWRITE; the first line of the table uncorrectable in the second. -/
def pageS (copy : Bool) (ue : List Nat) : State :=
  { runEng ctxX dma0 (kvD 0x11) 1 Progress.start with
    mem := SMap.putBytes (kvMem 1) 0x20020 (leBytes 8 (2 ^ 22))
    ue := ue
    pageReqs := [{ u := dma0, desc := 0x1000, ctx := 0, seq := 1, lh := 0, pos := 0, copy := copy }] }

def pageE : Entry := { entry0 (kvD 0x11) 1 with started := true, prog := Progress.start }

/-- The request of a page state. -/
def pageR (copy : Bool) : PageReq := { u := dma0, desc := 0x1000, ctx := 0, seq := 1, lh := 0, pos := 0, copy := copy }

/-- The state once the request is taken. -/
def pageT (copy : Bool) (ue : List Nat) : State := { pageS copy ue with pageReqs := [] }

/-- An answer that fails with MEM_UE at the table's line. -/
def ueAtTable (x : Except Fail State) : Bool :=
  match x with
  | .error f => decide (f = { code := eMemUe, addr := 0x10000 })
  | .ok _ => false

theorem ueAtTable_eq {x : Except Fail State} (h : ueAtTable x = true) : x = .error { code := eMemUe, addr := 0x10000 } := by
  unfold ueAtTable at h
  split at h
  · rw [of_decide_eq_true h]
  · simp at h

theorem test_meets_PageService : ∀ copy ∈ [true, false], (∃ t,
    (pageS copy []).pageHead = some (pageR copy, 0, pageE, engU 8, ctxX)
    ∧ pageT copy [] = { pageS copy [] with pageReqs := (pageS copy []).pageReqs.drop 1 }
    ∧ (pageT copy []).pageAnswer ctxX (engU 8) (pageR copy) 0 pageE = .ok t)
    ∧ (pageS copy [0x10000]).pageHead = some (pageR copy, 0, pageE, engU 8, ctxX)
    ∧ (pageT copy [0x10000]).pageAnswer ctxX (engU 8) (pageR copy) 0 pageE = .error { code := eMemUe, addr := 0x10000 } := by
  intro copy hc
  have hf : ∀ b, (pageT b []).pageAnswer ctxX (engU 8) (pageR b) 0 pageE |>.toBool := by decide +kernel
  obtain ⟨t, ht⟩ := ok_ex (hf copy)
  refine ⟨⟨t, ?_, rfl, ht⟩, ?_, ueAtTable_eq ?_⟩ <;> fin_cases hc <;> decide +kernel

/-- The list of slot 1 was last refreshed 2^22 returned pages ago. -/
def staleS : State := { pageS false [] with ctxs := [(0, some ctxXk)] }

theorem test_meets_ListRefresh : staleS.ctx? 0 = some ctxXk ∧ staleS.ctxSeqt ctxXk = some (kvHead 1)
    ∧ staleS.refreshDue ctxXk (kvHead 1) 1 = true ∧ 1 < (kvHead 1).nseqt ∧ ∃ r, staleS.refreshList ctxXk (kvHead 1) 1 = .ok r :=
  ⟨by decide +kernel, by decide +kernel, by decide +kernel, by decide +kernel, ok_ex (by decide +kernel)⟩

/-! The exchange engine. -/

/-- A XRE descriptor on the handle of tile 0 of store 0, class 2. -/
def xreD (op : Nat) (fs : List (Nat × Nat × Nat)) : List Byte := desc 9 op 3 ([(16, 3, 0x200)] ++ fs)

/-- With that tile live, or free. -/
def xreS (d : List Byte) (full : Bool) : State := withStore (onEng ctxX (unitOf 12) d 3) 0 2 (if full then [(128, tile0 2)] else [])

/-- The state of its start. -/
def xreB (d : List Byte) (full : Bool) : State := begun (xreS d full) (unitOf 12) 0 (engU 9) (entry0 d 3)

theorem test_meets_Add : ∀ zero ∈ [true, false],
    Ready (xreS (xreD 1 [(54, 1, 1), (52, 2, if zero then 0x4000 else 0)]) (!zero)) (unitOf 12) 9 1 (engU 9) ctxX 0
      (entry0 (xreD 1 [(54, 1, 1), (52, 2, if zero then 0x4000 else 0)]) 3)
    ∧ xreForm (xreD 1 [(54, 1, 1), (52, 2, if zero then 0x4000 else 0)]) = true
    ∧ xreNsrc (xreD 1 [(54, 1, 1), (52, 2, if zero then 0x4000 else 0)]) = 1
    ∧ xreZero (xreD 1 [(54, 1, 1), (52, 2, if zero then 0x4000 else 0)]) = zero
    ∧ (xreB (xreD 1 [(54, 1, 1), (52, 2, if zero then 0x4000 else 0)]) (!zero)).handleOk 0 (xreHandle (xreD 1 [])) = true
    ∧ (xreB (xreD 1 [(54, 1, 1), (52, 2, if zero then 0x4000 else 0)]) (!zero)).classForeign (engU 9)
        (live (xreS (xreD 1 [(54, 1, 1), (52, 2, if zero then 0x4000 else 0)]) (!zero))
          (entry0 (xreD 1 [(54, 1, 1), (52, 2, if zero then 0x4000 else 0)]) 3)) = false
    ∧ (xreB (xreD 1 [(54, 1, 1), (52, 2, if zero then 0x4000 else 0)]) (!zero)).classReady (engU 9)
        (live (xreS (xreD 1 [(54, 1, 1), (52, 2, if zero then 0x4000 else 0)]) (!zero))
          (entry0 (xreD 1 [(54, 1, 1), (52, 2, if zero then 0x4000 else 0)]) 3)) = true
    ∧ (xreB (xreD 1 [(54, 1, 1), (52, 2, if zero then 0x4000 else 0)]) (!zero)).handleFree 0 (xreHandle (xreD 1 [])) = zero
    ∧ (xreB (xreD 1 [(54, 1, 1), (52, 2, if zero then 0x4000 else 0)]) (!zero)).handleLive 0 (xreHandle (xreD 1 [])) = !zero
    ∧ (xreB (xreD 1 [(54, 1, 1), (52, 2, if zero then 0x4000 else 0)]) (!zero)).deposited 0 (xreHandle (xreD 1 [])) = true := by
  intro zero hz
  fin_cases hz <;> exact ⟨ready_of _ _ _ _ _ _ _ (by decide +kernel), by decide +kernel⟩

theorem test_meets_Consumers : ∀ d ∈ [xreD 6 [], xreD 2 [(26, 6, 0x1000), (52, 2, 0x8000)], xreD 3 [(19, 1, 1), (26, 6, 0x1000)]],
    Ready (xreS d true) (unitOf 12) 9 (hOp d) (engU 9) ctxX 0 (entry0 d 3) ∧ xreForm d = true
    ∧ (xreB d true).handleOk 0 (xreHandle d) = true ∧ (xreB d true).handleLive 0 (xreHandle d) = true
    ∧ (xreB d true).deposited 0 (xreHandle d) = true ∧ (xreB d true).handleElems ctxX 0 (xreHandle d) = .ok [[]] := by
  intro d hd
  fin_cases hd <;> exact ⟨ready_of _ _ _ _ _ _ _ (by decide +kernel), by decide +kernel⟩

theorem leBytes_length (n v : Nat) : (leBytes n v).length = n := by
  induction n generalizing v with
  | zero => rfl
  | succ k hk => rw [leBytes, List.length_cons, hk]

theorem tileLimbs_length (cls lo hi : Nat) (m : SMap Elem) : (tileLimbs cls lo hi m).length = clsElems cls * (8 * (hi + 1 - lo)) := by
  unfold tileLimbs
  rw [List.length_flatMap]
  simp only [leBytes_length, List.map_const', List.length_range, List.sum_replicate, smul_eq_mul]

theorem image_length : (handleImage 2 false [[]]).length = 8512 := by
  have h : (flagMap 2 []).length = 256 := by unfold flagMap; rw [leBytes_length]; decide
  simp only [handleImage, List.zipIdx, List.map_cons, List.map_nil, List.flatten_cons, List.flatten_nil, tileImage, List.length_append,
    leBytes_length, tileLimbs_length, h, zeros, List.length_replicate, List.length_nil]
  decide

/-- A descriptor of context ctxX reaches every byte of stack 0. -/
theorem stackX (s : State) (h : (0 < s.nCords ∧ s.placeUp (.stack 0) = true) ∧ s.ownBad = [] ∧ s.ue = []) :
    Plain s (.desc ctxX) 0 0x2000000000 := by
  have hk : bit (blkCords ctxX.block) 0 = true := by decide +kernel
  exact (plain_stack s (.desc ctxX) 0 (fun _ => hk) ⟨h.1.1, by decide, h.1.2, h.2⟩).mono (by decide)

/-- And of its hearth's memory. -/
theorem hearthX (s : State) (h : (s.hasDie 0 = true ∧ s.placeUp (.hearth 0) = true) ∧ s.ownBad = [] ∧ s.ue = []) :
    Plain s (.desc ctxX) 0x080000000000 0x080000600000 := by
  have hk : bit (blkCords ctxX.block) (0 / 144) = true := by decide +kernel
  exact plain_hearth s (.desc ctxX) (fun _ => hk) ⟨h.1.1, h.1.2, h.2⟩

theorem test_meets_Export : xreForm (xreD 2 [(26, 6, 0x1000), (52, 2, 0x8000)]) = true
    ∧ imageAt (xreDst (xreD 2 [(26, 6, 0x1000), (52, 2, 0x8000)])) = .ok ()
    ∧ ∃ w, (xreB (xreD 2 [(26, 6, 0x1000), (52, 2, 0x8000)]) true).write (.desc ctxX) 0x1000 (handleImage 2 false [[]]) = .ok w :=
  ⟨by decide +kernel, by decide +kernel, (stackX _ (by decide +kernel)).write (by rw [image_length]; decide)⟩

/-- RETIRE of the handle to W16 at 0x1000. -/
def retD : List Byte := xreD 3 [(19, 1, 1), (26, 6, 0x1000)]

theorem test_meets_Retire : (xreB retD true).retireBody (engU 9) (live (xreS retD true) (entry0 retD 3)) = none
    ∧ ∃ un w, (xreB retD true).retireUnits ctxX retD = .ok un
        ∧ (xreB retD true).retireRun ctxX (unitOf 12) (live (xreS retD true) (entry0 retD 3))
          ((live (xreS retD true) (entry0 retD 3)).words ctxX (xreStream retD)) [[]] un = (w, none) := by
  have h : (match (xreB retD true).retireUnits ctxX retD with
    | .ok un => decide (((xreB retD true).retireRun ctxX (unitOf 12) (live (xreS retD true) (entry0 retD 3))
        ((live (xreS retD true) (entry0 retD 3)).words ctxX (xreStream retD)) [[]] un).2 = none)
    | .error _ => false) = true := by decide +kernel
  refine ⟨by decide +kernel, ?_⟩
  split at h
  · rename_i un hu
    exact ⟨un, _, hu, Prod.ext rfl (of_decide_eq_true h)⟩
  · simp at h

/-- REDUCE of hearths 0 and 1. -/
def redD (n : Nat) : List Byte := xreD 4 [(46, 2, n), (48, 3, 0x1000), (51, 1, 5)]

theorem test_meets_Reduce : Ready (xreS (redD 2) true) (unitOf 12) 9 4 (engU 9) ctxX 0 (entry0 (redD 2) 3)
    ∧ redParts ctxX 0 (redD 2) = some [0, 1] ∧ xreForm (redD 2) = true ∧ (xreB (redD 2) true).handleOk 0 (xreHandle (redD 2)) = true
    ∧ xreRxoff (redD 2) % 64 = 0 ∧ xreRsync (redD 2) < 64
    ∧ (xreB (redD 2) true).classForeign (engU 9) (live (xreS (redD 2) true) (entry0 (redD 2) 3)) = false
    ∧ (xreB (redD 2) true).handleLive 0 (xreHandle (redD 2)) = true
    ∧ (xreB (redD 2) true).classReady (engU 9) (live (xreS (redD 2) true) (entry0 (redD 2) 3)) = true
    ∧ (xreB (redD 2) true).deposited 0 (xreHandle (redD 2)) = true :=
  ⟨ready_of _ _ _ _ _ _ _ (by decide +kernel), by decide +kernel⟩

/-- A participant's entry, of hearth `g`, at level 0. -/
def redE (g : Nat) : Entry := { entry0 (redD 2) 3 with core := 8 * g, started := true, prog := Progress.start }

/-- Hearths 0 and 1 both at level 0; hearth 1's image has come to hearth 0, in full. -/
def redS : State :=
  { up with ctxs := [(0, some ctxX)],
            engines := [(xrePage 0, { Engine.empty with win := [redE 0] }), (xrePage 1, { Engine.empty with win := [redE 1] })],
            stores := [(0, { Store.empty with cls := some 2, tiles := [(128, tile0 2)] }),
                       (5, { Store.empty with cls := some 2, tiles := [(128, tile0 2)] })],
            lsync := [(5, { count := 1, epoch := 0 })],
            mem := [(0x080000001000, 2), (0x080000001005, 4)] }

theorem red_write : ∃ w, redS.write (.desc ctxX) (hearthBase 0 + xreRxoff (redE 1).desc
    + 0 * ((xreHandle (redE 1).desc).cnt * fullImage (xreHandle (redE 1).desc).cls)) (handleImage 2 false [[]]) = .ok w :=
  (hearthX redS (by decide +kernel)).write (by rw [image_length]; decide +kernel)

/-- Hearth 1 sends its image to hearth 0. -/
theorem test_meets_ReduceChild : Running redS (xrePage 1) 9 { engU 9 with g := 1 } ctxX 0 (redE 1) ∧ hOp (redE 1).desc = 4
    ∧ redParts ctxX 1 (redE 1).desc = some [0, 1] ∧ redParent ctxX [0, 1] (redE 1).prog.tiles 1 = some (0, 0)
    ∧ redS.redGranted (redE 1).desc 0 0 (redE 1).prog.tiles = true ∧ redS.handleElems ctxX 1 (xreHandle (redE 1).desc) = .ok [[]]
    ∧ ∃ w, redS.write (.desc ctxX) (hearthBase 0 + xreRxoff (redE 1).desc
        + 0 * ((xreHandle (redE 1).desc).cnt * fullImage (xreHandle (redE 1).desc).cls)) (handleImage 2 false [[]]) = .ok w := by
  exact ⟨running_of _ _ _ _ _ _ (by decide +kernel), by decide +kernel, by decide +kernel, by decide +kernel, by decide +kernel,
    by decide +kernel, red_write⟩

/-- A tile of an image is read where its header names it and its bytes are within reach. -/
theorem readTile_ok {s : State} {c : Ctx} {lo hi : Nat} (h : Plain s (.desc c) lo hi) {cls i a : Nat} {hd : List Byte}
    (h1 : s.read (.desc c) a 64 = .ok hd)
    (h4 : ¬ (fld hd 0 1 ≠ cls ∨ fld hd 4 2 ≠ clsElems cls ∨ fld hd 6 2 ≠ i ∨ fld hd 2 1 < fld hd 1 1 ∨ clsLimbs cls ≤ fld hd 2 1))
    (hr : lo ≤ a ∧ a + 64 + align64 (clsElems cls / 4) + clsElems cls * (fld hd 2 1 + 1 - fld hd 1 1) * 8 ≤ hi) :
    ∃ q, s.readTile c cls i a = .ok q := by
  obtain ⟨n, hn⟩ : ∃ n, n = align64 (clsElems cls / 4) := ⟨_, rfl⟩
  obtain ⟨m, hm⟩ : ∃ m, m = clsElems cls * (fld hd 2 1 + 1 - fld hd 1 1) * 8 := ⟨_, rfl⟩
  rw [← hn, ← hm] at hr
  unfold State.readTile
  simp only [h1, Bind.bind, Except.bind]
  rw [if_neg h4, ← hn, ← hm, h.read n (a + 64) (by omega)]
  dsimp only
  rw [h.read m (a + 64 + n) (by omega)]
  exact ⟨_, rfl⟩

/-- The header of the image at hearth 0. -/
def redHd : List Byte := [2, 0, 0, 0, 0, 4] ++ zeros 58

theorem red_tile : ∃ q, redS.readTile ctxX 2 0 0x080000001000 = .ok q :=
  readTile_ok (hearthX redS (by decide +kernel)) (hd := redHd) (by decide +kernel) (by decide +kernel) (by decide +kernel)

/-- Hearth 0 adds the image that has arrived. -/
theorem test_meets_ReduceLeader : Running redS (xrePage 0) 9 (engU 9) ctxX 0 (redE 0) ∧ hOp (redE 0).desc = 4
    ∧ redParts ctxX 0 (redE 0).desc = some [0, 1] ∧ redParent ctxX [0, 1] (redE 0).prog.tiles 0 = none
    ∧ (redKids ctxX [0, 1] (redE 0).prog.tiles 0).length = 1
    ∧ (redE 0).prog.pos + 1 ≤ ((redS.syncObj (.loc (0 * 64 + xreRsync (redE 0).desc))).count - (redE 0).prog.c0).toNat
    ∧ redS.handleDrained 0 (xreHandle (redE 0).desc) = false
    ∧ ∃ w, redS.redAdd ctxX (xrePage 0) 0 (redE 0) (xreHandle (redE 0).desc) 1 0 = (w, none) := by
  refine ⟨running_of _ _ _ _ _ _ (by decide +kernel), by decide +kernel, by decide +kernel, by decide +kernel, by decide +kernel,
    by decide +kernel, by decide +kernel, ?_⟩
  have hc : (xreHandle (redE 0).desc).cnt = 1 ∧ (xreHandle (redE 0).desc).cls = 2
      ∧ hearthBase 0 + xreRxoff (redE 0).desc + 0 * ((xreHandle (redE 0).desc).cnt * fullImage (xreHandle (redE 0).desc).cls)
        = 0x080000001000 := by decide +kernel
  obtain ⟨q, hq⟩ := red_tile
  rw [State.redAdd, hc.2.2, hc.1, State.addImage, hc.2.1, hq]
  exact ⟨_, rfl⟩

/-! The cross-package sum, and the end of a descriptor. -/

/-- PKGSUM of one element, from no child or from DNP0. -/
def pkgD (mask : Nat) : List Byte := desc 9 5 2 [(19, 1, 2), (38, 6, 1), (55, 1, mask)]

/-- DNP0 active where a child uses it. -/
def pkgS (mask : Nat) : State :=
  { onEng ctxX (unitOf 12) (pkgD mask) 2 with
    ports := [(0, { Port.reset with tstate := 5 })] ++ if mask = 1 then [(3, { Port.reset with tstate := 5 })] else [] }

theorem test_meets_Pkgsum : ∀ mask ∈ [0, 1], Ready (pkgS mask) (unitOf 12) 9 5 (engU 9) ctxX 0 (entry0 (pkgD mask) 2)
    ∧ (begun (pkgS mask) (unitOf 12) 0 (engU 9) (entry0 (pkgD mask) 2)).pkgBody (live (pkgS mask) (entry0 (pkgD mask) 2)) = none
    ∧ xreCmask (pkgD mask) = mask ∧ pkgKids (pkgD mask) = (if mask = 1 then [0] else []) := by
  intro mask hm
  fin_cases hm <;> exact ⟨ready_of _ _ _ _ _ _ _ (by decide +kernel), by decide +kernel⟩

/-- Running, before or after its upload. -/
def pkgE (granted : Bool) : Entry :=
  { entry0 (pkgD 1) 2 with started := true, prog := { Progress.start with tiles := 1, granted := granted } }

def pkgR (granted : Bool) : State :=
  runEng ctxX (unitOf 12) (pkgD 1) 2 { Progress.start with tiles := 1, granted := granted }

theorem test_meets_PkgsumGoesOn : ((pkgR false).pkgRun (unitOf 12) = some (0, pkgE false, ctxX) ∧ (pkgE false).prog.tiles ≠ 0
    ∧ (pkgE false).prog.grant = none ∧ (BitVec.toNat (if (pkgR false).xfmt then (3 : Byte) else 2)) = (if (pkgR false).xfmt then 3 else 2)
    ∧ xreCmask (pkgD 1) ≠ 0 ∧ 0 ∈ pkgKids (pkgD 1) ∧ (∀ p ∈ (pkgE false).prog.arrived, p.1 ≠ 0)
    ∧ (zeros 64).length = pkgBuf (xreOfmt (pkgD 1)) (pkgN (pkgD 1)))
    ∧ (∃ w, (pkgR false).write (.desc ctxX) (pkgAt (pkgD 1) 0) (zeros 64) = .ok w)
    ∧ ((pkgR true).pkgRun (unitOf 12) = some (0, pkgE true, ctxX) ∧ (pkgE true).prog.granted = true
    ∧ (zeros 3).length = 3 * pkgN (pkgD 1)) ∧ ∃ w, (pkgR true).write (.desc ctxX) (xreDst (pkgD 1)) (zeros 3) = .ok w :=
  ⟨by decide +kernel, ok_ex (by decide +kernel), by decide +kernel, ok_ex (by decide +kernel)⟩

/-- A descriptor whose engine's page has a bad word, whose clocks are unqualified, whose domain is off, whose page is not there. -/
theorem test_meets_BadDescriptors_block :
    ({ onEng ctxX (unitOf 6) (cveD 4 1 2 []) 2 with pages := [(unitOf 6, { Page.reset with badPar := [0x100] })] } : State).blockFail
      (unitOf 6) (entry0 (cveD 4 1 2 []) 2) = some { code := eCfgParity, addr := BitVec.ofNat 48 (pageAddr (unitOf 6) + 0x100) }
    ∧ ({ onEng ctxX (unitOf 6) (cveD 4 1 2 []) 2 with lostClk := [(0, .aclk)] } : State).blockFail (unitOf 6)
        (entry0 (cveD 4 1 2 []) 2) = some { code := eClkUnqual, addr := 0x1000 }
    ∧ ({ onEng ctxX (unitOf 6) (cveD 4 1 2 []) 2 with doms := [(0, { req := 0, state := 0, busy := false })] } : State).blockFail
        (unitOf 6) (entry0 (cveD 4 1 2 []) 2) = some { code := eIso, addr := 0x1000, pw := true }
    ∧ (onEng ctxX (unitOf 6) (cveD 4 1 2 []) 2).unit (unitOf 6) = some (engU 3)
    ∧ ((onEng ctxX (unitOf 6) (cveD 4 1 2 []) 2).engine (unitOf 6)).head = some (0, entry0 (cveD 4 1 2 []) 2)
    ∧ (onEng ctxX (unitOf 6) (cveD 4 1 2 []) 2).ctx? 0 = some ctxX := by decide +kernel

/-- A header with byte 3 not 0; and one that waits for count 5 of package object 0, or for credits. -/
theorem test_meets_BadDescriptors_header : headerOk ctxX 0 (setFld (cveD 4 1 2 []) 3 1 1) = false
    ∧ (onEng ctxX (unitOf 6) (setFld (cveD 4 1 2 []) 3 1 1) 2).blockFail (unitOf 6) (entry0 (setFld (cveD 4 1 2 []) 3 1 1) 2) = none
    ∧ headerOk ctxX 0 (setFld (setFld (cveD 4 1 2 []) 8 2 0) 12 3 5) = true
    ∧ (onEng ctxX (unitOf 6) (setFld (setFld (cveD 4 1 2 []) 8 2 0) 12 3 5) 2).waitOk ctxX 0 0 5 0 = false
    ∧ headerOk ctxX 0 (cveD 4 1 2 []) = true
    ∧ (entry0 (cveD 4 1 2 []) 1).credits < (onEng ctxX (unitOf 6) (cveD 4 1 2 []) 1).need ctxX (entry0 (cveD 4 1 2 []) 1) := by
  decide +kernel

/-- A descriptor that has ended, DONE or FAILED. -/
def endedE (st : Status) : Entry := { entry0 (cveD 4 1 2 []) 2 with started := true, ended := some st }

def endedS (st : Status) : State := { up with ctxs := [(0, some ctxX)], engines := [(unitOf 6, { Engine.empty with win := [endedE st] })] }

theorem test_meets_DescriptorComplete : ∀ st ∈ [Status.ok 0, Status.fail { code := eBusErr, addr := 0x1000 }],
    (endedS st).unit (unitOf 6) = some (engU 3) ∧ (endedS st).entry? (unitOf 6) 0 = some (endedE st) ∧ (endedE st).ended = some st
    ∧ (endedS st).ctx? (endedE st).ctx = some ctxX ∧ (endedE st).contrib = none ∧ (endedE st).flags = [] := by decide +kernel

/-! Arithmetic: values on both sides of each clause. -/

theorem test_meets_Accumulation : (1 : Nat) ≤ 48 ∧ ({ val := 3, nar := false, ovf := true } : Elem).ovf = true ∧ Elem.zero.ovf = false
    ∧ (2 : Int) ^ (48 - 1) ≤ Elem.zero.val + 2 ^ 47 ∧ Elem.zero.val + (-(2 : Int) ^ 47 - 1) < -(2 : Int) ^ (48 - 1)
    ∧ -(2 : Int) ^ (48 - 1) ≤ Elem.zero.val + (-(2 : Int) ^ 47) ∧ Elem.zero.val + (2 ^ 47 - 1) < (2 : Int) ^ (48 - 1)
    ∧ ({ val := 0, nar := true, ovf := true } : Elem).nar = true ∧ ([1, -2, 3] : List Int).Perm [3, 1, -2]
    ∧ (Elem.zero.val.natAbs : Int) + (([1, -2, 3] : List Int).map fun t => (t.natAbs : Int)).sum < (2 : Int) ^ (48 - 1) := by
  decide

/-- The smallest and the largest code with a value, and a magnitude above every value. -/
theorem test_meets_Rounding : ∀ f ∈ [w12, w16, w24], 2 ^ f.p < 2 ^ f.width ∧ (∃ v, f.value (2 ^ f.p) = some v ∧ v ≠ 0)
    ∧ (∃ v, f.value (2 ^ (f.width - 1) - 1) = some v ∧ v ≠ 0) ∧ 2 * f.maxVal ≤ 2 * f.maxVal ∧ (65535 : Nat) < 65536 := by
  intro f hf
  have h : ∀ f ∈ [w12, w16, w24], ∀ c ∈ [2 ^ f.p, 2 ^ (f.width - 1) - 1], (match f.value c with
      | some v => decide (v ≠ 0)
      | none => false) = true := by decide +kernel
  have g : ∀ c ∈ [2 ^ f.p, 2 ^ (f.width - 1) - 1], ∃ v, f.value c = some v ∧ v ≠ 0 := by
    intro c hc
    have := h f hf c hc
    split at this
    · rename_i v hv
      exact ⟨v, hv, of_decide_eq_true this⟩
    · simp at this
  refine ⟨?_, g _ (by simp), g _ (by simp), le_rfl, by decide⟩
  fin_cases hf <;> decide +kernel

/-! Witnesses: descriptors that end DONE. -/

/-- The arrays of the row descriptors of `rowOp`, in stack 0 and in the hearth's memory. -/
theorem test_meets_RowsDone : ∀ op ∈ [1, 2, 3, 4, 5, 6, 7, 8], rowBody (rowOp op) = true
    ∧ RowReads (onEng ctxX (unitOf 8) (rowOp op) 2) ctxX (entry0 (rowOp op) 2)
    ∧ RowWrites (onEng ctxX (unitOf 8) (rowOp op) 2) ctxX (entry0 (rowOp op) 2) := by
  intro op hop
  have hl : ∀ r < rowRows (rowOp op), (onEng ctxX (unitOf 8) (rowOp op) 2).rd ctxX (rowLabel (entry0 (rowOp op) 2) r) 4 = .ok 0
      ∧ 0 < rowLen (rowOp op) := by fin_cases hop <;> decide +kernel
  have hw : ∀ p ∈ rowRanges (entry0 (rowOp op) 2) 0, 0x080000000000 ≤ p.1 / 8 ∧ p.1 / 8 + (p.2 + 7) / 8 ≤ 0x080000600000 := by
    fin_cases hop <;> decide +kernel
  have hs : (allOk (rowRows (rowOp op)) (fun r => (onEng ctxX (unitOf 8) (rowOp op) 2).rowSrc ctxX (entry0 (rowOp op) 2) r)
      && (!decide (hOp (rowOp op) ∈ [2, 4, 6, 8])
        || allOk (rowRows (rowOp op)) fun r => (onEng ctxX (unitOf 8) (rowOp op) 2).rowSrc2 ctxX (entry0 (rowOp op) 2) r)
      && allOk 2 (fun k => (onEng ctxX (unitOf 8) (rowOp op) 2).rowAffineArr ctxX (entry0 (rowOp op) 2) k)
      && allOk (rowRows (rowOp op)) fun r => (onEng ctxX (unitOf 8) (rowOp op) 2).rd ctxX
          ((entry0 (rowOp op) 2).base + fld (rowOp op) 31 3 + 8 * r) 6) = true := by fin_cases hop <;> decide +kernel
  simp only [Bool.and_eq_true, Bool.or_eq_true, Bool.not_eq_true', decide_eq_false_iff_not] at hs
  refine ⟨by fin_cases hop <;> decide +kernel, ⟨allOk_ex hs.1.1.1, fun h => allOk_ex (hs.1.1.2.resolve_left (fun x => x h)),
    fun _ r hr => ⟨0, (hl r hr).1, .inl (hl r hr).2⟩, fun _ => allOk_ex hs.1.2 0 (by decide), fun _ => allOk_ex hs.1.2 1 (by decide),
    fun _ => allOk_ex hs.2⟩, fun p hp => (hearthX _ ?_).reach (hw p hp)⟩
  fin_cases hop <;> decide +kernel

/-! Conversions. -/

/-- FIT under WMIN, of LAYOUT 1 with reserve width 2. -/
def fitMin : List Byte := cveD 1 1 0x11 [(53, 2, 0x8801)]

/-- The arrays of a conversion in stack 0. -/
theorem cve_open (d : List Byte) (h : d ∈ [cveD 1 1 0x11 [(53, 2, 1)], fitMin, cveD 2 1 0x11 [(53, 2, 1)],
      cveD 2 0x22 0x11 [(53, 2, 1), (16, 6, 0x202000)], cveD 3 0x10 1 [(53, 2, 0)], cveD 4 1 2 [], cveD 5 1 3 []]) :
    (Ready (cveS d) (unitOf 6) 3 (hOp d) (engU 3) ctxX 0 (entry0 d 2) ∧ (cveS d).cveBody (unitOf 6) (engU 3) (entry0 d 2) = none)
    ∧ CveOpen (cveS d) ctxX d := by
  have hp : Plain (cveS d) (.desc ctxX) 0 0x2000000000 := stackX _ (by fin_cases h <;> decide +kernel)
  have hn : (cveSrc d + cveBytes d (cveSfmt d) ≤ 0x2000000000 ∧ cveDst d + (cveBytes d (cveDfmt d) + if hOp d = 5 then 64 else 0) ≤ 0x2000000000)
      ∧ cveMetaF d + (cveScales d - cveMetaF d) ≤ 0x2000000000 ∧ cveOutl d + 512 * cveRows d ≤ 0x2000000000
      ∧ cveMetaF d + 64 ≤ 0x2000000000 := by fin_cases h <;> decide +kernel
  refine ⟨⟨?_, ?_⟩, fun _ => hp.reach ⟨Nat.zero_le _, hn.1.1⟩, hp.reach ⟨Nat.zero_le _, hn.1.2⟩,
    fun _ => hp.reach ⟨Nat.zero_le _, hn.2.1⟩, fun _ => hp.reach ⟨Nat.zero_le _, hn.2.2.1⟩, fun _ => hp.reach ⟨Nat.zero_le _, hn.2.2.2⟩⟩
  · fin_cases h <;> exact ready_of _ _ _ _ _ _ _ (by decide +kernel)
  · fin_cases h <;> decide +kernel

theorem test_meets_FitDone : (cveWmin (cveD 1 1 0x11 [(53, 2, 1)]) = false ∧ cveWmin fitMin = true)
    ∧ FitWidths (cveS fitMin) ctxX fitMin := by
  have hp := stackX (cveS fitMin) (by decide +kernel)
  refine ⟨by decide +kernel, allOk_ex (by decide +kernel), hp.apart (by decide +kernel) (by decide +kernel) (by decide +kernel),
    hp.apart (by decide +kernel) (by decide +kernel) (by decide +kernel), (hp.mono (lo' := 0x400) (hi' := 0x2000000000) (by decide)).off
      ?_ (by decide +kernel)⟩
  unfold ringOff
  decide +kernel

theorem test_meets_TrackDone : TrackSource (cveS (cveD 2 0x22 0x11 [(53, 2, 1), (16, 6, 0x202000)])) (engU 3) ctxX
      (cveD 2 0x22 0x11 [(53, 2, 1), (16, 6, 0x202000)])
    ∧ (∀ d ∈ [cveD 2 1 0x11 [(53, 2, 1)], cveD 5 1 3 []], (cveS d).read (.desc ctxX) (cveMetaF d) 64 = .ok (zeros 39 ++ [1] ++ zeros 24))
    ∧ fld (zeros 39 ++ [1] ++ zeros 24) 39 1 % 2 = 1 :=
  ⟨⟨by decide +kernel, ok_ex (by decide +kernel), fun h => absurd h (by decide +kernel), fun h => absurd h (by decide +kernel)⟩,
    by decide +kernel⟩

/-- WIDEN of LAYOUT 0, and of LAYOUT 1. -/
theorem test_meets_WidenDone (l : Nat) (h : l ∈ [0, 0x800]) : WidenWords (cveS (cveD 3 0x10 1 [(53, 2, l)])) ctxX (cveD 3 0x10 1 [(53, 2, l)]) := by
  have hp := stackX (cveS (cveD 3 0x10 1 [(53, 2, l)])) (by fin_cases h <;> decide +kernel)
  refine ⟨fun hl => ?_, fun hl => ?_, hp.apart ?_ ?_ ?_, (hp.mono (lo' := 0x400) (hi' := 0x2000000000) (by decide)).off ?_ ?_⟩
  · have : cveLayout (cveD 3 0x10 1 [(53, 2, l)]) = false
        → allOk (cveRows (cveD 3 0x10 1 [(53, 2, l)])) (fun r => (cveS (cveD 3 0x10 1 [(53, 2, l)])).metaAt ctxX
          (cveMetaArr (cveD 3 0x10 1 [(53, 2, l)]) + 4 * r) fun m => decide (m.n ≤ cveRw (cveD 3 0x10 1 [(53, 2, l)]))) = true := by
      fin_cases h <;> decide +kernel
    exact allOk_ex (this hl)
  · have : cveLayout (cveD 3 0x10 1 [(53, 2, l)]) = true → allOk (cveRows (cveD 3 0x10 1 [(53, 2, l)])) (fun r =>
          ((cveS (cveD 3 0x10 1 [(53, 2, l)])).widenGroup ctxX (cveD 3 0x10 1 [(53, 2, l)]) (r / 64)).bind fun g =>
            ((cveS (cveD 3 0x10 1 [(53, 2, l)])).metaAt ctxX (cveMetaArr (cveD 3 0x10 1 [(53, 2, l)]) + 4 * r)
              fun m => decide (m.n = g.1)).map fun m => (g, m)) = true := by fin_cases h <;> decide +kernel
    intro r hr
    obtain ⟨x, hx⟩ := allOk_ex (this hl) r hr
    cases hg : (cveS (cveD 3 0x10 1 [(53, 2, l)])).widenGroup ctxX (cveD 3 0x10 1 [(53, 2, l)]) (r / 64) with
    | error f => rw [hg] at hx; simp [Except.bind] at hx
    | ok g =>
      rw [hg] at hx
      simp only [Except.bind] at hx
      cases hm : (cveS (cveD 3 0x10 1 [(53, 2, l)])).metaAt ctxX (cveMetaArr (cveD 3 0x10 1 [(53, 2, l)]) + 4 * r)
          fun m => decide (m.n = g.1) with
      | error f => rw [hm] at hx; simp [Except.map] at hx
      | ok m => exact ⟨g, m, rfl, hm⟩
  · fin_cases h <;> decide +kernel
  · fin_cases h <;> decide +kernel
  · fin_cases h <;> decide +kernel
  · unfold ringOff
    fin_cases h <;> decide +kernel
  · fin_cases h <;> decide +kernel

/-! Random words, updates and copies. -/

theorem test_meets_RandomDone : (∀ op ∈ [1, 2], Open (onEng ctxX (unitOf 9) (rngD op) 2) (.desc ctxX) (rngDst (rngD op)) (16 * rngCount (rngD op)))
    ∧ Open (onEng ctxX (unitOf 10) smpD 2) (.desc ctxX) (fld smpD 16 6)
        (((wFmt? (smpFmt smpD)).getD w16).bytesFor (smpRows smpD * align64 (smpLen smpD)))
    ∧ smpLvin smpD = false
    ∧ Open (onEng ctxX (unitOf 10) smpD 2) (.desc ctxX) ((entry0 smpD 2).base + fld smpD 22 3) (4 * smpRows smpD)
    ∧ smpLpo smpD = false := by
  refine ⟨fun op hop => (stackX _ ?_).reach ?_, (stackX _ (by decide +kernel)).reach (by decide +kernel), by decide +kernel,
    (hearthX _ (by decide +kernel)).reach (by decide +kernel), by decide +kernel⟩ <;> fin_cases hop <;> decide +kernel

theorem test_meets_OptDone : optBody (live (atCommit (onEng ctxX (unitOf 11) optD 4)) (entry0 optD 4)) = none
    ∧ (atCommit (onEng ctxX (unitOf 11) optD 4)).read (.desc ctxX) (updP optD) 64 = .ok (zeros 64)
    ∧ ∃ o, OptParams.of? (zeros 64) = some o ∧ OptOpen (atCommit (onEng ctxX (unitOf 11) optD 4)) ctxX (entry0 optD 4) o.sgd := by
  obtain ⟨o, ho⟩ := some_ex (x := OptParams.of? (zeros 64)) (by decide +kernel)
  have hp := stackX (atCommit (onEng ctxX (unitOf 11) optD 4)) (by decide +kernel)
  exact ⟨by decide +kernel, by decide +kernel, o, ho, hp.reach (by decide +kernel), hp.reach (by decide +kernel), hp.reach (by decide +kernel),
    fun _ => hp.reach (by decide +kernel), hp.reach (by decide +kernel), (hearthX _ (by decide +kernel)).reach (by decide +kernel)⟩

theorem test_meets_TiesumDone : (onEng ctxX (unitOf 11) tieD 2).tieSlots ctxX tieD = .ok [0]
    ∧ (∀ a ∈ [0], Open (onEng ctxX (unitOf 11) tieD 2) (.desc ctxX) a (((wFmt? (updSfmt tieD)).getD w16).bytesFor (updN tieD)))
    ∧ Open (onEng ctxX (unitOf 11) tieD 2) (.desc ctxX) (updT tieD) ((if updDfmt tieD = 2 then 3 else 2) * updN tieD) := by
  have hp := stackX (onEng ctxX (unitOf 11) tieD 2) (by decide +kernel)
  refine ⟨by decide +kernel, fun a ha => hp.reach ?_, hp.reach (by decide +kernel)⟩
  rw [List.mem_singleton] at ha
  subst ha
  decide +kernel

theorem test_meets_CopyDone : cpyZero cpyD = false
    ∧ (∀ r < cpyRows cpyD, Open (onEng ctxX dma0 cpyD 1) (.desc ctxX) (cpySrc cpyD + r * cpySstr cpyD) (cpyLen cpyD))
    ∧ ∀ r < cpyRows cpyD, Open (onEng ctxX dma0 cpyD 1) (.desc ctxX) (cpyDst cpyD + r * cpyDstr cpyD) (cpyLen cpyD) := by
  have hp := stackX (onEng ctxX dma0 cpyD 1) (by decide +kernel)
  have hn : ∀ r < cpyRows cpyD, cpySrc cpyD + r * cpySstr cpyD + cpyLen cpyD ≤ 0x2000000000
    ∧ cpyDst cpyD + r * cpyDstr cpyD + cpyLen cpyD ≤ 0x2000000000 := by decide +kernel
  exact ⟨by decide +kernel, fun r hr => hp.reach ⟨Nat.zero_le _, (hn r hr).1⟩, fun r hr => hp.reach ⟨Nat.zero_le _, (hn r hr).2⟩⟩

/-! The exchange engine. -/

/-- ADD of one image at 0x10000, whose address stands at 0x3000, and its state with the handle live. -/
def addD : List Byte := xreD 1 [(54, 1, 1), (20, 6, 0x3000)]

def addS : State := { xreS addD true with mem := [(0x3002, 1), (0x10000, 2), (0x10005, 4)] }

theorem test_meets_AddDone : Ready addS (unitOf 12) 9 1 (engU 9) ctxX 0 (entry0 addD 3) ∧ xreForm addD = true ∧ xreNsrc addD = 1
    ∧ addS.handleOk 0 (xreHandle addD) = true ∧ addS.classForeign (engU 9) (live addS (entry0 addD 3)) = false
    ∧ addS.classReady (engU 9) (live addS (entry0 addD 3)) = true ∧ addS.addList ctxX addD = .ok [0x10000]
    ∧ xreZero addD = false ∧ addS.handleLive 0 (xreHandle addD) = true ∧ addS.deposited 0 (xreHandle addD) = true :=
  ⟨ready_of _ _ _ _ _ _ _ (by decide +kernel), by decide +kernel⟩

theorem image_at {s : State} {a lo hi : Nat} (h : Plain s (.desc ctxX) lo hi) (h1 : s.read (.desc ctxX) a 64 = .ok redHd)
    (hr : lo ≤ a ∧ a + 64 + align64 (clsElems 2 / 4) + clsElems 2 * 1 * 8 ≤ hi) : ImageAt s ctxX 2 1 0 a := by
  obtain ⟨q, hq⟩ := readTile_ok h (cls := 2) (i := 0) h1 (by decide +kernel) (by
    rw [show fld redHd 2 1 + 1 - fld redHd 1 1 = 1 by decide +kernel]
    exact hr)
  exact ⟨q, hq, trivial⟩

theorem test_meets_AddDone_image : ∀ a ∈ [0x10000], Image addS ctxX (xreHandle addD) a := by
  intro a ha
  rw [List.mem_singleton] at ha
  subst ha
  have hp := (stackX addS (by decide +kernel)).mono (lo' := 0x400) (hi' := 0x2000000000) (by decide)
  have hc : (xreHandle addD).cnt = 1 ∧ (xreHandle addD).cls = 2 := by decide +kernel
  refine ⟨by decide, ?_, hp.off ?_ (by decide +kernel)⟩
  · rw [hc.1, hc.2]
    exact image_at hp (by decide +kernel) (by decide)
  · unfold ringOff
    decide +kernel

theorem test_meets_ConsumersDone : ∀ d ∈ [xreD 6 [], xreD 2 [(26, 6, 0x1000), (52, 2, 0x8000)], retD], HandleThere (xreS d true) (engU 9) (entry0 d 3)
    ∧ (xreS d true).handleElems ctxX 0 (xreHandle d) = .ok [[]] ∧ xreDst d % 64 = 0 := by
  intro d hd
  have : ((xreS d true).handleOk 0 (xreHandle d) = true ∧ (xreS d true).handleLive 0 (xreHandle d) = true
      ∧ (xreS d true).deposited 0 (xreHandle d) = true)
    ∧ (xreS d true).handleElems ctxX 0 (xreHandle d) = .ok [[]] ∧ xreDst d % 64 = 0 := by fin_cases hd <;> decide +kernel
  exact ⟨⟨this.1.1, this.1.2.1, this.1.2.2⟩, this.2⟩

theorem test_meets_ExportDone : Open (xreS (xreD 2 [(26, 6, 0x1000), (52, 2, 0x8000)]) true) (.desc ctxX)
    (xreDst (xreD 2 [(26, 6, 0x1000), (52, 2, 0x8000)])) (handleImage 2 false [[]]).length :=
  (stackX _ (by decide +kernel)).reach (by rw [image_length]; decide +kernel)

theorem test_meets_RetireDone : (xreS retD true).retireBody (engU 9) (entry0 retD 3) = none
    ∧ (∃ un, (xreS retD true).retireUnits ctxX retD = .ok un)
    ∧ Open (xreS retD true) (.desc ctxX) (xreDst retD) (((wFmt? (xreOfmt retD)).getD w16).bytesFor
        ((xreHandle retD).cnt * clsElems (xreHandle retD).cls)) :=
  ⟨by decide +kernel, ok_ex (by decide +kernel), (stackX _ (by decide +kernel)).reach (by decide +kernel)⟩

theorem test_meets_ReduceDone : HandleThere (xreS (redD 2) true) (engU 9) (entry0 (redD 2) 3)
    ∧ (xreS (redD 2) true).classForeign (engU 9) (live (xreS (redD 2) true) (entry0 (redD 2) 3)) = false
    ∧ (xreS (redD 2) true).classReady (engU 9) (live (xreS (redD 2) true) (entry0 (redD 2) 3)) = true
    ∧ (entry0 (redD 2) 3).ended = none ∧ redNext ctxX [0, 1] 0 5 0 = 0 ∧ redNext ctxX [0] 0 5 0 = 5 :=
  ⟨⟨by decide +kernel, by decide +kernel, by decide +kernel⟩, by decide +kernel⟩

theorem test_meets_ReduceDone_levels : Open redS (.desc ctxX) (hearthBase 0 + xreRxoff (redE 1).desc
      + 0 * ((xreHandle (redE 1).desc).cnt * fullImage (xreHandle (redE 1).desc).cls))
      (handleImage (xreHandle (redE 1).desc).cls (xreCmpct (redE 1).desc) [[]]).length
    ∧ (redE 0).ended = none ∧ (redE 1).ended = none
    ∧ ∀ k < 1, Image redS ctxX (xreHandle (redE 0).desc) (hearthBase 0 + xreRxoff (redE 0).desc
        + k * ((xreHandle (redE 0).desc).cnt * fullImage (xreHandle (redE 0).desc).cls)) := by
  have hp := hearthX redS (by decide +kernel)
  have hc : (xreHandle (redE 0).desc).cnt = 1 ∧ (xreHandle (redE 0).desc).cls = 2
      ∧ hearthBase 0 + xreRxoff (redE 0).desc + 0 * ((xreHandle (redE 0).desc).cnt * fullImage (xreHandle (redE 0).desc).cls)
        = 0x080000001000 := by decide +kernel
  have h1 : (handleImage (xreHandle (redE 1).desc).cls (xreCmpct (redE 1).desc) [[]]).length = 8512 :=
    (show _ = (handleImage 2 false [[]]).length by
      rw [show (xreHandle (redE 1).desc).cls = 2 by decide +kernel, show xreCmpct (redE 1).desc = false by decide +kernel]).trans image_length
  refine ⟨hp.reach (by rw [h1]; decide +kernel), rfl, rfl, fun k hk => ?_⟩
  obtain rfl : k = 0 := by omega
  rw [hc.2.2]
  refine ⟨by decide, ?_, hp.off ringOff_none (by decide +kernel)⟩
  rw [hc.1, hc.2.1]
  exact image_at hp (by decide +kernel) (by decide)

/-! The cross-package sum. -/

/-- PKGSUM without a child or with DNP0 active, its UPP down or up. -/
def pkgUp (mask : Nat) (upp : Bool) : State :=
  { pkgS mask with ports := (pkgS mask).ports.take 1 ++ (if upp then [(2, { Port.reset with tstate := 5 })] else []) ++ (pkgS mask).ports.drop 1 }

theorem sum_open {s : State} {mask : Nat} (h : (0 < s.nCords ∧ s.placeUp (.stack 0) = true) ∧ s.ownBad = [] ∧ s.ue = [])
    (hm : mask ∈ [0, 1, 3]) : SumOpen s ctxX (pkgD mask) := by
  have hp := stackX s h
  have hk : ∀ k ∈ pkgKids (pkgD mask), pkgAt (pkgD mask) k + pkgBuf (xreOfmt (pkgD mask)) (pkgN (pkgD mask)) ≤ 0x2000000000 := by
    fin_cases hm <;> decide +kernel
  refine ⟨hp.reach ?_, hp.reach ?_, fun k hk' => hp.reach ⟨Nat.zero_le _, hk k hk'⟩⟩ <;> fin_cases hm <;> decide +kernel

theorem test_meets_PkgsumDone (mask : Nat) (upp : Bool) (h : (mask, upp) ∈ [(0, false), (0, true), (1, false)]) :
    Ready (pkgUp mask upp) (unitOf 12) 9 5 (engU 9) ctxX 0 (entry0 (pkgD mask) 2)
    ∧ (pkgUp mask upp).pkgBody (live (pkgUp mask upp) (entry0 (pkgD mask) 2)) = none ∧ (pkgUp mask upp).portUp 2 = upp
    ∧ Fresh (entry0 (pkgD mask) 2) ∧ (entry0 (pkgD mask) 2).ended = none ∧ SumOpen (pkgUp mask upp) ctxX (pkgD mask)
    ∧ xreCmask (pkgD mask) = mask := by
  refine ⟨?_, ?_, ?_, ⟨rfl, rfl, rfl, rfl⟩, rfl, sum_open ?_ ?_, ?_⟩
  · fin_cases h <;> exact ready_of _ _ _ _ _ _ _ (by decide +kernel)
  all_goals fin_cases h <;> decide +kernel

/-- A running sum of the children in `mask`. -/
def sumP (pos : Nat) (granted : Bool) : Progress := { Progress.start with tiles := 1, pos := pos, granted := granted }

def sumE (mask pos : Nat) (granted : Bool) : Entry := { entry0 (pkgD mask) 2 with started := true, prog := sumP pos granted }

def sumS (mask pos : Nat) (granted : Bool) : State := runEng ctxX (unitOf 12) (pkgD mask) 2 (sumP pos granted)

theorem test_meets_PkgsumStages (mask pos : Nat) (granted : Bool) (h : (mask, pos, granted) ∈ [(1, 0, false), (1, 1, false), (3, 0, false), (1, 1, true)]) :
    (sumS mask pos granted).pkgRun (unitOf 12) = some (0, sumE mask pos granted, ctxX) ∧ (sumE mask pos granted).ended = none
    ∧ SumOpen (sumS mask pos granted) ctxX (sumE mask pos granted).desc ∧ (sumE mask pos granted).prog.grant = none
    ∧ (sumE mask pos granted).prog.granted = granted ∧ (sumE mask pos granted).prog.pos = pos
    ∧ pkgKids (sumE mask pos granted).desc = (if mask = 3 then [0, 1] else [0]) ∧ (sumE mask pos granted).prog.arrived = [] := by
  refine ⟨?_, rfl, ?_, rfl, rfl, rfl, ?_, rfl⟩
  · fin_cases h <;> decide +kernel
  · fin_cases h <;> exact sum_open (by decide +kernel) (by decide)
  · fin_cases h <;> decide +kernel

/-! The key-value cache. -/

/-- Each byte of a read is a byte of memory. -/
theorem read_bytes (s : State) (w : Who) (m : Nat) (hm : ∀ p, (s.byte p).toNat ≤ m) : ∀ n a l, s.read w a n = .ok l →
    l.length = n ∧ ∀ b ∈ l, b.toNat ≤ m
  | 0, _, l, h => by
    rw [State.read, Except.ok.injEq] at h
    subst h
    exact ⟨rfl, fun b hb => absurd hb (List.not_mem_nil)⟩
  | n + 1, a, l, h => by
    rw [State.read] at h
    split at h
    · simp at h
    · rename_i b hb
      split at h
      · simp at h
      · rename_i r hr
        rw [Except.ok.injEq] at h
        subst h
        obtain ⟨h1, h2⟩ := read_bytes s w m hm n (a + 1) r hr
        refine ⟨by rw [List.length_cons, h1], fun c hc => ?_⟩
        rcases List.mem_cons.mp hc with e | hc
        · rw [e]
          unfold State.readByte at hb
          split at hb
          · simp at hb
          · split at hb
            · simp at hb
            · rw [Except.ok.injEq] at hb
              rw [← hb]
              exact hm _
        · exact h2 c hc

theorem get_le (k m : Nat) (l : SMap Byte) : (l.all fun p => decide (p.2.toNat ≤ m)) = true → (SMap.get l 0 k).toNat ≤ m := by
  induction l with
  | nil => intro _; simp [SMap.get]
  | cons p r hr =>
    intro h
    rw [List.all_cons, Bool.and_eq_true, decide_eq_true_eq] at h
    unfold SMap.get
    split
    · exact h.1
    · exact hr h.2

theorem pin_le (s : State) (w : Who) (q : Seqt) (n : Nat) (m : PageWord) (hm : ∀ p, (s.byte p).toNat ≤ 254)
    (h : s.pageMeta w q n = .ok m) : m.pin ≤ 254 := by
  unfold State.pageMeta at h
  simp only [Bind.bind, Except.bind] at h
  split at h
  · simp at h
  · rename_i a _
    rw [State.readVal] at h
    cases hr : s.read w (a + 8 * n) 8 with
    | error f => rw [hr] at h; simp [Except.map] at h
    | ok l =>
      rw [hr] at h
      simp only [Except.map, Except.ok.injEq] at h
      obtain ⟨h8, hb⟩ := read_bytes s w 254 hm 8 _ l hr
      match l, h8 with
      | [b0, b1, b2, b3, b4, b5, b6, b7], _ =>
        have := hb b3 (by simp)
        have t0 := b0.isLt
        have t1 := b1.isLt
        have t2 := b2.isLt
        rw [← h]
        simp only [PageWord.ofNat, bits, leVal]
        omega

/-- KVREAD and KVWRITE of slot 1 of the paged table, one position; or of a slot of the flat one. -/
def kvD1 (mode op : Nat) : List Byte := desc 8 op (if mode = 1 then 0x11 else 1) [(16, 3, 0x100), (19, 3, 0x1000), (22, 6, 0x10000), (28, 2, 1), (35, 2, 1)]

def kvS1 (mode op : Nat) : State :=
  { onEng ctxX dma0 (kvD1 mode op) 1 with mem := SMap.putBytes (SMap.putBytes (kvMem mode) 0x32000 (zeros 4)) 0x080000000100 [1] }

def kvE1 (mode op : Nat) : Entry := entry0 (kvD1 mode op) 1

theorem rings_none : ringOff Queue.none 0x400 0x2000000000 ∧ ringOff Queue.none 0x080000000000 0x080000600000 := by
  refine ⟨?_, ringOff_none⟩
  unfold ringOff
  decide +kernel

theorem test_meets_KvDone (mode op : Nat) (h : (mode, op) ∈ [(0, 0x10), (0, 0x11), (1, 0x10), (1, 0x11)]) :
    (Ready (kvS1 mode op) dma0 8 op (engU 8) ctxX 0 (kvE1 mode op) ∧ (kvS1 mode op).kvTable ctxX (kvE1 mode op) = .ok (kvHead mode))
    ∧ ((kvS1 mode op).engine dma0).running = none ∧ WorkOk (kvS1 mode op) ctxX (kvE1 mode op) (kvHead mode) [recOf 1] := by
  have hs := (stackX (kvS1 mode op) (by fin_cases h <;> decide +kernel)).mono (lo' := 0x400) (hi' := 0x2000000000) (by decide)
  have hh := hearthX (kvS1 mode op) (by fin_cases h <;> decide +kernel)
  have hq : (kvS1 mode op).queue 0 = Queue.none := rfl
  have hv : ∀ b < kvNe (kvE1 mode op).desc, (kvS1 mode op).rd ctxX (kvEnt (kvE1 mode op) b) 8 = .ok 1 := by
    fin_cases h <;> decide +kernel
  have hr : (kvS1 mode op).seqRec (.desc ctxX) (kvHead mode) 1 = .ok (recOf 1) := by fin_cases h <;> decide +kernel
  refine ⟨⟨?_, ?_⟩, by fin_cases h <;> decide +kernel, ⟨fun b hb v hb' hn => ⟨recOf 1, List.mem_singleton.mpr rfl, ?_⟩,
    ?_, fun hm => ?_, fun hm => ?_⟩⟩
  · fin_cases h <;> exact ready_of _ _ _ _ _ _ _ (by decide +kernel)
  · fin_cases h <;> decide +kernel
  · rw [hv b hb, Except.ok.injEq] at hb'
    subst hb'
    exact hr
  · fin_cases h <;> decide
  · refine hs.laid2 hh ?_ rings_none rings_none
    fin_cases h <;> first | decide +kernel | exact absurd hm (by decide)
  · have hm' : mode = 1 := hm
    subst hm'
    have ho : op ∈ [0x10, 0x11] := by simpa using h
    clear h hv hr
    refine ⟨2, 0x100000, 0x21000, 0x22000, ?_, hs.laid2 hh ?_ rings_none rings_none⟩
    · have hf : ∀ k < 2, (kvS1 1 op).readVal (.desc ctxX) (0x22000 + 4 * k) 4 = .ok k := by fin_cases ho <;> decide +kernel
      refine ⟨?_, ?_, ?_, ?_, by decide, by decide, fun k hk => ⟨k, hk, hf k hk⟩⟩ <;> fin_cases ho <;> decide +kernel
    · fin_cases ho <;> decide +kernel

theorem test_meets_KvDone_read : ∀ r ∈ [recOf 1], r.len ≤ 32 * r.cap
    ∧ ∀ n m, (kvS1 1 0x10).pageMeta (.desc ctxX) (kvHead 1) n = .ok m →
      m.pin + timesNamed (kvS1 1 0x10) (.desc ctxX) (kvHead 1) r (kvLh (kvE1 1 0x10).desc) n ≤ 255 := by
  intro r hr
  rw [List.mem_singleton] at hr
  subst hr
  refine ⟨by decide, fun n m h => ?_⟩
  have hb : ((kvS1 1 0x10).mem.all fun p => decide (p.2.toNat ≤ 254)) = true := by decide +kernel
  have h1 := pin_le _ _ _ _ _ (fun p => get_le p 254 _ hb) h
  have h2 : timesNamed (kvS1 1 0x10) (.desc ctxX) (kvHead 1) (recOf 1) (kvLh (kvE1 1 0x10).desc) n ≤ 1 :=
    (List.length_filter_le _ _).trans (by rw [List.length_range]; decide)
  omega

theorem test_meets_KvDone_write : ∀ b < kvNe (kvE1 1 0x11).desc, (kvS1 1 0x11).rd ctxX (kvEnt (kvE1 1 0x11) b) 8 = .ok 1
    ∧ (kvS1 1 0x11).seqRec (.desc ctxX) (kvHead 1) 1 = .ok (recOf 1) ∧ (recOf 1).state = 1
    ∧ bits 1 41 20 + kvNpos (kvE1 1 0x11).desc ≤ 32 * (recOf 1).cap
    ∧ (kvS1 1 0x11).entAt (.desc ctxX) (kvHead 1) (recOf 1) (kvLh (kvE1 1 0x11).desc) 0 = .ok (.page 0 ⟨1, 0, 0, 0, 1⟩) := by decide +kernel

/-- A waiting page request of a KVWRITE whose list entry is empty, or names the sealed page 0. -/
def givesS (copy : Bool) : State :=
  { pageS copy [] with
    mem := if copy then SMap.putBytes (kvMem 1) 0x21007 [0x80] else SMap.putBytes (kvMem 1) 0x31000 (leBytes 4 0x0FFFFFFF)
    engines := [(dma0, { Engine.empty with win := [{ kvE1 1 0x11 with started := true, prog := Progress.start }] })] }

def givesE : Entry := { kvE1 1 0x11 with started := true, prog := Progress.start }

theorem test_meets_PageGiven (copy : Bool) : ((givesS copy).pageHead = some (pageR copy, 0, givesE, engU 8, ctxX)
      ∧ (givesS copy).kvTable ctxX givesE = .ok (kvHead 1) ∧ (givesS copy).seqRec (.service ctxX) (kvHead 1) 1 = .ok (recOf 1))
    ∧ CacheOk (givesS copy) (.service ctxX) ((givesS copy).queue ctxX.queue) (kvHead 1) [recOf 1] [(kvEnt givesE 0, 8 * kvNe givesE.desc)]
    ∧ freePages (givesS copy) (.service ctxX) (kvHead 1) 1
    ∧ (givesS copy).entAt (.service ctxX) (kvHead 1) (recOf 1) 0 0 = .ok (if copy then .page 0 ⟨2, 0, 0, 0, 1⟩ else .none) := by
  have hk : bit (blkCords ctxX.block) 0 = true := by decide +kernel
  have hs : Plain (givesS copy) (.service ctxX) 0x400 0x2000000000 :=
    (plain_stack _ (.service ctxX) 0 (fun _ => hk) (by cases copy <;> decide +kernel)).mono (by decide)
  have hh : Plain (givesS copy) (.service ctxX) 0x080000000000 0x080000600000 :=
    plain_hearth _ (.service ctxX) (fun _ => hk) (by cases copy <;> decide +kernel)
  refine ⟨by cases copy <;> decide +kernel, ⟨by decide, fun h => absurd h (by decide), fun _ => ⟨2, 0x100000, 0x21000, 0x22000, ?_,
    hs.laid2 hh (by decide +kernel) rings_none rings_none⟩⟩, show _ = _ by cases copy <;> decide +kernel, by cases copy <;> decide +kernel⟩
  have hf : ∀ k < 2, (givesS copy).readVal (.service ctxX) (0x22000 + 4 * k) 4 = .ok k := by cases copy <;> decide +kernel
  refine ⟨?_, ?_, ?_, ?_, by decide, by decide, fun k hk => ⟨k, hk, hf k hk⟩⟩ <;> cases copy <;> decide +kernel

theorem test_meets_PageGiven_next : NextPageNot (givesS true) (.service ctxX) (kvHead 1) 0 := by
  intro np head ring n h1 h2 h3 h4
  have e1 : (givesS true).pool (.service ctxX) (kvHead 1) 18 4 = .ok 2 := by decide +kernel
  have e2 : (givesS true).pool (.service ctxX) (kvHead 1) 22 4 = .ok 1 := by decide +kernel
  have e3 : (givesS true).pool (.service ctxX) (kvHead 1) 12 6 = .ok 0x22000 := by decide +kernel
  have e4 : (givesS true).readVal (.service ctxX) (0x22000 + 4 * (1 % max 1 2)) 4 = .ok 1 := by decide +kernel
  rw [e1, Except.ok.injEq] at h1
  rw [e2, Except.ok.injEq] at h2
  rw [e3, Except.ok.injEq] at h3
  subst h1 h2 h3
  rw [e4, Except.ok.injEq] at h4
  omega

theorem test_meets_RefreshGiven : (staleS.ctx? 0 = some ctxXk ∧ staleS.ctxSeqt ctxXk = some (kvHead 1)
      ∧ staleS.seqRec (.service ctxXk) (kvHead 1) 1 = .ok (recOf 1) ∧ (recOf 1).state ≠ 3 ∧ (recOf 1).cap ≠ 0)
    ∧ staleS.pool (.service ctxXk) (kvHead 1) 32 8 = .ok (2 ^ 22) ∧ 2 ^ 22 ≤ (2 ^ 22 + 2 ^ 64 - (recOf 1).refstamp) % 2 ^ 64
    ∧ CacheOk staleS (.service ctxXk) (staleS.queue ctxXk.queue) (kvHead 1) [recOf 1] [] := by
  have hk : bit (blkCords ctxXk.block) 0 = true := by decide +kernel
  have hs : Plain staleS (.service ctxXk) 0x400 0x2000000000 :=
    (plain_stack _ (.service ctxXk) 0 (fun _ => hk) (by decide +kernel)).mono (by decide)
  have hf : ∀ k < 2, staleS.readVal (.service ctxXk) (0x22000 + 4 * k) 4 = .ok k := by decide +kernel
  refine ⟨by decide +kernel, by decide +kernel, by decide, ⟨by decide, fun h => absurd h (by decide), fun _ =>
    ⟨2, 0x100000, 0x21000, 0x22000, ?_, hs.laid (by decide +kernel) rings_none.1 rings_none.1⟩⟩⟩
  refine ⟨?_, ?_, ?_, ?_, by decide, by decide, fun k hk => ⟨k, hk, hf k hk⟩⟩ <;> decide +kernel

/-! Steps: the beat of a slot through the phases of its step (R283, R307, R224, R230). -/

/-- Step 5 of context 0 on slot 1, begun, without lists. -/
def rec5 : StepRec :=
  { step := 5, att := 0, q := 0, slot := 0, entries := [], batch := 0, nseq := 1, bnd := [], bout := 0, lens := [], flags := [],
    nue := 0, ueAddr := 0, failed := none, failAddr := 0, treeCode := 0, judged := [], decided := false, forced := false, replaying := false, begun := true,
    reported := none, abortWait := none }

/-- Context 0 on slot 1 with the step `r`, slot 1's beat in phase `ph` of step 5. -/
def stepS (r : StepRec) (ph : BitVec 16) : State :=
  { up with ctxs := [(0, some { ctx0 with slot := 1, step := some r })],
            beat := { up.beat with slots := [(1, { step := 5, phase := ph })] } }

def stepC (r : StepRec) : Ctx := { ctx0 with slot := 1, step := some r }

theorem quiet_of (s : State) (ctx : Nat) (c : Ctx) (r : StepRec) (b : Beat)
    (h : s.isOpen pgBeat = true ∧ s.ctx? ctx = some c ∧ c.step = some r ∧ s.slotBeat c.slot = b ∧ b.step = r.step ∧ r.begun = true ∧ r.replaying = false
      ∧ s.nextBeat c.slot = none ∧ s.quiet ctx c b = true) : Quiet s ctx c r b :=
  ⟨h.1, h.2.1, h.2.2.1, h.2.2.2.1, h.2.2.2.2.1, h.2.2.2.2.2.1, h.2.2.2.2.2.2.1, h.2.2.2.2.2.2.2.1, h.2.2.2.2.2.2.2.2⟩

/-- Core 0 stalled on phase 7 of step 5. -/
def onBeat7 : State :=
  { stepS rec5 3 with
    cores := [(0, { Core.reset with run := .onBeat, lstep := 5, word := leBytes 1 0x08 ++ leBytes 1 1 ++ leBytes 2 7 ++ zeros 28 })] }

theorem test_meets_PhaseDone_target : Quiet onBeat7 0 (stepC rec5) rec5 { step := 5, phase := 3 } ∧ (stepC rec5).slot ≠ onBeat7.tslot
    ∧ rec5.failed = none ∧ rec5.reported ≠ some { step := 5, phase := 3 } ∧ rec5.decided = false
    ∧ (∃ t, onBeat7.target (stepC rec5) = some t ∧ t.step = 5 ∧ t.phase = 7) ∧ rec5.attCount eMemUe = 0 := by
  refine ⟨quiet_of _ _ _ _ _ (by decide +kernel), by decide +kernel, by decide +kernel, by decide +kernel, by decide +kernel,
    ⟨{ step := 5, phase := 7 }, by decide +kernel⟩, by decide +kernel⟩

theorem test_meets_PhaseDone_commit : Quiet (stepS rec5 0) 0 (stepC rec5) rec5 { step := 5, phase := 0 }
    ∧ (stepS rec5 0).target (stepC rec5) = none ∧ rec5.flags = [] ∧ (stepC rec5).used = [] ∧ (stepS rec5 0).holdRuns 0 = false
    ∧ blkPcy (stepC rec5).block = 0 ∧ (stepC rec5).slot ≠ (stepS rec5 0).tslot :=
  ⟨quiet_of _ _ _ _ _ (by decide +kernel), by decide +kernel, by decide +kernel, by decide +kernel, by decide +kernel,
    by decide +kernel, by decide +kernel⟩

theorem test_meets_PhaseDone_last : Quiet (stepS rec5 0xFFFF) 0 (stepC rec5) rec5 { step := 5, phase := 0xFFFF }
    ∧ (stepC rec5).slot ≠ (stepS rec5 0xFFFF).tslot ∧ rec5.reported ≠ some { step := 5, phase := 0xFFFF } :=
  ⟨quiet_of _ _ _ _ _ (by decide +kernel), by decide +kernel, by decide +kernel⟩

/-- The default policy replays a low miss while 16 attempts last; a forced attempt commits whatever its flags. -/
theorem test_meets_AttemptEnds : (∃ r : StepRec, r.forced = true) ∧ rec5.forced = false
    ∧ ([Policy.default.actSm, Policy.default.actOo, Policy.default.actWr, Policy.default.actUe].getD 0 0 = 0)
    ∧ (∃ p : Policy, p.actUe = 3) ∧ ∃ p : Policy, p.actSm = 1 := by
  refine ⟨⟨{ rec5 with forced := true }, rfl⟩, rfl, by decide +kernel, ⟨{ Policy.default with actUe := 3 }, rfl⟩,
    ⟨{ Policy.default with actSm := 1 }, rfl⟩⟩

def recR : StepRec := { rec5 with replaying := true }

theorem stat_open (r : StepRec) (ph : BitVec 16) : StatOpen (stepS r ph) (stepC r) := by
  have hk : bit (blkCords blk0) 0 = true := by decide +kernel
  have hp : Plain (stepS r ph) (.service (stepC r)) (0 * 0x2000000000) ((0 + 1) * 0x2000000000) :=
    plain_stack _ _ 0 (fun _ => hk) ⟨show 0 < up.nCords by decide +kernel, by decide, show up.placeUp (.stack 0) = true by decide +kernel, rfl, rfl⟩
  have h1 : ∀ h < 2, ∀ k < blkNent (stepC r).block, entAddr (stepC r) h k + 512 ≤ 0x2000000000 := by
    show ∀ h < 2, ∀ k < blkNent ctx0.block, entAddr ctx0 h k + 512 ≤ 0x2000000000
    decide +kernel
  have h2 : ∀ h < 2, recAddr (stepC r) h + 64 ≤ 0x2000000000 := by
    show ∀ h < 2, recAddr ctx0 h + 64 ≤ 0x2000000000
    decide +kernel
  exact ⟨fun h hh k hk => hp.reach ⟨Nat.zero_le _, h1 h hh k hk⟩, fun h hh => hp.reach ⟨Nat.zero_le _, h2 h hh⟩,
    fun a ha => absurd ha (List.not_mem_nil)⟩

theorem test_meets_Replay : ((stepS recR 0).isOpen pgBeat = true ∧ (stepS recR 0).ctx? 0 = some (stepC recR) ∧ (stepC recR).step = some recR ∧ recR.replaying = true
    ∧ (stepS recR 0).prefetching 0 5 = false ∧ (stepC recR).used = [] ∧ blkPcy (stepC recR).block = 0)
    ∧ ∃ s1, (stepS recR 0).clearHalf (stepC recR) (stepHalf 5) = .ok s1 := by
  exact ⟨by decide +kernel, ok_ex (by decide +kernel)⟩

def recF : StepRec := { rec5 with reported := some { step := 5, phase := 0xFFFF } }

/-- A step that failed: its finalisation leaves the context dead. -/
def recX : StepRec := { recF with failed := some eDrtTimeout, decided := true }

theorem test_meets_CommitFinalise : (stepS recF 0xFFFF).ctx? 0 = some (stepC recF)
    ∧ (stepS recF 0xFFFF).slotBeat 1 = { step := 5, phase := 0xFFFF }
    ∧ (stepS recF 0xFFFF).quiet 0 (stepC recF) { step := 5, phase := 0xFFFF } = true ∧ 1 ≠ (stepS recF 0xFFFF).tslot
    ∧ ((stepS recF 0xFFFF).finalise 0 (stepC recF) recF).fw.activating = none
    ∧ (((stepS recF 0xFFFF).finalise 0 (stepC recF) recF).ctx? 0).map (fun c => c.dead) = some false
    ∧ 1 ≠ ((stepS recF 0xFFFF).finalise 0 (stepC recF) recF).tslot := by
  decide +kernel

theorem test_meets_CommitFinalise_dead : (stepS recX 0xFFFF).ctx? 0 = some (stepC recX)
    ∧ (stepS recX 0xFFFF).quiet 0 (stepC recX) { step := 5, phase := 0xFFFF } = true
    ∧ (((stepS recX 0xFFFF).finalise 0 (stepC recX) recX).ctx? 0).map (fun c => c.dead) = some true := by
  decide +kernel

theorem test_meets_Replay_stat : StatOpen (stepS recR 0) (stepC recR) ∧ (stepC recR).slot ≠ (stepS recR 0).tslot :=
  ⟨stat_open _ _, by decide +kernel⟩

theorem test_meets_CommitFinalise_stat : StatOpen (stepS recF 0xFFFF) (stepC recF) ∧ recF.failed = none ∧ (stepC recF).dead = false
    ∧ (stepS recF 0xFFFF).fw.activating = none ∧ (stepS recF 0xFFFF).schedOf 1 = [] ∧ (stepS recF 0xFFFF).isOpen pgBeat = true
    ∧ recX.failed = some eDrtTimeout := ⟨stat_open _ _, by decide +kernel⟩

/-! Markers, frames and the beat's source (R305 to R314, R427, R428). -/

/-- A package off the manager with UPP trained at latency 600, BEAT_CFG as given. -/
def below (cfg : Word) : State :=
  { up with ports := [(0, { Port.reset with tstate := 5 }), (2, { Port.reset with tstate := 5, lat := 600 }), (3, { Port.reset with tstate := 5 })],
            pages := [(pgBeat, { Page.reset with cfg := [(0x100, cfg)] })],
            beat := { up.beat with actsrc := 2 } }

/-- A worker without packages below it. -/
def leaf : State := { below 0 with ports := [(2, { Port.reset with tstate := 5, lat := 600 })] }

/-- A marker of 60 bytes with its CRC. -/
def sealed (p : List Byte) : List Byte := p ++ leBytes 4 (crc32 p).toNat

/-- A marker whose beat field is any 64-bit number. -/
def rawMarker (kind rd v : Nat) : List Byte :=
  sealed (leBytes 1 kind ++ leBytes 1 0 ++ leBytes 2 rd ++ zeros 4 ++ leBytes 8 v ++ zeros 44)

/-- A frame of BEAT_IN. -/
def rawFrame (v rd : Nat) : List Byte :=
  beBytes 2 0xA5C3 ++ (beBytes 8 v ++ beBytes 2 rd) ++ beBytes 2 (crc16 (beBytes 8 v ++ beBytes 2 rd)).toNat

theorem received_of (s : State) (port kind : Nat) (copies : List (List Byte)) (m : List Byte)
    (h : (2 ≤ port ∧ port ≤ 5) ∧ (s.portUp port = true ∧ s.isOpen pgBeat = true) ∧ goodCopy copies = some m ∧ fld m 0 1 = kind) :
    Received s port kind copies m :=
  ⟨h.1.1, h.1.2, h.2.1.1, h.2.1.2, h.2.2.1, h.2.2.2⟩

theorem frame_of (f : List Byte) (b rd : Nat)
    (h : f.length = 14 ∧ fldBE f 0 2 = 0xA5C3 ∧ fldBE f 2 8 = b ∧ fldBE f 10 2 = rd ∧ fldBE f 12 2 = (crc16 ((f.drop 2).take 10)).toNat) :
    Frame f b rd :=
  ⟨h.1, h.2.1, h.2.2.1, h.2.2.2.1, h.2.2.2.2⟩

/-- A report of ATT and SUB. -/
def rawReport (att sub : Nat) : List Byte :=
  sealed (leBytes 1 3 ++ zeros 3 ++ leBytes 1 att ++ zeros 1 ++ leBytes 2 sub ++ zeros 52)

/-- The first copy is damaged; the second is taken. -/
theorem test_meets_Reports : ∀ att ∈ [0, 1], Received (below 0) 3 3 [zeros 64, rawReport att 2, zeros 64] (rawReport att 2)
    ∧ fld (rawReport att 2) 4 1 = att ∧ (below 0).treeCtx = none ∧ fld (rawReport att 2) 8 8 < 2 ^ 56
    ∧ fld (rawReport att 2) 5 1 / 2 % 2 = 0 := by
  intro att ha
  fin_cases ha <;> exact ⟨received_of _ _ _ _ _ (by decide +kernel), by decide +kernel⟩

/-- A report whose BEAT has a bit of its high byte set, and one whose TARGET has. -/
def badReport (target : Bool) : List Byte :=
  sealed (leBytes 1 3 ++ zeros 4 ++ leBytes 1 (if target then 2 else 0) ++ leBytes 2 2 ++ leBytes 8 (if target then 5 else 2 ^ 56)
    ++ leBytes 8 (if target then 2 ^ 56 else 0) ++ zeros 36)

theorem test_meets_BadBeats_reports (target : Bool) : Received (below 0) 3 3 [badReport target] (badReport target)
    ∧ (2 ^ 56 ≤ fld (badReport target) 8 8 ∨ (fld (badReport target) 5 1 / 2 % 2 = 1 ∧ 2 ^ 56 ≤ fld (badReport target) 16 8)) := by
  cases target <;> exact ⟨received_of _ _ _ _ _ (by decide +kernel), by decide +kernel⟩

theorem test_meets_BadBeats_markers : ∀ kind ∈ [1, 2], Received leaf 2 kind [rawMarker kind 700 (2 ^ 56)] (rawMarker kind 700 (2 ^ 56))
    ∧ fld (rawMarker kind 700 (2 ^ 56)) 8 8 / 2 ^ 56 ≠ 0 := by
  intro kind ha
  fin_cases ha <;> exact ⟨received_of _ _ _ _ _ (by decide +kernel), by decide +kernel⟩

theorem test_meets_BadBeats_frame : Frame (rawFrame (2 ^ 56) 500) (2 ^ 56) 500 ∧ (2 : Nat) ^ 56 / 2 ^ 56 ≠ 0
    ∧ (below 0x10000).beatPinen = true ∧ (below 0x10000).isOpen pgBeat = true := ⟨frame_of _ _ _ (by decide +kernel), by decide, by decide +kernel⟩

/-- R305's example, in the field of a marker. -/
theorem test_beat_of_field : Beat.ofNat (fld (rawMarker 1 700 0x1A4B0003) 8 8) = { step := 0x1A4B, phase := 3 } := by decide +kernel

/-- An RD above, at and below UPP's latency; a beat that is new and one in force. -/
theorem test_meets_Markers : ∀ kind ∈ [1, 2], ∀ rd ∈ [599, 600, 601], ∀ v ∈ [0, 0x50003, 2 ^ 56 - 1],
    Received leaf 2 kind [rawMarker kind rd v] (rawMarker kind rd v) ∧ fld (rawMarker kind rd v) 8 8 = v ∧ fld (rawMarker kind rd v) 2 2 = rd
    ∧ leaf.beat.actsrc = 2 ∧ leaf.dnps = [] ∧ leaf.beatOuten = false ∧ leaf.treeCtx = none ∧ leaf.beat.restored = none
    ∧ leaf.beatUplat = 600 ∧ leaf.slotBeat leaf.tslot = Beat.ofNat 0 := by
  intro kind hk rd hr v hv
  fin_cases hk <;> fin_cases hr <;> fin_cases hv <;>
    exact ⟨received_of _ _ _ _ _ (by decide +kernel), by decide +kernel⟩

theorem test_meets_RootRepeat : ({ up with beat := { up.beat with actsrc := 1 } } : State).beat.actsrc = 1 ∧ (below 0x20000).beatOuten = true ∧ (below 0x20000).isOpen pgBeat = true := by
  decide +kernel

/-- Beat (5, 1) waiting on slot 1. -/
def beatWaits : State := { up with beat := { up.beat with next := [(1, { step := 5, phase := 1 })] } }

theorem test_meets_BeatApply : beatWaits.nextBeat 1 = some { step := 5, phase := 1 } ∧ beatWaits.slotCtx 1 = none ∧ beatWaits.beatHeldAt 1 = false
    ∧ beatWaits.isOpen pgBeat = true ∧ ({ upCtx with beat := { up.beat with next := [(0, { step := 5, phase := 0xFFFF })] } } : State).slotCtx 0
      = some (0, ctx0) ∧ ctx0.step = none ∧ upCtx.holdRuns 0 = false := by decide +kernel

/-- A HOLD copy of context 0 runs. -/
def holdS : State :=
  { upCtx with beat := { up.beat with next := [(0, { step := 5, phase := 0xFFFF })] },
               copies := [{ ctx := 0, slot := 0, idx := 0, q := 0, tag := 0, src := 0, dst := 0, len := 64, hold := true, pos := 1, order := 0 }] }

theorem test_meets_BeatApply_hold : holdS.nextBeat 0 = some { step := 5, phase := 0xFFFF } ∧ holdS.slotCtx 0 = some (0, ctx0)
    ∧ holdS.holdRuns 0 = true := by decide +kernel

/-- A worker on BEAT_IN, with PINLAT 0. -/
def pinned (seen : Bool) : State :=
  { below 0x10000 with ports := [], beat := { up.beat with actsrc := 3, pinSeen := seen } }

theorem test_meets_BeatIn : Frame (rawFrame 0x50003 1) 0x50003 1 ∧ (0x50003 : Nat) < 2 ^ 56 ∧ (pinned false).beatPinen = true
    ∧ bits (pinned false).beatCfg 1 0 = 0 ∧ (pinned false).isManager = false ∧ (pinned false).portUp 2 = false
    ∧ (pinned false).treeCtx = none ∧ (pinned false).beat.restored = none ∧ (pinned false).beatPinlat < 1
    ∧ Beat.ofNat 0x50003 ≠ (pinned false).slotBeat (pinned false).tslot ∧ (pinned false).isOpen pgBeat = true :=
  ⟨frame_of _ _ _ (by decide +kernel), by decide +kernel⟩

theorem test_meets_SourceLost : (pinned true).beat.held = false ∧ (pinned true).beat.actsrc = 3
    ∧ ({ leaf with ports := [] } : State).beat.actsrc = 2 ∧ ({ leaf with ports := [] } : State).portUp 2 = false
    ∧ (pinned true).isOpen pgBeat = true := by decide +kernel

/-- A prefetch of 64 bytes of context 0, from and to its stack, waits first in the list with its engine's credit. -/
def pfS : State :=
  { upCtx with
    queues := [(0, ringAt 0x800000000000)]
    prefetch := [{ ctx := 0, slot := 0, idx := 0, q := 0, tag := 1, src := 0x1000, dst := 0x2000, len := 64, sync := 0, need := 0, add := 1,
                   step := 5, late := false, held := [0] }] }

theorem test_meets_Prefetch : ∃ f, pfS.prefetch[0]? = some f ∧ pfS.ctx? f.ctx = some ctx0 ∧ (∀ d ∈ f.dies ctx0, d ∈ f.held)
    ∧ Laid pfS (.desc ctx0) (pfS.queue f.q) [(f.src.toNat, f.len), (f.dst.toNat, f.len)] ∧ syncRef ctx0 0 f.sync.toNat = .package 0 := by
  have hk : bit (blkCords ctx0.block) 0 = true := by decide +kernel
  have hp : Plain pfS (.desc ctx0) (0 * 0x2000000000) ((0 + 1) * 0x2000000000) := plain_stack _ _ 0 (fun _ => hk) (by decide +kernel)
  have hr : ringOff (ringAt 0x800000000000) (0 * 0x2000000000) ((0 + 1) * 0x2000000000) := by
    unfold ringOff
    decide +kernel
  exact ⟨_, rfl, by decide +kernel, by decide +kernel, hp.laid (by decide +kernel) hr hr, by decide +kernel⟩

/-- An activation in progress, with and without a held beat. -/
def actS (h : Option Nat) : State := { up with fw := { up.fw with activating := some { hold := h, fired := none } } }

theorem test_meets_NewFirmware : (∃ a : Activation, (actS none).fw.activating = some a ∧ a.hold = none)
    ∧ ∃ a : Activation, (actS (some 3)).fw.activating = some a ∧ a.hold = some 3 :=
  ⟨⟨_, rfl, rfl⟩, ⟨_, rfl, rfl⟩⟩

/-- A held beat of slot 3, off TSLOT, is the package's own after the restart. -/
theorem test_meets_NewFirmware_slot :
    (((actS (some 3)).newFirmware.actEvent { hold := some 3, fired := none } .done 0).pollAll).ownSlot 3 = true := by decide +kernel

/-- The rows of Table 12.2, and a forced source. -/
theorem test_meets_BeatSource : bits (below 2).beatCfg 1 0 ≠ 0 ∧ bits (below 0).beatCfg 1 0 = 0
    ∧ ({ up with ember := { up.ember with straps := 0x1E4 } } : State).isManager = true ∧ (below 0).isManager = false
    ∧ (below 0).portUp 2 = true ∧ (pinned true).portUp 2 = false ∧ (pinned true).beatPinen = true ∧ (pinned true).beat.pinSeen = true
    ∧ bits (pinned true).beatCfg 1 0 = 0 ∧ (pinned false).beat.pinSeen = false := by decide +kernel

/-! Draught (R323 to R338). -/

/-- Die stores that hold all of the budget but `left` credits. -/
def drawn (left : Nat) : State := { up with drt := { up.drt with dieFree := [(5, 207220 - left)] } }

theorem drawn_limits : up.budget = 270000 ∧ up.committed = 62780 ∧ up.maxBudget = 270000 ∧ (drawn 15).committed = 269985 := by decide +kernel

/-- A chunk of 256 down to 16 credits, less than 16 left, and none left. -/
theorem test_meets_Chunk : (drawn 256).chunk 0 = some 256 ∧ (drawn 255).chunk 0 = some 255 ∧ (drawn 16).chunk 0 = some 16
    ∧ (drawn 15).chunk 0 = none ∧ (drawn 0).chunk 71 = none := by decide +kernel

/-- A DMA descriptor of die 0 that needs one credit. -/
def copyD : List Byte := desc 8 1 3 [(16, 6, 0x20000), (22, 6, 0x30000), (28, 6, 64)]

/-- `s` with that descriptor at the head of its window and its request alone at die store 0. -/
def asks (s : State) : State :=
  { s with ctxs := [(0, some ctxX)], engines := [(dma0, { Engine.empty with win := [entry0 copyD 0] })],
           drt := { s.drt with dieQ := [(0, [.dma { u := dma0, addr := (entry0 copyD 0).addr, group := none }])] } }

theorem test_meets_ChunkRequest : ∀ left ∈ [256, 16], (asks (drawn left)).ready = true ∧ (asks (drawn left)).hasDie 0 = true
    ∧ (asks (drawn left)).dieShort 0 = true ∧ (asks (drawn left)).isOpen pgDrt = true
    ∧ (asks (drawn left)).drt.waiting = [] ∧ (asks (drawn left)).drt.domWait = []
    ∧ (((asks (drawn left)).setDrt { (asks (drawn left)).drt with waiting := [0] }).chunk 0).isSome = true := by
  intro left hl
  fin_cases hl <;> decide +kernel

/-- A store without a request, and one whose request it can serve. -/
theorem test_meets_ChunkRequest_idle : up.dieShort 0 = false
    ∧ ({ asks up with drt := { (asks up).drt with dieFree := [(0, 16)] } } : State).dieShort 0 = false := by decide +kernel

/-- The same out of credit: in recovery; with surges off; with a surge that opens. -/
def short (rcv sen : Bool) : State := asks { drawn 15 with drt := { (drawn 15).drt with rcv := rcv, sen := sen } }

theorem test_meets_ChunkRequest_waits : ∀ p ∈ [(true, true), (true, false), (false, false), (false, true)], (short p.1 p.2).ready = true
    ∧ (short p.1 p.2).dieShort 0 = true ∧ (short p.1 p.2).isOpen pgDrt = true ∧ (short p.1 p.2).hasDie 0 = true
    ∧ ((short p.1 p.2).setDrt { (short p.1 p.2).drt with waiting := [0] }).chunk 0 = none ∧ (short p.1 p.2).drt.act = false
    ∧ (short p.1 p.2).drt.owed = false ∧ (short p.1 p.2).drt.rcv = p.1 ∧ (short p.1 p.2).drt.sen = p.2 := by
  intro p hp
  fin_cases hp <;> decide +kernel

/-- In the surge that opens: a chunk where LIM is above B, none where it is B. -/
def surged (s : State) : State :=
  ((s.setDrt { s.drt with waiting := [0] }).setDrt { (s.setDrt { s.drt with waiting := [0] }).drt with act := true }).count pgDrt 3 1

theorem test_meets_ChunkRequest_surge : ((surged (short false true)).chunk 0).isSome = true
    ∧ (surged { short false true with drt := { (short false true).drt with lim := some 0 } }).chunk 0 = none := by decide +kernel

/-- Chunks below and above what a die store keeps. -/
theorem test_meets_ChunkGrant : ∀ n ∈ [512, 513], ∀ h < 48,
    SMap.get ({ up with drt := { up.drt with inflight := [(0, n)] } } : State).drt.poolFree 0 (0 * 48 + h)
      ≤ ({ up with drt := { up.drt with inflight := [(0, n)] } } : State).poolCap := by decide +kernel

/-- An FTA descriptor without credits; its request waits at pool 0, the store of its die holds `n` credits, the pool `k`. -/
def poor (n k : Nat) : State :=
  { onEng ctxX (unitOf 1) (ftaD 1 false false) 0 with
    drt := { up.drt with dieFree := [(0, n)], poolFree := [(0, k)],
                         poolQ := [(0, [{ u := unitOf 1, addr := (entry0 (ftaD 1 false false) 0).addr, group := none }])] } }

/-- A die store at and below the 16 credits that a pool draws; a pool whose request it can meet. -/
theorem test_meets_HearthPoolDraw : (poor 16 0).ready = true ∧ (poor 16 0).poolShort 0 = true
    ∧ (queued ((poor 16 0).dieReqs 0) (.pool 0)).head? = some (.pool 0) ∧ (16 : Nat) ≤ SMap.get (poor 16 0).drt.dieFree 0 (0 / 48)
    ∧ SMap.get (poor 16 0).drt.dieFree 0 (0 / 48) ≤ (poor 16 0).dieCap
    ∧ (∀ k < 48, SMap.get (poor 16 0).drt.poolFree 0 (0 / 48 * 48 + k) ≤ (poor 16 0).poolCap)
    ∧ SMap.get (poor 16 0).drt.poolFree 0 0 + 16 ≤ (poor 16 0).poolCap ∧ (poor 15 0).poolShort 0 = true
    ∧ SMap.get (poor 15 0).drt.dieFree 0 (0 / 48) < 16 ∧ (poor 16 1).poolShort 0 = false := by decide +kernel

def poorReq : CreditReq := { u := unitOf 1, addr := (entry0 (ftaD 1 false false) 0).addr, group := none }

/-- The pool holds the credit it needs, and does not. -/
theorem test_meets_EngineCredit : ∀ k ∈ [0, 1], (poor 0 k).unit (unitOf 1) = some (engU 1)
    ∧ (poor 0 k).entry? (unitOf 1) 0 = some (entry0 (ftaD 1 false false) 0)
    ∧ (poor 0 k).ctx? 0 = some ctxX ∧ (poor 0 k).ready = true
    ∧ (poor 0 k).headDue (unitOf 1) 0 ctxX (entry0 (ftaD 1 false false) 0) = true
    ∧ (poor 0 k).need ctxX (entry0 (ftaD 1 false false) 0) = 1 ∧ (poor 0 k).freeCredits (engU 1) = k
    ∧ ((poor 0 k).enqueue (engU 1) poorReq).2 = true := by
  intro k hk
  fin_cases hk <;> decide +kernel

/-- An FTA descriptor that runs, group 2 holding a credit; group 0 has a pass to run, group 7 has none. -/
def poorE : Entry :=
  { ftaE false 0 with prog := { (ftaE false 0).prog with held := [2] } }

def poorRun : State :=
  { ftaRun false 0 with engines := [(unitOf 1, { Engine.empty with win := [poorE] })], drt := { up.drt with poolFree := [(0, 1)] } }

theorem test_meets_EngineCredit_group : poorRun.unit (unitOf 1) = some (engU 1) ∧ poorRun.entry? (unitOf 1) 0 = some poorE
    ∧ poorRun.ctx? poorE.ctx = some ctxX ∧ poorE.started = true ∧ poorE.ended = none ∧ poorE.perPass = 1
    ∧ poorRun.freeCredits (engU 1) = 1 ∧ 0 ∉ poorE.prog.held ∧ 7 ∉ poorE.prog.held ∧ poorRun.ready = true
    ∧ poorRun.passDue (engU 1) ctxX poorE 0 = true ∧ poorRun.passDue (engU 1) ctxX poorE 7 = false
    ∧ (poorRun.enqueue (engU 1) { u := unitOf 1, addr := poorE.addr, group := some 0 }).2 = true := by decide +kernel

/-- A prefetch of context 0 that wants the credit of DMA engine 7 of die 0. -/
def fetch0 : Prefetch :=
  { ctx := 0, slot := 0, idx := 0, q := 0, tag := 0, src := 0x20000, dst := 0x30000, len := 64, sync := 0xFFFF, need := 0xFFFF, add := 0,
    step := 0, late := false, held := [] }

def fetching : State := { upCtx with prefetch := [fetch0], drt := { up.drt with dieFree := [(0, 1)] } }

theorem test_meets_EngineCredit_prefetch :
    fetching.unit (diePage 0 8) = some { die := 0, g := 0, eng := 8, inst := 7 } ∧ fetching.ready = true
    ∧ fetching.entry? (diePage 0 8) (0 + 8) = none ∧ fetching.prefetch[0]? = some fetch0 ∧ fetching.prefetchDue 0 fetch0 = true
    ∧ (fetching.enqueue { die := 0, g := 0, eng := 8, inst := 7 } { u := diePage 0 8, addr := 0x30000, group := some prefetchGroup }).2 = true
    ∧ fetching.freeCredits { die := 0, g := 0, eng := 8, inst := 7 } = 1 := by decide +kernel

theorem test_meets_CreditReturn : up.isOpen pgDrt = true ∧ up.drt.act = false ∧ up.drt.owed = false ∧ up.drt.waiting = []
    ∧ up.drt.domWait = [] ∧ up.dieSlot 0 = none := by
  decide +kernel

theorem test_meets_RecoveryEnd : up.drt.waiting = [] ∧ ({ up with drt := { up.drt with waiting := [0] } } : State).drt.waiting ≠ [] := by
  decide +kernel

/-- Samples at and above 1.05 times the sensor's limit, in the ninth and the tenth of a run. -/
theorem test_meets_Sensor : up.isOpen pgDrt = true ∧ (100 * 105 * up.sensorLimit / 100 = 105 * up.sensorLimit)
    ∧ ((105 * up.sensorLimit / 100 : Nat) * 100 ≤ 105 * up.sensorLimit)
    ∧ 105 * up.sensorLimit < (105 * up.sensorLimit / 100 + 1) * 100 ∧ 105 * up.sensorLimit / 100 + 1 < 2 ^ 20
    ∧ up.drt.overRun < 9 := by decide +kernel

theorem test_meets_DraughtTimeout : (poor 0 0).entry? (unitOf 1) 0 = some (entry0 (ftaD 1 false false) 0)
    ∧ 0 < (poor 0 0).entryWants (engU 1) (unitOf 1) 0 (entry0 (ftaD 1 false false) 0) none
    ∧ 0 < poorRun.entryWants (engU 1) (unitOf 1) 0 poorE (some 0) ∧ (entry0 (ftaD 1 false false) 0).tmo = false
    ∧ bits ((poor 0 0).cfg pgDrt 0x108 1000).toNat 15 0 ≠ 0 := by decide +kernel

/-! Registers: a 4-byte write lands. -/

def landsB (s : State) (prv : Priv) (pg off v : Nat) : Bool :=
  match s.reach prv (pageAddr pg + off) 4 true v with
  | .ok (p, _, o) => decide (p = pg ∧ o = off)
  | .error _ => false

theorem lands_ex {s : State} {prv : Priv} {pg off v : Nat} (h : landsB s prv pg off v = true) : ∃ i, Lands s prv pg off v i := by
  unfold landsB at h
  split at h
  · rename_i p i o he
    simp only [decide_eq_true_eq] at h
    obtain ⟨rfl, rfl⟩ := h
    exact ⟨i, he⟩
  · simp at h

def readsB (s : State) (prv : Priv) (pg off : Nat) : Bool :=
  match s.reach prv (pageAddr pg + off) 4 false 0 with
  | .ok (p, _, o) => decide (p = pg ∧ o = off)
  | .error _ => false

theorem reads_ex {s : State} {prv : Priv} {pg off : Nat} (h : readsB s prv pg off = true) :
    ∃ i, s.reach prv (pageAddr pg + off) 4 false 0 = .ok (pg, i, off) := by
  unfold readsB at h
  split at h
  · rename_i p i o he
    simp only [decide_eq_true_eq] at h
    obtain ⟨rfl, rfl⟩ := h
    exact ⟨i, he⟩
  · simp at h

/-- `s` with page `pg` as given. -/
def onPage (s : State) (pg : Nat) (p : Page) : State := { s with pages := [(pg, p)] }

def unlocked : Page := { Page.reset with unl := true }

theorem test_meets_DrtBudget : ∀ v ∈ [0, 99999, 100000, 270000, 270001, 0xFFFFFFFF], ∃ i, Lands up .s pgDrt 0x100 v i := by
  intro v hv
  fin_cases hv <;> exact lands_ex (by decide +kernel)

theorem test_meets_DrtSurge : ∀ v ∈ [0x80000000, 270000, 320000, 320001], ∃ i, Lands up .s pgDrt 0x104 v i := by
  intro v hv
  fin_cases hv <;> exact lands_ex (by decide +kernel)

/-- A floor of 190,836 credits leaves just 16,384; slot 0 with a context and slot 23 without. -/
theorem test_meets_DrtPrsv : (∃ i, Lands (onPage upCtx pgDrt unlocked) .s pgDrt 0x800 (0x80000000 + 131071) i)
    ∧ (∃ i, Lands (onPage upCtx pgDrt unlocked) .s pgDrt (0x800 + 4 * 23) (0x80000000 + 131071) i)
    ∧ ((onPage upCtx pgDrt unlocked).page pgDrt).unl = true ∧ ((onPage upCtx pgDrt unlocked).page pgDrt).pinj = false
    ∧ (onPage upCtx pgDrt unlocked).slotCtx 23 = none ∧ (onPage upCtx pgDrt unlocked).slotCtx 0 = some (0, ctx0)
    ∧ (onPage upCtx pgDrt unlocked).floors - (onPage upCtx pgDrt unlocked).floor 0 + (0x80000000 + 131071) % 2 ^ 17
        + (onPage upCtx pgDrt unlocked).drtBase + 16384 ≤ (onPage upCtx pgDrt unlocked).budget := by
  refine ⟨lands_ex (by decide +kernel), lands_ex (by decide +kernel), by decide +kernel⟩

theorem test_meets_StrapBudget : up.drt.budget = none ∧ up.small = false
    ∧ ({ up with fuses := { up.fuses with part := 0x9148 } } : State).small = true := by decide +kernel

/-- The first and the last line of a stack: without an error, one that the code corrects, one it only detects. -/
theorem test_meets_ScrubberVisit : (0 : Nat) < up.nCords ∧ (23 : Nat) < up.nCords ∧ stackLines - 1 < stackLines
    ∧ up.placeUp (.stack 0) = true ∧ up.placeUp (.stack 23) = true ∧ up.ready = true
    ∧ (up.cfg (pgStk 0) 0x100 0x80000018).getLsbD 31 = true ∧ (0 * 2 ^ 37 + 64 * 0 ∉ (up.upset 0 [0]).ue)
    ∧ (up.upset 0 [0]).place (0 * 2 ^ 37 + 64 * 0) = .stack 0
    ∧ SMap.get (up.upset 0 [0]).errs [] 0 = [0] ∧ 0 * 2 ^ 37 + 64 * 0 ∈ (up.upset 0 (List.range 17)).ue := by decide +kernel

/-! Registers of the pages (R363 to R386), of their blocks, freeze and trace. -/

/-- The manager's page 0: an ordinary page that passes the checks of its identity. -/
theorem test_meets_Identify : ∃ i, up.pageInfo (hearthPage 47 1) = some i ∧ i.blk < 256 ∧ i.die < 256 ∧ (∀ h, i.hearth = some h → h < 48)
    ∧ i.inst < 256 ∧ up.latched (hearthPage 47 1) 0 = none ∧ up.latched (hearthPage 47 1) 4 = none ∧ i.hearth = some 47 := by
  obtain ⟨i, hi⟩ : ∃ i, up.pageInfo (hearthPage 47 1) = some i := some_ex (by decide +kernel)
  have hb : (up.pageInfo (hearthPage 47 1)).all (fun i => decide (i.blk < 256 ∧ i.die < 256 ∧ i.inst < 256 ∧ i.hearth = some 47)) = true := by
    decide +kernel
  rw [hi] at hb
  simp only [Option.all_some, decide_eq_true_eq] at hb
  refine ⟨i, hi, hb.1, hb.2.1, fun h hh => ?_, hb.2.2.1, by decide +kernel, by decide +kernel, hb.2.2.2⟩
  rw [hb.2.2.2] at hh
  simp only [Option.some.injEq] at hh
  omega

theorem test_meets_PageWithoutHearth : (up.pageInfo pgMgr).map (fun i => i.hearth) = some none := by decide +kernel

/-- Both keys and another value; ARM set and clear. -/
theorem test_meets_Lock : (∀ v ∈ [0x5A5A, 0xA5A5, 0, 0x15A5A], ∃ i, Lands up .s pgMgr 0x00C v i)
    ∧ (∃ i, Lands (onPage up pgMgr { Page.reset with arm := true }) .m pgMgr 0x00C 0xA5A5 i) := by
  refine ⟨fun v hv => ?_, lands_ex (by decide +kernel)⟩
  fin_cases hv <;> exact lands_ex (by decide +kernel)

theorem test_meets_CommonRegisters : (∃ i, Lands up .s pgMgr 0x010 1 i) ∧ (∃ i, Lands up .s pgMgr 0x010 0x100 i)
    ∧ (∃ i, Lands up .s pgMgr 0x010 0x80000000 i) ∧ pgMgr ∉ up.rst.blocks ∧ (∃ i, Lands up .s pgMgr 0x018 0x80000000 i)
    ∧ (∃ i, Lands up .s pgMgr 0x020 0x3F i) ∧ ∀ v ∈ [0x80000004, 0x80000005, 3], ∃ i, Lands up .s pgMgr 0x080 v i := by
  refine ⟨lands_ex (by decide +kernel), lands_ex (by decide +kernel), lands_ex (by decide +kernel), by decide +kernel,
    lands_ex (by decide +kernel), lands_ex (by decide +kernel), fun v hv => ?_⟩
  fin_cases hv <;> exact lands_ex (by decide +kernel)

/-- A snapshot request of the page alone waits. -/
theorem test_meets_SnapshotCapture : ({ up with snapQ := [(pgMgr, 0)] } : State).snapQ = (pgMgr, 0) :: [] := rfl

/-- Pages whose domain is active, and one whose hearth domain is off. -/
theorem test_meets_Capture : (∃ i, up.pageInfo pgMgr = some i ∧ up.active i.dom = true)
    ∧ ∃ i, State.reset.pageInfo pgMgr = some i ∧ State.reset.active i.dom = false := by
  constructor
  · obtain ⟨i, hi⟩ : ∃ i, up.pageInfo pgMgr = some i := some_ex (by decide +kernel)
    have hb : (up.pageInfo pgMgr).all (fun i => up.active i.dom) = true := by decide +kernel
    rw [hi] at hb
    exact ⟨i, hi, by simpa using hb⟩
  · obtain ⟨i, hi⟩ : ∃ i, State.reset.pageInfo pgMgr = some i := some_ex (by decide +kernel)
    have hb : (State.reset.pageInfo pgMgr).all (fun i => !State.reset.active i.dom) = true := by decide +kernel
    rw [hi] at hb
    exact ⟨i, hi, by simpa using hb⟩

/-- Words that match, a mismatch that no scan has found, one beside an error on record, one found already. -/
def parPages : List Page :=
  [Page.reset, { Page.reset with badPar := [0x100] },
    { Page.reset with badPar := [0x100], err := { v := true, more := false, code := eBusErr, off := 0x104 } },
    { Page.reset with badPar := [0x100], found := [0x100] }]

/-- A page whose block takes descriptors, one whose block does not, and a manager page that keeps words of its own. -/
theorem test_meets_ParityScan : (∀ pg ∈ [hearthPage 0 1, hearthPage 0 0, pgDrt], ∀ p ∈ parPages,
      ((onPage up pg p).pageInfo pg).any (fun i => (onPage up pg p).active i.dom && !(onPage up pg p).blkHeld pg i) = true)
    ∧ parPages.map Page.newBad = [[], [0x100], [0x100], []]
    ∧ up.takesDesc (hearthPage 0 1) = true
    ∧ (up.pageInfo (hearthPage 0 0)).any (fun i => decide (i.blk ∉ [0x01, 0x0E, 0x0F, 0x11, 0x12, 0x14])) = true
    ∧ ((up.pageInfo (hearthPage 0 1)).bind fun i => up.protDef i 0x800).isSome = true
    ∧ up.drt.act = false ∧ up.drt.owed = false ∧ up.drt.waiting = [] ∧ up.drt.domWait = [] := by decide +kernel

/-- The live and the holding copy of counter 0 of the beat page. -/
theorem test_meets_CounterLow : ∀ off ∈ [0xC00, 0xC08], (∃ i, up.reach .s (pageAddr pgBeat + off) 4 false 0 = .ok (pgBeat, i, off))
    ∧ off % 8 = 0 ∧ (∃ x, (up.pageInfo pgBeat).bind (fun i => cntAt i off) = some x) ∧ up.latched pgBeat off = none := by
  intro off ho
  fin_cases ho <;> exact ⟨reads_ex (by decide +kernel), by decide, some_ex (by decide +kernel), by decide +kernel⟩

theorem test_meets_BeatSlotLow : ∀ k ∈ [0, 23], k < up.nCords
    ∧ (∃ i, up.reach .s (pageAddr pgBeat + (0x200 + 8 * k)) 4 false 0 = .ok (pgBeat, i, 0x200 + 8 * k))
    ∧ up.latched pgBeat (0x200 + 8 * k) = none := by
  intro k hk
  fin_cases hk <;> exact ⟨by decide +kernel, reads_ex (by decide +kernel), by decide +kernel⟩

/-- The low words 0x104, 0x110 and 0x280 of a trace unit. -/
theorem test_meets_TrcLow : ∀ off ∈ [0x104, 0x110, 0x280], (∃ i, up.reach .s (pageAddr pgTrcMgr + off) 4 false 0 = .ok (pgTrcMgr, i, off))
    ∧ (up.pageInfo pgTrcMgr).all (fun i => decide (i.blk = 0x15) && (match pairHi i off with
        | some hi => (up.regDef i off).isSome && (up.regDef i hi).isSome
        | none => false)) = true ∧ up.latched pgTrcMgr off = none := by
  intro off ho
  fin_cases ho <;> exact ⟨reads_ex (by decide +kernel), by decide +kernel, by decide +kernel⟩

theorem test_meets_ReadLatched : ((onPage up pgBeat { Page.reset with latch := some (0xC04, 9) }).page pgBeat).latch = some (0xC04, 9) := by
  decide +kernel

/-- An address below every page, and one of an absent page; sizes that are none; a counter; registers on an open and a locked page. -/
theorem test_meets_RegisterWrite : (∃ t, up.reach .s 0x1000 4 true 0 = .error t) ∧ (∃ t, State.reset.reach .s (pageAddr pgMgr + 0x120) 4 true 0 = .error t)
    ∧ (∃ i, Lands up .s pgBeat 0xC00 5 i) ∧ (∃ i, Lands up .s pgBeat 0x100 0 i) ∧ (∃ i, Lands up .s pgBeat 0x200 0 i)
    ∧ (∃ i, Lands (onPage up pgBeat unlocked) .s pgBeat 0x200 0 i) ∧ (up.page pgBeat).unl = false
    ∧ ((up.pageInfo pgBeat).bind (fun i => up.regDef i 0x100)).any (fun d => decide (d.rwx = 0)) = true
    ∧ ((up.pageInfo pgBeat).bind (fun i => up.regDef i 0x200)).any (fun d => decide (d.rwx ≠ 0)) = true
    ∧ (∃ i, Lands (onPage up (hearthPage 0 6) unlocked) .s (hearthPage 0 6) 0x100 0x10 i)
    ∧ (up.pageInfo (hearthPage 0 6)).any (fun i => decide (i.blk = 0x06)
        && (up.regDef i 0x100).any fun d => decide (d.rw + d.rwx ≠ 0)) = true
    ∧ ((onPage up (hearthPage 0 6) unlocked).page (hearthPage 0 6)).pinj = false := by
  refine ⟨⟨_, rfl⟩, ?_, lands_ex (by decide +kernel), lands_ex (by decide +kernel), lands_ex (by decide +kernel), lands_ex (by decide +kernel),
    by decide +kernel, by decide +kernel, by decide +kernel, lands_ex (by decide +kernel), by decide +kernel, by decide +kernel⟩
  have h : (State.reset.reach .s (pageAddr pgMgr + 0x120) 4 true 0).toBool = false := by decide +kernel
  cases hx : State.reset.reach .s (pageAddr pgMgr + 0x120) 4 true 0 with
  | error t => exact ⟨t, rfl⟩
  | ok a => rw [hx] at h; simp [Except.toBool] at h

/-- Domain `k` in idle banking. -/
def resting (k : Nat) : State := { up with doms := [(k, { req := 2, state := 2, busy := false })] }

/-- The admin queue enabled where it is not, where it is, and disabled with and without commands; LOG2 at both ends. -/
def aqS (q : Queue) : State :=
  { onPage up pgMgr { Page.reset with cfg := [(0x104, 0x8000), (0x10C, 0x8000), (0x114, 0x8000), (0x11C, 0x8000)] } with queues := [(0, q)] }

theorem test_meets_AqCfg : (∀ v ∈ [0x80000044, 0x800000CC, 0], ∃ i, Lands (aqS Queue.none) .s pgMgr 0x120 v i)
    ∧ (∀ v ∈ [0x80000044, 0x800000CC, 0], ∃ i, Lands (aqS (ringAt 0x800000000000)) .s pgMgr 0x120 v i)
    ∧ (∃ i, Lands (aqS { ringAt 0x800000000000 with cmds := [cmd0 (zeros 64)] }) .s pgMgr 0x120 0 i)
    ∧ ((aqS Queue.none).queue 0).live = false ∧ ((aqS (ringAt 0x800000000000)).queue 0).live = true
    ∧ (∀ k < 4, hostAligned (((aqS Queue.none).cfg pgMgr (0x100 + 8 * k) 0).toNat + ((aqS Queue.none).cfg pgMgr (0x104 + 8 * k) 0).toNat * 2 ^ 32) = true)
    ∧ 4 ≤ bits 0x80000044 7 4 ∧ bits 0x80000044 7 4 ≤ 12 ∧ bits 0x800000CC 7 4 ≤ 12 ∧ 4 ≤ bits 0x800000CC 3 0 ∧ bits 0x800000CC 3 0 ≤ 12 := by
  refine ⟨fun v hv => ?_, fun v hv => ?_, lands_ex (by decide +kernel), by decide +kernel⟩ <;>
  · fin_cases hv <;> exact lands_ex (by decide +kernel)

/-- Slots 1 and 23, either half, on the root. -/
def rootS : State := { onPage up pgBeat unlocked with beat := { up.beat with actsrc := 1 } }

theorem test_meets_BeatSlotWrite : ∀ p ∈ [(1, false), (1, true), (23, false), (23, true)],
    p.1 < rootS.nCords ∧ (∃ i, Lands rootS .m pgBeat (0x200 + 8 * p.1 + if p.2 then 4 else 0) 0x00FF0007 i) ∧ (rootS.page pgBeat).unl = true
    ∧ rootS.slotCtx p.1 = none ∧ rootS.beat.actsrc = 1 ∧ p.1 ≠ rootS.tslot ∧ rootS.nextBeat p.1 = none := by
  intro p hp
  fin_cases hp <;> exact ⟨by decide +kernel, lands_ex (by decide +kernel), by decide +kernel⟩

/-- A raise within the draught, a lowering, a request that R394 forbids, and the reserved value. -/
theorem test_meets_DomWrite : (∀ v ∈ [1, 2, 3], ∃ i, Lands (resting 0) .s pgPwr 0x200 v i) ∧ (∃ i, Lands up .s pgPwr (0x200 + 4 * 289) 2 i)
    ∧ (∃ i, Lands up .s pgPwr (0x200 + 4 * 1) 2 i)
    ∧ (resting 0).domReqOk 0 1 = true ∧ up.domReqOk 1 2 = false ∧ ((resting 0).dom 0).busy = false
    ∧ domRank ((resting 0).dom 0).state < domRank 1 ∧ (resting 0).drt.domWait = []
    ∧ (resting 0).committed + (domDraw 0 1 - domDraw 0 ((resting 0).dom 0).state) ≤ (resting 0).drtLimit := by
  refine ⟨fun v hv => ?_, lands_ex (by decide +kernel), lands_ex (by decide +kernel), by decide +kernel⟩
  fin_cases hv <;> exact lands_ex (by decide +kernel)

/-- Cords without an owner, and none; a free die, one of a live context, and one that is none. -/
theorem test_meets_ResetRegisters : (∀ v ∈ [0, 1, 0x800000], ∃ i, Lands up .m pgRst 0x108 (v ||| 2 ^ 31) i)
    ∧ (∀ d ∈ [0, 71, 96], ∃ i, Lands upCtx .m pgRst 0x10C (d ||| 2 ^ 31) i)
    ∧ (∃ i, Lands up .m pgRst 0x114 0x5A5A i) ∧ (∃ i, Lands up .m pgRst 0x114 0x6B1C i) ∧ (∃ i, Lands up .m pgRst 0x174 1 i)
    ∧ up.supply.vstbyGood = true ∧ cordsOf 0 = [] ∧ cordsOf 1 = [0] ∧ up.liveCtxs = [] ∧ upCtx.hasDie 71 = true
    ∧ (dieCord 0).bind upCtx.cordCtx = some (0, ctx0) ∧ (dieCord 71).bind upCtx.cordCtx = none := by
  refine ⟨fun v hv => ?_, fun d hd => ?_, lands_ex (by decide +kernel), lands_ex (by decide +kernel), lands_ex (by decide +kernel),
    by decide +kernel⟩
  · fin_cases hv <;> exact lands_ex (by decide +kernel)
  · fin_cases hd <;> exact lands_ex (by decide +kernel)

/-- Ports enabled, disabled and retrained; UPP on the manager. -/
def mgrUp : State := { up with ember := { up.ember with straps := 0x1E4 } }

/-- `b` on every page of a port, 0 to 5. -/
def onPorts (b : Nat → Nat → Bool) : Bool := (List.range 6).all fun p => b p (if p < 2 then pgHlk p else portPage p)

theorem test_meets_PortCfg : (∀ v ∈ [0, 1], onPorts (fun _ pg => landsB up .s pg 0x104 v && !(up.page pg).pinj) = true)
    ∧ landsB mgrUp .s (portPage 2) 0x104 1 = true ∧ up.isManager = false ∧ mgrUp.isManager = true
    ∧ onPorts (fun p pg => landsB up .s pg 0x104 (2 ^ 31 + up.held? pg 0x104 1) && decide (up.held? pg 0x104 1 < 2 ^ 31)
        && decide (up.held? pg 0x104 1 % 2 = 1) && up.active (portDom p)) = true
    ∧ up.linksUp = true ∧ (up.port 0).tstate = 5 ∧ (up.port 2).tstate = 0 := by
  decide +kernel

/-- A port that trains. -/
theorem test_meets_PortRetrain : (({ up with ports := [(2, { Port.reset with tstate := 3 })] } : State).port 2).tstate = 3 := by decide +kernel

theorem test_meets_SvcFw : up.held? pgSvc 0x104 3 < 2 ^ 31 ∧ (∃ i, Lands up .s pgSvc 0x104 (2 ^ 31 + up.held? pgSvc 0x104 3) i)
    ∧ (∀ v ∈ [1, 2, 4], ∃ i, Lands up .s pgFw 0x10C v i) ∧ up.isHead = false
    ∧ ({ up with ember := { up.ember with straps := 0x1E2 } } : State).isHead = true ∧ up.fw.trial = false ∧ up.fw.activating = none
    ∧ ({ up with fw := { up.fw with trial := true } } : State).fw.trial = true ∧ up.staging = false
    ∧ ({ up with fw := { up.fw with sstate := 1 } } : State).staging = true := by
  refine ⟨by decide +kernel, lands_ex (by decide +kernel), fun v hv => ?_, by decide +kernel⟩
  fin_cases hv <;> exact lands_ex (by decide +kernel)

/-- Package and slot commands at both ends of the slots, frozen already and not. -/
def frozen : State := { up with freeze := [(24, { v := true, more := false, src := 2, err := 0, beat := Beat.zero })] }

theorem test_meets_Freeze : ∀ s ∈ [up, frozen], ∀ v ∈ [(0 : Nat), 23], v < 2 ^ 28 ∧ v % 32 < s.nCords
    ∧ ∀ k ∈ [31, 30, 29, 28], ∃ i, Lands s .s pgTrcMgr 0x140 (v ||| 2 ^ k) i := by
  intro s hs v hv
  fin_cases hs <;> fin_cases hv <;> refine ⟨by decide, by decide +kernel, fun k hk => ?_⟩ <;>
  · fin_cases hk <;> exact lands_ex (by decide +kernel)

theorem test_meets_FrozenStates : (up.fz 24).v = false ∧ (frozen.fz 24).v = true
    ∧ ((onPage up pgTrcMgr { Page.reset with cfg := [(0x140, 0x08000000)] }).cfg pgTrcMgr 0x140 0).getLsbD 27 = true := by decide +kernel

/-- A trace unit off, with a ring of 2^16 bytes at address 0 of stack 0; the same enabled. -/
theorem test_meets_TrcCtl : (∃ i, Lands up .s (pgTrc 0) 0x100 0x80000000 i) ∧ (up.hasTrc 0 = true ∧ up.hasTrc 99 = true
    ∧ bit (up.trcCtl 0) 31 = false ∧ 16 ≤ up.trcLog2 0 ∧ up.trcLog2 0 ≤ 32 ∧ up.trcRegionOk 0 = true)
    ∧ (∃ i, Lands (onPage up (pgTrc 0) { Page.reset with cfg := [(0x100, 0x80000000)] }) .s (pgTrc 0) 0x100 0 i)
    ∧ bit ((onPage up (pgTrc 0) { Page.reset with cfg := [(0x100, 0x80000000)] }).trcCtl 0) 31 = true := by
  exact ⟨lands_ex (by decide +kernel), by decide +kernel, lands_ex (by decide +kernel), by decide +kernel⟩

/-- Two records in the buffer; a ring whose last line they fill under STOP, and one that goes on. -/
theorem test_meets_TraceLine : up.hasTrc 0 = true ∧ up.isOpen (pgTrc 0) = true ∧ ∀ w ∈ [0, 2046],
    (({ up with trc := [(0, { wptr := w, full := false, buf := [zeros 32, zeros 32], lost := 0 })] } : State).trcUnit 0).buf = [zeros 32, zeros 32] := by
  decide +kernel

/-! Supplies, kindling, resets and domains (R387 to R415, R451). -/

/-- Unpowered but for the supplies given, kindling in phase `p`. -/
def inK (p : Nat) (vin vst : Bool) : State :=
  { State.reset with supply := { State.reset.supply with vinGood := vin, vstbyGood := vst }
                     kind := { State.reset.kind with phase := p, cold := true }
                     ember := { State.reset.ember with straps := 0x1E0 } }

/-- Cause 0 asserted since VIN56 was lost. -/
def vinLost : State := { inK 1 false true with rst := { Rst.reset with asserted := [wideSource 0 0], latch := some 0, causes := 1 } }

/-- VSTBY away, the pins as they are and REFCLK there. -/
def dark (pins : Bool) : State :=
  { inK 0 false false with pins := { State.reset.pins with rstn := pins, wrstn := true, refclk := true } }

theorem test_meets_VstbyReturns : (dark true).supply.vstbyGood = false ∧ (dark true).pins.rstn = true ∧ (dark true).pins.wrstn = true
    ∧ (dark true).pins.refclk = true ∧ (dark false).pins.rstn = false := by decide +kernel

theorem test_meets_Supplies : (∀ x ∈ (inK 1 false true).rst.asserted, x.cause ≠ 0) ∧ vinLost.rst.asserted = [wideSource 0 0]
    ∧ vinLost.rst.latch = some 0 ∧ up.supply.vinGood = true ∧ up.supply.vstbyGood = true
    ∧ (4600 : BitVec 16).toNat = 4600 ∧ (6200 : BitVec 16).toNat = 6200 ∧ (6201 : BitVec 16).toNat = 6201 ∧ (4399 : BitVec 16).toNat = 4399
    ∧ (4400 : BitVec 16).toNat = 4400 ∧ (4599 : BitVec 16).toNat = 4599 ∧ (3100 : BitVec 12).toNat = 3100 ∧ (3099 : BitVec 12).toNat = 3099
    ∧ (3000 : BitVec 12).toNat = 3000 ∧ (2999 : BitVec 12).toNat = 2999 := by decide +kernel

/-- Phase 4 for the dies of a reset alone. -/
def inPart : State := { inK 4 true true with kind := { (inK 4 true true).kind with scope := some [0], back := 6 } }

theorem test_meets_KindlingPhases : (inK 0 false true).kind.phase = 0 ∧ (inK 0 false true).kind.halt = false
    ∧ (inK 0 false true).supply.vstbyGood = true ∧ inPart.inPhase 4 = true ∧ inPart.kind.scope = some [0]
    ∧ ({ inK 5 true true with ember := { (inK 5 true true).ember with straps := 0x1F0 } } : State).strapBoot = 2
    ∧ (inK 5 true true).fw.bootEnd = false ∧ (∀ p ∈ [0, 1, 2, 3, 4, 5, 6], (inK p true true).inPhase p = true)
    ∧ (inK 2 true true).settingsBad = false ∧ (inK 4 true true).kind.scope = none ∧ (inK 4 true true).kind.cold = true := by decide +kernel

/-- An image's manifest in bank A: PART 0x9172, VERSION 2, one block, an LMS signature's types; its digests 0. -/
def manifest : List Byte :=
  leBytes 4 0x49465654 ++ leBytes 2 0x0100 ++ leBytes 2 1 ++ leBytes 8 2 ++ zeros 4 ++ leBytes 4 1 ++ zeros 232 ++ zeros 48

def imaged : SMap Byte :=
  ((List.range 304).map fun i => (bankBase false + i, manifest.getD i 0)) ++ [(bankBase false + 596, 0), (bankBase false + 597, 0),
    (bankBase false + 598, 0), (bankBase false + 599, 3), (bankBase false + 2776, 0), (bankBase false + 2777, 0), (bankBase false + 2778, 0),
    (bankBase false + 2779, 7)]

def bootS : State :=
  { inK 5 true true with flash := imaged, fuses := { State.reset.fuses with digests := Vector.replicate 4 0 } }

theorem bankRd_append (s : State) (b : Bool) (n k : Nat) : s.bankRd b 0 (n + k) = s.bankRd b 0 n ++ s.bankRd b n k := by
  unfold State.bankRd State.flashBytes
  rw [List.range_add, List.map_append, List.map_map]
  congr 1
  refine List.map_congr_left fun i _ => ?_
  simp [Nat.add_assoc]

theorem fld_append (h r : List Byte) (o n : Nat) (hl : o + n ≤ h.length) : fld (h ++ r) o n = fld h o n := by
  unfold fld
  rw [List.drop_append_of_le_length (by omega), List.take_append_of_le_length (by simp; omega)]

theorem zeroAt_append (h r : List Byte) (o n : Nat) (hl : o + n ≤ h.length) : zeroAt (h ++ r) o n = zeroAt h o n := by
  unfold zeroAt
  rw [List.drop_append_of_le_length (by omega), List.take_append_of_le_length (by simp; omega)]

/-- Where the signatures verify and the digests are the image's (the crypto is not computed here, log 12), bank A passes. -/
theorem bootS_bankOk (hs : ∀ l, Config.sha384 l = 0) (he : ∀ a b c, Config.ecdsaP384 a b c = true)
    (hl : ∀ a b c, Config.lms a b c = true) : bootS.bankOk false = true := by
  have hf : imgForm (bootS.bankRd false 0 256) = true := by decide +kernel
  have hb : imgMb (bootS.bankRd false 0 256) = 1 := by decide +kernel
  unfold State.bankOk State.imageOk manifestOf
  rw [if_pos hf, hb]
  rw [show 1 * 65536 = 3000 + 62536 from rfl, bankRd_append]
  generalize bootS.bankRd false 3000 62536 = r
  obtain ⟨h, hh⟩ : ∃ h, h = bootS.bankRd false 0 3000 := ⟨_, rfl⟩
  have hn : h.length = 3000 := by rw [hh]; simp [State.bankRd, State.flashBytes]
  rw [← hh]
  have hk : imgKey (h ++ r) = 304 := by
    unfold imgKey imgNblk
    rw [fld_append h r 20 4 (by omega), hh]
    decide +kernel
  have hm : imgNblk (h ++ r) = 1 := by
    unfold imgNblk
    rw [fld_append h r 20 4 (by omega), hh]
    decide +kernel
  have hF : imgForm (h ++ r) = true := by
    unfold imgForm imgMb imgRevoke
    rw [hk, hm, zeroAt_append h r 40 256 (by omega), zeroAt_append h r 24 40 (by omega), fld_append h r 0 4 (by omega),
      fld_append h r 4 2 (by omega), fld_append h r 6 2 (by omega), fld_append h r 17 1 (by omega), fld_append h r 18 1 (by omega),
      fld_append h r 19 1 (by omega), hh]
    decide +kernel
  have hD : (h ++ r).drop (304 + 288) = h.drop 592 ++ r := by
    rw [List.drop_append_of_le_length (by omega)]
  have hT : lmsTypes (((h ++ r).drop (304 + 288)).take 2668) = true := by
    unfold lmsTypes fldBE
    rw [hD]
    simp only [List.drop_take, List.take_take]
    rw [List.drop_append_of_le_length (by simp [hn]), List.drop_append_of_le_length (by simp [hn]),
      List.take_append_of_le_length (by simp [hn]), List.take_append_of_le_length (by simp [hn]), hh]
    decide +kernel
  have hM : bootS.manifestOk (h ++ r) = true := by
    unfold State.manifestOk imgArb
    simp only [hk, hF, hs, he, hl, hT]
    rw [fld_append h r 6 2 (by omega), fld_append h r 16 1 (by omega), fld_append h r 17 1 (by omega), fld_append h r 18 1 (by omega),
      fld_append h r 24 16 (by omega), hh]
    decide +kernel
  have hB : ∀ i < 1, ∀ b, blockOk (h ++ r) i b = true := by
    intro i hi b
    obtain rfl : i = 0 := by omega
    unfold blockOk
    rw [hs, List.drop_append_of_le_length (by omega), List.take_append_of_le_length (by simp [hn]), hh]
    decide +kernel
  simp only [hM, hm, Bool.true_and, List.all_eq_true, List.mem_range]
  exact fun i hi => hB i hi _

/-- K5 starts it. -/
theorem test_meets_FirmwareStart (hs : ∀ l, Config.sha384 l = 0) (he : ∀ a b c, Config.ecdsaP384 a b c = true)
    (hl : ∀ a b c, Config.lms a b c = true) : bootS.inPhase 5 = true ∧ bootS.strapBoot < 2 ∧ ∃ t, bootS.bootFlash = (t, some false) := by
  refine ⟨by decide +kernel, by decide +kernel, ?_⟩
  have hok := bootS_bankOk hs he hl
  have h0 : bootS.bootRec = none := by decide +kernel
  unfold State.bootFlash State.rollback
  simp only [h0]
  have h1 : bootS.strapBoot = 0 := by decide +kernel
  simp only [h1]
  exact ⟨bootS, by simp [hok]⟩

/-- The same flash on a package that runs bank B: an image staged in bank A that passes and may be activated. -/
def stagedS : State :=
  { up with flash := imaged, fuses := bootS.fuses, fw := { up.fw with sstate := 3, target := false } }

theorem test_meets_Activation (hs : ∀ l, Config.sha384 l = 0) (he : ∀ a b c, Config.ecdsaP384 a b c = true)
    (hl : ∀ a b c, Config.lms a b c = true) : stagedS.bankOk stagedS.fw.target = true ∧ stagedS.liveCtxs = [] ∧ stagedS.fw.sstate = 3
    ∧ stagedS.fw.activating = none ∧ stagedS.actArmed = false :=
  ⟨bootS_bankOk hs he hl, by decide +kernel⟩

/-- Erased flash holds no image that passes. -/
theorem test_meets_FirmwareStart_none : (inK 5 true true).inPhase 5 = true ∧ (inK 5 true true).strapBoot < 2
    ∧ ∃ t, (inK 5 true true).bootFlash = (t, none) := by
  refine ⟨by decide +kernel, by decide +kernel, ((inK 5 true true).bootFlash).1, ?_⟩
  have h : ((inK 5 true true).bootFlash).2 = none := by decide +kernel
  exact Prod.ext rfl h

/-- Pins released, Larfort port A up, the watchdog on. -/
def pinsS : State :=
  { up with pins := { up.pins with rstn := true, wrstn := true, refclk := true } }

theorem test_meets_ResetSources : pinsS.pins.rstn = true ∧ pinsS.pins.wrstn = true ∧ pinsS.pins.refclk = true ∧ pinsS.supply.vstbyGood = true
    ∧ pinsS.portUp 0 = true ∧ (onPage up pgRst { Page.reset with cfg := [(0x110, 0x80000001)] }).wdtOn = true ∧ pinsS.hasDie 0 = true
    ∧ pinsS.sensorsOn = true ∧ ∀ x ∈ pinsS.rst.asserted, x.cause ≠ 7 := by decide +kernel

theorem test_meets_Assert : up.supply.vstbyGood = true ∧ vinLost.supply.vstbyGood = true ∧ vinLost.rst.latch = some 0
    ∧ ({ up with ember := { up.ember with rcnt := [(3, 0xFFFF)], rtotal := 0xFFFFFFFF } } : State).ember.rtotal = 0xFFFFFFFF := by decide +kernel

/-- WRSTN alone, and with RSTN, asserted. -/
def episode (more : Bool) : State :=
  { up with rst := { Rst.reset with asserted := wideSource 3 1 :: (if more then [wideSource 2 0] else []), latch := some (if more then 0 else 1),
                                    causes := 8 } }

theorem test_meets_Release : (episode false).rst.latch = some 1 ∧ (∃ x ∈ (episode false).rst.asserted, x.cause = 3)
    ∧ (∀ x ∈ (episode false).rst.asserted, x.cause = 3) ∧ (episode true).rst.latch = some 0
    ∧ (∃ x ∈ (episode true).rst.asserted, x.cause = 3) ∧ ∃ x ∈ (episode true).rst.asserted, x.cause ≠ 3 := by decide +kernel

theorem test_meets_ClockLoss : ∃ k : Clock, up.hasDie 0 = true ∧ up.clkPages 0 k ≠ [] ∧ up.dieQual 0 = true ∧ up.dieHeld 0 = false
    ∧ (0, k) ∉ up.lostClk ∧ (0, k) ∈ ({ up with lostClk := [(0, k)] } : State).lostClk := by
  refine ⟨.aclk, ?_⟩
  decide +kernel

/-- The domain of DNP0, and that of hearth 0, go off. -/
def domS (k : Nat) : State := { up with doms := [(k, { req := 0, state := 1, busy := true })] }

theorem test_meets_Transition : up.isOpen pgPwr = true ∧ up.liveCtxs.length = 0 := by decide +kernel

theorem test_meets_Transition_dom : ∀ k ∈ [0, portDom 3], ((domS k).dom k).busy = true ∧ k ∉ (domS k).drt.domWait
    ∧ ∀ p < 6, 2 ≤ p → portDom p = k → ((domS k).dom k).req = 0 → ((domS k).port p).tstate ≠ 5 ∧ ((domS k).port p).tstate ≠ 6 := by
  decide +kernel

/-! Larfort and reduction ports (R416 to R431, R443). -/

theorem leVal_leBytes : ∀ (n v : Nat), v < 256 ^ n → leVal (leBytes n v) = v
  | 0, v, h => by
    simp at h
    subst h
    rfl
  | n + 1, v, h => by
    have h2 : v / 256 < 256 ^ n := Nat.div_lt_of_lt_mul (by rw [Nat.pow_succ] at h; omega)
    unfold leBytes
    rw [leVal, leVal_leBytes n (v / 256) h2]
    simp
    omega

/-- The first 244 bytes of a flit: TYPE, SEQ, ACK, NAK, 240 payload bytes. -/
def flitHead (ty seq ack nak : Nat) : List Byte := leBytes 4 (ty * 2 ^ 30 + seq * 2 ^ 18 + ack * 2 ^ 6 + nak * 32) ++ zeros 240

/-- A flit of 256 bytes with its CRC off by `d`. -/
def flitOf (ty seq ack nak : Nat) (d : Nat := 0) : List Byte :=
  flitHead ty seq ack nak ++ (leBytes 4 (((crc32 (flitHead ty seq ack nak)).toNat + d) % 2 ^ 32) ++ zeros 8)

theorem flitHead_length (ty seq ack nak : Nat) : (flitHead ty seq ack nak).length = 244 := by
  unfold flitHead zeros
  rw [List.length_append, leBytes_length, List.length_replicate]

theorem flitOf_length (ty seq ack nak d : Nat) : (flitOf ty seq ack nak d).length = 256 := by
  simp [flitOf, flitHead_length, leBytes_length, zeros]

theorem flitOf_take (ty seq ack nak d : Nat) : (flitOf ty seq ack nak d).take 244 = flitHead ty seq ack nak := by
  unfold flitOf
  rw [List.take_append_of_le_length (by rw [flitHead_length]), List.take_of_length_le (by rw [flitHead_length])]

theorem flitOf_crc (ty seq ack nak d : Nat) :
    fld (flitOf ty seq ack nak d) 244 4 = ((crc32 (flitHead ty seq ack nak)).toNat + d) % 2 ^ 32 := by
  unfold fld flitOf
  rw [show (244 : Nat) = (flitHead ty seq ack nak).length from (flitHead_length ..).symm, List.drop_left,
    List.take_append_of_le_length (by rw [leBytes_length]), List.take_of_length_le (by rw [leBytes_length])]
  exact leVal_leBytes 4 _ (Nat.mod_lt _ (by decide))

theorem flit_good (s : State) (p ty seq ack nak : Nat) (hp : p ≤ 5) (hu : s.portUp p = true) : goodFlit s p (flitOf ty seq ack nak) := by
  refine ⟨hp, hu, flitOf_length .., ?_⟩
  rw [flitOf_crc, flitOf_take]
  generalize crc32 (flitHead ty seq ack nak) = c
  rw [Nat.add_zero]
  exact Nat.mod_eq_of_lt c.isLt

/-- Port A has received up to sequence number 4 and has flits 6 and 7 unacknowledged, 7 sent `n` times. -/
def linkP (n : Nat) : Port :=
  { Port.reset with
    tstate := 5, rxSeq := 4, txSeq := 8,
    replay := [{ seq := 6, ctl := false, bytes := zeros 240, sent := 1 }, { seq := 7, ctl := false, bytes := zeros 240, sent := n }] }

def linkS (n : Nat) : State := { up with ports := [(0, linkP n)] }

theorem test_meets_Flits_next : goodFlit (linkS 1) 0 (flitOf 0 5 6 0) ∧ flitType (flitOf 0 5 6 0) = 0 ∧ flitSeq (flitOf 0 5 6 0) = 5
    ∧ flitNak (flitOf 0 5 6 0) = false ∧ noReport (linkS 1) 0 (flitAck (flitOf 0 5 6 0)) ∧ flitSeq (flitOf 0 5 6 0) = ((linkS 1).port 0).rxSeq + 1 :=
  ⟨flit_good _ _ _ _ _ _ (by decide) (by decide +kernel), by decide +kernel, by decide +kernel, by decide +kernel, .inl (by decide), by decide +kernel⟩

/-- The last one again; one too far; an idle flit. -/
theorem test_meets_Flits_others : (∀ ty seq, goodFlit (linkS 1) 0 (flitOf ty seq 7 0)) ∧ (∀ p ∈ [(0, 4), (1, 6), (2, 0)], flitType (flitOf p.1 p.2 7 0) = p.1)
    ∧ flitSeq (flitOf 0 4 7 0) ≠ ((linkS 1).port 0).rxSeq + 1 ∧ after 12 4 ((linkS 1).port 0).rxSeq.toNat = false
    ∧ flitSeq (flitOf 1 6 7 0) ≠ ((linkS 1).port 0).rxSeq + 1 ∧ after 12 6 ((linkS 1).port 0).rxSeq.toNat = true :=
  ⟨fun _ _ => flit_good _ _ _ _ _ _ (by decide) (by decide +kernel), by decide +kernel⟩

/-- A CRC that is one too high. -/
theorem test_meets_Flits_bad : (linkS 1).portUp 0 = true ∧ (flitOf 0 5 6 0 1).length = 256
    ∧ fld (flitOf 0 5 6 0 1) 244 4 ≠ (crc32 ((flitOf 0 5 6 0 1).take 244)).toNat := by
  refine ⟨by decide +kernel, flitOf_length .., ?_⟩
  rw [flitOf_crc, flitOf_take]
  generalize crc32 (flitHead 0 5 6 0) = c
  omega

/-- Flits within and beyond RETRYMAX. -/
theorem test_meets_Nak : (∀ f ∈ unacked (linkS ((linkS 1).retryMax 0)) 0 5, f.sent ≤ (linkS ((linkS 1).retryMax 0)).retryMax 0)
    ∧ (∃ f ∈ unacked (linkS ((linkS 1).retryMax 0 + 1)) 0 5, (linkS ((linkS 1).retryMax 0 + 1)).retryMax 0 < f.sent)
    ∧ noReport (linkS 1) 0 5 ∧ (unacked (linkS 1) 0 6).length = 1 :=
  ⟨by decide +kernel, by decide +kernel, .inl (by decide), by decide +kernel⟩

/-- Every port in every training state. -/
def portS (p st : Nat) : State := { up with ports := [(p, { Port.reset with tstate := st })] }

theorem test_meets_PortsTrain : ∀ p ∈ [0, 1, 2, 5], ∀ st ∈ [1, 2, 4, 5, 6, 7], ((portS p st).port p).tstate = st := by decide +kernel

theorem test_meets_Align : ((portS 0 3).port 0).tstate = 3 ∧ ((portS 0 6).port 0).tstate = 6 ∧ up.hlw32 = true ∧ (portS 0 3).portLanes 0 = 32
    ∧ (portS 3 3).portLanes 3 = 16 ∧ ({ portS 0 3 with ember := { up.ember with straps := 0x1C0 } } : State).portLanes 0 = 16
    ∧ (up.cfg (portPage 0) 0x800 0x800).getLsbD 0 = false
    ∧ ((onPage up (portPage 0) { Page.reset with cfg := [(0x800, 0x801)] }).cfg (portPage 0) 0x800 0x800).getLsbD 0 = true := by
  decide +kernel

/-- The host's port is up; a line that queue 0 watches, and one that none does. -/
theorem test_meets_HostLink : (withAdmin up []).hostUp = true ∧ (withAdmin up []).watchedBy 0x800000000000 = some 0
    ∧ (withAdmin up []).watchedBy 0x900000000000 = none
    ∧ ((withAdmin up []).cohEvent.acceptOne 0).isNone = true
    ∧ ∀ q < 64, ((withAdmin up []).queue q).live = true → ((withAdmin up []).queue q).ctl ≠ 0x900000000000 := by decide +kernel

/-! The service chain, SMBus and JTAG (R432 to R444). -/

/-- A package with address 3, a neighbour on both sides. -/
def chained : State := { up with ember := { up.ember with caddr := some 3 }, chain := { up.chain with relay := true, upLock := true } }

/-- The head, with address 0. -/
def headS : State := { up with ember := { up.ember with straps := 0x1E2, caddr := some 0 } }

/-- A frame from the head's controller. -/
def frameOf (dst ty arg : Nat) (p : List Byte) : List Byte := chainFrame dst 0xFE ty 0x1234 arg p

theorem test_meets_Relay : goodFrame chained (frameOf 0xFE 5 0 []) ∧ fDst (frameOf 0xFE 5 0 []) = 0xFE ∧ fType (frameOf 0xFE 5 0 []) ≠ 1
    ∧ goodFrame chained (frameOf 4 3 0 []) ∧ fDst (frameOf 4 3 0 []) = 4 ∧ goodFrame chained (frameOf 3 5 0 []) ∧ fDst (frameOf 3 5 0 []) = 3
    ∧ ownType (fType (frameOf 3 5 0 [])) = false ∧ frameOk (setFld (frameOf 3 5 0 []) 0 1 4) = false ∧ chained.ember.caddr = some 3
    ∧ goodFrame chained (frameOf 0xFE 2 0 []) ∧ chained.isHead = false := by
  unfold goodFrame
  decide +kernel

theorem test_meets_Enum : (∀ a ∈ [0, 63, 64], goodFrame chained (frameOf 0 1 a []) ∧ fArg (frameOf 0 1 a []) = a) ∧ chained.isHead = false
    ∧ headS.isHead = true ∧ goodFrame headS (frameOf 0 1 5 []) ∧ fType (frameOf 0 1 5 []) = 1 ∧ goodFrame headS (frameOf 0xFE 2 5 [])
    ∧ ({ chained with chain := { chained.chain with cstate := 2 } } : State).chain.cstate = 2
    ∧ ({ headS with chain := { headS.chain with cstate := 2 } } : State).isHead = true ∧ chained.chain.upLock = true := by
  unfold goodFrame
  decide +kernel

/-- The frame is a new request of type `ty` to the package alone. -/
def newB (s : State) (f : List Byte) (ty : Nat) : Bool :=
  s.chain.relay && frameOk f && decide (pgSvc ∉ s.rst.blocks ∧ fType f = ty ∧ fDst f < 64) && s.chain.answered.isEmpty
    && decide (s.ember.caddr = some (BitVec.ofNat 6 (fDst f)))

theorem new_of {s : State} {f : List Byte} {ty : Nat} (h : newB s f ty = true) : newRequest s f ty := by
  simp only [newB, Bool.and_eq_true, decide_eq_true_eq, List.isEmpty_iff] at h
  obtain ⟨⟨⟨⟨hr, hf⟩, hb, ht, hd⟩, ha⟩, hc⟩ := h
  exact ⟨⟨hr, hf⟩, hb, ht, ⟨_, hc, (Nat.mod_eq_of_lt (b := 2 ^ 6) hd).symm⟩, by rw [ha]; simp⟩

/-- PING; REG_RD of PWR_KSTS in 4 bytes, of a counter in 8, and of an address without a register; REG_WR of DRT_BUDGET and of a register
of a row engine, and to an address without one. -/
def reg (size a : Nat) : Nat := size * 2 ^ 62 + a

def ksts : List Byte := frameOf 3 3 (reg 0 (pageAddr pgPwr + 0x100)) []
def cntRd : List Byte := frameOf 3 3 (reg 1 (pageAddr pgBeat + 0xC00)) []
def lostRd : List Byte := frameOf 3 3 (reg 0 0x1000) []
def budgetWr : List Byte := frameOf 3 4 (reg 0 (pageAddr pgDrt + 0x100)) (leBytes 4 150000)
def rowWr : List Byte := frameOf 3 4 (reg 0 (pageAddr (hearthPage 0 6) + 0x100)) (leBytes 4 0x100)
def lostWr : List Byte := frameOf 3 4 (reg 0 0x1000) (leBytes 4 0)

theorem test_meets_Requests : (∀ p ∈ [(0x0A, frameOf 3 10 0 []), (3, ksts), (3, cntRd), (3, lostRd), (4, budgetWr), (4, rowWr), (4, lostWr)],
      newRequest chained p.2 p.1) ∧ chained.kind.halt = false ∧ newRequest (chained.halt 5 98) ksts 3 ∧ (chained.halt 5 98).kind.halt = true := by
  refine ⟨fun p hp => ?_, rfl, new_of (by decide +kernel), by decide +kernel⟩
  fin_cases hp <;> exact new_of (by decide +kernel)

theorem test_meets_RegRd : (∃ x, (chained.frameIn true ksts).reach .s (fArg ksts % 2 ^ 48) 4 false 0 = .ok x) ∧ bits (fArg ksts) 63 62 = 0
    ∧ (∃ x, (chained.frameIn true cntRd).reach .s (fArg cntRd % 2 ^ 48) 8 false 0 = .ok x) ∧ bits (fArg cntRd) 63 62 = 1
    ∧ ((up.pageInfo pgBeat).bind fun i => cntAt i 0xC00).isSome = true
    ∧ ((chained.frameIn true lostRd).reach .s (fArg lostRd % 2 ^ 48) 4 false 0).toBool = false ∧ regSize lostRd = some 4 :=
  ⟨ok_ex (by decide +kernel), by decide +kernel, ok_ex (by decide +kernel), by decide +kernel⟩

theorem test_meets_RegWr : (∃ x, (chained.frameIn true rowWr).reach .s (fArg rowWr % 2 ^ 48) 4 true (leVal (fPayload rowWr)) = .ok x)
    ∧ bits (fArg rowWr) 63 62 = 0 ∧ fLen rowWr = 4
    ∧ (up.pageInfo (hearthPage 0 6)).any (fun i => decide (i.blk = 0x06) && (up.regDef i 0x100).any fun d => decide (d.rw ≠ 0 ∧ d.rwx = 0)) = true
    ∧ ((chained.frameIn true lostWr).reach .s (fArg lostWr % 2 ^ 48) 4 true (leVal (fPayload lostWr))).toBool = false
    ∧ regSize lostWr = some 4 ∧ fLen lostWr = 4 ∧ regSize budgetWr = some 4 ∧ fLen budgetWr = 4
    ∧ ((chained.frameIn true budgetWr).writeReg .s (fArg budgetWr % 2 ^ 48) 4 150000).2 = true :=
  ⟨ok_ex (by decide +kernel), by decide +kernel⟩

/-- A stored answer to the sender's last SEQ. -/
def repeated : State := { chained with chain := { chained.chain with answered := [(0xFE, 0x1234, [1])] } }

theorem test_meets_Repeats : ∀ p ∈ [(4, 0), (3, 0), (8, 1)], goodFrame repeated (frameOf 3 p.1 p.2 []) ∧ pgSvc ∉ repeated.rst.blocks ∧ fDst (frameOf 3 p.1 p.2 []) = 3
    ∧ repeated.answered? (frameOf 3 p.1 p.2 []) = some [1] ∧ fType (frameOf 3 p.1 p.2 []) = p.1 ∧ fArg (frameOf 3 p.1 p.2 []) % 256 = p.2 := by
  unfold goodFrame
  decide +kernel

theorem test_meets_ResetImg : ∀ dst ∈ [3, 0xFF], ∀ ty ∈ [6, 7], ∀ arg ∈ [0, 1], goodFrame chained (frameOf dst ty arg [])
    ∧ pgSvc ∉ chained.rst.blocks ∧ chained.supply.vstbyGood = true ∧ fDst (frameOf dst ty arg []) = dst ∧ fType (frameOf dst ty arg []) = ty := by
  unfold goodFrame
  decide +kernel

/-- Staging; a trial; an image staged. -/
def fwS (st : Nat) (trial : Bool) : State :=
  { chained with fw := { chained.fw with sstate := st, nblk := 2, trial := trial, programming := [0], staged := 9 } }

def setwr : List Byte := leBytes 2 1 ++ leBytes 2 1 ++ leBytes 4 4 ++ zeros 4

/-- Every operation is new to a package at rest, one that stages, and one on trial. -/
theorem test_meets_FwCtl : (∀ op ∈ [2, 1 + 256, 1 + 4096 * 256, 1, 1 + 4097 * 256, 3, 4, 5, 6], ∀ s ∈ [chained, fwS 1 false, fwS 0 true],
      newRequest s (frameOf 3 8 op []) 8)
    ∧ chained.kind.halt = false ∧ 6 ≤ chained.pkgPhase ∧ chained.staging = false ∧ chained.fw.trial = false
    ∧ chained.hostStaging = false ∧ (fwS 1 false).staging = true ∧ (fwS 0 true).fw.trial = true ∧ (fwS 0 true).fw.activating = none := by
  refine ⟨fun op ho s hs => ?_, by decide +kernel⟩
  fin_cases ho <;> fin_cases hs <;> exact new_of (by decide +kernel)

/-- ACTIVATE at once of VERSION 9, and of another. -/
def actNow (v : Nat) : List Byte := frameOf 3 8 3 (zeros 8 ++ leBytes 8 v ++ leBytes 4 1)

theorem test_meets_FwActivate_now : newRequest (fwS 3 false) (actNow 9) 8 ∧ newRequest (fwS 3 false) (actNow 8) 8
    ∧ fld (fPayload (actNow 9)) 16 1 % 2 = 1 ∧ fld (fPayload (actNow 9)) 8 8 = 9 ∧ (fwS 3 false).fw.staged.toNat = 9 ∧ (fwS 3 false).liveCtxs = []
    ∧ (fwS 3 false).fw.sstate = 3 ∧ (fwS 3 false).fw.activating = none ∧ (fwS 3 false).actArmed = false :=
  ⟨new_of (by decide +kernel), new_of (by decide +kernel), by decide +kernel⟩

/-- ACTIVATE at the commit beat of step 1, and at a phase. -/
def actAt (phase : Nat) : List Byte := frameOf 3 8 3 (leBytes 8 (65536 + phase) ++ leBytes 8 9 ++ leBytes 4 0)

theorem test_meets_FwActivate_at : newRequest (fwS 3 false) (actAt 0xFFFF) 8 ∧ newRequest (fwS 3 false) (actAt 1) 8
    ∧ fld (fPayload (actAt 0xFFFF)) 16 1 % 2 = 0 ∧ fld (fPayload (actAt 0xFFFF)) 7 1 = 0
    ∧ (fwS 3 false).freeSched (fwS 3 false).tslot = some 0
    ∧ targetOk ((fwS 3 false).slotBeat (fwS 3 false).tslot) (Beat.ofNat (fld (fPayload (actAt 0xFFFF)) 0 8)) = true
    ∧ (fwS 3 false).actOk (Beat.ofNat (fld (fPayload (actAt 0xFFFF)) 0 8)) (b2n (fwS 3 false).fw.target) 9 = true
    ∧ (fwS 3 false).actOk (Beat.ofNat (fld (fPayload (actAt 1)) 0 8)) (b2n (fwS 3 false).fw.target) 9 = false :=
  ⟨new_of (by decide +kernel), new_of (by decide +kernel), by decide +kernel⟩

theorem test_meets_FwSetwr : newRequest chained (frameOf 3 8 6 setwr) 8 ∧ (setRecOf (fPayload (frameOf 3 8 6 setwr))).isSome = true
    ∧ setRecOf (fPayload (frameOf 3 8 6 [])) = none := ⟨new_of (by decide +kernel), by decide +kernel⟩

/-- The head of an IMG frame with 1 KiB of payload. -/
def imgHead (off : Nat) : List Byte :=
  leBytes 1 3 ++ leBytes 1 0xFE ++ leBytes 1 7 ++ zeros 1 ++ leBytes 2 0x1234 ++ leBytes 2 1024 ++ leBytes 8 off

def imgF (off : Nat) : List Byte :=
  imgHead off ++ (zeros 1024 ++ leBytes 4 (crc32 (imgHead off ++ zeros 1024)).toNat)

theorem imgF_eq (off : Nat) : frameOf 3 7 off (zeros 1024) = imgF off := by
  unfold frameOf chainFrame imgF imgHead
  simp only [zeros, List.length_replicate, List.append_assoc]

theorem imgHead_length (off : Nat) : (imgHead off).length = 16 := by simp [imgHead, leBytes_length, zeros]

theorem imgF_length (off : Nat) : (imgF off).length = 1044 := by
  simp only [imgF, List.length_append, imgHead_length, leBytes_length, zeros, List.length_replicate]

theorem imgF_fld (off o n : Nat) (h : o + n ≤ 16) : fld (imgF off) o n = fld (imgHead off) o n :=
  fld_append _ _ _ _ (by rw [imgHead_length]; omega)

theorem imgF_ok (off : Nat) : frameOk (imgF off) = true ∧ fType (imgF off) = 7 ∧ fDst (imgF off) = 3 ∧ (fPayload (imgF off)).length = 1024 := by
  have hl : fLen (imgF off) = 1024 := by
    rw [fLen, imgF_fld off 6 2 (by omega)]
    rfl
  have hz : (imgHead off ++ zeros 1024).length = 1040 := by
    simp only [List.length_append, imgHead_length, zeros, List.length_replicate]
  refine ⟨?_, ?_, ?_, ?_⟩
  · have hs : imgF off = (imgHead off ++ zeros 1024) ++ leBytes 4 (crc32 (imgHead off ++ zeros 1024)).toNat := by
      simp [imgF, List.append_assoc]
    unfold frameOk
    rw [hl, imgF_length, hs]
    generalize hh : imgHead off ++ zeros 1024 = h at hz
    have hc : fld (h ++ leBytes 4 (crc32 h).toNat) 1040 4 = (crc32 h).toNat := by
      unfold fld
      rw [← hz, List.drop_left, List.take_of_length_le (by rw [leBytes_length]), leVal_leBytes 4 _ (crc32 h).isLt]
    rw [show 16 + 1024 = 1040 from rfl, hc, ← hz, List.take_left]
    simp
  · rw [fType, imgF_fld off 2 1 (by omega)]
    rfl
  · rw [fDst, imgF_fld off 0 1 (by omega)]
    rfl
  · simp [fPayload, hl, imgF_length]

/-- Staging of a second block; the boot unit waits for its image from the chain. -/
def imgBoot : State :=
  { inK 5 true true with
    ember := { (inK 5 true true).ember with straps := 0x1F0, caddr := some 3 }, chain := { up.chain with relay := true } }

theorem test_meets_Img : fArg (imgF 65536) = 65536 ∧ (fwS 1 false).kind.phase ≠ 5 ∧ (fwS 1 false).chainStaging = true
    ∧ 1 < (fwS 1 false).fw.nblk ∧ (fwS 1 false).fw.have 1 = false ∧ (1, 65536) ∉ (fwS 1 false).fw.got ∧ (fwS 1 false).fw.buffered < 64
    ∧ ((fwS 1 false).fw.got.filter fun x => x.1 = 1).length < 63
    ∧ bit (fArg (imgF (2 ^ 63))) 63 = true ∧ fArg (imgF (2 ^ 63)) % 2 ^ 32 = 0 ∧ imgBoot.inPhase 5 = true ∧ 2 ≤ imgBoot.strapBoot
    ∧ imgBoot.fw.bootEnd = false ∧ 0 ∉ imgBoot.fw.bootGot ∧ imgBoot.chain.relay = true ∧ imgBoot.ember.caddr = some 3 := by
  have h : ∀ off, fArg (imgF off) = fld (imgHead off) 8 8 := fun off => imgF_fld off 8 8 (by omega)
  simp only [h]
  decide +kernel

theorem test_meets_FlashProgram : (fwS 1 false).staging = true ∧ (fwS 1 false).fw.programming = [0] ∧ 1 < (fwS 1 false).fw.nblk
    ∧ 1 ∉ (fwS 1 false).fw.present := by decide +kernel

/-- Supplied; without VIN56; in K1; halted. -/
theorem test_meets_Smbus : smbOn up ∧ up.supply.vinGood = true ∧ 2 ≤ up.kind.phase ∧ up.kind.halt = false
    ∧ smbOn (inK 1 true true) ∧ (inK 1 true true).kind.phase < 2 ∧ smbOn (inK 2 false true) ∧ (inK 2 false true).supply.vinGood = false
    ∧ smbOn (inK 2 true true) ∧ smbOn ((inK 2 true true).halt 5 98) ∧ ((inK 2 true true).halt 5 98).supply.vinGood = true
    ∧ 2 ≤ ((inK 2 true true).halt 5 98).kind.phase ∧ ((inK 2 true true).halt 5 98).kind.halt = true := by
  unfold smbOn
  decide +kernel

theorem test_meets_Jtag : up.active (uncoreDom 98) = true := by decide +kernel

/-- REGACC closed; open for a read of PWR_KSTS, a write of DRT_BUDGET, and an address without a register. -/
def jtagOpen : State := onPage up pgSvc { Page.reset with cfg := [(0x104, 1)] }

def drRead : BitVec 83 := BitVec.ofNat 83 (pageAddr pgPwr + 0x100)
def drWrite : BitVec 83 := BitVec.ofNat 83 (2 ^ 80 + 150000 * 2 ^ 48 + pageAddr pgDrt + 0x100)
def drLost : BitVec 83 := 0x1000

def withDr (d : BitVec 83) : State := { jtagOpen with jtag := { jtagOpen.jtag with ir := 0x20, dr := d } }

theorem test_meets_Regacc : ((onPage up pgSvc { Page.reset with cfg := [(0x104, 2)] }).cfg pgSvc 0x104 3).getLsbD 0 = false
    ∧ (jtagOpen.cfg pgSvc 0x104 3).getLsbD 0 = true ∧ jtagOpen.active (uncoreDom 98) = true ∧ drRead.getLsbD 80 = false ∧ drWrite.getLsbD 80 = true
    ∧ ((withDr drWrite).writeReg .s (drWrite.toNat % 2 ^ 48) 4 (bits drWrite.toNat 79 48)).2 = true
    ∧ ((withDr drRead).reach .s (drRead.toNat % 2 ^ 48) 4 false 0).toBool = true
    ∧ ((withDr drLost).reach .s (drLost.toNat % 2 ^ 48) 4 false 0).toBool = false := by decide +kernel

/-! Values from the manual's worked examples. -/

/-- Worked example: W16 encodings. -/
theorem test_value_w16 : ∀ p ∈ [((1 : Rat), 0x6000), (-(5 / 2), 0xE0A0), (1 / 10, 0x5E4D), (3 * pow2 (-100), 0x2EC0), (pow2 (-191), 0x0080),
    (255 * pow2 56, 0x7FFF), (1 + pow2 (-8), 0x6000), (1 + 3 * pow2 (-8), 0x6002)], (w16.round .rne p.1).code = p.2 := by decide +kernel

/-- Worked example: W24 and W12 encodings; 2^−40 underflows in W12. -/
theorem test_value_w24_w12 : ∀ p ∈ [((1 : Rat), 0x600000, 0x500), (-(5 / 2), 0xE0A000, 0xD28), (1 / 10, 0x5E4CCD, 0x493), (pow2 (-40), 0x4C0000, 0)],
    (w24.round .rne p.1).code = p.2.1 ∧ (w12.round .rne p.1).code = p.2.2 := by decide +kernel

theorem test_value_w12_underflow : (w12.round .rne (pow2 (-40))).unf = true ∧ (w12.round .rne (pow2 24)).sat = true := by decide +kernel

/-- Worked example: narrowing 0.1. -/
theorem test_value_narrowing : ((w24.value 0x5E4CCD).map fun v => (w16.round .rne v).code) = some 0x5E4D
    ∧ (w16.value 0x5E4D).map (fun v => (w12.round (.sr 0xC123) v).code) = some 0x494
    ∧ (w16.value 0x5E4D).map (fun v => (w12.round (.sr 0x3A00) v).code) = some 0x493
    ∧ (w16.value 0x5E4D).map (fun v => (w12.round .rne v).code) = some 0x493 := by decide +kernel

/-- Worked example: Q codes. -/
theorem test_value_q : ∀ p ∈ [(0x03065E80, (3 / 10 : Rat), 8, (1 / 4 : Rat)), (0x03065E80, 9 / 8, 15, 9 / 8), (0x03065E80, -1, 0, -(3 / 4)),
    (0x03065E80, 0, 6, 0), (0x830000FE, 3 / 8, 10, 1 / 2), (0x830000FE, 5 / 8, 10, 1 / 2), (0x830000FE, -2, 0, -2), (0x00006000, 7 / 10, 1, 1),
    (0x07805E80, -(33 / 10), 102, -(13 / 4))],
    ((Meta.ofNat p.1).encode .rne p.2.1).2 = p.2.2.1 ∧ (Meta.ofNat p.1).value p.2.2.1 = p.2.2.2 := by decide +kernel

/-- The example of R162 and entries of Table 7.2. -/
theorem test_value_lse2 : lse2 0 (-65536) = 38336 ∧ lse2 0 0 = 65536 ∧ lse2 0 (-2 * 65536) = 21098 ∧ lse2 (-4 * 65536) 0 = 5732 := by decide +kernel

/-- Worked example: locating a page (chapter 16): CVE 1 of hearth 17 on die 40. -/
theorem test_value_page : pageAddr (hearthPage (40 * 48 + 17) 7) = 0x0C00A5887000 := by decide +kernel


/-- The check value of the CRC-8 that SMBus takes for its PEC: the nine digits 1 to 9. -/
theorem test_value_crc8 : crc8 ((List.range 9).map fun i => BitVec.ofNat 8 (0x31 + i)) = 0xF4 := by decide +kernel

/-- R490: THERM_N is high at 104 °C, low at 105 °C, low again while K1 waits. -/
theorem test_therm_n : (up.setTemp 3 104).thermLow = false ∧ (up.setTemp 3 105).thermLow = true
    ∧ (inK 1 true true).thermLow = false ∧ (inK 1 true true).holdHot.thermLow = true := by decide +kernel


end Sys2Proof.Tests
end

section
/-! SUPPORT. Frames said with parts: the mask of a list of parts is the mask of `Changes` that lets exactly those parts change, so
that a command's law of Laws gives its row of a frame table. -/

namespace Sys2Proof.Cert

open Sys2Proof.Machine

/-- The number of a part among the fields of State, where the queue of waiting commands is field 0. -/
def Part.field (p : Part) : Nat := p.ctorIdx + 1

theorem Part.field_inj {p q : Part} : p.field = q.field ↔ p = q := by
  refine ⟨fun h => ?_, congrArg _⟩
  have hi : p.ctorIdx = q.ctorIdx := Nat.succ.inj h
  rw [← Part.ofNat_ctorIdx p, hi, Part.ofNat_ctorIdx]

/-- The mask that lets the listed parts change. -/
def Part.mask (l : List Part) : Nat := l.foldr (fun p m => 2 ^ p.field ||| m) 0

@[simp] theorem Part.mask_nil : Part.mask [] = 0 := rfl

@[simp] theorem Part.mask_cons (p : Part) (l : List Part) : Part.mask (p :: l) = 2 ^ p.field ||| Part.mask l := rfl

/-- A mask has the bits of its parts and, of the parts, no other. -/
theorem Part.testBit_mask (p : Part) (l : List Part) : (Part.mask l).testBit p.field = decide (p ∈ l) := by
  induction l with
  | nil => simp
  | cons q l ih => simp [Nat.testBit_or, Nat.testBit_two_pow, ih, Part.field_inj, eq_comm (a := p)]

/-- A part whose bit the mask lacks is the same. -/
theorem Part.same_of_changes {m : Nat} {s t : State} (h : Changes m s t) {p : Part}
    (hp : m.testBit p.field = false) : p.same s t := by
  cases p with
  | fuses => exact h.fuses hp
  | shadow => exact h.shadow hp
  | pins => exact h.pins hp
  | supply => exact h.supply hp
  | ember => exact h.ember hp
  | rst => exact h.rst hp
  | kind => exact h.kind hp
  | doms => exact h.doms hp
  | lostClk => exact h.lostClk hp
  | pages => exact h.pages hp
  | ownBad => exact h.ownBad hp
  | queues => exact h.queues hp
  | order => exact h.order hp
  | rr => exact h.rr hp
  | copies => exact h.copies hp
  | held => exact h.held hp
  | ctxs => exact h.ctxs hp
  | psync => exact h.psync hp
  | psnap => exact h.psnap hp
  | lsync => exact h.lsync hp
  | lsnap => exact h.lsnap hp
  | cores => exact h.cores hp
  | engines => exact h.engines hp
  | stores => exact h.stores hp
  | lanes => exact h.lanes hp
  | shadows => exact h.shadows hp
  | drt => exact h.drt hp
  | beat => exact h.beat hp
  | sched => exact h.sched hp
  | prefetch => exact h.prefetch hp
  | pageReqs => exact h.pageReqs hp
  | mem => exact h.mem hp
  | ue => exact h.ue hp
  | ueSeen => exact h.ueSeen hp
  | scrubPos => exact h.scrubPos hp
  | ports => exact h.ports hp
  | chain => exact h.chain hp
  | jtag => exact h.jtag hp
  | flash => exact h.flash hp
  | fw => exact h.fw hp
  | trc => exact h.trc hp
  | freeze => exact h.freeze hp
  | snapQ => exact h.snapQ hp
  | out => exact h.out hp
  | fresh => exact h.fresh hp
  | drains => exact h.drains hp
  | errs => exact h.errs hp

/-- The law of a command that lets no part change beyond its row of a frame table gives the row. -/
theorem nextAll_mask_of_row {m : Nat} {row l : List Part} {s : State} {r : Host.Outcome State Fault Refusal}
    (h : nextAll (Changes m s) r) (hl : some row = some l) (hm : Nat.lor m (Part.mask row) = Part.mask row := by decide) :
    nextAll (Changes (Part.mask l) s) r := by
  cases hl
  exact ⟨fun e => (h.get e).widen hm⟩

/-- A table whose every row is kept by its command is a frame. -/
theorem changesOnly_of_mask {table : Instr → Option (List Part)}
    (h : ∀ c s l, table c = some l → nextAll (Changes (Part.mask l) s) (exec c s)) : ChangesOnly table := by
  intro c s t l p hc ht hp
  refine Part.same_of_changes ((h c s l hc).get ht) ?_
  rw [Part.testBit_mask, decide_eq_false hp]

/-- Each sequencer or engine command changes no part beyond its row of `engineChanges`. -/
theorem exec_changes_engineChanges (c : Instr) (s : State) (l : List Part) (h : engineChanges c = some l) :
    nextAll (Changes (Part.mask l) s) (exec c s) := by
  cases c with
  | dispatchNop core => exact nextAll_mask_of_row (execDispatchNop_changes _ s) h
  | issueWord core time => exact nextAll_mask_of_row (execIssueWord_changes _ _ s) h
  | issueAdmit u time => exact nextAll_mask_of_row (execIssueAdmit_changes _ _ s) h
  | waitWord core => exact nextAll_mask_of_row (execWaitWord_changes _ s) h
  | waitRelease core => exact nextAll_mask_of_row (execWaitRelease_changes _ s) h
  | signalWord core => exact nextAll_mask_of_row (execSignalWord_changes _ s) h
  | drainComplete core => exact nextAll_mask_of_row (execDrainComplete_changes _ s) h
  | waitbeatWord core => exact nextAll_mask_of_row (execWaitbeatWord_changes _ s) h
  | loopWord core => exact nextAll_mask_of_row (execLoopWord_changes _ s) h
  | jumpWord core => exact nextAll_mask_of_row (execJumpWord_changes _ s) h
  | setbaseWord core => exact nextAll_mask_of_row (execSetbaseWord_changes _ s) h
  | trapWord core => exact nextAll_mask_of_row (execTrapWord_changes _ s) h
  | endWord core => exact nextAll_mask_of_row (execEndWord_changes _ s) h
  | descriptorComplete u idx => exact nextAll_mask_of_row (execDescriptorComplete_changes _ _ s) h
  | ftaTableProduct u => exact nextAll_mask_of_row (execFtaTableProduct_changes _ s) h
  | ftaTva7200Product u => exact nextAll_mask_of_row (execFtaTva7200Product_changes _ s) h
  | laneGroupPass u group => exact nextAll_mask_of_row (execLaneGroupPass_changes _ _ s) h
  | outputTileDrain u => exact nextAll_mask_of_row (execOutputTileDrain_changes _ s) h
  | bwaProduct u => exact nextAll_mask_of_row (execBwaProduct_changes _ s) h
  | rowGroupPass u group => exact nextAll_mask_of_row (execRowGroupPass_changes _ _ s) h
  | bwaTileRetire u => exact nextAll_mask_of_row (execBwaTileRetire_changes _ s) h
  | storeClassChange u => exact nextAll_mask_of_row (execStoreClassChange_changes _ s) h
  | fit u => exact nextAll_mask_of_row (execFit_changes _ s) h
  | track u => exact nextAll_mask_of_row (execTrack_changes _ s) h
  | widen u => exact nextAll_mask_of_row (execWiden_changes _ s) h
  | wconv u => exact nextAll_mask_of_row (execWconv_changes _ s) h
  | w12c u => exact nextAll_mask_of_row (execW12c_changes _ s) h
  | act u => exact nextAll_mask_of_row (execAct_changes _ s) h
  | actb u => exact nextAll_mask_of_row (execActb_changes _ s) h
  | smx u => exact nextAll_mask_of_row (execSmx_changes _ s) h
  | smxb u => exact nextAll_mask_of_row (execSmxb_changes _ s) h
  | norm u => exact nextAll_mask_of_row (execNorm_changes _ s) h
  | normb u => exact nextAll_mask_of_row (execNormb_changes _ s) h
  | xent u => exact nextAll_mask_of_row (execXent_changes _ s) h
  | emul u => exact nextAll_mask_of_row (execEmul_changes _ s) h
  | bits u => exact nextAll_mask_of_row (execBits_changes _ s) h
  | bern u => exact nextAll_mask_of_row (execBern_changes _ s) h
  | rngWordRequest u => exact nextAll_mask_of_row (execRngWordRequest_changes _ s) h
  | smpSample u => exact nextAll_mask_of_row (execSmpSample_changes _ s) h
  | opt u => exact nextAll_mask_of_row (execOpt_changes _ s) h
  | tiesum u => exact nextAll_mask_of_row (execTiesum_changes _ s) h
  | xreAdd u => exact nextAll_mask_of_row (execXreAdd_changes _ s) h
  | exportImage u => exact nextAll_mask_of_row (execExportImage_changes _ s) h
  | retire u => exact nextAll_mask_of_row (execRetire_changes _ s) h
  | reduce u => exact nextAll_mask_of_row (execReduce_changes _ s) h
  | reduceLevelProceed u => exact nextAll_mask_of_row (execReduceLevelProceed_changes _ s) h
  | pkgsum u => exact nextAll_mask_of_row (execPkgsum_changes _ s) h
  | pkgsumGrant u addr fmt count => exact nextAll_mask_of_row (execPkgsumGrant_changes _ _ _ _ s) h
  | pkgsumErrorFlit u => exact nextAll_mask_of_row (execPkgsumErrorFlit_changes _ s) h
  | pkgsumChildArrival u child bytes dst => exact nextAll_mask_of_row (execPkgsumChildArrival_changes _ _ _ _ s) h
  | pkgsumBroadcast u bytes => exact nextAll_mask_of_row (execPkgsumBroadcast_changes _ _ s) h
  | release u => exact nextAll_mask_of_row (execRelease_changes _ s) h
  | dmaCopy u => exact nextAll_mask_of_row (execDmaCopy_changes _ s) h
  | stream u => exact nextAll_mask_of_row (execStream_changes _ s) h
  | streamChunk u => exact nextAll_mask_of_row (execStreamChunk_changes _ s) h
  | kvread u => exact nextAll_mask_of_row (execKvread_changes _ s) h
  | kvwrite u => exact nextAll_mask_of_row (execKvwrite_changes _ s) h
  | pageAllocationRequest => exact nextAll_mask_of_row (execPageAllocationRequest_changes s) h
  | copyOnWrite => exact nextAll_mask_of_row (execCopyOnWrite_changes s) h
  | listRefresh ctx slot => exact nextAll_mask_of_row (execListRefresh_changes _ _ s) h
  | _ => cases h

/-- Settles O6: each command's law, read through the mask of its row. -/
theorem frameOfEngineCommands : Obligations.FrameOfEngineCommands := by
  unfold Obligations.FrameOfEngineCommands
  exact changesOnly_of_mask exec_changes_engineChanges

end Sys2Proof.Cert
end

section
/-! SUPPORT. Exact accumulation (R42, R115, R126): one law per case of `Elem.add`, and what a run of terms within the capacity leaves. -/

namespace Sys2Proof.Machine

/-- An integer lies within the capacity of `b` bits (Table 2.4). -/
def InCapacity (b : Nat) (v : Int) : Prop := -(2 : Int) ^ (b - 1) ≤ v ∧ v < (2 : Int) ^ (b - 1)

theorem capacity_of_above {b : Nat} {v : Int} (h : (2 : Int) ^ (b - 1) ≤ v) : capacity b v = (2 : Int) ^ (b - 1) - 1 := by
  unfold capacity
  push_cast
  rw [if_pos (by omega)]

theorem capacity_of_below {b : Nat} {v : Int} (h : v < -(2 : Int) ^ (b - 1)) : capacity b v = -(2 : Int) ^ (b - 1) := by
  have hp : (0 : Int) < 2 ^ (b - 1) := by positivity
  unfold capacity
  push_cast
  rw [if_neg (by omega), if_pos h]

theorem capacity_of_within {b : Nat} {v : Int} (h : InCapacity b v) : capacity b v = v := by
  obtain ⟨hlo, hhi⟩ := h
  unfold capacity
  push_cast
  rw [if_neg (by omega), if_neg (by omega)]

theorem Elem.add_nar (e : Elem) (b : Nat) (t : Int) (tn tovf : Bool) : (e.add b t tn tovf).nar = (e.nar || tn) := by
  unfold Elem.add
  split
  · rfl
  · split <;> rfl

/-- An element whose overflow flag is set only takes a NaR flag. -/
theorem Elem.add_of_ovf {e : Elem} (h : e.ovf = true) (b : Nat) (t : Int) (tn tovf : Bool) :
    e.add b t tn tovf = { e with nar := e.nar || tn } := by
  unfold Elem.add
  rw [if_pos h]

theorem Elem.add_of_input_ovf {e : Elem} (h : e.ovf = false) (b : Nat) (t : Int) (tn : Bool) :
    e.add b t tn true = { val := if t < 0 then -(2 : Int) ^ (b - 1) else 2 ^ (b - 1) - 1, nar := e.nar || tn, ovf := true } := by
  simp [Elem.add, h]

theorem Elem.add_of_live {e : Elem} (h : e.ovf = false) (b : Nat) (t : Int) (tn : Bool) :
    e.add b t tn false
      = { val := capacity b (e.val + t), nar := e.nar || tn, ovf := decide (capacity b (e.val + t) ≠ e.val + t) } := by
  simp [Elem.add, h]

/-- A term that stays within the capacity adds exactly. -/
theorem Elem.add_of_within {e : Elem} {b : Nat} {t : Int} (h : e.ovf = false) (hv : InCapacity b (e.val + t)) (tn : Bool) :
    e.add b t tn false = { val := e.val + t, nar := e.nar || tn, ovf := false } := by
  simp [Elem.add_of_live h, capacity_of_within hv]

theorem inCapacity_of_natAbs_lt {b : Nat} {v : Int} (h : (v.natAbs : Int) < 2 ^ (b - 1)) : InCapacity b v := ⟨by omega, by omega⟩

/-- Terms whose magnitudes, with the element's own, stay below the upper limit add up exactly. -/
theorem Elem.foldl_add_eq_sum (b : Nat) (l : List Int) : ∀ e : Elem, e.ovf = false →
    (e.val.natAbs : Int) + (l.map fun t => (t.natAbs : Int)).sum < (2 : Int) ^ (b - 1) →
    l.foldl (fun a t => a.add b t false false) e = { e with val := e.val + l.sum } := by
  induction l with
  | nil => intro e _ _; simp
  | cons t r ih =>
    intro e ho hc
    rw [List.map_cons, List.sum_cons] at hc
    have hr : 0 ≤ (r.map fun t => (t.natAbs : Int)).sum := List.sum_nonneg (by simp)
    have hs : e.add b t false false = { e with val := e.val + t } := by
      rw [Elem.add_of_within ho (inCapacity_of_natAbs_lt (by omega)), Bool.or_false, ← ho]
    rw [List.foldl_cons, hs, ih { e with val := e.val + t } ho (by dsimp only; omega), List.sum_cons, Int.add_assoc]

end Sys2Proof.Machine

namespace Sys2Proof.Cert

open Sys2Proof.Machine

/-- Settles O27: case by case of `Elem.add`, and for the order by the exact sum, which no permutation changes. -/
theorem accumulationIsExact : Obligations.AccumulationIsExact := by
  unfold Obligations.AccumulationIsExact
  refine ⟨fun e b t tn tovf _ => ⟨Elem.add_nar .., fun ho => ?_, fun ho hi => ?_, fun ho hi hv => ?_, fun ho hi hv => ?_,
    fun ho hi hlo hhi => ?_⟩, fun e f r unit hn => ?_, fun e b l m _ ho hp hc => ⟨?_, ?_⟩⟩
  · rw [Elem.add_of_ovf ho]
    exact ⟨rfl, ho⟩
  · rw [hi, Elem.add_of_input_ovf ho]
    exact ⟨rfl, rfl⟩
  · rw [hi, Elem.add_of_live ho, capacity_of_above hv]
    exact ⟨rfl, decide_eq_true (by omega)⟩
  · rw [hi, Elem.add_of_live ho, capacity_of_below hv]
    exact ⟨rfl, decide_eq_true (by omega)⟩
  · rw [hi, Elem.add_of_within ho ⟨hlo, hhi⟩]
    exact ⟨rfl, rfl⟩
  · unfold Elem.retire
    rw [if_pos hn]
  · exact Elem.foldl_add_eq_sum b l e ho hc
  · rw [hp.sum_eq]
    exact Elem.foldl_add_eq_sum b m e ho (by rwa [(hp.map fun t => (t.natAbs : Int)).sum_eq] at hc)

end Sys2Proof.Cert
end

section
/-! SUPPORT. What a descriptor reads after its start. A start is traced; a trace record that is dropped is counted; a counter that
saturates raises an interrupt of its page, and that interrupt writes a page event at the admin queue's event ring (R483, R467, R378). So
bytes that a descriptor reads once it has started are those of the state before the start only where they lie off that ring. -/

namespace Sys2Proof.Cert

open Sys2Proof.Machine

/-! Bytes within reach. -/

theorem open_of_direct {s : State} {w : Who} {a n : Nat} (h : ∀ k < n, s.resolve w (a + k) = .ok (a + k) ∧ s.isUe (a + k) = false) :
    Open s w a n := fun k hk => ⟨a + k, h k hk⟩

/-- A descriptor names the bytes of stack 0 by their direct addresses (R340). -/
theorem resolve_stack_zero {s : State} {c : Ctx} (hc : bit (blkCords c.block) 0 = true) (hn : 0 < s.nCords)
    (hup : s.placeUp (.stack 0) = true) (ho : s.ownBad = []) {a : Nat} (ha : a < 0x2000000000) : s.resolve (.desc c) a = .ok a := by
  have hw : isWindow a = false := decide_eq_false (by omega)
  have hp : s.place a = .stack 0 := by
    unfold State.place
    rw [if_pos (by omega), show a / 0x2000000000 = 0 by omega]
    exact if_pos hn
  have hr : s.phys (.desc c) a = some a := by simp [State.phys, hw]
  simp [State.resolve, hr, hp, Who.allowed, hc, ho, hup]

/-- A range within reach is read. -/
theorem exists_read_of_open {s : State} {w : Who} {n : Nat} : ∀ {a : Nat}, Open s w a n → ∃ l, s.read w a n = .ok l := by
  induction n with
  | zero => exact fun _ => ⟨[], rfl⟩
  | succ n ih =>
    intro a h
    obtain ⟨p, hp, hu⟩ := h 0 (Nat.succ_pos n)
    obtain ⟨l, hl⟩ := ih (a := a + 1) fun k hk => by
      rw [Nat.add_assoc, Nat.add_comm 1 k]
      exact h (k + 1) (by omega)
    rw [Nat.add_zero] at hp
    have hb : s.readByte w a = .ok (s.byte p) := by simp [State.readByte, hp, hu]
    exact ⟨s.byte p :: l, by simp [State.read, hb, hl]⟩

/-! A start that writes an event. -/

/-- How the entries of unit `u`'s window have ended once a command has run. -/
def endings (u : Nat) : Host.Outcome State Fault Refusal → List (Option Status)
  | .next t => (t.engine u).win.map Entry.ended
  | _ => []

theorem not_ended_ok_of_endings {t : State} {u : Nat} {f : Fail} (h : endings u (.next t) = [some (.fail f)]) (e : Entry) (w : BitVec 16) :
    ¬ Ended t u 0 e (.ok w) := by
  intro hk
  unfold Ended at hk
  unfold endings at h
  obtain ⟨x, hx, hf⟩ := List.map_eq_singleton_iff.mp h
  rw [hx, List.getD_cons_zero, hf] at hk
  cases hk

/-- The bytes `l` with fields set: offset, width, value. -/
def withFields (l : List Byte) (fs : List (Nat × Nat × Nat)) : List Byte := fs.foldl (fun d f => setFld d f.1 f.2.1 f.2.2) l

/-- A descriptor's 64 bytes: engine, OP, flags with CCLS, no wait and no signal, and further fields of its body. -/
def plainDesc (eng op ccls : Nat) (fs : List (Nat × Nat × Nat)) : List Byte :=
  withFields (zeros 64) ([(0, 1, eng), (1, 1, op), (2, 1, ccls), (8, 4, 0xFFFFFFFF)] ++ fs)

/-- The admin queue's event ring, in host memory. -/
def ringBase : Nat := 0x800000000000

/-- A context over cord 0, EXPERT, whose one host window is the first line of that ring. -/
def ringCtx : Ctx :=
  { block := withFields (zeros 512) [(0, 3, 1), (3, 1, 8), (5, 1, 1), (6, 2, 1), (24, 4, 1), (64, 6, ringBase), (72, 8, 64)]
    seed := 0, slot := 0, syncBase := 0, lane := false, rseq := 0, queue := 0, used := [], step := none, dead := false, redo := false
    idleBanked := false }

/-- The descriptor `d` of core 0 as admission leaves it, with `k` credits and its words served. -/
def headEntry (d : List Byte) (k : Nat) : Entry :=
  { desc := d, addr := 0x1000, core := 0, ctx := 0, credits := k, started := false, startBeat := Beat.zero, tmo := false
    prog := { Progress.start with served := true }, flags := [], contrib := none, ended := none }

/-- A kindled package with Larfort port A up and the admin queue live, `d` alone in the window of engine `u`, memory `m`, stores `st`. The
trace unit of die 0 is enabled for DSTART and full; its count of dropped records is one below its maximum, and its interrupt SAT is
enabled. -/
def eventAtStart (u : Nat) (d : List Byte) (k : Nat) (m : SMap Byte) (st : SMap Store) : State :=
  { State.reset with
    kind := { Kind.reset with phase := 7, pwr := true, qual := true, opts := true }
    ports := [(0, { Port.reset with tstate := 5 })]
    ctxs := [(0, some ringCtx)]
    engines := [(u, { Engine.empty with win := [headEntry d k] })]
    stores := st
    mem := m
    queues := [(0, { Queue.none with live := true, ev := BitVec.ofNat 48 ringBase })]
    trc := [(0, { TraceUnit.reset with full := true })]
    pages := [(pgTrc 0, { Page.reset with irqEn := 0x10, cfg := [(0x100, 0x81FF0002)], cnt := [(2, BitVec.ofNat 64 (2 ^ 64 - 2))] })] }

section

variable {u : Nat} {d : List Byte} {k : Nat} {m : SMap Byte} {st : SMap Store}

theorem eventAtStart_ready {eng op : Nat} {x : EngUnit} (h : (eventAtStart u d k m st).unit u = some x ∧ x.eng = eng ∧ hOp d = op
      ∧ (eventAtStart u d k m st).blockFail u (headEntry d k) = none ∧ headerOk ringCtx (headEntry d k).hearth d = true
      ∧ (eventAtStart u d k m st).waitOk ringCtx (headEntry d k).hearth (hWait d) (hCount d) (hEpoch d) = true
      ∧ (eventAtStart u d k m st).need ringCtx (headEntry d k) ≤ k) :
    Ready (eventAtStart u d k m st) u eng op x ringCtx 0 (headEntry d k) := by
  obtain ⟨hunit, heng, hop, hblock, hheader, hwait, hcredits⟩ := h
  have hhead : ((eventAtStart u d k m st).engine u).head = some (0, headEntry d k) := by
    simp [State.engine, eventAtStart, SMap.get, Engine.head, headOf, headEntry]
  exact ⟨hunit, heng, hhead, hop, rfl, .inr rfl, hblock, hheader, hwait, hcredits, .inl rfl⟩

theorem eventAtStart_resolve_stack {a : Nat} (ha : a < 0x2000000000) : (eventAtStart u d k m st).resolve (.desc ringCtx) a = .ok a := by
  have hc : bit (blkCords ringCtx.block) 0 = true := by decide +kernel
  have hn : 0 < (eventAtStart u d k m st).nCords := show 0 < State.reset.nCords by decide
  exact resolve_stack_zero hc hn rfl rfl ha

theorem eventAtStart_open_stack {a n : Nat} (h : a + n ≤ 0x2000000000) : Open (eventAtStart u d k m st) (.desc ringCtx) a n :=
  open_of_direct fun j hj => ⟨eventAtStart_resolve_stack (by omega), rfl⟩

/-- The ring lies in host memory, behind every byte of a stack. -/
theorem eventAtStart_offRing_stack {a n : Nat} (h : a + n ≤ 0x2000000000) :
    OffRing (eventAtStart u d k m st) (.desc ringCtx) ((eventAtStart u d k m st).queue 0) (a, n) := by
  rintro i hi p hp ⟨j, hj, hlo, -⟩
  have hr : ∀ j < 16, ringBase ≤ (BitVec.ofNat 48 ringBase + BitVec.ofNat 48 (64 * j)).toNat := by decide
  have hb : ringBase ≤ p := (hr j hj).trans hlo
  dsimp only at hi hp
  rw [eventAtStart_resolve_stack (by omega)] at hp
  cases hp
  unfold ringBase at hb
  omega

end

/-! W12C: the event takes the place of its tracker line. -/

/-- The first CVE of hearth 0. -/
def cveUnit : Nat := hearthPage 0 6

/-- W12C of one row of 32 W16 elements from 0 to 0x2000 of stack 0; its tracker line is the first line of the event ring. -/
def w12cOnRing : List Byte := plainDesc 3 5 0x12 [(22, 6, 0x2000), (28, 6, ringBase), (40, 1, 1), (41, 1, 3), (42, 3, 32), (51, 2, 1)]

/-- The tracker line is valid: bit 0 of its byte 39 is set (R66). -/
def w12cStart : State := eventAtStart cveUnit w12cOnRing 2 [(ringBase + 39, 1)] []

theorem w12cStart_ready : Ready w12cStart cveUnit 3 5 ⟨0, 0, 3, 0⟩ ringCtx 0 (headEntry w12cOnRing 2) := by
  unfold w12cStart
  exact eventAtStart_ready (by decide +kernel)

theorem w12cStart_open : CveOpen w12cStart ringCtx w12cOnRing where
  src _ := eventAtStart_open_stack (by decide +kernel)
  dst := eventAtStart_open_stack (by decide +kernel)
  words h := absurd h (by decide +kernel)
  outl h := absurd h (by decide +kernel)
  tracker _ := open_of_direct (by decide +kernel)

/-- The event of its start leaves byte 39 of the tracker line at 0, and the descriptor fails. -/
theorem w12cStart_fails : endings cveUnit (exec (.w12c cveUnit) w12cStart) = [some (.fail { code := eBusErr, addr := 0x1000 })] := by
  decide +kernel

theorem not_conversionsEndDone : ¬ ConversionsEndDone := by
  intro h
  obtain ⟨-, -, -, -, hw⟩ := h w12cStart cveUnit 5 _ ringCtx 0 _ w12cStart_ready (by decide +kernel) w12cStart_open
  obtain ⟨t, w, ht, hd, -⟩ := hw (zeros 39 ++ [1] ++ zeros 24) rfl (by decide +kernel) (by decide +kernel)
  exact not_ended_ok_of_endings (ht ▸ w12cStart_fails) _ w hd

/-- Refutes O31: a W12C whose valid tracker line is a line of the admin queue's event ring does not end DONE where the trace record of
its start is dropped with an event; the statement asks that the line can be read, not that it lies off the ring. -/
theorem not_rowsAndConversionsRun : ¬ Obligations.RowsAndConversionsRun := by
  unfold Obligations.RowsAndConversionsRun
  rintro ⟨-, h, -, -⟩
  exact not_conversionsEndDone h

/-! ADD: the event takes the place of its source list. -/

/-- The XRE of hearth 0. -/
def xreUnit : Nat := hearthPage 0 12

/-- ADD of one image into the handle of tile 0, class 2 of store 0; its source list starts at byte 4 of the event ring. -/
def addOnRing : List Byte := plainDesc 9 1 3 [(16, 3, 0x200), (20, 6, ringBase + 4), (54, 1, 1)]

/-- The handle is live; the list names address 0, where the header of a one-limb image of class 2 stands (Table 5.4). -/
def addStart : State :=
  eventAtStart xreUnit addOnRing 3 [(0, 2), (5, 4)]
    [(0, { Store.empty with cls := some 2, tiles := [(tileKey 2 0, { cls := 2, handle := 0x200, drained := false, elems := [] })] })]

theorem addStart_ready : Ready addStart xreUnit 9 1 ⟨0, 0, 9, 0⟩ ringCtx 0 (headEntry addOnRing 3) := by
  unfold addStart
  exact eventAtStart_ready (by decide +kernel)

/-- An image's tile is read where its header is right and the rest of it within reach (R114). -/
theorem exists_readTile {s : State} {c : Ctx} {cls i a : Nat} {hd : List Byte} (hr : s.read (.desc c) a 64 = .ok hd)
    (hf : fld hd 0 1 = cls ∧ fld hd 4 2 = clsElems cls ∧ fld hd 6 2 = i ∧ fld hd 1 1 ≤ fld hd 2 1 ∧ fld hd 2 1 < clsLimbs cls)
    (hm : Open s (.desc c) (a + 64) (align64 (clsElems cls / 4)))
    (hl : Open s (.desc c) (a + 64 + align64 (clsElems cls / 4)) (clsElems cls * (fld hd 2 1 + 1 - fld hd 1 1) * 8)) :
    ∃ q, s.readTile c cls i a = .ok q := by
  obtain ⟨h0, h1, h2, h3, h4⟩ := hf
  obtain ⟨fl, hfl⟩ := exists_read_of_open hm
  obtain ⟨bs, hbs⟩ := exists_read_of_open hl
  unfold State.readTile
  simp only [hr, bind, Except.bind]
  rw [if_neg (by omega), hfl]
  dsimp only
  rw [hbs]
  exact ⟨_, rfl⟩

theorem addStart_image : Image addStart ringCtx (xreHandle addOnRing) 0 where
  aligned := rfl
  tiles := by
    rw [show (xreHandle addOnRing).cnt = 1 by decide +kernel, show (xreHandle addOnRing).cls = 2 by decide +kernel]
    obtain ⟨q, hq⟩ := exists_readTile (s := addStart) (c := ringCtx) (cls := 2) (i := 0) (a := 0)
      (hd := withFields (zeros 64) [(0, 1, 2), (5, 1, 4)]) (by decide +kernel) (by decide +kernel)
      (eventAtStart_open_stack (by decide +kernel)) (eventAtStart_open_stack (by decide +kernel))
    exact ⟨q, hq, trivial⟩
  off := eventAtStart_offRing_stack (by decide +kernel)

/-- The event of its start puts 0xFFFF into the top bytes of the listed address, and the descriptor fails. -/
theorem addStart_fails : endings xreUnit (exec (.xreAdd xreUnit) addStart)
    = [some (.fail { code := eBusErr, addr := BitVec.ofNat 48 (ringBase + 4) })] := by
  decide +kernel

theorem not_accumulatorDescriptorsEndDone : ¬ AccumulatorDescriptorsEndDone := by
  intro h
  obtain ⟨hadd, -⟩ := h addStart xreUnit 1 _ ringCtx 0 _ _ addStart_ready rfl (by decide +kernel)
  obtain ⟨t, ht, hd⟩ := hadd [0] rfl (by decide +kernel) (by decide +kernel) (by decide +kernel) (by decide +kernel) (by decide +kernel)
    (by decide +kernel) (List.forall_mem_singleton.mpr addStart_image) (by decide +kernel)
  exact not_ended_ok_of_endings (ht ▸ addStart_fails) _ 0 hd

/-- Refutes O34: an ADD whose source list stands in a line of the admin queue's event ring does not end DONE where the trace record of
its start is dropped with an event; the statement keeps the images off the ring, and not the list that names them. -/
theorem not_reductionsRun : ¬ Obligations.ReductionsRun := by
  unfold Obligations.ReductionsRun
  rintro ⟨-, h, -, -, -⟩
  exact not_accumulatorDescriptorsEndDone h

end Sys2Proof.Cert
end

section
/-! SUPPORT. ISSUE (R265) and its admission (R277): a word at its fetch, what the parts of the two commands leave of the cores and of
the engines, and the reads that a change of an engine leaves as they are. -/

namespace Sys2Proof.Machine

@[simp] theorem State.core_count (s : State) (pg i n core : Nat) : (s.count pg i n).core core = s.core core := by
  unfold State.core
  rw [(State.count_changes s pg i n).cores (by decide)]

@[simp] theorem State.engine_count (s : State) (pg i n u : Nat) : (s.count pg i n).engine u = s.engine u := by
  unfold State.engine
  rw [(State.count_changes s pg i n).engines (by decide)]

@[simp] theorem State.core_wordDone (s : State) (core k : Nat) : (s.wordDone core).core k = s.core k := State.core_count ..

@[simp] theorem State.engine_wordDone (s : State) (core u : Nat) : (s.wordDone core).engine u = s.engine u := State.engine_count ..

@[simp] theorem State.core_setEngine (s : State) (u : Nat) (e : Engine) (core : Nat) : (s.setEngine u e).core core = s.core core := rfl

@[simp] theorem State.engine_setCore (s : State) (core : Nat) (x : Core) (u : Nat) : (s.setCore core x).engine u = s.engine u := rfl

/-- What agents read does not depend on the engines. -/
@[simp] theorem State.read_setEngine (s : State) (u : Nat) (e : Engine) (w : Who) (n : Nat) :
    ∀ a, (s.setEngine u e).read w a n = s.read w a n := by
  induction n with
  | zero => exact fun _ => rfl
  | succ n ih =>
    intro a
    have hb : (s.setEngine u e).readByte w a = s.readByte w a := rfl
    simp only [State.read, hb, ih]

@[simp] theorem State.fetchBytes_setEngine (s : State) (u : Nat) (e : Engine) (c : Ctx) (w : Addr) (a n : Nat) :
    (s.setEngine u e).fetchBytes c w a n = s.fetchBytes c w a n := by
  have hp : (s.setEngine u e).inPartition c a = s.inPartition c a := rfl
  simp only [State.fetchBytes, hp, State.read_setEngine]

end Sys2Proof.Machine

namespace Sys2Proof.Cert

open Sys2Proof.Machine

/-- At a well-formed word of its opcode, a word command runs (R264). -/
theorem AtWord.runWord_eq {s : State} {core opc ctx : Nat} {c : Ctx} {w : List Byte} (h : AtWord s core opc ctx c w) (ho : opc ≤ 9)
    (run : Nat → Ctx → Core → List Byte → State → State) : s.runWord core opc run = run ctx c (s.core core) w s := by
  unfold State.runWord
  simp [h.owner, h.running, h.up, h.aligned, h.fetched, h.opcode, h.form, h.syncs, ho]

/-- The model forms the descriptor address of Table 11.1. -/
theorem issueAddr_eq (x : Core) (w : List Byte) : issueAddr x w = descriptorAt x w := by
  simp [issueAddr, descriptorAt, bit, Nat.testBit_eq_decide_div_mod_eq]

theorem exec_issueWord (core time : Nat) (s : State) : exec (.issueWord core time) s = execIssueWord core time s := rfl

theorem exec_issueAdmit (u time : Nat) (s : State) : exec (.issueAdmit u time) s = execIssueAdmit u time s := rfl

/-- An ISSUE whose descriptor passes the checks pends on its engine, and its core stalls on the word. -/
theorem execIssueWord_of_descriptor {s : State} {core ctx u : Nat} {c : Ctx} {w d : List Byte} (time : Nat) (h : AtWord s core 1 ctx c w)
    (hu : engPage (core / 8) (wEng w) (wInst w) = some u) (ha : (descriptorAt (s.core core) w).toNat % 64 = 0)
    (hd : s.fetchBytes c (s.core core).pc (descriptorAt (s.core core) w).toNat 64 = .ok d) (he : hEng d = wEng w) :
    execIssueWord core time s = .next
      (((s.wordDone core).setEngine u { s.engine u with pend := (s.engine u).pend
          ++ [{ core := core, addr := descriptorAt (s.core core) w, time := time }] }).stall core (s.core core) w .issuing) := by
  unfold execIssueWord
  rw [h.runWord_eq (by decide)]
  simp [issueAddr_eq, hu, ha, hd, he]

/-- The window entry that admission makes of the ISSUE `p` and its descriptor `d` (R277). -/
def admitted (ctx : Nat) (p : Pend) (d : List Byte) : Entry :=
  { desc := d, addr := p.addr, core := p.core, ctx := ctx, credits := 0, started := false, startBeat := Beat.zero, tmo := false,
    prog := Progress.start, flags := [], contrib := none, ended := none }

/-- The engine without the pending ISSUE of `core`. -/
def withoutPending (e : Engine) (core : Nat) : Engine := { e with pend := e.pend.filter fun q => q.core ≠ core }

/-- An ISSUE whose turn it is, and whose descriptor still passes the checks, leaves the pending ones and enters the window; its core goes
on at the next word. -/
theorem execIssueAdmit_of_descriptor {s : State} {u time ctx : Nat} {x : EngUnit} {c : Ctx} {p : Pend} {d : List Byte}
    (hx : s.unit u = some x) (hc : s.cordCtx (x.die / 3) = some (ctx, c)) (hw : (s.engine u).win.length < 8)
    (hp : s.admits c x u time = some p) (hd : s.fetchBytes c (s.core p.core).pc p.addr.toNat 64 = .ok d) (he : hEng d = x.eng) :
    execIssueAdmit u time s = .next
      ((((s.setEngine u (withoutPending (s.engine u) p.core)).setEngine u
          { withoutPending (s.engine u) p.core with win := (s.engine u).win ++ [admitted ctx p d] }).count
        (hearthPage (p.core / 8) 0) 1 1).nextWord p.core (s.core p.core)) := by
  unfold execIssueAdmit
  simp [hx, hc, hw, hp, hd, he, withoutPending, admitted]

theorem issueBecomesPending : IssueBecomesPending := by
  intro s core ctx time u c w d h hu ha hd he
  refine ⟨_, (exec_issueWord ..).trans (execIssueWord_of_descriptor time h hu ha hd he), ?_, fun v hv => ?_, ?_, fun k hk => ?_⟩
  · simp [State.stall]
  · simp [State.stall, State.engine_setEngine_ne _ _ _ _ hv]
  · simp [State.stall]
  · simp [State.stall, State.core_setCore_ne _ _ _ _ hk]

theorem issueAdmitCopiesDescriptor : IssueAdmitCopiesDescriptor := by
  intro s u time ctx x c p d hx hc hw hp hd he
  refine ⟨_, (exec_issueAdmit ..).trans (execIssueAdmit_of_descriptor hx hc hw hp hd he), ?_, ?_, ?_, fun v hv => ?_⟩
  · simp [State.nextWord, admitted]
  · simp [State.nextWord, withoutPending]
  · simp [State.nextWord, past]
  · simp [State.nextWord, State.engine_setEngine_ne _ _ _ _ hv]

/-- Settles O25: an ISSUE at its word whose descriptor passes the checks pends on its engine, and one whose turn it is enters the
window; the counters that both commands raise touch neither a core nor an engine. -/
theorem issueReachesItsWindow : Obligations.IssueReachesItsWindow :=
  ⟨issueBecomesPending, issueAdmitCopiesDescriptor⟩

end Sys2Proof.Cert
end

section
/-! SUPPORT. The row of EMUL (R172): its elements one by one, then the exact product and the NaR of each. -/

namespace Sys2Proof.Machine

@[simp] theorem mulOpt_some (x y : Rat) : mulOpt (some x) (some y) = some (x * y) := rfl

@[simp] theorem mulOpt_none_left (b : Option Rat) : mulOpt none b = none := rfl

@[simp] theorem mulOpt_none_right (a : Option Rat) : mulOpt a none = none := by cases a <;> rfl

@[simp] theorem rowPut_none (d : List Byte) (w : Words) (r j : Nat) : rowPut d w r j none = ⟨(rowO d).nar, false, false⟩ := rfl

/-- The element that EMUL writes at (r, j) from the factors `a` and `b`. -/
def emulElem (d : List Byte) (w : Words) (r j : Nat) (a b : Option Rat) : Rounded :=
  rowPut d w r j (mulOpt (mulOpt a b) (some (rowP d)))

theorem emulElem_some (d : List Byte) (w : Words) (r j : Nat) (y z : Rat) :
    emulElem d w r j (some y) (some z) = rowPut d w r j (some (y * z * rowP d)) := by
  simp [emulElem]

theorem emulElem_nar {a b : Option Rat} (d : List Byte) (w : Words) (r j : Nat) (h : a = none ∨ b = none) :
    emulElem d w r j a b = rowPut d w r j none := by
  rcases h with rfl | rfl <;> simp [emulElem]

/-- Where both sources of a row are read, EMUL's row is its elements over their pairs, and nothing further. -/
theorem State.emulRow_of_sources {s : State} {c : Ctx} {e : Entry} {r : Nat} {a b : List (Option Rat)} (w : Words)
    (ha : s.rowSrc c e r = .ok a) (hb : s.rowSrc2 c e r = .ok b) :
    s.emulRow c e w r = .ok (.of ((a.zip b).zipIdx.map fun p => emulElem e.desc w r p.2 p.1.1 p.1.2)) := by
  unfold State.emulRow
  rw [ha, hb]
  rfl

/-- Every position that both sources hold has its element in EMUL's row, formed from the two values there. -/
theorem State.emulRow_getElem {s : State} {c : Ctx} {e : Entry} {w : Words} {r j : Nat} {a b : List (Option Rat)} {q : RowRes}
    (ha : s.rowSrc c e r = .ok a) (hb : s.rowSrc2 c e r = .ok b) (hq : s.emulRow c e w r = .ok q)
    (hja : j < a.length) (hjb : j < b.length) : ∃ h : j < q.out.length, q.out[j] = emulElem e.desc w r j a[j] b[j] := by
  obtain rfl := Except.ok.inj ((State.emulRow_of_sources w ha hb).symm.trans hq)
  exact ⟨by simp [RowRes.of, hja, hjb], by simp [RowRes.of]⟩

end Sys2Proof.Machine

namespace Sys2Proof.Cert

open Sys2Proof.Machine

/-- Settles O29: the element at `j` is `emulElem` of the two values there, whose product with PARAM is formed over the rationals before
its one rounding, and which is NaR with either factor. -/
theorem emulIsExactProduct : Obligations.EmulIsExactProduct := by
  intro s c e w r a b q ha hb hq j hja hjb p hp
  obtain ⟨hj, helem⟩ := State.emulRow_getElem ha hb hq hja hjb
  refine ⟨hj, fun y z hy hz => ?_, fun hnar => ?_, ?_⟩
  · rw [helem, hy, hz, emulElem_some, hp]
  · rw [helem, emulElem_nar _ _ _ _ hnar]
  · rw [rowPut_none]

end Sys2Proof.Cert
end

section
/-! SUPPORT. Reach: an engine's counts, traces, draws and writes leave every address where it resolved (R17, R342, R395, R403) and make
no further unit uncorrectable (R346, R347), so that what can be reached at a descriptor's start can be reached while it runs. -/

namespace Sys2Proof.Machine

/-- The parts of State that an engine's counts, traces, draws and writes may change. -/
def runMask : Nat := 0xa20702011400

/-- The parts of a page that decide what can be reached: its words, its mismatches, and EARLY. -/
def Page.access (p : Page) : SMap Word × List Nat × Bool := (p.cfg, p.badPar, p.early)

theorem Page.access_inj {p q : Page} : p.access = q.access ↔ p.cfg = q.cfg ∧ p.badPar = q.badPar ∧ p.early = q.early := by
  simp [Page.access]

/-- From `s` to `t` an engine has worked, and everything within reach has stayed there. -/
structure KeepsReach (s t : State) : Prop where
  changes : Changes runMask s t
  pages : ∀ pg, (t.page pg).access = (s.page pg).access
  ue : t.ue ⊆ s.ue

section

variable {s t : State} (h : KeepsReach s t)
include h

theorem KeepsReach.fuses : t.fuses = s.fuses := h.changes.fuses rfl

theorem KeepsReach.engine (u : Nat) : t.engine u = s.engine u := by
  unfold State.engine
  rw [h.changes.engines rfl]

theorem KeepsReach.lt_win {u i : Nat} (hi : i < (s.engine u).win.length) : i < (t.engine u).win.length := by rwa [h.engine]

theorem KeepsReach.trans {v : State} (k : KeepsReach t v) : KeepsReach s v where
  changes := h.changes.andThen k.changes
  pages pg := (k.pages pg).trans (h.pages pg)
  ue := List.Subset.trans k.ue h.ue

theorem KeepsReach.hasDie (d : Nat) : t.hasDie d = s.hasDie d := by
  unfold State.hasDie State.small
  rw [h.fuses]

theorem KeepsReach.place (a : Nat) : t.place a = s.place a := by
  unfold State.place State.nCords State.small
  simp only [h.fuses, h.hasDie]

theorem KeepsReach.dom (k : Nat) : t.dom k = s.dom k := by
  unfold State.dom State.domDflt State.domReq0 State.hlw32 State.strap
  rw [h.changes.doms rfl, h.changes.kind rfl, h.changes.ember rfl]

theorem KeepsReach.active (k : Nat) : t.active k = s.active k := by
  unfold State.active State.hasDom
  simp only [h.hasDie, h.dom]

theorem KeepsReach.clkq (i : PageInfo) : t.clkq i = s.clkq i := by
  unfold State.clkq State.dieQual
  rw [h.changes.kind rfl, h.changes.lostClk rfl]

theorem KeepsReach.iso (pg : Nat) (i : PageInfo) : t.iso pg i = s.iso pg i := by
  obtain ⟨-, -, hearly⟩ := Page.access_inj.mp (h.pages pg)
  unfold State.iso State.blkHeld State.dieHeld
  rw [h.changes.rst rfl, h.clkq, h.dom, hearly]

theorem KeepsReach.cfg (pg off : Nat) (reset : Word) : t.cfg pg off reset = s.cfg pg off reset := by
  obtain ⟨hcfg, hbad, -⟩ := Page.access_inj.mp (h.pages pg)
  unfold State.cfg State.takesDesc State.pageInfo
  simp only [h.hasDie, hcfg, hbad]

theorem KeepsReach.placeUp (p : Place) : t.placeUp p = s.placeUp p := by
  cases p <;> simp only [State.placeUp, h.active, h.iso]

theorem KeepsReach.phys (w : Who) (a : Nat) : t.phys w a = s.phys w a := by
  unfold State.phys State.ilv
  simp only [h.cfg]

theorem KeepsReach.portLinked (p : Nat) : t.portLinked p = s.portLinked p := by
  unfold State.portLinked State.port
  rw [h.changes.ports rfl]

theorem KeepsReach.hostUp : t.hostUp = s.hostUp := by
  unfold State.hostUp State.portOpen
  simp only [h.portLinked, h.iso]

theorem KeepsReach.hostClosed : t.hostClosed = s.hostClosed := by
  unfold State.hostClosed
  simp only [h.portLinked, h.active]

/-- Every address resolves as before. -/
theorem KeepsReach.resolve (w : Who) (a : Nat) : t.resolve w a = s.resolve w a := by
  unfold State.resolve
  simp only [h.phys, h.place, h.placeUp, h.hostUp, h.hostClosed, h.changes.ownBad rfl]

/-- No unit has become uncorrectable. -/
theorem KeepsReach.isUe {p : Nat} (hp : s.isUe p = false) : t.isUe p = false := by
  unfold State.isUe State.ueKey at hp ⊢
  rw [decide_eq_false_iff_not] at hp ⊢
  rw [h.place]
  exact fun hm => hp (h.ue hm)

end

/-! Operations of a running engine. -/

/-- An operation that leaves pages and uncorrectable units alone. -/
theorem KeepsReach.of_changes {m : Nat} {s t : State} (h : Changes m s t) (hm : Nat.lor m runMask = runMask := by decide)
    (hp : m.testBit 10 = false := by decide) (hu : m.testBit 33 = false := by decide) : KeepsReach s t where
  changes := h.widen hm
  pages pg := by unfold State.page; rw [h.pages hp]
  ue := by rw [h.ue hu]; exact List.Subset.refl _

theorem KeepsReach.refl (s : State) : KeepsReach s s := .of_changes (Changes.refl 0 s)

theorem State.page_setPage_eq (s : State) (pg : Nat) (p : Page) (j : Nat) : (s.setPage pg p).page j = if j = pg then p else s.page j := by
  split
  · next h => subst h; simp
  · next h => exact State.page_setPage_ne _ _ _ _ h

theorem State.setPage_keepsReach {s : State} {pg : Nat} {p : Page} (h : p.access = (s.page pg).access) : KeepsReach s (s.setPage pg p) where
  changes := (State.setPage_changes s pg p).widen
  pages j := by
    rw [State.page_setPage_eq]
    split
    · next hj => rw [hj, h]
    · rfl
  ue := List.Subset.refl _

theorem State.raise_keepsReach (s : State) (pg : Nat) (m : BitVec 6) : KeepsReach s (s.raise pg m) := by
  unfold State.raise State.pageIrq
  have hset : KeepsReach s (s.setPage pg { s.page pg with irqRaw := (s.page pg).irqRaw ||| m }) := State.setPage_keepsReach rfl
  dsimp only
  split
  · exact hset.trans (.of_changes (State.pkgEvent_changes ..))
  · exact hset

theorem State.count_keepsReach (s : State) (pg i n : Nat) : KeepsReach s (s.count pg i n) := by
  unfold State.count
  split
  · exact .refl s
  · dsimp only
    split
    · exact .refl s
    · split
      · exact State.setPage_keepsReach rfl
      · refine .trans ?_ (State.raise_keepsReach ..)
        exact State.setPage_keepsReach rfl

theorem KeepsReach.count {s t : State} (h : KeepsReach s t) (pg i n : Nat) : KeepsReach s (t.count pg i n) :=
  h.trans (State.count_keepsReach ..)

theorem State.traceBuf_keepsReach (s : State) (die : Nat) (r : List Byte) : KeepsReach s (s.traceBuf die r) := by
  unfold State.traceBuf
  dsimp only
  split
  · exact (KeepsReach.of_changes (State.setTrc_changes ..)).count ..
  · split
    · exact (KeepsReach.of_changes (State.takeFree_changes s 6)).trans (.of_changes (State.setTrc_changes ..))
    · exact .of_changes (State.setTrc_changes ..)

theorem State.traceEntry_keepsReach (s : State) (x : EngUnit) (e : Entry) (rtype : Nat) (data : List Byte) :
    KeepsReach s (s.traceEntry x e rtype data) := by
  unfold State.traceEntry State.traceEng State.trace
  split
  · split
    · exact (KeepsReach.of_changes (State.takeFree_changes s 6)).trans (State.traceBuf_keepsReach ..)
    · exact .refl s
  · exact .refl s

theorem State.write_keepsReach (s : State) (w : Who) (a : Nat) (bs : List Byte) : okAll (KeepsReach s) (s.write w a bs) := by
  refine ⟨fun {t} ht => ?_⟩
  have hchanges := (State.write_changes s w a bs).get ht
  unfold State.write at ht
  split at ht
  · cases ht
  · dsimp only at ht
    split at ht
    · cases ht
    · cases ht
      refine ⟨hchanges.widen, fun pg => ?_, ?_⟩
      · unfold State.page
        rw [hchanges.pages rfl]
      · rw [(State.setAt_changes _ _ _).ue rfl]
        exact List.filter_sublist.subset

/-! Windows. -/

theorem modifyAt_eq_modify {α : Type} (f : α → α) (l : List α) : ∀ i, modifyAt l i f = l.modify i f := by
  induction l with
  | nil => exact fun i => by simp [modifyAt]
  | cons x r ih =>
    intro i
    cases i with
    | zero => rfl
    | succ i => rw [modifyAt, ih, List.modify_succ_cons]

@[simp] theorem State.win_setEntry (s : State) (u i : Nat) (f : Entry → Entry) :
    ((s.setEntry u i f).engine u).win = (s.engine u).win.modify i f := by
  simp [State.setEntry, modifyAt_eq_modify]

/-- The entry that a change of an entry leaves in the window. -/
theorem State.getD_win_setEntry {s : State} {u i : Nat} (f : Entry → Entry) (h : i < (s.engine u).win.length) (e : Entry) :
    ((s.setEntry u i f).engine u).win.getD i e = f ((s.engine u).win[i]) := by
  simp [List.getD, h]

/-- The head of a window is an entry of it that has not started. -/
theorem headOf_spec : ∀ {l : List Entry} {k i : Nat} {e : Entry}, headOf k l = some (i, e) →
    ∃ j, i = k + j ∧ l[j]? = some e ∧ e.started = false
  | [], _, _, _, h => by cases h
  | x :: r, k, i, e, h => by
    unfold headOf at h
    split at h
    · next hs =>
      cases h
      exact ⟨0, rfl, rfl, by simpa using hs⟩
    · split at h
      · obtain ⟨j, hi, hj, hs⟩ := headOf_spec h
        exact ⟨j + 1, by omega, by simpa using hj, hs⟩
      · cases h

theorem Engine.win_of_head {x : Engine} {i : Nat} {e : Entry} (h : x.head = some (i, e)) : x.win[i]? = some e ∧ e.started = false := by
  obtain ⟨j, hi, hj, hs⟩ := headOf_spec h
  rw [Nat.zero_add] at hi
  exact ⟨hi ▸ hj, hs⟩

theorem Engine.lt_of_head {x : Engine} {i : Nat} {e : Entry} (h : x.head = some (i, e)) : i < x.win.length :=
  (List.getElem?_eq_some_iff.mp (Engine.win_of_head h).1).1

/-- A list whose every member is answered is answered as a whole. -/
theorem exists_mapM_ok {ε α β : Type} {f : α → Except ε β} : ∀ {l : List α}, (∀ a ∈ l, ∃ b, f a = .ok b) → ∃ r, l.mapM f = .ok r
  | [], _ => ⟨[], rfl⟩
  | a :: l, h => by
    obtain ⟨b, hb⟩ := h a List.mem_cons_self
    obtain ⟨r, hr⟩ := exists_mapM_ok (l := l) fun x hx => h x (List.mem_cons_of_mem _ hx)
    exact ⟨b :: r, by rw [List.mapM_cons, hb, hr]; rfl⟩

end Sys2Proof.Machine

namespace Sys2Proof.Cert

open Sys2Proof.Machine

theorem Open.keep {s t : State} {w : Who} {a n : Nat} (h : Open s w a n) (k : KeepsReach s t) : Open t w a n := fun j hj =>
  let ⟨p, hp, hu⟩ := h j hj
  ⟨p, by rw [k.resolve, hp], k.isUe hu⟩

/-- A part of a range within reach. -/
theorem Open.part {s : State} {w : Who} {a n : Nat} (h : Open s w a n) {i m : Nat} (hm : i + m ≤ n) : Open s w (a + i) m := fun j hj => by
  rw [Nat.add_assoc]
  exact h (i + j) (by omega)

theorem Open.exists_resolveAll {s : State} {w : Who} {n : Nat} : ∀ {a : Nat}, Open s w a n →
    ∃ ps, s.resolveAll w a n = .ok ps ∧ ∀ p ∈ ps, s.isUe p = false := by
  induction n with
  | zero => exact fun _ => ⟨[], rfl, by simp⟩
  | succ n ih =>
    intro a h
    obtain ⟨p, hp, hu⟩ := h 0 (Nat.succ_pos n)
    obtain ⟨ps, hps, hus⟩ := ih (h.part (i := 1) (by omega))
    exact ⟨p :: ps, by simp [State.resolveAll, show s.resolve w a = .ok p from hp, hps], List.forall_mem_cons.mpr ⟨hu, hus⟩⟩

/-- A range within reach is written, and what is within reach stays there. -/
theorem Open.exists_write {s : State} {w : Who} {a : Nat} {bs : List Byte} (h : Open s w a bs.length) :
    ∃ t, s.write w a bs = .ok t ∧ KeepsReach s t := by
  obtain ⟨ps, hps, hu⟩ := h.exists_resolveAll
  have hw : ∃ t, s.write w a bs = .ok t := by
    unfold State.write
    simp only [hps]
    split
    · next x hx =>
      have hbad := List.find?_some hx
      rw [hu x.1 (List.fst_mem_of_mem_zipIdx (List.mem_of_find?_eq_some hx))] at hbad
      cases hbad
    · exact ⟨_, rfl⟩
  obtain ⟨t, ht⟩ := hw
  exact ⟨t, ht, (State.write_keepsReach s w a bs).get ht⟩

theorem Open.exists_rd {s : State} {c : Ctx} {a n : Nat} (h : Open s (.desc c) a n) : ∃ v, s.rd c a n = .ok v := by
  obtain ⟨l, hl⟩ := exists_read_of_open h
  exact ⟨leVal l, by simp [State.rd, State.readVal, hl, Except.map]⟩

/-! The start and the end of a descriptor. -/

/-- An entry of the window that ends has the status of its end. -/
theorem ended_endEntry {s : State} {u i : Nat} (h : i < (s.engine u).win.length) (e : Entry) (st : Status) :
    Ended (s.endEntry u i st) u i e st := by
  unfold Ended State.endEntry
  rw [State.getD_win_setEntry _ h]

theorem begun_length (s : State) (u i : Nat) (x : EngUnit) (e : Entry) :
    ((begun s u i x e).engine u).win.length = (s.engine u).win.length := by
  unfold begun State.startEntry
  rw [(State.traceEntry_keepsReach ..).engine, State.win_setEntry, List.length_modify]

/-- What can be reached before a descriptor's start can be reached behind it. -/
theorem Open.begun {s : State} {w : Who} {a n : Nat} (h : Open s w a n) (u i : Nat) (x : EngUnit) (e : Entry) :
    Open (begun s u i x e) w a n := by
  have hset : Open (s.setEntry u i fun e => { e with started := true, startBeat := s.ctxBeat e.ctx }) w a n := h
  exact hset.keep (State.traceEntry_keepsReach ..)

/-- A ready descriptor starts and runs (R280). -/
theorem Ready.startEngine_eq {s t : State} {u eng op : Nat} {x : EngUnit} {c : Ctx} {i : Nat} {e : Entry}
    {words : Ctx → Entry → List Nat} {run : EngUnit → Ctx → Nat → Entry → State → Option State} (h : Ready s u eng op x c i e)
    (hop : op ∈ engOps eng) (hw : e.prog.served = true ∨ words c (live s e) = [])
    (hrun : run x c i (live s e) (begun s u i x e) = some t) : s.startEngine u eng op words run = t := by
  obtain ⟨hunit, rfl, hhead, rfl, hctx, hfence, hblock, hheader, hwait, hcredits, -⟩ := h
  have hserved : ((words c (live s e)).isEmpty || e.prog.served) = true := by rcases hw with hw | hw <;> simp [hw]
  have hfirst : (!hFence e.desc || decide (i = 0)) = true := by rcases hfence with hf | hf <;> simp [hf]
  unfold live at hserved hrun
  unfold begun at hrun
  unfold State.startEngine
  simp [hunit, hhead, hctx, hblock, hheader, hwait, hcredits, hop, hserved, hfirst, hrun]

end Sys2Proof.Cert
end

section
/-! SUPPORT. The random engines and the service of random words (R188, R197 to R204): what they keep within reach, what their commands
run, and how the runs end. -/

namespace Sys2Proof.Machine

theorem State.drawGroups_keepsReach (s : State) (c : Ctx) (g : Nat) (l : List Nat) : KeepsReach s (s.drawGroups c g l).2 :=
  .of_changes (State.drawGroups_changes ..)

theorem State.bitsBlock_keepsReach (s : State) (c : Ctx) (g i : Nat) (e : Entry) : KeepsReach s (s.bitsBlock c g i e).2 := by
  unfold State.bitsBlock
  dsimp only
  split
  · exact ((KeepsReach.of_changes (State.laneDraw_changes ..)).trans (.of_changes (State.laneDraw_changes ..))).count ..
  · exact State.count_keepsReach ..

/-- A block is 16 bytes (R197). -/
theorem State.bitsBlock_length (s : State) (c : Ctx) (g i : Nat) (e : Entry) : (s.bitsBlock c g i e).1.length = 16 := by
  unfold State.bitsBlock
  dsimp only
  split <;> rfl

theorem State.bernDraws_keepsReach (s : State) (c : Ctx) (g : Nat) (e : Entry) : KeepsReach s (s.bernDraws c g e).2 := by
  unfold State.bernDraws
  dsimp only
  split
  · exact (State.drawGroups_keepsReach ..).count ..
  · exact State.count_keepsReach ..

theorem State.serveWords_keepsReach (s : State) (c : Ctx) (g : Nat) (wide : Bool) (es : List Nat) :
    KeepsReach s (s.serveWords c g wide es).2 := by
  unfold State.serveWords
  dsimp only
  split
  · exact ((State.count_keepsReach ..).trans (State.drawGroups_keepsReach ..)).count ..
  · exact (State.count_keepsReach ..).count ..

theorem State.smpCount_keepsReach (s : State) (u : Nat) (d : List Byte) (q : SmpRow) : KeepsReach s (s.smpCount u d q) := by
  unfold State.smpCount
  exact ((((((State.count_keepsReach ..).count ..).count ..).count ..).count ..).count ..).count ..

/-- Under indexed words a service draws nothing (R199). -/
theorem State.serveWords_indexed {s : State} {c : Ctx} (hc : c.lane = false) (g : Nat) (wide : Bool) (es : List Nat) :
    (s.serveWords c g wide es).1 = [] ∧ (s.serveWords c g wide es).2.lanes = s.lanes := by
  unfold State.serveWords
  simp only [hc]
  exact ⟨rfl, ((State.count_changes ..).andThen (State.count_changes ..)).lanes rfl⟩

theorem le_align64 (n : Nat) : n ≤ align64 n := by
  unfold align64
  omega

theorem onOk_ok {α β : Type} (a : α) (bad : Fail → β) (good : α → β) : onOk (.ok a) bad good = good a := rfl

/-- A row that is read and written is counted, and the next one follows. -/
theorem State.smpRun_succ {s t : State} {c : Ctx} {e : Entry} {w : Words} {r : Nat} {q : SmpRow} (u i n : Nat)
    (hq : s.smpRow c e.desc w r = .ok q) (ht : s.smpPut c e r q = .ok t) :
    s.smpRun c u i e w (n + 1) r = (t.smpCount u e.desc q).smpRun c u i e w n (r + 1) := by
  rw [State.smpRun, hq, onOk_ok, ht, onOk_ok]

end Sys2Proof.Machine

namespace Sys2Proof.Cert

open Sys2Proof.Machine

/-! The commands of the random engines. -/

theorem exec_bits (u : Nat) (s : State) : exec (.bits u) s = execBits u s := rfl

theorem exec_bern (u : Nat) (s : State) : exec (.bern u) s = execBern u s := rfl

theorem exec_smpSample (u : Nat) (s : State) : exec (.smpSample u) s = execSmpSample u s := rfl

theorem exec_rngWordRequest (u : Nat) (s : State) : exec (.rngWordRequest u) s = execRngWordRequest u s := rfl

theorem Ready.exec_bits_eq {s : State} {u : Nat} {x : EngUnit} {c : Ctx} {i : Nat} {e : Entry} (h : Ready s u 5 1 x c i e)
    (hb : rngBody c e.desc = true) :
    exec (.bits u) s = .next ((begun s u i x e).bitsRun c u i x.g (live s e) (rngCount e.desc) 0) :=
  (exec_bits u s).trans (congrArg _ (h.startEngine_eq (by decide) (.inr rfl) (if_pos hb)))

theorem Ready.exec_bern_eq {s : State} {u : Nat} {x : EngUnit} {c : Ctx} {i : Nat} {e : Entry} (h : Ready s u 5 2 x c i e)
    (hb : rngBody c e.desc = true) :
    exec (.bern u) s = .next (((begun s u i x e).bernDraws c x.g (live s e)).2.bernRun c u i (live s e)
      { (live s e).words c (fld e.desc 32 4) with draws := ((begun s u i x e).bernDraws c x.g (live s e)).1 }
      ((rngCount e.desc + 7) / 8) 0) :=
  (exec_bern u s).trans (congrArg _ (h.startEngine_eq (by decide) (.inr rfl) (if_pos hb)))

theorem Ready.exec_smpSample_eq {s : State} {u : Nat} {x : EngUnit} {c : Ctx} {i : Nat} {e : Entry} (h : Ready s u 6 1 x c i e)
    (hb : smpBody e.desc = true) :
    exec (.smpSample u) s
      = .next ((begun s u i x e).smpRun c u i (live s e) ((live s e).words c (fld e.desc 46 4)) (smpRows e.desc) 0) := by
  have hw : s.wordsAsked u x c (live s e) = s.smpWords c (live s e) := by simp [State.wordsAsked, h.eng]
  exact (exec_smpSample u s).trans
    (congrArg _ (h.startEngine_eq (by decide) (h.words.imp_right (hw.symm.trans ·)) (if_pos hb)))

/-- The service of a head's words leaves them in its entry, and the service done (R199). -/
theorem exec_rngWordRequest_eq {s : State} {u : Nat} {x : EngUnit} {c : Ctx} {i : Nat} {e : Entry} {es : List Nat}
    (hunit : s.unit u = some x) (hhead : (s.engine u).head = some (i, e)) (hctx : s.ctx? e.ctx = some c) (hserved : e.prog.served = false)
    (hheader : headerOk c e.hearth e.desc = true) (hcredits : s.need c e ≤ e.credits)
    (hes : s.wordsAsked u x c { e with startBeat := s.ctxBeat e.ctx } = es) (hwords : es ≠ [])
    (hwait : s.waitOk c e.hearth (hWait e.desc) (hCount e.desc) (hEpoch e.desc) = true) :
    exec (.rngWordRequest u) s = .next ((s.serveWords c x.g (decide (x.eng = 6)) es).2.setProg u i fun p =>
      { p with draws := (s.serveWords c x.g (decide (x.eng = 6)) es).1, served := true }) := by
  have hstart : e.started = false := (Engine.win_of_head hhead).2
  have hdue : (!e.started && !e.prog.served && headerOk c e.hearth e.desc && !es.isEmpty
      && s.waitOk c e.hearth (hWait e.desc) (hCount e.desc) (hEpoch e.desc) && decide (s.need c e ≤ e.credits)) = true := by
    simp [hstart, hserved, hheader, hwords, hwait, hcredits]
  rw [exec_rngWordRequest]
  unfold execRngWordRequest
  simp only [hunit, hhead, hctx, hes]
  exact if_pos hdue

theorem randomCommandsRun : RandomCommandsRun := by
  refine ⟨fun s t u x c i e ht hb => ⟨fun h => ?_, fun h => ?_⟩, fun s u x c i e h hb => ?_,
    fun s u x c i e hunit hhead hctx hserved hheader hcredits hwords hwait => ?_⟩
  · rw [ht, h.exec_bits_eq hb]
  · rw [ht, h.exec_bern_eq hb]
  · exact h.exec_smpSample_eq hb
  · refine ⟨_, exec_rngWordRequest_eq hunit hhead hctx hserved hheader hcredits rfl hwords hwait, ?_⟩
    unfold State.setProg
    rw [State.getD_win_setEntry _ ((State.serveWords_keepsReach ..).lt_win (Engine.lt_of_head hhead))]
    exact ⟨rfl, rfl⟩

/-! Runs to DONE. -/

theorem bitsRun_ends {c : Ctx} {u k g : Nat} {e : Entry} (e₀ : Entry) (n : Nat) : ∀ {s : State} {i : Nat},
    k < (s.engine u).win.length → Open s (.desc c) (rngDst e.desc + 16 * i) (16 * n) →
    Ended (s.bitsRun c u k g e n i) u k e₀ (.ok 0) := by
  induction n with
  | zero =>
    intro s i hk _
    exact ended_endEntry ((State.count_keepsReach ..).lt_win hk) e₀ (.ok 0)
  | succ n ih =>
    intro s i hk ho
    have hblock := State.bitsBlock_keepsReach s c g i e
    have hhere : Open (s.bitsBlock c g i e).2 (.desc c) (rngDst e.desc + 16 * i) (s.bitsBlock c g i e).1.length := by
      rw [State.bitsBlock_length]
      exact (ho.part (i := 0) (by omega)).keep hblock
    obtain ⟨t, ht, hkeep⟩ := hhere.exists_write
    have hall : KeepsReach s t := hblock.trans hkeep
    unfold State.bitsRun
    simp only [State.wr, ht]
    exact ih (hall.lt_win hk) ((ho.part (i := 16) (by omega)).keep hall)

theorem bernRun_ends {c : Ctx} {u k : Nat} {e : Entry} {w : Words} (e₀ : Entry) (n : Nat) : ∀ {s : State} {i : Nat},
    k < (s.engine u).win.length → Open s (.desc c) (rngDst e.desc + i) n → Ended (s.bernRun c u k e w n i) u k e₀ (.ok 0) := by
  induction n with
  | zero =>
    intro s i hk _
    exact ended_endEntry ((State.count_keepsReach ..).lt_win hk) e₀ (.ok 0)
  | succ n ih =>
    intro s i hk ho
    have hhere : Open s (.desc c) (rngDst e.desc + i) [bernByte w e.desc i].length := ho.part (i := 0) (by simp)
    obtain ⟨t, ht, hkeep⟩ := hhere.exists_write
    unfold State.bernRun
    simp only [State.wr, ht]
    exact ih (hkeep.lt_win hk) ((ho.part (i := 1) (by omega)).keep hkeep)

/-- What a sampler descriptor reads and writes can be reached: its scores, its indices, and its lp under LPO (Table 8.9). -/
structure SmpOpen (s : State) (c : Ctx) (e : Entry) : Prop where
  scores : Open s (.desc c) (fld e.desc 16 6) (if smpLvin e.desc then 4 * (smpRows e.desc * align64 (smpLen e.desc))
    else ((wFmt? (smpFmt e.desc)).getD w16).bytesFor (smpRows e.desc * align64 (smpLen e.desc)))
  idx : Open s (.desc c) (e.base + fld e.desc 22 3) (4 * smpRows e.desc)
  lp : smpLpo e.desc = true → Open s (.desc c) (e.base + fld e.desc 25 3) (4 * smpRows e.desc)

theorem SmpOpen.keep {s t : State} {c : Ctx} {e : Entry} (h : SmpOpen s c e) (k : KeepsReach s t) : SmpOpen t c e :=
  ⟨h.scores.keep k, h.idx.keep k, fun hl => (h.lp hl).keep k⟩

theorem SmpOpen.begun {s : State} {c : Ctx} {e : Entry} (h : SmpOpen s c e) (u i : Nat) (x : EngUnit) :
    SmpOpen (begun s u i x e) c e :=
  ⟨h.scores.begun u i x e, h.idx.begun u i x e, fun hl => (h.lp hl).begun u i x e⟩

/-- The start of a descriptor leaves its ranges the same. -/
theorem SmpOpen.live {s t : State} {c : Ctx} {e : Entry} (h : SmpOpen t c e) : SmpOpen t c (live s e) := ⟨h.scores, h.idx, h.lp⟩

/-- An element of a W array within reach is read (R26). -/
theorem Open.exists_wAt {s : State} {c : Ctx} {f : WFmt} {base n i : Nat} (h : Open s (.desc c) base (f.bytesFor n)) (hi : i < n) :
    ∃ v, s.wAt c f base i = .ok v := by
  unfold WFmt.bytesFor at h
  unfold State.wAt
  split
  · next hw =>
    rw [hw] at h
    obtain ⟨v, hv⟩ := (h.part (i := 12 * i / 8) (m := 2) (by omega)).exists_rd
    exact ⟨v / 2 ^ (12 * i % 8) % 4096, by rw [hv]; rfl⟩
  · have hle : f.width / 8 * (i + 1) ≤ (f.width * n + 7) / 8 := by
      rw [Nat.le_div_iff_mul_le (by decide)]
      calc f.width / 8 * (i + 1) * 8 = f.width / 8 * 8 * (i + 1) := by ring
        _ ≤ f.width * n := Nat.mul_le_mul (Nat.div_mul_le_self _ _) hi
        _ ≤ f.width * n + 7 := Nat.le_add_right _ _
    exact (h.part (by rwa [← Nat.mul_succ])).exists_rd

theorem SmpOpen.exists_smpScore {s : State} {c : Ctx} {e : Entry} {r j : Nat} (h : SmpOpen s c e) (hr : r < smpRows e.desc)
    (hj : j < smpLen e.desc) : ∃ v, s.smpScore c e.desc r j = .ok v := by
  have hi : r * align64 (smpLen e.desc) + j < smpRows e.desc * align64 (smpLen e.desc) :=
    calc r * align64 (smpLen e.desc) + j < (r + 1) * align64 (smpLen e.desc) := by
          rw [Nat.succ_mul]
          exact Nat.add_lt_add_left (hj.trans_le (le_align64 _)) _
      _ ≤ smpRows e.desc * align64 (smpLen e.desc) := Nat.mul_le_mul_right _ hr
  have hs := h.scores
  unfold State.smpScore
  dsimp only
  split
  · next hl =>
    rw [if_pos hl] at hs
    obtain ⟨v, hv⟩ := (hs.part (i := 4 * (r * align64 (smpLen e.desc) + j)) (m := 4) (by omega)).exists_rd
    rw [hv]
    exact ⟨_, rfl⟩
  · next hl =>
    rw [if_neg hl] at hs
    obtain ⟨v, hv⟩ := hs.exists_wAt hi
    rw [hv]
    exact ⟨_, rfl⟩

theorem SmpOpen.exists_smpRow {s : State} {c : Ctx} {e : Entry} {r : Nat} (h : SmpOpen s c e) (hr : r < smpRows e.desc) (w : Words) :
    ∃ q, s.smpRow c e.desc w r = .ok q := by
  obtain ⟨l, hl⟩ := exists_mapM_ok (f := fun j => s.smpScore c e.desc r j) fun j hj => h.exists_smpScore hr (List.mem_range.mp hj)
  unfold State.smpRow State.smpValid
  rw [hl]
  exact ⟨_, rfl⟩

theorem SmpOpen.exists_smpPut {s : State} {c : Ctx} {e : Entry} {r : Nat} (h : SmpOpen s c e) (hr : r < smpRows e.desc) (q : SmpRow) :
    ∃ t, s.smpPut c e r q = .ok t ∧ KeepsReach s t := by
  have hidx : Open s (.desc c) (e.base + fld e.desc 22 3 + 4 * r) (leBytes 4 q.idx).length := h.idx.part (show 4 * r + 4 ≤ _ by omega)
  obtain ⟨t, ht, hkeep⟩ := hidx.exists_write
  unfold State.smpPut
  rw [State.wr, ht]
  by_cases hl : smpLpo e.desc = true
  · have hlp : Open t (.desc c) (e.base + fld e.desc 25 3 + 4 * r) (leBytes 4 q.lp.word).length :=
      ((h.lp hl).part (show 4 * r + 4 ≤ _ by omega)).keep hkeep
    obtain ⟨v, hv, hkeep'⟩ := hlp.exists_write
    exact ⟨v, (if_pos hl).trans hv, hkeep.trans hkeep'⟩
  · exact ⟨t, if_neg hl, hkeep⟩

theorem smpRun_ends {c : Ctx} {u i : Nat} {e : Entry} {w : Words} (e₀ : Entry) (n : Nat) : ∀ {s : State} {r : Nat},
    i < (s.engine u).win.length → SmpOpen s c e → r + n ≤ smpRows e.desc → Ended (s.smpRun c u i e w n r) u i e₀ (.ok 0) := by
  induction n with
  | zero =>
    intro s r hi _ _
    unfold State.smpRun
    exact ended_endEntry hi e₀ (.ok 0)
  | succ n ih =>
    intro s r hi ho hn
    obtain ⟨q, hq⟩ := ho.exists_smpRow (r := r) (by omega) w
    obtain ⟨t, ht, hput⟩ := ho.exists_smpPut (r := r) (by omega) q
    have hall : KeepsReach s (t.smpCount u e.desc q) := hput.trans (State.smpCount_keepsReach ..)
    rw [State.smpRun_succ u i n hq ht]
    exact ih (hall.lt_win hi) (ho.keep hall) (by omega)

theorem Ready.begun_lt {s : State} {u eng op : Nat} {x : EngUnit} {c : Ctx} {i : Nat} {e : Entry} (h : Ready s u eng op x c i e) :
    i < ((begun s u i x e).engine u).win.length := by
  rw [begun_length]
  exact Engine.lt_of_head h.head

theorem randomDescriptorsEndDone : RandomDescriptorsEndDone := by
  refine fun s u x c i e => ⟨fun h hb ho => ?_, fun h hb ho => ?_, fun h hb hsrc hidx hlp => ?_⟩
  · exact ⟨_, h.exec_bits_eq hb, bitsRun_ends e _ h.begun_lt (ho.begun u i x e)⟩
  · have hdraws := State.bernDraws_keepsReach (begun s u i x e) c x.g (live s e)
    exact ⟨_, h.exec_bern_eq hb, bernRun_ends e _ (hdraws.lt_win h.begun_lt) ((ho.begun u i x e).keep hdraws)⟩
  · have ho : SmpOpen s c e := ⟨hsrc, hidx, hlp⟩
    have hlive : SmpOpen (begun s u i x e) c (live s e) := (ho.begun u i x).live
    exact ⟨_, h.exec_smpSample_eq hb, smpRun_ends e _ h.begun_lt hlive (Nat.zero_add _).le⟩

/-! Indexed words. -/

theorem indexedWordsDrawNothing : IndexedWordsDrawNothing := by
  intro s c g smp es hc
  obtain ⟨hdraws, hlanes⟩ := State.serveWords_indexed (s := s) hc g smp es
  refine ⟨hdraws, hlanes, fun e e' st d k hstep => ?_⟩
  simp [Words.w16, Entry.words, hc, hstep]

/-- Settles O32: a ready command unfolds to its run; a run writes only where it was open at the start, which no count, trace, draw or
write takes out of reach, and so ends DONE; under indexed words a service counts and does nothing else. -/
theorem randomWordsAreServed : Obligations.RandomWordsAreServed :=
  ⟨randomCommandsRun, randomDescriptorsEndDone, indexedWordsDrawNothing⟩

end Sys2Proof.Cert
end

section
/-! SUPPORT. Updates (R213): the event of a start takes the place of TIESUM's slot list. -/

namespace Sys2Proof.Cert

open Sys2Proof.Machine

/-- The update engine of hearth 0. -/
def updUnit : Nat := hearthPage 0 11

/-- TIESUM of one W16 element from eight slots to 0x2000 of stack 0, as W24; its slot list is the first line of the event ring. -/
def tieOnRing : List Byte := plainDesc 7 2 2 [(16, 6, ringBase), (22, 6, 0x2000), (46, 4, 1), (55, 1, 0x12), (56, 1, 0x1C)]

/-- Every slot of the list is address 0. -/
def tieStart : State := eventAtStart updUnit tieOnRing 2 [] []

theorem tieStart_ready : Ready tieStart updUnit 7 2 ⟨0, 0, 7, 0⟩ ringCtx 0 (headEntry tieOnRing 2) := by
  unfold tieStart
  exact eventAtStart_ready (by decide +kernel)

/-- The event of its start puts its ETYPE, PHASE and CTX into the first slot's address, which is not aligned then, and the descriptor fails. -/
theorem tieStart_fails : endings updUnit (exec (.tiesum updUnit) tieStart)
    = [some (.fail { code := eBusErr, addr := 0xFF800B })] := by
  decide +kernel

theorem not_updatesAndCopiesEndDone : ¬ UpdatesAndCopiesEndDone := by
  intro h
  obtain ⟨-, htie, -⟩ := h tieStart updUnit ⟨0, 0, 7, 0⟩ ringCtx 0 (headEntry tieOnRing 2)
  have hslots : tieStart.tieSlots ringCtx (headEntry tieOnRing 2).desc = .ok (List.replicate 8 0) := by decide +kernel
  obtain ⟨t, ht, hd⟩ := htie _ tieStart_ready (by decide +kernel) hslots
    (fun a ha => List.eq_of_mem_replicate ha ▸ eventAtStart_open_stack (by decide +kernel)) (eventAtStart_open_stack (by decide +kernel))
  exact not_ended_ok_of_endings (ht ▸ tieStart_fails) _ 0 hd

/-- Refutes O33: a TIESUM whose slot list stands in a line of the admin queue's event ring does not end DONE where the trace record of its
start is dropped with an event; the statement asks that the list is well formed before the start, not that it lies off the ring. -/
theorem not_updatesCopiesAndPagesRun : ¬ Obligations.UpdatesCopiesAndPagesRun := by
  unfold Obligations.UpdatesCopiesAndPagesRun
  rintro ⟨-, h, -⟩
  exact not_updatesAndCopiesEndDone h

end Sys2Proof.Cert
end

section
/-! SUPPORT. Beats (R223, R307): the end of a phase on a slot that one package runs, and the end of an attempt; two parts of O36 that hold. -/

namespace Sys2Proof.Machine

/-- The beat unit as a change of slot `k`'s beat to `b` leaves it (R308). -/
def BeatUnit.moved (x : BeatUnit) (k : Nat) (b : Beat) (intact : Bool) : BeatUnit :=
  { x with slots := SMap.put x.slots Beat.zero k b, next := SMap.erase x.next k, aligned := intact, late := false }

/-- What the trace, the schedule, the WAITBEATs, the prefetches and the lists do at a change of the beat. -/
theorem State.applyBeat_changes_moved (s : State) (k : Nat) (b : Beat) (intact : Bool) :
    Changes 0xb787647fb400 (s.setBeat (s.beat.moved k b intact)) (s.applyBeat k b intact) := by
  unfold State.applyBeat
  repeat' (with_reducible first
    | exact Changes.refl _ _
    | (show Nat.lor _ _ = _; decide)
    | apply Changes.ite
    | apply Changes.after (State.releaseWaitbeat_changes ..)
    | apply Changes.after (State.copyShadows_changes ..)
    | apply Changes.after (State.traceBeat_changes ..)
    | apply Changes.after (State.count_changes ..)
    | apply Changes.after (State.tryBegin_changes ..)
    | apply Changes.after (State.judgeLate_changes ..)
    | apply Changes.after (State.mendSlot_changes ..)
    | apply Changes.after (State.judgeSched_changes ..)
    | intro _
    | split
    | dsimp only)
  all_goals exact Changes.refl _ _

theorem State.applyBeat_beat (s : State) (k : Nat) (b : Beat) (intact : Bool) : (s.applyBeat k b intact).beat = s.beat.moved k b intact :=
  (s.applyBeat_changes_moved k b intact).beat rfl

@[simp] theorem State.slotBeat_applyBeat (s : State) (k : Nat) (b : Beat) (intact : Bool) : (s.applyBeat k b intact).slotBeat k = b := by
  unfold State.slotBeat
  rw [State.applyBeat_beat]
  exact SMap.get_put_self ..

theorem State.slotBeat_applyBeat_ne (s : State) {k j : Nat} (h : j ≠ k) (b : Beat) (intact : Bool) :
    (s.applyBeat k b intact).slotBeat j = s.slotBeat j := by
  unfold State.slotBeat
  rw [State.applyBeat_beat]
  exact SMap.get_put_ne _ _ _ _ _ _ h

@[simp] theorem State.aligned_applyBeat (s : State) (k : Nat) (b : Beat) (intact : Bool) : (s.applyBeat k b intact).beat.aligned = intact := by
  rw [State.applyBeat_beat]
  rfl

@[simp] theorem lowCode_zero (a : BitVec 16) : lowCode a 0 = a := by
  unfold lowCode
  split
  · next h => exact h.symm
  · rfl

/-- The lowest code of a report without flags leaves a step's record as it is. -/
@[simp] theorem StepRec.noteTree_zero (r : StepRec) : r.noteTree 0 = r := by
  unfold StepRec.noteTree
  rw [lowCode_zero]
  exact ite_self r

theorem State.setStep_of_ctx {s : State} {ctx : Nat} {c : Ctx} {r : StepRec} (h : s.ctx? ctx = some c) (hr : c.step = some r)
    (f : StepRec → StepRec) : s.setStep ctx f = s.setCtx ctx (some { c with step := some (f r) }) := by
  unfold State.setStep
  simp only [h, hr, Option.map_some]

theorem State.ctx?_setStep {s : State} {ctx : Nat} {c : Ctx} {r : StepRec} (h : s.ctx? ctx = some c) (hr : c.step = some r)
    (f : StepRec → StepRec) : (s.setStep ctx f).ctx? ctx = some { c with step := some (f r) } := by
  rw [State.setStep_of_ctx h hr, State.ctx?_setCtx]

/-- On a slot that one package runs its own beat unit moves the beat, at once (R307). -/
theorem State.moveBeat_of_ne_tslot {s : State} {k : Nat} (h : k ≠ s.tslot) (kind : Nat) (b : Beat) :
    s.moveBeat k kind b = s.applyBeat k b true := by
  have hown : s.ownSlot k = true := by simp [State.ownSlot, h]
  unfold State.moveBeat State.decideBeat
  rw [if_pos hown, if_neg fun hk => h hk.1]

theorem State.replayBeat_of_ne_tslot {s : State} {k : Nat} (h : k ≠ s.tslot) (b : Beat) : s.replayBeat k b = s.applyBeat k b true := by
  have hown : s.ownSlot k = true := by simp [State.ownSlot, h]
  unfold State.replayBeat State.decideBeat
  rw [if_pos hown, if_neg fun hk => h hk.1]

/-- A replay policy of no block is the default (R225). -/
theorem State.policy_default (s : State) {c : Ctx} (h : blkPcy c.block = 0) : s.policy c = .ok Policy.default := if_pos h

/-- A package that runs a slot alone goes on by its own report of the beat (R307). -/
theorem State.tryAdvance_of_ne_tslot {s : State} {ctx : Nat} {c : Ctx} {r : StepRec} (hc : s.ctx? ctx = some c) (hr : c.step = some r)
    (hslot : c.slot ≠ s.tslot) (hrep : r.reported = some (s.slotBeat c.slot)) (honce : r.replaying = false) (hdecided : r.decided = false)
    (hnext : s.nextBeat c.slot = none) : s.tryAdvance ctx = s.treeAdvance ctx c r (r.report (s.slotBeat c.slot) (s.target c)) := by
  unfold State.tryAdvance
  simp [hc, hr, hslot, hrep, honce, hdecided, hnext]

/-- The beat goes to a target within the step where no MEM_UE is reported (R307). -/
theorem State.treeAdvance_of_target {s : State} {c : Ctx} {r : StepRec} {w : Report} {t : Beat} (ctx : Nat) (hw : w.target = some t)
    (hstep : t.step = r.step) (hphase : t.phase ≠ phaseCommit) (hue : w.nflag.getD 3 0 = 0) :
    s.treeAdvance ctx c r w = s.moveBeat c.slot 1 { step := r.step, phase := t.phase } := by
  unfold State.treeAdvance
  simp only [hw]
  rw [if_pos ⟨hstep, hphase, hue⟩]

/-- No tracker used, no low miss (R71). -/
theorem State.judgeLow_of_unused {s : State} {ctx : Nat} {c : Ctx} {r : StepRec} (hc : s.ctx? ctx = some c) (hr : c.step = some r)
    (hused : c.used = []) : s.judgeLow ctx = .ok (s.setCtx ctx (some c)) := by
  unfold State.judgeLow
  simp only [hc, hused, List.filter_nil, State.lowTrackers, State.mapTrackers, List.foldl_nil]
  rw [State.setStep_of_ctx hc hr, List.append_nil, ← hr]

/-- An attempt without flags commits (R223). -/
theorem Policy.ending_of_no_flags (p : Policy) (r : StepRec) : p.ending r [0, 0, 0, 0] = .commit := by
  unfold Policy.ending
  simp

/-- An attempt without flags ends with the decision to commit, and the beat enters phase 0xFFFF (R223, R230). -/
theorem State.endAttempt_of_no_flags {s : State} {ctx : Nat} {c : Ctx} {r : StepRec} (hc : s.ctx? ctx = some c) (hr : c.step = some r)
    (hpcy : blkPcy c.block = 0) :
    s.endAttempt ctx [0, 0, 0, 0] 0 = (((s.setStep ctx fun r => r.noteTree 0).setStep ctx fun r => { r with decided := true }).moveBeat c.slot 1
      { step := r.step, phase := phaseCommit }) := by
  unfold State.endAttempt
  simp only [hc, hr, State.policy_default s hpcy, Policy.ending_of_no_flags]

theorem State.heldCommit_of_no_hold {s : State} {ctx : Nat} (h : s.holdRuns ctx = false) (n : List Nat) : s.heldCommit ctx n = false := by
  unfold State.heldCommit
  simp only [h, Bool.and_false]
  split
  · rfl
  · split <;> rfl

/-- The own report of an attempt without flags counts none. -/
theorem StepRec.report_of_no_flags {r : StepRec} (h : r.flags = []) (b : Beat) (t : Option Beat) :
    (r.report b t).nflag = [0, 0, 0, 0] ∧ (r.report b t).lcode = 0 := by
  have ha : r.attFlags = [] := by simp [StepRec.attFlags, h]
  have hn : ∀ code, r.attCount code = 0 := fun code => by simp [StepRec.attCount, ha]
  exact ⟨by simp [StepRec.report, codeList, hn], by simp [StepRec.report, ha, lowestCode]⟩

end Sys2Proof.Machine

namespace Sys2Proof.Cert

open Sys2Proof.Machine

theorem exec_phaseDone (ctx : Nat) (s : State) : exec (.phaseDone ctx) s = execPhaseDone ctx s := rfl

/-- The record of a step whose beat `b` has been reported. -/
def reportedAt (r : StepRec) (b : Beat) : StepRec := { r with reported := some b }

/-- The state once a package has kept its own report of beat `b` in the record `r` of context `c`. -/
def reportedIn (s : State) (ctx : Nat) (c : Ctx) (r : StepRec) (b : Beat) : State :=
  s.setCtx ctx (some { c with step := some (reportedAt r b) })

@[simp] theorem ctx?_reportedIn (s : State) (ctx : Nat) (c : Ctx) (r : StepRec) (b : Beat) :
    (reportedIn s ctx c r b).ctx? ctx = some { c with step := some (reportedAt r b) } := State.ctx?_setCtx ..

section

variable {s : State} {ctx : Nat} {c : Ctx} {r : StepRec} {b : Beat}

theorem Quiet.setStep_reported (h : Quiet s ctx c r b) :
    s.setStep ctx (fun r => { r with reported := some b }) = reportedIn s ctx c r b :=
  State.setStep_of_ctx h.known h.step _

/-- A package that runs a slot alone keeps its own report of a settled beat, and goes on below phase 0xFFFF. -/
theorem Quiet.exec_phaseDone_eq (h : Quiet s ctx c r b) (hslot : c.slot ≠ s.tslot) (hfailed : r.failed = none ∨ b.phase = phaseCommit)
    (hrep : r.reported ≠ some b) :
    exec (.phaseDone ctx) s = .next (if b.phase = phaseCommit then reportedIn s ctx c r b else (reportedIn s ctx c r b).tryAdvance ctx) := by
  have hset := h.setStep_reported
  obtain ⟨hunit, hknown, hstep, hbeat, hin, hbegun, honce, hnext, hquiet⟩ := h
  have hrun : (decide (b.step = r.step) && r.begun && !r.replaying && (s.nextBeat c.slot).isNone && s.isOpen pgBeat) = true := by
    simp [hin, hbegun, honce, hnext, hunit]
  have hfail : ¬(r.failed.isSome ∧ b.phase ≠ phaseCommit) := by
    rcases hfailed with h | h <;> simp [h]
  have hnew : (decide (r.reported ≠ some b) && s.settledAt ctx c r b) = true := by simp [hrep, State.settledAt, hquiet]
  have hdone : s.phaseDone ctx c r = reportedIn s ctx c r b := by
    unfold State.phaseDone
    simp [hslot, hbeat, hset]
  have hcommit : (reportedIn s ctx c r b).sendCommitReport c r = reportedIn s ctx c r b := by
    unfold State.sendCommitReport
    exact if_neg (by simp [show (reportedIn s ctx c r b).tslot = s.tslot from rfl, hslot])
  rw [exec_phaseDone]
  unfold execPhaseDone
  simp only [hknown, hstep, hbeat]
  rw [if_pos hrun, if_neg hfail, if_pos hnew, hdone, hcommit]
  split <;> rfl

/-- Below phase 0xFFFF, with nothing decided, the package goes on by its own report. -/
theorem Quiet.exec_phaseDone_below (h : Quiet s ctx c r b) (hslot : c.slot ≠ s.tslot) (hfailed : r.failed = none)
    (hrep : r.reported ≠ some b) (hphase : b.phase ≠ phaseCommit) (hdecided : r.decided = false) :
    exec (.phaseDone ctx) s = .next ((reportedIn s ctx c r b).treeAdvance ctx { c with step := some (reportedAt r b) } (reportedAt r b)
      ((reportedAt r b).report b (s.target c))) := by
  have hbeat : (reportedIn s ctx c r b).slotBeat c.slot = b := h.beat
  rw [h.exec_phaseDone_eq hslot (.inl hfailed) hrep, if_neg hphase, State.tryAdvance_of_ne_tslot (ctx?_reportedIn ..) rfl hslot
    (congrArg some hbeat.symm) h.once hdecided h.settled, hbeat]
  rfl

/-- Without flags, used trackers and a HOLD copy, and with no target, the own report ends the attempt with a commit (R307). -/
theorem treeAdvance_commits (hc : s.ctx? ctx = some c) (hr : c.step = some r) (hslot : c.slot ≠ s.tslot) (hflags : r.flags = [])
    (hused : c.used = []) (hhold : s.holdRuns ctx = false) (hpcy : blkPcy c.block = 0) :
    ∃ u : State, s.treeAdvance ctx c r (r.report b none) = u.applyBeat c.slot { step := r.step, phase := phaseCommit } true
      ∧ u.ctx? ctx = some { c with step := some { r with decided := true } } := by
  obtain ⟨hcounts, hcode⟩ := StepRec.report_of_no_flags hflags b none
  have hjudged : (s.setCtx ctx (some c)).ctx? ctx = some c := State.ctx?_setCtx ..
  have hjudgedHold : (s.setCtx ctx (some c)).holdRuns ctx = false := hhold
  have hheld := State.heldCommit_of_no_hold hjudgedHold [0, 0, 0, 0]
  have hadvance : s.treeAdvance ctx c r (r.report b none) = (s.setCtx ctx (some c)).endAttempt ctx [0, 0, 0, 0] 0 := by
    have htarget : (r.report b none).target = none := rfl
    unfold State.treeAdvance
    simp [htarget, hcounts, hcode, State.judgeLow_of_unused hc hr hused, hr, hheld]
  have hnoted := State.ctx?_setStep hjudged hr fun r => r.noteTree 0
  rw [StepRec.noteTree_zero] at hnoted
  refine ⟨_, ?_, State.ctx?_setStep hnoted rfl fun r => { r with decided := true }⟩
  rw [hadvance, State.endAttempt_of_no_flags hjudged hr hpcy]
  refine State.moveBeat_of_ne_tslot ?_ ..
  rw [State.setStep_of_ctx hnoted rfl, State.setStep_of_ctx hjudged hr]
  exact hslot

end

theorem phaseDoneMovesBeat : PhaseDoneMovesBeat := by
  refine ⟨fun s ctx c r b t h hslot hfailed hrep hphase hdecided htarget hstep hlast hue => ?_,
    fun s ctx c r b h hslot hfailed hrep hphase hdecided htarget hflags hused hhold hpcy => ?_,
    fun s ctx c r b h hslot hphase hrep => ?_,
    fun s k b i => ⟨s.slotBeat_applyBeat k b i, s.aligned_applyBeat k b i, fun j hj => s.slotBeat_applyBeat_ne hj b i⟩⟩
  · rw [h.exec_phaseDone_below hslot hfailed hrep hphase hdecided, h.setStep_reported]
    have hown : c.slot ≠ (reportedIn s ctx c r b).tslot := hslot
    have hcount : ((reportedAt r b).report b (s.target c)).nflag.getD 3 0 = 0 := hue
    have hgo := State.treeAdvance_of_target (s := reportedIn s ctx c r b) (c := { c with step := some (reportedAt r b) })
      (r := reportedAt r b) ctx (w := (reportedAt r b).report b (s.target c)) htarget hstep hlast hcount
    rw [hgo]
    exact congrArg _ (State.moveBeat_of_ne_tslot hown 1 _)
  · rw [h.exec_phaseDone_below hslot hfailed hrep hphase hdecided, htarget]
    obtain ⟨u, hadvance, hctx⟩ := treeAdvance_commits (b := b) (ctx?_reportedIn s ctx c r b) rfl hslot hflags hused hhold hpcy
    exact ⟨u, congrArg _ hadvance, hctx⟩
  · rw [h.exec_phaseDone_eq hslot (.inr hphase) hrep, h.setStep_reported]
    exact congrArg _ (if_pos hphase)

/-- What a list of counts pairs with a list of actions. -/
theorem mem_zip_map_range {n : Nat → Nat} {l : List Nat} {k : Nat} (hl : l.length = k) (p : Nat × Nat) :
    p ∈ ((List.range k).map n).zip l ↔ ∃ i < k, p = (n i, l.getD i 0) := by
  subst hl
  rw [List.mem_iff_getElem]
  constructor
  · rintro ⟨i, hi, rfl⟩
    have h : i < l.length := by simpa using hi
    exact ⟨i, h, by simp [h]⟩
  · rintro ⟨i, hi, rfl⟩
    exact ⟨i, by simpa using hi, by simp [hi]⟩

/-- Some flag of the attempt has the action `a`. -/
theorem exists_flag_iff {acts : List Nat} (n : Nat → Nat) {k : Nat} (hl : acts.length = k) (a : Nat) :
    ((((List.range k).map n).zip acts).filter fun x => decide (0 < x.1)).any (fun x => decide (x.2 = a)) = true
      ↔ ∃ i < k, 0 < n i ∧ acts.getD i 0 = a := by
  simp only [List.any_eq_true, List.mem_filter, decide_eq_true_eq, mem_zip_map_range hl]
  constructor
  · rintro ⟨-, ⟨⟨i, hi, rfl⟩, hn⟩, ha⟩
    exact ⟨i, hi, hn, ha⟩
  · rintro ⟨i, hi, hn, ha⟩
    exact ⟨_, ⟨⟨i, hi, rfl⟩, hn⟩, ha⟩

theorem attemptEndsByPolicy : AttemptEndsByPolicy := by
  intro p r n acts hacts
  have hl : acts.length = 4 := by rw [hacts]; rfl
  have hany := exists_flag_iff n hl
  unfold Policy.ending
  rw [← hacts]
  refine ⟨fun hf => if_pos hf, fun hf hfail => ?_, fun hf hno hrep => ?_, fun hf hno => ?_⟩
  · rw [if_neg (by simp [hf]), if_pos ((hany 3).mpr hfail)]
  · rw [if_neg (by simp [hf]), if_neg, if_pos ((hany 0).mpr hrep)]
    rw [hany 3]
    rintro ⟨i, hi, hn, ha⟩
    exact hno i hi hn ha
  · rw [if_neg (by simp [hf]), if_neg, if_neg]
    · rw [hany 0]
      rintro ⟨i, hi, hn, ha⟩
      exact (hno i hi hn).2 ha
    · rw [hany 3]
      rintro ⟨i, hi, hn, ha⟩
      exact (hno i hi hn).1 ha

end Sys2Proof.Cert
end

section
/-! SUPPORT. Steps (R230, R474): where the pages list the beat unit's page twice, the clear of a thaw that fires at a commit uncovers the
second page, and with it another tree slot. -/

namespace Sys2Proof.Cert

open Sys2Proof.Machine

/-- The services of a context name the bytes of stack 0 by their direct addresses (R340). -/
theorem resolve_service_stack_zero {s : State} {c : Ctx} (hc : bit (blkCords c.block) 0 = true) (hn : 0 < s.nCords)
    (hup : s.placeUp (.stack 0) = true) {a : Nat} (ha : a < 0x2000000000) : s.resolve (.service c) a = .ok a := by
  have hw : isWindow a = false := decide_eq_false (by omega)
  have hp : s.place a = .stack 0 := by
    unfold State.place
    rw [if_pos (by omega), show a / 0x2000000000 = 0 by omega]
    exact if_pos hn
  have hr : s.phys (.service c) a = some a := by simp [State.phys, hw]
  simp [State.resolve, hr, hp, Who.allowed, hc, hup]

/-- Step 5 of slot 1's context in phase 0xFFFF, reported. -/
def lastBeat : Beat := { step := 5, phase := 0xFFFF }

def commitRec : StepRec :=
  { step := 5, att := 0, q := 0, slot := 0, entries := [], batch := 0, nseq := 0, bnd := [], bout := 0, lens := [], flags := []
    treeCode := 0, judged := [], nue := 0, ueAddr := 0, failed := none, failAddr := 0, decided := true, forced := false
    replaying := false, begun := true, reported := some lastBeat, abortWait := none }

def commitCtx : Ctx := { ringCtx with slot := 1, step := some commitRec }

/-- A thaw of the package state with a clear of its counters, at the commit of step 5 (R474). -/
def thawAtCommit : SchedEnt :=
  { target := lastBeat, anchor := 0, kind := 3, kargs := [7], q := 0, tag := 0, ctx := 0, fired := false }

/-- A kindled package in which step 5 of slot 1 may be finalised, and whose tree slot follows a marker. Its pages list that of the beat unit
twice: first with a counter at 1 and TSLOT 0, then with TSLOT 1. -/
def twicePaged : State :=
  { State.reset with
    kind := { Kind.reset with phase := 7, pwr := true, qual := true, opts := true }
    ports := [(0, { Port.reset with tstate := 5 })]
    ctxs := [(0, some commitCtx)]
    beat := { State.reset.beat with slots := [(1, lastBeat)], actsrc := 2 }
    sched := [(schedKey 1 0, some thawAtCommit)]
    pages := [(pgBeat, { Page.reset with cnt := [(0, 1)] }), (pgBeat, { Page.reset with cfg := [(0x100, 0x100)] })] }

theorem twicePaged_open {a n : Nat} (h : a + n ≤ 0x2000000000) : Open twicePaged (.service commitCtx) a n :=
  open_of_direct fun k hk => by
    have hcord : bit (blkCords commitCtx.block) 0 = true := by decide +kernel
    have hn : 0 < twicePaged.nCords := show 0 < State.reset.nCords by decide
    exact ⟨resolve_service_stack_zero hcord hn (by decide +kernel) (by omega), rfl⟩

theorem twicePaged_statOpen : StatOpen twicePaged commitCtx where
  ents := by
    have h : ∀ h < 2, ∀ k < blkNent commitCtx.block, entAddr commitCtx h k + 512 ≤ 0x2000000000 := by decide +kernel
    exact fun i hi k hk => twicePaged_open (h i hi k hk)
  recs := by
    have h : ∀ h < 2, recAddr commitCtx h + 64 ≤ 0x2000000000 := by decide +kernel
    exact fun i hi => twicePaged_open (h i hi)
  trks _ ha := absurd ha (List.not_mem_nil)

/-- The beat of slot 1 in the state that a command leaves. -/
def beatAfter (r : Host.Outcome State Fault Refusal) : Option Beat :=
  match r with
  | .next t => some (t.slotBeat 1)
  | _ => none

/-- The thaw's clear leaves TSLOT 1: slot 1 is the tree slot now, and the package's own beat unit does not move it. -/
theorem twicePaged_stays : beatAfter (exec (.commitFinalise 0) twicePaged) = some lastBeat := by decide +kernel

theorem not_commitAdvancesBeat : ¬ CommitAdvancesBeat := by
  intro h
  obtain ⟨-, -, hstat, -⟩ := h twicePaged _ 0 commitCtx commitRec (by decide +kernel) rfl rfl rfl (by decide +kernel) (by decide +kernel) rfl rfl
  obtain ⟨t, -, ht, -, -, -, -, hbeat⟩ := hstat twicePaged_statOpen rfl
  have hmoved := hbeat rfl rfl (by decide +kernel)
  have hstays : some (t.slotBeat 1) = some lastBeat := (congrArg beatAfter ht).symm.trans twicePaged_stays
  cases hmoved.symm.trans (Option.some.inj hstays)

/-- Refutes O36: the statement speaks of every state, also of one whose pages are not in canonical form. Where they list the beat unit's
page twice, a thaw with a clear that fires at the commit makes the slot of the step the tree slot, and its beat stays in phase 0xFFFF.
The parts on PHASE_DONE and on the end of an attempt hold: `phaseDoneMovesBeat`, `attemptEndsByPolicy`. -/
theorem not_beatMovesThroughItsStep : ¬ Obligations.BeatMovesThroughItsStep := by
  unfold Obligations.BeatMovesThroughItsStep
  rintro ⟨-, -, -, h⟩
  exact not_commitAdvancesBeat h

end Sys2Proof.Cert
end

section
/-! SUPPORT. Turns (R294, R295): the command whose turn it is runs its own billet, under its own instruction and at the end of a billet. -/

namespace Sys2Proof.Machine

/-- The turn passes on behind command `k` (R295). -/
abbrev State.passTurn (s : State) (k : Cmd) : State := { s with rr := k.order + 1 }

@[simp] theorem State.read_passTurn (s : State) (k : Cmd) (w : Who) (n : Nat) : ∀ a, (s.passTurn k).read w a n = s.read w a n := by
  induction n with
  | zero => exact fun _ => rfl
  | succ n ih =>
    intro a
    unfold State.read
    rw [ih]
    rfl

theorem State.serveAll_of_nextImm_none {s : State} (h : s.nextImm = none) : ∀ n, s.serveAll n = s
  | 0 => rfl
  | n + 1 => by
    unfold State.serveAll
    rw [h]

theorem State.execBilletEnd_of_nextImm_none {s : State} (hserving : s.serving = true) (himm : s.nextImm = none) :
    execBilletEnd s = .next (match s.nextBillet with
      | some b => s.runBillet b
      | none => s) := by
  unfold execBilletEnd
  rw [if_pos hserving]
  simp only [State.serveAll_of_nextImm_none himm]
  cases s.nextBillet with
  | none => rfl
  | some b => exact if_pos hserving

end Sys2Proof.Machine

namespace Sys2Proof.Cert

open Sys2Proof.Machine

theorem exec_billetEnd (s : State) : exec .billetEnd s = execBilletEnd s := rfl

theorem exec_billetEnd_of_nextBillet {s : State} {b : Billet} (hserving : s.serving = true) (himm : s.nextImm = none)
    (hb : s.nextBillet = some b) : exec .billetEnd s = .next (s.runBillet b) := by
  rw [exec_billetEnd, State.execBilletEnd_of_nextImm_none hserving himm, hb]

section

variable {s : State} {q slot : Nat} {k : Cmd} (h : Turn s q slot k)
include h

/-- A command whose turn it is has started, or names a context that it may name. -/
theorem Turn.mayRun : (!k.started && !(s.passTurn k).ctxFieldOk ((s.passTurn k).queue q) k.line) = false := by
  rcases h.ctx with hc | hc
  · simp [hc]
  · simp [show (s.passTurn k).ctxFieldOk ((s.passTurn k).queue q) k.line = true from hc]

/-- The instruction of the command whose turn it is runs its billet (R295). -/
theorem Turn.exec_eq {i : Instr} {f : List Byte → Bool} (hi : exec i s = .next (s.billetOf q slot f)) (hf : f k.line = true) :
    exec i s = .next ((s.passTurn k).runCmdBillet q k) := by
  rw [hi]
  unfold State.billetOf
  rw [if_pos (by simp [h.serving, h.imm]), h.next]
  exact congrArg _ (if_pos ⟨rfl, h.slot, hf⟩)

/-- So does the end of a billet. -/
theorem Turn.exec_billetEnd_eq : exec .billetEnd s = .next ((s.passTurn k).runCmdBillet q k) :=
  exec_billetEnd_of_nextBillet h.serving h.imm h.next

theorem Turn.exec_ctxSave (ho : cOpc k.line = 0x06) : exec (.ctxSave q slot) s = .next ((s.passTurn k).doSave q k) := by
  rw [h.exec_eq (f := fun l => decide (cOpc l = 0x06)) rfl (by simp [ho])]
  simp [State.runCmdBillet, h.mayRun, ho]

theorem Turn.exec_ctxRestore (ho : cOpc k.line = 0x07) : exec (.ctxRestore q slot) s = .next ((s.passTurn k).doRestore q k) := by
  rw [h.exec_eq (f := fun l => decide (cOpc l = 0x07)) rfl (by simp [ho])]
  simp [State.runCmdBillet, h.mayRun, ho]

theorem Turn.exec_ckptCopy (ho : cOpc k.line = 0x0C) : exec (.ckptCopy q slot) s = .next ((s.passTurn k).doCopy q k) := by
  rw [h.exec_eq (f := fun l => decide (cOpc l = 0x0C)) rfl (by simp [ho])]
  simp [State.runCmdBillet, h.mayRun, ho]

theorem Turn.exec_scrub (ho : cOpc k.line = 0x0D) : exec (.scrub q slot) s = .next ((s.passTurn k).doScrub q k) := by
  rw [h.exec_eq (f := fun l => decide (cOpc l = 0x0D)) rfl (by simp [ho])]
  simp [State.runCmdBillet, h.mayRun, ho]

theorem Turn.exec_poolCompact (ho : cOpc k.line = 0x0F) : exec (.poolCompact q slot) s = .next ((s.passTurn k).doCompact q k) := by
  rw [h.exec_eq (f := fun l => decide (cOpc l = 0x0F)) rfl (by simp [ho])]
  simp [State.runCmdBillet, h.mayRun, ho]

theorem Turn.exec_pageRefresh (ho : cOpc k.line = 0x10) : exec (.pageRefresh q slot) s = .next ((s.passTurn k).doRefresh q k) := by
  rw [h.exec_eq (f := fun l => decide (cOpc l = 0x10)) rfl (by simp [ho])]
  simp [State.runCmdBillet, h.mayRun, ho]

theorem Turn.exec_fwStage (ho : cOpc k.line = 0x12) : exec (.fwStage q slot) s = .next ((s.passTurn k).doStage q k) := by
  rw [h.exec_eq (f := fun l => decide (cOpc l = 0x12)) rfl (by simp [ho])]
  simp [State.runCmdBillet, h.mayRun, ho]

/-- A rebuild is one billet, of the ownership copies or of the fuse shadows (R462). -/
theorem Turn.runCmdBillet_rebuild (ho : cOpc k.line = 0x11) : (s.passTurn k).runCmdBillet q k =
    if fld k.line 8 1 = 1 then { s with rr := k.order + 1, ownBad := [] }.done q slot []
    else { s with rr := k.order + 1, shadow := s.fuses }.done q slot [] := by
  have hrun : (s.passTurn k).runCmdBillet q k = (s.passTurn k).doRebuild q k := by simp [State.runCmdBillet, h.mayRun, ho]
  rw [hrun, ← h.slot]
  unfold State.doRebuild
  split <;> rfl

theorem Turn.exec_tableRebuildOwnership (ho : cOpc k.line = 0x11) (hk : fld k.line 8 1 = 1) :
    exec (.tableRebuildOwnership q slot) s = .next ({ s with rr := k.order + 1, ownBad := [] }.done q slot []) := by
  rw [h.exec_eq (f := fun l => decide (cOpc l = 0x11 ∧ fld l 8 1 = 1)) rfl (by simp [ho, hk]), h.runCmdBillet_rebuild ho, if_pos hk]

theorem Turn.exec_tableRebuildFuses (ho : cOpc k.line = 0x11) (hk : fld k.line 8 1 = 2) :
    exec (.tableRebuildFuses q slot) s = .next ({ s with rr := k.order + 1, shadow := s.fuses }.done q slot []) := by
  rw [h.exec_eq (f := fun l => decide (cOpc l = 0x11 ∧ fld l 8 1 = 2)) rfl (by simp [ho, hk]), h.runCmdBillet_rebuild ho,
    if_neg (by omega)]

end

theorem billetedCommandsRun : BilletedCommandsRun := fun _ _ _ _ h =>
  ⟨h.exec_ctxSave, h.exec_ctxRestore, h.exec_ckptCopy, h.exec_scrub, h.exec_poolCompact, h.exec_pageRefresh,
    h.exec_tableRebuildOwnership, h.exec_tableRebuildFuses, h.exec_fwStage⟩

/-! FW_STAGE (R454), and POOL_COMPACT where there is nothing to compact (R251). -/

theorem poolTable_passTurn {s : State} {k : Cmd} {c : Ctx} {t : Seqt} (hctx : s.ctx? (cCtx k.line) = some c) (hseqt : blkSeqt c.block ≠ 0)
    (ht : s.seqt (.service c) (blkSeqt c.block) = .ok t) : (s.passTurn k).poolTable k.line = .ok (some (c, t)) := by
  have hread : (s.passTurn k).seqt (.service c) (blkSeqt c.block) = .ok t := by
    rw [← ht]
    simp only [State.seqt, State.read_passTurn]
  unfold State.poolTable
  rw [show (s.passTurn k).ctx? (cCtx k.line) = some c from hctx]
  simp [hseqt, hread, Except.map]

theorem fwStageRunsItsStaging : FwStageRunsItsStaging := by
  refine fun s q slot k h => ⟨fun n ho hstart hlen hn hmax hbank hchain htrial => ?_, fun ho hstart hst => ?_, fun ho hstart hst => ?_,
    fun c t ho hctx hseqt ht hmode => ?_⟩
  · refine ⟨(s.passTurn k).beginStage n true, ?_, rfl, rfl, rfl, rfl⟩
    have hgood : ¬(fld k.line 16 4 % 65536 ≠ 0 ∨ fld k.line 16 4 / 65536 = 0 ∨ 4096 < fld k.line 16 4 / 65536
        ∨ fld k.line 20 1 = b2n (s.passTurn k).cbank ∨ (s.passTurn k).chainStaging = true ∨ (s.passTurn k).fw.trial = true) := by
      have hb : fld k.line 20 1 ≠ b2n (s.passTurn k).cbank := hbank
      have hc : (s.passTurn k).chainStaging = false := hchain
      have ht : (s.passTurn k).fw.trial = false := htrial
      rw [hc, ht]
      simp only [not_or]
      exact ⟨by omega, by omega, by omega, hb, by decide, by decide⟩
    rw [h.exec_fwStage ho]
    unfold State.doStage
    simp only [hstart, Bool.not_false, if_true]
    rw [if_neg hgood, h.slot, hlen, Nat.mul_div_cancel_left n (by decide)]
  · rw [h.exec_fwStage ho]
    unfold State.doStage
    simp [hstart, hst, h.slot]
  · rw [h.exec_fwStage ho]
    unfold State.doStage
    simp [hstart, hst, h.slot, State.failCmd]
  · rw [h.exec_poolCompact ho]
    unfold State.doCompact
    simp [poolTable_passTurn hctx hseqt ht, hmode, h.slot]

end Sys2Proof.Cert
end

section
/-! SUPPORT. Memory as an agent names it (R17, R340, R342): a range within reach names each byte once, so that what is written there is
read back, and what lies apart stays. -/

namespace Sys2Proof.Machine

/-- What follows an answer takes it up. -/
@[simp] theorem ok_bind {ε α β : Type} (a : α) (f : α → Except ε β) : (Except.ok a >>= f) = f a := rfl

/-! Field bytes. -/

@[simp] theorem length_leBytes (v : Nat) : ∀ n, (leBytes n v).length = n := by
  intro n
  induction n generalizing v with
  | zero => rfl
  | succ n ih => rw [leBytes, List.length_cons, ih]

/-- A number read back from its bytes. -/
theorem leVal_leBytes_of_lt {v : Nat} : ∀ {n : Nat}, v < 256 ^ n → leVal (leBytes n v) = v := by
  intro n
  induction n generalizing v with
  | zero =>
    intro h
    exact (Nat.lt_one_iff.mp h).symm
  | succ n ih =>
    intro h
    rw [pow_succ'] at h
    rw [leBytes, leVal, ih (Nat.div_lt_of_lt_mul h), BitVec.toNat_ofNat]
    exact Nat.mod_add_div v 256

/-! Names of bytes (R342). -/

theorem mem_cordsOf_lt {mask c : Nat} (h : c ∈ cordsOf mask) : c < 24 := List.mem_range.mp (List.mem_of_mem_filter h)

theorem cordsOf_nodup (mask : Nat) : (cordsOf mask).Nodup := List.nodup_range.filter _

/-- A window offset names a cord of the partition and an offset in its stack. -/
theorem windowMap_eq_some {cs : List Nat} {ilv : Bool} {x p : Nat} (h : windowMap cs ilv x = some p) :
    ∃ i o c, cs[i]? = some c ∧ p = c * 2 ^ 37 + o ∧ o < 2 ^ 37
      ∧ (if ilv then x / 2 ^ 21 % cs.length = i ∧ x / 2 ^ 21 / cs.length = o / 2 ^ 21 ∧ x % 2 ^ 21 = o % 2 ^ 21
          else x / 2 ^ 37 = i ∧ x % 2 ^ 37 = o) := by
  unfold windowMap at h
  split at h
  · cases h
  · next hx =>
    have hlen : 0 < cs.length := Nat.pos_of_ne_zero fun h0 => hx (by simp [h0])
    split at h
    · next hi =>
      obtain ⟨c, hc, rfl⟩ := Option.map_eq_some_iff.mp h
      have hu : x / 2 ^ 21 / cs.length < 2 ^ 16 := by
        rw [Nat.div_lt_iff_lt_mul hlen, Nat.div_lt_iff_lt_mul (by decide)]
        calc x < cs.length * 2 ^ 37 := Nat.lt_of_not_le hx
          _ = 2 ^ 16 * cs.length * 2 ^ 21 := by ring
      refine ⟨_, x / 2 ^ 21 / cs.length * 2 ^ 21 + x % 2 ^ 21, c, hc, by ring, by omega, ?_⟩
      rw [if_pos hi]
      exact ⟨rfl, by omega, by omega⟩
    · next hi =>
      obtain ⟨c, hc, rfl⟩ := Option.map_eq_some_iff.mp h
      exact ⟨_, _, c, hc, rfl, Nat.mod_lt _ (by decide), by
        rw [if_neg hi]
        exact ⟨rfl, rfl⟩⟩

/-- Two window offsets name the same byte only if they are the same. -/
theorem windowMap_inj {mask : Nat} {ilv : Bool} {x y p : Nat} (hx : windowMap (cordsOf mask) ilv x = some p)
    (hy : windowMap (cordsOf mask) ilv y = some p) : x = y := by
  obtain ⟨i, o, c, hc, hp, ho, hxi⟩ := windowMap_eq_some hx
  obtain ⟨j, o', c', hc', hp', ho', hyj⟩ := windowMap_eq_some hy
  have hcc : c = c' := by omega
  have hoo : o = o' := by omega
  subst hcc hoo
  have hij : i = j := List.getElem?_inj (List.getElem?_eq_some_iff.mp hc).1 (cordsOf_nodup mask) |>.mp (hc.trans hc'.symm)
  subst hij
  split at hxi
  · next hi =>
    rw [if_pos hi] at hyj
    obtain ⟨h1, h2, h3⟩ := hxi
    obtain ⟨k1, k2, k3⟩ := hyj
    have hu : x / 2 ^ 21 = y / 2 ^ 21 := by
      rw [← Nat.div_add_mod (x / 2 ^ 21) (cordsOf mask).length, ← Nat.div_add_mod (y / 2 ^ 21) (cordsOf mask).length, h1, h2, k1, k2]
    omega
  · next hi =>
    rw [if_neg hi] at hyj
    omega

/-- A window offset names a byte of the stacks. -/
theorem windowMap_lt {mask : Nat} {ilv : Bool} {x p : Nat} (h : windowMap (cordsOf mask) ilv x = some p) : p < 0x030000000000 := by
  obtain ⟨i, o, c, hc, rfl, ho, -⟩ := windowMap_eq_some h
  have := mem_cordsOf_lt (List.mem_of_getElem? hc)
  omega

theorem State.phys_of_resolve {s : State} {w : Who} {a p : Nat} (h : s.resolve w a = .ok p) : s.phys w a = some p ∧ s.place p ≠ .bad := by
  unfold State.resolve at h
  split at h
  · cases h
  · next p' hp =>
    dsimp only at h
    split at h
    · cases h
    · next hal =>
      have hpp : p' = p := by
        repeat' split at h
        all_goals cases h
        all_goals rfl
      subst hpp
      refine ⟨hp, fun hbad => hal ?_⟩
      rw [hbad]
      cases w <;> rfl

/-- Direct and window addresses of one byte have an address between them that names none. -/
theorem State.resolve_gap (s : State) (w : Who) (p : Nat) : s.resolve w 0x030000000000 ≠ .ok p := by
  intro h
  obtain ⟨hp, hplace⟩ := State.phys_of_resolve h
  have hpp : p = 0x030000000000 := by
    simpa [State.phys, isWindow] using hp.symm
  subst hpp
  exact hplace (by simp [State.place])

end Sys2Proof.Machine

namespace Sys2Proof.Cert

open Sys2Proof.Machine

/-- Within a range within reach each byte has one address. -/
theorem Open.resolve_inj {s : State} {w : Who} {a n i j p : Nat} (h : Open s w a n) (hi : i < n) (hj : j < n)
    (hpi : s.resolve w (a + i) = .ok p) (hpj : s.resolve w (a + j) = .ok p) : i = j := by
  wlog hij : i ≤ j generalizing i j
  · exact (this hj hi hpj hpi (Nat.le_of_not_le hij)).symm
  obtain ⟨hi', -⟩ := State.phys_of_resolve hpi
  obtain ⟨hj', -⟩ := State.phys_of_resolve hpj
  unfold State.phys at hi' hj'
  by_cases hwj : isWindow (a + j) = true
  · rw [if_pos hwj] at hj'
    cases hctx : w.ctx with
    | none => simp [hctx] at hj'
    | some c =>
      simp only [hctx] at hi' hj'
      have hjlo : 0x040000000000 ≤ a + j := by
        simp only [isWindow, decide_eq_true_eq] at hwj
        exact hwj.1
      by_cases hwi : isWindow (a + i) = true
      · rw [if_pos hwi] at hi'
        have hilo : 0x040000000000 ≤ a + i := by
          simp only [isWindow, decide_eq_true_eq] at hwi
          exact hwi.1
        have := windowMap_inj hi' hj'
        omega
      · rw [if_neg hwi] at hi'
        have hlt := windowMap_lt hj'
        obtain ⟨g, hg, -⟩ := h (0x030000000000 - a) (by simp at hi'; omega)
        rw [show a + (0x030000000000 - a) = 0x030000000000 by simp at hi'; omega] at hg
        exact (State.resolve_gap _ _ _ hg).elim
  · rw [if_neg hwj] at hj'
    by_cases hwi : isWindow (a + i) = true
    · rw [if_pos hwi] at hi'
      simp only [isWindow, decide_eq_true_eq] at hwi
      cases hctx : w.ctx with
      | none => simp [hctx] at hi'
      | some c =>
        simp only [hctx] at hi'
        have hlt := windowMap_lt hi'
        simp at hj'
        omega
    · rw [if_neg hwi] at hi'
      simp at hi' hj'
      omega

/-! Reads. -/

/-- What a range within reach reads: the bytes that stand there. -/
theorem Open.read_iff {s : State} {w : Who} {n : Nat} : ∀ {a : Nat} {l : List Byte}, Open s w a n →
    (s.read w a n = .ok l ↔ l.length = n ∧ ∀ i p, s.resolve w (a + i) = .ok p → i < n → l[i]? = some (s.byte p)) := by
  induction n with
  | zero =>
    intro a l _
    constructor
    · rintro ⟨⟩
      exact ⟨rfl, by omega⟩
    · rintro ⟨hl, -⟩
      rw [List.eq_nil_of_length_eq_zero hl]
      rfl
  | succ n ih =>
    intro a l h
    obtain ⟨p, hp, hu⟩ := h 0 (Nat.succ_pos n)
    have htail : Open s w (a + 1) n := h.part (i := 1) (by omega)
    have hb : s.readByte w a = .ok (s.byte p) := by
      unfold State.readByte
      rw [show s.resolve w a = .ok p from hp]
      simp [hu]
    obtain ⟨r, hr⟩ := exists_read_of_open htail
    obtain ⟨hlen, hbytes⟩ := (ih htail).mp hr
    have hread : s.read w a (n + 1) = .ok (s.byte p :: r) := by
      unfold State.read
      rw [hb, hr]
    have hall : ∀ i p', s.resolve w (a + i) = .ok p' → i < n + 1 → (s.byte p :: r)[i]? = some (s.byte p') := by
      intro i p' hi hin
      cases i with
      | zero =>
        rw [hp] at hi
        cases hi
        rfl
      | succ i =>
        rw [List.getElem?_cons_succ]
        exact hbytes i p' (by rw [← hi]; congr 1; omega) (by omega)
    rw [hread]
    constructor
    · rintro ⟨⟩
      exact ⟨by simp [hlen], hall⟩
    · rintro ⟨hl, hbs⟩
      refine congrArg _ (List.ext_getElem? fun i => ?_)
      by_cases hi : i < n + 1
      · obtain ⟨p', hp', -⟩ := h i hi
        rw [hall i p' hp' hi, hbs i p' hp' hi]
      · rw [List.getElem?_eq_none (by simp; omega), List.getElem?_eq_none (by omega)]

theorem length_of_read {s : State} {w : Who} {n : Nat} : ∀ {a : Nat} {l : List Byte}, s.read w a n = .ok l → l.length = n := by
  induction n with
  | zero =>
    intro a l h
    cases h
    rfl
  | succ n ih =>
    intro a l h
    unfold State.read at h
    split at h
    · cases h
    · split at h
      · cases h
      · next hr =>
        cases h
        rw [List.length_cons, ih hr]

/-- A range reads as before where it is within reach as before and its bytes are the same. -/
theorem Open.read_congr {s t : State} {w : Who} {a n : Nat} (h : Open s w a n) (hr : ∀ b, t.resolve w b = s.resolve w b)
    (hu : ∀ p, s.isUe p = false → t.isUe p = false) (hb : ∀ i < n, ∀ p, s.resolve w (a + i) = .ok p → t.byte p = s.byte p) :
    t.read w a n = s.read w a n := by
  obtain ⟨l, hl⟩ := exists_read_of_open h
  have ht : Open t w a n := fun i hi => by
    obtain ⟨p, hp, hue⟩ := h i hi
    exact ⟨p, by rw [hr, hp], hu p hue⟩
  obtain ⟨hlen, hbytes⟩ := h.read_iff.mp hl
  rw [hl]
  refine ht.read_iff.mpr ⟨hlen, fun i p hp hi => ?_⟩
  rw [hr] at hp
  rw [hbytes i p hp hi, hb i hi p hp]

/-- A part of what is read. -/
theorem Open.read_part {s : State} {w : Who} {a n : Nat} {l : List Byte} (h : Open s w a n) (hl : s.read w a n = .ok l) {i m : Nat}
    (hm : i + m ≤ n) : s.read w (a + i) m = .ok ((l.drop i).take m) := by
  obtain ⟨hlen, hbytes⟩ := h.read_iff.mp hl
  refine (h.part hm).read_iff.mpr ⟨by simp; omega, fun j p hp hj => ?_⟩
  rw [List.getElem?_take_of_lt hj, List.getElem?_drop]
  exact hbytes _ p (by rw [← hp]; congr 1; omega) (by omega)

/-! Writes. -/

/-- Direct address `p` is named in the range `x`. -/
def Named (s : State) (w : Who) (x : Nat × Nat) (p : Nat) : Prop := ∃ i < x.2, s.resolve w (x.1 + i) = .ok p

theorem byte_setAt_of_notMem (p : Nat) : ∀ (ps : List Nat) (bs : List Byte) (s : State), p ∉ ps → (s.setAt ps bs).byte p = s.byte p := by
  intro ps
  induction ps with
  | nil => exact fun _ _ _ => rfl
  | cons x ps ih =>
    intro bs s h
    cases bs with
    | nil => rfl
    | cons b bs =>
      unfold State.setAt
      rw [ih bs _ (List.not_mem_of_not_mem_cons h), State.byte_setByte_ne _ _ _ _ (List.ne_of_not_mem_cons h)]

theorem byte_setAt_of_getElem : ∀ (ps : List Nat) (bs : List Byte) (s : State) (i p : Nat), ps.Nodup → ps.length = bs.length →
    ps[i]? = some p → bs[i]? = some ((s.setAt ps bs).byte p) := by
  intro ps
  induction ps with
  | nil =>
    intro bs s i p _ _ h
    simp at h
  | cons x ps ih =>
    intro bs s i p hn hl h
    cases bs with
    | nil => simp at hl
    | cons b bs =>
      obtain ⟨hx, hn⟩ := List.nodup_cons.mp hn
      unfold State.setAt
      cases i with
      | zero =>
        simp only [List.getElem?_cons_zero, Option.some.injEq] at h ⊢
        subst h
        rw [byte_setAt_of_notMem _ _ _ _ hx, State.byte_setByte]
      | succ i => exact ih bs _ i p hn (by simpa using hl) h

theorem resolveAll_spec {s : State} {w : Who} : ∀ {n a : Nat} {ps : List Nat}, s.resolveAll w a n = .ok ps →
    ps.length = n ∧ ∀ i < n, ∃ p, ps[i]? = some p ∧ s.resolve w (a + i) = .ok p := by
  intro n
  induction n with
  | zero =>
    intro a ps h
    cases h
    exact ⟨rfl, by simp⟩
  | succ n ih =>
    intro a ps h
    unfold State.resolveAll at h
    split at h
    · cases h
    · next p hp =>
      split at h
      · cases h
      · next r hr =>
        cases h
        obtain ⟨hl, hall⟩ := ih hr
        refine ⟨by simp [hl], fun i hi => ?_⟩
        cases i with
        | zero => exact ⟨p, rfl, hp⟩
        | succ i =>
          obtain ⟨p', hp', hres⟩ := hall i (by omega)
          exact ⟨p', hp', by rw [← hres]; congr 1; omega⟩

/-- A write within reach: done, it leaves the bytes that it names as written, and every other byte. -/
theorem Open.write_spec {s : State} {w : Who} {a : Nat} {bs : List Byte} (h : Open s w a bs.length) :
    ∃ t, s.write w a bs = .ok t ∧ KeepsReach s t ∧ Changes 0x800700000000 s t
      ∧ (∀ i p, s.resolve w (a + i) = .ok p → i < bs.length → bs[i]? = some (t.byte p))
      ∧ ∀ p, ¬ Named s w (a, bs.length) p → t.byte p = s.byte p := by
  obtain ⟨t, ht, hkeep⟩ := h.exists_write
  refine ⟨t, ht, hkeep, (State.write_changes s w a bs).get ht, ?_⟩
  unfold State.write at ht
  split at ht
  · cases ht
  · next ps hps =>
    obtain ⟨hlen, hall⟩ := resolveAll_spec hps
    dsimp only at ht
    split at ht
    · cases ht
    · cases ht
      have hnodup : ps.Nodup := by
        rw [List.nodup_iff_getElem?_ne_getElem?]
        intro i j hij hj he
        obtain ⟨p, hp, hpi⟩ := hall i (by omega)
        obtain ⟨p', hp', hpj⟩ := hall j (by omega)
        have hpp : p = p' := Option.some.inj (hp.symm.trans (he.trans hp'))
        subst hpp
        exact absurd (h.resolve_inj (by omega) (by omega) hpi hpj) (by omega)
      refine ⟨fun i p hp hi => ?_, fun p hp => ?_⟩
      · obtain ⟨p', hp', hres⟩ := hall i hi
        have hpp : p' = p := Except.ok.inj (hres.symm.trans hp)
        subst hpp
        exact byte_setAt_of_getElem _ _ _ _ _ hnodup hlen hp'
      · refine byte_setAt_of_notMem _ _ _ _ fun hm => hp ?_
        obtain ⟨i, hi, he⟩ := List.mem_iff_getElem.mp hm
        obtain ⟨p', hp', hres⟩ := hall i (by omega)
        rw [List.getElem?_eq_getElem hi, he] at hp'
        cases hp'
        exact ⟨i, by simpa using hlen ▸ hi, hres⟩

end Sys2Proof.Cert
end

section
/-! SUPPORT. What a billet does beside its writes (R289, R345, R351, R467): counts, and records of the admin queue in its event ring. -/

namespace Sys2Proof.Cert

open Sys2Proof.Machine

/-! Records stay in their ring (R289). -/

/-- From `s` to `t` no event ring has moved, and no byte outside that of queue `q` has changed. -/
structure StaysInRing (q : Nat) (s t : State) : Prop where
  ring : ∀ j, (t.queue j).ev = (s.queue j).ev ∧ (t.queue j).logEv = (s.queue j).logEv
  bytes : ∀ p, ¬ inRing (s.queue q) p → t.byte p = s.byte p

theorem inRing_congr {x y : Queue} (h : y.ev = x.ev ∧ y.logEv = x.logEv) (a : Nat) : inRing y a ↔ inRing x a := by
  unfold inRing
  rw [h.1, h.2]

theorem StaysInRing.refl (q : Nat) (s : State) : StaysInRing q s s := ⟨fun _ => ⟨rfl, rfl⟩, fun _ _ => rfl⟩

theorem StaysInRing.trans {q : Nat} {s t u : State} (h : StaysInRing q s t) (k : StaysInRing q t u) : StaysInRing q s u where
  ring j := ⟨(k.ring j).1.trans (h.ring j).1, (k.ring j).2.trans (h.ring j).2⟩
  bytes p hp := (k.bytes p fun hin => hp ((inRing_congr (h.ring q) p).mp hin)).trans (h.bytes p hp)

/-- An operation that leaves queues and memory alone. -/
theorem StaysInRing.of_same {s t : State} (hq : t.queues = s.queues) (hm : t.mem = s.mem) (q : Nat) : StaysInRing q s t where
  ring j := by
    unfold State.queue
    rw [hq]
    exact ⟨rfl, rfl⟩
  bytes p _ := by
    unfold State.byte
    rw [hm]

theorem StaysInRing.of_changes {m : Nat} {s t : State} (h : Changes m s t) (hq : m.testBit 12 = false := by decide)
    (hm : m.testBit 32 = false := by decide) (q : Nat) : StaysInRing q s t := .of_same (h.queues hq) (h.mem hm) q

/-- A queue changed beside its event ring. -/
theorem State.setQueue_staysInRing (q : Nat) (s : State) (j : Nat) {x : Queue} (h : x.ev = (s.queue j).ev ∧ x.logEv = (s.queue j).logEv) :
    StaysInRing q s (s.setQueue j x) where
  ring i := by
    by_cases hi : i = j
    · subst hi
      rw [State.queue_setQueue]
      exact h
    · rw [State.queue_setQueue_ne _ _ _ _ hi]
      exact ⟨rfl, rfl⟩
  bytes _ _ := rfl

theorem length_eventRec_bytes (r : EventRec) (ph : Bool) : (r.bytes ph).length = 64 := by
  simp [EventRec.bytes, zeros]

/-- A line of the ring that the manager writes, or holds (R423). -/
theorem State.hostLine_staysInRing {s : State} {q : Nat} {a : Addr} {bs : List Byte}
    (h : ∀ p, a.toNat ≤ p → p < a.toNat + bs.length → inRing (s.queue q) p) :
    StaysInRing q s (s.hostLine a bs).1 ∧ ∀ j, (s.hostLine a bs).1.queue j = s.queue j := by
  unfold State.hostLine
  split
  · refine ⟨⟨fun _ => ⟨rfl, rfl⟩, fun p hp => State.byte_setBytes_out _ _ _ _ ?_⟩, fun _ => rfl⟩
    by_contra hin
    exact hp (h p (Nat.le_of_not_lt fun hl => hin (.inl hl)) (Nat.lt_of_not_le fun hl => hin (.inr hl)))
  · split
    · exact ⟨⟨fun _ => ⟨rfl, rfl⟩, fun _ _ => rfl⟩, fun _ => rfl⟩
    · exact ⟨.refl q s, fun _ => rfl⟩

theorem State.putEvent_staysInRing (s : State) (q : Nat) (r : EventRec) : StaysInRing q s (s.putEvent q r) := by
  have hline : ∀ p, (s.queue q).evSlot.toNat ≤ p → p < (s.queue q).evSlot.toNat + (r.bytes (s.queue q).evPhase).length →
      inRing (s.queue q) p := fun p h1 h2 =>
    ⟨(s.queue q).evCount.toNat % 2 ^ (s.queue q).logEv, Nat.mod_lt _ (Nat.two_pow_pos _), h1, by rwa [length_eventRec_bytes] at h2⟩
  obtain ⟨hstays, hqueue⟩ := State.hostLine_staysInRing hline
  unfold State.putEvent
  dsimp only
  split
  · exact State.setQueue_staysInRing q s q ⟨rfl, rfl⟩
  · split
    · refine hstays.trans (State.setQueue_staysInRing q _ q ?_)
      rw [hqueue]
      exact ⟨rfl, rfl⟩
    · exact State.setQueue_staysInRing q s q ⟨rfl, rfl⟩

theorem State.event_staysInRing (s : State) (q : Nat) (r : EventRec) : StaysInRing q s (s.event q r) := by
  unfold State.event
  dsimp only
  split
  · exact .refl q s
  · split
    · have hlost := State.putEvent_staysInRing s q
        (EventRec.package 0x07 0 0 (s.slotBeat s.tslot) (leBytes 4 (s.queue q).lost.toNat))
      generalize s.putEvent q _ = t at hlost ⊢
      split
      · refine (hlost.trans (State.setQueue_staysInRing q t q ?_)).trans (State.putEvent_staysInRing _ q r)
        exact ⟨rfl, rfl⟩
      · exact State.putEvent_staysInRing s q r
    · exact State.putEvent_staysInRing s q r

/-! Counts (R467). -/

/-- From `s` to `t` there was nothing but counts, corrections and their records: all within reach stays there, and memory is the same but
for the admin queue's event ring. -/
structure Counts (s t : State) : Prop where
  keeps : KeepsReach s t
  stays : StaysInRing 0 s t

theorem Counts.refl (s : State) : Counts s s := ⟨.refl s, .refl 0 s⟩

theorem Counts.trans {s t u : State} (h : Counts s t) (k : Counts t u) : Counts s u := ⟨h.keeps.trans k.keeps, h.stays.trans k.stays⟩

theorem State.setPage_stays (s : State) (pg : Nat) (p : Page) : StaysInRing 0 s (s.setPage pg p) :=
  .of_changes (State.setPage_changes s pg p) (q := 0)

theorem State.raise_stays (s : State) (pg : Nat) (m : BitVec 6) : StaysInRing 0 s (s.raise pg m) := by
  unfold State.raise State.pageIrq State.pkgEvent
  dsimp only
  split
  · exact (State.setPage_stays ..).trans (State.event_staysInRing ..)
  · exact State.setPage_stays ..

theorem State.count_counts (s : State) (pg i n : Nat) : Counts s (s.count pg i n) := by
  refine ⟨State.count_keepsReach s pg i n, ?_⟩
  unfold State.count
  split
  · exact .refl 0 s
  · dsimp only
    split
    · exact .refl 0 s
    · split
      · exact State.setPage_stays ..
      · exact (State.setPage_stays ..).trans (State.raise_stays ..)

theorem Counts.count {s t : State} (h : Counts s t) (pg i n : Nat) : Counts s (t.count pg i n) := h.trans (State.count_counts ..)

/-- Counts one after another. -/
theorem Counts.foldl {α : Type} {f : State → α → State} (hf : ∀ t a, Counts t (f t a)) : ∀ (l : List α) (s : State),
    Counts s (l.foldl f s) := by
  intro l
  induction l with
  | nil => exact Counts.refl
  | cons a l ih => exact fun s => (hf s a).trans (ih (f s a))

theorem State.corrected_counts (s : State) (k : Nat) : Counts s (s.corrected k) := by
  have herrs : Counts s { s with errs := SMap.erase s.errs k } :=
    ⟨.of_changes (Changes.set_errs s _), .of_changes (Changes.set_errs s _) (q := 0)⟩
  unfold State.corrected
  dsimp only
  split
  · exact herrs.count ..
  · exact herrs

theorem State.readRun_counts (s : State) (r : Nat × Nat) : Counts s (s.readRun r) := Counts.foldl State.corrected_counts ..

theorem State.overStack_counts (s : State) (d n : Nat) : Counts s (s.overStack d n) := State.count_counts ..

theorem State.overMesh_counts (s : State) (l : List (Nat × Edge)) (n : Nat) : Counts s (s.overMesh l n) :=
  Counts.foldl (fun _ _ => State.count_counts ..) l s

theorem State.fetchRun_counts (s : State) (d port : Nat) (r : Nat × Nat) : Counts s (s.fetchRun d port r) := by
  have hread := State.readRun_counts s r
  unfold State.fetchRun
  dsimp only
  split
  · exact ((hread.count ..).trans (State.overStack_counts ..)).trans (State.overMesh_counts ..)
  · exact hread.trans (State.overMesh_counts ..)
  · exact hread.trans (State.overMesh_counts ..)
  · exact hread

theorem State.sendRun_counts (s : State) (d port : Nat) (r : Nat × Nat) : Counts s (s.sendRun d port r) := by
  unfold State.sendRun
  split
  · exact ((State.count_counts ..).trans (State.overMesh_counts ..)).trans (State.overStack_counts ..)
  · exact State.overMesh_counts ..
  · exact State.overMesh_counts ..
  · exact .refl s

theorem State.nearMoved_counts (s : State) (w : Who) (k src dst n : Nat) : Counts s (s.nearMoved w k src dst n) := by
  have hfresh : Counts s { s with fresh := s.fresh + 1 } :=
    ⟨.of_changes (Changes.set_fresh s _ (Nat.le_succ _)), .of_changes (Changes.set_fresh s _ (Nat.le_succ _)) (q := 0)⟩
  unfold State.nearMoved
  refine .trans (hfresh.trans (Counts.foldl (fun t r => ?_) _ _)) (Counts.foldl (fun t r => ?_) _ _)
  · split
    · exact (State.readRun_counts ..).count ..
    · exact (State.fetchRun_counts ..).trans (State.overStack_counts ..)
  · split
    · exact State.count_counts ..
    · exact (State.overStack_counts ..).trans (State.sendRun_counts ..)

theorem State.countAtomic_counts (s : State) (w : Who) (a : Nat) : Counts s (s.countAtomic w a) := by
  unfold State.countAtomic
  split
  · exact State.count_counts ..
  · exact .refl s

/-- A range off the admin queue's ring is read as before after counts. -/
theorem Counts.read {s t : State} (h : Counts s t) {w : Who} {a n : Nat} (ho : Open s w a n) (hr : OffRing s w (s.queue 0) (a, n)) :
    t.read w a n = s.read w a n :=
  ho.read_congr (fun b => h.keeps.resolve w b) (fun _ => h.keeps.isUe) fun i hi p hp => h.stays.bytes p (hr i hi p hp)

/-! A piece of a copy (R351). -/

theorem Open.tail {s : State} {w : Who} {a n pos m : Nat} (h : Open s w a n) (hm : m ≤ n - pos) : Open s w (a + pos) m := fun j hj => by
  rw [Nat.add_assoc]
  exact h (pos + j) (by omega)

theorem OffRing.tail {s : State} {w : Who} {q : Queue} {a n pos m : Nat} (h : OffRing s w q (a, n)) (hm : m ≤ n - pos) :
    OffRing s w q (a + pos, m) := fun j hj p hp => h (pos + j) (show pos + j < n by have : j < m := hj; omega) p (by
  rw [← hp]
  congr 1
  exact (Nat.add_assoc ..).symm)

/-- What was written is read back. -/
theorem Open.exists_write_read {s : State} {w : Who} {a : Nat} {bs : List Byte} (h : Open s w a bs.length) :
    ∃ t, s.write w a bs = .ok t ∧ KeepsReach s t ∧ Changes 0x800700000000 s t ∧ t.read w a bs.length = .ok bs := by
  obtain ⟨t, ht, hkeep, hch, hin, -⟩ := h.write_spec
  refine ⟨t, ht, hkeep, hch, (h.keep hkeep).read_iff.mpr ⟨rfl, fun i p hp hi => hin i p ?_ hi⟩⟩
  rw [← hkeep.resolve, hp]

theorem copyReach_ok {s : State} {w : Who} {src dst len : Nat} (hs : Open s w src len) (hd : Open s w dst len) :
    s.copyReach w src dst len = .ok () := by
  obtain ⟨ps, hps, -⟩ := hs.exists_resolveAll
  obtain ⟨qs, hqs, -⟩ := hd.exists_resolveAll
  unfold State.copyReach
  rw [hps, hqs]
  rfl

/-- A piece of a copy between ranges within reach is made, and counted. -/
theorem exists_copyPiece {s : State} {w : Who} {src dst len : Nat} (hs : Open s w src len) (hd : Open s w dst len) (pos : Nat) :
    ∃ u, s.copyPiece w src dst len pos = .ok (u, pos + min pieceLen (len - pos)) ∧ KeepsReach s u
      ∧ (∀ j, (u.queue j).ev = (s.queue j).ev ∧ (u.queue j).logEv = (s.queue j).logEv)
      ∧ (OffRing s w (s.queue 0) (dst + pos, min pieceLen (len - pos)) →
          u.read w (dst + pos) (min pieceLen (len - pos)) = s.read w (src + pos) (min pieceLen (len - pos))) := by
  have hn : min pieceLen (len - pos) ≤ len - pos := Nat.min_le_right _ _
  generalize hm : min pieceLen (len - pos) = n at hn ⊢
  obtain ⟨b, hb⟩ := exists_read_of_open (hs.tail hn)
  have hlen := length_of_read hb
  have hdst : Open s w (dst + pos) b.length := by
    rw [hlen]
    exact hd.tail hn
  obtain ⟨t, ht, hkeep, hch, hread⟩ := hdst.exists_write_read
  have hqueues : t.queues = s.queues := hch.queues rfl
  have hcount : Counts t (match (t.count pgStkSvc 5 n).pieceCord w (src + pos) (dst + pos) with
      | some k => ((t.count pgStkSvc 5 n).count (pgStk k) 5 n).nearMoved w k (src + pos) (dst + pos) n
      | none => t.count pgStkSvc 5 n) := by
    split
    · exact ((State.count_counts ..).count ..).trans (State.nearMoved_counts ..)
    · exact State.count_counts ..
  have hring : ∀ j, t.queue j = s.queue j := fun j => by
    unfold State.queue
    rw [hqueues]
  refine ⟨_, ?_, hkeep.trans hcount.keeps, fun j => ?_, fun hoff => ?_⟩
  · unfold State.copyPiece
    simp only [hm, hb, ht, ok_bind]
    rfl
  · rw [← hring]
    exact hcount.stays.ring j
  · rw [hb, ← hread, hlen]
    refine hcount.read (hlen ▸ hdst.keep hkeep) fun i hi p hp => ?_
    rw [hring]
    exact hoff i hi p (by rw [← hp, hkeep.resolve])

end Sys2Proof.Cert
end

section
/-! SUPPORT. Copies (R317, R351) and the end of a billet (R295). -/

namespace Sys2Proof.Machine

theorem dropAt_eq_eraseIdx {α : Type} (l : List α) : ∀ i, dropAt l i = l.eraseIdx i := by
  induction l with
  | nil => exact fun i => by simp [dropAt]
  | cons x r ih =>
    intro i
    cases i with
    | zero => rfl
    | succ i => rw [dropAt, ih, List.eraseIdx_cons_succ]

theorem State.physRuns_passTurn (s : State) (k : Cmd) (w : Who) (step : Nat) : ∀ fuel a n,
    (s.passTurn k).physRuns w step fuel a n = s.physRuns w step fuel a n := by
  intro fuel
  induction fuel with
  | zero => exact fun _ _ => rfl
  | succ fuel ih =>
    intro a n
    unfold State.physRuns
    simp only [ih]
    rfl

theorem State.copyOk_passTurn (s : State) (k : Cmd) (w : Who) (src dst len : Nat) :
    (s.passTurn k).copyOk w src dst len = s.copyOk w src dst len := by
  simp only [State.copyOk, State.sharesBytes, State.runs, State.physRuns_passTurn]

/-- A checked billet of CKPT_COPY is a piece of the copy. -/
theorem State.doCopy_of_piece {s t : State} {q p : Nat} {k : Cmd} (hok : s.copyOk (s.cmdWho k.line) (fld k.line 8 6) (fld k.line 16 6)
    (fld k.line 24 8) = true) (hreach : s.copyReach (s.cmdWho k.line) (fld k.line 8 6) (fld k.line 16 6) (fld k.line 24 8) = .ok ())
    (hpiece : s.copyPiece (s.cmdWho k.line) (fld k.line 8 6) (fld k.line 16 6) (fld k.line 24 8) k.pos = .ok (t, p)) :
    s.doCopy q k = if fld k.line 24 8 ≤ p then t.done q k.slot []
      else t.setCmd q k.slot fun c => { c with started := true, pos := p } := by
  unfold State.doCopy
  simp only [hok, hreach, ite_self, hpiece, Bool.not_true, Bool.false_eq_true, if_false]

/-- The last billet of a fired copy ends it with its event (R317). -/
theorem State.doFired_of_last {s t : State} {i p : Nat} {f : FiredCopy} {c : Ctx} (hctx : s.ctx? f.ctx = some c)
    (hreach : { s with copies := dropAt s.copies i }.copyReach (.cmd c) f.src.toNat f.dst.toNat f.len = .ok ())
    (hpiece : { s with copies := dropAt s.copies i }.copyPiece (.cmd c) f.src.toNat f.dst.toNat f.len f.pos = .ok (t, p)) (hp : f.len ≤ p) :
    s.doFired i f = t.beatEvent f.q f.ctx f.tag .done 0 0 (t.slotBeat f.slot) (leBytes 2 f.idx) := by
  unfold State.doFired
  simp only [hctx, hreach, ite_self, hpiece, hp, if_true]

end Sys2Proof.Machine

namespace Sys2Proof.Cert

open Sys2Proof.Machine

theorem ckptCopyCopiesItsRange : CkptCopyCopiesItsRange := by
  intro s q slot src dst len k w h ho hw hsrc hdst hlen hok hs hd
  have hs' : Open (s.passTurn k) w src len := hs
  have hd' : Open (s.passTurn k) w dst len := hd
  obtain ⟨u, hu, -, -, hread⟩ := exists_copyPiece hs' hd' k.pos
  have hread' : OffRing s w (s.queue 0) (dst + k.pos, min pieceLen (len - k.pos)) →
      u.read w (dst + k.pos) (min pieceLen (len - k.pos)) = s.read w (src + k.pos) (min pieceLen (len - k.pos)) := fun hoff =>
    (hread hoff).trans (State.read_passTurn ..)
  have hpl : pieceLen = 2097152 := rfl
  rw [h.exec_ckptCopy ho]
  subst hw hsrc hdst hlen
  rw [State.doCopy_of_piece ((State.copyOk_passTurn ..).trans hok) (copyReach_ok hs' hd') hu, h.slot]
  refine ⟨fun hlt => ⟨u, ?_, ?_⟩, fun hle => ⟨u, ?_, ?_⟩⟩
  · rw [show min pieceLen (fld k.line 24 8 - k.pos) = 2097152 by omega, if_neg (by omega)]
  · rwa [show min pieceLen (fld k.line 24 8 - k.pos) = 2097152 by omega] at hread'
  · rw [if_pos (by omega)]
  · rwa [show min pieceLen (fld k.line 24 8 - k.pos) = fld k.line 24 8 - k.pos by omega] at hread'

/-- The last billet of a fired copy leaves its range copied, off the rings that its counts and its event write to. -/
theorem exists_doFired_last {s : State} {i : Nat} {f : FiredCopy} {c : Ctx} (hctx : s.ctx? f.ctx = some c)
    (hs : Open s (.cmd c) f.src.toNat f.len) (hd : Open s (.cmd c) f.dst.toNat f.len) (hlast : f.len ≤ f.pos + 2097152) :
    ∃ t, s.doFired i f = t ∧ t.copies = s.copies.eraseIdx i
      ∧ (OffRing s (.cmd c) (s.queue 0) (f.dst.toNat, f.len) → OffRing s (.cmd c) (s.queue f.q) (f.dst.toNat, f.len) →
          t.read (.cmd c) (f.dst.toNat + f.pos) (f.len - f.pos)
            = { s with copies := dropAt s.copies i }.read (.cmd c) (f.src.toNat + f.pos) (f.len - f.pos)) := by
  have hs' : Open { s with copies := dropAt s.copies i } (.cmd c) f.src.toNat f.len := hs
  have hd' : Open { s with copies := dropAt s.copies i } (.cmd c) f.dst.toNat f.len := hd
  obtain ⟨u, hu, hkeep, hring, hread⟩ := exists_copyPiece hs' hd' f.pos
  have hn : min pieceLen (f.len - f.pos) = f.len - f.pos := by
    have hpl : pieceLen = 2097152 := rfl
    omega
  rw [hn] at hu hread
  refine ⟨_, State.doFired_of_last hctx (copyReach_ok hs' hd') hu (by omega), ?_, fun h0 hq => ?_⟩
  · rw [(State.beatEvent_changes ..).copies rfl, hkeep.changes.copies rfl]
    exact dropAt_eq_eraseIdx ..
  · have hdst : Open u (.cmd c) (f.dst.toNat + f.pos) (f.len - f.pos) := (hd'.tail (le_refl _)).keep hkeep
    have hkeep' : KeepsReach u (u.beatEvent f.q f.ctx f.tag .done 0 0 (u.slotBeat f.slot) (leBytes 2 f.idx)) :=
      .of_changes (State.beatEvent_changes ..)
    rw [← hread (h0.tail (le_refl _))]
    refine hdst.read_congr (fun b => hkeep'.resolve _ b) (fun _ => hkeep'.isUe) fun j hj p hp => ?_
    refine (State.event_staysInRing ..).bytes p fun hin => ?_
    refine hq.tail (le_refl _) j hj p ?_ ((inRing_congr (hring f.q) p).mp hin)
    rw [← hp, hkeep.resolve]
    rfl

theorem billetEndRunsOneBillet : BilletEndRunsOneBillet := by
  refine ⟨fun s b hs himm hb => exec_billetEnd_of_nextBillet hs himm hb, fun s q k hs himm hone hnext => ?_, fun s q slot k h p hp ho => ?_,
    fun s q slot k h ho => ?_, fun s himm hnext => ?_, fun s i f c hs himm hb hctx hsrc hdst hlast => ?_⟩
  · rw [exec_billetEnd]
    unfold execBilletEnd
    have hserve : s.serveAll 1 = s.serveImm q k := by simp [State.serveAll, himm]
    rw [if_pos hs, hone]
    simp only [hserve, hnext]
  · rw [h.exec_billetEnd_eq]
    simp only [List.mem_cons, List.not_mem_nil, or_false] at hp
    rcases hp with rfl | rfl | rfl | rfl | rfl | rfl | rfl
    · exact (h.exec_eq (f := fun l => decide (cOpc l = 0x06)) rfl (by simp [ho])).symm
    · exact (h.exec_eq (f := fun l => decide (cOpc l = 0x07)) rfl (by simp [ho])).symm
    · exact (h.exec_eq (f := fun l => decide (cOpc l = 0x0C)) rfl (by simp [ho])).symm
    · exact (h.exec_eq (f := fun l => decide (cOpc l = 0x0D)) rfl (by simp [ho])).symm
    · exact (h.exec_eq (f := fun l => decide (cOpc l = 0x0F)) rfl (by simp [ho])).symm
    · exact (h.exec_eq (f := fun l => decide (cOpc l = 0x10)) rfl (by simp [ho])).symm
    · exact (h.exec_eq (f := fun l => decide (cOpc l = 0x12)) rfl (by simp [ho])).symm
  · rw [h.exec_billetEnd_eq, h.runCmdBillet_rebuild ho]
  · rw [exec_billetEnd]
    unfold execBilletEnd
    simp [State.serveAll_of_nextImm_none himm, hnext]
  · obtain ⟨t, ht, hcopies, hread⟩ := exists_doFired_last (s := { s with rr := (Billet.copy i f).order + 1 }) (i := i) hctx hsrc hdst hlast
    refine ⟨t, ?_, hcopies, fun h0 hq => ?_⟩
    · rw [exec_billetEnd_of_nextBillet hs himm hb, ← ht]
      rfl
    · rw [hread h0 hq]
      exact (hsrc.tail (le_refl _)).read_congr (fun _ => rfl) (fun _ h => h) fun _ _ _ _ => rfl

end Sys2Proof.Cert
end

section
/-! SUPPORT. CTX_SAVE (R300, Table 11.9) and SCRUB (R349). -/

namespace Sys2Proof.Machine

@[simp] theorem length_zeros (n : Nat) : (zeros n).length = n := List.length_replicate

@[simp] theorem bit_zero (v : Nat) : bit v 0 = decide (v % 2 = 1) := Nat.testBit_zero v

/-- A field set within a string leaves its length. -/
theorem length_setFld {bs : List Byte} {off n : Nat} (v : Nat) (h : off + n ≤ bs.length) : (setFld bs off n v).length = bs.length := by
  simp only [setFld, List.length_append, List.length_take, length_leBytes, List.length_drop]
  omega

/-- A header is 64 bytes (Table 11.9). -/
theorem State.length_imageHead (s : State) (c : Ctx) (body : List Byte) : (s.imageHead c body).length = 64 := by
  unfold State.imageHead
  dsimp only
  rw [length_setFld]
  all_goals simp only [List.length_append, length_leBytes, length_zeros]
  omega

/-- A header rests on the beat and the cores beside the body. -/
theorem State.imageHead_congr {s t : State} (hb : t.beat = s.beat) (hc : t.cores = s.cores) (c : Ctx) (body : List Byte) :
    t.imageHead c body = s.imageHead c body := by
  have hcores : t.savedCores c = s.savedCores c := by
    unfold State.savedCores State.core
    rw [hc]
  have hbeat : t.slotBeat c.slot = s.slotBeat c.slot := by
    unfold State.slotBeat
    rw [hb]
  unfold State.imageHead
  rw [hcores, hbeat]

theorem State.regionBytes_passTurn (s : State) (k : Cmd) (c : Ctx) : (s.passTurn k).regionBytes c = s.regionBytes c := by
  simp only [State.regionBytes, State.read_passTurn]

/-- A billet of CTX_SAVE before the last writes its piece (R294). -/
theorem State.doSave_of_more {s t : State} {q n : Nat} {k : Cmd} {c : Ctx} {d : List Byte} (hctx : s.ctx? (cCtx k.line) = some c)
    (hd : (if bit (fld k.line 14 1) 0 then s.regionBytes c else .ok []) = .ok d)
    (hn : n = if k.started then k.count else 64 + (s.imageBody c d).length) (hfit : n ≤ fld k.line 16 8) (hmore : k.pos + pieceLen < n - 64)
    (hw : s.write (.cmd c) (fld k.line 8 6 + 64 + k.pos) (((s.imageBody c d ++ zeros n).drop k.pos).take pieceLen) = .ok t) :
    s.doSave q k = t.setCmd q k.slot fun x => { x with started := true, pos := k.pos + pieceLen, count := n } := by
  unfold State.doSave
  have hm : min pieceLen (n - 64 - k.pos) = pieceLen := by omega
  simp only [hctx, hd, ← hn, if_neg (Nat.not_lt.mpr hfit), hm, hw, if_pos hmore]

/-- The last billet writes the rest, and the header over what stands there (R300). -/
theorem State.doSave_of_last {s t u : State} {q n : Nat} {k : Cmd} {c : Ctx} {d b : List Byte} (hctx : s.ctx? (cCtx k.line) = some c)
    (hd : (if bit (fld k.line 14 1) 0 then s.regionBytes c else .ok []) = .ok d)
    (hn : n = if k.started then k.count else 64 + (s.imageBody c d).length) (hfit : n ≤ fld k.line 16 8)
    (hlast : n - 64 ≤ k.pos + pieceLen) (hpos : 64 + k.pos ≤ n)
    (hw : s.write (.cmd c) (fld k.line 8 6 + 64 + k.pos) (((s.imageBody c d ++ zeros n).drop k.pos).take (n - 64 - k.pos)) = .ok t)
    (hr : t.read (.cmd c) (fld k.line 8 6 + 64) (n - 64) = .ok b) (hh : t.write (.cmd c) (fld k.line 8 6) (t.imageHead c b) = .ok u) :
    s.doSave q k = u.done q k.slot (leBytes 8 n) := by
  unfold State.doSave
  have hm : min pieceLen (n - 64 - k.pos) = n - 64 - k.pos := by omega
  simp only [hctx, hd, ← hn, if_neg (Nat.not_lt.mpr hfit), hm, hw, hr, ok_bind, hh]
  rw [if_neg (by omega)]

end Sys2Proof.Machine

namespace Sys2Proof.Cert

open Sys2Proof.Machine

/-- Of a range within reach that is written from `i` on, the rest stays. -/
theorem Open.read_of_write {s t : State} {w : Who} {a n i : Nat} {bs : List Byte} (h : Open s w a n) (hi : i + bs.length ≤ n)
    (hw : s.write w (a + i) bs = .ok t) {j m : Nat} (hj : j + m ≤ n) (hapart : j + m ≤ i ∨ i + bs.length ≤ j) :
    t.read w (a + j) m = s.read w (a + j) m := by
  obtain ⟨t', ht', hkeep, -, -, hout⟩ := (h.part hi).write_spec
  rw [hw] at ht'
  cases ht'
  refine (h.part hj).read_congr (fun b => hkeep.resolve _ b) (fun _ => hkeep.isUe) fun x hx p hp => hout p ?_
  rintro ⟨y, hy, hpy⟩
  have hy' : y < bs.length := hy
  rw [Nat.add_assoc] at hp hpy
  have := h.resolve_inj (by omega) (by omega) hp hpy
  omega

theorem ctxSaveWritesItsImage : CtxSaveWritesItsImage := by
  intro s q slot n k c d body h ho hctx hd hbody hn hfit hpos hopen
  have hpl : pieceLen = 2097152 := rfl
  have ho' : Open (s.passTurn k) (.cmd c) (fld k.line 8 6) n := hopen
  have hctx' : (s.passTurn k).ctx? (cCtx k.line) = some c := hctx
  have hd' : (if bit (fld k.line 14 1) 0 then (s.passTurn k).regionBytes c else .ok []) = .ok d := by
    rw [State.regionBytes_passTurn, bit_zero]
    simpa using hd
  have hbody' : (s.passTurn k).imageBody c d = body := hbody.symm
  have hn' : n = if k.started then k.count else 64 + ((s.passTurn k).imageBody c d).length := by rw [hbody', hn]
  have hpiece : ∀ m, k.pos + m ≤ n - 64 → ((((s.passTurn k).imageBody c d ++ zeros n).drop k.pos).take m).length = m := fun m hm => by
    simp only [List.length_take, List.length_drop, List.length_append, length_zeros]
    omega
  rw [h.exec_ctxSave ho]
  refine ⟨fun hmore => ?_, fun hlast => ?_⟩
  · have hlen := hpiece pieceLen (by omega)
    have hw : Open (s.passTurn k) (.cmd c) (fld k.line 8 6 + 64 + k.pos)
        ((((s.passTurn k).imageBody c d ++ zeros n).drop k.pos).take pieceLen).length := by
      rw [hlen, Nat.add_assoc]
      exact ho'.part (by omega)
    obtain ⟨t, ht, -, -, hread⟩ := hw.exists_write_read
    refine ⟨t, ?_, ?_⟩
    · rw [State.doSave_of_more hctx' hd' hn' hfit (by omega) ht, h.slot]
      rfl
    · rw [hlen, hbody'] at hread
      exact hread
  · have hlen := hpiece (n - 64 - k.pos) (by omega)
    have hw : Open (s.passTurn k) (.cmd c) (fld k.line 8 6 + 64 + k.pos)
        ((((s.passTurn k).imageBody c d ++ zeros n).drop k.pos).take (n - 64 - k.pos)).length := by
      rw [hlen, Nat.add_assoc]
      exact ho'.part (by omega)
    obtain ⟨t, ht, hkeep, hch, hread⟩ := hw.exists_write_read
    have hot := ho'.keep hkeep
    obtain ⟨b, hb⟩ := exists_read_of_open (hot.part (i := 64) (m := n - 64) (by omega))
    have hhead : Open t (.cmd c) (fld k.line 8 6) (t.imageHead c b).length := by
      rw [State.length_imageHead]
      exact hot.part (i := 0) (by omega)
    obtain ⟨u, hu, hkeepu, hchu, hreadu⟩ := hhead.exists_write_read
    refine ⟨u, b, ?_, ?_, ?_, ?_⟩
    · rw [State.doSave_of_last hctx' hd' hn' hfit (by omega) hpos ht hb hu, h.slot]
    · rw [← hb]
      have hl : (t.imageHead c b).length = 64 := State.length_imageHead ..
      exact hot.read_of_write (i := 0) (by omega) hu (j := 64) (m := n - 64) (by omega) (by omega)
    · have hbl := length_of_read hb
      have hpart := (hot.part (i := 64) (m := n - 64) (by omega)).read_part hb (i := k.pos) (m := n - 64 - k.pos) (by omega)
      rw [List.take_of_length_le (by simp; omega)] at hpart
      rw [hlen, hbody'] at hread
      exact Except.ok.inj (hpart.symm.trans hread)
    · rw [State.length_imageHead] at hreadu
      rw [hreadu, State.imageHead_congr (hch.beat rfl) (hch.cores rfl)]
      rfl

/-! SCRUB. -/

theorem mem_erase_iff {α : Type} (m : SMap α) (k : Nat) (p : Nat × α) : p ∈ SMap.erase m k ↔ p ∈ m ∧ p.1 ≠ k := by
  simp [SMap.erase]

/-- A corrected unit is of those with errors no longer. -/
theorem errs_corrected (s : State) (k : Nat) : (s.corrected k).errs = SMap.erase s.errs k := by
  unfold State.corrected
  dsimp only
  split
  · exact (State.count_changes ..).errs rfl
  · rfl

theorem mem_errs_foldl_corrected (p : Nat × List Nat) : ∀ (l : List Nat) (s : State),
    p ∈ (l.foldl State.corrected s).errs ↔ p ∈ s.errs ∧ p.1 ∉ l := by
  intro l
  induction l with
  | nil => simp
  | cons k l ih =>
    intro s
    rw [List.foldl_cons, ih, errs_corrected, mem_erase_iff, List.mem_cons]
    tauto

/-- A pass over a cord's stack leaves no line of it with an error that the code corrects, and answers their number (R349). -/
theorem scrubCord_scrubbed (s : State) (kind c : Nat) : Scrubbed (s.scrubCord kind c).1 c ∧ (s.scrubCord kind c).2 = lightErrors s c := by
  refine ⟨fun p hp => ?_, rfl⟩
  have hplace : ∀ a, (s.scrubCord kind c).1.place a = s.place a := fun a => by
    have hch := State.scrubCord_changes s kind c
    unfold State.place State.nCords State.hasDie State.small
    rw [hch.fuses rfl]
  rw [hplace]
  have hbad : ∀ (l : List Nat) (t : State), (l.foldl (fun t a => t.ueFound kind c a) t).errs = t.errs := fun l t =>
    (Changes.foldl l (Changes.refl 0x100011400 t) fun u a => State.ueFound_changes ..).errs rfl
  unfold State.scrubCord at hp
  dsimp only at hp
  rw [hbad, mem_errs_foldl_corrected, (State.count_changes ..).errs rfl] at hp
  intro hown
  exact hp.2 (List.mem_filter.mpr ⟨List.mem_map_of_mem hp.1, by simpa using hown⟩)

theorem scrubCorrectsItsStacks : ScrubCorrectsItsStacks := by
  intro s q slot k h ho hcords
  have hin : ¬ ((cordsOf (fld k.line 8 3)).any fun c => decide ((s.passTurn k).nCords ≤ c)) = true := by
    simp only [List.any_eq_true, decide_eq_true_eq, not_exists, not_and, Nat.not_le]
    exact hcords
  rw [h.exec_scrub ho]
  unfold State.doScrub
  dsimp only
  rw [if_neg hin]
  refine ⟨fun c hc hup => ?_, fun hle => ?_⟩
  · have hup' : ¬ (!(s.passTurn k).placeUp (.stack c)) = true := by
      rw [show (s.passTurn k).placeUp (.stack c) = true from hup]
      decide
    obtain ⟨hscrubbed, hcount⟩ := scrubCord_scrubbed (s.passTurn k) 2 c
    have hcount' : ((s.passTurn k).scrubCord 2 c).2 = lightErrors s c := hcount
    simp only [hc]
    rw [if_neg hup', hcount', h.slot]
    exact ⟨fun hlt => ⟨_, by rw [if_neg (by omega)]; rfl, hscrubbed⟩, fun heq => ⟨_, by rw [if_pos (by omega)], hscrubbed⟩⟩
  · rw [List.getElem?_eq_none hle, h.slot]

end Sys2Proof.Cert
end

section
/-! SUPPORT. CTX_RESTORE (R301): its checks, a piece of the regions, and the context that it brings to life. -/

namespace Sys2Proof.Machine

/-! The blocks and slots of contexts. -/

/-- From `s` to `t` no context has ended, or changed its block or its slot. -/
structure SameBlocks (s t : State) : Prop where
  get : ∀ id y, s.ctx? id = some y → ∃ z, t.ctx? id = some z ∧ z.block = y.block ∧ z.slot = y.slot

theorem SameBlocks.of_ctxs {s t : State} (h : t.ctxs = s.ctxs) : SameBlocks s t := ⟨fun id y hy =>
  ⟨y, by
    unfold State.ctx? at hy ⊢
    rw [h, hy], rfl, rfl⟩⟩

theorem SameBlocks.refl (s : State) : SameBlocks s s := .of_ctxs rfl

theorem SameBlocks.of_changes {m : Nat} {s t : State} (h : Changes m s t) (hm : m.testBit 17 = false := by decide) : SameBlocks s t :=
  .of_ctxs (h.ctxs hm)

theorem SameBlocks.trans {s t u : State} (h : SameBlocks s t) (k : SameBlocks t u) : SameBlocks s u := ⟨fun id y hy =>
  let ⟨z, hz, hzb, hzs⟩ := h.get id y hy
  let ⟨x, hx, hxb, hxs⟩ := k.get id z hz
  ⟨x, hx, hxb.trans hzb, hxs.trans hzs⟩⟩

/-- One operation after another, the later first. -/
theorem SameBlocks.after {s t u : State} (k : SameBlocks t u) (h : SameBlocks s t) : SameBlocks s u := h.trans k

/-- A context set in place of one with its block and slot. -/
theorem State.setCtx_sameBlocks {s : State} {id : Nat} {c x : Ctx} (h : s.ctx? id = some c) (hb : x.block = c.block)
    (hs : x.slot = c.slot) : SameBlocks s (s.setCtx id (some x)) := ⟨fun j y hy => by
  by_cases hj : j = id
  · subst hj
    rw [h] at hy
    cases hy
    exact ⟨x, State.ctx?_setCtx .., hb, hs⟩
  · exact ⟨y, by rw [State.ctx?_setCtx_ne _ _ _ _ hj, hy], rfl, rfl⟩⟩

theorem State.setStep_sameBlocks (s : State) (ctx : Nat) (f : StepRec → StepRec) : SameBlocks s (s.setStep ctx f) := by
  unfold State.setStep
  split
  · exact .refl s
  · next h => exact State.setCtx_sameBlocks h rfl rfl

theorem State.tryBegin_sameBlocks (s : State) (ctx : Nat) : SameBlocks s (s.tryBegin ctx) := by
  have hbegin : SameBlocks s (s.beginLists ctx) := by
    unfold State.beginLists
    split
    · exact .refl s
    · split
      · exact .refl s
      · next c _ _ r _ =>
        have hsnap : SameBlocks s (if r.att = 0 then s.snapSync c else s) := by
          split
          · exact .of_changes (State.snapSync_changes ..)
          · exact .refl s
        dsimp only
        split
        · next s2 h2 =>
          exact ((hsnap.trans (.of_changes ((State.bucketing_changes ..).get h2))).trans (.of_changes (State.startCores_changes ..))).trans
            (State.setStep_sameBlocks ..)
        · exact (hsnap.trans (State.setStep_sameBlocks ..)).trans (State.setStep_sameBlocks ..)
  unfold State.tryBegin
  split
  · exact .refl s
  · split
    · exact .refl s
    · split
      · exact hbegin
      · exact .refl s

/-- Beside the lists that it begins, a change of the beat leaves contexts alone. -/
theorem State.applyBeat_sameBlocks (s : State) (k : Nat) (b : Beat) (intact : Bool) : SameBlocks s (s.applyBeat k b intact) := by
  unfold State.applyBeat
  repeat' (with_reducible first
    | exact .refl _
    | apply SameBlocks.after (State.tryBegin_sameBlocks ..)
    | apply SameBlocks.after (.of_changes (State.copyShadows_changes ..))
    | apply SameBlocks.after (.of_changes (State.judgeLate_changes ..))
    | apply SameBlocks.after (.of_changes (State.releaseWaitbeat_changes ..))
    | apply SameBlocks.after (.of_changes (State.judgeSched_changes ..))
    | apply SameBlocks.after (.of_changes (State.traceBeat_changes ..))
    | apply SameBlocks.after (.of_changes (State.count_changes ..))
    | apply SameBlocks.after (.of_changes (State.mendSlot_changes ..))
    | apply SameBlocks.after (.of_changes (State.setBeat_changes ..))
    | split
    | dsimp only)

/-! A change of the beat by the package itself (R309, R311). -/

theorem find?_insert_self {α : Type} (m : SMap α) (k : Nat) (v : α) : (SMap.insert m k v).find? (fun p => decide (p.1 = k)) = some (k, v) := by
  induction m with
  | nil => simp [SMap.insert]
  | cons p r ih =>
    unfold SMap.insert
    split
    · simp
    · split
      · simp
      · next h1 h2 => rw [List.find?_cons_of_neg (by simpa using h2), ih]

theorem State.moveBeat_sameBlocks (s : State) (k kind : Nat) (b : Beat) : SameBlocks s (s.moveBeat k kind b) := by
  have hsend : SameBlocks s (s.sendFrameOut k b 0) := .of_changes (State.sendFrameOut_changes ..)
  unfold State.moveBeat State.decideBeat
  dsimp only
  split
  · split
    · have hmarkers : Changes 0x100100011400 s (s.dnps.foldl (fun t p => t.sendMarker p (beatMarker kind k s.beatDly b)) s) :=
        Changes.foldl _ (Changes.refl _ s) fun u p => State.sendMarker_changes ..
      exact ((SameBlocks.of_changes hmarkers).trans (.of_changes (State.sendFrameOut_changes ..))).trans (.of_changes (State.setBeat_changes ..))
    · exact State.applyBeat_sameBlocks ..
  · refine .trans ?_ (State.applyBeat_sameBlocks ..)
    split
    · exact .refl s
    · exact hsend

/-- A beat that the package decides is applied, or waits for its delay (R311). -/
theorem State.moveBeat_decided (s : State) (k kind : Nat) (b : Beat) :
    (s.moveBeat k kind b).slotBeat k = b ∨ (s.moveBeat k kind b).nextBeat k = some b := by
  unfold State.moveBeat State.decideBeat
  dsimp only
  split
  · split
    · right
      simp only [State.nextBeat, State.setBeat, find?_insert_self, Option.map_some]
    · exact .inl (State.slotBeat_applyBeat ..)
  · exact .inl (State.slotBeat_applyBeat ..)

theorem State.restoreBeat_spec (s : State) (slot : Nat) (b : Beat) : SameBlocks s (s.restoreBeat slot b)
    ∧ ((s.restoreBeat slot b).slotBeat slot = { step := b.step, phase := 0 }
      ∨ (s.restoreBeat slot b).nextBeat slot = some { step := b.step, phase := 0 }) := by
  unfold State.restoreBeat
  dsimp only
  refine ⟨.trans ?_ (State.moveBeat_sameBlocks ..), State.moveBeat_decided ..⟩
  refine .of_changes (m := 0x10030000000) ?_
  repeat' (with_reducible first
    | exact Changes.refl _ _
    | (show Nat.lor _ _ = _; decide)
    | apply Changes.ite
    | apply Changes.after (State.setBeat_changes ..)
    | apply Changes.after (State.setFw_changes ..)
    | intro _
    | apply Changes.after (Changes.set_sched _ _))

/-! The context that comes to life (R301). -/

theorem State.ctx?_makeLive (s : State) (id : Nat) (c : Ctx) :
    ∃ y, (s.makeLive id c).ctx? id = some y ∧ y.block = c.block ∧ y.slot = c.slot := by
  unfold State.makeLive
  have hset := State.ctx?_setCtx (((((s.freshCopies c).zeroSync c).deriveLanes c).loadRng c)) id (some c)
  generalize (((((s.freshCopies c).zeroSync c).deriveLanes c).loadRng c).setCtx id (some c)) = t at hset ⊢
  unfold State.idleLower
  rw [hset]
  dsimp only
  split
  · refine (SameBlocks.of_changes (State.count_changes ..)).get id { c with idleBanked := true } (State.ctx?_setCtx ..)
  · exact ⟨c, hset, rfl, rfl⟩

/-- The state in which a restored context has come to life, before its command completes. -/
def State.revived (s : State) (id : Nat) (x : Ctx) (img : List Byte) : State :=
  let p := imgParts img
  let s3 := ((s.makeLive id x).putSync x img p).restoreBeat x.slot (Beat.ofNat (fld img 16 8))
  let s4 := if x.lane then
      if decide (fld img p.gen 4 ≠ x.geom) then x.hearths.foldl (fun t g => t.count (rngPage g) 6 1) s3 else s3.putLanes x img p
    else s3
  if decide (fld img 12 3 = blkCords x.block) then (s4.putLocal x img p).putCores x img p else s4

theorem State.restoreLive_eq (s : State) (q : Nat) (k : Cmd) (id : Nat) (x : Ctx) (img : List Byte) :
    s.restoreLive q k id x img = (s.revived id x img).complete q k.slot .done (if fld img 576 4 ≠ x.geom then eGeomChanged else 0) 0
      (ctxResult id x.syncBase ++ leBytes 4 (if fld img 12 3 = blkCords x.block then 0 else fld img 36 4)) := by
  unfold State.restoreLive State.revived
  simp only [decide_eq_true_eq]
  rfl

/-- Lanes, sync objects and cores of the image change neither beats nor contexts. -/
theorem State.revived_changes (s : State) (id : Nat) (x : Ctx) (img : List Byte) :
    Changes 0x106711400 (((s.makeLive id x).putSync x img (imgParts img)).restoreBeat x.slot (Beat.ofNat (fld img 16 8)))
      (s.revived id x img) := by
  unfold State.revived
  repeat' (with_reducible first
    | exact Changes.refl _ _
    | (show Nat.lor _ _ = _; decide)
    | apply Changes.ite
    | apply Changes.after (State.putCores_changes ..)
    | apply Changes.after (State.putLocal_changes ..)
    | apply Changes.after (State.putLanes_changes ..)
    | apply Changes.after (State.count_changes ..)
    | apply Changes.foldl
    | intro _)

theorem State.revived_spec (s : State) (id : Nat) (x : Ctx) (img : List Byte) :
    (∃ y, (s.revived id x img).ctx? id = some y ∧ y.block = x.block ∧ y.slot = x.slot)
      ∧ ((s.revived id x img).slotBeat x.slot = { step := (Beat.ofNat (fld img 16 8)).step, phase := 0 }
        ∨ (s.revived id x img).nextBeat x.slot = some { step := (Beat.ofNat (fld img 16 8)).step, phase := 0 }) := by
  have hch := State.revived_changes s id x img
  obtain ⟨hblocks, hbeat⟩ := State.restoreBeat_spec ((s.makeLive id x).putSync x img (imgParts img)) x.slot (Beat.ofNat (fld img 16 8))
  obtain ⟨y, hy, hyb, hys⟩ := State.ctx?_makeLive s id x
  refine ⟨?_, ?_⟩
  · have hlive := ((SameBlocks.of_changes (State.putSync_changes ..)).trans hblocks).trans (.of_changes hch)
    obtain ⟨z, hz, hzb, hzs⟩ := hlive.get id y hy
    exact ⟨z, hz, hzb.trans hyb, hzs.trans hys⟩
  · unfold State.slotBeat State.nextBeat at hbeat ⊢
    rw [hch.beat rfl]
    exact hbeat

/-! Pieces and checks. -/

/-- A piece lies in one of the regions. -/
theorem mem_regionPieces {c : Ctx} {p : Nat × Nat × Nat} : ∀ {l : List Nat} {at_ : Nat}, p ∈ regionPieces c l at_ →
    ∃ i ∈ l, ∃ o, p.1 = (blkPreg c.block i).1 + o ∧ o + p.2.2 ≤ (blkPreg c.block i).2 := by
  intro l
  induction l with
  | nil =>
    intro at_ h
    cases h
  | cons i r ih =>
    intro at_ h
    unfold regionPieces at h
    rcases List.mem_append.mp h with h | h
    · obtain ⟨j, hj, rfl⟩ := List.mem_map.mp h
      refine ⟨i, List.mem_cons_self, j * pieceLen, rfl, ?_⟩
      have hj' := List.mem_range.mp hj
      unfold ceilDiv pieceLen at hj'
      rw [if_neg (by decide)] at hj'
      dsimp only
      unfold pieceLen
      omega
    · obtain ⟨j, hj, o, h1, h2⟩ := ih h
      exact ⟨j, List.mem_cons_of_mem _ hj, o, h1, h2⟩

/-- The pieces in which a restore copies the contents of the regions. -/
def restorePieces (c : Ctx) (img : List Byte) : List (Nat × Nat × Nat) :=
  if (imgParts img).data < img.length then regionPieces c (List.range (blkNpreg c.block)) (imgParts img).data else []

theorem mem_restorePieces {c : Ctx} {img : List Byte} {p : Nat × Nat × Nat} (h : p ∈ restorePieces c img) :
    ∃ i < blkNpreg c.block, ∃ o, p.1 = (blkPreg c.block i).1 + o ∧ o + p.2.2 ≤ (blkPreg c.block i).2 := by
  unfold restorePieces at h
  split at h
  · obtain ⟨i, hi, o, ho⟩ := mem_regionPieces h
    exact ⟨i, List.mem_range.mp hi, o, ho⟩
  · cases h

/-- A restore whose piece is written goes on with the next one, or brings its context to life. -/
theorem State.restoreRun_of_piece {s t : State} {c : Ctx} {id q : Nat} {k : Cmd} {img : List Byte}
    (h : s.putPiece (restoredCtx c img (imgParts img)) img (restorePieces (restoredCtx c img (imgParts img)) img)[k.pos]? = .ok t) :
    s.restoreRun q k id c img = if k.pos + 1 < (restorePieces (restoredCtx c img (imgParts img)) img).length
      then t.setCmd q k.slot fun x => { x with started := true, pos := k.pos + 1 }
      else t.restoreLive q k id (restoredCtx c img (imgParts img)) img := by
  unfold restorePieces at h ⊢
  unfold State.restoreRun
  simp only [h]

end Sys2Proof.Machine

namespace Sys2Proof.Cert

open Sys2Proof.Machine

/-- The piece of a restore's turn is written to its region. -/
theorem exists_putPiece {s : State} {c : Ctx} (img : List Byte)
    (h : ∀ i < blkNpreg c.block, Open s (.service c) (blkPreg c.block i).1 (blkPreg c.block i).2) (j : Nat) :
    ∃ t, s.putPiece c img (restorePieces c img)[j]? = .ok t ∧ ∀ p, (restorePieces c img)[j]? = some p →
      t.read (.service c) p.1 ((img.drop p.2.1).take p.2.2).length = .ok ((img.drop p.2.1).take p.2.2) := by
  cases hp : (restorePieces c img)[j]? with
  | none => exact ⟨s, rfl, by simp⟩
  | some p =>
    obtain ⟨i, hi, o, hadr, hlen⟩ := mem_restorePieces (List.mem_of_getElem? hp)
    have ho : Open s (.service c) p.1 ((img.drop p.2.1).take p.2.2).length := by
      rw [hadr]
      exact (h i hi).part ((Nat.add_le_add_left (List.length_take_le _ _) o).trans hlen)
    obtain ⟨t, ht, -, -, hread⟩ := ho.exists_write_read
    refine ⟨t, ht, ?_⟩
    rintro _ ⟨⟩
    exact hread

/-- An image in order passes the checks of R301. -/
theorem Image_.doRestore_eq {s : State} {q id : Nat} {k : Cmd} {img blk : List Byte} {c : Ctx} (h : Image_ s q k img blk id c) :
    (s.passTurn k).doRestore q k = (s.passTurn k).restoreRun q k id (s.newCtx blk q) img := by
  obtain ⟨⟨hd, hhd, hmagic, hver, hmin, himg⟩, hblk, hcrc, hgood, hunl, hfits, hfree, hseqt, -, -⟩ := h
  have hhead : ¬(fld hd 0 4 ≠ 0x58435654 ∨ fld hd 4 2 ≠ 0x0100 ∨ fld hd 24 8 < 576) := by omega
  have hcrc' : ¬ (!imgOk img) = true := by simp [hcrc]
  have hblock : ¬ (!(s.passTurn k).ctxBlockOk blk || (decide (fld img 580 1 = 1) && !((s.passTurn k).page pgMgr).unl)) = true := by
    rw [show (s.passTurn k).ctxBlockOk blk = true from hgood]
    by_cases hlane : fld img 580 1 = 1
    · rw [show ((s.passTurn k).page pgMgr).unl = true from hunl hlane]
      simp
    · simp [hlane]
  have hfits' : ¬ (!imgFits img blk) = true := by simp [hfits]
  have hfree' : (s.passTurn k).freeCtxId = some id := hfree
  have hseqt' : (s.passTurn k).blkSeqtOk (s.newCtx blk q) = .ok true := by
    rw [← hseqt]
    simp only [State.blkSeqtOk, State.seqt, State.read_passTurn]
    rfl
  unfold State.doRestore
  simp only [State.read_passTurn, hhd, if_neg hhead, himg, hblk, if_neg hcrc', if_neg hblock, if_neg hfits']
  rw [show (s.passTurn k).newCtx blk q = s.newCtx blk q from rfl, hfree', hseqt']

theorem ctxRestoreBringsUpItsContext : CtxRestoreBringsUpItsContext := by
  intro s q slot id k c img blk l h ho himage hl
  have hregions : ∀ i < blkNpreg c.block, Open (s.passTurn k) (.service c) (blkPreg c.block i).1 (blkPreg c.block i).2 := himage.regions
  obtain ⟨t, ht, hread⟩ := exists_putPiece img hregions k.pos
  have hpieces : restorePieces c img = l := hl.symm
  have hctx := himage.ctx
  have hrun := h.exec_ctxRestore ho
  rw [himage.doRestore_eq] at hrun
  rw [hctx] at ht
  rw [State.restoreRun_of_piece ht, ← hctx, hpieces, h.slot] at hrun
  rw [hpieces] at hread
  refine ⟨fun p hmore hp => ⟨t, ?_, hread p hp⟩, fun hlast => ?_⟩
  · rw [hrun, if_pos hmore]
  · obtain ⟨⟨y, hy, hyb, hys⟩, hbeat⟩ := State.revived_spec t id c img
    refine ⟨t.revived id c img, y, _, ?_, hy, hyb, hys, rfl, hbeat⟩
    rw [hrun, if_neg (Nat.not_lt.mpr hlast), State.restoreLive_eq, h.slot]

end Sys2Proof.Cert
end

section
/-! SUPPORT. The parts of a key-value cache that is in order (R235 to R242): what is written in one of them leaves the others, and the
pool stays in order under what the page service does with it. -/

namespace Sys2Proof.Cert

open Sys2Proof.Machine

/-! Ranges within ranges. -/

/-- Range `x` lies in range `y`. -/
def Inside (x y : Nat × Nat) : Prop := y.1 ≤ x.1 ∧ x.1 + x.2 ≤ y.1 + y.2

theorem Named.inside {s : State} {w : Who} {x y : Nat × Nat} {p : Nat} (h : Named s w x p) (hi : Inside x y) : Named s w y p := by
  obtain ⟨i, hx, hp⟩ := h
  obtain ⟨h1, h2⟩ := hi
  exact ⟨x.1 - y.1 + i, by omega, by rw [← hp]; congr 1; omega⟩

theorem Open.inside {s : State} {w : Who} {x y : Nat × Nat} (h : Open s w y.1 y.2) (hi : Inside x y) : Open s w x.1 x.2 := by
  obtain ⟨h1, h2⟩ := hi
  have hp := h.part (i := x.1 - y.1) (m := x.2) (by omega)
  rwa [show y.1 + (x.1 - y.1) = x.1 by omega] at hp

theorem apart_iff {s : State} {w : Who} {x y : Nat × Nat} : Apart s w x y ↔ ∀ p, Named s w x p → ¬ Named s w y p :=
  ⟨fun h p ⟨i, hi, hpi⟩ ⟨j, hj, hpj⟩ => h i hi j hj p hpi hpj, fun h i hi j hj p hpi hpj => h p ⟨i, hi, hpi⟩ ⟨j, hj, hpj⟩⟩

/-- Two separate parts of a range within reach are apart. -/
theorem Open.apart {s : State} {w : Who} {x y z : Nat × Nat} (h : Open s w z.1 z.2) (hx : Inside x z) (hy : Inside y z)
    (hn : x.1 + x.2 ≤ y.1 ∨ y.1 + y.2 ≤ x.1) : Apart s w x y := by
  intro i hi j hj p hpi hpj
  obtain ⟨hx1, hx2⟩ := hx
  obtain ⟨hy1, hy2⟩ := hy
  rw [show x.1 + i = z.1 + (x.1 - z.1 + i) by omega] at hpi
  rw [show y.1 + j = z.1 + (y.1 - z.1 + j) by omega] at hpj
  have := h.resolve_inj (by omega) (by omega) hpi hpj
  omega

/-! Work on ranges. -/

/-- From `s` to `t` there was nothing but writes to the ranges `l`, as `w` names them, and counts: all within reach stays there. -/
structure Works (w : Who) (l : List (Nat × Nat)) (s t : State) : Prop where
  resolve : ∀ v a, t.resolve v a = s.resolve v a
  isUe : ∀ p, s.isUe p = false → t.isUe p = false
  ring : ∀ j, (t.queue j).ev = (s.queue j).ev ∧ (t.queue j).logEv = (s.queue j).logEv
  bytes : ∀ p, ¬ inRing (s.queue 0) p → (∀ x ∈ l, ¬ Named s w x p) → t.byte p = s.byte p

section

variable {w : Who} {l m : List (Nat × Nat)} {s t u : State}

theorem Works.refl (w : Who) (l : List (Nat × Nat)) (s : State) : Works w l s s :=
  ⟨fun _ _ => rfl, fun _ h => h, fun _ => ⟨rfl, rfl⟩, fun _ _ _ => rfl⟩

/-- A change of what memory does not rest on. -/
theorem Works.of_same (h : ∀ v a, t.resolve v a = s.resolve v a) (hu : ∀ p, t.isUe p = s.isUe p) (hq : t.queues = s.queues)
    (hm : t.mem = s.mem) (l : List (Nat × Nat)) : Works w l s t where
  resolve := h
  isUe p hp := (hu p).trans hp
  ring := (StaysInRing.of_same hq hm 0).ring
  bytes p hp _ := (StaysInRing.of_same hq hm 0).bytes p hp

theorem Works.named (h : Works w l s t) {x : Nat × Nat} {p : Nat} : Named t w x p ↔ Named s w x p := by
  unfold Named
  simp only [h.resolve]

theorem Works.open (h : Works w l s t) {a n : Nat} (ho : Open s w a n) : Open t w a n := fun i hi =>
  let ⟨p, hp, hu⟩ := ho i hi
  ⟨p, by rw [h.resolve, hp], h.isUe p hu⟩

theorem Works.apart (h : Works w l s t) {x y : Nat × Nat} (ha : Apart s w x y) : Apart t w x y := fun i hi j hj p hpi hpj => by
  rw [h.resolve] at hpi hpj
  exact ha i hi j hj p hpi hpj

theorem Works.off (h : Works w l s t) {x : Nat × Nat} (ho : OffRing s w (s.queue 0) x) : OffRing t w (t.queue 0) x :=
  fun i hi p hp hin => ho i hi p (by rw [← hp, h.resolve]) ((inRing_congr (h.ring 0) p).mp hin)

/-- Work on parts of ranges is work on these. -/
theorem Works.mono (h : Works w l s t) (hl : ∀ x ∈ l, ∃ y ∈ m, Inside x y) : Works w m s t where
  resolve := h.resolve
  isUe := h.isUe
  ring := h.ring
  bytes p hp hm := h.bytes p hp fun x hx hn =>
    let ⟨y, hy, hxy⟩ := hl x hx
    hm y hy (hn.inside hxy)

theorem Works.trans (h : Works w l s t) (k : Works w l t u) : Works w l s u where
  resolve v a := (k.resolve v a).trans (h.resolve v a)
  isUe p hp := k.isUe p (h.isUe p hp)
  ring j := ⟨(k.ring j).1.trans (h.ring j).1, (k.ring j).2.trans (h.ring j).2⟩
  bytes p hp hl := (k.bytes p (fun hin => hp ((inRing_congr (h.ring 0) p).mp hin)) fun x hx hn => hl x hx (h.named.mp hn)).trans
    (h.bytes p hp hl)

theorem Counts.works (h : Counts s t) (w : Who) (l : List (Nat × Nat)) : Works w l s t where
  resolve := h.keeps.resolve
  isUe _ hp := h.keeps.isUe hp
  ring := h.stays.ring
  bytes p hp _ := h.stays.bytes p hp

/-- What lies off the ring and apart from the work reads as before. -/
theorem Works.read (h : Works w l s t) {a n : Nat} (ho : Open s w a n) (hr : OffRing s w (s.queue 0) (a, n))
    (ha : ∀ x ∈ l, Apart s w (a, n) x) : t.read w a n = s.read w a n :=
  ho.read_congr (h.resolve w) h.isUe fun i hi p hp => h.bytes p (hr i hi p hp) fun x hx => apart_iff.mp (ha x hx) p ⟨i, hi, hp⟩

/-- A write within reach works on the range that it names, and is read back. -/
theorem Open.exists_works {a : Nat} {bs : List Byte} (h : Open s w a bs.length) :
    ∃ t, s.write w a bs = .ok t ∧ Works w [(a, bs.length)] s t ∧ t.read w a bs.length = .ok bs := by
  obtain ⟨t, ht, hkeep, hch, hin, hout⟩ := h.write_spec
  refine ⟨t, ht, ⟨hkeep.resolve, fun _ hp => hkeep.isUe hp, fun j => ?_, fun p _ hl => hout p (hl _ List.mem_cons_self)⟩,
    (h.keep hkeep).read_iff.mpr ⟨rfl, fun i p hp hi => hin i p ?_ hi⟩⟩
  · unfold State.queue
    rw [hch.queues rfl]
    exact ⟨rfl, rfl⟩
  · rw [← hkeep.resolve, hp]

end

/-! The parts of a cache. -/

/-- The parts of a paged cache (Tables 10.1 to 10.4): the table, the pool's record, its pages' words, its ring, its pages, and the list of
one sequence. -/
inductive CachePart where
  | table
  | pool
  | words
  | ring
  | pages
  | list

/-- What the record of a pool says: how many pages, and where they, their words and the ring are (Table 10.3). -/
structure PoolMap where
  np : Nat
  data : Nat
  mta : Nat
  ring : Nat

/-- Where a part lies. -/
def CachePart.range (q : Seqt) (r : SeqRec) (d : PoolMap) : CachePart → Nat × Nat
  | .table => (q.base, 64 + 64 * q.nseqt)
  | .pool => (q.pool, 64)
  | .words => (d.mta, 8 * d.np)
  | .ring => (d.ring, 4 * d.np)
  | .pages => (d.data, 65536 * d.np)
  | .list => (r.base, 8 * (q.nlh * r.cap))

/-- A cache in order, with the list of sequence `r`, part by part. -/
structure Cache (s : State) (w : Who) (q : Seqt) (r : SeqRec) (d : PoolMap) : Prop where
  pool : PoolOk s w q d.np d.data d.mta d.ring
  reach : ∀ x : CachePart, Open s w (x.range q r d).1 (x.range q r d).2
  apart : ∀ x y : CachePart, x ≠ y → Apart s w (x.range q r d) (y.range q r d)
  off : ∀ x : CachePart, OffRing s w (s.queue 0) (x.range q r d)

theorem Apart.symm {s : State} {w : Who} {x y : Nat × Nat} (h : Apart s w x y) : Apart s w y x :=
  apart_iff.mpr fun p hy hx => apart_iff.mp h p hx hy

/-- The cache of a paged table is in order part by part. -/
theorem CacheOk.exists_cache {s : State} {w : Who} {x : Queue} {q : Seqt} {r : SeqRec} (h : CacheOk s w x q [r] []) (hm : q.mode = 1) :
    ∃ d, Cache s w q r d := by
  obtain ⟨np, data, mta, ring, hpool, hlaid⟩ := h.paged hm
  have hlist : seqPart q r = (r.base, 8 * (q.nlh * r.cap)) := by simp [seqPart, hm]
  have hl : ((q.base, 64 + 64 * q.nseqt) :: poolParts q np data mta ring ++ [r].map (seqPart q) ++ [])
      = [CachePart.table, .pool, .words, .ring, .pages, .list].map (CachePart.range q r ⟨np, data, mta, ring⟩) := by
    simp [poolParts, hlist, CachePart.range]
  rw [hl] at hlaid
  have hmem : ∀ x : CachePart, x.range q r ⟨np, data, mta, ring⟩ ∈
      [CachePart.table, .pool, .words, .ring, .pages, .list].map (CachePart.range q r ⟨np, data, mta, ring⟩) := fun x =>
    List.mem_map_of_mem (by cases x <;> simp)
  refine ⟨⟨np, data, mta, ring⟩, hpool, fun x => hlaid.reach _ (hmem x), fun x y hxy => ?_, fun x => (hlaid.off _ (hmem x)).1⟩
  have hsymm : Std.Symm fun x y : CachePart => Apart s w (x.range q r ⟨np, data, mta, ring⟩) (y.range q r ⟨np, data, mta, ring⟩) :=
    ⟨fun _ _ => Apart.symm⟩
  exact (List.pairwise_map.mp hlaid.apart).forall (by cases x <;> simp) (by cases y <;> simp) hxy

end Sys2Proof.Cert
end

section
/-! SUPPORT. What the page service does with a pool in order (R239, R240, R249, R251): every step is performed and leaves the cache in order. -/

namespace Sys2Proof.Cert

open Sys2Proof.Machine

theorem OffRing.inside {s : State} {w : Who} {x : Queue} {a b : Nat × Nat} (h : OffRing s w x b) (hi : Inside a b) : OffRing s w x a :=
  fun i hia p hp => by
    obtain ⟨j, hj, hpj⟩ : Named s w b p := Named.inside ⟨i, hia, hp⟩ hi
    exact h j hj p hpj

theorem Apart.inside {s : State} {w : Who} {a b x y : Nat × Nat} (h : Apart s w x y) (ha : Inside a x) (hb : Inside b y) : Apart s w a b :=
  apart_iff.mpr fun p hpa hpb => apart_iff.mp h p (hpa.inside ha) (hpb.inside hb)

/-- What the page service writes of a pool: the counts of its record, the words, the ring and the pages. -/
def poolWork (q : Seqt) (r : SeqRec) (d : PoolMap) : List (Nat × Nat) :=
  [(q.pool + 22, 42), CachePart.words.range q r d, CachePart.ring.range q r d, CachePart.pages.range q r d]

theorem Works.poolWork {s t : State} {w : Who} {q : Seqt} {r : SeqRec} {d : PoolMap} {x : Nat × Nat} (k : Works w [x] s t)
    (hx : x ∈ poolWork q r d) : Works w (poolWork q r d) s t :=
  k.mono fun z hz => ⟨x, hx, by rw [List.mem_singleton.mp hz]; exact ⟨le_refl _, le_refl _⟩⟩

theorem readVal_of_read {s t : State} {w : Who} {a n : Nat} (h : t.read w a n = s.read w a n) : t.readVal w a n = s.readVal w a n := by
  unfold State.readVal
  rw [h]

/-- The index of a list entry is below the list's length. -/
theorem ent_index_lt {nlh cap lh i : Nat} (hl : lh < nlh) (hi : i < cap) : lh * cap + i < nlh * cap :=
  calc lh * cap + i < (lh + 1) * cap := by rw [Nat.succ_mul]; omega
    _ ≤ nlh * cap := Nat.mul_le_mul_right _ hl

theorem ent_index_inj {cap lh i lh' i' : Nat} (hi : i < cap) (hi' : i' < cap) (h : lh * cap + i = lh' * cap + i') : (lh, i) = (lh', i') := by
  have hmod : i = i' := by
    have := congrArg (· % cap) h
    simpa [Nat.mul_add_mod', Nat.mod_eq_of_lt hi, Nat.mod_eq_of_lt hi'] using this
  subst hmod
  have : lh * cap = lh' * cap := by omega
  rw [Nat.eq_of_mul_eq_mul_right (by omega) this]

section

variable {s t : State} {w : Who} {q : Seqt} {r : SeqRec} {d : PoolMap} {l : List (Nat × Nat)}

/-- What lies in one part reads as before after work on the others, or on other bytes of it. -/
theorem Cache.read_eq (h : Cache s w q r d) (k : Works w l s t) (x : CachePart) {a n : Nat} (ha : Inside (a, n) (x.range q r d))
    (hl : ∀ z ∈ l, (∃ y, y ≠ x ∧ Inside z (y.range q r d)) ∨ (Inside z (x.range q r d) ∧ (a + n ≤ z.1 ∨ z.1 + z.2 ≤ a))) :
    t.read w a n = s.read w a n := by
  refine k.read ((h.reach x).inside ha) ((h.off x).inside ha) fun z hz => ?_
  rcases hl z hz with ⟨y, hy, hzy⟩ | ⟨hzx, hn⟩
  · exact (h.apart x y hy.symm).inside ha hzy
  · exact (h.reach x).apart ha hzx hn

theorem Cache.of_works (h : Cache s w q r d) (k : Works w l s t) (hp : PoolOk t w q d.np d.data d.mta d.ring) : Cache t w q r d :=
  ⟨hp, fun x => k.open (h.reach x), fun x y hxy => k.apart (h.apart x y hxy), fun x => k.off (h.off x)⟩

theorem inside_counts : Inside (q.pool + 22, 42) (CachePart.pool.range q r d) := by
  simp only [Inside, CachePart.range]
  omega

/-- Work beside the map of the pool and its ring leaves the cache in order. -/
theorem Cache.after (h : Cache s w q r d) (k : Works w l s t)
    (hl : ∀ z ∈ l, Inside z (q.pool + 22, 42) ∨ ∃ y : CachePart, y ≠ .pool ∧ y ≠ .ring ∧ Inside z (y.range q r d)) :
    Cache t w q r d := by
  have hpool : ∀ off n, off + n ≤ 22 → t.pool w q off n = s.pool w q off n := fun off n hn => by
    refine readVal_of_read (h.read_eq k .pool (by simp only [Inside, CachePart.range]; omega) fun z hz => ?_)
    rcases hl z hz with hc | ⟨y, hy, -, hzy⟩
    · obtain ⟨h1, h2⟩ := hc
      refine .inr ?_
      simp only [Inside, CachePart.range]
      omega
    · exact .inl ⟨y, hy, hzy⟩
  obtain ⟨hdata, hwords, hring, hpages, hsome, hfew, hnamed⟩ := h.pool
  refine h.of_works k ⟨(hpool _ _ (by decide)).trans hdata, (hpool _ _ (by decide)).trans hwords, (hpool _ _ (by decide)).trans hring,
    (hpool _ _ (by decide)).trans hpages, hsome, hfew, fun i hi => ?_⟩
  obtain ⟨n, hn, hr⟩ := hnamed i hi
  refine ⟨n, hn, (readVal_of_read (h.read_eq k .ring (by simp only [Inside, CachePart.range]; omega) fun z hz => .inl ?_)).trans hr⟩
  rcases hl z hz with hc | ⟨y, -, hy, hzy⟩
  · obtain ⟨h1, h2⟩ := hc
    refine ⟨.pool, nofun, ?_⟩
    simp only [Inside, CachePart.range]
    omega
  · exact ⟨y, hy, hzy⟩

theorem Cache.exists_readVal (h : Cache s w q r d) (x : CachePart) {a n : Nat} (ha : Inside (a, n) (x.range q r d)) :
    ∃ v, s.readVal w a n = .ok v := by
  obtain ⟨b, hb⟩ := exists_read_of_open ((h.reach x).inside ha)
  exact ⟨leVal b, by simp [State.readVal, hb, Except.map]⟩

theorem Cache.exists_pool (h : Cache s w q r d) {off n : Nat} (hn : off + n ≤ 64) : ∃ v, s.pool w q off n = .ok v :=
  h.exists_readVal .pool (by simp only [Inside, CachePart.range]; omega)

/-- A field within a part is written, and read back. -/
theorem Cache.exists_putVal (h : Cache s w q r d) (x : CachePart) {a n : Nat} (v : Nat) (ha : Inside (a, n) (x.range q r d)) :
    ∃ t, s.putVal w a n v = .ok t ∧ Works w [(a, n)] s t ∧ t.readVal w a n = .ok (leVal (leBytes n v)) := by
  have ho : Open s w a (leBytes n v).length := by
    rw [length_leBytes]
    exact (h.reach x).inside ha
  obtain ⟨t, ht, hworks, hread⟩ := ho.exists_works
  rw [length_leBytes] at hworks hread
  exact ⟨t, ht, hworks, by simp [State.readVal, hread, Except.map]⟩

/-- A count of the pool's record is written. -/
theorem Cache.exists_putCount (h : Cache s w q r d) {off n : Nat} (v : Nat) (h22 : 22 ≤ off) (h64 : off + n ≤ 64) :
    ∃ t, s.putVal w (q.pool + off) n v = .ok t ∧ Works w [(q.pool + 22, 42)] s t ∧ Cache t w q r d := by
  obtain ⟨t, ht, hworks, -⟩ := h.exists_putVal .pool v (a := q.pool + off) (n := n) (by simp only [Inside, CachePart.range]; omega)
  have hin : Inside (q.pool + off, n) (q.pool + 22, 42) := by
    simp only [Inside]
    omega
  refine ⟨t, ht, hworks.mono fun z hz => ⟨_, List.mem_singleton_self _, List.mem_singleton.mp hz ▸ hin⟩, h.after hworks fun z hz => .inl ?_⟩
  rw [List.mem_singleton.mp hz]
  exact hin

theorem Cache.exists_poolBump (h : Cache s w q r d) {off : Nat} (h22 : 22 ≤ off) (h64 : off + 4 ≤ 64) :
    ∃ t, s.poolBump w q off = .ok t ∧ Works w [(q.pool + 22, 42)] s t ∧ Cache t w q r d := by
  obtain ⟨v, hv⟩ := h.exists_pool (off := off) (n := 4) h64
  obtain ⟨t, ht, hrest⟩ := h.exists_putCount (min 0xFFFFFFFF (v + 1)) h22 h64
  refine ⟨t, ?_, hrest⟩
  unfold State.poolBump
  rw [hv]
  exact ht

/-- An entry of the list is written. -/
theorem inside_ent {lh i : Nat} (hl : lh < q.nlh) (hi : i < r.cap) : Inside (r.ent lh i, 8) (CachePart.list.range q r d) := by
  have := ent_index_lt hl hi
  simp only [Inside, CachePart.range, SeqRec.ent]
  omega

theorem Cache.exists_putEnt (h : Cache s w q r d) {lh i : Nat} (hl : lh < q.nlh) (hi : i < r.cap) (v : Nat) :
    ∃ t, s.putVal w (r.ent lh i) 8 v = .ok t ∧ Works w [(r.ent lh i, 8)] s t ∧ Cache t w q r d
      ∧ t.readVal w (r.ent lh i) 8 = .ok (leVal (leBytes 8 v)) := by
  obtain ⟨t, ht, hworks, hread⟩ := h.exists_putVal .list v (inside_ent hl hi)
  refine ⟨t, ht, hworks, h.after hworks fun z hz => .inr ⟨.list, nofun, nofun, ?_⟩, hread⟩
  rw [List.mem_singleton.mp hz]
  exact inside_ent hl hi

/-! Pages. -/

theorem inside_word {n : Nat} (hn : n < d.np) : Inside (d.mta + 8 * n, 8) (CachePart.words.range q r d) := by
  simp only [Inside, CachePart.range]
  omega

theorem Cache.pageMeta_eq (h : Cache s w q r d) (n : Nat) : s.pageMeta w q n = (s.readVal w (d.mta + 8 * n) 8).map PageWord.ofNat := by
  unfold State.pageMeta
  rw [h.pool.wordsAt]
  rfl

theorem Cache.exists_pageMeta (h : Cache s w q r d) {n : Nat} (hn : n < d.np) : ∃ m, s.pageMeta w q n = .ok m := by
  obtain ⟨v, hv⟩ := h.exists_readVal .words (inside_word hn)
  exact ⟨_, by rw [h.pageMeta_eq, hv]; rfl⟩

theorem Cache.pageData_eq (h : Cache s w q r d) (n : Nat) : s.pageData w q n = .ok (d.data + 65536 * n) := by
  unfold State.pageData
  rw [h.pool.dataAt]
  rfl

theorem Cache.exists_putMeta (h : Cache s w q r d) {n : Nat} (hn : n < d.np) (m : PageWord) :
    ∃ t, s.putMeta w q n m = .ok t ∧ Works w [CachePart.words.range q r d] s t ∧ Cache t w q r d := by
  obtain ⟨t, ht, hworks, -⟩ := h.exists_putVal .words m.toNat (inside_word hn)
  have hall : Works w [CachePart.words.range q r d] s (t.countAtomic w (d.mta + 8 * n)) :=
    (hworks.mono fun z hz => ⟨_, List.mem_singleton_self _, List.mem_singleton.mp hz ▸ inside_word hn⟩).trans
      ((State.countAtomic_counts ..).works ..)
  refine ⟨_, ?_, hall, h.after hall fun z hz => .inr ⟨.words, nofun, nofun, ?_⟩⟩
  · unfold State.putMeta
    rw [h.pool.wordsAt, ok_bind, ht]
    rfl
  · rw [List.mem_singleton.mp hz]
    exact ⟨le_refl _, le_refl _⟩

theorem inside_page {n : Nat} (hn : n < d.np) : Inside (d.data + 65536 * n, 65536) (CachePart.pages.range q r d) := by
  simp only [Inside, CachePart.range]
  omega

theorem Cache.exists_putPage (h : Cache s w q r d) {n : Nat} (hn : n < d.np) {bs : List Byte} (hb : bs.length = 65536) :
    ∃ t, s.write w (d.data + 65536 * n) bs = .ok t ∧ Works w [CachePart.pages.range q r d] s t ∧ Cache t w q r d := by
  have ho : Open s w (d.data + 65536 * n) bs.length := by
    rw [hb]
    exact (h.reach .pages).inside (inside_page hn)
  obtain ⟨t, ht, hworks, -⟩ := ho.exists_works
  rw [hb] at hworks
  have hall : Works w [CachePart.pages.range q r d] s t :=
    hworks.mono fun z hz => ⟨_, List.mem_singleton_self _, List.mem_singleton.mp hz ▸ inside_page hn⟩
  refine ⟨t, ht, hall, h.after hall fun z hz => .inr ⟨.pages, nofun, nofun, ?_⟩⟩
  rw [List.mem_singleton.mp hz]
  exact ⟨le_refl _, le_refl _⟩

/-- A page put into a place of the ring leaves every place with a page of the pool. -/
theorem Cache.exists_putRing (h : Cache s w q r d) {j n : Nat} (hj : j < d.np) (hn : n < d.np) :
    ∃ t, s.putVal w (d.ring + 4 * j) 4 n = .ok t ∧ Works w [CachePart.ring.range q r d] s t ∧ Cache t w q r d := by
  have hin : ∀ {i : Nat}, i < d.np → Inside (d.ring + 4 * i, 4) (CachePart.ring.range q r d) := fun hi => by
    simp only [Inside, CachePart.range]
    omega
  obtain ⟨t, ht, hworks, hread⟩ := h.exists_putVal .ring n (hin hj)
  have hpool : ∀ off n, off + n ≤ 64 → t.pool w q off n = s.pool w q off n := fun off n hle =>
    readVal_of_read (h.read_eq hworks .pool (by simp only [Inside, CachePart.range]; omega) fun z hz =>
      .inl ⟨.ring, nofun, List.mem_singleton.mp hz ▸ hin hj⟩)
  obtain ⟨hdata, hwords, hring, hpages, hsome, hfew, hnamed⟩ := h.pool
  refine ⟨t, ht, hworks.mono fun z hz => ⟨_, List.mem_singleton_self _, List.mem_singleton.mp hz ▸ hin hj⟩, h.of_works hworks
    ⟨(hpool _ _ (by decide)).trans hdata, (hpool _ _ (by decide)).trans hwords, (hpool _ _ (by decide)).trans hring,
      (hpool _ _ (by decide)).trans hpages, hsome, hfew, fun i hi => ?_⟩⟩
  by_cases hij : i = j
  · subst hij
    have hlt : n < 256 ^ 4 := by
      have : pageNone < 256 ^ 4 := by decide
      omega
    exact ⟨n, hn, by rw [hread, leVal_leBytes_of_lt hlt]⟩
  · obtain ⟨m, hm, hr⟩ := hnamed i hi
    refine ⟨m, hm, (readVal_of_read (h.read_eq hworks .ring (hin hi) fun z hz => .inr ?_)).trans hr⟩
    rw [List.mem_singleton.mp hz]
    exact ⟨hin hj, by dsimp only; omega⟩

theorem counts_mem_poolWork : (q.pool + 22, 42) ∈ poolWork q r d := List.mem_cons_self
theorem words_mem_poolWork : CachePart.words.range q r d ∈ poolWork q r d := by simp [poolWork]
theorem ring_mem_poolWork : CachePart.ring.range q r d ∈ poolWork q r d := by simp [poolWork]
theorem pages_mem_poolWork : CachePart.pages.range q r d ∈ poolWork q r d := by simp [poolWork]

/-- A page of the pool is taken, or there is none (R239). -/
theorem Cache.exists_allocPage (h : Cache s w q r d) (fill : Nat) :
    s.allocPage w q fill = .ok none ∨ ∃ n t, s.allocPage w q fill = .ok (some (n, t)) ∧ n < d.np ∧ Works w (poolWork q r d) s t
      ∧ Cache t w q r d := by
  obtain ⟨free, hfree⟩ := h.exists_pool (off := 26) (n := 4) (by decide)
  by_cases hz : free = 0
  · left
    unfold State.allocPage
    rw [hfree, ok_bind, if_pos hz]
    rfl
  · right
    have hnp := h.pool.some
    obtain ⟨head, hhead⟩ := h.exists_pool (off := 22) (n := 4) (by decide)
    obtain ⟨n, hn, hplace⟩ := h.pool.named (head % max 1 d.np) (by rw [max_eq_right hnp]; exact Nat.mod_lt _ hnp)
    obtain ⟨m, hm⟩ := h.exists_pageMeta hn
    obtain ⟨s1, h1, k1, c1⟩ := h.exists_putCount (off := 22) (n := 4) ((head + 1) % max 1 d.np) (by decide) (by decide)
    obtain ⟨s2, h2, k2, c2⟩ := c1.exists_putCount (off := 26) (n := 4) (free - 1) (by decide) (by decide)
    obtain ⟨s3, h3, k3, c3⟩ := c2.exists_poolBump (off := 40) (by decide) (by decide)
    obtain ⟨s4, h4, k4, c4⟩ := c3.exists_putMeta hn { m with st := 1, fill := fill, pin := 0, ref := 1 }
    refine ⟨n, s4, ?_, hn, ?_, c4⟩
    · unfold State.allocPage
      simp only [hfree, ok_bind, if_neg hz, h.pool.pages, hhead, h.pool.ringAt, hplace, hm, h1, h2, h3, h4]
      rfl
    · exact (((k1.poolWork counts_mem_poolWork).trans (k2.poolWork counts_mem_poolWork)).trans (k3.poolWork counts_mem_poolWork)).trans
        (k4.poolWork words_mem_poolWork)

/-- A reference is dropped; a page left without one returns to the ring (R249). -/
theorem Cache.exists_dropRef (h : Cache s w q r d) {n : Nat} (hn : n < d.np) :
    ∃ t, s.dropRef w q n = .ok t ∧ Works w (poolWork q r d) s t ∧ Cache t w q r d := by
  obtain ⟨m, hm⟩ := h.exists_pageMeta hn
  unfold State.dropRef
  rw [hm, ok_bind]
  unfold State.pageReturn
  split
  · have hnp := h.pool.some
    obtain ⟨free, hfree⟩ := h.exists_pool (off := 26) (n := 4) (by decide)
    obtain ⟨head, hhead⟩ := h.exists_pool (off := 22) (n := 4) (by decide)
    obtain ⟨ret, hret⟩ := h.exists_pool (off := 32) (n := 8) (by decide)
    obtain ⟨s1, h1, k1, c1⟩ := h.exists_putMeta hn { st := 0, fill := 0, gen := (m.gen + 1) % 2 ^ 24, pin := 0, ref := 0 }
    obtain ⟨s2, h2, k2, c2⟩ := c1.exists_putRing (j := (head + free) % max 1 d.np)
      (by rw [max_eq_right hnp]; exact Nat.mod_lt _ hnp) hn
    obtain ⟨s3, h3, k3, c3⟩ := c2.exists_putCount (off := 26) (n := 4) (free + 1) (by decide) (by decide)
    obtain ⟨s4, h4, k4, c4⟩ := c3.exists_putCount (off := 32) (n := 8) ((ret + 1) % 2 ^ 64) (by decide) (by decide)
    refine ⟨s4, ?_, ?_, c4⟩
    · simp only [hfree, ok_bind, h.pool.pages, hhead, h.pool.ringAt, hret, h1, h2, h3, h4]
    · exact (((k1.poolWork words_mem_poolWork).trans (k2.poolWork ring_mem_poolWork)).trans (k3.poolWork counts_mem_poolWork)).trans
        (k4.poolWork counts_mem_poolWork)
  · obtain ⟨t, ht, k, c⟩ := h.exists_putMeta hn { m with ref := m.ref - 1 }
    exact ⟨t, ht, k.poolWork words_mem_poolWork, c⟩

/-! Entries. -/

/-- An entry names none where it holds no page's number. -/
theorem entAt_eq_none_iff (s : State) (w : Who) (q : Seqt) (r : SeqRec) (lh i : Nat) :
    s.entAt w q r lh i = .ok .none ↔ ∃ v, s.readVal w (r.ent lh i) 8 = .ok v ∧ entPage v = pageNone := by
  unfold State.entAt
  cases hv : s.readVal w (r.ent lh i) 8 with
  | error f => simp [show ((Except.error f : Except Fail Nat) >>= fun v => s.entState w q v) = .error f from rfl]
  | ok v =>
    rw [ok_bind]
    simp only [Except.ok.injEq, exists_eq_left']
    unfold State.entState
    split
    · next hp => simp [hp, pure, Except.pure]
    · next hp =>
      simp only [hp, iff_false]
      cases s.pool w q 18 4 with
      | error f => exact fun h => nomatch h
      | ok np =>
        rw [ok_bind]
        split
        · exact fun h => nomatch h
        · cases s.pageMeta w q (entPage v) with
          | error f => exact fun h => nomatch h
          | ok m =>
            rw [ok_bind]
            split <;> exact fun h => nomatch h

/-- An entry is read, and the page that it names is one of the pool. -/
theorem Cache.exists_entAt (h : Cache s w q r d) {lh i : Nat} (hl : lh < q.nlh) (hi : i < r.cap) :
    ∃ e, s.entAt w q r lh i = .ok e ∧ ∀ n m, e = .page n m → n < d.np := by
  obtain ⟨v, hv⟩ := h.exists_readVal .list (inside_ent hl hi)
  unfold State.entAt
  rw [hv, ok_bind]
  unfold State.entState
  split
  · exact ⟨_, rfl, fun _ _ he => nomatch he⟩
  · rw [h.pool.pages, ok_bind]
    split
    · exact ⟨_, rfl, fun _ _ he => nomatch he⟩
    · next hlt =>
      obtain ⟨m, hm⟩ := h.exists_pageMeta (Nat.lt_of_not_le hlt)
      rw [hm, ok_bind]
      refine ⟨_, rfl, fun n m' he => ?_⟩
      split at he
      · cases he
        exact Nat.lt_of_not_le hlt
      · cases he

end

end Sys2Proof.Cert
end

section
/-! SUPPORT. The billets of the page pool (R251, R292, R294): compaction of one slot's entries, and the refresh of its list. -/

namespace Sys2Proof.Cert

open Sys2Proof.Machine

theorem mem_entPairs {nlh hi : Nat} {p : Nat × Nat} : p ∈ entPairs nlh 0 hi ↔ p.1 < nlh ∧ p.2 < hi := by
  obtain ⟨lh, i⟩ := p
  simp [entPairs]

theorem length_entPairs (nlh hi : Nat) : (entPairs nlh 0 hi).length = nlh * hi := by
  simp [entPairs, List.length_flatMap]

section

variable {s t u : State} {w : Who} {q : Seqt} {r : SeqRec} {d : PoolMap} {l : List (Nat × Nat)} {lh i a : Nat}

/-- An entry reads as before after work on other parts and on other entries. -/
theorem Cache.readEnt_eq (h : Cache s w q r d) (k : Works w l s t) (hl : lh < q.nlh) (hi : i < r.cap)
    (hz : ∀ z ∈ l, (∃ y : CachePart, y ≠ .list ∧ Inside z (y.range q r d))
      ∨ ∃ p : Nat × Nat, p.1 < q.nlh ∧ p.2 < r.cap ∧ p ≠ (lh, i) ∧ z = (r.ent p.1 p.2, 8)) :
    t.readVal w (r.ent lh i) 8 = s.readVal w (r.ent lh i) 8 := by
  refine readVal_of_read (h.read_eq k .list (inside_ent hl hi) fun z hzl => ?_)
  rcases hz z hzl with hy | ⟨p, hp1, hp2, hne, rfl⟩
  · exact .inl hy
  · have hidx : p.1 * r.cap + p.2 ≠ lh * r.cap + i := fun he => hne (ent_index_inj hp2 hi he)
    refine .inr ⟨inside_ent hp1 hp2, ?_⟩
    simp only [SeqRec.ent]
    omega

/-- What an entry's value names rests on the words of the pages alone. -/
theorem Cache.entState_eq (h : Cache s w q r d) (h' : Cache t w q r d)
    (hw : ∀ n < d.np, t.readVal w (d.mta + 8 * n) 8 = s.readVal w (d.mta + 8 * n) 8) (v : Nat) :
    t.entState w q v = s.entState w q v := by
  unfold State.entState
  simp only [h.pool.pages, h'.pool.pages, ok_bind]
  split
  · rfl
  · split
    · rfl
    · next hlt => rw [h.pageMeta_eq, h'.pageMeta_eq, hw _ (Nat.lt_of_not_le hlt)]

/-- The record of a slot of the table lies in it. -/
theorem inside_recAt (ha : a < q.nseqt) {off n : Nat} (hn : off + n ≤ 64) :
    Inside (q.recAt a + off, n) (CachePart.table.range q r d) := by
  simp only [Inside, CachePart.range, Seqt.recAt]
  omega

/-- Work beside the table leaves its records. -/
theorem Cache.seqRec_eq (h : Cache s w q r d) (k : Works w l s t) (ha : a < q.nseqt)
    (hl : ∀ z ∈ l, ∃ y : CachePart, y ≠ .table ∧ Inside z (y.range q r d)) : t.seqRec w q a = s.seqRec w q a := by
  unfold State.seqRec
  rw [h.read_eq k .table (a := q.recAt a) (inside_recAt ha (off := 0) (le_refl 64)) fun z hz => .inl (hl z hz)]

theorem exists_part_of_mem_poolWork {z : Nat × Nat} (hz : z ∈ poolWork q r d) :
    ∃ y : CachePart, y ≠ .list ∧ y ≠ .table ∧ Inside z (y.range q r d) := by
  simp only [poolWork, List.mem_cons, List.not_mem_nil, or_false] at hz
  rcases hz with rfl | rfl | rfl | rfl
  · exact ⟨.pool, nofun, nofun, inside_counts⟩
  · exact ⟨.words, nofun, nofun, le_refl _, le_refl _⟩
  · exact ⟨.ring, nofun, nofun, le_refl _, le_refl _⟩
  · exact ⟨.pages, nofun, nofun, le_refl _, le_refl _⟩

end

/-! Compaction (R292). -/

/-- What one entry's compaction may write: the pool and the entry. -/
def moveWork (q : Seqt) (r : SeqRec) (d : PoolMap) (lh i : Nat) : List (Nat × Nat) := (r.ent lh i, 8) :: poolWork q r d

/-- What the compaction of one entry leaves: at most one page moved, and nothing done where the entry names none. -/
structure Moves (w : Who) (q : Seqt) (r : SeqRec) (d : PoolMap) (lh i : Nat) (s u : State) (n : Nat) : Prop where
  le_one : n ≤ 1
  works : Works w (moveWork q r d lh i) s u
  cache : Cache u w q r d
  eq_of_none : s.entAt w q r lh i = .ok .none → u = s

theorem Cache.moves_refl {s : State} {w : Who} {q : Seqt} {r : SeqRec} {d : PoolMap} (h : Cache s w q r d) (lh i : Nat) :
    Moves w q r d lh i s s 0 :=
  ⟨Nat.zero_le 1, .refl .., h, fun _ => rfl⟩

theorem Works.to_moveWork {s t : State} {w : Who} {q : Seqt} {r : SeqRec} {d : PoolMap} (k : Works w (Cert.poolWork q r d) s t) (lh i : Nat) :
    Works w (moveWork q r d lh i) s t :=
  k.mono fun z hz => ⟨z, List.mem_cons_of_mem _ hz, le_refl _, le_refl _⟩

/-- The page of an entry moves or stays. -/
theorem Cache.exists_movePage {s : State} {c : Ctx} {q : Seqt} {r : SeqRec} {d : PoolMap} {lh i : Nat} (h : Cache s (.service c) q r d)
    (hl : lh < q.nlh) (hi : i < r.cap) : ∃ u n, s.movePage c q r lh i = .ok (u, n) ∧ Moves (.service c) q r d lh i s u n := by
  have hstay := h.moves_refl lh i
  obtain ⟨e, he, hpage⟩ := h.exists_entAt hl hi
  unfold State.movePage
  simp only [he, ok_bind]
  cases e with
  | none => exact ⟨s, 0, rfl, hstay⟩
  | stale => exact ⟨s, 0, rfl, hstay⟩
  | page p m =>
    have hp := hpage p m rfl
    by_cases hm : m.ref = 1 ∧ m.pin = 0
    · simp only [if_pos hm]
      rcases h.exists_allocPage m.fill with hnone | ⟨n, s1, h1, hn, k1, c1⟩
      · exact ⟨s, 0, by rw [hnone]; rfl, hstay⟩
      · obtain ⟨bs, hbs⟩ := exists_read_of_open ((c1.reach .pages).inside (inside_page hp))
        obtain ⟨s2, h2, k2, c2⟩ := c1.exists_putPage hn (length_of_read hbs)
        obtain ⟨m', hm'⟩ := c2.exists_pageMeta hn
        obtain ⟨s3, h3, k3, c3⟩ := c2.exists_putMeta hn { m' with st := m.st }
        obtain ⟨s4, h4, k4, c4, -⟩ := c3.exists_putEnt hl hi (entOf n m'.gen)
        obtain ⟨s5, h5, k5, c5⟩ := c4.exists_dropRef hp
        have hpool := (k1.trans (k2.poolWork pages_mem_poolWork)).trans (k3.poolWork words_mem_poolWork)
        have hent : Works (.service c) (moveWork q r d lh i) s3 s4 := k4.mono fun z hz =>
          ⟨z, List.mem_singleton.mp hz ▸ List.mem_cons_self, le_refl _, le_refl _⟩
        refine ⟨s5, 1, ?_, le_refl 1, ((hpool.to_moveWork lh i).trans hent).trans (k5.to_moveWork lh i), c5, fun hnone => ?_⟩
        · simp only [h1, ok_bind, c1.pageData_eq, hbs, h2, hm', h3, h4, h5]
          rfl
        · rw [he] at hnone
          cases hnone
    · exact ⟨s, 0, if_neg hm, hstay⟩

/-- Compaction keeps the cache in order, the record of slot `a`, and every entry that names none. -/
structure Compacts (w : Who) (q : Seqt) (r : SeqRec) (d : PoolMap) (a : Nat) (s t : State) : Prop where
  cache : Cache t w q r d
  record : t.seqRec w q a = s.seqRec w q a
  nones : ∀ lh < q.nlh, ∀ i < r.cap, s.entAt w q r lh i = .ok .none → t.entAt w q r lh i = .ok .none

section

variable {s t u : State} {w : Who} {q : Seqt} {r : SeqRec} {d : PoolMap} {a : Nat}

theorem Compacts.refl (h : Cache s w q r d) : Compacts w q r d a s s := ⟨h, rfl, fun _ _ _ _ h => h⟩

theorem Compacts.trans (h : Compacts w q r d a s t) (k : Compacts w q r d a t u) : Compacts w q r d a s u :=
  ⟨k.cache, k.record.trans h.record, fun lh hl i hi hs => k.nones lh hl i hi (h.nones lh hl i hi hs)⟩

/-- So does what is no work on memory. -/
theorem Cache.compacts_of_idle (h : Cache s w q r d) (k : Works w [] s t) (ha : a < q.nseqt) : Compacts w q r d a s t := by
  have hnil : ∀ {P : Nat × Nat → Prop}, ∀ z ∈ ([] : List (Nat × Nat)), P z := fun _ hz => nomatch hz
  refine ⟨h.after k hnil, h.seqRec_eq k ha hnil, fun lh hl i hi hs => ?_⟩
  obtain ⟨v, hv, hp⟩ := (entAt_eq_none_iff ..).mp hs
  exact (entAt_eq_none_iff ..).mpr ⟨v, (h.readEnt_eq k hl hi hnil).trans hv, hp⟩

end

/-- One step of a compaction: whether the entry's page moves is the model's choice (log 18). -/
def compactStep (c : Ctx) (q : Seqt) (r : SeqRec) (b : State × Nat) (p : Nat × Nat) : Except Fail (State × Nat) :=
  if Config.freeNat b.1.fresh % 2 = 0 then pure ({ b.1 with fresh := b.1.fresh + 1 }, b.2)
  else do
    let m ← { b.1 with fresh := b.1.fresh + 1 }.movePage c q r p.1 p.2
    pure (m.1, b.2 + m.2)

theorem compactSlot_eq {s : State} {c : Ctx} {q : Seqt} {r : SeqRec} {a : Nat} (hr : s.seqRec (.service c) q a = .ok r) :
    s.compactSlot c q a = if r.state = 0 ∨ r.state = 3 ∨ r.cap = 0 then pure (s, 0)
      else (entPairs q.nlh 0 r.cap).foldlM (compactStep c q r) (s, 0) := by
  unfold State.compactSlot
  rw [hr]
  rfl

theorem Moves.compacts {s u : State} {w : Who} {q : Seqt} {r : SeqRec} {d : PoolMap} {lh i n a : Nat} (h : Cache s w q r d)
    (m : Moves w q r d lh i s u n) (hl : lh < q.nlh) (hi : i < r.cap) (ha : a < q.nseqt) : Compacts w q r d a s u := by
  refine ⟨m.cache, h.seqRec_eq m.works ha fun z hz => ?_, fun lh' hl' i' hi' hs => ?_⟩
  · rcases List.mem_cons.mp hz with rfl | hz
    · exact ⟨.list, nofun, inside_ent hl hi⟩
    · obtain ⟨y, -, hy, hzy⟩ := exists_part_of_mem_poolWork hz
      exact ⟨y, hy, hzy⟩
  · by_cases hp : (lh, i) = (lh', i')
    · cases hp
      rwa [m.eq_of_none hs]
    · obtain ⟨v, hv, hn⟩ := (entAt_eq_none_iff ..).mp hs
      refine (entAt_eq_none_iff ..).mpr ⟨v, (h.readEnt_eq m.works hl' hi' fun z hz => ?_).trans hv, hn⟩
      rcases List.mem_cons.mp hz with rfl | hz
      · exact .inr ⟨(lh, i), hl, hi, hp, rfl⟩
      · obtain ⟨y, hy, -, hzy⟩ := exists_part_of_mem_poolWork hz
        exact .inl ⟨y, hy, hzy⟩

section

variable {c : Ctx} {q : Seqt} {r : SeqRec} {d : PoolMap} {a : Nat}

theorem Cache.exists_compactStep {s : State} (h : Cache s (.service c) q r d) {p : Nat × Nat} (hl : p.1 < q.nlh) (hi : p.2 < r.cap)
    (ha : a < q.nseqt) (n : Nat) :
    ∃ u m, compactStep c q r (s, n) p = .ok (u, m) ∧ m ≤ n + 1 ∧ Compacts (.service c) q r d a s u := by
  have hfresh : Compacts (.service c) q r d a s { s with fresh := s.fresh + 1 } :=
    h.compacts_of_idle (.of_same (s := s) (t := { s with fresh := s.fresh + 1 }) (fun _ _ => rfl) (fun _ => rfl) rfl rfl []) ha
  unfold compactStep
  split
  · exact ⟨_, n, rfl, by omega, hfresh⟩
  · obtain ⟨u, m, hu, hm⟩ := hfresh.cache.exists_movePage hl hi
    have hle := hm.le_one
    exact ⟨u, n + m, by rw [hu]; rfl, by omega, hfresh.trans (hm.compacts hfresh.cache hl hi ha)⟩

/-- So does the compaction of entry after entry. -/
theorem Cache.exists_compactSteps (ha : a < q.nseqt) : ∀ (l : List (Nat × Nat)) {s : State} (_ : Cache s (.service c) q r d)
    (_ : ∀ p ∈ l, p.1 < q.nlh ∧ p.2 < r.cap) (n : Nat),
    ∃ u m, l.foldlM (compactStep c q r) (s, n) = .ok (u, m) ∧ m ≤ n + l.length ∧ Compacts (.service c) q r d a s u
  | [], s, h, _, n => ⟨s, n, rfl, le_refl _, .refl h⟩
  | p :: l, s, h, hl, n => by
    obtain ⟨hlh, hcap⟩ := hl p List.mem_cons_self
    obtain ⟨t, m, ht, hm, hc⟩ := h.exists_compactStep hlh hcap ha n
    obtain ⟨u, m', hu, hm', hc'⟩ := exists_compactSteps ha l hc.cache (fun p hp => hl p (List.mem_cons_of_mem _ hp)) m
    refine ⟨u, m', ?_, ?_, hc.trans hc'⟩
    · rw [List.foldlM_cons, ht]
      exact hu
    · rw [List.length_cons]
      omega

/-- The compaction of a slot is performed, with at most as many pages moved as its list has entries. -/
theorem Cache.exists_compactSlot {s : State} (h : Cache s (.service c) q r d) (hr : s.seqRec (.service c) q a = .ok r) (ha : a < q.nseqt) :
    ∃ u n, s.compactSlot c q a = .ok (u, n) ∧ n ≤ q.nlh * r.cap ∧ Compacts (.service c) q r d a s u := by
  rw [compactSlot_eq hr]
  split
  · exact ⟨s, 0, rfl, Nat.zero_le _, .refl h⟩
  · obtain ⟨u, n, hu, hn, hc⟩ := h.exists_compactSteps ha (entPairs q.nlh 0 r.cap) (fun _ hp => mem_entPairs.mp hp) 0
    rw [length_entPairs, Nat.zero_add] at hn
    exact ⟨u, n, hu, hn, hc⟩

end

/-! Refreshes (R251). -/

/-- The place of an entry that is stale. -/
def staleOf (s : State) (w : Who) (q : Seqt) (r : SeqRec) (p : Nat × Nat) : Except Fail (Option (Nat × Nat)) := do
  match ← s.entAt w q r p.1 p.2 with
  | .stale => pure (some p)
  | _ => pure none

/-- An entry made none, and counted. -/
def emptyEnt (w : Who) (q : Seqt) (r : SeqRec) (s : State) (lh i : Nat) : Except Fail State := do
  let t ← s.putVal w (r.ent lh i) 8 entNone
  t.poolBump w q 60

theorem refreshList_eq {s : State} {c : Ctx} {q : Seqt} {r : SeqRec} {a : Nat} (hr : s.seqRec (.service c) q a = .ok r) :
    s.refreshList c q a = if q.mode ≠ 1 ∨ r.cap = 0 ∨ r.state = 3 then pure (s, 0)
      else (do
        let st ← (entPairs q.nlh 0 r.cap).mapM (staleOf s (.service c) q r)
        let s1 ← s.overPairs (emptyEnt (.service c) q r) (st.filterMap id)
        let ret ← s1.pool (.service c) q 32 8
        let s2 ← s1.putVal (.service c) (q.recAt a + 24) 8 ret
        let s3 ← s2.poolBump (.service c) q 56
        pure (s3, (st.filterMap id).length)) := by
  unfold State.refreshList
  dsimp only
  rw [hr]
  rfl

section

variable {s t : State} {w : Who} {q : Seqt} {r : SeqRec} {d : PoolMap}

theorem Cache.exists_staleOf (h : Cache s w q r d) {p : Nat × Nat} (hl : p.1 < q.nlh) (hi : p.2 < r.cap) :
    ∃ o, staleOf s w q r p = .ok o ∧ ∀ x, o = some x ↔ x = p ∧ s.entAt w q r p.1 p.2 = .ok .stale := by
  obtain ⟨e, he, -⟩ := h.exists_entAt hl hi
  unfold staleOf
  simp only [he, ok_bind]
  cases e with
  | none => exact ⟨none, rfl, by simp⟩
  | stale => exact ⟨some p, rfl, by simp [eq_comm]⟩
  | page n m => exact ⟨none, rfl, by simp⟩

/-- The stale entries are found. -/
theorem Cache.exists_stales (h : Cache s w q r d) : ∀ (l : List (Nat × Nat)) (_ : ∀ p ∈ l, p.1 < q.nlh ∧ p.2 < r.cap),
    ∃ st, l.mapM (staleOf s w q r) = .ok st ∧ ∀ p, p ∈ st.filterMap id ↔ p ∈ l ∧ s.entAt w q r p.1 p.2 = .ok .stale
  | [], _ => ⟨[], rfl, by simp⟩
  | p :: l, hl => by
    obtain ⟨hlh, hcap⟩ := hl p List.mem_cons_self
    obtain ⟨o, ho, hiff⟩ := h.exists_staleOf hlh hcap
    obtain ⟨st, hst, hmem⟩ := exists_stales h l fun p hp => hl p (List.mem_cons_of_mem _ hp)
    refine ⟨o :: st, by rw [List.mapM_cons, ho, ok_bind, hst]; rfl, fun x => ?_⟩
    have hcons : x ∈ (o :: st).filterMap id ↔ o = some x ∨ x ∈ st.filterMap id := by simp [eq_comm]
    rw [hcons, hiff, hmem, List.mem_cons]
    constructor
    · rintro (⟨rfl, hs⟩ | ⟨hx, hs⟩)
      · exact ⟨.inl rfl, hs⟩
      · exact ⟨.inr hx, hs⟩
    · rintro ⟨rfl | hx, hs⟩
      · exact .inl ⟨rfl, hs⟩
      · exact .inr ⟨hx, hs⟩

/-- What a refresh writes, but for the slot's record: the counts of the pool and the entries of `l`. -/
def emptyWork (q : Seqt) (r : SeqRec) (l : List (Nat × Nat)) : List (Nat × Nat) :=
  (q.pool + 22, 42) :: l.map fun p => (r.ent p.1 p.2, 8)

/-- Between `s` and `t` the entries `l` were emptied. -/
structure Empties (w : Who) (q : Seqt) (r : SeqRec) (d : PoolMap) (l : List (Nat × Nat)) (s t : State) : Prop where
  works : Works w (emptyWork q r l) s t
  cache : Cache t w q r d
  empty : ∀ p ∈ l, t.readVal w (r.ent p.1 p.2) 8 = .ok entNone

theorem Cache.exists_emptyEnt (h : Cache s w q r d) {p : Nat × Nat} (hl : p.1 < q.nlh) (hi : p.2 < r.cap) :
    ∃ t, emptyEnt w q r s p.1 p.2 = .ok t ∧ Empties w q r d [p] s t := by
  obtain ⟨s1, h1, k1, c1, hread⟩ := h.exists_putEnt hl hi entNone
  obtain ⟨t, ht, k2, c2⟩ := c1.exists_poolBump (off := 60) (by decide) (by decide)
  refine ⟨t, by unfold emptyEnt; rw [h1]; exact ht, (k1.mono ?_).trans (k2.mono ?_), c2, fun x hx => ?_⟩
  · exact fun z hz => ⟨z, List.mem_cons_of_mem _ (by simpa using hz), le_refl _, le_refl _⟩
  · exact fun z hz => ⟨z, List.mem_singleton.mp hz ▸ List.mem_cons_self, le_refl _, le_refl _⟩
  · rw [List.mem_singleton.mp hx, c1.readEnt_eq k2 hl hi fun z hz => .inl ⟨.pool, nofun, List.mem_singleton.mp hz ▸ inside_counts⟩,
      hread, leVal_leBytes_of_lt (by decide)]

/-- The entries that are not emptied read as before. -/
theorem Empties.readEnt_eq {l : List (Nat × Nat)} (e : Empties w q r d l s t) (h : Cache s w q r d)
    (hl : ∀ p ∈ l, p.1 < q.nlh ∧ p.2 < r.cap) {p : Nat × Nat} (hlh : p.1 < q.nlh) (hcap : p.2 < r.cap) (hp : p ∉ l) :
    t.readVal w (r.ent p.1 p.2) 8 = s.readVal w (r.ent p.1 p.2) 8 := by
  refine h.readEnt_eq e.works hlh hcap fun z hz => ?_
  rcases List.mem_cons.mp hz with rfl | hz
  · exact .inl ⟨.pool, nofun, inside_counts⟩
  · obtain ⟨x, hx, rfl⟩ := List.mem_map.mp hz
    exact .inr ⟨x, (hl x hx).1, (hl x hx).2, fun he => hp ((show x = p from he) ▸ hx), rfl⟩

theorem Cache.exists_empties : ∀ (l : List (Nat × Nat)) {s : State} (_ : Cache s w q r d) (_ : ∀ p ∈ l, p.1 < q.nlh ∧ p.2 < r.cap),
    ∃ t, s.overPairs (emptyEnt w q r) l = .ok t ∧ Empties w q r d l s t
  | [], s, h, _ => ⟨s, rfl, .refl .., h, fun _ hp => nomatch hp⟩
  | p :: l, s, h, hl => by
    obtain ⟨hlh, hcap⟩ := hl p List.mem_cons_self
    have hrest := fun x hx => hl x (List.mem_cons_of_mem p hx)
    obtain ⟨t, ht, e⟩ := h.exists_emptyEnt hlh hcap
    obtain ⟨u, hu, e'⟩ := exists_empties l e.cache hrest
    refine ⟨u, by unfold State.overPairs; rw [ht]; exact hu, (e.works.mono ?_).trans (e'.works.mono ?_), e'.cache, fun x hx => ?_⟩
    · exact fun z hz => ⟨z, by simp only [emptyWork, List.map_cons, List.mem_cons, List.map_nil, List.not_mem_nil, or_false] at hz ⊢; tauto,
        le_refl _, le_refl _⟩
    · exact fun z hz => ⟨z, by simp only [emptyWork, List.map_cons, List.mem_cons] at hz ⊢; tauto, le_refl _, le_refl _⟩
    · by_cases hxl : x ∈ l
      · exact e'.empty x hxl
      · obtain rfl : x = p := (List.mem_cons.mp hx).resolve_right hxl
        rw [e'.readEnt_eq e.cache hrest hlh hcap hxl]
        exact e.empty x List.mem_cons_self

end

/-- What the refresh of a list leaves: its stale entries name none, the others what they named. -/
def Refreshes (w : Who) (q : Seqt) (r : SeqRec) (s u : State) : Prop :=
  ∀ lh < q.nlh, ∀ i < r.cap, (s.entAt w q r lh i = .ok .stale → u.entAt w q r lh i = .ok .none)
    ∧ (s.entAt w q r lh i ≠ .ok .stale → u.entAt w q r lh i = s.entAt w q r lh i)

section

variable {s t : State} {w : Who} {q : Seqt} {r : SeqRec} {d : PoolMap} {l : List (Nat × Nat)} {a : Nat}

/-- The refresh is noted in the slot's record and counted. -/
theorem Cache.exists_stamp (h : Cache s w q r d) (ha : a < q.nseqt) : ∃ ret t u, s.pool w q 32 8 = .ok ret
    ∧ s.putVal w (q.recAt a + 24) 8 ret = .ok t ∧ t.poolBump w q 56 = .ok u
    ∧ Works w [(q.pool + 22, 42), CachePart.table.range q r d] s u ∧ Cache u w q r d := by
  obtain ⟨ret, hret⟩ := h.exists_pool (off := 32) (n := 8) (by decide)
  have hrec := inside_recAt (q := q) (r := r) (d := d) ha (off := 24) (n := 8) (by decide)
  obtain ⟨t, ht, k, -⟩ := h.exists_putVal .table ret hrec
  have ct := h.after k fun z hz => .inr ⟨.table, nofun, nofun, List.mem_singleton.mp hz ▸ hrec⟩
  obtain ⟨u, hu, k', cu⟩ := ct.exists_poolBump (off := 56) (by decide) (by decide)
  refine ⟨ret, t, u, hret, ht, hu, (k.mono fun z hz => ?_).trans (k'.mono fun z hz => ?_), cu⟩
  · exact ⟨_, by simp, List.mem_singleton.mp hz ▸ hrec⟩
  · exact ⟨z, List.mem_singleton.mp hz ▸ List.mem_cons_self, le_refl _, le_refl _⟩

/-- What the stamp writes lies in other parts than the words and the list. -/
theorem exists_part_of_mem_stamp {z : Nat × Nat} (hz : z ∈ [(q.pool + 22, 42), CachePart.table.range q r d]) :
    ∃ y : CachePart, y ≠ .list ∧ y ≠ .words ∧ Inside z (y.range q r d) := by
  simp only [List.mem_cons, List.not_mem_nil, or_false] at hz
  rcases hz with rfl | rfl
  · exact ⟨.pool, nofun, nofun, inside_counts⟩
  · exact ⟨.table, nofun, nofun, le_refl _, le_refl _⟩

/-- A page's word reads as before after work on other parts. -/
theorem Cache.readWord_eq (h : Cache s w q r d) (k : Works w l s t) {n : Nat} (hn : n < d.np)
    (hl : ∀ z ∈ l, ∃ y : CachePart, y ≠ .words ∧ Inside z (y.range q r d)) :
    t.readVal w (d.mta + 8 * n) 8 = s.readVal w (d.mta + 8 * n) 8 :=
  readVal_of_read (h.read_eq k .words (inside_word hn) fun z hz => .inl (hl z hz))

/-- The stale entries emptied, and the refresh noted, is what a refresh leaves. -/
theorem Empties.refreshes (e : Empties w q r d l s t) (h : Cache s w q r d)
    (hl : ∀ p, p ∈ l ↔ p ∈ entPairs q.nlh 0 r.cap ∧ s.entAt w q r p.1 p.2 = .ok .stale) {u : State} (hu : Cache u w q r d)
    (k : Works w [(q.pool + 22, 42), CachePart.table.range q r d] t u) : Refreshes w q r s u := by
  intro lh hlh i hi
  have hbad : ∀ p ∈ l, p.1 < q.nlh ∧ p.2 < r.cap := fun p hp => mem_entPairs.mp ((hl p).mp hp).1
  have hiff : (lh, i) ∈ l ↔ s.entAt w q r lh i = .ok .stale := (hl (lh, i)).trans (and_iff_right (mem_entPairs.mpr ⟨hlh, hi⟩))
  have hent : u.readVal w (r.ent lh i) 8 = t.readVal w (r.ent lh i) 8 := e.cache.readEnt_eq k hlh hi fun z hz =>
    let ⟨y, hy, _, hzy⟩ := exists_part_of_mem_stamp hz
    .inl ⟨y, hy, hzy⟩
  refine ⟨fun hs => ?_, fun hs => ?_⟩
  · have hempty : t.readVal w (r.ent lh i) 8 = .ok entNone := e.empty (lh, i) (hiff.mpr hs)
    exact (entAt_eq_none_iff ..).mpr ⟨entNone, hent.trans hempty, by decide⟩
  · have hword : ∀ n < d.np, u.readVal w (d.mta + 8 * n) 8 = s.readVal w (d.mta + 8 * n) 8 := fun n hn => by
      refine (e.cache.readWord_eq k hn fun z hz => ?_).trans (h.readWord_eq e.works hn fun z hz => ?_)
      · obtain ⟨y, -, hy, hzy⟩ := exists_part_of_mem_stamp hz
        exact ⟨y, hy, hzy⟩
      · rcases List.mem_cons.mp hz with rfl | hz
        · exact ⟨.pool, nofun, inside_counts⟩
        · obtain ⟨x, hx, rfl⟩ := List.mem_map.mp hz
          exact ⟨.list, nofun, inside_ent (hbad x hx).1 (hbad x hx).2⟩
    have hsame : t.readVal w (r.ent lh i) 8 = s.readVal w (r.ent lh i) 8 :=
      e.readEnt_eq h hbad (p := (lh, i)) hlh hi fun hin => hs (hiff.mp hin)
    unfold State.entAt
    rw [hent, hsame, funext (h.entState_eq hu hword)]

/-- A refresh of a list is performed. -/
theorem Cache.exists_refreshList {s : State} {c : Ctx} (h : Cache s (.service c) q r d) (hr : s.seqRec (.service c) q a = .ok r)
    (ha : a < q.nseqt) (hm : q.mode = 1) :
    ∃ u n, s.refreshList c q a = .ok (u, n) ∧ (r.state = 3 → n = 0) ∧ (r.state ≠ 3 → Refreshes (.service c) q r s u) := by
  rw [refreshList_eq hr]
  by_cases hidle : q.mode ≠ 1 ∨ r.cap = 0 ∨ r.state = 3
  · rw [if_pos hidle]
    refine ⟨s, 0, rfl, fun _ => rfl, fun hst lh _ i hi => ?_⟩
    omega
  · rw [if_neg hidle]
    obtain ⟨st, hst, hmem⟩ := h.exists_stales (entPairs q.nlh 0 r.cap) fun _ hp => mem_entPairs.mp hp
    obtain ⟨t, ht, e⟩ := h.exists_empties (st.filterMap id) fun p hp => mem_entPairs.mp ((hmem p).mp hp).1
    obtain ⟨ret, s2, u, hret, h2, hu, k, cu⟩ := e.cache.exists_stamp ha
    refine ⟨u, (st.filterMap id).length, ?_, fun h3 => absurd (.inr (.inr h3)) hidle, fun _ => e.refreshes h hmem cu k⟩
    simp only [hst, ok_bind, ht, hret, h2, hu]
    rfl

end

/-! The billets of POOL_COMPACT and PAGE_REFRESH. -/

section

variable {s : State} {q slot a : Nat} {k : Cmd} {c : Ctx} {t : Seqt} {r : SeqRec}

/-- The turn's passing on keeps the cache. -/
theorem Cache.passTurn {w : Who} {d : PoolMap} (h : Cache s w t r d) (k : Cmd) : Cache (s.passTurn k) w t r d :=
  h.after (.of_same (s := s) (t := s.passTurn k) (fun _ _ => rfl) (fun _ => rfl) rfl rfl []) fun _ hz => nomatch hz

theorem readVal_passTurn (s : State) (k : Cmd) (w : Who) (a n : Nat) : (s.passTurn k).readVal w a n = s.readVal w a n :=
  readVal_of_read (State.read_passTurn s k w n a)

theorem seqRec_passTurn (s : State) (k : Cmd) (w : Who) (t : Seqt) (a : Nat) : (s.passTurn k).seqRec w t a = s.seqRec w t a := by
  unfold State.seqRec
  rw [State.read_passTurn]

theorem entAt_passTurn (s : State) (k : Cmd) (w : Who) (t : Seqt) (r : SeqRec) (lh i : Nat) :
    (s.passTurn k).entAt w t r lh i = s.entAt w t r lh i := by
  simp only [State.entAt, State.entState, State.pageMeta, State.pool, readVal_passTurn]

/-- A billet of POOL_COMPACT is the compaction of one slot. -/
theorem doCompact_eq {u : State} {n : Nat} (htable : s.poolTable k.line = .ok (some (c, t))) (hm : t.mode = 1)
    (hu : s.compactSlot c t k.pos = .ok (u, n)) : s.doCompact q k = if t.nseqt ≤ k.pos + 1 then u.done q k.slot (leBytes 4 (k.count + n))
      else later u q k.slot (k.pos + 1) (k.count + n) := by
  unfold State.doCompact
  rw [htable]
  simp only [hm, hu]
  rfl

/-- A billet of PAGE_REFRESH is the refresh of one slot's list. -/
theorem doRefresh_eq {u : State} {n : Nat} (htable : s.poolTable k.line = .ok (some (c, t)))
    (ha : a = if fld k.line 8 4 = 0xFFFFFFFF then k.pos else fld k.line 8 4) (hlt : a < t.nseqt) (hu : s.refreshList c t a = .ok (u, n)) :
    s.doRefresh q k = if fld k.line 8 4 ≠ 0xFFFFFFFF ∨ t.nseqt ≤ a + 1 then u.done q k.slot (leBytes 4 (k.count + n))
      else later u q k.slot (a + 1) (k.count + n) := by
  have hin : ¬(fld k.line 8 4 ≠ 0xFFFFFFFF ∧ t.nseqt ≤ fld k.line 8 4) := fun ⟨hne, hle⟩ => by
    rw [if_neg hne] at ha
    omega
  unfold State.doRefresh
  rw [htable]
  simp only [if_neg hin, ← ha, hu]
  rfl

end

theorem poolWorkGoesSlotBySlot : PoolWorkGoesSlotBySlot := by
  rintro s q slot a k c t r _ h hctx hseqt rfl ht hmode hr ha hcache
  obtain ⟨d, hc⟩ := hcache.exists_cache hmode
  have hc' := hc.passTurn k
  have hr' := (seqRec_passTurn s k (.service c) t a).trans hr
  have htable := poolTable_passTurn hctx hseqt ht
  have hlast : t.nseqt ≤ a + 1 ↔ t.nseqt = a + 1 := by omega
  refine ⟨fun ho hpos => ?_, fun ho hpos => ?_⟩
  · obtain ⟨u, n, hu, hn, hkept⟩ := hc'.exists_compactSlot hr' ha
    have hnones := hkept.nones
    simp only [entAt_passTurn] at hnones
    refine ⟨u, n, hkept.record.trans hr', hn, hnones, ?_⟩
    subst hpos
    rw [h.exec_poolCompact ho, doCompact_eq htable hmode hu, h.slot]
    simp only [hlast]
  · obtain ⟨u, n, hu, hzero, hrefresh⟩ := hc'.exists_refreshList hr' ha hmode
    simp only [Refreshes, entAt_passTurn] at hrefresh
    refine ⟨u, n, hzero, hrefresh, ?_⟩
    rw [h.exec_pageRefresh ho, doRefresh_eq htable hpos ha hu, h.slot]
    simp only [hlast]

/-- Settles O18, conjunct by conjunct: the instruction of the command whose turn it is runs that command's own billet, and each service's
billet is followed through memory. -/
theorem billetedCommandsAct : Obligations.BilletedCommandsAct := by
  unfold Obligations.BilletedCommandsAct
  exact ⟨billetedCommandsRun, ctxSaveWritesItsImage, ctxRestoreBringsUpItsContext, ckptCopyCopiesItsRange, scrubCorrectsItsStacks,
    poolWorkGoesSlotBySlot, fwStageRunsItsStaging, billetEndRunsOneBillet⟩

end Sys2Proof.Cert
end

section
/-! SUPPORT. What every command does, whatever the state: it answers a next state, and it changes no part beyond its row of the five
frame tables, which together have a row for each command. -/

namespace Sys2Proof.Cert

open Sys2Proof.Machine

/-! The rows of the frame tables. -/

/-- Each host command, and each billet, changes no part beyond its row of `hostChanges`. -/
theorem exec_changes_hostChanges (c : Instr) (s : State) (l : List Part) (h : hostChanges c = some l) :
    nextAll (Changes (Part.mask l) s) (exec c s) := by
  cases c with
  | commandLineWrite addr line => exact nextAll_mask_of_row (execCommandLineWrite_changes _ _ s) h
  | controlLineWrite q evCons => exact nextAll_mask_of_row (execControlLineWrite_changes _ _ s) h
  | ringAccessFail q which unreachable => exact nextAll_mask_of_row (execRingAccessFail_changes _ _ _ s) h
  | nopCommand q slot => exact nextAll_mask_of_row (execNopCommand_frame _ _ s) h
  | qcreate q slot => exact nextAll_mask_of_row (execQcreate_frame _ _ s) h
  | qdestroy q slot => exact nextAll_mask_of_row (execQdestroy_frame _ _ s) h
  | ctxCreate q slot => exact nextAll_mask_of_row (execCtxCreate_frame _ _ s) h
  | ctxDestroy q slot => exact nextAll_mask_of_row (execCtxDestroy_frame _ _ s) h
  | ctxSave q slot => exact nextAll_mask_of_row (execCtxSave_frame _ _ s) h
  | ctxRestore q slot => exact nextAll_mask_of_row (execCtxRestore_frame _ _ s) h
  | stepCommand q slot => exact nextAll_mask_of_row (execStepCommand_changes _ _ s) h
  | abortCommand q slot => exact nextAll_mask_of_row (execAbortCommand_frame _ _ s) h
  | syncSig q slot => exact nextAll_mask_of_row (execSyncSig_frame _ _ s) h
  | schedCancel q slot => exact nextAll_mask_of_row (execSchedCancel_frame _ _ s) h
  | schedCkptCopy q slot => exact nextAll_mask_of_row (execSchedCkptCopy_frame _ _ s) h
  | schedPrefetch q slot => exact nextAll_mask_of_row (execSchedPrefetch_frame _ _ s) h
  | schedFreeze q slot => exact nextAll_mask_of_row (execSchedFreeze_frame _ _ s) h
  | schedFwActivate q slot => exact nextAll_mask_of_row (execSchedFwActivate_frame _ _ s) h
  | schedSyncSignal q slot => exact nextAll_mask_of_row (execSchedSyncSignal_frame _ _ s) h
  | ckptCopy q slot => exact nextAll_mask_of_row (execCkptCopy_frame _ _ s) h
  | scrub q slot => exact nextAll_mask_of_row (execScrub_frame _ _ s) h
  | pageReqOpen q slot => exact nextAll_mask_of_row (execPageReqOpen_frame _ _ s) h
  | pageReqFork q slot => exact nextAll_mask_of_row (execPageReqFork_frame _ _ s) h
  | pageReqSeal q slot => exact nextAll_mask_of_row (execPageReqSeal_frame _ _ s) h
  | pageReqGrow q slot => exact nextAll_mask_of_row (execPageReqGrow_frame _ _ s) h
  | pageReqTrim q slot => exact nextAll_mask_of_row (execPageReqTrim_frame _ _ s) h
  | pageReqFree q slot => exact nextAll_mask_of_row (execPageReqFree_frame _ _ s) h
  | pageReqResume q slot => exact nextAll_mask_of_row (execPageReqResume_frame _ _ s) h
  | pageReqSwapin q slot => exact nextAll_mask_of_row (execPageReqSwapin_frame _ _ s) h
  | poolCompact q slot => exact nextAll_mask_of_row (execPoolCompact_frame _ _ s) h
  | pageRefresh q slot => exact nextAll_mask_of_row (execPageRefresh_frame _ _ s) h
  | tableRebuildOwnership q slot => exact nextAll_mask_of_row (execTableRebuildOwnership_frame _ _ s) h
  | tableRebuildFuses q slot => exact nextAll_mask_of_row (execTableRebuildFuses_frame _ _ s) h
  | fwStage q slot => exact nextAll_mask_of_row (execFwStage_frame _ _ s) h
  | billetEnd => exact nextAll_mask_of_row (execBilletEnd_changes s) h
  | _ => cases h

/-- Each command of the step, the beat or the draught changes no part beyond its row of `stepChanges`. -/
theorem exec_changes_stepChanges (c : Instr) (s : State) (l : List Part) (h : stepChanges c = some l) :
    nextAll (Changes (Part.mask l) s) (exec c s) := by
  cases c with
  | phaseDone ctx => exact nextAll_mask_of_row (execPhaseDone_changes _ s) h
  | reportMarker port copies => exact nextAll_mask_of_row (execReportMarker_changes _ _ s) h
  | replay ctx => exact nextAll_mask_of_row (execReplay_changes _ s) h
  | commitFinalise ctx => exact nextAll_mask_of_row (execCommitFinalise_changes _ s) h
  | advanceMarker copies => exact nextAll_mask_of_row (execAdvanceMarker_changes _ s) h
  | setMarker copies => exact nextAll_mask_of_row (execSetMarker_changes _ s) h
  | rootMarkerRepeat => exact nextAll_mask_of_row (execRootMarkerRepeat_changes s) h
  | beatApply slot => exact nextAll_mask_of_row (execBeatApply_changes _ s) h
  | beatOutRepeat => exact nextAll_mask_of_row (execBeatOutRepeat_changes s) h
  | beatInFrame frame => exact nextAll_mask_of_row (execBeatInFrame_changes _ s) h
  | beatSourceLost => exact nextAll_mask_of_row (execBeatSourceLost_changes s) h
  | prefetchComplete idx => exact nextAll_mask_of_row (execPrefetchComplete_changes _ s) h
  | newFirmwareStart => exact nextAll_mask_of_row (execNewFirmwareStart_changes s) h
  | chunkRequest die => exact nextAll_mask_of_row (execChunkRequest_changes _ s) h
  | chunkGrant die => exact nextAll_mask_of_row (execChunkGrant_changes _ s) h
  | hearthPoolDraw hearth => exact nextAll_mask_of_row (execHearthPoolDraw_changes _ s) h
  | engineCreditGrant u idx group => exact nextAll_mask_of_row (execEngineCreditGrant_changes _ _ _ s) h
  | creditReturn die => exact nextAll_mask_of_row (execCreditReturn_changes _ s) h
  | surgeEnd => exact nextAll_mask_of_row (execSurgeEnd_changes s) h
  | recoveryEnd => exact nextAll_mask_of_row (execRecoveryEnd_changes s) h
  | sensorSample draw => exact nextAll_mask_of_row (execSensorSample_changes _ s) h
  | aclkHalveEnd => exact nextAll_mask_of_row (execAclkHalveEnd_changes s) h
  | sensorLimitWidenEnd => exact nextAll_mask_of_row (execSensorLimitWidenEnd_changes s) h
  | draughtTimeout u idx => exact nextAll_mask_of_row (execDraughtTimeout_changes _ _ s) h
  | _ => cases h

/-- Each register command changes no part beyond its row of `registerChanges`. -/
theorem exec_changes_registerChanges (c : Instr) (s : State) (l : List Part) (h : registerChanges c = some l) :
    nextAll (Changes (Part.mask l) s) (exec c s) := by
  cases c with
  | drtBudgetWrite prv val => exact nextAll_mask_of_row (execDrtBudgetWrite_frame _ _ s) h
  | drtSurgeWrite prv val => exact nextAll_mask_of_row (execDrtSurgeWrite_frame _ _ s) h
  | drtPrsvWrite prv k val => exact nextAll_mask_of_row (execDrtPrsvWrite_frame _ _ _ s) h
  | pgLockWrite prv pg val => exact nextAll_mask_of_row (execPgLockWrite_frame _ _ _ s) h
  | unlockArmExpiry pg => exact nextAll_mask_of_row (execUnlockArmExpiry_changes _ s) h
  | pgCtlSrst prv pg => exact nextAll_mask_of_row (execPgCtlSrst_frame _ _ s) h
  | pgCtlPinj prv pg => exact nextAll_mask_of_row (execPgCtlPinj_frame _ _ s) h
  | pgCtlCntclr prv pg => exact nextAll_mask_of_row (execPgCtlCntclr_frame _ _ s) h
  | pgErrClear prv pg => exact nextAll_mask_of_row (execPgErrClear_frame _ _ s) h
  | pgIrqRawClear prv pg val => exact nextAll_mask_of_row (execPgIrqRawClear_frame _ _ _ s) h
  | pgSnapWrite prv pg val => exact nextAll_mask_of_row (execPgSnapWrite_frame _ _ _ s) h
  | snapshotCapture => exact nextAll_mask_of_row (execSnapshotCapture_changes s) h
  | parityScan pg upset => exact nextAll_mask_of_row (execParityScan_changes _ _ s) h
  | counterLowRead prv pg off => exact nextAll_mask_of_row (execCounterLowRead_changes _ _ _ s) h
  | beatSlotLoRead prv k => exact nextAll_mask_of_row (execBeatSlotLoRead_changes _ _ s) h
  | trcLoRead prv pg off => exact nextAll_mask_of_row (execTrcLoRead_changes _ _ _ s) h
  | beatSlotWrite prv k hi val => exact nextAll_mask_of_row (execBeatSlotWrite_frame _ _ _ _ s) h
  | mgrAqCfgWrite prv val => exact nextAll_mask_of_row (execMgrAqCfgWrite_frame _ _ s) h
  | registerWrite prv addr size val => exact nextAll_mask_of_row (execRegisterWrite_changes _ _ _ _ s) h
  | pwrDomWrite prv k val => exact nextAll_mask_of_row (execPwrDomWrite_frame _ _ _ s) h
  | rstPartGo prv val => exact nextAll_mask_of_row (execRstPartGo_frame _ _ s) h
  | rstDieGo prv val => exact nextAll_mask_of_row (execRstDieGo_frame _ _ s) h
  | rstWdtkWrite prv val => exact nextAll_mask_of_row (execRstWdtkWrite_frame _ _ s) h
  | rstRclrWrite prv val => exact nextAll_mask_of_row (execRstRclrWrite_frame _ _ s) h
  | hlkCfgRetrain prv port => exact nextAll_mask_of_row (execHlkCfgRetrain_frame _ _ s) h
  | hlkCfgEn prv port val => exact nextAll_mask_of_row (execHlkCfgEn_frame _ _ _ s) h
  | rdpCfgRetrain prv port => exact nextAll_mask_of_row (execRdpCfgRetrain_frame _ _ s) h
  | rdpCfgEn prv port val => exact nextAll_mask_of_row (execRdpCfgEn_frame _ _ _ s) h
  | svcCfgEnum prv => exact nextAll_mask_of_row (execSvcCfgEnum_frame _ s) h
  | fwCtlCommit prv => exact nextAll_mask_of_row (execFwCtlCommit_frame _ s) h
  | fwCtlActnow prv => exact nextAll_mask_of_row (execFwCtlActnow_frame _ s) h
  | fwCtlAbort prv => exact nextAll_mask_of_row (execFwCtlAbort_frame _ s) h
  | trcFctlGo prv val => exact nextAll_mask_of_row (execTrcFctlGo_frame _ _ s) h
  | trcFctlThaw prv val => exact nextAll_mask_of_row (execTrcFctlThaw_frame _ _ s) h
  | trcFctlSgo prv val => exact nextAll_mask_of_row (execTrcFctlSgo_frame _ _ s) h
  | trcFctlSthaw prv val => exact nextAll_mask_of_row (execTrcFctlSthaw_frame _ _ s) h
  | frznEdge => exact nextAll_mask_of_row (execFrznEdge_changes s) h
  | trcCtlWrite prv die val => exact nextAll_mask_of_row (execTrcCtlWrite_frame _ _ _ s) h
  | traceFlush die => exact nextAll_mask_of_row (execTraceFlush_changes _ s) h
  | traceLineWrite die ok => exact nextAll_mask_of_row (execTraceLineWrite_changes _ _ s) h
  | _ => cases h

/-- Each command of the package changes no part beyond its row of `packageChanges`. -/
theorem exec_changes_packageChanges (c : Instr) (s : State) (l : List Part) (h : packageChanges c = some l) :
    nextAll (Changes (Part.mask l) s) (exec c s) := by
  cases c with
  | backgroundScrub cord line err => exact nextAll_mask_of_row (execBackgroundScrub_changes _ _ _ s) h
  | vin56Good sample => exact nextAll_mask_of_row (execVin56Good_changes _ s) h
  | vin56Lost sample => exact nextAll_mask_of_row (execVin56Lost_changes _ s) h
  | vstbyGood sample => exact nextAll_mask_of_row (execVstbyGood_changes _ s) h
  | vstbyLost sample => exact nextAll_mask_of_row (execVstbyLost_changes _ s) h
  | ember => exact nextAll_mask_of_row (execEmber_changes s) h
  | converters hot => exact nextAll_mask_of_row (execConverters_changes _ s) h
  | optionLoading bad => exact nextAll_mask_of_row (execOptionLoading_changes _ s) h
  | dieEnumeration missing unlocked => exact nextAll_mask_of_row (execDieEnumeration_changes _ _ s) h
  | stackTraining bad => exact nextAll_mask_of_row (execStackTraining_changes _ s) h
  | firmwareStart => exact nextAll_mask_of_row (execFirmwareStart_changes s) h
  | linkTraining upLock downLock => exact nextAll_mask_of_row (execLinkTraining_changes _ _ s) h
  | domainTransitionDone k => exact nextAll_mask_of_row (execDomainTransitionDone_changes _ s) h
  | rstnPin => exact nextAll_mask_of_row (execRstnPin_changes s) h
  | wrstnPin => exact nextAll_mask_of_row (execWrstnPin_changes s) h
  | hostLinkReset port => exact nextAll_mask_of_row (execHostLinkReset_changes _ s) h
  | refclkLoss => exact nextAll_mask_of_row (execRefclkLoss_changes s) h
  | thermalTrip die temp => exact nextAll_mask_of_row (execThermalTrip_changes _ _ s) h
  | tjWarning die temp => exact nextAll_mask_of_row (execTjWarning_changes _ _ s) h
  | watchdogTimeout => exact nextAll_mask_of_row (execWatchdogTimeout_changes s) h
  | resetSourceRelease cause pg => exact nextAll_mask_of_row (execResetSourceRelease_changes _ _ s) h
  | clockQualified die clk => exact nextAll_mask_of_row (execClockQualified_changes _ _ s) h
  | clockQualLoss die clk => exact nextAll_mask_of_row (execClockQualLoss_changes _ _ s) h
  | flitReceive port flit corrected => exact nextAll_mask_of_row (execFlitReceive_changes _ _ _ s) h
  | nakReceive port ack => exact nextAll_mask_of_row (execNakReceive_changes _ _ s) h
  | linkDetect port found => exact nextAll_mask_of_row (execLinkDetect_changes _ _ s) h
  | linkEqualiseDone port ok => exact nextAll_mask_of_row (execLinkEqualiseDone_changes _ _ s) h
  | linkAlignDone port bad => exact nextAll_mask_of_row (execLinkAlignDone_changes _ _ s) h
  | linkIdentifyDone port peer part rtt => exact nextAll_mask_of_row (execLinkIdentifyDone_changes _ _ _ _ s) h
  | linkRetrainTimeout port => exact nextAll_mask_of_row (execLinkRetrainTimeout_changes _ s) h
  | linkDownRetry port => exact nextAll_mask_of_row (execLinkDownRetry_changes _ s) h
  | watchedLineSnoop addr => exact nextAll_mask_of_row (execWatchedLineSnoop_changes _ s) h
  | frameRelay fromUp frame => exact nextAll_mask_of_row (execFrameRelay_changes _ _ s) h
  | enumFrame fromUp frame => exact nextAll_mask_of_row (execEnumFrame_changes _ _ s) h
  | enumDone received => exact nextAll_mask_of_row (execEnumDone_changes _ s) h
  | regRd frame => exact nextAll_mask_of_row (execRegRd_changes _ s) h
  | regWr frame => exact nextAll_mask_of_row (execRegWr_changes _ s) h
  | chainReset frame => exact nextAll_mask_of_row (execChainReset_changes _ s) h
  | imgFrame frame => exact nextAll_mask_of_row (execImgFrame_changes _ s) h
  | fwctlBegin frame => exact nextAll_mask_of_row (execFwctlBegin_changes _ s) h
  | fwctlStatus frame => exact nextAll_mask_of_row (execFwctlStatus_changes _ s) h
  | fwctlActivate frame => exact nextAll_mask_of_row (execFwctlActivate_changes _ s) h
  | fwctlAbort frame => exact nextAll_mask_of_row (execFwctlAbort_changes _ s) h
  | fwctlCommit frame => exact nextAll_mask_of_row (execFwctlCommit_changes _ s) h
  | fwctlSetwr frame => exact nextAll_mask_of_row (execFwctlSetwr_changes _ s) h
  | ping frame => exact nextAll_mask_of_row (execPing_changes _ s) h
  | chainUpPortLost => exact nextAll_mask_of_row (execChainUpPortLost_changes s) h
  | smbReadVin => exact nextAll_mask_of_row (execSmbReadVin_changes s) h
  | smbReadVstby => exact nextAll_mask_of_row (execSmbReadVstby_changes s) h
  | smbReadTj => exact nextAll_mask_of_row (execSmbReadTj_changes s) h
  | smbReadDraw => exact nextAll_mask_of_row (execSmbReadDraw_changes s) h
  | smbReadBudget => exact nextAll_mask_of_row (execSmbReadBudget_changes s) h
  | smbReadKsts => exact nextAll_mask_of_row (execSmbReadKsts_changes s) h
  | smbReadCause => exact nextAll_mask_of_row (execSmbReadCause_changes s) h
  | smbReadRtotal => exact nextAll_mask_of_row (execSmbReadRtotal_changes s) h
  | smbReadStrap => exact nextAll_mask_of_row (execSmbReadStrap_changes s) h
  | smbReadCaddr => exact nextAll_mask_of_row (execSmbReadCaddr_changes s) h
  | smbReadRcnt c => exact nextAll_mask_of_row (execSmbReadRcnt_changes _ s) h
  | smbReadIdcode => exact nextAll_mask_of_row (execSmbReadIdcode_changes s) h
  | smbWrite code => exact nextAll_mask_of_row (execSmbWrite_changes code s) h
  | extest => exact nextAll_mask_of_row (execExtest_changes s) h
  | samplePreload => exact nextAll_mask_of_row (execSamplePreload_changes s) h
  | idcode => exact nextAll_mask_of_row (execIdcode_changes s) h
  | bypass code => exact nextAll_mask_of_row (execBypass_changes _ s) h
  | regaccUpdate dr => exact nextAll_mask_of_row (execRegaccUpdate_changes _ s) h
  | regaccCapture => exact nextAll_mask_of_row (execRegaccCapture_changes s) h
  | linkAlignmentLost port => exact nextAll_mask_of_row (execLinkAlignmentLost_changes _ s) h
  | flashProgramDone => exact nextAll_mask_of_row (execFlashProgramDone_changes s) h
  | aperturePlacement sapb uapb => exact nextAll_mask_of_row (execAperturePlacement_changes _ _ s) h
  | _ => cases h

/-- Every command has a row in one of the frame tables. -/
theorem exists_row (c : Instr) : (∃ l, hostChanges c = some l) ∨ (∃ l, engineChanges c = some l) ∨ (∃ l, stepChanges c = some l)
    ∨ (∃ l, registerChanges c = some l) ∨ ∃ l, packageChanges c = some l := by
  have h : ((hostChanges c).isSome || (engineChanges c).isSome || (stepChanges c).isSome || (registerChanges c).isSome
      || (packageChanges c).isSome) = true := by
    cases c <;> rfl
  simpa only [Bool.or_eq_true, Option.isSome_iff_exists, or_assoc] using h

/-! No fault, no refusal. Most commands are one next state by their definition; the named ones branch first. -/

/-- The outcome is a next state. -/
def IsNext (r : Host.Outcome State Fault Refusal) : Prop := ∃ t, r = .next t

theorem IsNext.next (t : State) : IsNext (.next t) := ⟨t, rfl⟩

theorem IsNext.ite {p : Prop} [Decidable p] {x y : Host.Outcome State Fault Refusal} (hx : IsNext x) (hy : IsNext y) :
    IsNext (if p then x else y) := by
  split
  · exact hx
  · exact hy

theorem exec_isNext_of_hostChanges {c : Instr} {l : List Part} (h : hostChanges c = some l) (s : State) : IsNext (exec c s) := by
  cases c
  case commandLineWrite | controlLineWrite | ringAccessFail | stepCommand | billetEnd =>
    dsimp -zeta only [exec, execCommandLineWrite, execControlLineWrite, execRingAccessFail, execStepCommand, execBilletEnd]
    repeat' (with_reducible first | exact IsNext.next _ | apply IsNext.ite | split | extract_lets)
  all_goals first | exact IsNext.next _ | cases h

theorem exec_isNext_of_engineChanges {c : Instr} {l : List Part} (h : engineChanges c = some l) (s : State) : IsNext (exec c s) := by
  cases c
  case issueAdmit | waitRelease | drainComplete | descriptorComplete | laneGroupPass | outputTileDrain | rowGroupPass |
    bwaTileRetire | storeClassChange | rngWordRequest | reduceLevelProceed | pkgsumGrant | pkgsumErrorFlit | pkgsumChildArrival |
    pkgsumBroadcast | streamChunk | listRefresh =>
    dsimp -zeta only [exec, execIssueAdmit, execWaitRelease, execDrainComplete, execDescriptorComplete, execLaneGroupPass,
      execOutputTileDrain, execRowGroupPass, execBwaTileRetire, execStoreClassChange, execRngWordRequest, execReduceLevelProceed,
      execPkgsumGrant, execPkgsumErrorFlit, execPkgsumChildArrival, execPkgsumBroadcast, execStreamChunk, execListRefresh]
    repeat' (with_reducible first | exact IsNext.next _ | apply IsNext.ite | split | extract_lets)
  all_goals first | exact IsNext.next _ | cases h

theorem exec_isNext_of_stepChanges {c : Instr} {l : List Part} (h : stepChanges c = some l) (s : State) : IsNext (exec c s) := by
  cases c
  case phaseDone | replay | commitFinalise | beatApply | beatInFrame | beatSourceLost | prefetchComplete | newFirmwareStart |
    chunkRequest | hearthPoolDraw | engineCreditGrant | creditReturn | surgeEnd | sensorSample | draughtTimeout =>
    dsimp -zeta only [exec, execPhaseDone, execReplay, execCommitFinalise, execBeatApply, execBeatInFrame, execBeatSourceLost,
      execPrefetchComplete, execNewFirmwareStart, execChunkRequest, execHearthPoolDraw, execEngineCreditGrant, execCreditReturn,
      execSurgeEnd, execSensorSample, execDraughtTimeout]
    repeat' (with_reducible first | exact IsNext.next _ | apply IsNext.ite | split)
  all_goals first | exact IsNext.next _ | cases h

theorem exec_isNext_of_registerChanges {c : Instr} {l : List Part} (h : registerChanges c = some l) (s : State) : IsNext (exec c s) := by
  cases c
  case snapshotCapture | parityScan =>
    dsimp -zeta only [exec, execSnapshotCapture, execParityScan]
    repeat' (with_reducible first | exact IsNext.next _ | apply IsNext.ite | split)
  all_goals first | exact IsNext.next _ | cases h

theorem exec_isNext_of_packageChanges {c : Instr} {l : List Part} (h : packageChanges c = some l) (s : State) : IsNext (exec c s) := by
  cases c
  case backgroundScrub | vstbyLost | ember | converters | optionLoading | dieEnumeration | stackTraining | firmwareStart |
    linkTraining | domainTransitionDone | thermalTrip | tjWarning | resetSourceRelease | clockQualified | clockQualLoss |
    flitReceive | linkAlignDone | linkIdentifyDone | watchedLineSnoop | frameRelay | enumFrame | enumDone | chainUpPortLost |
    samplePreload | regaccUpdate | regaccCapture | flashProgramDone | aperturePlacement =>
    dsimp -zeta only [exec, execBackgroundScrub, execVstbyLost, execEmber, execConverters, execOptionLoading, execDieEnumeration,
      execStackTraining, execFirmwareStart, execLinkTraining, execDomainTransitionDone, execThermalTrip, execTjWarning,
      execResetSourceRelease, execClockQualified, execClockQualLoss, execFlitReceive, execLinkAlignDone, execLinkIdentifyDone,
      execWatchedLineSnoop, execFrameRelay, execEnumFrame, execEnumDone, execChainUpPortLost, execSamplePreload,
      execRegaccUpdate, execRegaccCapture, execFlashProgramDone, execAperturePlacement]
    repeat' (with_reducible first | exact IsNext.next _ | apply IsNext.ite | split)
  all_goals first | exact IsNext.next _ | cases h

/-- A command answers a next state within the law of its row. -/
theorem IsNext.exists_changes {m : Nat} {s : State} {r : Host.Outcome State Fault Refusal} (hr : IsNext r)
    (h : nextAll (Changes m s) r) : ∃ (t : State) (m : Nat), r = .next t ∧ Changes m s t := by
  obtain ⟨t, ht⟩ := hr
  exact ⟨t, m, ht, h.get ht⟩

theorem exec_next_changes (c : Instr) (s : State) : ∃ (t : State) (m : Nat), exec c s = .next t ∧ Changes m s t := by
  obtain ⟨l, h⟩ | ⟨l, h⟩ | ⟨l, h⟩ | ⟨l, h⟩ | ⟨l, h⟩ := exists_row c
  · exact (exec_isNext_of_hostChanges h s).exists_changes (exec_changes_hostChanges c s l h)
  · exact (exec_isNext_of_engineChanges h s).exists_changes (exec_changes_engineChanges c s l h)
  · exact (exec_isNext_of_stepChanges h s).exists_changes (exec_changes_stepChanges c s l h)
  · exact (exec_isNext_of_registerChanges h s).exists_changes (exec_changes_registerChanges c s l h)
  · exact (exec_isNext_of_packageChanges h s).exists_changes (exec_changes_packageChanges c s l h)

/-- Settles O1: `step` looks at the queue of waiting commands alone. -/
theorem stepRunsFrontCommand : Obligations.StepRunsFrontCommand := by
  unfold Obligations.StepRunsFrontCommand
  refine ⟨fun c r s h => ?_, fun s h => ?_⟩
  · unfold step
    rw [h]
  · unfold step
    rw [h]

/-- Settles O2: the law that each command's row states holds of the waiting commands, the output and the free values of every command. -/
theorem everyCommandAnswersNext : Obligations.EveryCommandAnswersNext := by
  unfold Obligations.EveryCommandAnswersNext
  intro c s
  obtain ⟨t, m, ht, h⟩ := exec_next_changes c s
  exact ⟨t, ht, h.pending, h.outPrefix, h.freshLe⟩

/-- Settles O5: each command's law, read through the mask of its row. -/
theorem frameOfHostCommands : Obligations.FrameOfHostCommands := by
  unfold Obligations.FrameOfHostCommands
  exact changesOnly_of_mask exec_changes_hostChanges

end Sys2Proof.Cert
end

section
/-! SUPPORT. Queues and their lines (R286 to R289, R503): what an event record, a count and a completion leave of a queue, the line that a
completion writes, and the acceptance of a command line. -/

namespace Sys2Proof.Machine

/-! Records of a queue (R289). -/

/-- `y` is `x` but for the counts of its event records. -/
def Queue.SameButRecords (x y : Queue) : Prop :=
  y = { x with evCount := y.evCount, lost := y.lost, lostAll := y.lostAll, unread := y.unread }

theorem Queue.SameButRecords.refl (x : Queue) : x.SameButRecords x := rfl

theorem Queue.SameButRecords.trans {x y z : Queue} (h : x.SameButRecords y) (k : y.SameButRecords z) : x.SameButRecords z :=
  Eq.trans k (by rw [h])

theorem Queue.SameButRecords.congr {α : Type} (f : Queue → α) {x y : Queue} (h : x.SameButRecords y) :
    f y = f { x with evCount := y.evCount, lost := y.lost, lostAll := y.lostAll, unread := y.unread } := congrArg f h

theorem Queue.SameButRecords.head {x y : Queue} (h : x.SameButRecords y) : y.head = x.head := h.congr Queue.head

theorem Queue.SameButRecords.phase {x y : Queue} (h : x.SameButRecords y) : y.phase = x.phase := h.congr Queue.phase

theorem Queue.SameButRecords.closing {x y : Queue} (h : x.SameButRecords y) : y.closing = x.closing := h.congr Queue.closing

@[simp] theorem State.queue_hostLine (s : State) (a : Addr) (bs : List Byte) (j : Nat) : (s.hostLine a bs).1.queue j = s.queue j := by
  unfold State.queue
  rw [(State.hostLine_changes s a bs).queues rfl]

theorem State.putEvent_queue (s : State) (q : Nat) (r : EventRec) : (s.queue q).SameButRecords ((s.putEvent q r).queue q) := by
  unfold State.putEvent
  dsimp only
  split
  · rw [State.queue_setQueue]
    rfl
  · split
    · rw [State.queue_setQueue]
      rfl
    · rw [State.queue_setQueue]
      rfl

theorem State.putEvent_queue_ne (s : State) {q j : Nat} (r : EventRec) (h : j ≠ q) : (s.putEvent q r).queue j = s.queue j := by
  unfold State.putEvent
  dsimp only
  split
  · exact State.queue_setQueue_ne _ _ _ _ h
  · split
    · rw [State.queue_setQueue_ne _ _ _ _ h, State.queue_hostLine]
    · exact State.queue_setQueue_ne _ _ _ _ h

theorem State.event_queue (s : State) (q : Nat) (r : EventRec) : (s.queue q).SameButRecords ((s.event q r).queue q) := by
  unfold State.event
  dsimp only
  split
  · exact .refl _
  · split
    · have hlost := State.putEvent_queue s q (EventRec.package 0x07 0 0 (s.slotBeat s.tslot) (leBytes 4 (s.queue q).lost.toNat))
      generalize s.putEvent q _ = t at hlost ⊢
      split
      · refine hlost.trans (.trans ?_ (State.putEvent_queue _ q r))
        rw [State.queue_setQueue]
        rfl
      · exact State.putEvent_queue s q r
    · exact State.putEvent_queue s q r

/-- An event record leaves every other queue, and a queue that has stopped (R503). -/
theorem State.event_queue_of_untouched (s : State) {q j : Nat} (r : EventRec) (h : j ≠ q ∨ (s.queue j).stopped = true) :
    (s.event q r).queue j = s.queue j := by
  by_cases hj : j = q
  · subst hj
    have hs : (s.queue j).stopped = true := h.resolve_left (· rfl)
    simp [State.event, hs]
  · unfold State.event
    dsimp only
    split
    · rfl
    · split
      · split
        · rw [State.putEvent_queue_ne _ r hj, State.queue_setQueue_ne _ _ _ _ hj, State.putEvent_queue_ne _ _ hj]
        · exact State.putEvent_queue_ne s r hj
      · exact State.putEvent_queue_ne s r hj

/-- A count leaves every queue but the admin queue, and that one where it has stopped. -/
theorem State.count_queue_of_untouched (s : State) (pg i n : Nat) {j : Nat} (h : j ≠ 0 ∨ (s.queue j).stopped = true) :
    (s.count pg i n).queue j = s.queue j := by
  have hraise : ∀ (p : Page) (m : BitVec 6), ((s.setPage pg p).raise pg m).queue j = s.queue j := fun p m => by
    unfold State.raise State.pageIrq State.pkgEvent
    dsimp only
    split
    · exact State.event_queue_of_untouched _ _ h
    · rfl
  unfold State.count
  split
  · rfl
  · dsimp only
    split
    · rfl
    · split
      · rfl
      · exact hraise ..

/-! Completion lines (R287). -/

/-- The queue once the command of `slot` has completed. -/
def Queue.completed (x : Queue) (slot : Nat) (tag : BitVec 32) : Queue :=
  { x with cmds := x.cmds.filter (fun d => decide (d.slot ≠ slot)), lastTag := SMap.put x.lastTag 0 slot (tag.toNat + 1) }

/-- The state once the completion line of command `c` is written, held, or lost. -/
def State.lineCompleted (s : State) (q slot : Nat) (c : Cmd) (res : Result) (err : BitVec 16) (addr : Addr) (result : List Byte) : State :=
  let y := (s.queue q).completed slot (cTag c.line)
  let s1 := s.setQueue q y
  if (s.queue q).stopped then s1
  else
    let w := s1.hostLine ((s.queue q).cpl + BitVec.ofNat 48 (64 * slot))
      (completionLine c.line res err addr (s.cmdBeat (cCtx c.line)) result)
    if w.2 then w.1 else s1.setQueue q y.lose

section

variable {s : State} {q slot : Nat} {c : Cmd} {res : Result} {err : BitVec 16} {addr : Addr} {result : List Byte}

/-- A completion is its line, with IRQ an event, and the queue's end where it was closing and nothing else is uncompleted. -/
theorem State.complete_of_cmd (h : s.cmd? q slot = some c) : s.complete q slot res err addr result =
    (if cIrq c.line then (s.lineCompleted q slot c res err addr result).event q
        { etype := 0x01, res := res, ctx := cCtx c.line, eng := 0, tag := cTag c.line, err := err, hearth := 0xFFFF, unit := 0,
          addr := addr, beat := s.cmdBeat (cCtx c.line), data := [] }
      else s.lineCompleted q slot c res err addr result).reapQueue q := by
  unfold State.complete
  rw [h]
  rfl

theorem State.complete_of_no_cmd (h : s.cmd? q slot = none) : s.complete q slot res err addr result = s := by
  unfold State.complete
  rw [h]

theorem State.lineCompleted_queue :
    ((s.queue q).completed slot (cTag c.line)).SameButRecords ((s.lineCompleted q slot c res err addr result).queue q) := by
  unfold State.lineCompleted
  dsimp only
  split
  · rw [State.queue_setQueue]
    exact .refl _
  · split
    · rw [State.queue_hostLine, State.queue_setQueue]
      exact .refl _
    · rw [State.queue_setQueue]
      rfl

theorem State.reapQueue_of_open (h : (s.queue q).closing = false) : s.reapQueue q = s := by
  simp [State.reapQueue, h]

/-- A completion on a queue that is not closing leaves the queue's place in its ring. -/
theorem State.complete_queue_ring (h : (s.queue q).closing = false) :
    ((s.complete q slot res err addr result).queue q).head = (s.queue q).head
      ∧ ((s.complete q slot res err addr result).queue q).phase = (s.queue q).phase := by
  cases hc : s.cmd? q slot with
  | none =>
    rw [State.complete_of_no_cmd hc]
    exact ⟨rfl, rfl⟩
  | some c =>
    rw [State.complete_of_cmd hc]
    have hline := @State.lineCompleted_queue s q slot c res err addr result
    generalize s.lineCompleted q slot c res err addr result = t at hline ⊢
    split
    · have hall := fun r => hline.trans (State.event_queue t q r)
      rw [State.reapQueue_of_open ((hall _).closing.trans h)]
      exact ⟨(hall _).head, (hall _).phase⟩
    · rw [State.reapQueue_of_open (hline.closing.trans h)]
      exact ⟨hline.head, hline.phase⟩

end

theorem State.malformed_queue_ring (s : State) {q : Nat} (slot : Nat) (h : (s.queue q).closing = false) :
    ((s.malformed q slot).queue q).head = (s.queue q).head ∧ ((s.malformed q slot).queue q).phase = (s.queue q).phase :=
  State.complete_queue_ring h

/-! Acceptance (R286). -/

/-- The queue once it has accepted the line `l` in slot H as the `n`-th command. -/
def Queue.accepted (x : Queue) (l : List Byte) (n : Nat) : Queue :=
  { x with
    cmds := x.cmds ++ [{ slot := x.head, line := l, order := n, started := false, pos := 0, count := 0, aux := 0 }]
    head := if x.head + 1 = 2 ^ x.logN then 0 else x.head + 1
    phase := if x.head + 1 = 2 ^ x.logN then !x.phase else x.phase }

/-- A line with the expected phase in slot H of a queue that runs is accepted; a refused one then completes malformed. -/
theorem State.acceptOne_of_phase {s : State} {q : Nat} {x : Queue} {l : List Byte} (hx : s.queue q = x)
    (hl : s.bytes (x.slotAddr x.head) 64 = l) (hlive : x.live = true) (hruns : x.stopped = false) (hopen : x.closing = false)
    (hup : s.hostUp = true) (hserving : s.serving = true) (hphase : cPhase l = x.phase) :
    s.acceptOne q = some (if x.refuses q l then ({ s with order := s.order + 1 }.setQueue q (x.accepted l s.order)).malformed q x.head
      else { s with order := s.order + 1 }.setQueue q (x.accepted l s.order)) := by
  subst hx hl
  have hturn : ∀ b p : Bool, (p != b) = if b = true then !p else p := by decide
  unfold State.acceptOne
  dsimp only
  rw [if_neg (by simp [hlive, hruns, hopen, hup, hserving]), if_neg (not_not.mpr hphase)]
  simp only [hturn, decide_eq_true_eq]
  rfl

end Sys2Proof.Machine

namespace Sys2Proof.Cert

open Sys2Proof.Machine

theorem exec_commandLineWrite (a : Addr) (line : List Byte) (s : State) :
    exec (.commandLineWrite a line) s = execCommandLineWrite a line s := rfl

theorem exec_controlLineWrite (q : Nat) (v : Word) (s : State) : exec (.controlLineWrite q v) s = execControlLineWrite q v s := rfl

theorem exec_ringAccessFail (q : Nat) (w : RingLine) (u : Bool) (s : State) :
    exec (.ringAccessFail q w u) s = execRingAccessFail q w u s := rfl

/-- What the ports carry does not depend on memory. -/
theorem hostUp_setBytes (s : State) (a : Nat) (bs : List Byte) : (s.setBytes a bs).hostUp = s.hostUp := rfl

theorem queue_setBytes (s : State) (a : Nat) (bs : List Byte) (j : Nat) : (s.setBytes a bs).queue j = s.queue j := rfl

theorem watchedBy_setBytes (s : State) (a : Nat) (bs : List Byte) (b : Nat) : (s.setBytes a bs).watchedBy b = s.watchedBy b := rfl

/-- Settles O10: the write of a line by whether a live queue watches it, and acceptance of the line in slot H, refused or not. -/
theorem commandLineWriteIsAccepted : Obligations.CommandLineWriteIsAccepted := by
  unfold Obligations.CommandLineWriteIsAccepted
  refine ⟨fun s a line hlen ha hw => ?_, fun s a line q hlen ha hup hw => ?_, fun s q hlive hruns hopen hup hserving hphase => ?_⟩
  · simp [exec_commandLineWrite, execCommandLineWrite, hlen, ha, hw]
  · simp only [exec_commandLineWrite, execCommandLineWrite, hlen, ha, watchedBy_setBytes, hw, hostUp_setBytes, hup]
    rfl
  · refine ⟨_, State.acceptOne_of_phase rfl rfl hlive hruns hopen hup hserving hphase, ?_⟩
    generalize s.bytes ((s.queue q).slotAddr (s.queue q).head) 64 = l
    generalize ht : State.setQueue { s with order := s.order + 1 } q ((s.queue q).accepted l s.order) = t
    have horder : t.order = s.order + 1 := by rw [← ht]; rfl
    have hq : t.queue q = (s.queue q).accepted l s.order := by rw [← ht, State.queue_setQueue]
    have hhead := congrArg Queue.head hq
    have hturn := congrArg Queue.phase hq
    by_cases hrefused : (s.queue q).refuses q l = true
    · rw [if_pos hrefused]
      obtain ⟨hh, hp⟩ := t.malformed_queue_ring (q := q) (s.queue q).head (by rw [hq]; exact hopen)
      refine ⟨((State.malformed_changes ..).order rfl).trans horder, hh.trans hhead, hp.trans hturn, fun hform => ?_⟩
      exact Bool.noConfusion (hrefused.symm.trans hform)
    · rw [if_neg hrefused]
      exact ⟨horder, hhead, hturn, fun _ => congrArg Queue.cmds hq⟩

/-! The control line, and a failing ring access. -/

theorem controlLineWriteFreesRecords : ControlLineWriteFreesRecords := by
  intro s q v hlive hup
  generalize hs1 : s.setBytes (s.queue q).ctl.toNat (leBytes 4 v.toNat ++ zeros 60) = s1
  have hexec : exec (.controlLineWrite q v) s
      = .next (if (s.queue q).stopped then s1.cohEvent else s1.cohEvent.takeControl q v) := by
    have hup1 : s1.hostUp = true := by rw [← hs1, hostUp_setBytes, hup]
    simp [exec_controlLineWrite, execControlLineWrite, hlive, hs1, hup1]
  have hq : ∀ j, s1.queue j = s.queue j := fun j => by rw [← hs1, queue_setBytes]
  refine ⟨_, hexec, fun hruns => ?_, fun hstopped => ?_, fun i hi hring => ?_⟩
  · simp [hruns, State.takeControl]
  · rw [if_pos hstopped, ← hq q]
    exact State.count_queue_of_untouched _ _ _ _ (.inr (by rw [hq, hstopped]))
  · have hbyte : s1.cohEvent.byte ((s.queue q).ctl.toNat + i) = s1.byte ((s.queue q).ctl.toNat + i) :=
      (State.count_counts ..).stays.bytes _ (by rw [hq]; exact hring)
    have hin : s1.byte ((s.queue q).ctl.toNat + i) = (leBytes 4 v.toNat ++ zeros 60).getD i 0 := by
      rw [← hs1]
      exact State.byte_setBytes_in _ _ _ _ (by simpa [zeros] using hi)
    split
    · exact hbyte.trans hin
    · exact hbyte.trans hin

theorem ringAccessFailStopsQueue : RingAccessFailStopsQueue := by
  refine ⟨fun s w u hlive hruns hup => ?_, fun s q w u hq hlive hruns hup => ⟨_, ?_, ?_, rfl⟩⟩
  · simp [exec_ringAccessFail, execRingAccessFail, hlive, hruns, hup]
  · simp [exec_ringAccessFail, execRingAccessFail, hlive, hruns, hup, hq, EventRec.package]
  · rw [State.event_queue_of_untouched _ _ (.inl hq), State.queue_setQueue]

/-- Settles O11: the control line reaches memory and the queue's view, and a failing access stops its queue, whose event goes to another. -/
theorem hostLinesAreTaken : Obligations.HostLinesAreTaken := by
  unfold Obligations.HostLinesAreTaken
  exact ⟨controlLineWriteFreesRecords, ringAccessFailStopsQueue⟩

/-! What a completion writes. -/

theorem length_completionLine (line : List Byte) (res : Result) (err : BitVec 16) (addr : Addr) (b : Beat) (result : List Byte) :
    (completionLine line res err addr b result).length = 64 := by
  simp [completionLine, zeros]

section

variable {s : State} {q slot : Nat} {c : Cmd} {res : Result} {err : BitVec 16} {addr : Addr} {result : List Byte}

theorem byte_lineCompleted {a : Nat} (h : ¬ inCompletion (s.queue q) slot a) :
    (s.lineCompleted q slot c res err addr result).byte a = s.byte a := by
  have hline : ∀ (t : State) (bs : List Byte), bs.length = 64 →
      (t.hostLine ((s.queue q).cpl + BitVec.ofNat 48 (64 * slot)) bs).1.byte a = t.byte a := fun t bs hbs => by
    unfold State.hostLine
    split
    · refine State.byte_setBytes_out _ _ _ _ ?_
      rw [hbs]
      unfold inCompletion at h
      omega
    · split
      · rfl
      · rfl
  unfold State.lineCompleted
  dsimp only
  split
  · rfl
  · split
    · exact hline _ _ (length_completionLine ..)
    · rfl

/-- A completion on a queue that runs, with a link up, no IRQ and no QDESTROY waiting, is its line alone. -/
theorem CanComplete.complete_eq (h : CanComplete s q slot c) (hirq : cIrq c.line = false) (hopen : (s.queue q).closing = false) :
    s.complete q slot res err addr result
      = (s.setQueue q ((s.queue q).completed slot (cTag c.line))).setBytes ((s.queue q).cpl + BitVec.ofNat 48 (64 * slot)).toNat
          (completionLine c.line res err addr (s.cmdBeat (cCtx c.line)) result) := by
  have hup : (s.setQueue q ((s.queue q).completed slot (cTag c.line))).hostUp = true := h.up
  rw [State.complete_of_cmd h.cmd, hirq, if_neg Bool.false_ne_true,
    State.reapQueue_of_open (State.lineCompleted_queue.closing.trans hopen)]
  simp [State.lineCompleted, State.hostLine, h.runs, hup]

end

theorem recordsStayInTheirRings : RecordsStayInTheirRings := by
  refine ⟨fun s q r a h => (State.event_staysInRing s q r).bytes a h, fun s pg i n a h => (State.count_counts s pg i n).stays.bytes a h,
    fun s q slot res err addr result a hring hline => ?_⟩
  cases hc : s.cmd? q slot with
  | none => rw [State.complete_of_no_cmd hc]
  | some c =>
    have hreap : ∀ t : State, (t.reapQueue q).byte a = t.byte a := fun t => by
      unfold State.byte
      rw [(State.reapQueue_changes t q).mem rfl]
    rw [State.complete_of_cmd hc, hreap]
    split
    · have hq := @State.lineCompleted_queue s q slot c res err addr result
      refine ((State.event_staysInRing _ q _).bytes a ?_).trans (byte_lineCompleted hline)
      rwa [inRing_congr ⟨hq.congr Queue.ev, hq.congr Queue.logEv⟩]
    · exact byte_lineCompleted hline

theorem completionWritesItsLine : CompletionWritesItsLine := by
  intro s q slot res err addr result c h hirq hopen
  have hq : (s.complete q slot res err addr result).queue q = (s.queue q).completed slot (cTag c.line) := by
    rw [h.complete_eq hirq hopen]
    exact State.queue_setQueue ..
  refine ⟨fun i hi => ?_, ?_, ?_⟩
  · rw [h.complete_eq hirq hopen]
    exact State.byte_setBytes_in _ _ _ _ (by rwa [length_completionLine])
  · rw [hq]
    simp [Queue.completed]
  · rw [hq]
    simp [Queue.completed]

/-- Settles O12: a completion is its line, at most one event, and the queue's own fields; only the first two write memory. -/
theorem completionsAndRecordsAreWritten : Obligations.CompletionsAndRecordsAreWritten := by
  unfold Obligations.CompletionsAndRecordsAreWritten
  exact ⟨recordsStayInTheirRings, completionWritesItsLine⟩

end Sys2Proof.Cert
end

section
/-! SUPPORT. A QDESTROY that names the admin queue. Such a line fails when it is accepted (R288), so that no run serves one; the statement
speaks of every state that holds it accepted. -/

namespace Sys2Proof.Cert

open Sys2Proof.Machine

/-- QDESTROY, without a context, of queue 0. -/
def qdestroyAdmin : Cmd :=
  { slot := 0, line := leBytes 1 0x03 ++ zeros 1 ++ leBytes 1 0xFF ++ zeros 61, order := 0, started := false, pos := 0, count := 0, aux := 0 }

/-- A kindled package with Larfort port A up; the admin queue is at slot 1 of its ring with nothing uncompleted, and queue 1 has accepted
`qdestroyAdmin`. -/
def adminNamed : State :=
  { State.reset with
    kind := { Kind.reset with phase := 7, pwr := true, qual := true, opts := true }
    ports := [(0, { Port.reset with tstate := 5 })]
    queues := [(0, { Queue.none with live := true, head := 1 }), (1, { Queue.none with live := true, cmds := [qdestroyAdmin] })] }

/-- Slot H of queue `q` once a command has run. -/
def headAfter (q : Nat) : Host.Outcome State Fault Refusal → Option Nat
  | .next t => some (t.queue q).head
  | _ => none

theorem adminNamed_served : Served adminNamed 1 0 qdestroyAdmin :=
  ⟨by decide +kernel, by decide +kernel, by decide +kernel, by decide +kernel⟩

/-- The admin queue is disabled, not destroyed: it keeps its place in its ring (R304). -/
theorem adminNamed_keeps_head : headAfter 0 (exec (.qdestroy 1 0) adminNamed) = some 1 := by
  decide +kernel

theorem not_queueCommandsComplete : ¬ QueueCommandsComplete := by
  rintro ⟨-, -, hdestroy, -⟩
  obtain ⟨t, ht, hq⟩ := hdestroy adminNamed 1 0 qdestroyAdmin adminNamed_served (by decide +kernel) (by decide +kernel)
    (by decide +kernel) (by decide +kernel) (by decide +kernel)
  have hhead : headAfter 0 (.next t) = some 1 := ht ▸ adminNamed_keeps_head
  have hq0 : t.queue 0 = Queue.none := hq
  simp [headAfter, hq0, Queue.none] at hhead

/-- Refutes O13: a QDESTROY that names queue 0 (a form that acceptance refuses, but that the statement does not exclude) disables the admin
queue and leaves its other fields, so the queue is not as if it had never been created. -/
theorem not_queuesAndContextsComeAndGo : ¬ Obligations.QueuesAndContextsComeAndGo := by
  unfold Obligations.QueuesAndContextsComeAndGo
  rintro ⟨h, -, -⟩
  exact not_queueCommandsComplete h

end Sys2Proof.Cert
end

section
/-! SUPPORT. SYNC_SIG (R275), SCHED (R315) and STEP (R282): the immediate command whose turn it is runs its own service; what a signal and an
armed entry leave. -/

namespace Sys2Proof.Machine

/-! Sync objects. -/

/-- A sync number that names an object. -/
def SyncRef.Named (r : SyncRef) : Prop := r ≠ .none ∧ r ≠ .invalid

theorem State.syncObj_setSync (s : State) {r : SyncRef} (o : SyncObj) (h : r.Named) : (s.setSync r o).syncObj r = o := by
  cases r with
  | package i => exact SMap.get_put_self ..
  | loc i => exact SMap.get_put_self ..
  | none => exact absurd rfl h.1
  | invalid => exact absurd rfl h.2

theorem State.syncObj_signal (s : State) {r : SyncRef} (rst : Bool) (add : BitVec 32) (h : r.Named) :
    (s.signal r rst add).syncObj r = (s.syncObj r).signal rst add := s.syncObj_setSync _ h

/-- Objects are read from the two tables alone. -/
theorem State.syncObj_congr {s t : State} (hp : t.psync = s.psync) (hl : t.lsync = s.lsync) (r : SyncRef) : t.syncObj r = s.syncObj r := by
  unfold State.syncObj
  rw [hp, hl]

theorem State.syncObj_done (s : State) (q slot : Nat) (result : List Byte) (r : SyncRef) : (s.done q slot result).syncObj r = s.syncObj r :=
  State.syncObj_congr ((State.done_changes ..).psync rfl) ((State.done_changes ..).lsync rfl) r

/-! Schedule entries. -/

@[simp] theorem State.schedAt_setSched (s : State) (slot idx : Nat) (e : Option SchedEnt) : (s.setSched slot idx e).schedAt slot idx = e :=
  SMap.get_put_self ..

@[simp] theorem State.schedAt_setFw (s : State) (f : Firmware) (slot idx : Nat) : (s.setFw f).schedAt slot idx = s.schedAt slot idx := rfl

/-- The entry `e` taken out of its slot's table. -/
def State.clearSched (s : State) (slot idx : Nat) (e : SchedEnt) : State :=
  let t := s.setSched slot idx none
  if e.kind = 4 then t.setFw { t.fw with arm := false } else t

theorem State.schedAt_clearSched (s : State) (slot idx : Nat) (e : SchedEnt) : (s.clearSched slot idx e).schedAt slot idx = none := by
  unfold State.clearSched
  dsimp only
  split
  · rw [State.schedAt_setFw, State.schedAt_setSched]
  · exact State.schedAt_setSched ..

theorem State.schedAt_arm (s : State) (slot idx : Nat) (e : SchedEnt) : (s.arm slot idx e).schedAt slot idx = some e := by
  unfold State.arm
  dsimp only
  split
  · rw [State.schedAt_setFw, State.schedAt_setSched]
  · exact State.schedAt_setSched ..

theorem State.arm_of_activation (s : State) (slot idx : Nat) {e : SchedEnt} (h : e.kind = 4) : (s.arm slot idx e).fw.arm = true := by
  unfold State.arm
  dsimp only
  rw [if_pos h]
  rfl

end Sys2Proof.Machine

namespace Sys2Proof.Cert

open Sys2Proof.Machine

/-! The command whose turn it is. -/

section

variable {s : State} {q slot : Nat} {k : Cmd} (h : Served s q slot k)
include h

/-- The instruction of the command that is served next serves it. -/
theorem Served.exec_eq {i : Instr} {f : List Byte → Bool} (hi : exec i s = .next (s.serveNext q slot f)) (hf : f k.line = true) :
    exec i s = .next (s.serveImm q k) := by
  rw [hi]
  simp [State.serveNext, h.serving, h.next, h.slot, hf]

theorem Served.exec_syncSig (ho : cOpc k.line = 0x0A) : exec (.syncSig q slot) s = .next (s.doSyncSig q k) := by
  rw [h.exec_eq (i := .syncSig q slot) rfl (by simp [ho])]
  simp [State.serveImm, h.ctx, ho]

theorem Served.exec_sched {i : Instr} {kind : Nat} (hi : exec i s = .next (s.serveNext q slot (isSched kind))) (ho : cOpc k.line = 0x0B)
    (hkind : fld k.line 16 1 = kind) : exec i s = .next (s.doSched q k) := by
  rw [h.exec_eq hi (by simp [isSched, ho, hkind])]
  simp [State.serveImm, h.ctx, ho]

end

theorem syncSigSignalsObject : SyncSigSignalsObject := by
  intro s q slot i k c h ho hctx href
  have hobj := s.syncObj_signal (r := .package i) (bit (fld k.line 10 1) 0) (BitVec.ofNat 32 (fld k.line 12 4)) ⟨nofun, nofun⟩
  have hdo : s.doSyncSig q k = (s.signal (.package i) (bit (fld k.line 10 1) 0) (BitVec.ofNat 32 (fld k.line 12 4))).done q slot
      (leBytes 4 ((s.syncObj (.package i)).signal (bit (fld k.line 10 1) 0) (BitVec.ofNat 32 (fld k.line 12 4))).count.toNat
        ++ leBytes 2 ((s.syncObj (.package i)).signal (bit (fld k.line 10 1) 0) (BitVec.ofNat 32 (fld k.line 12 4))).epoch.toNat) := by
    simp only [State.doSyncSig, hctx, href, hobj, h.slot]
  refine ⟨_, _, (h.exec_syncSig ho).trans (congrArg _ hdo), (State.syncObj_done ..).trans hobj, ?_, ?_, rfl⟩
  · simp only [SyncObj.signal, bit_zero, decide_eq_true_eq]
  · exact (State.done_changes ..).lsync rfl

/-- The entry that a SCHED of kind `kind` arms (R315): its anchor is the beat's STEP. -/
def schedEntry (s : State) (q kind : Nat) (c : Ctx) (k : Cmd) : SchedEnt :=
  { target := Beat.ofNat (fld k.line 8 8), anchor := (s.slotBeat c.slot).step, kind := kind, kargs := (k.line.drop 24).take 40,
    q := q, tag := cTag k.line, ctx := cCtx k.line, fired := false }

/-- A SCHED of KIND 0 clears the entry it names. -/
theorem doSched_cancel {s : State} {q : Nat} {k : Cmd} {c : Ctx} {e : SchedEnt} (hkind : fld k.line 16 1 = 0)
    (hctx : s.ctx? (cCtx k.line) = some c) (hidx : fld k.line 18 2 < 256) (he : s.schedAt c.slot (fld k.line 18 2) = some e) :
    s.doSched q k = (s.clearSched c.slot (fld k.line 18 2) e).done q k.slot (leBytes 2 (fld k.line 18 2) ++ leBytes 1 1) := by
  simp only [State.doSched, hctx, hkind, he, if_neg (Nat.not_le.mpr hidx)]
  rfl

/-- A SCHED of another KIND, with its target ahead and its arguments allowed, arms its entry in the lowest free place. -/
theorem doSched_arm {s : State} {q i kind : Nat} {k : Cmd} {c : Ctx} (hkind : fld k.line 16 1 = kind) (hne : kind ≠ 0)
    (hctx : s.ctx? (cCtx k.line) = some c) (hfree : s.freeSched c.slot = some i)
    (htarget : targetOk (s.slotBeat c.slot) (Beat.ofNat (fld k.line 8 8)) = true)
    (hok : s.schedOk c (s.queue q) k.line (Beat.ofNat (fld k.line 8 8)) = true) :
    s.doSched q k = (s.arm c.slot i (schedEntry s q kind c k)).done q k.slot (leBytes 2 i) := by
  simp only [State.doSched, hctx, hkind, if_neg hne, hfree, htarget, hok, Bool.and_self]
  rfl

theorem schedCommandsComplete : SchedCommandsComplete := by
  refine ⟨fun s q slot k c e h ho hkind hctx hidx he => ⟨s.clearSched c.slot (fld k.line 18 2) e, State.schedAt_clearSched .., ?_⟩,
    fun s q slot i kind k c h ho hkind hctx hfree htarget hok =>
      ⟨s.arm c.slot i (schedEntry s q kind c k), State.schedAt_arm .., ?_⟩⟩
  · rw [h.exec_sched (i := .schedCancel q slot) rfl ho hkind, doSched_cancel hkind hctx hidx he, h.slot]
  · have harm : ∀ {j : Instr} {n : Nat}, exec j s = .next (s.serveNext q slot (isSched n)) → n ≠ 0 → kind = n →
        exec j s = .next ((s.arm c.slot i (schedEntry s q kind c k)).done q slot (leBytes 2 i)) := fun hj hn hk => by
      rw [h.exec_sched hj ho (hkind.trans hk), doSched_arm hkind (hk ▸ hn) hctx hfree htarget hok, h.slot]
    exact ⟨harm rfl (by decide), harm rfl (by decide), harm rfl (by decide),
      fun h4 => ⟨State.arm_of_activation _ _ _ h4, harm rfl (by decide) h4⟩, harm rfl (by decide)⟩

/-- Settles O15: the command whose turn it is runs its own service, which signals the object, or clears or arms the entry, and completes. -/
theorem syncAndSchedCommandsComplete : Obligations.SyncAndSchedCommandsComplete := by
  unfold Obligations.SyncAndSchedCommandsComplete
  exact ⟨syncSigSignalsObject, schedCommandsComplete⟩

/-! STEP. -/

theorem exec_stepCommand (q slot : Nat) (s : State) : exec (.stepCommand q slot) s = execStepCommand q slot s := rfl

/-- Settles O17, branch by branch of STEP's checks: the context ends its step, the beat stands at PHASE 0, the tables are read. -/
theorem stepCommandStarts : Obligations.StepCommandStarts := by
  unfold Obligations.StepCommandStarts
  refine ⟨fun s q slot k c r hnext hslot ho hserving hfield hctx hstep hbeat hphase hdead hsub htab => ?_,
    fun s q slot k c hnext hslot ho hserving hfield hctx hstep hbeat hdead => ?_⟩
  · simp [exec_stepCommand, execStepCommand, hnext, hslot, ho, hserving, hfield, hctx, hstep, hbeat, hphase, hdead, htab,
      Nat.not_lt.mpr hsub]
  · simp [exec_stepCommand, execStepCommand, hnext, hslot, ho, hserving, hfield, hctx, hstep, hbeat, hdead]

end Sys2Proof.Cert
end

section
/-! SUPPORT. Dispatch words (R264, R266 to R271): the condition of a wait, the signal that a word sends, and what the count of a word
leaves of the state that a word reads. -/

namespace Sys2Proof.Machine

/-! Fields of a word. -/

theorem leVal_lt (l : List Byte) : leVal l < 256 ^ l.length := by
  induction l with
  | nil => exact Nat.one_pos
  | cons b l ih =>
    have hb := b.isLt
    rw [leVal, List.length_cons, Nat.pow_succ]
    omega

theorem fld_lt (l : List Byte) (off n : Nat) : fld l off n < 256 ^ n :=
  (leVal_lt _).trans_le (Nat.pow_le_pow_right (by decide) (List.length_take_le ..))

/-! What the count of a word leaves. -/

section

variable (s : State) (core : Nat)

theorem State.psync_wordDone : (s.wordDone core).psync = s.psync := (s.wordDone_changes core).psync rfl

theorem State.lsync_wordDone : (s.wordDone core).lsync = s.lsync := (s.wordDone_changes core).lsync rfl

theorem State.syncObj_wordDone (r : SyncRef) : (s.wordDone core).syncObj r = s.syncObj r :=
  State.syncObj_congr (s.psync_wordDone core) (s.lsync_wordDone core) r

theorem State.waitOk_wordDone (c : Ctx) (g n count lo : Nat) : (s.wordDone core).waitOk c g n count lo = s.waitOk c g n count lo := by
  unfold State.waitOk
  simp only [State.syncObj_wordDone]

theorem State.outstanding_wordDone (k : Nat) : (s.wordDone core).outstanding k = s.outstanding k := by
  unfold State.outstanding
  rw [(s.wordDone_changes core).engines rfl]

theorem State.slotBeat_wordDone (slot : Nat) : (s.wordDone core).slotBeat slot = s.slotBeat slot := by
  unfold State.slotBeat
  rw [(s.wordDone_changes core).beat rfl]

end

/-! The signal of a word (R275). -/

theorem syncRef_named {c : Ctx} {g n : Nat} (h : wordSync c g n = true) : (syncRef c g n).Named := by
  unfold wordSync at h
  cases hr : syncRef c g n with
  | package i => exact ⟨nofun, nofun⟩
  | loc i => exact ⟨nofun, nofun⟩
  | none => simp [hr] at h
  | invalid => simp [hr] at h

/-- A signal on a number that names an object is one atomic signal, and counted. -/
theorem State.syncObj_signalFrom (s : State) {c : Ctx} {g n : Nat} (rst : Bool) (add : BitVec 32) (h : (syncRef c g n).Named) :
    (s.signalFrom c g n rst add).syncObj (syncRef c g n) = (s.syncObj (syncRef c g n)).signal rst add := by
  rw [← s.syncObj_signal rst add h]
  unfold State.signalFrom
  cases hr : syncRef c g n with
  | package i => exact State.syncObj_congr ((State.count_changes ..).psync rfl) ((State.count_changes ..).lsync rfl) _
  | loc i => exact State.syncObj_congr ((State.count_changes ..).psync rfl) ((State.count_changes ..).lsync rfl) _
  | none => exact absurd hr h.1
  | invalid => exact absurd hr h.2

end Sys2Proof.Machine

namespace Sys2Proof.Cert

open Sys2Proof.Machine

/-! LOOP (R269). -/

theorem exec_loopWord (core : Nat) (s : State) : exec (.loopWord core) s = execLoopWord core s := rfl

/-- LOOP sets its counter and the PC, by whether a further pass is due. -/
theorem AtWord.exec_loopWord_eq {s : State} {core ctx : Nat} {c : Ctx} {w : List Byte} {i : Fin 4} (h : AtWord s core 5 ctx c w)
    (hi : i.val = fld w 1 1 % 4) :
    exec (.loopWord core) s = .next ((s.wordDone core).setCore core
      (if (s.core core).lc[i].toNat + 1 < fld w 4 4 then
        { s.core core with lc := (s.core core).lc.set i ((s.core core).lc[i] + 1), pc := (s.core core).pc + BitVec.ofInt 48 (16 * wTgt w) }
      else { s.core core with lc := (s.core core).lc.set i 0, pc := (s.core core).pc + 16 })) := by
  obtain rfl : i = ⟨fld w 1 1 % 4, Nat.mod_lt _ (by decide)⟩ := Fin.ext hi
  rw [exec_loopWord]
  unfold execLoopWord
  rw [h.runWord_eq (by decide)]
  dsimp only
  split
  · rfl
  · rfl

/-- Settles O19: COUNT is a field of four bytes, so the counter does not wrap while it stays below it. -/
theorem loopCountsAndBranches : Obligations.LoopCountsAndBranches := by
  unfold Obligations.LoopCountsAndBranches
  intro s core ctx c w i h hi
  have hcount : fld w 4 4 < 2 ^ 32 := fld_lt w 4 4
  refine ⟨_, h.exec_loopWord_eq hi, fun hlt => ?_, fun hle => ?_, fun k hk => ?_⟩
  · rw [State.core_setCore, if_pos hlt]
    have hinc : ((s.core core).lc[i] + 1).toNat = (s.core core).lc[i].toNat + 1 := BitVec.toNat_add_of_lt (hlt.trans hcount)
    refine ⟨rfl, ?_⟩
    rw [← hinc]
    simp
  · rw [State.core_setCore, if_neg (Nat.not_lt.mpr hle)]
  · rw [State.core_setCore_ne _ _ _ _ hk, State.core_wordDone]

/-! WAIT (R266, R274). -/

theorem exec_waitWord (core : Nat) (s : State) : exec (.waitWord core) s = execWaitWord core s := rfl

theorem exec_waitRelease (core : Nat) (s : State) : exec (.waitRelease core) s = execWaitRelease core s := rfl

theorem waitConditionIsSerial : WaitConditionIsSerial := by
  refine ⟨fun o count lo hcount hlo => ?_, fun s c g count lo => ?_⟩
  · have he := o.epoch.isLt
    have hc := o.count.isLt
    simp only [waitMet, Bool.or_eq_true, Bool.and_eq_true, decide_eq_true_eq]
    omega
  · simp [State.waitOk, syncRef]

/-- WAIT is counted, and sets its core by whether the wait is met. -/
theorem AtWord.exec_waitWord_eq {s : State} {core ctx : Nat} {c : Ctx} {w : List Byte} (h : AtWord s core 2 ctx c w) :
    exec (.waitWord core) s = .next ((s.wordDone core).setCore core
      (if s.waitOk c (core / 8) (wSync w) (fld w 4 3) (fld w 7 1) then past (s.core core)
        else { s.core core with run := .waiting, word := w })) := by
  rw [exec_waitWord]
  unfold execWaitWord
  rw [h.runWord_eq (by decide)]
  simp only [State.waitOk_wordDone]
  split
  · rfl
  · rfl

theorem waitStallsUntilMet : WaitStallsUntilMet := by
  refine ⟨fun s core ctx c w h => ⟨_, h.exec_waitWord_eq, fun k hk => ?_, State.core_setCore ..⟩,
    fun s core ctx c hctx hrun hup hmet => ?_⟩
  · rw [State.core_setCore_ne _ _ _ _ hk, State.core_wordDone]
  · simp [exec_waitRelease, execWaitRelease, hctx, hrun, hup, hmet, State.nextWord, past]

/-- Settles O20: R274's condition by arithmetic on the two differences, and WAIT by whether it holds. -/
theorem waitsAreMetSerially : Obligations.WaitsAreMetSerially := by
  unfold Obligations.WaitsAreMetSerially
  exact ⟨waitConditionIsSerial, waitStallsUntilMet⟩

/-! WAITBEAT (R268). -/

theorem exec_waitbeatWord (core : Nat) (s : State) : exec (.waitbeatWord core) s = execWaitbeatWord core s := rfl

/-- The model aims at the beat of R268. -/
theorem goal_eq_beatGoal (x : Core) (w : List Byte) : Core.goal { x with word := w } = beatGoal x w := by
  simp [Core.goal, beatGoal]

/-- WAITBEAT is counted, and sets its core by whether the slot's beat has reached the target. -/
theorem AtWord.exec_waitbeatWord_eq {s : State} {core ctx : Nat} {c : Ctx} {w : List Byte} (h : AtWord s core 4 ctx c w) :
    exec (.waitbeatWord core) s = .next ((s.wordDone core).setCore core
      (if (s.slotBeat c.slot).reaches (beatGoal (s.core core) w) then past (s.core core)
        else { s.core core with run := .onBeat, word := w })) := by
  rw [exec_waitbeatWord]
  unfold execWaitbeatWord
  rw [h.runWord_eq (by decide)]
  simp only [State.slotBeat_wordDone, goal_eq_beatGoal]
  split
  · rfl
  · rfl

/-- Settles O22: the word is counted, and its core set by whether the slot's beat reaches the target. -/
theorem waitbeatStallsUntilBeat : Obligations.WaitbeatStallsUntilBeat := by
  unfold Obligations.WaitbeatStallsUntilBeat
  intro s core ctx c w h
  refine ⟨_, h.exec_waitbeatWord_eq, fun k hk => ?_, State.core_setCore ..⟩
  rw [State.core_setCore_ne _ _ _ _ hk, State.core_wordDone]

/-! TRAP (R270). -/

theorem exec_trapWord (core : Nat) (s : State) : exec (.trapWord core) s = execTrapWord core s := rfl

/-- A record that meets a full ring is counted as lost (R289). -/
theorem lost_event_of_full {u : State} {q : Nat} (r : EventRec) (hlive : (u.queue q).live = true) (hruns : (u.queue q).stopped = false)
    (hfull : (u.queue q).evFull = true) : ((u.event q r).queue q).lost = (u.queue q).lost + 1 := by
  simp [State.event, State.putEvent, hlive, hruns, hfull, Queue.lose]

/-- Settles O23: TRAP has no branch but the ring's, which the event record takes. -/
theorem trapNeverStops : Obligations.TrapNeverStops := by
  unfold Obligations.TrapNeverStops
  intro s core ctx c w h
  refine ⟨?_, fun u r => lost_event_of_full r⟩
  rw [exec_trapWord]
  unfold execTrapWord
  rw [h.runWord_eq (by decide)]
  rfl

/-! END (R271). -/

theorem exec_endWord (core : Nat) (s : State) : exec (.endWord core) s = execEndWord core s := rfl

/-- END stalls while the core has descriptors outstanding, and ends the list otherwise. -/
theorem AtWord.exec_endWord_eq {s : State} {core ctx : Nat} {c : Ctx} {w : List Byte} (h : AtWord s core 9 ctx c w) :
    exec (.endWord core) s = .next (if s.outstanding core = 0 then (s.wordDone core).endList c core (s.core core) w
      else (s.wordDone core).stall core (s.core core) w .ending) := by
  rw [exec_endWord]
  unfold execEndWord
  rw [h.runWord_eq (by decide)]
  simp only [State.outstanding_wordDone]

/-- An END that signals names an object (R272). -/
theorem AtWord.end_named {s : State} {core ctx : Nat} {c : Ctx} {w : List Byte} (h : AtWord s core 9 ctx c w) (hsig : fld w 1 1 % 2 = 1) :
    (syncRef c (core / 8) (wSync w)).Named := by
  have hs := h.syncs
  simp only [wordSyncOk, h.opcode, bit_zero, hsig] at hs
  exact syncRef_named (by simpa using hs)

/-- Settles O24: the count of the word leaves engines and sync objects; the list's end sends at most one signal. -/
theorem endWordLeavesCoreIdle : Obligations.EndWordLeavesCoreIdle := by
  unfold Obligations.EndWordLeavesCoreIdle
  intro s core ctx c w h
  refine ⟨_, h.exec_endWord_eq, fun hout => ?_, fun hout => ?_⟩
  · rw [if_neg hout]
    exact ⟨State.core_setCore .., s.psync_wordDone core, s.lsync_wordDone core⟩
  · rw [if_pos hout]
    refine ⟨State.core_setCore .., fun hsig => ?_, fun hsig => ?_⟩
    · have hbit : bit (fld w 1 1) 0 = false := by simp [hsig]
      simp only [State.endList, hbit]
      exact ⟨s.psync_wordDone core, s.lsync_wordDone core⟩
    · have hbit : bit (fld w 1 1) 0 = true := by simp [hsig]
      have hobj := (s.wordDone core).syncObj_signalFrom false 1 (h.end_named hsig)
      rw [State.syncObj_wordDone] at hobj
      simp only [State.endList, hbit, if_true]
      exact hobj

end Sys2Proof.Cert
end

section
/-! SUPPORT. Beats from outside (R305, R310, R427): what counts leave of the view that markers and frames are taken with, the bytes of a
field, the beats that are discarded, and the source of Table 12.2. -/

namespace Sys2Proof.Machine

/-! What a count leaves: the registers of the beat unit, the ports, contexts and beats. -/

section

variable {s t : State} (h : KeepsReach s t)
include h

theorem KeepsReach.pageInfo (pg : Nat) : t.pageInfo pg = s.pageInfo pg := by
  unfold State.pageInfo
  simp only [h.hasDie]

theorem KeepsReach.isOpen (pg : Nat) : t.isOpen pg = s.isOpen pg := by
  unfold State.isOpen
  simp only [h.pageInfo, h.iso]

theorem KeepsReach.port (p : Nat) : t.port p = s.port p := by
  unfold State.port
  rw [h.changes.ports rfl]

theorem KeepsReach.portUp (p : Nat) : t.portUp p = s.portUp p := by
  unfold State.portUp State.portOpen
  rw [h.port, h.iso]

theorem KeepsReach.dnps : t.dnps = s.dnps := by
  unfold State.dnps
  simp only [h.portUp]

theorem KeepsReach.beatUplat : t.beatUplat = s.beatUplat := by
  unfold State.beatUplat
  rw [h.portUp, h.port]

theorem KeepsReach.beatCfg : t.beatCfg = s.beatCfg := congrArg BitVec.toNat (h.cfg pgBeat 0x100 0)

theorem KeepsReach.tslot : t.tslot = s.tslot := congrArg (bits · 12 8) h.beatCfg

theorem KeepsReach.beat : t.beat = s.beat := h.changes.beat rfl

theorem KeepsReach.slotBeat (k : Nat) : t.slotBeat k = s.slotBeat k := by
  unfold State.slotBeat
  rw [h.beat]

theorem KeepsReach.slotCtx (k : Nat) : t.slotCtx k = s.slotCtx k := by
  unfold State.slotCtx State.liveCtxs
  rw [h.changes.ctxs rfl]

theorem KeepsReach.treeCtx : t.treeCtx = s.treeCtx := by
  unfold State.treeCtx
  rw [h.tslot, h.slotCtx]

end

/-! Fields of bytes. -/

/-- The bytes from `n` on are the number's high part. -/
theorem leVal_drop : ∀ (n : Nat) (l : List Byte), leVal (l.drop n) = leVal l / 256 ^ n
  | 0, l => by simp
  | _ + 1, [] => by simp [leVal]
  | n + 1, b :: r => by
    rw [List.drop_succ_cons, leVal_drop n r, leVal, pow_succ', ← Nat.div_div_eq_div_mul]
    congr 1
    have := b.isLt
    omega

/-- The highest byte of a beat's eight bytes: its bits [63:56] (R305). -/
theorem fld_beat_high (m : List Byte) (off : Nat) : fld m (off + 7) 1 = fld m off 8 / 2 ^ 56 := by
  have h := leVal_drop 7 ((m.drop off).take 8)
  rw [List.drop_take, List.drop_drop] at h
  exact h

/-- The same, most significant byte first. -/
theorem fldBE_beat_high {f : List Byte} {off : Nat} (h : off + 8 ≤ f.length) : fldBE f off 1 = fldBE f off 8 / 2 ^ 56 := by
  have h8 : ((f.drop off).take 8).length = 8 := by
    rw [List.length_take, List.length_drop]
    omega
  have hd := leVal_drop 7 ((f.drop off).take 8).reverse
  rw [List.drop_reverse, h8, List.take_take] at hd
  exact hd

/-- A marker's beat, and its target where it names one, are good: their bits [63:56] are 0 (R305). -/
theorem goodBeats_iff (m : List Byte) (target : Bool) :
    goodBeats m target = true ↔ fld m 8 8 < 2 ^ 56 ∧ (target = true → fld m 16 8 < 2 ^ 56) := by
  have h8 : fld m 15 1 = fld m 8 8 / 2 ^ 56 := fld_beat_high m 8
  have h16 : fld m 23 1 = fld m 16 8 / 2 ^ 56 := fld_beat_high m 16
  unfold goodBeats
  rw [h8, h16]
  cases target <;> simp [Nat.div_eq_zero_iff]

theorem bit_one (v : Nat) : bit v 1 = decide (v / 2 % 2 = 1) := Nat.testBit_eq_decide_div_mod_eq ..

/-- STEP and PHASE of a good beat (R305). -/
theorem Beat.ofNat_spec {v : Nat} (h : v < 2 ^ 56) :
    (Beat.ofNat v).step.toNat = v / 2 ^ 16 ∧ (Beat.ofNat v).phase.toNat = v % 2 ^ 16 ∧ (Beat.ofNat v).toNat = v := by
  have hs : (Beat.ofNat v).step.toNat = v / 2 ^ 16 := by
    show (BitVec.ofNat 40 (v / 65536)).toNat = _
    rw [BitVec.toNat_ofNat]
    omega
  have hp : (Beat.ofNat v).phase.toNat = v % 2 ^ 16 := BitVec.toNat_ofNat ..
  refine ⟨hs, hp, ?_⟩
  unfold Beat.toNat
  rw [hs, hp]
  omega

/-! The source (R310, R314). -/

theorem State.pickSource_of_forced {s : State} (h : bits s.beatCfg 1 0 ≠ 0) : s.pickSource.toNat = bits s.beatCfg 1 0 := by
  have hlt : bits s.beatCfg 1 0 < 4 := Nat.mod_lt _ (by decide)
  unfold State.pickSource
  generalize bits s.beatCfg 1 0 = v at h hlt ⊢
  interval_cases v
  · exact absurd rfl h
  all_goals rfl

/-- The rows of Table 12.2, and a lost source that stays in use. -/
theorem State.pickSource_of_free {s : State} (h : bits s.beatCfg 1 0 = 0) :
    s.pickSource = if s.isManager then 1 else if s.portUp 2 then 2 else if s.beatPinen && s.beat.pinSeen then 3
      else if s.beat.held || decide (s.beat.actsrc = 2) then s.beat.actsrc else 1 := by
  unfold State.pickSource
  rw [h]
  rfl

end Sys2Proof.Machine

namespace Sys2Proof.Cert

open Sys2Proof.Machine

/-- Settles O39: the source is what `pickSource` answers, forced or by the rows in their order; `reSource` writes nothing of the slots. -/
theorem beatSourceByTable : Obligations.BeatSourceByTable := by
  unfold Obligations.BeatSourceByTable
  intro s
  refine ⟨State.pickSource_of_forced, fun h0 hman => ?_, fun h0 hman hup => ?_, fun h0 hman hup hpin hseen => ?_, fun h0 hman hup hno => ?_, rfl⟩
  all_goals refine (State.pickSource_of_free h0).trans ?_
  · simp [hman]
  · simp [hman, hup]
  · simp [hman, hup, hpin, hseen]
  · have hframes : (s.beatPinen && s.beat.pinSeen) = false := by rcases hno with h | h <;> simp [h]
    simp [hman, hup, hframes]

theorem exec_reportMarker (port : Nat) (copies : List (List Byte)) (s : State) :
    exec (.reportMarker port copies) s = execReportMarker port copies s := rfl

theorem exec_advanceMarker (copies : List (List Byte)) (s : State) : exec (.advanceMarker copies) s = execAdvanceMarker copies s := rfl

theorem exec_setMarker (copies : List (List Byte)) (s : State) : exec (.setMarker copies) s = execSetMarker copies s := rfl

theorem exec_beatInFrame (f : List Byte) (s : State) : exec (.beatInFrame f) s = execBeatInFrame f s := rfl

theorem tallied_keepsReach (s : State) (port : Nat) : KeepsReach s (tallied s port) := (State.count_keepsReach ..).count ..

section

variable {s : State} {port kind : Nat} {copies : List (List Byte)} {m : List Byte} (h : Received s port kind copies m)
include h

/-- A marker of its kind is counted and acted on (R427). -/
theorem Received.onMarker_eq (act : List Byte → State → State) : s.onMarker port kind copies act = act m (tallied s port) := by
  obtain ⟨hlow, hhigh, hup, hunit, hcopy, hkind⟩ := h
  unfold State.onMarker
  rw [if_pos ⟨hlow, hhigh, hup, hunit⟩, hcopy]
  exact if_pos hkind

/-- A report on a DNP is judged by its beats (R305, R428). -/
theorem Received.exec_reportMarker_eq (hk : kind = 3) (hport : port ≠ 2) : exec (.reportMarker port copies) s
    = .next (if goodBeats m (bit (fld m 5 1) 1) then (tallied s port).takeReport port m else (tallied s port).count pgBeat 4 1) := by
  subst hk
  rw [exec_reportMarker]
  unfold execReportMarker
  rw [if_neg hport, h.onMarker_eq]

theorem Received.exec_advanceMarker_eq (hp : port = 2) (hk : kind = 1) :
    exec (.advanceMarker copies) s = .next ((tallied s 2).takeMarker 1 m) := by
  subst hp hk
  exact congrArg _ (h.onMarker_eq _)

theorem Received.exec_setMarker_eq (hp : port = 2) (hk : kind = 2) :
    exec (.setMarker copies) s = .next ((tallied s 2).takeMarker 2 m) := by
  subst hp hk
  exact congrArg _ (h.onMarker_eq _)

end

theorem takeMarker_of_bad (s : State) (kind : Nat) {m : List Byte} (hbad : fld m 8 8 / 2 ^ 56 ≠ 0) :
    s.takeMarker kind m = s.count pgBeat 4 1 := by
  have hgood : goodBeats m false = false := by
    rw [Bool.eq_false_iff, Ne, goodBeats_iff]
    omega
  unfold State.takeMarker
  simp [hgood]

/-- Settles O38: a beat's highest byte is its bits [63:56], which each arm looks at first. -/
theorem badBeatsAreDiscarded : Obligations.BadBeatsAreDiscarded := by
  unfold Obligations.BadBeatsAreDiscarded
  refine ⟨fun s copies m hbad => ⟨fun h => ?_, fun h => ?_⟩, fun s f v rd h hbad hpin hopen => ?_,
    fun s port copies m h hport hbad => ?_, fun v hv => Beat.ofNat_spec hv, by decide⟩
  · rw [h.exec_advanceMarker_eq rfl rfl, takeMarker_of_bad _ _ hbad]
  · rw [h.exec_setMarker_eq rfl rfl, takeMarker_of_bad _ _ hbad]
  · have hhigh : fldBE f 2 1 = v / 2 ^ 56 := by
      rw [fldBE_beat_high (by rw [h.length]; decide), h.beat]
    rw [exec_beatInFrame]
    unfold execBeatInFrame
    rw [if_pos ⟨h.length, h.preamble, hpin, hopen⟩]
    exact if_pos (.inr (hhigh ▸ hbad))
  · have hgood : ¬ goodBeats m (bit (fld m 5 1) 1) = true := by
      rw [goodBeats_iff, bit_one, decide_eq_true_eq]
      rintro ⟨hbeat, htarget⟩
      rcases hbad with hb | ⟨ht, hb⟩
      · omega
      · exact absurd (htarget ht) (Nat.not_lt.mpr hb)
    rw [h.exec_reportMarker_eq rfl hport, if_neg hgood]

end Sys2Proof.Cert
end

section
/-! SUPPORT. Snapshots and latches (R320, R380, R382): a snapshot keeps its page, which holds; a half of BEAT_SLOT with a parity mismatch
reads as the word that mismatches, and not as the slot's beat. -/

namespace Sys2Proof.Machine

/-- Of its page, a raise changes the raw interrupts alone (R377). -/
theorem State.page_raise (s : State) (pg : Nat) (m : BitVec 6) :
    (s.raise pg m).page pg = { s.page pg with irqRaw := (s.page pg).irqRaw ||| m } := by
  unfold State.raise State.pageIrq
  dsimp only
  split
  · unfold State.page
    rw [(State.pkgEvent_changes ..).pages rfl]
    exact State.page_setPage ..
  · exact State.page_setPage ..

theorem State.capture_of_active {s : State} {pg : Nat} {i : PageInfo} (hi : s.pageInfo pg = some i) (hup : s.active i.dom = true) :
    s.capture pg = (s.setPage pg { s.page pg with hold := (s.page pg).cnt, snapBeat := s.slotBeat (s.pageSlot i.die) }).raise pg 0x20 := by
  unfold State.capture
  rw [hi]
  exact if_pos hup

end Sys2Proof.Machine

namespace Sys2Proof.Cert

open Sys2Proof.Machine

theorem exec_snapshotCapture (s : State) : exec .snapshotCapture s = execSnapshotCapture s := rfl

theorem snapshotCapturesPages : SnapshotCapturesPages := by
  refine ⟨fun s s1 pg scope r hq hs1 => ?_, fun s pg i hi hup => ?_, fun s pg i hi hdown => ?_⟩
  · rw [exec_snapshotCapture]
    unfold execSnapshotCapture
    rw [hq, hs1]
  · rw [State.capture_of_active hi hup, State.page_raise, State.page_setPage]
    refine ⟨rfl, rfl, rfl, ?_⟩
    rw [BitVec.getLsbD_or]
    exact Bool.or_true _
  · unfold State.capture
    simp [hi, hdown]

/-- A kindled package whose slots stand at beat (0, 0x0000). -/
def slotsAtZero : State :=
  { State.reset with
    supply := { Supply.reset with vinGood := true, vstbyGood := true }
    kind := { Kind.reset with phase := 7, pwr := true, qual := true, opts := true } }

/-- The same once the low word of BEAT_SLOT0 has been upset to 5, and a scan has found it (R380). -/
def slotWordUpset : State :=
  { slotsAtZero with
    pages := [(pgBeat, { Page.reset with
      err := { v := true, more := false, code := eCfgParity, off := 0x200 }, irqRaw := 3, badPar := [0x200], found := [0x200]
      cfg := [(0x200, 5)] })] }

/-- The state that a command leaves. -/
def stateAfter : Host.Outcome State Fault Refusal → Option State
  | .next t => some t
  | _ => none

/-- The package comes there by a PARITY_SCAN. -/
theorem slotWordUpset_of_scan : stateAfter (exec (.parityScan pgBeat [(0x200, 5)]) slotsAtZero) = some slotWordUpset := by decide +kernel

theorem slotWordUpset_reach : slotWordUpset.reach .s (pageAddr pgBeat + 0x200 + 8 * 0) 4 false 0
    = .ok (pgBeat, ⟨99, none, 0x12, 0⟩, 0x200 + 8 * 0) := rfl

/-- The read answers the mismatching word. -/
theorem slotWordUpset_answer : (stateAfter (exec (.beatSlotLoRead .s 0) slotWordUpset)).map State.out = some [.read 5] := by decide +kernel

theorem not_lowReadsLatchHighWords : ¬ LowReadsLatchHighWords := by
  rintro ⟨-, hslot, -⟩
  have hread := hslot slotWordUpset .s 0 _ (by decide +kernel) slotWordUpset_reach rfl
  have hanswer := slotWordUpset_answer
  rw [hread] at hanswer
  exact absurd hanswer (by decide +kernel)

/-- Refutes O45: where a scan has found a parity mismatch in the low word of a BEAT_SLOT (`slotWordUpset_of_scan`), the read answers that
word, and not the STEP and PHASE of the slot's beat, of which the block takes that half as 0 (R380). The part on snapshots holds:
`snapshotCapturesPages`. -/
theorem not_snapshotsAndLatchesHold : ¬ Obligations.SnapshotsAndLatchesHold := by
  unfold Obligations.SnapshotsAndLatchesHold
  rintro ⟨-, h⟩
  exact not_lowReadsLatchHighWords h

end Sys2Proof.Cert
end

section
/-! SUPPORT. Announcements of a beat (R308 to R314, R426 to R428): reports and markers on a package whose tree slot runs no step, and the
end of a beat's delay. -/

namespace Sys2Proof.Machine

/-! A beat that waits for its delay. -/

theorem State.nextBeat_of_insert {s : State} {m : SMap Beat} {k : Nat} {b : Beat} (h : s.beat.next = SMap.insert m k b) :
    s.nextBeat k = some b := by
  unfold State.nextBeat
  rw [h, find?_insert_self]
  rfl

theorem State.nextBeat_applyBeat (s : State) (k : Nat) (b : Beat) (intact : Bool) : (s.applyBeat k b intact).nextBeat k = none := by
  unfold State.nextBeat
  rw [State.applyBeat_beat]
  simp [BeatUnit.moved, SMap.erase]

/-- Without a step on its slot, a beat of another source is applied (R308). -/
theorem State.followBeat_of_idle {s : State} {k : Nat} (h : ∀ p, s.slotCtx k = some p → p.2.step = none) (b : Beat) (intact : Bool) :
    s.followBeat k b intact = s.applyBeat k b intact := by
  unfold State.followBeat
  split
  · rfl
  · next p hp =>
    rw [h _ hp]

/-! A package whose tree slot has no context. -/

/-- A report is kept with its SUB; one of another attempt than the first leaves its SUB alone (R428). -/
theorem State.takeReport_of_no_tree {s : State} (h : s.treeCtx = none) (port : Nat) (m : List Byte) :
    s.takeReport port m =
      if fld m 4 1 ≠ 0 then s.setPort port { s.port port with sub := fld m 6 2 }
      else (s.setPort port { s.port port with sub := fld m 6 2 }).setBeat
        { s.beat with reports := SMap.insert s.beat.reports port (some (reportOf m)) } := by
  have hport : (s.setPort port { s.port port with sub := fld m 6 2 }).treeCtx = none := h
  have hbeat : ((s.setPort port { s.port port with sub := fld m 6 2 }).setBeat
      { s.beat with reports := SMap.insert s.beat.reports port (some (reportOf m)) }).treeCtx = none := h
  have hsub : (reportOf m).sub = fld m 6 2 := rfl
  have hatt : (reportOf m).att = fld m 4 1 := rfl
  unfold State.takeReport
  simp only [hsub, hatt, hport, State.setPort_beat, hbeat]

/-- The state once its source has sent a beat again: no beat is held for want of one (R314). -/
def State.unheld (s : State) : State := s.setBeat { s.beat with held := false }

/-- A beat of the source in use on a package without a step in the tree slot and without a restored STEP (R311). -/
theorem State.takeBeat_of_no_tree {s : State} (htree : s.treeCtx = none) (hres : s.beat.restored = none) (set : Bool) (b : Beat) (rd : Int) :
    s.takeBeat set b rd =
      if (!set && decide (b = s.slotBeat s.tslot)) = true then s.unheld
      else if rd ≤ 0 then (s.unheld.count pgBeat 3 1).applyBeat s.tslot b false
      else s.unheld.setBeat { s.unheld.beat with next := SMap.insert s.beat.next s.tslot b, late := false } := by
  have hjudged : s.unheld.judgeRestored b = s.unheld := by
    unfold State.judgeRestored
    rw [show s.unheld.beat.restored = none from hres]
  have hannounced : ((s.setBeat { s.beat with held := false }).judgeRestored b).announce set b = s.unheld := by
    rw [show (s.setBeat { s.beat with held := false }).judgeRestored b = s.unheld from hjudged]
    unfold State.announce
    rw [show s.unheld.treeCtx = none from htree]
  have hidle : ∀ p, (s.unheld.count pgBeat 3 1).slotCtx s.tslot = some p → p.2.step = none := fun p hp => by
    rw [(State.count_keepsReach ..).slotCtx, show s.unheld.slotCtx s.tslot = none from htree] at hp
    cases hp
  unfold State.takeBeat
  simp only [hannounced, State.followBeat_of_idle hidle]
  rfl

theorem State.sendFrameOut_of_off {s : State} (h : s.beatOuten = false) (k : Nat) (b : Beat) (rd : Nat) : s.sendFrameOut k b rd = s := by
  unfold State.sendFrameOut
  simp [h]

/-- A frame on BEAT_OUT leaves what beats are followed by. -/
theorem State.sendFrameOut_view (s : State) (k : Nat) (b : Beat) (rd : Nat) : (s.sendFrameOut k b rd).beat = s.beat
    ∧ (s.sendFrameOut k b rd).tslot = s.tslot ∧ (s.sendFrameOut k b rd).treeCtx = s.treeCtx := by
  unfold State.sendFrameOut
  split
  · have hcount := State.count_keepsReach (s.addOut (.beatFrame (beatFrame b (rd - frameSclk)))) pgBeat 1 1
    exact ⟨hcount.beat, hcount.tslot, hcount.treeCtx⟩
  · exact ⟨rfl, rfl, rfl⟩

/-- A good marker on a worker that has nothing to forward it to is followed (R311). -/
theorem State.takeMarker_of_leaf {s : State} {kind : Nat} {m : List Byte} (hgood : fld m 8 8 < 2 ^ 56) (hsrc : s.beat.actsrc = 2)
    (hleaf : s.dnps = []) (hout : s.beatOuten = false) : s.takeMarker kind m
      = { s with fresh := s.fresh + 1 }.takeBeat (decide (kind = 2)) (Beat.ofNat (fld m 8 8)) ((fld m 2 2 : Int) - s.beatUplat) := by
  have hok : goodBeats m false = true := (goodBeats_iff m false).mpr ⟨hgood, by simp⟩
  have hleaf' : { s with fresh := s.fresh + 1 }.dnps = [] := hleaf
  have hout' : { s with fresh := s.fresh + 1 }.beatOuten = false := hout
  unfold State.takeMarker
  simp only [hok, hsrc, hleaf', List.foldl_nil, State.sendFrameOut_of_off hout', ite_self, if_true, Bool.not_true, Bool.false_eq_true, if_false]

end Sys2Proof.Machine

namespace Sys2Proof.Cert

open Sys2Proof.Machine

theorem reportMarkersAreKept : ReportMarkersAreKept := by
  intro s u port copies m h hport hu hbeat htarget
  have hgood : goodBeats m (bit (fld m 5 1) 1) = true := by
    rw [goodBeats_iff, bit_one, decide_eq_true_eq]
    exact ⟨hbeat, htarget⟩
  have hexec : exec (.reportMarker port copies) s = .next (u.takeReport port m) := by
    rw [h.exec_reportMarker_eq rfl hport, if_pos hgood, hu]
  have htally : KeepsReach s u := hu ▸ tallied_keepsReach s port
  have hslots : u.beat.slots = s.beat.slots := by rw [htally.beat]
  refine ⟨hexec, fun htree hatt => ?_, fun htree hatt => ?_⟩
  all_goals rw [hexec, State.takeReport_of_no_tree (htally.treeCtx.trans htree)]
  · rw [if_neg (not_not.mpr hatt)]
    exact ⟨_, rfl, congrArg Port.sub (State.port_setPort ..), (SMap.get_insert ..).trans (if_pos rfl), hslots⟩
  · rw [if_pos hatt]

theorem markersAnnounceBeats : MarkersAnnounceBeats := by
  intro s kind i copies m b hi h hgood hb hsrc hleaf hout htree hres
  have hexec : exec i s = .next ((tallied s 2).takeMarker kind m) := by
    rcases hi with ⟨rfl, rfl⟩ | ⟨rfl, rfl⟩
    · exact h.exec_advanceMarker_eq rfl rfl
    · exact h.exec_setMarker_eq rfl rfl
  have htally := tallied_keepsReach s 2
  have hview : KeepsReach s { tallied s 2 with fresh := (tallied s 2).fresh + 1 } :=
    htally.trans (.of_changes (Changes.set_fresh _ _ (Nat.le_succ _)))
  have hsrc' : (tallied s 2).beat.actsrc = 2 := by rw [htally.beat, hsrc]
  have hout' : (tallied s 2).beatOuten = false := (congrArg (bit · 17) htally.beatCfg).trans hout
  rw [hexec, State.takeMarker_of_leaf hgood hsrc' (htally.dnps.trans hleaf) hout', htally.beatUplat, ← hb]
  generalize { tallied s 2 with fresh := (tallied s 2).fresh + 1 } = v at hview
  rw [State.takeBeat_of_no_tree (hview.treeCtx.trans htree) (by rw [hview.beat, hres]), hview.tslot, hview.slotBeat]
  have hslots : v.beat.slots = s.beat.slots := by rw [hview.beat]
  have hnext : v.beat.next = s.beat.next := by rw [hview.beat]
  have hnew : kind = 2 ∨ b ≠ s.slotBeat s.tslot → ¬(!decide (kind = 2) && decide (b = s.slotBeat s.tslot)) = true := by
    rintro (hset | hne)
    · simp [hset]
    · simp [hne]
  refine ⟨fun hlate hne => ?_, fun hlate hne => ?_, fun hadvance hsame => ?_⟩
  · rw [if_neg (hnew hne), if_neg (by omega)]
    exact ⟨_, rfl, State.nextBeat_of_insert rfl, hslots, rfl⟩
  · rw [if_neg (hnew hne), if_pos (by omega)]
    exact ⟨_, rfl, State.slotBeat_applyBeat .., State.aligned_applyBeat ..⟩
  · rw [if_pos (by simp [hadvance, hsame])]
    exact ⟨_, rfl, hslots, hnext, rfl⟩

end Sys2Proof.Cert
end

section
/-! SUPPORT. The beat's commands (R308, R311, R313, R314, R427): repeats, the end of a delay, frames of BEAT_IN, a lost source. -/

namespace Sys2Proof.Machine

/-- What rests on a state's registers and contexts alone does not rest on its beat unit. -/
theorem State.setBeat_view (s : State) (b : BeatUnit) : (s.setBeat b).tslot = s.tslot ∧ (s.setBeat b).treeCtx = s.treeCtx
    ∧ (s.setBeat b).beatPinlat = s.beatPinlat := ⟨rfl, rfl, rfl⟩

theorem State.reSource_eq (s : State) :
    s.reSource = s.setBeat { s.beat with actsrc := s.pickSource, held := s.beat.held && decide (s.pickSource = s.beat.actsrc) } := rfl

end Sys2Proof.Machine

namespace Sys2Proof.Cert

open Sys2Proof.Machine

theorem exec_rootMarkerRepeat (s : State) : exec .rootMarkerRepeat s = execRootMarkerRepeat s := rfl

theorem exec_beatOutRepeat (s : State) : exec .beatOutRepeat s = execBeatOutRepeat s := rfl

theorem exec_beatApply (k : Nat) (s : State) : exec (.beatApply k) s = execBeatApply k s := rfl

theorem exec_beatSourceLost (s : State) : exec .beatSourceLost s = execBeatSourceLost s := rfl

/-- The delay of a beat that nothing holds has run out: it takes effect on its slot (R311). -/
theorem exec_beatApply_of_free {s : State} {k : Nat} {b : Beat} (hnext : s.nextBeat k = some b) (hheld : s.beatHeldAt k = false)
    (hopen : s.isOpen pgBeat = true)
    (hidle : ∀ p, s.slotCtx k = some p → p.2.step = none ∧ (b.phase = phaseCommit → s.holdRuns p.1 = false)) :
    exec (.beatApply k) s = .next (s.applyBeat k b (!(decide (k = s.tslot) && s.beat.late))) := by
  rw [exec_beatApply]
  unfold execBeatApply
  simp only [hnext, hheld, hopen, Bool.or_false, Bool.not_true]
  rw [if_neg, State.followBeat_of_idle fun p hp => (hidle p hp).1]
  split
  · next p hp => simpa using (hidle p hp).2
  · simp

/-- A commit phase waits for the copy with HOLD of its slot's context (R351). -/
theorem exec_beatApply_of_hold {s : State} {k ctx : Nat} {c : Ctx} {b : Beat} (hnext : s.nextBeat k = some b)
    (hctx : s.slotCtx k = some (ctx, c)) (hphase : b.phase = phaseCommit) (hhold : s.holdRuns ctx = true) :
    exec (.beatApply k) s = .next s := by
  rw [exec_beatApply]
  unfold execBeatApply
  simp [hnext, hctx, hphase, hhold]

/-! BEAT_IN (R313). -/

/-- BEAT_IN has brought a frame. -/
def frameSeen (s : State) : State := s.setBeat { s.beat with pinSeen := true }

/-- The state once a good frame has been counted and its source judged. -/
def framed (s : State) : State := (frameSeen (s.count pgBeat 2 1)).reSource

/-- A good frame is followed where BEAT_IN is the source then. -/
theorem Frame.exec_beatInFrame_eq {s : State} {f : List Byte} {v rd : Nat} (h : Frame f v rd) (hgood : v < 2 ^ 56)
    (hpin : s.beatPinen = true) (hopen : s.isOpen pgBeat = true) (hsrc : (framed s).beat.actsrc = 3) :
    ∃ u : State, exec (.beatInFrame f) s = .next (u.takeBeat false (Beat.ofNat v) ((rd : Int) - (framed s).beatPinlat))
      ∧ u.beat = (framed s).beat ∧ u.tslot = (framed s).tslot ∧ u.treeCtx = (framed s).treeCtx := by
  have hhigh : fldBE f 2 1 = 0 := by
    rw [fldBE_beat_high (by rw [h.length]; decide), h.beat, Nat.div_eq_of_lt hgood]
  rw [exec_beatInFrame]
  unfold execBeatInFrame
  rw [if_pos ⟨h.length, h.preamble, hpin, hopen⟩]
  dsimp only
  rw [if_neg (not_or.mpr ⟨not_not.mpr h.crc, not_not.mpr hhigh⟩), h.beat, h.delay]
  refine ⟨_, if_pos hsrc, ?_⟩
  split
  · exact ⟨rfl, rfl, rfl⟩
  · exact State.sendFrameOut_view ..

/-- With no row of Table 12.2 before it, BEAT_IN is the source from its first good frame on (R310). -/
theorem framed_beat {s : State} (hpin : s.beatPinen = true) (hcfg : bits s.beatCfg 1 0 = 0) (hman : s.isManager = false)
    (hup : s.portUp 2 = false) : ∃ held, (framed s).beat = { s.beat with pinSeen := true, actsrc := 3, held := held } := by
  have hcount := State.count_keepsReach s pgBeat 2 1
  have hbeat := hcount.beat
  have hcfg' : (s.count pgBeat 2 1).beatCfg = s.beatCfg := hcount.beatCfg
  have hman' : (s.count pgBeat 2 1).isManager = false := by
    rw [← hman]
    exact congrArg (fun e : Ember => e.straps.getLsbD 2) (hcount.changes.ember rfl)
  have hup' : (s.count pgBeat 2 1).portUp 2 = false := (hcount.portUp 2).trans hup
  have hpin' : (s.count pgBeat 2 1).beatPinen = true := by
    rw [← hpin]
    unfold State.beatPinen
    rw [hcfg']
  unfold framed
  generalize s.count pgBeat 2 1 = u at *
  have hpick : (frameSeen u).pickSource = 3 := by
    have hfree : bits (frameSeen u).beatCfg 1 0 = 0 := by rw [show (frameSeen u).beatCfg = s.beatCfg from hcfg', hcfg]
    have hframes : ((frameSeen u).beatPinen && (frameSeen u).beat.pinSeen) = true := by
      rw [show (frameSeen u).beatPinen = true from hpin']
      rfl
    rw [State.pickSource_of_free hfree, show (frameSeen u).isManager = false from hman', show (frameSeen u).portUp 2 = false from hup', hframes]
    rfl
  refine ⟨u.beat.held && decide (3 = u.beat.actsrc), ?_⟩
  rw [State.reSource_eq, hpick, ← hbeat]
  rfl

theorem framed_view (s : State) : (framed s).tslot = s.tslot ∧ (framed s).treeCtx = s.treeCtx ∧ (framed s).beatPinlat = s.beatPinlat := by
  have hcount := State.count_keepsReach s pgBeat 2 1
  have hpinlat : (s.count pgBeat 2 1).beatPinlat = s.beatPinlat :=
    congrArg (fun w : Word => bits w.toNat 15 0) (hcount.cfg pgBeat 0x10C 0)
  rw [← hcount.tslot, ← hcount.treeCtx, ← hpinlat]
  unfold framed
  generalize s.count pgBeat 2 1 = u
  rw [State.reSource_eq]
  simp only [frameSeen, State.setBeat_view, and_self]

theorem beatInFrameWaits {s : State} {f : List Byte} {v rd : Nat} (h : Frame f v rd) (hgood : v < 2 ^ 56) (hpin : s.beatPinen = true)
    (hcfg : bits s.beatCfg 1 0 = 0) (hopen : s.isOpen pgBeat = true) (hman : s.isManager = false) (hup : s.portUp 2 = false)
    (htree : s.treeCtx = none) (hres : s.beat.restored = none) (hlate : s.beatPinlat < rd) (hnew : Beat.ofNat v ≠ s.slotBeat s.tslot) :
    ∃ t : State, exec (.beatInFrame f) s = .next t ∧ t.beat.actsrc = 3 ∧ t.beat.pinSeen = true ∧ t.beat.slots = s.beat.slots
      ∧ t.nextBeat s.tslot = some (Beat.ofNat v) := by
  obtain ⟨held, hbeat⟩ := framed_beat hpin hcfg hman hup
  obtain ⟨htslot, htreeCtx, hpinlat⟩ := framed_view s
  obtain ⟨u, hexec, hubeat, hutslot, hutree⟩ := h.exec_beatInFrame_eq hgood hpin hopen (by rw [hbeat])
  have hu := hubeat.trans hbeat
  have hslot : u.slotBeat u.tslot = s.slotBeat s.tslot := by
    unfold State.slotBeat
    rw [hu, hutslot, htslot]
  rw [hexec, hpinlat, State.takeBeat_of_no_tree ((hutree.trans htreeCtx).trans htree) (by rw [hu]; exact hres), hslot,
    if_neg (by simp [hnew]), if_neg (by omega), hutslot, htslot]
  have hfields : u.beat.actsrc = 3 ∧ u.beat.pinSeen = true ∧ u.beat.slots = s.beat.slots := by
    rw [hu]
    exact ⟨rfl, rfl, rfl⟩
  obtain ⟨hactsrc, hseen, hslots⟩ := hfields
  exact ⟨_, rfl, hactsrc, hseen, hslots, State.nextBeat_of_insert rfl⟩

theorem beatSourceLostHolds {s : State} (hheld : s.beat.held = false) (hopen : s.isOpen pgBeat = true)
    (hsrc : s.beat.actsrc = 2 ∧ s.portUp 2 = false ∨ s.beat.actsrc = 3) :
    ∃ t : State, exec .beatSourceLost s = .next t ∧ t.beat.held = true ∧ t.beat.actsrc = s.beat.actsrc ∧ t.beat.slots = s.beat.slots := by
  have hlost : ((decide (s.beat.actsrc = 2) && !s.portUp 2) || decide (s.beat.actsrc = 3)) = true := by
    rcases hsrc with ⟨h2, hup⟩ | h3
    · simp [h2, hup]
    · simp [h3]
  rw [exec_beatSourceLost]
  unfold execBeatSourceLost
  simp only [hlost, hheld, hopen, Bool.not_false, Bool.and_self, if_true]
  refine ⟨_, rfl, ?_⟩
  split
  · rw [(State.beatEvent_changes ..).beat rfl]
    exact ⟨rfl, rfl, rfl⟩
  · rw [(State.beatEvent_changes ..).beat rfl]
    exact ⟨rfl, rfl, rfl⟩

end Sys2Proof.Cert
end

section
/-! SUPPORT. The end of a prefetch (R355): its pieces, copied one after another by work on its destination alone, and the credits. -/

namespace Sys2Proof.Machine

/-- Credits that flow back change the draught alone (R328). -/
theorem State.returnCredits_eq (s : State) (u n : Nat) : ∃ d, s.returnCredits u n = s.setDrt d := by
  unfold State.returnCredits
  split
  · exact ⟨s.drt, rfl⟩
  · split
    · exact ⟨s.drt, rfl⟩
    · dsimp only
      split
      all_goals exact ⟨_, rfl⟩

theorem State.returnAll_eq : ∀ (l : List Nat) (s : State), ∃ d, l.foldl (fun t e => t.returnCredits (dma7 e) 1) s = s.setDrt d
  | [], s => ⟨s.drt, rfl⟩
  | e :: l, s => by
    obtain ⟨d, hd⟩ := s.returnCredits_eq (dma7 e) 1
    obtain ⟨x, hx⟩ := State.returnAll_eq l (s.setDrt d)
    exact ⟨x, by rw [List.foldl_cons, hd, hx]; rfl⟩

end Sys2Proof.Machine

namespace Sys2Proof.Cert

open Sys2Proof.Machine

theorem State.leftDie_counts (s : State) (d q : Nat) (r : Nat × Nat) : Counts s (s.leftDie d q r) := by
  unfold State.leftDie
  split
  · split
    · exact State.count_counts ..
    · exact .refl s
  · exact .refl s

theorem State.moved_counts (s : State) (w : Who) (d port : Nat) (src : Option Nat) (dst n : Nat) : Counts s (s.moved w d port src dst n) := by
  unfold State.moved
  refine .trans ?_ (Counts.foldl (fun t r => State.sendRun_counts ..) _ _)
  split
  · exact Counts.foldl (fun t r => (State.fetchRun_counts ..).trans (State.leftDie_counts ..)) _ _
  · exact .refl s

/-- Two ranges within reach read alike where their bytes are alike, one by one. -/
theorem Open.read_eq_iff {s t : State} {w : Who} {a b n : Nat} (ha : Open s w a n) (hb : Open t w b n) :
    t.read w b n = s.read w a n
      ↔ ∀ i < n, ∀ p q, s.resolve w (a + i) = .ok p → t.resolve w (b + i) = .ok q → t.byte q = s.byte p := by
  obtain ⟨l, hl⟩ := exists_read_of_open ha
  obtain ⟨hlen, hbytes⟩ := ha.read_iff.mp hl
  rw [hl, hb.read_iff]
  constructor
  · rintro ⟨-, h⟩ i hi p q hp hq
    exact Option.some.inj ((h i q hq hi).symm.trans (hbytes i p hp hi))
  · intro h
    refine ⟨hlen, fun i q hq hi => ?_⟩
    obtain ⟨p, hp, -⟩ := ha i hi
    rw [hbytes i p hp hi, h i hi p q hp hq]

/-- Every part but those behind the end holds a byte. -/
theorem mul_lt_of_lt_ceilDiv {m n l : Nat} (hl : 0 < l) (h : m < ceilDiv n l) : m * l < n := by
  rw [ceilDiv, if_neg (Nat.ne_of_gt hl), Nat.lt_div_iff_mul_lt hl] at h
  omega

/-- The parts hold every byte. -/
theorem le_ceilDiv_mul {l : Nat} (n : Nat) (hl : 0 < l) : n ≤ ceilDiv n l * l := by
  rw [ceilDiv, if_neg (Nat.ne_of_gt hl)]
  have hrest := Nat.mod_lt (n + l - 1) hl
  have hdiv := Nat.div_add_mod' (n + l - 1) l
  omega

/-- Two laid ranges. -/
theorem Laid.pair {s : State} {w : Who} {x : Queue} {a b : Nat × Nat} (h : Laid s w x [a, b]) :
    (Open s w a.1 a.2 ∧ OffRing s w (s.queue 0) a) ∧ (Open s w b.1 b.2 ∧ OffRing s w (s.queue 0) b ∧ OffRing s w x b) ∧ Apart s w a b :=
  ⟨⟨h.reach a (by simp), (h.off a (by simp)).1⟩, ⟨h.reach b (by simp), h.off b (by simp)⟩, (List.pairwise_pair.mp h.apart)⟩

section

variable {s t u : State} {c : Ctx} {f : Prefetch} {x : Queue}

/-- A piece whose bytes are read and written is counted. -/
theorem exists_movePiece_of_write (k : Nat) {o n : Nat} {b : List Byte} (hb : s.read (.desc c) (f.src.toNat + o) n = .ok b)
    (ht : s.write (.desc c) (f.dst.toNat + o) b = .ok t) : ∃ u, s.movePiece c f k (o, n) = .ok u ∧ Counts t u := by
  unfold State.movePiece
  simp only [hb, ht, ok_bind]
  exact ⟨_, rfl, ((State.count_counts ..).count ..).trans (State.moved_counts ..)⟩

/-- A piece of a prefetch is copied by work on its part of the destination. -/
theorem exists_movePiece (k : Nat) {o n : Nat} (hs : Open s (.desc c) (f.src.toNat + o) n) (hd : Open s (.desc c) (f.dst.toNat + o) n)
    (hoff : OffRing s (.desc c) (s.queue 0) (f.dst.toNat + o, n)) :
    ∃ t, s.movePiece c f k (o, n) = .ok t ∧ Works (.desc c) [(f.dst.toNat + o, n)] s t
      ∧ t.read (.desc c) (f.dst.toNat + o) n = s.read (.desc c) (f.src.toNat + o) n := by
  obtain ⟨b, hb⟩ := exists_read_of_open hs
  have hlen := length_of_read hb
  subst hlen
  obtain ⟨t, ht, hworks, hread⟩ := hd.exists_works
  obtain ⟨u, hu, hcount⟩ := exists_movePiece_of_write k hb ht
  exact ⟨u, hu, hworks.trans (hcount.works ..), ((hcount.read (hworks.open hd) (hworks.off hoff)).trans hread).trans hb.symm⟩

/-- From `s` to `t` the first `n` bytes of a prefetch have been copied, by work on its destination alone. -/
structure Copied (c : Ctx) (f : Prefetch) (n : Nat) (s t : State) : Prop where
  works : Works (.desc c) [(f.dst.toNat, f.len)] s t
  copied : ∀ i < n, ∀ p q, s.resolve (.desc c) (f.src.toNat + i) = .ok p → s.resolve (.desc c) (f.dst.toNat + i) = .ok q →
    t.byte q = s.byte p

/-- The next piece copies the bytes that follow. -/
theorem Copied.piece {o n : Nat} (h : Laid s (.desc c) x [(f.src.toNat, f.len), (f.dst.toNat, f.len)]) (hc : Copied c f o s t)
    (hn : o + n ≤ f.len) (hw : Works (.desc c) [(f.dst.toNat + o, n)] t u)
    (hr : u.read (.desc c) (f.dst.toNat + o) n = t.read (.desc c) (f.src.toNat + o) n) : Copied c f (o + n) s u := by
  obtain ⟨⟨hs, hsoff⟩, ⟨hd, hdoff, -⟩, hapart⟩ := h.pair
  dsimp only at hs hd
  have hwhole : Works (.desc c) [(f.dst.toNat, f.len)] s u := hc.works.trans (hw.mono fun y hy => ⟨_, List.mem_cons_self, by
    rw [List.mem_singleton.mp hy]
    exact ⟨Nat.le_add_right .., by dsimp only; omega⟩⟩)
  refine ⟨hwhole, fun i hi p q hp hq => ?_⟩
  by_cases hio : i < o
  · rw [← hc.copied i hio p q hp hq]
    refine hw.bytes q (fun hin => hdoff i (by dsimp only; omega) q hq ((inRing_congr (hc.works.ring 0) q).mp hin)) fun y hy => ?_
    rw [List.mem_singleton.mp hy, hc.works.named]
    rintro ⟨j, hj, hqj⟩
    dsimp only at hj hqj
    rw [Nat.add_assoc] at hqj
    have := hd.resolve_inj (by omega) (by omega) hq hqj
    omega
  · obtain ⟨j, rfl⟩ := Nat.exists_eq_add_of_le (Nat.le_of_not_lt hio)
    rw [← Nat.add_assoc] at hp hq
    have hsrc : t.byte p = s.byte p := by
      refine hc.works.bytes p (hsoff (o + j) (by dsimp only; omega) p (by rwa [← Nat.add_assoc])) fun y hy => ?_
      rw [List.mem_singleton.mp hy]
      exact apart_iff.mp hapart p ⟨o + j, by dsimp only; omega, by rwa [← Nat.add_assoc]⟩
    rw [← hsrc]
    exact ((hc.works.open (hs.part hn)).read_eq_iff (hwhole.open (hd.part hn))).mp hr j (by omega) p q (by rw [hc.works.resolve, hp])
      (by rw [hwhole.resolve, hq])

/-- The first `m` pieces, of `l` bytes each but the last, are copied one after another. -/
theorem Copied.exists_pieces (h : Laid s (.desc c) x [(f.src.toNat, f.len), (f.dst.toNat, f.len)]) (hc : Copied c f 0 s u) {l : Nat}
    (hl : 0 < l) : ∀ m, m ≤ ceilDiv f.len l → ∃ t,
      ((List.range m).map fun k => (k * l, min l (f.len - k * l))).zipIdx.foldlM (fun t p => t.movePiece c f p.2 p.1) u = .ok t
        ∧ Copied c f (min f.len (m * l)) s t := by
  obtain ⟨⟨hs, -⟩, ⟨hd, hdoff, -⟩, -⟩ := h.pair
  intro m
  induction m with
  | zero => exact fun _ => ⟨u, rfl, by simpa using hc⟩
  | succ m ih =>
    intro hm
    obtain ⟨t, ht, hcopied⟩ := ih (Nat.le_of_succ_le hm)
    have hlt : m * l < f.len := mul_lt_of_lt_ceilDiv hl hm
    generalize hn : min l (f.len - m * l) = n
    have hfit : m * l + n ≤ f.len := by omega
    rw [Nat.min_eq_right (Nat.le_of_lt hlt)] at hcopied
    obtain ⟨v, hv, hworks, hread⟩ := exists_movePiece m (hcopied.works.open (hs.part hfit)) (hcopied.works.open (hd.part hfit))
      (hcopied.works.off (hdoff.inside ⟨Nat.le_add_right .., by dsimp only; omega⟩))
    refine ⟨v, ?_, ?_⟩
    · rw [List.range_succ, List.map_append, List.zipIdx_append, List.foldlM_append, ht]
      simp [hn, hv, pure, Except.pure]
    · rw [show min f.len ((m + 1) * l) = m * l + n by rw [Nat.add_mul]; omega]
      exact hcopied.piece h hfit hworks hread

/-- All pieces are copied. -/
theorem Copied.exists_movePieces (h : Laid s (.desc c) x [(f.src.toNat, f.len), (f.dst.toNat, f.len)]) (hc : Copied c f 0 s u) :
    ∃ t, u.movePieces c f = .ok t ∧ Copied c f f.len s t := by
  have hl : 0 < pieceLen := by decide
  obtain ⟨t, ht, hcopied⟩ := hc.exists_pieces h hl _ (le_refl _)
  rw [Nat.min_eq_left (le_ceilDiv_mul f.len hl)] at hcopied
  exact ⟨t, ht, hcopied⟩

/-- The event that ends a prefetch leaves what was copied where it lies off the event's ring. -/
theorem Copied.read_event {w : State} (h : Laid s (.desc c) (s.queue f.q) [(f.src.toNat, f.len), (f.dst.toNat, f.len)])
    (hc : Copied c f f.len s t) (hm : w.mem = t.mem) (hq : w.queues = t.queues) (hres : ∀ v a, w.resolve v a = t.resolve v a)
    (hue : ∀ p, w.isUe p = t.isUe p) (r : EventRec) :
    (w.event f.q r).read (.desc c) f.dst.toNat f.len = s.read (.desc c) f.src.toNat f.len := by
  obtain ⟨⟨hs, -⟩, ⟨hd, -, hoff⟩, -⟩ := h.pair
  have hkeep : KeepsReach w (w.event f.q r) := .of_changes (State.event_changes ..)
  have hw : Works (.desc c) [(f.dst.toNat, f.len)] s w := hc.works.trans (.of_same hres hue hq hm _)
  have hopen : Open (w.event f.q r) (.desc c) f.dst.toNat f.len := (hw.open hd).keep hkeep
  refine (hs.read_eq_iff hopen).mpr fun i hi p q hp hqq => ?_
  rw [hkeep.resolve, hw.resolve] at hqq
  rw [(State.event_staysInRing w f.q r).bytes q fun hin => hoff i hi q hqq ((inRing_congr (hw.ring f.q) q).mp hin), ← hc.copied i hi p q hp hqq]
  unfold State.byte
  rw [hm]

end

/-- The state in which the pieces of a prefetch with its credits are copied: it waits no longer, and its credits are back. -/
def credited (s : State) (i : Nat) (f : Prefetch) : State :=
  f.held.foldl (fun t d => t.returnCredits (dma7 d) 1) { s with prefetch := dropAt s.prefetch i }

/-- A state that differs in the draught and the waiting prefetches alone. -/
theorem credited_view (s : State) (i : Nat) (f : Prefetch) :
    (∀ v a, (credited s i f).resolve v a = s.resolve v a) ∧ (∀ p, (credited s i f).isUe p = s.isUe p) ∧ (credited s i f).queues = s.queues
      ∧ (credited s i f).mem = s.mem ∧ (credited s i f).psync = s.psync ∧ (credited s i f).lsync = s.lsync
      ∧ (credited s i f).prefetch = s.prefetch.eraseIdx i := by
  obtain ⟨d, hd⟩ := State.returnAll_eq f.held { s with prefetch := dropAt s.prefetch i }
  rw [credited, hd]
  exact ⟨fun _ _ => rfl, fun _ => rfl, rfl, rfl, rfl, rfl, dropAt_eq_eraseIdx ..⟩

/-- What follows the pieces of a prefetch: SYNC is signalled, and the event is reported (R355). -/
def prefetched (c : Ctx) (f : Prefetch) (t : State) : State :=
  (t.signal (syncRef c 0 f.sync.toNat) false f.add).beatEvent f.q f.ctx f.tag .done 0 0
    ((t.signal (syncRef c 0 f.sync.toNat) false f.add).slotBeat f.slot) (leBytes 2 f.idx)

theorem prefetched_prefetch (c : Ctx) (f : Prefetch) (t : State) : (prefetched c f t).prefetch = t.prefetch :=
  ((State.beatEvent_changes ..).prefetch rfl).trans ((State.signal_changes ..).prefetch rfl)

theorem prefetched_syncObj {c : Ctx} {f : Prefetch} {j : Nat} (h : syncRef c 0 f.sync.toNat = .package j) (t : State) :
    (prefetched c f t).syncObj (.package j)
      = { count := (t.syncObj (.package j)).count + f.add, epoch := (t.syncObj (.package j)).epoch } := by
  have hnamed : (SyncRef.package j).Named := ⟨nofun, nofun⟩
  have hsignal := t.syncObj_signal false f.add hnamed
  unfold prefetched
  rw [h]
  exact (State.syncObj_congr ((State.beatEvent_changes ..).psync rfl) ((State.beatEvent_changes ..).lsync rfl) _).trans hsignal

/-- A signal to a package object leaves memory and what is read of it. -/
theorem signal_package_view (t : State) (j : Nat) (add : BitVec 32) :
    (t.signal (.package j) false add).mem = t.mem ∧ (t.signal (.package j) false add).queues = t.queues
      ∧ (∀ v a, (t.signal (.package j) false add).resolve v a = t.resolve v a)
      ∧ ∀ p, (t.signal (.package j) false add).isUe p = t.isUe p :=
  ⟨rfl, rfl, fun _ _ => rfl, fun _ => rfl⟩

/-- No engine lacks its credit. -/
theorem any_not_mem_eq_false {dies held : List Nat} (h : ∀ d ∈ dies, d ∈ held) : (dies.any fun d => !decide (d ∈ held)) = false := by
  simpa using h

/-- A prefetch with its credits, whose pieces can be copied, signals and ends with its event (R355). -/
theorem execPrefetchComplete_of_pieces {s t : State} {i : Nat} {f : Prefetch} {c : Ctx} (hf : s.prefetch[i]? = some f)
    (hctx : s.ctx? f.ctx = some c) (hheld : ∀ d ∈ f.dies c, d ∈ f.held) (ht : (credited s i f).movePieces c f = .ok t) :
    execPrefetchComplete i s = .next (prefetched c f t) := by
  unfold credited at ht
  unfold execPrefetchComplete prefetched
  split
  next hnone => exact nomatch hnone.symm.trans hf
  next g hg =>
    obtain rfl := Option.some.inj (hg.symm.trans hf)
    extract_lets s1
    split
    next hnone => exact nomatch hnone.symm.trans hctx
    next b hb =>
      obtain rfl := Option.some.inj (hb.symm.trans hctx)
      extract_lets w
      rw [any_not_mem_eq_false hheld, if_neg Bool.false_ne_true]
      split
      next v hv =>
        obtain rfl := Except.ok.inj (hv.symm.trans ht)
        rfl
      next hv => exact nomatch hv.symm.trans ht

theorem exec_prefetchComplete (i : Nat) (s : State) : exec (.prefetchComplete i) s = execPrefetchComplete i s := rfl

theorem prefetchCompleteCopies {s : State} {i j : Nat} {f : Prefetch} {c : Ctx} (hf : s.prefetch[i]? = some f) (hctx : s.ctx? f.ctx = some c)
    (hheld : ∀ d ∈ f.dies c, d ∈ f.held) (h : Laid s (.desc c) (s.queue f.q) [(f.src.toNat, f.len), (f.dst.toNat, f.len)])
    (hsync : syncRef c 0 f.sync.toNat = .package j) :
    ∃ t : State, exec (.prefetchComplete i) s = .next t ∧ t.prefetch = s.prefetch.eraseIdx i
      ∧ t.read (.desc c) f.dst.toNat f.len = s.read (.desc c) f.src.toNat f.len
      ∧ t.syncObj (.package j) = { count := (s.syncObj (.package j)).count + f.add, epoch := (s.syncObj (.package j)).epoch } := by
  obtain ⟨hresolve, hue, hqueues, hmem, hpsync, hlsync, hleft⟩ := credited_view s i f
  have hstart : Copied c f 0 s (credited s i f) := ⟨.of_same hresolve hue hqueues hmem _, fun _ hi => absurd hi (Nat.not_lt_zero _)⟩
  obtain ⟨t, ht, hcopied⟩ := hstart.exists_movePieces h
  have hmoved := (State.movePieces_changes _ c f).get ht
  have hsame := State.syncObj_congr ((hmoved.psync rfl).trans hpsync) ((hmoved.lsync rfl).trans hlsync) (.package j)
  refine ⟨prefetched c f t, (exec_prefetchComplete i s).trans (execPrefetchComplete_of_pieces hf hctx hheld ht), ?_, ?_, ?_⟩
  · rw [prefetched_prefetch, hmoved.prefetch rfl, hleft]
  · obtain ⟨hm, hq, hres, hue'⟩ := signal_package_view t j f.add
    unfold prefetched State.beatEvent
    rw [hsync]
    exact hcopied.read_event h hm hq hres hue' _
  · rw [prefetched_syncObj hsync, hsame]

end Sys2Proof.Cert
end

section
/-! SUPPORT. The new firmware's start (R456, R459): what it puts into force; neither it nor the queues that are read again touch the
beat unit or its words. -/

namespace Sys2Proof.Cert

open Sys2Proof.Machine

/-- From `s` to `t` the beat unit and its words have stayed. -/
structure KeepsBeat (s t : State) : Prop where
  fuses : t.fuses = s.fuses
  words : (t.page pgBeat).access = (s.page pgBeat).access
  beat : t.beat = s.beat

section

variable {s t u : State}

theorem KeepsBeat.refl (s : State) : KeepsBeat s s := ⟨rfl, rfl, rfl⟩

theorem KeepsBeat.trans (h : KeepsBeat s t) (k : KeepsBeat t u) : KeepsBeat s u :=
  ⟨k.fuses.trans h.fuses, k.words.trans h.words, k.beat.trans h.beat⟩

/-- An operation that leaves fuses, pages and the beat unit alone. -/
theorem KeepsBeat.of_changes {m : Nat} (h : Changes m s t) (hf : m.testBit 1 = false := by decide) (hp : m.testBit 10 = false := by decide)
    (hb : m.testBit 28 = false := by decide) : KeepsBeat s t where
  fuses := h.fuses hf
  words := by unfold State.page; rw [h.pages hp]
  beat := h.beat hb

theorem KeepsBeat.of_keepsReach (h : KeepsReach s t) : KeepsBeat s t := ⟨h.fuses, h.pages pgBeat, h.beat⟩

theorem KeepsBeat.foldl {α : Type} {f : State → α → State} (h : ∀ t x, KeepsBeat t (f t x)) (l : List α) :
    ∀ s, KeepsBeat s (l.foldl f s) := by
  induction l with
  | nil => exact .refl
  | cons x l ih => exact fun s => (h s x).trans (ih _)

theorem KeepsBeat.tslot (h : KeepsBeat s t) : t.tslot = s.tslot := by
  obtain ⟨hcfg, hbad, -⟩ := Page.access_inj.mp h.words
  unfold State.tslot State.cfg State.takesDesc State.pageInfo State.hasDie State.small
  simp only [h.fuses, hcfg, hbad]

theorem KeepsBeat.slotBeat (h : KeepsBeat s t) (k : Nat) : t.slotBeat k = s.slotBeat k := by
  unfold State.slotBeat
  rw [h.beat]

end

/-! Queues: a completion and an acceptance write no word but MGR_AQ_CFG. -/

theorem State.lineCompleted_keepsBeat (s : State) (q slot : Nat) (c : Cmd) (res : Result) (err : BitVec 16) (addr : Addr) (result : List Byte) :
    KeepsBeat s (s.lineCompleted q slot c res err addr result) := by
  have hqueue := fun x => KeepsBeat.of_changes (s.setQueue_changes q x)
  unfold State.lineCompleted
  dsimp only
  split
  · exact hqueue _
  · split
    · exact (hqueue _).trans (.of_changes (State.hostLine_changes ..))
    · exact (hqueue _).trans (.of_changes (State.setQueue_changes ..))

theorem State.reapQueue_keepsBeat (s : State) (q : Nat) : KeepsBeat s (s.reapQueue q) := by
  have hpage : ∀ (t : State) (p : Page), KeepsBeat t (t.setPage pgMgr p) := fun t p =>
    ⟨rfl, congrArg Page.access (t.page_setPage_ne pgMgr p pgBeat (by decide)), rfl⟩
  unfold State.reapQueue
  dsimp only
  split
  · split
    · exact (KeepsBeat.of_changes (State.setQueue_changes ..)).trans (hpage ..)
    · exact .of_changes (State.setQueue_changes ..)
  · exact .refl s

theorem State.complete_keepsBeat (s : State) (q slot : Nat) (res : Result) (err : BitVec 16) (addr : Addr) (result : List Byte) :
    KeepsBeat s (s.complete q slot res err addr result) := by
  cases hc : s.cmd? q slot with
  | none =>
    rw [State.complete_of_no_cmd hc]
    exact .refl s
  | some c =>
    rw [State.complete_of_cmd hc]
    refine .trans ?_ (State.reapQueue_keepsBeat ..)
    have hline := State.lineCompleted_keepsBeat s q slot c res err addr result
    split
    · exact hline.trans (.of_changes (State.event_changes ..))
    · exact hline

/-- A command taken into a queue, and completed at once where its form is refused. -/
theorem accepted_keepsBeat (s : State) (q slot : Nat) (y : Queue) (refused : Bool) :
    KeepsBeat s (if refused then ({ s with order := s.order + 1 }.setQueue q y).malformed q slot
      else { s with order := s.order + 1 }.setQueue q y) := by
  have horder : KeepsBeat s { s with order := s.order + 1 } := ⟨rfl, rfl, rfl⟩
  have hqueue := horder.trans (.of_changes (State.setQueue_changes _ q y))
  split
  · exact hqueue.trans (State.complete_keepsBeat ..)
  · exact hqueue

theorem State.acceptOne_keepsBeat {s t : State} {q : Nat} (h : s.acceptOne q = some t) : KeepsBeat s t := by
  unfold State.acceptOne at h
  dsimp only at h
  split at h
  · exact nomatch h
  · split at h
    · exact nomatch h
    · obtain rfl := Option.some.inj h
      exact accepted_keepsBeat ..

theorem State.pollQueue_keepsBeat (fuel : Nat) (s : State) (q : Nat) : KeepsBeat s (s.pollQueue fuel q) := by
  induction fuel generalizing s with
  | zero => exact .refl s
  | succ fuel ih =>
    unfold State.pollQueue
    split
    · next t ht => exact (State.acceptOne_keepsBeat ht).trans (ih t)
    · exact .refl s

theorem State.pollAll_keepsBeat (s : State) : KeepsBeat s s.pollAll := KeepsBeat.foldl (fun _ _ => State.pollQueue_keepsBeat ..) _ s

/-! The new firmware. -/

theorem State.sendFrame_keepsBeat (s : State) (up : Bool) (bytes : List Byte) : KeepsBeat s (s.sendFrame up bytes) := by
  unfold State.sendFrame
  split
  · exact (KeepsBeat.of_changes (State.addOut_changes ..)).trans (.of_keepsReach (State.count_keepsReach ..))
  · exact .refl s

theorem State.fwEvent_keepsBeat (s : State) (kind : Nat) (err : BitVec 16) (version : Word64) : KeepsBeat s (s.fwEvent kind err version) :=
  ((KeepsBeat.of_changes (State.pkgEvent_changes ..)).trans (.of_changes (State.takeFree_changes ..))).trans (State.sendFrame_keepsBeat ..)

theorem State.newFirmware_keepsBeat (s : State) : KeepsBeat s s.newFirmware := by
  have hfw := fun t f => KeepsBeat.of_changes (State.setFw_changes t f)
  unfold State.newFirmware
  refine .trans ?_ (State.fwEvent_keepsBeat ..)
  refine .trans (.trans ?_ (hfw ..)) (.of_keepsReach (State.count_keepsReach ..))
  split
  · exact hfw ..
  · dsimp only
    split
    · exact hfw ..
    · exact ((KeepsBeat.of_changes (State.writeSlot_changes ..)).trans (hfw ..)).trans (.of_keepsReach (State.count_keepsReach ..))

/-- The staged firmware is in force, and the activation over. -/
theorem State.newFirmware_fw (s : State) : s.newFirmware.fw.version = s.fw.staged ∧ s.newFirmware.fw.runb = s.fw.target
    ∧ s.newFirmware.fw.sstate = 0 ∧ s.newFirmware.fw.activating = none := by
  unfold State.newFirmware
  dsimp only
  rw [(State.fwEvent_changes ..).fw rfl, (State.count_changes ..).fw rfl]
  exact ⟨rfl, rfl, rfl, rfl⟩

/-- The state after the new firmware's start, but for the beat that it releases. -/
theorem started_keepsBeat (s : State) (a : Activation) : KeepsBeat s (s.newFirmware.actEvent a .done 0).pollAll :=
  ((State.newFirmware_keepsBeat s).trans (.of_changes (State.actEvent_changes ..))).trans (State.pollAll_keepsBeat _)

theorem exec_newFirmwareStart (s : State) : exec .newFirmwareStart s = execNewFirmwareStart s := rfl

theorem newFirmwareTakesOver {s : State} {a : Activation} (hact : s.fw.activating = some a) (hhold : a.hold = none) :
    ∃ t : State, exec .newFirmwareStart s = .next t ∧ t = (s.newFirmware.actEvent a .done 0).pollAll ∧ t.fw.version = s.fw.staged
      ∧ t.fw.runb = s.fw.target ∧ t.fw.sstate = 0 ∧ t.fw.activating = none := by
  refine ⟨_, ?_, rfl, ?_⟩
  · rw [exec_newFirmwareStart]
    unfold execNewFirmwareStart
    simp only [hact, hhold]
  · rw [(State.pollAll_changes _).fw rfl, (State.actEvent_changes ..).fw rfl]
    exact State.newFirmware_fw s

theorem newFirmwareReleasesBeat {s u : State} {a : Activation} {k : Nat} (hact : s.fw.activating = some a) (hhold : a.hold = some k)
    (hu : u = (s.newFirmware.actEvent a .done 0).pollAll) (hown : u.ownSlot k = true) :
    ∃ t : State, exec .newFirmwareStart s = .next t ∧ t = u.moveBeat k 1 { step := (u.slotBeat k).step + 1, phase := 0 }
      ∧ (k ≠ s.tslot → t.slotBeat k = { step := (s.slotBeat k).step + 1, phase := 0 }) := by
  have hkeep : KeepsBeat s u := hu ▸ started_keepsBeat s a
  refine ⟨_, ?_, rfl, fun hk => ?_⟩
  · rw [exec_newFirmwareStart]
    unfold execNewFirmwareStart
    simp only [hact, hhold]
    rw [← hu, if_pos hown]
  · rw [State.moveBeat_of_ne_tslot (by rwa [hkeep.tslot]), State.slotBeat_applyBeat, hkeep.slotBeat]

/-! The beat's commands together. -/

theorem beatCommandsComplete : BeatCommandsComplete := by
  refine ⟨fun s hsrc hopen => ?_, fun s hout hopen => ?_, fun s k b hnext hheld hopen hctx => ?_,
    fun s k ctx c b hnext hctx hphase hhold => exec_beatApply_of_hold hnext hctx hphase hhold,
    fun s f v rd h hgood hpin hcfg hopen hman hup htree hres hlate hnew => beatInFrameWaits h hgood hpin hcfg hopen hman hup htree hres hlate hnew,
    fun s hheld hopen hsrc => beatSourceLostHolds hheld hopen hsrc,
    fun s i j f c hf hctx hheld h hsync => prefetchCompleteCopies hf hctx hheld h hsync,
    fun s a hact hhold => newFirmwareTakesOver hact hhold,
    fun s u a k hact hhold hu hown => newFirmwareReleasesBeat hact hhold hu hown⟩
  · rw [exec_rootMarkerRepeat]
    exact congrArg Host.Outcome.next (if_pos ⟨hsrc, hopen⟩)
  · have hsend : (s.beatOuten && decide (s.tslot = s.tslot)) = true := by simp [hout]
    rw [exec_beatOutRepeat, execBeatOutRepeat, if_pos hopen, State.sendFrameOut, if_pos hsend, Nat.zero_sub]
  · refine ⟨_, exec_beatApply_of_free hnext hheld hopen ?_, rfl, State.slotBeat_applyBeat .., State.nextBeat_applyBeat ..⟩
    rintro p hp
    rcases hctx with hnone | ⟨q, hq, hstep, hhold⟩
    · exact nomatch hp.symm.trans hnone
    · obtain rfl := Option.some.inj (hp.symm.trans hq)
      exact ⟨hstep, hhold⟩

/-- Settles O37: reports and markers, then the beat's commands one by one; the prefetch piece by piece, the new firmware by what it and
the reading of the queues leave of the beat. -/
theorem beatsAreAnnounced : Obligations.BeatsAreAnnounced := ⟨reportMarkersAreKept, markersAnnounceBeats, beatCommandsComplete⟩

end Sys2Proof.Cert
end

section
/-! SUPPORT. The draught's chunks (R324, R326 to R329): the budget of the straps, what a chunk and a reclaim leave of the ledger, and how a
single waiting request is served. -/

namespace Sys2Proof.Machine

/-! The budget. -/

theorem State.strapDrt_lt (s : State) : s.strapDrt < 8 := Nat.mod_lt _ (by decide)

theorem State.budget_of_none {s : State} (h : s.drt.budget = none) : s.budget = s.strapBudget := by
  unfold State.budget
  rw [h]

/-- Table 13.1 for the TVF9172-LQ: rising by 20 A, the highest budget from code 6. -/
theorem strapTable_large : ∀ k < 8, min 270000 (min (150000 + 20000 * k) 270000)
    = [150000, 170000, 190000, 210000, 230000, 250000, 270000, 270000].getD k 0 := by decide

/-- Table 13.1 for the TVF9148-LQ: the highest budget from code 2. -/
theorem strapTable_small : ∀ k < 8, min 190000 (min (150000 + 20000 * k) 270000)
    = [150000, 170000, 190000, 190000, 190000, 190000, 190000, 190000].getD k 0 := by decide

/-! Counters and traces leave the draught. -/

@[simp] theorem State.count_drt (s : State) (pg i n : Nat) : (s.count pg i n).drt = s.drt := (State.count_changes ..).drt rfl

@[simp] theorem State.trace_drt (s : State) (die rtype blk unit ctx hearth : Nat) (b : Beat) (tag : BitVec 32) (data : List Byte) :
    (s.trace die rtype blk unit ctx hearth b tag data).drt = s.drt := (State.trace_changes ..).drt rfl

/-! Chunks. -/

theorem State.chunk_spec {s : State} {d n : Nat} (h : s.chunk d = some n) :
    n ≤ s.floorFree d + (s.drtLimit - s.committed) ∧ (n = 256 ∨ 16 ≤ n ∧ n < 256 ∧ n = s.floorFree d + (s.drtLimit - s.committed))
      ∧ (s.committed ≤ s.budget ∨ s.drt.act = true) := by
  unfold State.chunk State.drtOver at h
  split at h
  · cases h
  · next hopen =>
    have hledger : s.committed ≤ s.budget ∨ s.drt.act = true := by simpa [or_iff_not_imp_left] using hopen
    dsimp only at h
    split at h
    · next hfull =>
      cases h
      exact ⟨hfull, .inl rfl, hledger⟩
    · next hrest =>
      split at h
      · next hmin =>
        cases h
        exact ⟨le_refl _, .inr ⟨hmin, Nat.lt_of_not_le hrest, rfl⟩, hledger⟩
      · cases h

theorem State.inflight_grantChunk (s : State) (d n : Nat) :
    SMap.get (s.grantChunk d n).drt.inflight 0 d = SMap.get s.drt.inflight 0 d + n := by
  simp [State.grantChunk]

theorem State.waiting_grantChunk (s : State) (d n : Nat) : (s.grantChunk d n).drt.waiting = s.drt.waiting.filter fun x => x ≠ d := by
  simp [State.grantChunk]

/-! What a die holds above its caps. -/

/-- Pools at their cap or below keep what they hold. -/
theorem foldl_cap_of_le {c : Nat} : ∀ {l : List (Nat × Nat)} (m : SMap Nat), (∀ p ∈ l, p.2 ≤ c) →
    l.foldl (fun m p => if c < p.2 then SMap.put m 0 p.1 c else m) m = m
  | [], _, _ => rfl
  | p :: l, m, h => by
    obtain ⟨hp, hl⟩ := List.forall_mem_cons.mp h
    rw [List.foldl_cons, if_neg (Nat.not_lt.mpr hp), foldl_cap_of_le m hl]

/-- Where no pool of the die is above its cap, the die store alone gives back. -/
theorem State.capDieAt_of_pools_le {s : State} {pc d : Nat} (dc : Nat) (h : ∀ k < 48, SMap.get s.drt.poolFree 0 (d * 48 + k) ≤ pc) :
    s.capDieAt pc dc d = s.setDrt { s.drt with
      dieFree := SMap.put s.drt.dieFree 0 d (min (SMap.get s.drt.dieFree 0 d) dc)
      returning := SMap.put s.drt.returning 0 d (SMap.get s.drt.returning 0 d + (SMap.get s.drt.dieFree 0 d - dc)) } := by
  unfold State.capDieAt
  dsimp only
  have hpools : ∀ p ∈ (List.range 48).map (fun k => (d * 48 + k, SMap.get s.drt.poolFree 0 (d * 48 + k))), p.2 ≤ pc := by
    simpa using h
  have hup : (((List.range 48).map fun k => (d * 48 + k, SMap.get s.drt.poolFree 0 (d * 48 + k))).map fun p => p.2 - pc).sum = 0 :=
    List.sum_eq_zero fun n hn => by
      obtain ⟨p, hp, rfl⟩ := List.mem_map.mp hn
      exact Nat.sub_eq_zero_of_le (hpools p hp)
  rw [foldl_cap_of_le _ hpools, hup, Nat.add_zero, Nat.sub_sub_eq_min]

theorem State.capDie_of_pools_le {s : State} {d : Nat} (h : ∀ k < 48, SMap.get s.drt.poolFree 0 (d * 48 + k) ≤ s.poolCap) :
    s.capDie d = s.setDrt { s.drt with
      dieFree := SMap.put s.drt.dieFree 0 d (min (SMap.get s.drt.dieFree 0 d) s.dieCap)
      returning := SMap.put s.drt.returning 0 d (SMap.get s.drt.returning 0 d + (SMap.get s.drt.dieFree 0 d - s.dieCap)) } :=
  State.capDieAt_of_pools_le _ h

theorem State.dieFree_capDieAt_self_le (s : State) (pc dc d : Nat) : SMap.get (s.capDieAt pc dc d).drt.dieFree 0 d ≤ dc := by
  simp only [State.capDieAt, State.setDrt_drt, SMap.get_put_self]
  omega

theorem State.dieFree_capDieAt_of_ne (s : State) (pc dc : Nat) {d k : Nat} (h : k ≠ d) :
    SMap.get (s.capDieAt pc dc d).drt.dieFree 0 k = SMap.get s.drt.dieFree 0 k := by
  simp only [State.capDieAt, State.setDrt_drt, SMap.get_put_ne _ _ _ _ _ _ h]

/-! Reclaims. -/

/-- What a reclaim keeps from `s` to `t`: requests go on waiting, a surge stays as it is, a die store keeps what it holds or 64 of it. -/
structure Reclaimed (s t : State) : Prop where
  waiting : t.drt.waiting = s.drt.waiting
  act : t.drt.act = s.drt.act
  dieFree : ∀ d, SMap.get t.drt.dieFree 0 d ≤ 64 ∨ SMap.get t.drt.dieFree 0 d = SMap.get s.drt.dieFree 0 d

theorem Reclaimed.refl (s : State) : Reclaimed s s := ⟨rfl, rfl, fun _ => .inr rfl⟩

theorem Reclaimed.trans {s t u : State} (h : Reclaimed s t) (k : Reclaimed t u) : Reclaimed s u where
  waiting := k.waiting.trans h.waiting
  act := k.act.trans h.act
  dieFree d := (k.dieFree d).elim .inl fun e => e.symm ▸ h.dieFree d

theorem Reclaimed.foldl {α : Type} {f : State → α → State} (h : ∀ t x, Reclaimed t (f t x)) (l : List α) :
    ∀ s, Reclaimed s (l.foldl f s) := by
  induction l with
  | nil => exact .refl
  | cons x l ih => exact fun s => (h s x).trans (ih _)

theorem State.capDieAt_reclaimed (s : State) (pc d : Nat) : Reclaimed s (s.capDieAt pc 64 d) where
  waiting := by simp only [State.capDieAt, State.setDrt_drt]
  act := by simp only [State.capDieAt, State.setDrt_drt]
  dieFree k := by
    by_cases hk : k = d
    · subst hk
      exact .inl (s.dieFree_capDieAt_self_le ..)
    · exact .inr (s.dieFree_capDieAt_of_ne _ _ hk)

theorem State.count_reclaimed (s : State) (pg i n : Nat) : Reclaimed s (s.count pg i n) := by
  have hdrt := s.count_drt pg i n
  exact ⟨congrArg _ hdrt, congrArg _ hdrt, fun d => .inr (congrArg (fun t : Draught => SMap.get t.dieFree 0 d) hdrt)⟩

theorem State.reclaim_reclaimed (s : State) : Reclaimed s s.reclaim := by
  unfold State.reclaim
  refine Reclaimed.trans (Reclaimed.foldl (fun t d => ?_) _ s) (State.count_reclaimed ..)
  split
  · exact .refl t
  · exact t.capDieAt_reclaimed ..

/-! One request that waits alone. -/

section

variable {s : State} {d n : Nat} (hwait : s.drt.waiting = [d]) (hdom : s.drt.domWait = [])
include hwait hdom

theorem State.serveDraught_of_chunk (h : s.chunk d = some n) :
    s.serveDraught (s.drt.domWait.length + s.drt.waiting.length) = s.grantChunk d n := by
  rw [hdom, hwait]
  simp [State.serveDraught, hdom, hwait, h]

theorem State.serveDraught_of_no_chunk (h : s.chunk d = none) :
    s.serveDraught (s.drt.domWait.length + s.drt.waiting.length) = s := by
  rw [hdom, hwait]
  simp [State.serveDraught, hdom, hwait, h]

omit hdom in
theorem State.waiting_grantChunk_alone : (s.grantChunk d n).drt.waiting = [] := by simp [State.waiting_grantChunk, hwait]

theorem State.serveOrSurge_of_chunk (h : s.chunk d = some n) : s.serveOrSurge = s.grantChunk d n := by
  unfold State.serveOrSurge
  rw [State.serveDraught_of_chunk hwait hdom h]
  simp [State.waiting_grantChunk_alone hwait]

/-- In recovery, or with surges off, a request that does not fit posts a reclaim. -/
theorem State.serveOrSurge_of_no_chunk (h : s.chunk d = none) (hno : s.drt.rcv = true ∨ s.drt.sen = false) : s.serveOrSurge = s.reclaim := by
  unfold State.serveOrSurge
  rw [State.serveDraught_of_no_chunk hwait hdom h]
  rcases hno with hrcv | hsen
  · simp [hwait, hrcv]
  · simp [hwait, hsen]

/-- Else a surge opens, and the request is served under its ceiling. -/
theorem State.serveOrSurge_of_surge {u : State} (h : s.chunk d = none) (hrcv : s.drt.rcv = false) (hsen : s.drt.sen = true)
    (hact : s.drt.act = false) (howed : s.drt.owed = false) (hu : u = (s.setDrt { s.drt with act := true }).count pgDrt 3 1) :
    s.serveOrSurge = if (u.serveDraught (u.drt.domWait.length + u.drt.waiting.length)).drt.waiting.isEmpty
      then u.serveDraught (u.drt.domWait.length + u.drt.waiting.length)
      else (u.serveDraught (u.drt.domWait.length + u.drt.waiting.length)).reclaim := by
  unfold State.serveOrSurge
  rw [State.serveDraught_of_no_chunk hwait hdom h, hu]
  simp [hwait, hrcv, hsen, hact, howed]

end

end Sys2Proof.Machine

namespace Sys2Proof.Cert

open Sys2Proof.Machine

/-- Settles O40: the straps give a code below 8, and each part's formula is its column of Table 13.1. -/
theorem strapSetsBudget : Obligations.StrapSetsBudget := by
  unfold Obligations.StrapSetsBudget
  intro s hnone
  rw [State.budget_of_none hnone]
  unfold State.strapBudget State.maxBudget
  refine ⟨fun hlarge => ?_, fun hsmall => ?_⟩
  · rw [hlarge]
    exact strapTable_large _ s.strapDrt_lt
  · rw [hsmall]
    exact strapTable_small _ s.strapDrt_lt

theorem exec_chunkRequest (die : Nat) (s : State) : exec (.chunkRequest die) s = execChunkRequest die s := rfl

/-- A die store that asks takes its place at the manager, and the manager serves. -/
theorem exec_chunkRequest_of_short {s s1 : State} {die : Nat} (hready : s.ready = true) (hdie : die < 72) (hhas : s.hasDie die = true)
    (hshort : s.dieShort die = true) (hopen : s.isOpen pgDrt = true) (hwait : s.drt.waiting = [])
    (hs1 : s1 = s.setDrt { s.drt with waiting := [die] }) :
    exec (.chunkRequest die) s = .next (if s.drt.rcv && decide (die ∈ s1.serveOrSurge.drt.waiting)
      then s1.serveOrSurge.count pgDrt 4 1 else s1.serveOrSurge) := by
  subst hs1
  rw [exec_chunkRequest, execChunkRequest]
  simp [hready, hdie, hhas, hshort, hwait, State.drtRefuses, hopen]

theorem exec_chunkRequest_of_not_short {s : State} {die : Nat} (h : s.dieShort die = false) : exec (.chunkRequest die) s = .next s := by
  rw [exec_chunkRequest, execChunkRequest]
  simp [h]

theorem chunkRequestsAreGranted : ChunkRequestsAreGranted := by
  refine ⟨fun s d n h => ?_, fun s s1 die hready hdie hhas hshort hopen hwait hdom hs1 => ?_,
    fun s die h => exec_chunkRequest_of_not_short h, fun s => ?_⟩
  · obtain ⟨hfits, hsize, hledger⟩ := State.chunk_spec h
    refine ⟨hfits, hsize, hledger, s.inflight_grantChunk d n, ?_⟩
    simp [State.waiting_grantChunk]
  · have hrun := exec_chunkRequest_of_short hready hdie hhas hshort hopen hwait hs1
    have hwait1 : s1.drt.waiting = [die] := hs1 ▸ rfl
    have hdom1 : s1.drt.domWait = [] := hs1 ▸ hdom
    rw [hrun]
    refine ⟨fun n hn => ?_, fun hnone hrcv => ?_, fun hnone hrcv hsen => ?_, fun s3 hnone hrcv hsen hact howed hs3 => ?_⟩
    · rw [State.serveOrSurge_of_chunk hwait1 hdom1 hn, State.waiting_grantChunk_alone hwait1]
      simp
    · rw [State.serveOrSurge_of_no_chunk hwait1 hdom1 hnone (.inl (hs1 ▸ hrcv)), s1.reclaim_reclaimed.waiting, hwait1, hrcv]
      simp
    · rw [State.serveOrSurge_of_no_chunk hwait1 hdom1 hnone (.inr (hs1 ▸ hsen)), hrcv]
      simp
    · have hwait3 : s3.drt.waiting = [die] := by rw [hs3, State.count_drt, State.setDrt_drt, hwait1]
      have hdom3 : s3.drt.domWait = [] := by rw [hs3, State.count_drt, State.setDrt_drt, hdom1]
      rw [hrcv, State.serveOrSurge_of_surge hwait1 hdom1 hnone (hs1 ▸ hrcv) (hs1 ▸ hsen) (hs1 ▸ hact) (hs1 ▸ howed) hs3]
      refine ⟨fun n hn => ?_, fun hn => ?_⟩
      · rw [State.serveDraught_of_chunk hwait3 hdom3 hn, State.waiting_grantChunk_alone hwait3]
        simp
      · rw [State.serveDraught_of_no_chunk hwait3 hdom3 hn, hwait3]
        simp
  · have h := s.reclaim_reclaimed
    exact ⟨h.waiting, h.act, fun d _ => h.dieFree d⟩

end Sys2Proof.Cert
end

section
/-! SUPPORT. Credits between the tiers (R327 to R330, R355): a chunk arrives, a pool draws its block, a descriptor, a pass or a prefetch
draws what it asks for in its turn, and what returns reaches the manager. -/

namespace Sys2Proof.Machine

/-! The caps rest on what waits at the manager alone. -/

theorem State.caps_congr {s t : State} (hw : t.drt.waiting = s.drt.waiting) (hd : t.drt.domWait = s.drt.domWait) :
    t.poolCap = s.poolCap ∧ t.dieCap = s.dieCap := by
  unfold State.poolCap State.dieCap
  rw [hw, hd]
  exact ⟨rfl, rfl⟩

/-! Requests at pools and die stores. -/

/-- The state after the request of engine `x` for `n` credits has come to its turn and drawn them. -/
def State.drawInTurn (s : State) (x : EngUnit) (r : CreditReq) (n : Nat) : State :=
  ((s.enqueue x r).1.dequeue x r).drawCredits x n

theorem State.drawInTurn_changes (s : State) (x : EngUnit) (r : CreditReq) (n : Nat) : Changes 0x8000000 s (s.drawInTurn x r n) :=
  ((State.enqueue_changes ..).andThen (State.dequeue_changes ..)).andThen (State.drawCredits_changes ..)

theorem State.freeCredits_congr {s t : State} (h : t.drt = s.drt) (x : EngUnit) : t.freeCredits x = s.freeCredits x := by
  unfold State.freeCredits
  rw [h]

@[simp] theorem State.freeCredits_enqueue (s : State) (x y : EngUnit) (r : CreditReq) :
    (s.enqueue x r).1.freeCredits y = s.freeCredits y := by
  unfold State.enqueue
  split
  · rfl
  · rfl

@[simp] theorem State.freeCredits_dequeue (s : State) (x y : EngUnit) (r : CreditReq) :
    (s.dequeue x r).freeCredits y = s.freeCredits y := by
  unfold State.dequeue
  split
  · rfl
  · rfl

@[simp] theorem State.freeCredits_drawCredits (s : State) (x : EngUnit) (n : Nat) :
    (s.drawCredits x n).freeCredits x = s.freeCredits x - n := by
  unfold State.drawCredits State.freeCredits
  by_cases h : x.eng = 8
  · simp [h]
  · simp [h]

theorem State.freeCredits_drawInTurn {s : State} {x : EngUnit} {n : Nat} (r : CreditReq) (h : n ≤ s.freeCredits x) :
    (s.drawInTurn x r n).freeCredits x + n = s.freeCredits x := by
  simp [State.drawInTurn, Nat.sub_add_cancel h]

/-- The trace record of a grant of `n` credits (R481). -/
def State.traceGrant (s : State) (x : EngUnit) (e : Entry) (n : Nat) : State :=
  (s.takeFree 4).2.traceEntry x e 0x03 ((s.takeFree 4).1 ++ leBytes 4 n)

theorem State.traceGrant_changes (s : State) (x : EngUnit) (e : Entry) (n : Nat) : Changes 0x220100011400 s (s.traceGrant x e n) :=
  (State.takeFree_changes s 4).widen.andThen (State.traceEntry_changes ..)

/-! Window entries. -/

/-- What a change of an entry leaves of it, in a state with the same windows. -/
theorem State.getD_win_setEntry_of_entry? {s t : State} {u i : Nat} {e : Entry} (he : s.entry? u i = some e) (ht : t.engines = s.engines)
    (f : Entry → Entry) : ((t.setEntry u i f).engine u).win.getD i e = f e := by
  have hwin : (t.engine u).win[i]? = some e := by
    unfold State.engine
    rw [ht]
    exact he
  obtain ⟨hlt, hget⟩ := List.getElem?_eq_some_iff.mp hwin
  rw [State.getD_win_setEntry f hlt, hget]

theorem State.entryWants_none {s : State} {u i : Nat} {c : Ctx} {e : Entry} (x : EngUnit) (hctx : s.ctx? e.ctx = some c)
    (hstarted : e.started = false) (hdue : s.headDue u i c e = true) : s.entryWants x u i e none = s.need c e - e.credits := by
  simp [State.entryWants, hctx, hstarted, hdue]

theorem State.entryWants_group {s : State} {i g : Nat} {x : EngUnit} {c : Ctx} {e : Entry} (u : Nat) (hctx : s.ctx? e.ctx = some c)
    (hstarted : e.started = true) (hended : e.ended = none) (hpass : 0 < e.perPass) (hheld : g ∉ e.prog.held) :
    s.entryWants x u i e (some g) = if s.passDue x c e g then e.perPass else 0 := by
  simp [State.entryWants, hctx, hstarted, hended, hpass, hheld]

end Sys2Proof.Machine

namespace Sys2Proof.Cert

open Sys2Proof.Machine

/-! The die store and the hearth pool. -/

/-- The state in which the chunk in flight stands in its die store, before what is above the caps flows up. -/
def chunkArrived (s : State) (d : Nat) : State :=
  s.setDrt { s.drt with
    inflight := SMap.put s.drt.inflight 0 d 0
    dieFree := SMap.put s.drt.dieFree 0 d (SMap.get s.drt.dieFree 0 d + SMap.get s.drt.inflight 0 d) }

theorem exec_chunkGrant_eq (d : Nat) (s : State) : exec (.chunkGrant d) s = .next ((chunkArrived s d).capDie d) := rfl

theorem chunkArrives {s : State} {d : Nat} (h : ∀ k < 48, SMap.get s.drt.poolFree 0 (d * 48 + k) ≤ s.poolCap) :
    ∃ t : State, exec (.chunkGrant d) s = .next t ∧ SMap.get t.drt.inflight 0 d = 0
      ∧ SMap.get t.drt.dieFree 0 d = min (SMap.get s.drt.dieFree 0 d + SMap.get s.drt.inflight 0 d) s.dieCap
      ∧ SMap.get t.drt.returning 0 d
          = SMap.get s.drt.returning 0 d + (SMap.get s.drt.dieFree 0 d + SMap.get s.drt.inflight 0 d - s.dieCap)
      ∧ t.drt.poolFree = s.drt.poolFree := by
  obtain ⟨hpoolCap, hdieCap⟩ := State.caps_congr (s := s) (t := chunkArrived s d) rfl rfl
  refine ⟨_, exec_chunkGrant_eq d s, ?_⟩
  rw [State.capDie_of_pools_le (by rwa [hpoolCap]), hdieCap]
  simp [chunkArrived]

theorem exec_hearthPoolDraw (h : Nat) (s : State) : exec (.hearthPoolDraw h) s = execHearthPoolDraw h s := rfl

theorem exec_hearthPoolDraw_of_not_short {s : State} {h : Nat} (hshort : s.poolShort h = false) : exec (.hearthPoolDraw h) s = .next s := by
  rw [exec_hearthPoolDraw, execHearthPoolDraw]
  simp [hshort]

theorem exec_hearthPoolDraw_of_wait {s : State} {h : Nat} (hready : s.ready = true) (hshort : s.poolShort h = true)
    (hwait : (queued (s.dieReqs (h / 48)) (.pool h)).head? ≠ some (.pool h) ∨ SMap.get s.drt.dieFree 0 (h / 48) < 16) :
    exec (.hearthPoolDraw h) s = .next (s.setDieQ (h / 48) (queued (s.dieReqs (h / 48)) (.pool h))) := by
  rw [exec_hearthPoolDraw, execHearthPoolDraw, if_neg (by simp [hready, hshort])]
  exact if_pos (by simpa using hwait)

/-- The state in which pool `h` has drawn its block, before what is above the caps flows up. -/
def poolDrawn (s : State) (h : Nat) : State :=
  s.setDrt { s.drt with
    dieQ := SMap.put s.drt.dieQ [] (h / 48) (queued (s.dieReqs (h / 48)) (.pool h)).tail
    dieFree := SMap.put s.drt.dieFree 0 (h / 48) (SMap.get s.drt.dieFree 0 (h / 48) - 16)
    poolFree := SMap.put s.drt.poolFree 0 h (SMap.get s.drt.poolFree 0 h + 16) }

theorem exec_hearthPoolDraw_of_turn {s : State} {h : Nat} (hready : s.ready = true) (hshort : s.poolShort h = true)
    (hhead : (queued (s.dieReqs (h / 48)) (.pool h)).head? = some (.pool h)) (hfree : 16 ≤ SMap.get s.drt.dieFree 0 (h / 48)) :
    exec (.hearthPoolDraw h) s = .next ((poolDrawn s h).capDie (h / 48)) := by
  rw [exec_hearthPoolDraw, execHearthPoolDraw, if_neg (by simp [hready, hshort])]
  exact if_neg (by simpa using ⟨hhead, hfree⟩)

theorem hearthPoolDrawsBlock {s : State} {h : Nat} (hready : s.ready = true) (hshort : s.poolShort h = true)
    (hhead : (queued (s.dieReqs (h / 48)) (.pool h)).head? = some (.pool h)) (hfree : 16 ≤ SMap.get s.drt.dieFree 0 (h / 48))
    (hcap : SMap.get s.drt.dieFree 0 (h / 48) ≤ s.dieCap) (hpools : ∀ k < 48, SMap.get s.drt.poolFree 0 (h / 48 * 48 + k) ≤ s.poolCap)
    (hroom : SMap.get s.drt.poolFree 0 h + 16 ≤ s.poolCap) :
    ∃ t : State, exec (.hearthPoolDraw h) s = .next t ∧ SMap.get t.drt.dieFree 0 (h / 48) + 16 = SMap.get s.drt.dieFree 0 (h / 48)
      ∧ SMap.get t.drt.poolFree 0 h = SMap.get s.drt.poolFree 0 h + 16 := by
  obtain ⟨hpoolCap, hdieCap⟩ := State.caps_congr (s := s) (t := poolDrawn s h) rfl rfl
  have hdrawn : ∀ k < 48, SMap.get (poolDrawn s h).drt.poolFree 0 (h / 48 * 48 + k) ≤ (poolDrawn s h).poolCap := by
    intro k hk
    rw [hpoolCap, poolDrawn, State.setDrt_drt]
    by_cases he : h / 48 * 48 + k = h
    · rwa [he, SMap.get_put_self]
    · rw [SMap.get_put_ne _ _ _ _ _ _ he]
      exact hpools k hk
  refine ⟨_, exec_hearthPoolDraw_of_turn hready hshort hhead hfree, ?_⟩
  rw [State.capDie_of_pools_le hdrawn, hdieCap]
  simp only [poolDrawn, State.setDrt_drt, SMap.get_put_self, and_true]
  omega

/-! Grants to engines. -/

theorem exec_engineCreditGrant (u idx group : Nat) (s : State) :
    exec (.engineCreditGrant u idx group) s = execEngineCreditGrant u idx group s := rfl

section

variable {s : State} {u idx group n : Nat} {x : EngUnit} {e : Entry} {r : CreditReq}
  (hunit : s.unit u = some x) (hentry : s.entry? u idx = some e)
include hunit hentry

theorem exec_engineCreditGrant_of_no_want (hwants : s.entryWants x u idx e (if e.started then some group else none) = 0) :
    exec (.engineCreditGrant u idx group) s = .next s := by
  rw [exec_engineCreditGrant, execEngineCreditGrant]
  simp [hunit, hentry, hwants]

variable (hready : s.ready = true) (hr : r = { u := u, addr := e.addr, group := if e.started then some group else none })
  (hwants : s.entryWants x u idx e (if e.started then some group else none) = n) (hpos : 0 < n)
include hready hr hwants hpos

theorem exec_engineCreditGrant_of_wait (hwait : (s.enqueue x r).2 = false ∨ s.freeCredits x < n) :
    exec (.engineCreditGrant u idx group) s = .next (s.enqueue x r).1 := by
  subst hr hwants
  rw [exec_engineCreditGrant, execEngineCreditGrant]
  simp only [hunit, hentry]
  rw [if_neg (by simp [hready, hpos.ne']), if_pos (by simpa using hwait)]

/-- A started descriptor draws a group's credit. -/
theorem exec_engineCreditGrant_of_started (hstarted : e.started = true) (hturn : (s.enqueue x r).2 = true) (hfree : n ≤ s.freeCredits x) :
    exec (.engineCreditGrant u idx group) s = .next ((s.drawInTurn x r n).setEntry u idx fun e =>
      { e with credits := e.credits + n, prog := { e.prog with held := e.prog.held ++ [group] } }) := by
  subst hr hwants
  rw [exec_engineCreditGrant, execEngineCreditGrant]
  simp only [hunit, hentry]
  rw [if_neg (by simp [hready, hpos.ne']), if_neg (by simp [hturn, hfree]), if_pos hstarted]
  rfl

/-- One that has not started draws its class, which is traced. -/
theorem exec_engineCreditGrant_of_not_started (hstarted : e.started = false) (hturn : (s.enqueue x r).2 = true)
    (hfree : n ≤ s.freeCredits x) :
    exec (.engineCreditGrant u idx group) s
      = .next (((s.drawInTurn x r n).setEntry u idx fun e => { e with credits := e.credits + n }).traceGrant x e n) := by
  subst hr hwants
  rw [exec_engineCreditGrant, execEngineCreditGrant]
  simp only [hunit, hentry]
  rw [if_neg (by simp [hready, hpos.ne']), if_neg (by simp [hturn, hfree]), if_neg (by simp [hstarted])]
  rfl

end

/-- A descriptor draws its class. -/
theorem classIsDrawn {s : State} {u idx group n : Nat} {x : EngUnit} {c : Ctx} {e : Entry} {r : CreditReq} (hunit : s.unit u = some x)
    (hentry : s.entry? u idx = some e) (hctx : s.ctx? e.ctx = some c) (hready : s.ready = true) (hstarted : e.started = false)
    (hdue : s.headDue u idx c e = true) (hn : n = s.need c e - e.credits) (hpos : 0 < n) (hr : r = { u := u, addr := e.addr, group := none }) :
    ((s.enqueue x r).2 = true → n ≤ s.freeCredits x →
      ∃ t : State, exec (.engineCreditGrant u idx group) s = .next t ∧ ((t.engine u).win.getD idx e).credits = e.credits + n
        ∧ t.freeCredits x + n = s.freeCredits x)
    ∧ ((s.enqueue x r).2 = false ∨ s.freeCredits x < n → exec (.engineCreditGrant u idx group) s = .next (s.enqueue x r).1) := by
  have hgroup : (if e.started then some group else none) = none := by simp [hstarted]
  have hreq : r = { u := u, addr := e.addr, group := if e.started then some group else none } := by rw [hgroup, hr]
  have hwants : s.entryWants x u idx e (if e.started then some group else none) = n := by
    rw [hgroup, State.entryWants_none x hctx hstarted hdue, hn]
  refine ⟨fun hturn hfree => ?_, exec_engineCreditGrant_of_wait hunit hentry hready hreq hwants hpos⟩
  refine ⟨_, exec_engineCreditGrant_of_not_started hunit hentry hready hreq hwants hpos hstarted hturn hfree, ?_, ?_⟩
  · unfold State.engine
    rw [(State.traceGrant_changes ..).engines rfl]
    exact congrArg Entry.credits (State.getD_win_setEntry_of_entry? hentry ((s.drawInTurn_changes x r n).engines rfl) _)
  · rw [State.freeCredits_congr ((State.traceGrant_changes ..).drt rfl)]
    exact State.freeCredits_drawInTurn r hfree

/-- A group draws the credit of its pass. -/
theorem passCreditIsDrawn {s : State} {u idx group : Nat} {x : EngUnit} {c : Ctx} {e : Entry} {r : CreditReq} (hunit : s.unit u = some x)
    (hentry : s.entry? u idx = some e) (hctx : s.ctx? e.ctx = some c) (hready : s.ready = true) (hstarted : e.started = true)
    (hended : e.ended = none) (hpos : 0 < e.perPass) (hheld : group ∉ e.prog.held) (hr : r = { u := u, addr := e.addr, group := some group }) :
    (s.passDue x c e group = true → (s.enqueue x r).2 = true → e.perPass ≤ s.freeCredits x →
      ∃ t : State, exec (.engineCreditGrant u idx group) s = .next t ∧ ((t.engine u).win.getD idx e).credits = e.credits + e.perPass
        ∧ ((t.engine u).win.getD idx e).prog.held = e.prog.held ++ [group] ∧ t.freeCredits x + e.perPass = s.freeCredits x)
    ∧ (s.passDue x c e group = false → exec (.engineCreditGrant u idx group) s = .next s) := by
  have hgroup : (if e.started then some group else none) = some group := if_pos hstarted
  have hreq : r = { u := u, addr := e.addr, group := if e.started then some group else none } := by rw [hgroup, hr]
  have hwants : s.entryWants x u idx e (if e.started then some group else none) = if s.passDue x c e group then e.perPass else 0 := by
    rw [hgroup, State.entryWants_group u hctx hstarted hended hpos hheld]
  refine ⟨fun hdue hturn hfree => ?_, fun hdue => ?_⟩
  · rw [hdue, if_pos rfl] at hwants
    have hwin := State.getD_win_setEntry_of_entry? hentry ((s.drawInTurn_changes x r e.perPass).engines rfl)
      fun y => { y with credits := y.credits + e.perPass, prog := { y.prog with held := y.prog.held ++ [group] } }
    exact ⟨_, exec_engineCreditGrant_of_started hunit hentry hready hreq hwants hpos hstarted hturn hfree, congrArg Entry.credits hwin,
      congrArg (fun y => y.prog.held) hwin, State.freeCredits_drawInTurn r hfree⟩
  · exact exec_engineCreditGrant_of_no_want hunit hentry (by rw [hwants, hdue]; rfl)

/-- A prefetch draws the credit of DMA engine 7 of a die. -/
theorem prefetchCreditIsDrawn {s : State} {u k group : Nat} {x : EngUnit} {f : Prefetch} {r : CreditReq} (hunit : s.unit u = some x)
    (hready : s.ready = true) (hentry : s.entry? u (k + 8) = none) (heng : x.eng = 8) (hinst : x.inst = 7) (hf : s.prefetch[k]? = some f)
    (hdue : s.prefetchDue x.die f = true) (hr : r = { u := u, addr := f.dst, group := some prefetchGroup })
    (hturn : (s.enqueue x r).2 = true) (hfree : 1 ≤ s.freeCredits x) :
    ∃ t : State, exec (.engineCreditGrant u (k + 8) group) s = .next t ∧ (t.prefetch.getD k f).held = f.held ++ [x.die]
      ∧ t.freeCredits x + 1 = s.freeCredits x := by
  have hrun : exec (.engineCreditGrant u (k + 8) group) s = .next { s.drawInTurn x r 1 with
      prefetch := modifyAt (s.drawInTurn x r 1).prefetch k fun f => { f with held := f.held ++ [x.die] } } := by
    subst hr
    rw [exec_engineCreditGrant, execEngineCreditGrant]
    simp only [hunit, hentry]
    rw [if_pos (by simp [hready, heng, hinst]), Nat.add_sub_cancel, State.grantPrefetch, hf]
    dsimp only
    rw [if_pos hdue, if_neg (by simp [hturn, Nat.one_le_iff_ne_zero.mp hfree])]
    rfl
  refine ⟨_, hrun, ?_, State.freeCredits_drawInTurn r hfree⟩
  dsimp only
  rw [modifyAt_eq_modify, (s.drawInTurn_changes x r 1).prefetch rfl]
  simp [List.getD, hf]

/-! Returns to the manager. -/

theorem exec_creditReturn (die : Nat) (s : State) : exec (.creditReturn die) s = execCreditReturn die s := rfl

/-- A fall of committed brings about nothing where no surge is in force or owed and nothing waits. -/
theorem ledgerFell_of_idle {s : State} (hact : s.drt.act = false) (howed : s.drt.owed = false) (hwait : s.drt.waiting = [])
    (hdom : s.drt.domWait = []) : s.ledgerFell = s := by
  unfold State.ledgerFell
  simp [hact, howed, hwait, hdom, State.serveDraught]

theorem creditsReturn {s : State} {d : Nat} (hopen : s.isOpen pgDrt = true) (hact : s.drt.act = false) (howed : s.drt.owed = false)
    (hwait : s.drt.waiting = []) (hdom : s.drt.domWait = []) (hslot : s.dieSlot d = none) :
    exec (.creditReturn d) s = .next (s.setDrt { s.drt with returning := SMap.put s.drt.returning 0 d 0 }) := by
  rw [exec_creditReturn, execCreditReturn, if_neg (by simp [State.drtRefuses, hopen]), hslot]
  exact congrArg Host.Outcome.next (ledgerFell_of_idle hact howed hwait hdom)

theorem creditsMoveThroughTiers : CreditsMoveThroughTiers :=
  ⟨fun _ _ => chunkArrives, fun _ _ => ⟨exec_hearthPoolDraw_of_not_short, exec_hearthPoolDraw_of_wait, hearthPoolDrawsBlock⟩,
    fun _ _ _ _ _ _ _ _ _ => classIsDrawn, fun _ _ _ _ _ _ _ _ => passCreditIsDrawn, fun _ _ _ _ _ _ _ => prefetchCreditIsDrawn,
    fun _ _ => creditsReturn⟩

/-- Settles O41: a chunk is what the ledger allows, and a request alone at the manager is served, reclaims or opens a surge; each tier's draw
is its request's turn, and takes from the tier above what it gives. -/
theorem creditsAreGrantedAndMove : Obligations.CreditsAreGrantedAndMove := ⟨chunkRequestsAreGranted, creditsMoveThroughTiers⟩

end Sys2Proof.Cert
end

section
/-! SUPPORT. The memory's canonical form (R340): each command's law keeps it, and a step is the front command's meaning or nothing. -/

namespace Sys2Proof.Cert

open Sys2Proof.Machine

theorem exec_keeps_memoryForm {c : Instr} {s t : State} (h : exec c s = .next t) (hwf : Memory.wf s.mem = true) :
    Memory.wf t.mem = true := by
  obtain ⟨u, m, hu, hchanges⟩ := exec_next_changes c s
  rw [h] at hu
  cases hu
  exact hchanges.memWf hwf

/-- Settles O3, by what waits: nothing, and the step idles, or a command, whose law keeps the form. -/
theorem stepKeepsMemoryForm : Obligations.StepKeepsMemoryForm := by
  unfold Obligations.StepKeepsMemoryForm
  intro s t hwf hstep
  obtain ⟨hfront, hidle⟩ := stepRunsFrontCommand
  cases hp : s.pending with
  | nil =>
    rw [hidle s hp] at hstep
    cases hstep
    exact hwf
  | cons c r =>
    rw [hfront c r s hp] at hstep
    exact exec_keeps_memoryForm hstep hwf

end Sys2Proof.Cert
end

section
/-! SUPPORT. Background checks (R345, R348, R379, R380). A scan changes the error record, the interrupts and the mismatches found of its
page; of its own words a block without descriptors then takes the reset value. The scrubber reports an uncorrectable line by an event,
which is a record in memory. -/

namespace Sys2Proof.Machine

/-- A change of a page's interrupt registers leaves that page as written. -/
@[simp] theorem State.page_pageIrq (s : State) (pg : Nat) (p : Page) : (s.pageIrq pg p).page pg = p := by
  unfold State.pageIrq
  dsimp only
  split
  · unfold State.page
    rw [(State.pkgEvent_changes ..).pages rfl]
    exact State.page_setPage ..
  · exact State.page_setPage ..

/-- The page once the mismatches that had not been found are recorded (R379, R380). -/
def Page.recorded (p : Page) : Page :=
  { p with
    err := if p.err.v then { p.err with more := true }
      else { v := true, more := false, code := eCfgParity, off := BitVec.ofNat 12 (p.newBad.foldl min 4096) }
    irqRaw := p.irqRaw ||| (if p.err.v then 2 else 3)
    found := p.badPar }

theorem Page.recorded_par (p : Page) : p.recorded.irqRaw.getLsbD 1 = true := by
  unfold Page.recorded
  cases p.err.v
  · exact (BitVec.getLsbD_or ..).trans (Bool.or_true _)
  · exact (BitVec.getLsbD_or ..).trans (Bool.or_true _)

theorem State.parityFound_of_none {s : State} {pg : Nat} (h : (s.page pg).newBad = []) : s.parityFound pg = s := by
  simp [State.parityFound, h]

theorem State.page_parityFound {s : State} {pg : Nat} (h : (s.page pg).newBad ≠ []) :
    (s.parityFound pg).page pg = (s.page pg).recorded := by
  unfold State.parityFound
  rw [if_neg (by simpa using h)]
  exact State.page_pageIrq ..

/-- A word that is upset mismatches, and no scan has found it yet. -/
theorem State.upsetWord_newBad {s : State} {pg off : Nat} {i : PageInfo} {d : RegDef} (w : Nat) (hi : s.pageInfo pg = some i)
    (hd : s.protDef i off = some d) :
    off ∈ ((s.upsetWord pg (off, w)).page pg).badPar ∧ off ∈ ((s.upsetWord pg (off, w)).page pg).newBad := by
  have hdef : ((s.pageInfo pg).bind fun i => s.protDef i off) = some d := by rw [hi, Option.bind_some, hd]
  unfold State.upsetWord
  rw [hdef]
  dsimp only
  rw [State.page_pageIrq]
  split
  · simp [Page.newBad, Page.mend]
  · simp [Page.newBad, Page.mend]

/-- Blocks that keep none of their words themselves take no reset value (R380). -/
theorem State.useReset_of_no_own {i : PageInfo} (h : i.blk ∉ [0x01, 0x0E, 0x0F, 0x11, 0x12, 0x14]) (s : State) (off : Nat) :
    s.useReset i off = s := by
  simp only [List.mem_cons, List.not_mem_nil, or_false, not_or] at h
  obtain ⟨h1, h2, h3, h4, h5, h6⟩ := h
  unfold State.useReset
  split
  case h_7 => rfl
  all_goals contradiction

theorem State.strapBudget_congr {s t : State} (hf : t.fuses = s.fuses) (he : t.ember = s.ember) : t.strapBudget = s.strapBudget := by
  unfold State.strapBudget State.maxBudget State.small State.strapDrt
  rw [hf, he]

end Sys2Proof.Machine

namespace Sys2Proof.Cert

open Sys2Proof.Machine

section

variable {s : State} {pg : Nat} {i : PageInfo} (hi : s.pageInfo pg = some i) (hup : s.active i.dom = true)
  (hheld : s.blkHeld pg i = false)
include hi hup hheld

/-- The scan of a page whose block runs, in the state `t` in which the words are upset. -/
theorem exec_parityScan_of_running {upset : List (Nat × Nat)} {t : State} (ht : upset.foldl (fun t x => t.upsetWord pg x) s = t) :
    exec (.parityScan pg upset) s = .next (if s.takesDesc pg then t.parityFound pg
      else (t.page pg).newBad.foldl (fun v off => v.useReset i off) (t.parityFound pg)) := by
  change execParityScan pg upset s = _
  unfold execParityScan
  rw [hi, ht]
  exact if_pos (by simp [hup, hheld])

/-- Where the block keeps no word itself, the scan only records what it finds. -/
theorem exec_parityScan_of_no_own (hown : s.takesDesc pg = true ∨ i.blk ∉ [0x01, 0x0E, 0x0F, 0x11, 0x12, 0x14])
    {upset : List (Nat × Nat)} {t : State} (ht : upset.foldl (fun t x => t.upsetWord pg x) s = t) :
    exec (.parityScan pg upset) s = .next (t.parityFound pg) := by
  rw [exec_parityScan_of_running hi hup hheld ht]
  obtain hdesc | hblk := hown
  · rw [if_pos hdesc]
  · simp [State.useReset_of_no_own hblk]

theorem exec_parityScan_of_none (hnone : (s.page pg).newBad = []) : exec (.parityScan pg []) s = .next s := by
  rw [exec_parityScan_of_running hi hup hheld rfl]
  simp [hnone, State.parityFound_of_none hnone]

end

/-- The state in which no budget is set, before the ledger is served. -/
def budgetReset (s : State) : State := s.setDrt { s.drt with budget := none }

/-- A budget that mismatches acts as the straps' (R380). -/
theorem parityScan_budget {s : State} {i : PageInfo} (hi : s.pageInfo pgDrt = some i) (hup : s.active i.dom = true)
    (hheld : s.blkHeld pgDrt i = false) (hnew : (s.page pgDrt).newBad = [0x100]) (hact : s.drt.act = false) (howed : s.drt.owed = false)
    (hwait : s.drt.waiting = []) (hdom : s.drt.domWait = []) :
    ∃ t : State, exec (.parityScan pgDrt []) s = .next t ∧ t.budget = s.strapBudget := by
  have hrec := State.parityFound_changes s pgDrt
  have hdrt : (s.parityFound pgDrt).drt = s.drt := hrec.drt rfl
  have hblk : i = ⟨99, none, 0x11, 0⟩ := (Option.some.inj hi).symm
  have hrun : exec (.parityScan pgDrt []) s = .next (budgetReset (s.parityFound pgDrt)).ledgerFell := by
    rw [exec_parityScan_of_running hi hup hheld rfl, List.foldl_nil, hnew, hblk]
    rfl
  have hidle : (budgetReset (s.parityFound pgDrt)).ledgerFell = budgetReset (s.parityFound pgDrt) := by
    unfold budgetReset
    rw [hdrt]
    exact ledgerFell_of_idle hact howed hwait hdom
  refine ⟨_, hrun, ?_⟩
  rw [hidle]
  exact (State.budget_of_none rfl).trans (State.strapBudget_congr (hrec.fuses rfl) (hrec.ember rfl))

theorem parityScanFindsMismatch : ParityScanFindsMismatch := by
  refine ⟨fun s pg i hi hup hheld => ⟨exec_parityScan_of_none hi hup hheld, fun hown => ⟨fun hnew => ?_, fun off w d hd => ?_⟩⟩,
    fun s i => parityScan_budget⟩
  · refine ⟨_, exec_parityScan_of_no_own hi hup hheld hown (upset := []) rfl, ?_⟩
    rw [List.foldl_nil, State.page_parityFound hnew]
    exact ⟨rfl, Page.recorded_par _, rfl, fun hv => by simp [Page.recorded, hv], fun hv => by simp [Page.recorded, hv]⟩
  · obtain ⟨hbad, hnew⟩ := State.upsetWord_newBad w hi hd
    refine ⟨_, exec_parityScan_of_no_own hi hup hheld hown (upset := [(off, w)]) rfl, ?_⟩
    rw [List.foldl_cons, List.foldl_nil, State.page_parityFound (List.ne_nil_of_mem hnew)]
    exact ⟨hbad, hbad⟩

/-! A line that is found uncorrectable while the admin queue is live. -/

/-- A kindled package with Larfort port A up and the admin queue live. -/
def adminLive : State :=
  { State.reset with
    kind := { Kind.reset with phase := 7, pwr := true, qual := true, opts := true }
    ports := [(0, { Port.reset with tstate := 5 })]
    queues := [(0, { Queue.none with live := true, ev := BitVec.ofNat 48 ringBase })] }

/-- More errors in one line than the code corrects (R345). -/
def manyErrors : List Nat := List.range 17

/-- The event of the line (R348), ETYPE 0x09, stands in the admin queue's event ring. -/
theorem adminLive_event :
    (stateAfter (exec (.backgroundScrub 0 0 (some (0, manyErrors))) adminLive)).map (State.byte · ringBase) = some 0x09 := by
  decide +kernel

theorem adminLive_upset_byte : (adminLive.upset 0 manyErrors).byte ringBase = 0 := by decide +kernel

theorem not_scrubberVisitsLine : ¬ ScrubberVisitsLine := by
  intro h
  obtain ⟨t, ht, -, -, hmem, -⟩ := h adminLive 0 0 (some (0, manyErrors)) _ (by decide +kernel) (by decide +kernel) (by decide +kernel)
    (by decide +kernel) (by decide +kernel) rfl
  have hevent := adminLive_event
  rw [ht] at hevent
  have hbyte : t.byte ringBase = 0 := (congrArg (SMap.get · 0 ringBase) hmem).trans adminLive_upset_byte
  exact absurd (hbyte.symm.trans (Option.some.inj hevent)) (by decide)

/-- Refutes O46: the scrubber reports an uncorrectable line by an event, and where the admin queue is live the record of it stands in host
memory, while the statement keeps all of memory as it was, and not the line alone. The part on PARITY_SCAN holds:
`parityScanFindsMismatch`. -/
theorem not_scrubAndParityFindErrors : ¬ Obligations.ScrubAndParityFindErrors := by
  unfold Obligations.ScrubAndParityFindErrors
  rintro ⟨h, -⟩
  exact not_scrubberVisitsLine h

end Sys2Proof.Cert
end

section
/-! SUPPORT. Fuses (R450, R457): the rows of the frame tables name the fuses for the commands that can commit a trial alone. -/

namespace Sys2Proof.Cert

open Sys2Proof.Machine

/-- Settles O7: each command's law, read through the mask of its row. -/
theorem frameOfStepCommands : Obligations.FrameOfStepCommands := by
  unfold Obligations.FrameOfStepCommands
  exact changesOnly_of_mask exec_changes_stepChanges

/-- Settles O8: each command's law, read through the mask of its row. -/
theorem frameOfRegisterCommands : Obligations.FrameOfRegisterCommands := by
  unfold Obligations.FrameOfRegisterCommands
  exact changesOnly_of_mask exec_changes_registerChanges

/-- Settles O9: each command's law, read through the mask of its row. -/
theorem frameOfPackageCommands : Obligations.FrameOfPackageCommands := by
  unfold Obligations.FrameOfPackageCommands
  exact changesOnly_of_mask exec_changes_packageChanges

theorem fusesLater_of_later {a b : Fuses} (h : Fuses.Later a b) : fusesLater a b := by
  refine ⟨h.part, h.uid, h.digests, fun i hi => ?_, h.arb⟩
  rw [← h.revoked, BitVec.getLsbD_or, hi, Bool.true_or]

/-- The rows that the five frame tables give a command. -/
def frameRows (c : Instr) : List (Option (List Part)) :=
  [hostChanges c, engineChanges c, stepChanges c, registerChanges c, packageChanges c]

/-- No row of a command that cannot commit a trial names the fuses. -/
theorem fuses_not_mem_row {c : Instr} (hc : mayBlowFuses c = false) {l : List Part} (hl : some l ∈ frameRows c) : Part.fuses ∉ l := by
  have h : (mayBlowFuses c || (frameRows c).all fun r => !(r.getD []).contains Part.fuses) = true := by
    cases c <;> rfl
  rw [hc, Bool.false_or, List.all_eq_true] at h
  simpa using h _ hl

theorem exec_keeps_fuses {c : Instr} {s t : State} (hc : mayBlowFuses c = false) (h : exec c s = .next t) : t.fuses = s.fuses := by
  obtain ⟨l, hl⟩ | ⟨l, hl⟩ | ⟨l, hl⟩ | ⟨l, hl⟩ | ⟨l, hl⟩ := exists_row c
  · exact frameOfHostCommands c s t l .fuses hl h (fuses_not_mem_row hc (by simp [frameRows, hl]))
  · exact frameOfEngineCommands c s t l .fuses hl h (fuses_not_mem_row hc (by simp [frameRows, hl]))
  · exact frameOfStepCommands c s t l .fuses hl h (fuses_not_mem_row hc (by simp [frameRows, hl]))
  · exact frameOfRegisterCommands c s t l .fuses hl h (fuses_not_mem_row hc (by simp [frameRows, hl]))
  · exact frameOfPackageCommands c s t l .fuses hl h (fuses_not_mem_row hc (by simp [frameRows, hl]))

theorem exec_blows_fuses_only {c : Instr} {s t : State} (h : exec c s = .next t) : fusesLater s.fuses t.fuses := by
  obtain ⟨u, m, hu, hchanges⟩ := exec_next_changes c s
  rw [h] at hu
  cases hu
  exact fusesLater_of_later hchanges.later

/-- Settles O4: a step idles, or is the meaning of the front command, whose law blows fuses only, and whose row names them only where
it can commit a trial. -/
theorem stepOnlyBlowsFuses : Obligations.StepOnlyBlowsFuses := by
  unfold Obligations.StepOnlyBlowsFuses
  intro s t hstep
  obtain ⟨hfront, hidle⟩ := stepRunsFrontCommand
  cases hp : s.pending with
  | nil =>
    rw [hidle s hp] at hstep
    cases hstep
    exact ⟨fusesLater_of_later (.refl _), fun c r h => nomatch h⟩
  | cons c r =>
    rw [hfront c r s hp] at hstep
    have hlater : fusesLater { s with pending := r }.fuses t.fuses := exec_blows_fuses_only hstep
    refine ⟨hlater, fun d q h hd => ?_⟩
    cases h
    exact (exec_keeps_fuses hd hstep : t.fuses = { s with pending := r }.fuses)

end Sys2Proof.Cert
end

section
/-! SUPPORT. The common registers (R368 to R382): a 4-byte write that lands is the write of its register, and what each of them leaves. -/

namespace Sys2Proof.Machine

/-! Reads of common registers. -/

/-- A common register that is not the seed reads as the page's block answers (R368 to R384). -/
theorem State.readWord_common {s : State} {i : PageInfo} {pg off : Nat} (hl : s.latched pg off = none) (ho : off < 0x100)
    (hseed : off ≠ 0x50) : s.readWord i pg off = (s, (s.commonRead i pg off).getD 0) := by
  unfold State.readWord
  rw [hl]
  simp [ho, hseed]

/-! Where an access lands. -/

theorem pageAddr_offset (pg : Nat) {off : Nat} (h : off < 4096) :
    (pageAddr pg + off - 0x0C0000000000) / 4096 = pg ∧ (pageAddr pg + off) % 4096 = off ∧ ¬ pageAddr pg + off < 0x0C0000000000 := by
  unfold pageAddr
  omega

/-- An access that the privilege may not make changes the page's error record alone (R375, R386). -/
theorem State.reach_refused {s : State} {prv : Priv} {pg off v : Nat} {w : Bool} (ho : off < 4096)
    (h : ∀ i, s.mayAccess prv i off w v = false) :
    ∃ t, s.reach prv (pageAddr pg + off) 4 w v = .error t ∧ (t = s ∨ t = s.pgErr pg eBusErr off) := by
  obtain ⟨hpg, hoff, hlow⟩ := pageAddr_offset pg ho
  unfold State.reach
  rw [hpg, hoff, if_neg hlow]
  cases hi : s.pageInfo pg with
  | none => exact ⟨s, rfl, .inl rfl⟩
  | some i => exact ⟨_, if_pos (by simp [h i]), .inr rfl⟩

/-! Page errors. -/

theorem State.page_pgErr (s : State) (pg : Nat) (code : BitVec 16) (off : Nat) :
    ((s.pgErr pg code off).page pg).arm = (s.page pg).arm ∧ ((s.pgErr pg code off).page pg).unl = (s.page pg).unl := by
  unfold State.pgErr
  dsimp only
  split
  · simp
  · simp

/-! The lock (R371). -/

/-- Unlock closes, and ARM stays. -/
theorem State.unl_closeUnlock (s : State) (pg : Nat) : ((s.closeUnlock pg).page pg).unl = false := by
  unfold State.closeUnlock
  dsimp only
  split
  · simp
  · simp

theorem State.page_writeLock_open {s : State} {pg : Nat} (harm : (s.page pg).arm = true) :
    (s.writeLock pg 0xA5A5).page pg = { s.page pg with unl := true, arm := false } := by
  unfold State.writeLock
  dsimp only
  rw [if_pos ⟨rfl, harm⟩]
  exact State.page_setPage ..

/-- Every other write of PG_LOCK closes the lock; the first key alone arms it. -/
theorem State.page_writeLock_close {s : State} {pg key : Nat} (h : ¬ (key = 0xA5A5 ∧ (s.page pg).arm = true)) :
    ((s.writeLock pg key).page pg).arm = decide (key = 0x5A5A) ∧ ((s.writeLock pg key).page pg).unl = false := by
  unfold State.writeLock
  dsimp only
  rw [if_neg h, State.page_setPage]
  exact ⟨rfl, State.unl_closeUnlock ..⟩

end Sys2Proof.Machine

namespace Sys2Proof.Cert

open Sys2Proof.Machine

/-- Settles O43: the common registers 0x000 and 0x004, which no read latches. -/
theorem pagesIdentifyThemselves : Obligations.PagesIdentifyThemselves := by
  unfold Obligations.PagesIdentifyThemselves
  intro s i pg hblk hdie hhearth hinst hid hver
  have hread : s.readWord i pg 0 = (s, i.blk * 2 ^ 24 + i.die * 2 ^ 16 + (i.hearth.getD 0xFF) * 2 ^ 8 + i.inst) :=
    State.readWord_common hid (by decide) (by decide)
  refine ⟨⟨_, hread, ?_⟩, State.readWord_common hver (by decide) (by decide)⟩
  have hlow : i.hearth.getD 0xFF < 256 := by
    cases hh : i.hearth with
    | none => decide
    | some h => exact (hhearth h hh).trans (by decide)
  refine ⟨by omega, by omega, by omega, fun h hh => ?_, fun hh => ?_⟩
  · rw [hh, Option.getD_some] at hlow ⊢
    omega
  · rw [hh, Option.getD_none] at hlow ⊢
    omega

/-! Writes that land. -/

section

variable {s : State} {prv : Priv} {pg off v : Nat} {i : PageInfo} (h : Lands s prv pg off v i)
include h

theorem Lands.pageInfo (ho : off < 4096) : s.pageInfo pg = some i := by
  obtain ⟨j, hj, hi⟩ := State.reach_ok ho h
  cases hj
  exact hi

theorem Lands.pageWrite_common (ho : off < 0x100) : s.pageWrite prv pg off v = s.writeCommon i pg off (v % 2 ^ 32) := by
  unfold State.pageWrite State.hostWrite State.writeReg
  rw [show s.reach prv (pageAddr pg + off) 4 true v = _ from h]
  dsimp only
  rw [if_pos ho]
  rfl

end

theorem word_mod (v : Word) : v.toNat % 2 ^ 32 = v.toNat := Nat.mod_eq_of_lt v.isLt

theorem exec_pgLockWrite (prv : Priv) (pg : Nat) (v : Word) (s : State) :
    exec (.pgLockWrite prv pg v) s = .next (s.pageWrite prv pg 0x00C v.toNat) := rfl

theorem lockOpensWithTwoKeys : LockOpensWithTwoKeys := by
  refine ⟨fun s prv pg v i h => ⟨_, rfl, ?_⟩, fun s k pg v => ⟨_, rfl, ?_⟩, fun s pg => rfl⟩
  · rw [Lands.pageWrite_common h (by decide), word_mod, show s.writeCommon i pg 0x00C v.toNat = s.writeLock pg (v.toNat % 65536) from rfl]
    generalize v.toNat % 65536 = key
    refine ⟨?_, ?_, ?_, fun h1 h2 => ?_⟩
    · rintro rfl
      exact State.page_writeLock_close (s := s) (pg := pg) (key := 0x5A5A) (by simp)
    · rintro rfl harm
      rw [State.page_writeLock_open harm]
      exact ⟨rfl, rfl⟩
    · rintro rfl harm
      exact State.page_writeLock_close (s := s) (pg := pg) (key := 0xA5A5) (by simp [harm])
    · simpa [h1] using State.page_writeLock_close (s := s) (pg := pg) (key := key) (fun hk => h2 hk.1)
  · have hno : ∀ j, s.mayAccess (.u k) j 0x00C true v.toNat = false := fun j => by simp [State.mayAccess]
    obtain ⟨t, ht, hst⟩ := State.reach_refused (s := s) (pg := pg) (by decide) hno
    have hrun : s.pageWrite (.u k) pg 0x00C v.toNat = t.addOut .refused := by
      unfold State.pageWrite State.hostWrite State.writeReg
      rw [ht]
      rfl
    rw [hrun]
    obtain rfl | rfl := hst
    · exact ⟨rfl, rfl, rfl⟩
    · obtain ⟨harm, hunl⟩ := State.page_pgErr s pg eBusErr 0x00C
      have hout : (s.pgErr pg eBusErr 0x00C).out = s.out := (State.pgErr_changes ..).out rfl
      exact ⟨harm, hunl, congrArg (fun o => o ++ [Out.refused]) hout⟩

theorem State.writeSnap_go {s : State} {pg v : Nat} (hscope : v % 8 < 5) (hgo : bit v 31 = true) :
    (s.writeSnap pg v).snapQ = s.snapQ ++ [(pg, v % 8)]
      ∧ (s.writeSnap pg v).page pg = { s.page pg with snapScope := BitVec.ofNat 3 v, snapBusy := (s.page pg).snapBusy + 1 } := by
  unfold State.writeSnap
  rw [if_neg (by omega)]
  dsimp only
  rw [if_pos hgo]
  exact ⟨rfl, State.page_setPage ..⟩

theorem State.snapScope_writeSnap {s : State} {pg v : Nat} (hscope : v % 8 < 5) :
    ((s.writeSnap pg v).page pg).snapScope = BitVec.ofNat 3 v := by
  unfold State.writeSnap
  rw [if_neg (by omega)]
  dsimp only
  split
  · exact congrArg Page.snapScope (State.page_setPage ..)
  · exact congrArg Page.snapScope (State.page_setPage ..)

theorem State.writeCtl_cntclr (s : State) (pg : Nat) : s.writeCtl pg 1 = s.setPage pg { s.page pg with cnt := [] } := by
  simp [State.writeCtl, show bit 1 0 = true from rfl, show bit 1 8 = false from rfl, show bit 1 31 = false from rfl]

theorem State.writeCtl_pinj (s : State) (pg : Nat) :
    s.writeCtl pg 0x100 = s.setPage pg { s.page pg with pinj := (s.page pg).pinj || s.testMode } := by
  simp [State.writeCtl, show bit 0x100 0 = false from rfl, show bit 0x100 8 = true from rfl, show bit 0x100 31 = false from rfl]

theorem State.writeCtl_srst {s : State} {pg : Nat} (hfree : pg ∉ s.rst.blocks) :
    s.writeCtl pg 0x80000000 = (s.setPage pg (s.page pg)).assertSource (blockSource pg) := by
  simp [State.writeCtl, show bit 0x80000000 0 = false from rfl, show bit 0x80000000 8 = false from rfl, show bit 0x80000000 31 = true from rfl, hfree]

theorem commonRegistersAct : CommonRegistersAct := by
  refine ⟨fun s prv pg i h => ?_, fun s prv pg i h => ?_, fun s prv pg i h hfree => ?_, fun s prv pg i h => ?_,
    fun s prv pg v i h => ⟨_, rfl, fun b hb => ?_⟩, fun s prv pg v i h => ⟨_, rfl, ?_⟩⟩
  · exact congrArg Host.Outcome.next ((Lands.pageWrite_common h (by decide)).trans (State.writeCtl_cntclr ..))
  · exact congrArg Host.Outcome.next ((Lands.pageWrite_common h (by decide)).trans (State.writeCtl_pinj ..))
  · exact congrArg Host.Outcome.next ((Lands.pageWrite_common h (by decide)).trans (State.writeCtl_srst hfree))
  · exact congrArg Host.Outcome.next (Lands.pageWrite_common h (by decide))
  · rw [Lands.pageWrite_common h (by decide), word_mod]
    change ((s.pageIrq pg _).page pg).irqRaw.getLsbD b = _
    rw [State.page_pageIrq]
    simp [hb]
  · rw [Lands.pageWrite_common h (by decide), word_mod, show s.writeCommon i pg 0x080 v.toNat = s.writeSnap pg v.toNat from rfl]
    refine ⟨fun h5 => if_pos h5, fun h5 => ?_, fun h5 hgo => ?_⟩
    · rw [State.snapScope_writeSnap h5, BitVec.toNat_ofNat]
    · obtain ⟨hq, hpage⟩ := State.writeSnap_go h5 hgo
      exact ⟨hq, congrArg Page.snapBusy hpage⟩

/-- Settles O44, by its two parts. -/
theorem commonRegisterCommandsAct : Obligations.CommonRegisterCommandsAct := ⟨lockOpensWithTwoKeys, commonRegistersAct⟩

end Sys2Proof.Cert
end

section
/-! SUPPORT. Reset sources (R398 to R409): an assertion is recorded before its scope is held, and holding keeps the record; recovery records
the episode before it performs the reach. -/

namespace Sys2Proof.Machine

/-! Assertion (R400, R401). -/

theorem State.noteSource_rst (s : State) (x : Source) : (s.noteSource x).rst = s.rst.assert x s.endStage.dies :=
  congrArg (fun r => r.assert x s.endStage.dies) ((State.endStage_changes s).rst rfl)

theorem State.noteSource_ember (s : State) (x : Source) : (s.noteSource x).ember = s.ember.cause x.cause :=
  congrArg (fun e => e.cause x.cause) ((State.endStage_changes s).ember rfl)

/-- Whatever scope an assertion holds in reset, the reset controller's record stays as the assertion left it. -/
theorem State.assertSource_keeps_note {s : State} (x : Source) (h : s.supply.vstbyGood = true) :
    (s.assertSource x).rst = (s.noteSource x).rst ∧ (s.assertSource x).ember = (s.noteSource x).ember := by
  unfold State.assertSource
  rw [if_pos h]
  dsimp only
  split
  · exact ⟨(State.holdCold_changes _).rst rfl, (State.holdCold_changes _).ember rfl⟩
  · split
    · exact ⟨rfl, rfl⟩
    · split
      · exact ⟨(State.holdWarm_changes _).rst rfl, (State.holdWarm_changes _).ember rfl⟩
      · split
        · exact ⟨(State.holdBlock_changes ..).rst rfl, (State.holdBlock_changes ..).ember rfl⟩
        · exact ⟨(State.holdDies_changes ..).rst rfl, (State.holdDies_changes ..).ember rfl⟩

theorem State.assertSource_rst {s : State} (x : Source) (h : s.supply.vstbyGood = true) :
    (s.assertSource x).rst = s.rst.assert x s.endStage.dies :=
  (State.assertSource_keeps_note x h).1.trans (State.noteSource_rst s x)

theorem State.assertSource_ember {s : State} (x : Source) (h : s.supply.vstbyGood = true) :
    (s.assertSource x).ember = s.ember.cause x.cause :=
  (State.assertSource_keeps_note x h).2.trans (State.noteSource_ember s x)

theorem State.assertSource_pins (s : State) (x : Source) : (s.assertSource x).pins = s.pins := (State.assertSource_changes s x).pins rfl

theorem State.assertSource_supply (s : State) (x : Source) : (s.assertSource x).supply = s.supply :=
  (State.assertSource_changes s x).supply rfl

theorem Ember.rcnt_cause (e : Ember) (c d : Nat) :
    SMap.get (e.cause c).rcnt 0 d = if d = c then min 0xFFFF (SMap.get e.rcnt 0 c + 1) else SMap.get e.rcnt 0 d :=
  SMap.get_insert ..

/-! Recovery (R400, R401, R411). -/

/-- The blocks that are released take neither the record nor the counters with them. -/
theorem State.releaseBlocks_keep (l : List Nat) (s : State) :
    (l.foldl (fun t pg => t.releaseBlock pg) s).ember = s.ember ∧ (l.foldl (fun t pg => t.releaseBlock pg) s).rst = s.rst := by
  induction l generalizing s with
  | nil => exact ⟨rfl, rfl⟩
  | cons pg r ih =>
    obtain ⟨hember, hrst⟩ := ih (s.releaseBlock pg)
    exact ⟨hember.trans ((State.releaseBlock_changes s pg).ember rfl), hrst.trans ((State.releaseBlock_changes s pg).rst rfl)⟩

/-- Whatever reach a recovery performs, the record stays as its start left it. -/
theorem State.recover_records {s : State} {y : Nat} (h : s.rst.latch = some y) :
    s.recover.ember = (s.noteRecovery y).ember ∧ s.recover.rst = (s.noteRecovery y).rst := by
  unfold State.recover
  rw [h]
  dsimp only
  split
  · exact ⟨(State.count_changes ..).ember rfl, (State.count_changes ..).rst rfl⟩
  · split
    · exact ⟨rfl, rfl⟩
    · have hdies : (if y = 4 then s.noteRecovery y else (s.noteRecovery y).recoverDies (decide (y = 2)) s.rst.scope).ember = (s.noteRecovery y).ember
          ∧ (if y = 4 then s.noteRecovery y else (s.noteRecovery y).recoverDies (decide (y = 2)) s.rst.scope).rst = (s.noteRecovery y).rst := by
        split
        · exact ⟨rfl, rfl⟩
        · exact ⟨(State.recoverDies_changes ..).ember rfl, (State.recoverDies_changes ..).rst rfl⟩
      exact ⟨(State.releaseBlocks_keep ..).1.trans hdies.1, (State.releaseBlocks_keep ..).2.trans hdies.2⟩

/-- The state without the asserted sources of cause `c` (R400). -/
def State.withoutCause (s : State) (c : Nat) : State :=
  { s with rst := { s.rst with asserted := s.rst.asserted.filter fun x => !decide (x.cause = c) } }

theorem State.releaseSource_of_ne_ten {s : State} {c pg : Nat} (hc : c ≠ 10) (h : ∃ x ∈ s.rst.asserted, x.cause = c) :
    s.releaseSource c pg = if (s.withoutCause c).rst.asserted = [] then (s.withoutCause c).recover else s.withoutCause c := by
  unfold State.releaseSource State.withoutCause
  simp only [hc, ne_eq, not_false_eq_true, decide_true, Bool.true_or, Bool.and_true]
  rw [if_pos (by simpa using h)]

/-- The pins that a release raises again (R398). -/
def State.withReleasedPin (s : State) (c : Nat) : State :=
  { s with pins := { s.pins with rstn := s.pins.rstn || decide (c = 2), wrstn := s.pins.wrstn || decide (c = 3),
                                 refclk := s.pins.refclk || decide (c = 11) } }

theorem exec_resetSourceRelease {s : State} {c pg : Nat} (hc : 2 ≤ c) :
    exec (.resetSourceRelease c pg) s = .next ((s.withReleasedPin c).releaseSource c pg) :=
  if_neg (by omega)

/-- At a reading of 105 °C or more THERM_N is low while the sensors are powered (R490). -/
theorem State.thermLow_of_hot {s : State} (hon : s.sensorsOn = true) (h : 105 ≤ s.supply.tj.toNat) : s.thermLow = true := by
  simp [State.thermLow, hon, h]

end Sys2Proof.Machine

namespace Sys2Proof.Cert

open Sys2Proof.Machine

theorem assertionsAreLatchedAndCounted : AssertionsAreLatchedAndCounted := by
  intro s x h
  rw [State.assertSource_rst x h, State.assertSource_ember x h]
  refine ⟨rfl, rfl, ?_, fun c hc => ?_, rfl, rfl⟩
  · rw [Ember.rcnt_cause, if_pos rfl]
  · rw [Ember.rcnt_cause, if_neg hc]

theorem lastReleaseEndsTheEpisode : LastReleaseEndsTheEpisode := by
  refine ⟨fun s y h => ?_, fun s c y hc2 _ hc10 hlatch hhit => ⟨fun hmore => ?_, fun hall => ?_⟩⟩
  · obtain ⟨hember, hrst⟩ := State.recover_records h
    rw [hember, hrst]
    exact ⟨rfl, rfl, rfl⟩
  · obtain ⟨x, hx, hxc⟩ := hmore
    have hne : (s.rst.asserted.filter fun x => !decide (x.cause = c)) ≠ [] :=
      List.ne_nil_of_mem (List.mem_filter.2 ⟨hx, by simpa using hxc⟩)
    have hrun := (State.releaseSource_of_ne_ten (s := s.withReleasedPin c) (pg := 0) hc10 hhit).trans (if_neg hne)
    refine ⟨_, exec_resetSourceRelease hc2, ?_⟩
    rw [hrun]
    exact ⟨hlatch, rfl, by simp [State.withoutCause, State.withReleasedPin]⟩
  · have hnil : (s.rst.asserted.filter fun x => !decide (x.cause = c)) = [] := List.filter_eq_nil_iff.2 (by simpa using hall)
    have hrun := (State.releaseSource_of_ne_ten (s := s.withReleasedPin c) (pg := 0) hc10 hhit).trans (if_pos hnil)
    obtain ⟨hember, hrst⟩ := State.recover_records (s := (s.withReleasedPin c).withoutCause c) hlatch
    refine ⟨_, exec_resetSourceRelease hc2, ?_⟩
    rw [hrun, hember, hrst]
    exact ⟨rfl, rfl, rfl, rfl, rfl⟩

/-- Settles O51: the record stands before the scope is held, and before the reach is performed; neither changes it. -/
theorem resetCausesAreRecorded : Obligations.ResetCausesAreRecorded := ⟨assertionsAreLatchedAndCounted, lastReleaseEndsTheEpisode⟩

theorem assertSource_asserts {s : State} (x : Source) (h : s.supply.vstbyGood = true) : Asserts s x (s.assertSource x) := by
  obtain ⟨hasserted, hlatch, hcount, -, -, -⟩ := assertionsAreLatchedAndCounted s x h
  refine ⟨hasserted, ⟨_, hlatch, ?_⟩, hcount⟩
  cases s.rst.latch with
  | none => exact le_rfl
  | some y => exact min_le_right ..

theorem setTemp_tj (s : State) (d : Nat) {v : Nat} (h : v < 256) : (s.setTemp d v).supply.tj.toNat = v := by
  simp only [State.setTemp, BitVec.toNat_ofNat]
  omega

theorem resetSourcesAssert : ResetSourcesAssert := by
  refine ⟨fun s hs => ⟨fun hpin => ?_, fun hpin => ?_, fun p hp hup => ?_, fun hon => ?_, fun d v hlo hhi hd hvin hno => ?_, fun hpin => ?_⟩,
    fun s d v hlo hhi hd hon => ?_⟩
  · exact ⟨_, congrArg Host.Outcome.next (if_pos hpin), assertSource_asserts _ hs, congrArg Pins.rstn (State.assertSource_pins ..)⟩
  · exact ⟨_, congrArg Host.Outcome.next (if_pos hpin), assertSource_asserts _ hs, congrArg Pins.wrstn (State.assertSource_pins ..)⟩
  · exact ⟨_, congrArg Host.Outcome.next (if_pos ⟨hp, hup⟩), assertSource_asserts _ hs⟩
  · exact ⟨_, congrArg Host.Outcome.next (if_pos hon), assertSource_asserts _ hs⟩
  · have hon : s.sensorsOn = true := by simp [State.sensorsOn, hvin, hs]
    have htj := setTemp_tj s d hhi
    refine ⟨_, if_pos ⟨hlo, hd, hon, by simpa using hno⟩, assertSource_asserts _ hs, ?_, ?_⟩
    · rw [State.assertSource_supply, htj]
    · refine State.thermLow_of_hot ?_ ?_
      · unfold State.sensorsOn
        rw [State.assertSource_supply]
        exact hon
      · rw [State.assertSource_supply, htj]
        omega
  · exact ⟨_, congrArg Host.Outcome.next (if_pos (by simp [hpin, hs])), assertSource_asserts _ hs, congrArg Pins.refclk (State.assertSource_pins ..)⟩
  · have htj := setTemp_tj s d hhi
    have hevent := State.pkgEvent_changes (s.setTemp d v) 0x0C 0 0 []
    have hsupply : ((s.setTemp d v).pkgEvent 0x0C 0 0 []).supply = (s.setTemp d v).supply := hevent.supply rfl
    refine ⟨_, (if_pos ⟨hd, hon⟩).trans (congrArg Host.Outcome.next (if_pos hlo)), ?_, hevent.rst rfl, State.thermLow_of_hot ?_ ?_⟩
    · rw [hsupply, htj]
    · unfold State.sensorsOn
      rw [hsupply]
      exact hon
    · rw [hsupply, htj]
      omega

theorem foldl_lostClk (f : State → Nat → State) (hf : ∀ t pg, (f t pg).lostClk = t.lostClk) (l : List Nat) (s : State) :
    (l.foldl f s).lostClk = s.lostClk := by
  induction l generalizing s with
  | nil => rfl
  | cons pg r ih => exact (ih _).trans (hf s pg)

theorem clocksLoseAndRegainQualification : ClocksLoseAndRegainQualification := by
  refine ⟨fun s d k hd hpages hqual hheld hnew => ⟨_, if_pos ?_, ?_⟩, fun s d k hlost => ⟨_, if_pos hlost, ?_⟩⟩
  · simp [hd, hpages, hqual, hheld, hnew]
  · have hkeep : ∀ t : State, t.lostClk = s.lostClk ++ [(d, k)] →
        (if t.earlyOn then (s.clkPages d k).foldl State.releaseBlock t else t).lostClk = s.lostClk ++ [(d, k)] := by
      intro t ht
      split
      · exact (foldl_lostClk _ (fun u pg => (State.releaseBlock_changes u pg).lostClk rfl) _ _).trans ht
      · exact ht
    refine hkeep _ ((foldl_lostClk _ (fun t pg => ?_) _ _).trans ?_)
    · exact ((State.raise_changes ..).lostClk rfl).trans ((State.holdBlock_changes ..).lostClk rfl)
    · exact ((State.count_changes ..).lostClk rfl).trans ((State.endStage_changes _).lostClk rfl)
  · refine foldl_lostClk _ (fun t pg => ?_) _ _
    split
    · rfl
    · exact (State.releaseBlock_changes ..).lostClk rfl

/-- Settles O52: each source's condition leads to its assertion; a clock's blocks are held and released beside the list of lost clocks. -/
theorem resetSourcesAndClocksAct : Obligations.ResetSourcesAndClocksAct := ⟨resetSourcesAssert, clocksLoseAndRegainQualification⟩

end Sys2Proof.Cert
end

section
/-! SUPPORT. Kindling (R410 to R412, R451): what a phase in progress means, what a halt records, and what the end of a phase leaves. -/

namespace Sys2Proof.Machine

theorem State.inPhase_iff {s : State} {p : Nat} : s.inPhase p = true ↔ s.kind.phase = p ∧ s.kind.halt = false ∧ s.supply.vstbyGood = true
    ∧ (p = 0 ∨ s.rst.latch = none ∧ s.supply.vinGood = true) := by
  simp [State.inPhase, and_assoc]

theorem State.phase_of_inPhase {s : State} {p : Nat} (h : s.inPhase p = true) : s.kind.phase = p := (State.inPhase_iff.1 h).1

/-- A halt keeps the phase that it stopped, and records its code and its die (R412). -/
theorem State.kind_halt (s : State) (code die : Nat) :
    (s.halt code die).kind = { s.kind with halt := true, hcode := code, hdie := die, pwr := false, qual := false, scope := none, back := 7 } :=
  (State.count_changes ..).kind rfl

theorem State.halt_records (s : State) (code die : Nat) :
    (s.halt code die).kind.halt = true ∧ (s.halt code die).kind.hcode = code ∧ (s.halt code die).kind.hdie = die := by
  rw [State.kind_halt]
  exact ⟨rfl, rfl, rfl⟩

/-- K1 ends with every sensor at 95 °C or below (R408). -/
theorem State.tj_cooled (s : State) : s.cooled.supply.tj.toNat ≤ 95 := by
  unfold State.cooled
  split
  · change (BitVec.ofNat 8 (Config.freeNat s.fresh % 96)).toNat ≤ 95
    rw [BitVec.toNat_ofNat]
    omega
  · next h => exact Nat.le_of_not_lt h

/-- THERM_N stays low while K1 waits for the temperature (R490). -/
theorem State.thermLow_holdHot {s : State} (h : s.inPhase 1 = true) : s.holdHot.thermLow = true := by
  obtain ⟨hphase, -, hvstby, -⟩ := State.inPhase_iff.1 h
  simp [State.thermLow, State.holdHot, hphase, hvstby]

/-- Scrubs leave kindling as it was. -/
theorem State.kind_scrubCords (l : List Nat) (s : State) : (l.foldl (fun t c => (t.scrubCord 1 c).1) s).kind = s.kind := by
  induction l generalizing s with
  | nil => rfl
  | cons c r ih => exact (ih _).trans ((State.scrubCord_changes s 1 c).kind rfl)

/-- The stacks in scope after their scrub (R350), which K4 performs after every reset but COLD. -/
def State.stacksScrubbed (s : State) : State :=
  if !s.kind.cold || s.kind.scope.isSome then
    (s.scopeCords.filter fun c => s.active (216 + 2 * c) && s.active (217 + 2 * c)).foldl (fun t c => (t.scrubCord 1 c).1) s
  else s

theorem State.kind_stacksScrubbed (s : State) : s.stacksScrubbed.kind = s.kind := by
  unfold State.stacksScrubbed
  split
  · exact State.kind_scrubCords ..
  · rfl

theorem exec_stackTraining_none {s : State} (h : s.inPhase 4 = true) : exec (.stackTraining none) s
    = .next { s.stacksScrubbed with kind := { s.kind with phase := if s.kind.scope.isSome then s.kind.back else 5, scope := none, back := 7 } } := by
  rw [← State.kind_stacksScrubbed s]
  exact if_pos h

/-- Settings records touch registers and the draught controller alone, the slot beats their source. -/
theorem State.settingsApplied_keeps (s : State) : s.applySettings.reSource.kind = s.kind ∧ s.applySettings.reSource.shadow = s.shadow
    ∧ s.applySettings.reSource.ember = s.ember :=
  ⟨((State.reSource_changes _).kind rfl).trans ((State.applySettings_changes s).kind rfl),
    ((State.reSource_changes _).shadow rfl).trans ((State.applySettings_changes s).shadow rfl),
    ((State.reSource_changes _).ember rfl).trans ((State.applySettings_changes s).ember rfl)⟩

/-- The ports that start keep kindling and the running firmware. -/
theorem State.kind_fw_portStarts (l : List Nat) (s : State) :
    (l.foldl (fun t p => t.portStart p) s).kind = s.kind ∧ (l.foldl (fun t p => t.portStart p) s).fw = s.fw := by
  induction l generalizing s with
  | nil => exact ⟨rfl, rfl⟩
  | cons p r ih =>
    obtain ⟨hkind, hfw⟩ := ih (s.portStart p)
    exact ⟨hkind.trans ((State.portStart_changes s p).kind rfl), hfw.trans ((State.portStart_changes s p).fw rfl)⟩

/-- Firmware that starts runs its image in K6 (R451). -/
theorem State.startFw_runs (s : State) (version : Word64) (runb chain : Bool) :
    (s.startFw version runb chain).kind.phase = 6 ∧ (s.startFw version runb chain).fw.version = version
      ∧ (s.startFw version runb chain).fw.runb = runb := by
  unfold State.startFw
  dsimp only
  rw [(State.enumHead_changes _).kind rfl, (State.enumHead_changes _).fw rfl, (State.kind_fw_portStarts ..).1, (State.kind_fw_portStarts ..).2]
  exact ⟨rfl, rfl, rfl⟩

end Sys2Proof.Machine

namespace Sys2Proof.Cert

open Sys2Proof.Machine

theorem kindlingAdvances : KindlingAdvances := by
  refine ⟨fun s hphase hhalt hvstby => ?_, fun s h => ⟨?_, ?_⟩, fun s h hgood => ?_, fun s h => ?_, fun s h hscope hcold => ?_,
    fun s l h hscope => ?_, fun s b t h hboot hflash => ?_, fun s h hboot hend => ?_, fun s a b h => ?_⟩
  · exact if_pos (State.inPhase_iff.2 ⟨hphase, hhalt, hvstby, .inl rfl⟩)
  · exact ⟨_, if_pos h, rfl, State.thermLow_holdHot h⟩
  · exact ⟨_, if_pos h, rfl, rfl, State.tj_cooled s⟩
  · refine ⟨_, (if_pos h).trans (if_neg (by simp [hgood])), ?_⟩
    obtain ⟨hkind, hshadow, hember⟩ := State.settingsApplied_keeps _
    rw [hkind, hshadow, hember]
    exact ⟨rfl, rfl, rfl, rfl⟩
  · exact ⟨_, if_pos h, rfl, rfl⟩
  · rw [exec_stackTraining_none h]
    simp [State.stacksScrubbed, hscope, hcold]
  · exact ⟨_, exec_stackTraining_none h, by simp [hscope], rfl⟩
  · refine ⟨_, (if_pos h).trans ((if_neg (by omega)).trans ?_), State.startFw_runs t (t.bankVersion b) b false⟩
    rw [hflash]
  · exact (if_pos h).trans ((if_pos hboot).trans (if_neg (by simp [hend])))
  · exact ⟨_, if_pos h, rfl⟩

theorem kindlingHalts : KindlingHalts := by
  refine ⟨fun s d h => ?_, fun s d x h => ?_, fun s d h => ?_, fun s d h => ?_, fun s t h hboot hflash => ?_⟩
  · obtain ⟨hhalt, hcode, hdie⟩ := State.halt_records s 5 d
    refine ⟨_, if_pos h, hhalt, hcode, hdie, ?_⟩
    rw [State.kind_halt]
    exact State.phase_of_inPhase h
  · exact ⟨_, if_pos h, State.halt_records s 1 d⟩
  · exact ⟨_, if_pos h, State.halt_records s 2 d⟩
  · obtain ⟨hhalt, hcode, hdie⟩ := State.halt_records s 3 d
    exact ⟨_, if_pos h, hhalt, hcode, hdie, (State.halt_changes ..).ember rfl⟩
  · refine ⟨_, (if_pos h).trans ((if_neg (by omega)).trans ?_), State.halt_records t 4 98⟩
    rw [hflash]

/-- Settles O50: each phase's end by its own command; every halt through the same record. -/
theorem kindlingRunsOrHalts : Obligations.KindlingRunsOrHalts := ⟨kindlingAdvances, kindlingHalts⟩

end Sys2Proof.Cert
end

section
/-! SUPPORT. Supplies (R389 to R392) and power domains (R394): verdicts, the pins judged when VSTBY returns, and that no part of a transition
but its own record touches a domain. -/

namespace Sys2Proof.Machine

/-! Supplies. -/

theorem vinGoodAt_iff {v : BitVec 16} : vinGoodAt v = true ↔ 4600 ≤ v.toNat ∧ v.toNat ≤ 6200 := by simp [vinGoodAt]

theorem vinBadAt_iff {v : BitVec 16} : vinBadAt v = true ↔ v.toNat < 4400 ∨ 6200 < v.toNat := by simp [vinBadAt]

/-- A cause that asserts nothing has nothing to release (R400). -/
theorem State.releaseSource_of_none {s : State} {c pg : Nat} (h : ∀ x ∈ s.rst.asserted, x.cause ≠ c) : s.releaseSource c pg = s := by
  unfold State.releaseSource
  refine if_neg ?_
  simp only [List.any_eq_true, Bool.and_eq_true, decide_eq_true_eq, not_exists, not_and]
  exact fun x hx hc => absurd hc (h x hx)

/-- A wide source of COLD sends kindling back to K1 at least (R397). -/
theorem State.phase_assertSource_cold {s : State} (c : Nat) (h : s.supply.vstbyGood = true) :
    (s.assertSource (wideSource c 0)).kind.phase ≤ 1 := by
  unfold State.assertSource
  rw [if_pos h]
  exact min_le_left ..

theorem State.setVstby_good (s : State) (v : BitVec 12) :
    s.setVstby v true = { s with supply := { s.supply with vstby := v, vstbyGood := true } } := by
  simp [State.setVstby]

theorem State.assertPins_of_high {s : State} (hr : s.pins.rstn = true) (hw : s.pins.wrstn = true) (hc : s.pins.refclk = true) :
    s.assertPins = s := by
  simp [State.assertPins, hr, hw, hc]

/-- RSTN asserts since VSTBY returned: COLD is latched, and VSTBY and RSTN are counted once each. -/
structure State.RstnJudged (t : State) : Prop where
  vstby : t.supply.vstbyGood = true
  asserted : wideSource 2 0 ∈ t.rst.asserted
  latch : t.rst.latch = some 0
  vstbyCount : SMap.get t.ember.rcnt 0 1 = 1
  rstnCount : SMap.get t.ember.rcnt 0 2 = 1

/-- A further source changes neither count, and COLD is the widest reach. -/
theorem State.RstnJudged.assertSource {t : State} (h : t.RstnJudged) {c : Nat} (r : Nat) (hc : 2 < c) :
    (t.assertSource (wideSource c r)).RstnJudged := by
  have hrst := State.assertSource_rst (wideSource c r) h.vstby
  have hember := State.assertSource_ember (wideSource c r) h.vstby
  refine ⟨?_, ?_, ?_, ?_, ?_⟩
  · rw [State.assertSource_supply]
    exact h.vstby
  · rw [hrst]
    exact List.mem_append_left _ h.asserted
  · rw [hrst]
    simp [Rst.assert, h.latch]
  · rw [hember, Ember.rcnt_cause, if_neg (show 1 ≠ (wideSource c r).cause from (by omega : 1 ≠ c))]
    exact h.vstbyCount
  · rw [hember, Ember.rcnt_cause, if_neg (show 2 ≠ (wideSource c r).cause from (by omega : 2 ≠ c))]
    exact h.rstnCount

theorem State.rstnJudged_assertPins {s : State} (hv : s.supply.vstbyGood = true) (hr : s.pins.rstn = false)
    (hember : s.ember = { Ember.reset with rcnt := [(1, 1)], rtotal := 1 }) : s.assertPins.RstnJudged := by
  have hrstn : (s.assertSource (wideSource 2 0)).RstnJudged := by
    have hrst := State.assertSource_rst (wideSource 2 0) hv
    have hcount := State.assertSource_ember (wideSource 2 0) hv
    rw [hember] at hcount
    refine ⟨?_, ?_, ?_, ?_, ?_⟩
    · rw [State.assertSource_supply]
      exact hv
    · rw [hrst]
      exact List.mem_append_right _ (List.mem_singleton_self _)
    · rw [hrst]
      cases h : s.rst.latch with
      | none => simp [Rst.assert, h, wideSource]
      | some y => simp [Rst.assert, h, wideSource]
    · rw [hcount]
      rfl
    · rw [hcount]
      rfl
  unfold State.assertPins
  dsimp only
  rw [hr, if_neg Bool.false_ne_true]
  have hwrstn : (if s.pins.wrstn then s.assertSource (wideSource 2 0)
      else (s.assertSource (wideSource 2 0)).assertSource (wideSource 3 1)).RstnJudged := by
    split
    · exact hrstn
    · exact hrstn.assertSource 1 (by decide)
  split
  · exact hwrstn
  · exact hwrstn.assertSource 1 (by decide)

/-! Domains. -/

/-- The parts on which a domain's state rests, and no others, are kept. -/
def domsKept : Nat := 0xfffffffffe5f

theorem Changes.dom {s t : State} (h : Changes domsKept s t) (k : Nat) : t.dom k = s.dom k := by
  unfold State.dom State.domDflt State.domReq0 State.hlw32 State.strap
  rw [h.doms rfl, h.kind rfl, h.ember rfl]

/-- The record of a domain whose transition has ended (R394). -/
def Dom.settled (d : Dom) : Dom := { d with state := d.req, busy := false }

@[simp] theorem State.dom_setDom (s : State) (k : Nat) (d : Dom) : (s.setDom k d).dom k = d := SMap.get_put_self ..

/-- A port that carries no traffic, or a host port, stops without an effect on engines and steps (R432). -/
theorem State.portLost_idle {s : State} {p st : Nat} (h : 2 ≤ p → (s.port p).tstate ≠ 5 ∧ (s.port p).tstate ≠ 6) :
    Changes domsKept s (s.portLost p st) := by
  unfold State.portLost
  dsimp only
  rw [if_neg]
  · exact (State.portTo_changes ..).widen
  · simp only [Bool.and_eq_true, decide_eq_true_eq, not_and_or, not_or]
    tauto

/-- What a domain that goes off loses is no other domain's state, unless a port under traffic goes with it. -/
theorem State.domLost_keeps_doms {s : State} {k : Nat}
    (h : ∀ p, 2 ≤ p → p < 6 → portDom p = k → (s.port p).tstate ≠ 5 ∧ (s.port p).tstate ≠ 6) : Changes domsKept s (s.domLost k) := by
  have hdrop : ∀ f, Changes domsKept s (s.dropPages f) := fun f => (State.dropPages_changes s f).widen
  unfold State.domLost
  dsimp only
  split
  · split
    · exact (hdrop _).andThen (Changes.set_stores_drains _ _ _)
    · exact (hdrop _).andThen (State.dropHearths_changes ..)
  · split
    · split
      · exact (hdrop _).andThen (State.dropStack_changes ..)
      · exact (hdrop _).andThen (Changes.set_scrubPos _ _)
    · split
      · exact (hdrop _).andThen (State.setTrc_changes ..)
      · split
        · next p hp =>
          refine (hdrop _).andThen (State.portLost_idle fun h2 => h p h2 ?_ ?_)
          · exact List.mem_range.1 (List.mem_of_find?_eq_some hp)
          · simpa using List.find?_some hp
        · exact hdrop _

end Sys2Proof.Machine

namespace Sys2Proof.Cert

open Sys2Proof.Machine

theorem suppliesAreJudged : SuppliesAreJudged := by
  refine ⟨fun s v hlo hhi hno => ?_, fun s v hlo hhi hone hlatch => ?_, fun s v hbad hvin hvstby => ?_, fun s v hlo hhi => ⟨?_, ?_⟩,
    fun s v hv => ⟨fun hgood => ?_, fun hgood hr hw hc => ?_, fun hgood hr => ?_⟩, fun s v hv hgood => ?_, fun s v hlo hhi => ⟨?_, ?_⟩⟩
  · have hrun : (s.setVin v true).releaseSource 0 0 = s.setVin v true := State.releaseSource_of_none hno
    exact congrArg Host.Outcome.next ((if_pos (vinGoodAt_iff.2 ⟨hlo, hhi⟩)).trans hrun)
  · have hhit : ∃ x ∈ (s.setVin v true).rst.asserted, x.cause = 0 := ⟨wideSource 0 0, by simp [State.setVin, hone], rfl⟩
    have hnil : ((s.setVin v true).withoutCause 0).rst.asserted = [] := by
      simp [State.withoutCause, State.setVin, hone, wideSource]
    have hrun := (State.releaseSource_of_ne_ten (pg := 0) (by decide) hhit).trans (if_pos hnil)
    obtain ⟨hember, hrst⟩ := State.recover_records (s := (s.setVin v true).withoutCause 0) hlatch
    refine ⟨_, congrArg Host.Outcome.next (if_pos (vinGoodAt_iff.2 ⟨hlo, hhi⟩)), ?_⟩
    rw [hrun, (State.recover_changes _).supply rfl, hember, hrst]
    exact ⟨rfl, rfl, rfl⟩
  · have hkeep : (s.setVin v false).supply.vstbyGood = true := hvstby
    have hrst := State.assertSource_rst (wideSource 0 0) hkeep
    refine ⟨_, congrArg Host.Outcome.next (if_pos ?_), ?_, ?_, ?_, ?_, State.phase_assertSource_cold 0 hkeep⟩
    · rw [vinBadAt_iff.2 hbad, hvin, Bool.and_self]
    · rw [State.assertSource_supply]
      rfl
    · rw [State.assertSource_supply]
      rfl
    · rw [hrst]
      exact List.mem_append_right _ (List.mem_singleton_self _)
    · rw [hrst]
      cases h : (s.setVin v false).rst.latch with
      | none => simp [Rst.assert, h, wideSource]
      | some y => simp [Rst.assert, h, wideSource]
  · exact congrArg Host.Outcome.next (if_neg fun h => by have := vinGoodAt_iff.1 h; omega)
  · refine congrArg Host.Outcome.next (if_neg fun h => ?_)
    obtain ⟨hbad, -⟩ := Bool.and_eq_true_iff.1 h
    have := vinBadAt_iff.1 hbad
    omega
  · exact congrArg Host.Outcome.next ((if_pos hv).trans ((if_pos hgood).trans (State.setVstby_good s v)))
  · refine congrArg Host.Outcome.next ((if_pos hv).trans ((if_neg (by simp [hgood])).trans ?_))
    rw [State.setVstby_good]
    exact State.assertPins_of_high hr hw hc
  · refine ⟨_, congrArg Host.Outcome.next ((if_pos hv).trans (if_neg (by simp [hgood]))), ?_⟩
    rw [State.setVstby_good]
    have hjudged := State.rstnJudged_assertPins (s := { s with supply := { s.supply with vstby := v, vstbyGood := true }, ember := { Ember.reset with rcnt := [(1, 1)], rtotal := 1 } }) rfl hr rfl
    exact ⟨hjudged.asserted, hjudged.latch, hjudged.vstbyCount, hjudged.rstnCount⟩
  · refine ⟨_, if_pos ⟨hv, hgood⟩, ?_, rfl, rfl, rfl, ?_, ?_⟩
    · exact congrArg Supply.vstbyGood ((State.holdCold_changes _).supply rfl)
    · exact (State.holdCold_changes _).fuses rfl
    · exact (State.holdCold_changes _).flash rfl
  · exact congrArg Host.Outcome.next (if_neg (by omega))
  · exact if_neg fun h => by omega

theorem transitionsComplete : TransitionsComplete := by
  intro s k hbusy hwait hopen _ hports
  have hstart : ∀ (t : State) (p : Nat), Changes domsKept t (if portDom p = k then t.portStart p else t) := by
    intro t p
    split
    · exact (State.portStart_changes ..).widen
    · exact Changes.refl ..
  have hbegin : ∀ (t : State) (c : Nat × Ctx), Changes domsKept t (t.tryBegin c.1) := fun t c => (State.tryBegin_changes ..).widen
  have hlost : Changes domsKept (s.setDom k (s.dom k).settled)
      (if (s.dom k).req = 0 ∧ (s.dom k).state ≠ 0 then (s.setDom k (s.dom k).settled).domLost k else s.setDom k (s.dom k).settled) := by
    split
    · next h => exact State.domLost_keeps_doms fun p h2 h6 hp => hports p h2 h6 hp h.1
    · exact Changes.refl ..
  have hdone : ∀ u, Changes domsKept (s.setDom k (s.dom k).settled) u →
      (u.liveCtxs.foldl (fun t c => t.tryBegin c.1) u).dom k = (s.dom k).settled := fun u hu =>
    ((Changes.foldl _ hu hbegin).dom k).trans (State.dom_setDom ..)
  refine ⟨_, if_pos (by simp [hbusy, hwait, hopen]), ?_⟩
  rw [hdone _ ?_]
  · exact ⟨rfl, rfl, rfl⟩
  · split
    · exact hlost.andThen (State.ledgerFell_changes _)
    · exact Changes.foldl _ hlost hstart

/-- Settles O49, by its two parts. -/
theorem suppliesAndDomainsFollow : Obligations.SuppliesAndDomainsFollow := ⟨suppliesAreJudged, transitionsComplete⟩

end Sys2Proof.Cert
end

section
/-! SUPPORT. The state after reset (R390), and HLK_APB under a parity error (R380, R422). -/

namespace Sys2Proof.Cert

open Sys2Proof.Machine

/-- No map of the reset state lists anything: each reading is its default. -/
theorem resetIsUnpowered : ResetIsUnpowered :=
  ⟨rfl, rfl, rfl, rfl, rfl, rfl, rfl, rfl, fun _ => rfl, fun _ => rfl, fun _ => rfl, rfl, rfl, rfl, rfl,
    fun _ ⟨_, copy⟩ => by cases copy <;> rfl, fun _ => rfl, rfl⟩

/-- Settles O59: the reset state lists nothing. -/
theorem resetLeavesNothingRunning : Obligations.ResetLeavesNothingRunning := ⟨resetIsUnpowered, rfl, rfl, rfl⟩

/-- A kindled package whose port 0 is up, and whose HLK_APB of port 0 has a parity error that was found (R380). -/
def apertureUpset : State :=
  { State.reset with
    supply := { Supply.reset with vinGood := true, vstbyGood := true }
    kind := { Kind.reset with phase := 7, pwr := true, qual := true, opts := true }
    ports := [(0, { Port.reset with tstate := 5 })]
    pages := [(pgHlk 0, { Page.reset with
      err := { v := true, more := false, code := eCfgParity, off := 0x108 }, irqRaw := 3, badPar := [0x108], found := [0x108] })] }

theorem hostUp_apertureUpset : apertureUpset.hostUp = true := by decide +kernel

theorem aperture_reads_zero_when_upset : (stateAfter (exec (.aperturePlacement 1 0) apertureUpset)).map
    (fun t => t.cfg (pgHlk 0) 0x108 0) = some 0 := by decide +kernel

/-- The part on the host's link fails: the placement stores the aperture and leaves the register's parity bit as it was. -/
theorem not_hostLinkCommandsAct : ¬ HostLinkCommandsAct := by
  rintro ⟨-, -, -, haperture⟩
  obtain ⟨t, hrun, hread⟩ := haperture apertureUpset 1 0 hostUp_apertureUpset
  have hzero := aperture_reads_zero_when_upset
  rw [hrun] at hzero
  have hcfg : t.cfg (pgHlk 0) 0x108 0 = 0 := Option.some.inj hzero
  have h := hread 0 (by decide)
  rw [hcfg] at h
  exact absurd h (by decide)

/-- Refutes O54: HLK_APB with a parity error that a scan has found reads as its reset value 0 to the hardware (R380). A placement of the
apertures then stores its value and leaves the parity error in place, so the register's value in force is still 0 and not the aperture
that was placed. -/
theorem not_portsTrainAndServe : ¬ Obligations.PortsTrainAndServe := by
  unfold Obligations.PortsTrainAndServe
  rintro ⟨-, -, h⟩
  exact not_hostLinkCommandsAct h

end Sys2Proof.Cert
end

section
/-! SUPPORT. SMBus and JTAG (R440, R441): an answered transaction brings one output, and a capture loads DONE, ERR and the data. -/

namespace Sys2Proof.Machine

/-! SMBus. -/

theorem leBytes_ones (n : Nat) (hn : n = 2 ∨ n = 4) : leBytes n (2 ^ 32 - 1) = List.replicate n 0xFF := by
  rcases hn with rfl | rfl <;> decide

/-- The answer of a Read Word or a Block Read has its PEC (R440). -/
theorem smbData_of_length {d : List Byte} (code : Nat) (h : d.length ≠ 1) : smbData code d = .smbus d (some (smbPec code d)) := by
  rw [smbData, if_neg h]

/-- Registers of the ember domain as their pages show them. -/
theorem State.viewRst_rcnt (s : State) {c : Nat} (h : c < 12) : s.viewRst (0x140 + 4 * c) = SMap.get s.ember.rcnt 0 c := by
  interval_cases c <;> rfl

/-! JTAG. -/

/-- What REGACC_CAPTURE loads beside ERR and DONE. -/
theorem regaccWord_bits (err : Bool) {w : Nat} (h : w < 2 ^ 81) :
    (BitVec.ofNat 83 (b2n err * 2 ^ 82 + 2 ^ 81 + w)).toNat = b2n err * 2 ^ 82 + 2 ^ 81 + w
      ∧ (BitVec.ofNat 83 (b2n err * 2 ^ 82 + 2 ^ 81 + w)).getLsbD 82 = err
      ∧ (BitVec.ofNat 83 (b2n err * 2 ^ 82 + 2 ^ 81 + w)).getLsbD 81 = true := by
  have hb : b2n err = 0 ∧ err = false ∨ b2n err = 1 ∧ err = true := by cases err <;> decide
  generalize b2n err = e at hb
  have hnat : (BitVec.ofNat 83 (e * 2 ^ 82 + 2 ^ 81 + w)).toNat = e * 2 ^ 82 + 2 ^ 81 + w := by
    rw [BitVec.toNat_ofNat]
    exact Nat.mod_eq_of_lt (by omega)
  refine ⟨hnat, ?_, ?_⟩
  · unfold BitVec.getLsbD
    rw [hnat, Nat.testBit_eq_decide_div_mod_eq]
    obtain ⟨he, rfl⟩ | ⟨he, rfl⟩ := hb
    · exact decide_eq_false (by omega)
    · exact decide_eq_true (by omega)
  · unfold BitVec.getLsbD
    rw [hnat, Nat.testBit_eq_decide_div_mod_eq]
    exact decide_eq_true (by omega)

/-- The data that a capture finds: the register's own, with the read data where there are some. -/
def regaccData (dr : BitVec 83) (d : Option Word) : Nat :=
  let v := dr.toNat % 2 ^ 81
  match d with
  | some x => v / 2 ^ 80 * 2 ^ 80 + x.toNat * 2 ^ 48 + v % 2 ^ 48
  | none => v

theorem regaccData_lt (dr : BitVec 83) (d : Option Word) : regaccData dr d < 2 ^ 81 := by
  have hv : dr.toNat % 2 ^ 81 < 2 ^ 81 := Nat.mod_lt _ (by decide)
  cases d with
  | none => exact hv
  | some x =>
    have hx := x.isLt
    simp only [regaccData]
    omega

/-- Read data stand in bits 79:48, above the address (R441). -/
theorem regaccData_read {dr : BitVec 83} (hr : dr.getLsbD 80 = false) (w : Nat) :
    bits (0 * 2 ^ 82 + 2 ^ 81 + regaccData dr (some (BitVec.ofNat 32 w))) 79 48 = w % 2 ^ 32
      ∧ (0 * 2 ^ 82 + 2 ^ 81 + regaccData dr (some (BitVec.ofNat 32 w))) % 2 ^ 48 = dr.toNat % 2 ^ 48 := by
  unfold BitVec.getLsbD at hr
  rw [Nat.testBit_eq_decide_div_mod_eq] at hr
  have hread : dr.toNat / 2 ^ 80 % 2 ≠ 1 := of_decide_eq_false hr
  simp only [bits, regaccData, BitVec.toNat_ofNat]
  omega

/-- A result that waits is captured with DONE, and with its ERR (R441). -/
theorem exec_regaccCapture {s : State} {err : Bool} {d : Option Word} (h : s.jtag.res = some (err, d)) :
    ∃ u : State, exec .regaccCapture s = .next u ∧ u.jtag.dr.getLsbD 82 = err ∧ u.jtag.dr.getLsbD 81 = true
      ∧ u.jtag.dr.toNat = b2n err * 2 ^ 82 + 2 ^ 81 + regaccData s.jtag.dr d := by
  obtain ⟨hnat, herr, hdone⟩ := regaccWord_bits err (regaccData_lt s.jtag.dr d)
  refine ⟨s.setJtag { s.jtag with res := none, dr := BitVec.ofNat 83 (b2n err * 2 ^ 82 + 2 ^ 81 + regaccData s.jtag.dr d) }, ?_,
    herr, hdone, hnat⟩
  change execRegaccCapture s = _
  unfold execRegaccCapture
  rw [h]
  rfl

/-- The state that REGACC_UPDATE accesses registers from (R441). -/
def State.withRegacc (s : State) (dr : BitVec 83) : State := { s with jtag := { s.jtag with ir := 0x20, dr := dr } }

section

variable {s : State} {dr : BitVec 83} (hon : s.active (uncoreDom 98) = true)
include hon

theorem exec_regaccUpdate_off (hoff : (s.cfg pgSvc 0x104 3).getLsbD 0 = false) :
    exec (.regaccUpdate dr) s = .next ((s.withRegacc dr).setJtag { (s.withRegacc dr).jtag with res := some (true, none) }) :=
  (if_pos hon).trans (if_neg (by
    rw [Bool.not_eq_true]
    exact hoff))

theorem exec_regaccUpdate_write {u : State} {ok : Bool} (hjreg : (s.cfg pgSvc 0x104 3).getLsbD 0 = true) (hw : dr.getLsbD 80 = true)
    (h : (s.withRegacc dr).writeReg .s (dr.toNat % 2 ^ 48) 4 (bits dr.toNat 79 48) = (u, ok)) :
    exec (.regaccUpdate dr) s = .next ((u.setJtag { u.jtag with res := some (!ok, none) }).count pgSvc 7 1) := by
  refine (if_pos hon).trans ((if_pos hjreg).trans ((if_pos hw).trans ?_))
  change Host.Outcome.next _ = _
  unfold State.withRegacc at h
  unfold State.setJtag
  rw [h]

theorem exec_regaccUpdate_read {u : State} {w : Nat} (hjreg : (s.cfg pgSvc 0x104 3).getLsbD 0 = true) (hr : dr.getLsbD 80 = false)
    (h : (s.withRegacc dr).readReg .s (dr.toNat % 2 ^ 48) 4 = (u, some w)) :
    exec (.regaccUpdate dr) s = .next ((u.setJtag { u.jtag with res := some (false, some (BitVec.ofNat 32 w)) }).count pgSvc 7 1) := by
  refine (if_pos hon).trans ((if_pos hjreg).trans ((if_neg (ne_true_of_eq_false hr)).trans ?_))
  unfold State.withRegacc at h
  unfold State.setJtag
  rw [h]

theorem exec_regaccUpdate_readFail {u : State} (hjreg : (s.cfg pgSvc 0x104 3).getLsbD 0 = true) (hr : dr.getLsbD 80 = false)
    (h : (s.withRegacc dr).readReg .s (dr.toNat % 2 ^ 48) 4 = (u, none)) :
    ∃ v : State, exec (.regaccUpdate dr) s = .next v ∧ ∃ d, v.jtag.res = some (true, d) := by
  refine ⟨({ u with fresh := u.fresh + 1, jtag := { u.jtag with res := some (true, some (BitVec.ofNat 32 (Config.freeNat u.fresh))) } } :
    State).count pgSvc 7 1, (if_pos hon).trans ((if_pos hjreg).trans ((if_neg (ne_true_of_eq_false hr)).trans ?_)), _,
    congrArg Jtag.res ((State.count_changes ..).jtag rfl)⟩
  unfold State.withRegacc at h
  unfold State.setJtag
  rw [h]

end

end Sys2Proof.Machine

namespace Sys2Proof.Cert

open Sys2Proof.Machine

/-- An answered transaction, and the counter that it raises where the service page is powered, leave this output alone (R440). -/
theorem smbus_out {s : State} (h : smbOn s) (o : Out) : (s.smbus o).out = s.out ++ [o] := by
  obtain ⟨hvstby, hsmben⟩ := h
  unfold State.smbus
  rw [if_pos hvstby, if_pos hsmben]
  dsimp only
  split
  · exact (State.count_changes ..).out rfl
  · rfl

theorem smbusData_out {s : State} (h : smbOn s) (code v : Nat) {n : Nat} (hn : n ≠ 1) :
    (s.smbus (smbData code (leBytes n v))).out = s.out ++ [.smbus (leBytes n v) (some (smbPec code (leBytes n v)))] := by
  rw [smbus_out h, smbData_of_length code (by rwa [length_leBytes])]

section

variable {s : State} (hon : smbOn s)
include hon

theorem smbMain_out {code n v : Nat} (hvin : s.supply.vinGood = true) (hphase : 2 ≤ s.kind.phase) (hhalt : s.kind.halt = false) (hn : n ≠ 1) :
    (s.smbMain code n v).out = s.out ++ [.smbus (leBytes n v) (some (smbPec code (leBytes n v)))] := by
  rw [← smbusData_out hon code v hn]
  simp [State.smbMain, hvin, hhalt, Nat.not_lt.2 hphase]

theorem smbMain_out_ones {code n v : Nat} (hoff : s.supply.vinGood = false ∨ s.kind.phase < 2) (hn : n = 2 ∨ n = 4) :
    (s.smbMain code n v).out = s.out ++ [.smbus (List.replicate n 0xFF) (some (smbPec code (List.replicate n 0xFF)))] := by
  rw [← leBytes_ones n hn, ← smbusData_out hon code _ (by omega)]
  have hones : (!s.supply.vinGood || decide (s.kind.phase < 2)) = true := by simpa using hoff
  unfold State.smbMain
  rw [hones]
  rfl

theorem smbMain_out_halted {code n v : Nat} (hvin : s.supply.vinGood = true) (hphase : 2 ≤ s.kind.phase) (hhalt : s.kind.halt = true)
    (hn : n ≠ 1) : (s.smbMain code n v).out
      = s.out ++ [.smbus (leBytes n (s.viewPwr 0x100)) (some (smbPec code (leBytes n (s.viewPwr 0x100))))] := by
  rw [← smbusData_out hon code _ hn]
  simp [State.smbMain, hvin, hhalt, Nat.not_lt.2 hphase]

end

theorem smbusReadsAnswer : SmbusReadsAnswer := by
  refine ⟨fun s hon hvin hphase hhalt => ?_, fun s hon hoff => ?_, fun s hon hvin hphase hhalt => ?_, fun s hon => ⟨?_, ?_⟩,
    fun s c hon hc => ?_⟩
  · simp only [List.forall_mem_cons]
    exact ⟨⟨_, rfl, smbMain_out hon hvin hphase hhalt (by decide)⟩, ⟨_, rfl, smbMain_out hon hvin hphase hhalt (by decide)⟩,
      ⟨_, rfl, smbMain_out hon hvin hphase hhalt (by decide)⟩, ⟨_, rfl, smbMain_out hon hvin hphase hhalt (by decide)⟩,
      ⟨_, rfl, smbMain_out hon hvin hphase hhalt (by decide)⟩, ⟨_, rfl, smbMain_out hon hvin hphase hhalt (by decide)⟩, List.forall_mem_nil _⟩
  · have hones : ∀ code n v, n = 2 ∨ n = 4 → (s.smbMain code n v).out
        = s.out ++ [.smbus (List.replicate n 0xFF) (some (smbPec code (List.replicate n 0xFF)))] :=
      fun _ _ _ => smbMain_out_ones hon hoff
    simp only [List.forall_mem_cons]
    exact ⟨⟨_, _, rfl, rfl, hones _ 2 _ (.inl rfl)⟩, ⟨_, _, rfl, rfl, hones _ 2 _ (.inl rfl)⟩, ⟨_, _, rfl, rfl, hones _ 2 _ (.inl rfl)⟩,
      ⟨_, _, rfl, rfl, hones _ 4 _ (.inr rfl)⟩, ⟨_, _, rfl, rfl, hones _ 4 _ (.inr rfl)⟩, ⟨_, _, rfl, rfl, hones _ 4 _ (.inr rfl)⟩, List.forall_mem_nil _⟩
  · have hksts : ∀ code n v, n ≠ 1 → (s.smbMain code n v).out
        = s.out ++ [.smbus (leBytes n (s.viewPwr 0x100)) (some (smbPec code (leBytes n (s.viewPwr 0x100))))] :=
      fun _ _ _ => smbMain_out_halted hon hvin hphase hhalt
    simp only [List.forall_mem_cons]
    exact ⟨⟨_, _, rfl, rfl, hksts _ 2 _ (by decide)⟩, ⟨_, _, rfl, rfl, hksts _ 2 _ (by decide)⟩, ⟨_, _, rfl, rfl, hksts _ 2 _ (by decide)⟩,
      ⟨_, _, rfl, rfl, hksts _ 4 _ (by decide)⟩, ⟨_, _, rfl, rfl, hksts _ 4 _ (by decide)⟩, ⟨_, _, rfl, rfl, hksts _ 4 _ (by decide)⟩, List.forall_mem_nil _⟩
  · simp only [List.forall_mem_cons]
    exact ⟨⟨_, rfl, smbusData_out hon 0x07 _ (by decide)⟩, ⟨_, rfl, smbusData_out hon 0x08 _ (by decide)⟩,
      ⟨_, rfl, smbusData_out hon 0x09 _ (by decide)⟩, ⟨_, rfl, smbusData_out hon 0x20 _ (by decide)⟩, List.forall_mem_nil _⟩
  · exact ⟨_, rfl, smbus_out hon _⟩
  · refine ⟨_, _, congrArg Host.Outcome.next (if_pos hc), rfl, ?_⟩
    rw [← State.viewRst_rcnt s hc]
    exact smbusData_out hon _ _ (by decide)

/-- A transaction changes outputs, the service page's counter and what an event of it stores. -/
theorem smbusWritesAreRefused : SmbusWritesAreRefused := by
  intro s c hon
  exact ⟨_, rfl, smbus_out hon _, (State.smbus_changes ..).ember rfl, (State.smbus_changes ..).supply rfl⟩

theorem jtagInstructionsLoad : JtagInstructionsLoad := by
  intro s hon
  have hir : ∀ c, s.setIr c = s.setJtag { s.jtag with ir := c } := fun c => if_pos hon
  refine ⟨congrArg Host.Outcome.next (hir 0), ?_, ?_, fun c h0 h1 h2 h20 => ?_⟩
  · refine ⟨_, if_pos hon, ?_⟩
    rw [hir]
    exact ⟨rfl, rfl⟩
  · refine congrArg Host.Outcome.next ((if_pos hon).trans ?_)
    rw [hir]
    unfold State.idcode
    split <;> rfl
  · exact congrArg Host.Outcome.next ((if_neg (not_or.2 ⟨h0, not_or.2 ⟨h1, not_or.2 ⟨h2, h20⟩⟩⟩)).trans (hir c))

theorem regaccAccessesRegisters : RegaccAccessesRegisters := by
  refine ⟨fun s dr hon hoff => ?_, fun s s1 dr pg off i hon hjreg hr hs1 hreach => ?_, fun s s1 u dr hon hjreg hs1 hreach => ?_,
    fun s u dr ok hon hjreg hw hwrite => ?_⟩
  · obtain ⟨u, hrun, herr, hdone, -⟩ := exec_regaccCapture (s := (s.withRegacc dr).setJtag { (s.withRegacc dr).jtag with res := some (true, none) }) rfl
    exact ⟨_, exec_regaccUpdate_off hon hoff, u, hrun, herr, hdone⟩
  · subst hs1
    have hread : (s.withRegacc dr).readReg .s (dr.toNat % 2 ^ 48) 4 = (((s.withRegacc dr).readWord i pg off).1, some ((s.withRegacc dr).readWord i pg off).2) := by
      unfold State.readReg
      rw [show (s.withRegacc dr).reach .s (dr.toNat % 2 ^ 48) 4 false 0 = _ from hreach]
      rfl
    have hdr : ((s.withRegacc dr).readWord i pg off).1.jtag.dr = dr := congrArg Jtag.dr ((State.readWord_changes ..).jtag rfl)
    have hcount := fun u : State => (State.count_changes u pgSvc 7 1).jtag rfl
    obtain ⟨v, hrun, herr, hdone, hnat⟩ := exec_regaccCapture (congrArg Jtag.res (hcount (((s.withRegacc dr).readWord i pg off).1.setJtag
      { ((s.withRegacc dr).readWord i pg off).1.jtag with res := some (false, some (BitVec.ofNat 32 ((s.withRegacc dr).readWord i pg off).2)) })))
    refine ⟨_, exec_regaccUpdate_read hon hjreg hr hread, v, hrun, herr, hdone, ?_⟩
    rw [hnat, hcount]
    change bits (0 * 2 ^ 82 + 2 ^ 81 + regaccData ((s.withRegacc dr).readWord i pg off).1.jtag.dr _) 79 48 = _ ∧ (0 * 2 ^ 82 + 2 ^ 81 + regaccData ((s.withRegacc dr).readWord i pg off).1.jtag.dr _) % 2 ^ 48 = _
    rw [hdr]
    exact regaccData_read hr _
  · subst hs1
    cases hw : dr.getLsbD 80 with
    | true =>
      rw [hw, if_pos rfl] at hreach
      have hwrite : (s.withRegacc dr).writeReg .s (dr.toNat % 2 ^ 48) 4 (bits dr.toNat 79 48) = (u, false) := by
        unfold State.writeReg
        rw [show (s.withRegacc dr).reach .s (dr.toNat % 2 ^ 48) 4 true (bits dr.toNat 79 48) = _ from hreach]
      obtain ⟨v, hrun, herr, hdone, -⟩ := exec_regaccCapture (congrArg Jtag.res ((State.count_changes
        (u.setJtag { u.jtag with res := some (true, none) }) pgSvc 7 1).jtag rfl))
      exact ⟨_, exec_regaccUpdate_write hon hjreg hw hwrite, v, hrun, herr, hdone⟩
    | false =>
      rw [hw, if_neg Bool.false_ne_true] at hreach
      have hread : (s.withRegacc dr).readReg .s (dr.toNat % 2 ^ 48) 4 = (u, none) := by
        unfold State.readReg
        rw [show (s.withRegacc dr).reach .s (dr.toNat % 2 ^ 48) 4 false 0 = _ from hreach]
      obtain ⟨t, hupdate, d, hres⟩ := exec_regaccUpdate_readFail hon hjreg hw hread
      obtain ⟨v, hrun, herr, hdone, -⟩ := exec_regaccCapture hres
      exact ⟨t, hupdate, v, hrun, herr, hdone⟩
  · refine ⟨_, exec_regaccUpdate_write hon hjreg hw hwrite, ?_, ?_, ?_⟩
    · exact (State.count_changes ..).ember rfl
    · exact (State.count_changes ..).drt rfl
    · exact congrArg Jtag.res ((State.count_changes ..).jtag rfl)

/-- Settles O58, by its four parts. -/
theorem servicePortsAnswer : Obligations.ServicePortsAnswer :=
  ⟨smbusReadsAnswer, smbusWritesAreRefused, jtagInstructionsLoad, regaccAccessesRegisters⟩

end Sys2Proof.Cert
end

section
/-! SUPPORT. The service chain (R433 to R438): what the arrival and the sending of a frame leave, and whom a frame is for. -/

namespace Sys2Proof.Machine

/-! Arrival and relay. -/

theorem State.frameIn_good (s : State) {f : List Byte} (h : frameOk f = true) : s.frameIn true f = (s.count pgSvc 0 1).upSeen :=
  if_pos h

theorem State.frameIn_bad (s : State) (u : Bool) {f : List Byte} (h : frameOk f = false) :
    s.frameIn u f = (s.count pgSvc 0 1).count pgSvc 3 1 :=
  if_neg (ne_true_of_eq_false h)

/-- What an arrival leaves of the chain: the relay, and the answers that are kept. -/
theorem State.chain_frameIn (s : State) (u : Bool) (f : List Byte) :
    (s.frameIn u f).chain.relay = s.chain.relay ∧ (s.frameIn u f).chain.answered = s.chain.answered := by
  have hcount : ∀ (t : State) i, (t.count pgSvc i 1).chain = t.chain := fun t i => (State.count_changes ..).chain rfl
  unfold State.frameIn
  dsimp only
  split
  · split
    · change (s.count pgSvc 0 1).chain.relay = _ ∧ (s.count pgSvc 0 1).chain.answered = _
      rw [hcount]
      exact ⟨rfl, rfl⟩
    · rw [hcount]
      exact ⟨rfl, rfl⟩
  · rw [hcount, hcount]
    exact ⟨rfl, rfl⟩

theorem State.relay_frameIn (s : State) (u : Bool) (f : List Byte) : (s.frameIn u f).chain.relay = s.chain.relay :=
  (State.chain_frameIn s u f).1

theorem State.out_frameIn (s : State) (u : Bool) (f : List Byte) : (s.frameIn u f).out = s.out := (State.frameIn_changes s u f).out rfl

theorem State.ember_frameIn (s : State) (u : Bool) (f : List Byte) : (s.frameIn u f).ember = s.ember := (State.frameIn_changes s u f).ember rfl

theorem State.out_relayOn (s : State) (up : Bool) (f : List Byte) : (s.relayOn up f).out = s.out ++ [.frame up f] :=
  (State.count_changes ..).out rfl

theorem State.out_enumOver (s : State) : s.enumOver.out = s.out := (State.enumOver_changes s).out rfl

theorem State.out_sendFrame {s : State} (h : s.chain.relay = true) (up : Bool) (b : List Byte) :
    (s.sendFrame up b).out = s.out ++ [.frame up b] := by
  unfold State.sendFrame
  rw [if_pos h]
  exact (State.count_changes ..).out rfl

/-! Whom a frame is for. -/

theorem State.frameMine_false {s : State} {f : List Byte} (hall : fDst f ≠ 0xFF) (h : ∀ a, s.ember.caddr = some a → fDst f ≠ a.toNat) :
    s.frameMine f = false := by
  unfold State.frameMine
  rw [decide_eq_false hall, Bool.false_or]
  split
  · next a ha => exact decide_eq_false (h a ha)
  · rfl

theorem State.frameMine_own {s : State} {f : List Byte} {a : BitVec 6} (ha : s.ember.caddr = some a) (h : fDst f = a.toNat) :
    s.frameMine f = true := by
  simp [State.frameMine, ha, h]

theorem fDst_ne_of_own {f : List Byte} {a : BitVec 6} (h : fDst f = a.toNat) {n : Nat} (hn : 64 ≤ n) : fDst f ≠ n := by
  have := a.isLt
  omega

/-- A good frame that no row of its own takes, and that travels on, is relayed unless it is for the package alone (R435). -/
theorem exec_frameRelay {s : State} {u : Bool} {f : List Byte} (hrelay : s.chain.relay = true) (hok : frameOk f = true)
    (hown : ¬ ((fType f = 1 ∧ u = true) ∨ (fType f = 2 ∧ s.isHead = true) ∨ (s.frameMine f = true ∧ ownType (fType f) = true)
      ∨ decide (fDst f = 0xFE) = u)) :
    exec (.frameRelay u f) s = .next (if s.frameMine f = true ∧ fDst f ≠ 0xFF then s.frameIn u f
      else if fType f = 2 then ((s.frameIn u f).relayOn (decide (fDst f = 0xFE)) f).enumOver
      else (s.frameIn u f).relayOn (decide (fDst f = 0xFE)) f) := by
  refine ((if_pos hrelay).trans ((if_pos hok).trans (if_neg hown))).trans ?_
  split <;> rfl

theorem State.out_relayed (s : State) (u up : Bool) (f : List Byte) :
    (if fType f = 2 then ((s.frameIn u f).relayOn up f).enumOver else (s.frameIn u f).relayOn up f).out = s.out ++ [.frame up f] := by
  split
  · rw [State.out_enumOver, State.out_relayOn, State.out_frameIn]
  · rw [State.out_relayOn, State.out_frameIn]

/-! Enumeration (R437). -/

theorem State.out_sendEnum {s : State} (h : s.chain.relay = true) (a : Nat) :
    ∃ seq : Nat, (s.sendEnum a).out = s.out ++ [.frame false (chainFrame a s.chainSrc 0x01 seq a [])] :=
  ⟨_, State.out_sendFrame (s := (s.takeFree 2).2) h ..⟩

/-- A change of the package's address is an event (R437). -/
def State.addrReported (s : State) (a : BitVec 6) : State :=
  match s.ember.caddr with
  | some b => if b = a then s else s.chainEvent 5 6
  | none => s

theorem State.addrReported_keeps (s : State) (a : BitVec 6) : (s.addrReported a).out = s.out ∧ (s.addrReported a).chain = s.chain := by
  unfold State.addrReported
  split
  · split
    · exact ⟨rfl, rfl⟩
    · exact ⟨(State.chainEvent_changes ..).out rfl, (State.chainEvent_changes ..).chain rfl⟩
  · exact ⟨rfl, rfl⟩

/-- The package once it holds address `a`. -/
def State.withAddr (s : State) (a : BitVec 6) : State :=
  { s.addrReported a with ember := { (s.addrReported a).ember with caddr := some a },
                          chain := { (s.addrReported a).chain with cstate := 2 } }

theorem State.takeAddr_passes {s : State} (h : s.chain.relay = true) {n : Nat} (hn : n ≤ 63) :
    (s.takeAddr n).ember.caddr = some (BitVec.ofNat 6 n)
      ∧ ∃ seq : Nat, (s.takeAddr n).out = s.out ++ [.frame false (chainFrame (n + 1) n 0x01 seq (n + 1) [])] := by
  obtain ⟨hout, hchain⟩ := State.addrReported_keeps s (BitVec.ofNat 6 n)
  have haddr : (s.withAddr (BitVec.ofNat 6 n)).chainSrc = n := by
    change (BitVec.ofNat 6 n).toNat = n
    rw [BitVec.toNat_ofNat]
    omega
  have hrelay : (s.withAddr (BitVec.ofNat 6 n)).chain.relay = true := (congrArg Chain.relay hchain).trans h
  have hsend : s.takeAddr n = (s.withAddr (BitVec.ofNat 6 n)).sendEnum (n + 1) := rfl
  obtain ⟨seq, hseq⟩ := State.out_sendEnum hrelay (n + 1)
  rw [hsend, (State.sendEnum_changes ..).ember rfl, hseq, haddr]
  exact ⟨rfl, seq, congrArg (fun o => o ++ [Out.frame false (chainFrame (n + 1) n 0x01 seq (n + 1) [])]) hout⟩

/-- The last package's ENUM_DONE (R437): its address + 1 goes up. -/
def State.sendDone (s : State) (a : BitVec 6) : State :=
  (s.takeFree 2).2.sendFrame true (chainFrame 0xFE a.toNat 0x02 (leVal (s.takeFree 2).1) (a.toNat + 1) [])

theorem State.out_sendDone {s : State} (h : s.chain.relay = true) (a : BitVec 6) :
    ∃ seq : Nat, (s.sendDone a).out = s.out ++ [.frame true (chainFrame 0xFE a.toNat 0x02 seq (a.toNat + 1) [])] :=
  ⟨_, State.out_sendFrame (s := (s.takeFree 2).2) h ..⟩

theorem exec_enumDone_sent {s : State} {a : BitVec 6} (hrelay : s.chain.relay = true) (ha : s.ember.caddr = some a) (hst : s.chain.cstate = 2) :
    exec (.enumDone none) s = .next ((s.sendDone a).setChain { (s.sendDone a).chain with
      downLock := false, cstate := 3, cnt := if s.isHead then a.toNat + 1 else (s.sendDone a).chain.cnt }) := by
  change execEnumDone none s = _
  simp only [execEnumDone, hrelay, ha, hst, State.sendDone, State.chainSrc, if_true]

end Sys2Proof.Machine

namespace Sys2Proof.Cert

open Sys2Proof.Machine

theorem framesAreRelayed : FramesAreRelayed := by
  refine ⟨fun s f hgood hdst h1 h2 => ?_, fun s f hgood hup hall h1 h2 hother => ?_, fun s f a hgood ha hdst hown h1 h2 => ?_,
    fun s u f hrelay hbad => ?_⟩
  · obtain ⟨hrelay, hok⟩ := hgood
    have hmine : s.frameMine f = false := State.frameMine_false (by omega) fun a _ h => fDst_ne_of_own h (by decide) hdst
    refine ⟨_, exec_frameRelay hrelay hok ?_, ?_⟩
    · simp [h1, hmine, hdst]
      exact h2
    · rw [if_neg (by simp [hmine]), hdst]
      exact State.out_relayed ..
  · obtain ⟨hrelay, hok⟩ := hgood
    have hmine : s.frameMine f = false := State.frameMine_false hall hother
    refine ⟨_, exec_frameRelay hrelay hok ?_, ?_⟩
    · simp [h1, hmine, hup]
      exact h2
    · rw [if_neg (by simp [hmine]), decide_eq_false hup]
      exact State.out_relayed ..
  · obtain ⟨hrelay, hok⟩ := hgood
    have hmine : s.frameMine f = true := State.frameMine_own ha hdst
    refine ⟨_, exec_frameRelay hrelay hok ?_, ?_⟩
    · simp [h1, h2, hown, fDst_ne_of_own hdst (show 64 ≤ 0xFE by decide)]
    · rw [if_pos ⟨hmine, fDst_ne_of_own hdst (by decide)⟩]
      exact State.out_frameIn ..
  · exact (if_pos hrelay).trans ((if_neg (ne_true_of_eq_false hbad)).trans (congrArg Host.Outcome.next (State.frameIn_bad s u hbad)))

theorem enumerationAssignsAddresses : EnumerationAssignsAddresses := by
  refine ⟨fun s f hgood hty hhead hn => ?_, fun s f hgood hty hhead hn => ?_, fun s f hgood hty hhead => ?_,
    fun s a hrelay ha hst => ?_, fun s f hgood hhead hty => ?_, fun s hrelay hlock => ?_⟩
  · obtain ⟨hrelay, hok⟩ := hgood
    obtain ⟨haddr, seq, hout⟩ := State.takeAddr_passes ((State.relay_frameIn s true f).trans hrelay) hn
    refine ⟨_, (if_pos (by simp [hrelay])).trans ((if_pos hok).trans ((if_pos hty).trans ((if_neg (by simp [hhead])).trans (if_pos hn)))),
      haddr, seq, ?_⟩
    rw [hout, State.out_frameIn]
  · obtain ⟨hrelay, hok⟩ := hgood
    refine ⟨_, (if_pos (by simp [hrelay])).trans ((if_pos hok).trans ((if_pos hty).trans ((if_neg (by simp [hhead])).trans
      (if_neg (by omega))))), ?_, ?_⟩
    · rw [(State.count_changes ..).ember rfl, (State.chainEvent_changes ..).ember rfl]
    · rw [(State.count_changes ..).out rfl, (State.chainEvent_changes ..).out rfl]
      exact State.out_frameIn ..
  · obtain ⟨hrelay, hok⟩ := hgood
    refine ⟨_, (if_pos (by simp [hrelay])).trans ((if_pos hok).trans ((if_pos hty).trans (if_pos hhead))), ?_, ?_⟩
    · rw [(State.count_changes ..).ember rfl, (State.chainEvent_changes ..).ember rfl, State.ember_frameIn]
    · rw [(State.count_changes ..).out rfl, (State.chainEvent_changes ..).out rfl, State.out_frameIn]
  · obtain ⟨seq, hout⟩ := State.out_sendDone hrelay a
    exact ⟨_, exec_enumDone_sent hrelay ha hst, rfl, fun hhead => if_pos hhead, seq, hout⟩
  · obtain ⟨hrelay, hok⟩ := hgood
    refine ⟨_, (if_pos hrelay).trans ((if_pos hok).trans (if_pos ⟨hhead, hty⟩)), rfl, ?_⟩
    exact (State.out_relayOn ..).trans (congrArg (fun o => o ++ [Out.frame true f]) (State.out_frameIn ..))
  · refine ⟨_, if_pos (by simp [hrelay, hlock]), ?_, ?_⟩
    · rw [(State.chainEvent_changes ..).chain rfl]
      rfl
    · rw [(State.chainEvent_changes ..).ember rfl]
      rfl

/-- Settles O55, by its two parts. -/
theorem chainRelaysAndEnumerates : Obligations.ChainRelaysAndEnumerates := ⟨framesAreRelayed, enumerationAssignsAddresses⟩

end Sys2Proof.Cert
end

section
/-! SUPPORT. Requests of the chain (R434, R435): a new one is performed and answered, a repeated one gets the answer that is kept. -/

namespace Sys2Proof.Machine

/-! Frames whose row acts on them. -/

section

variable {s : State} {f : List Byte} (hrelay : s.chain.relay = true) (hheld : pgSvc ∉ s.rst.blocks) (hok : frameOk f = true)
include hrelay hheld hok

/-- A good frame for the package alone is acted on where it has arrived. -/
theorem State.onFrame_own {a : BitVec 6} (ha : s.ember.caddr = some a) (hdst : fDst f = a.toNat) (act : State → State) :
    s.onFrame f true act = act (s.frameIn true f) := by
  unfold State.onFrame
  rw [if_pos (by simp [hrelay, hheld]), if_pos hok, if_pos (by simp [State.frameMine_own ha hdst])]
  dsimp only
  rw [if_neg (fDst_ne_of_own hdst (by decide))]

/-- A broadcast frame is forwarded first. -/
theorem State.onFrame_all (hdst : fDst f = 0xFF) (act : State → State) :
    s.onFrame f true act = act ((s.frameIn true f).relayOn false f) := by
  unfold State.onFrame
  rw [if_pos (by simp [hrelay, hheld]), if_pos hok, if_pos (by simp [State.frameMine, hdst])]
  dsimp only
  rw [if_pos hdst]

end

theorem State.answered?_frameIn (s : State) (u : Bool) (f : List Byte) : (s.frameIn u f).answered? f = s.answered? f := by
  unfold State.answered?
  rw [(State.chain_frameIn s u f).2]

theorem State.answered?_none {s : State} {f : List Byte} (h : ∀ x ∈ s.chain.answered, ¬ (x.1.toNat = fSrc f ∧ x.2.1.toNat = fSeq f)) :
    s.answered? f = none := by
  rw [State.answered?, Option.map_eq_none_iff, List.find?_eq_none]
  simpa using h

/-! Answers. -/

theorem fSrc_mod (f : List Byte) : (BitVec.ofNat 8 (fSrc f)).toNat = fSrc f := by
  rw [BitVec.toNat_ofNat]
  exact Nat.mod_eq_of_lt (fld_lt f 1 1)

theorem fSeq_mod (f : List Byte) : (BitVec.ofNat 16 (fSeq f)).toNat = fSeq f := by
  rw [BitVec.toNat_ofNat]
  exact Nat.mod_eq_of_lt (fld_lt f 4 2)

/-- The last of a list that keeps its newest entries stays in it. -/
theorem mem_drop_of_last {α : Type} (l : List α) (x : α) (n : Nat) : x ∈ (l ++ [x]).drop ((l ++ [x]).length - (n + 1)) := by
  have hle : (l ++ [x]).length - (n + 1) ≤ l.length := by
    rw [List.length_append, List.length_singleton]
    omega
  rw [List.drop_append_of_le_length hle]
  exact List.mem_append_right _ (List.mem_singleton_self x)

section

variable {s : State} {f : List Byte} (code : BitVec 16) (b : List Byte) {a : BitVec 6}

/-- The state that keeps the answer, its frame not yet sent. -/
def State.keptAnswer (s : State) (f : List Byte) (code : BitVec 16) (b : List Byte) : State :=
  let l := s.chain.answered ++ [(BitVec.ofNat 8 (fSrc f), BitVec.ofNat 16 (fSeq f), s.response f code b)]
  s.setChain { s.chain with answered := l.drop (l.length - 16) }

theorem State.answer_of_addr (ha : s.ember.caddr = some a) :
    s.answer f code b = (s.keptAnswer f code b).sendFrame (decide (fSrc f = 0xFE)) (s.response f code b) :=
  if_pos (by rw [ha]; rfl)

/-- The answer goes back to the sender under its SEQ. -/
theorem State.out_answer (hrelay : s.chain.relay = true) (ha : s.ember.caddr = some a) : (s.answer f code b).out
    = s.out ++ [.frame (decide (fSrc f = 0xFE)) (chainFrame (fSrc f) a.toNat 0x05 (fSeq f) code.toNat b)] := by
  have hsrc : s.chainSrc = a.toNat := by rw [State.chainSrc, ha]
  rw [State.answer_of_addr code b ha, State.out_sendFrame (s := s.keptAnswer f code b) hrelay, State.response, hsrc]
  rfl

/-- The answer is kept. -/
theorem State.answered?_answer (ha : s.ember.caddr = some a) : (s.answer f code b).answered? f ≠ none := by
  rw [State.answer_of_addr code b ha]
  unfold State.answered?
  rw [(State.sendFrame_changes ..).chain rfl, Ne, Option.map_eq_none_iff, List.find?_eq_none]
  intro h
  refine h _ (mem_drop_of_last _ _ 15) ?_
  simpa only [decide_eq_true_eq] using And.intro (fSrc_mod f) (fSeq_mod f)

end

/-- An answer leaves every register's word as it was. -/
theorem State.cfg_answer (s : State) (f : List Byte) (code : BitVec 16) (b : List Byte) (pg : Nat) :
    ((s.answer f code b).page pg).cfg = (s.page pg).cfg := by
  unfold State.answer State.sendFrame
  split
  · dsimp only
    split
    · exact (Page.access_inj.1 ((State.count_keepsReach ..).pages pg)).1
    · rfl
  · rfl

/-! Register accesses by frame. -/

theorem State.cfg_frameIn {s : State} {f : List Byte} (hok : frameOk f = true) (pg : Nat) :
    ((s.frameIn true f).page pg).cfg = (s.page pg).cfg := by
  rw [State.frameIn_good s hok]
  exact (Page.access_inj.1 ((State.count_keepsReach s pgSvc 0 1).pages pg)).1

theorem State.viewPwr_ksts (s : State) :
    s.viewPwr 0x100 = b2n s.kind.halt * 2 ^ 31 + s.kind.hdie * 2 ^ 16 + s.kind.hcode * 2 ^ 12 + s.kind.phase := rfl

theorem State.ksts_frameIn (s : State) (u : Bool) (f : List Byte) : (s.frameIn u f).ksts = leBytes 4 (s.viewPwr 0x100) := by
  unfold State.ksts
  rw [State.viewPwr_ksts, State.viewPwr_ksts, (State.frameIn_changes s u f).kind rfl]

theorem regSize_word {f : List Byte} (h : bits (fArg f) 63 62 = 0) : regSize f = some 4 := by
  rw [regSize, h]
  rfl

theorem regSize_counter {f : List Byte} (h : bits (fArg f) 63 62 = 1) : regSize f = some 8 := by
  rw [regSize, h]
  rfl

theorem State.readReg_word {s : State} {prv : Priv} {a pg off : Nat} {i : PageInfo} (h : s.reach prv a 4 false 0 = .ok (pg, i, off)) :
    s.readReg prv a 4 = ((s.readWord i pg off).1, some (s.readWord i pg off).2) := by
  unfold State.readReg
  rw [h]
  rfl

theorem State.readReg_count {s : State} {prv : Priv} {a pg off : Nat} {i : PageInfo} {x : Nat × Bool}
    (h : s.reach prv a 8 false 0 = .ok (pg, i, off)) (hx : cntAt i off = some x) : s.readReg prv a 8 = (s, some ((s.page pg).cntVal x)) := by
  unfold State.readReg
  rw [h]
  dsimp only
  rw [hx]
  rfl

theorem State.readReg_refused {s u : State} {prv : Priv} {a n : Nat} (h : s.reach prv a n false 0 = .error u) : s.readReg prv a n = (u, none) := by
  unfold State.readReg
  rw [h]

theorem State.writeReg_refused {s u : State} {prv : Priv} {a n v : Nat} (h : s.reach prv a n true v = .error u) :
    s.writeReg prv a n v = (u, false) := by
  unfold State.writeReg
  rw [h]

/-- A write to a register that its page alone holds (R365): the FTA, XRE and LNK pages compute nothing of it. -/
theorem State.writeBlock_plain {s : State} {m : Bool} {i : PageInfo} {pg off v : Nat} {d : RegDef}
    (hblk : i.blk = 0x04 ∨ i.blk = 0x06 ∨ i.blk = 0x0C) (hrw : d.rw ≠ 0) (hrwx : d.rwx = 0) : s.writeBlock m i pg off d v = s.putReg pg off d v := by
  unfold State.writeBlock
  rw [if_neg (by simp [hrwx])]
  rcases hblk with h | h | h <;> rw [h] <;> exact if_neg (by omega)

theorem State.cfg_putReg (s : State) (pg off : Nat) (d : RegDef) (v : Nat) :
    SMap.get ((s.putReg pg off d v).page pg).cfg (BitVec.ofNat 32 d.reset) off = BitVec.ofNat 32 (maskIn (d.rw ||| d.rwx) (s.stored pg off d) v) := by
  unfold State.putReg
  rw [State.page_setPage]
  exact SMap.get_put_self ..

theorem State.regDef_plain {i : PageInfo} (hblk : i.blk = 0x04 ∨ i.blk = 0x06 ∨ i.blk = 0x0C) (s t : State) (off : Nat) :
    s.regDef i off = t.regDef i off := by
  unfold State.regDef
  rcases hblk with h | h | h <;> simp only [h]

end Sys2Proof.Machine

namespace Sys2Proof.Cert

open Sys2Proof.Machine

/-- A new request is performed where it has arrived, and answered with what that gave. -/
theorem request_of_new {s : State} {f : List Byte} {ty : Nat} (h : newRequest s f ty) (act : State → State × BitVec 16 × List Byte) :
    s.request f true act = (act (s.frameIn true f)).1.answer f (act (s.frameIn true f)).2.1 (act (s.frameIn true f)).2.2 := by
  obtain ⟨⟨hrelay, hok⟩, hheld, -, ⟨a, ha, hdst⟩, hnew⟩ := h
  unfold State.request
  rw [State.onFrame_own hrelay hheld hok ha hdst, State.answered?_frameIn, State.answered?_none hnew]

/-- A repeated request gets the answer that is kept. -/
theorem request_of_answered {s : State} {f r : List Byte} (h : forOne s f) (hr : s.answered? f = some r)
    (act : State → State × BitVec 16 × List Byte) :
    s.request f true act = ((s.frameIn true f).sendFrame (decide (fSrc f = 0xFE)) r).count pgSvc 4 1 := by
  obtain ⟨⟨hrelay, hok⟩, hheld, a, ha, hdst⟩ := h
  unfold State.request
  rw [State.onFrame_own hrelay hheld hok ha hdst, State.answered?_frameIn, hr]

/-- A package that what a request asked left its address and its relay answers it. -/
theorem answers_of_changes {s u : State} {f : List Byte} {ty m : Nat} (h : newRequest s f ty) (hu : Changes m (s.frameIn true f) u)
    (code : BitVec 16) (b : List Byte) (hm : m.testBit 5 = false := by decide) (hc : m.testBit 37 = false := by decide) :
    Answers s (u.answer f code b) f code b := by
  obtain ⟨⟨hrelay, -⟩, -, -, ⟨a, ha, -⟩, -⟩ := h
  have haddr : u.ember.caddr = some a := by rw [hu.ember hm, State.ember_frameIn, ha]
  have hon : u.chain.relay = true := by rw [hu.chain hc, State.relay_frameIn, hrelay]
  obtain ⟨pre, hpre⟩ := hu.outPrefix
  rw [State.out_frameIn] at hpre
  refine ⟨⟨a, pre, ha, ?_⟩, State.answered?_answer code b haddr⟩
  rw [State.out_answer code b hon haddr, hpre]

section

variable {s : State} {f : List Byte}

theorem exec_ping (h : newRequest s f 0x0A) : exec (.ping f) s = .next ((s.frameIn true f).answer f 0 (leBytes 4 (s.viewPwr 0x100))) := by
  obtain ⟨-, -, hty, -, -⟩ := id h
  change Host.Outcome.next (s.request f (decide (fType f = 10)) _) = _
  rw [decide_eq_true hty, request_of_new h, State.ksts_frameIn]

/-- What REG_RD asks of the package: the state it leaves, and the answer (R435, R412). -/
def regRdAct (f : List Byte) (t : State) : State × BitVec 16 × List Byte :=
  if t.kind.halt then (t, 0, t.ksts)
  else
    match regSize f with
    | none => (t, eBusErr, [])
    | some n =>
      match t.readReg .s (fArg f % 2 ^ 48) n with
      | (u, some v) => (u, 0, leBytes n v)
      | (u, none) => (u, eBusErr, [])

theorem exec_regRd {t : State × BitVec 16 × List Byte} (h : newRequest s f 3) (hact : regRdAct f (s.frameIn true f) = t) :
    exec (.regRd f) s = .next (t.1.answer f t.2.1 t.2.2) := by
  obtain ⟨-, -, hty, -, -⟩ := id h
  change Host.Outcome.next (s.request f (decide (fType f = 3)) (regRdAct f)) = _
  rw [decide_eq_true hty, request_of_new h, hact]

theorem regRdAct_read {n : Nat} (hhalt : s.kind.halt = false) (hn : regSize f = some n) :
    regRdAct f (s.frameIn true f) = match (s.frameIn true f).readReg .s (fArg f % 2 ^ 48) n with
      | (u, some v) => (u, 0, leBytes n v)
      | (u, none) => (u, eBusErr, []) := by
  unfold regRdAct
  rw [(State.frameIn_changes s true f).kind rfl, hhalt, if_neg Bool.false_ne_true, hn]

theorem exec_regWr {n : Nat} (h : newRequest s f 4) (hn : regSize f = some n) (hlen : fLen f = n) {u : State} {ok : Bool}
    (hw : (s.frameIn true f).writeReg .s (fArg f % 2 ^ 48) n (leVal (fPayload f)) = (u, ok)) :
    exec (.regWr f) s = .next (u.answer f (if ok then 0 else eBusErr) []) := by
  obtain ⟨-, -, hty, -, -⟩ := id h
  change Host.Outcome.next (s.request f (decide (fType f = 4)) _) = _
  rw [decide_eq_true hty, request_of_new h, hn]
  dsimp only
  rw [if_pos hlen, hw]

end

theorem chainRequestsAreAnswered : ChainRequestsAreAnswered := by
  refine ⟨fun s f h => ?_, fun s f pg off i h hhalt hsize hreach => ?_, fun s f pg off i x h hhalt hsize hreach hx => ?_,
    fun s u f n h hhalt hsize hreach => ?_, fun s f h hhalt => ?_, fun s f pg off i d h hsize hlen hreach hlo hhi hdef hblk hrw hrwx => ?_,
    fun s u f n h hsize hlen hreach => ?_, fun s u f n ok h hsize hlen hw => ?_, fun s f code b a hrelay ha => ?_⟩
  · exact ⟨_, exec_ping h, answers_of_changes h (Changes.refl 0 _) ..⟩
  · have hact := (regRdAct_read hhalt (regSize_word hsize)).trans (by rw [State.readReg_word hreach])
    exact ⟨_, exec_regRd h hact, answers_of_changes h (State.readWord_changes ..) ..⟩
  · have hact := (regRdAct_read hhalt (regSize_counter hsize)).trans (by rw [State.readReg_count hreach hx])
    exact ⟨_, exec_regRd h hact, answers_of_changes h (Changes.refl 0 _) ..⟩
  · have hact := (regRdAct_read hhalt hsize).trans (by rw [State.readReg_refused hreach])
    exact ⟨_, exec_regRd h hact, answers_of_changes h ((State.reach_changes ..).get hreach) ..⟩
  · have hact : regRdAct f (s.frameIn true f) = (s.frameIn true f, 0, leBytes 4 (s.viewPwr 0x100)) := by
      unfold regRdAct
      rw [(State.frameIn_changes s true f).kind rfl, if_pos hhalt, State.ksts_frameIn]
    exact ⟨_, exec_regRd h hact, answers_of_changes h (Changes.refl 0 _) ..⟩
  · obtain ⟨⟨-, hok⟩, -⟩ := id h
    have hw : (s.frameIn true f).writeReg .s (fArg f % 2 ^ 48) 4 (leVal (fPayload f))
        = ((s.frameIn true f).putReg pg off d (leVal (fPayload f) % 2 ^ 32), true) := by
      unfold State.writeReg
      rw [hreach]
      dsimp only
      rw [if_neg (by omega), if_pos hhi, State.regDef_plain hblk _ s, hdef]
      dsimp only
      rw [State.writeBlock_plain hblk hrw hrwx]
    refine ⟨_, exec_regWr h (regSize_word hsize) hlen hw, answers_of_changes h (State.putReg_changes ..) .., ?_⟩
    rw [State.cfg_answer, State.cfg_putReg, hrwx, Nat.or_zero, State.stored, State.cfg_frameIn hok]
    rfl
  · refine ⟨_, exec_regWr h hsize hlen (State.writeReg_refused hreach), answers_of_changes h ((State.reach_changes ..).get hreach) ..⟩
  · exact exec_regWr h hsize hlen hw
  · exact ⟨State.out_answer code b hrelay ha, State.answered?_answer code b ha⟩

theorem repeatedRequestsActOnce : RepeatedRequestsActOnce := by
  intro s f r h hr
  refine ⟨fun hty => ?_, fun hty => ?_, fun hty hop => ?_, ?_⟩
  · change Host.Outcome.next (s.request f (decide (fType f = 4)) _) = _
    rw [decide_eq_true hty, request_of_answered h hr]
  · change Host.Outcome.next (s.request f (decide (fType f = 3)) _) = _
    rw [decide_eq_true hty, request_of_answered h hr]
  · change Host.Outcome.next (s.request f (decide (fType f = 8 ∧ fArg f % 256 = 1)) _) = _
    rw [decide_eq_true ⟨hty, hop⟩, request_of_answered h hr]
  · obtain ⟨⟨hrelay, -⟩, -⟩ := h
    rw [State.out_sendFrame ((State.relay_frameIn s true f).trans hrelay), State.out_frameIn]

/-- Settles O56, by its two parts. -/
theorem chainAnswersOnce : Obligations.ChainAnswersOnce := ⟨chainRequestsAreAnswered, repeatedRequestsActOnce⟩

end Sys2Proof.Cert
end

section
/-! SUPPORT. RESET, IMG and FWCTL frames (R436, R452 to R459): the arrival of a frame leaves all that the firmware reads, and a host's
staging with it. -/

namespace Sys2Proof.Machine

/-! A host's staging (R452) is seen in the commands of the queues, which no event touches. -/

theorem SMap.get_mem_or {α : Type} (m : SMap α) (d : α) (k : Nat) : SMap.get m d k = d ∨ (k, SMap.get m d k) ∈ m := by
  induction m with
  | nil => exact .inl rfl
  | cons p r ih =>
    by_cases hp : p.1 = k
    · right
      rw [SMap.get, if_pos hp, ← hp]
      exact List.mem_cons_self
    · rw [SMap.get, if_neg hp]
      exact ih.imp_right (List.mem_cons_of_mem p)

/-- A map's new value that answers as the old one leaves the answer of the whole map, where the default answers no. -/
theorem SMap.any_insert {α : Type} (m : SMap α) {d v : α} {k : Nat} {f : α → Bool} (hd : f d = false) (hv : f v = f (SMap.get m d k)) :
    ((SMap.insert m k v).any fun p => f p.2) = m.any fun p => f p.2 := by
  induction m with
  | nil => simp [SMap.insert, hv, hd]
  | cons p r ih =>
    rw [SMap.insert]
    split
    · rw [List.any_cons, hv, Bool.or_eq_right_iff_imp]
      intro h
      obtain he | hmem := SMap.get_mem_or (p :: r) d k
      · rw [he, hd] at h
        cases h
      · exact List.any_eq_true.2 ⟨_, hmem, h⟩
    · split
      · next hp => rw [List.any_cons, List.any_cons, hv, SMap.get, if_pos hp]
      · next hp =>
        rw [SMap.get, if_neg hp] at hv
        rw [List.any_cons, List.any_cons, ih hv]

/-- The queue runs a FW_STAGE (R452). -/
def Queue.stages (x : Queue) : Bool := x.cmds.any fun c => c.started && decide (cOpc c.line = 0x12)

theorem State.hostStaging_setQueue {s : State} {q : Nat} {x : Queue} (hlive : x.live = true) (hcmds : x.cmds = (s.queue q).cmds) :
    (s.setQueue q x).hostStaging = s.hostStaging := by
  have hne : x ≠ Queue.none := fun h => by
    rw [h] at hlive
    cases hlive
  change ((SMap.put s.queues Queue.none q x).any fun p => p.2.stages) = s.queues.any fun p => p.2.stages
  rw [SMap.put, if_neg hne]
  refine SMap.any_insert s.queues (d := Queue.none) rfl ?_
  unfold Queue.stages
  rw [hcmds]
  rfl

theorem State.hostLine_queues (s : State) (a : Addr) (b : List Byte) : (s.hostLine a b).1.queues = s.queues :=
  (State.hostLine_changes s a b).queues rfl

/-- An event on a live queue: it stays live, and a host's staging goes on. -/
theorem State.putEvent_keeps_staging {s : State} {q : Nat} (h : (s.queue q).live = true) (r : EventRec) :
    (s.putEvent q r).hostStaging = s.hostStaging ∧ ((s.putEvent q r).queue q).live = true := by
  have hset : ∀ (t : State) (x : Queue), t.queues = s.queues → x.live = true → x.cmds = (s.queue q).cmds →
      (t.setQueue q x).hostStaging = s.hostStaging ∧ ((t.setQueue q x).queue q).live = true := by
    intro t x ht hx hc
    have hq : t.queue q = s.queue q := by rw [State.queue, State.queue, ht]
    refine ⟨(State.hostStaging_setQueue hx (hc.trans (congrArg Queue.cmds hq.symm))).trans ?_, ?_⟩
    · rw [State.hostStaging, ht]
      rfl
    · change (SMap.get (SMap.put t.queues Queue.none q x) Queue.none q).live = true
      rw [SMap.get_put_self, hx]
  unfold State.putEvent
  dsimp only
  split
  · exact hset _ _ rfl h rfl
  · split
    · exact hset _ _ (State.hostLine_queues ..) h rfl
    · exact hset _ _ rfl h rfl

theorem State.clearLost_keeps_staging {s : State} {q : Nat} (h : (s.queue q).live = true) :
    (s.setQueue q { s.queue q with lost := 0 }).hostStaging = s.hostStaging
      ∧ ((s.setQueue q { s.queue q with lost := 0 }).queue q).live = true := by
  refine ⟨State.hostStaging_setQueue h rfl, ?_⟩
  change (SMap.get (SMap.put s.queues Queue.none q _) Queue.none q).live = true
  rw [SMap.get_put_self]
  exact h

theorem State.hostStaging_event (s : State) (q : Nat) (r : EventRec) : (s.event q r).hostStaging = s.hostStaging := by
  unfold State.event
  dsimp only
  split
  · rfl
  · next hrun =>
    have hlive : (s.queue q).live = true := by
      simp only [Bool.or_eq_true, not_or, Bool.not_eq_true'] at hrun
      simpa using hrun.1
    split
    · obtain ⟨hstage, hstill⟩ := State.putEvent_keeps_staging hlive (EventRec.package 0x07 0 0 (s.slotBeat s.tslot) (leBytes 4 (s.queue q).lost.toNat))
      split
      · obtain ⟨hclear, hrest⟩ := State.clearLost_keeps_staging hstill
        exact (State.putEvent_keeps_staging hrest r).1.trans (hclear.trans hstage)
      · exact (State.putEvent_keeps_staging hlive r).1
    · exact (State.putEvent_keeps_staging hlive r).1

theorem State.hostStaging_count (s : State) (pg i n : Nat) : (s.count pg i n).hostStaging = s.hostStaging := by
  have hirq : ∀ (t : State) p, (t.pageIrq pg p).hostStaging = t.hostStaging := by
    intro t p
    unfold State.pageIrq
    dsimp only
    split
    · exact State.hostStaging_event ..
    · rfl
  unfold State.count
  split
  · rfl
  · dsimp only
    split
    · rfl
    · split
      · rfl
      · exact hirq ..

/-! The arrival of a good frame. -/

section

variable {s : State} {f : List Byte}

/-- All that a good frame's arrival changes. -/
theorem State.frameIn_eq (s : State) (f : List Byte) : s.frameIn true f
    = { s with pages := (s.frameIn true f).pages, queues := (s.frameIn true f).queues, held := (s.frameIn true f).held,
               mem := (s.frameIn true f).mem, chain := (s.frameIn true f).chain } := by
  have h := State.frameIn_changes s true f
  generalize s.frameIn true f = t at h
  cases t
  rw [State.mk.injEq]
  exact ⟨h.pending, h.fuses rfl, h.shadow rfl, h.pins rfl, h.supply rfl, h.ember rfl, h.rst rfl, h.kind rfl, h.doms rfl,
    h.lostClk rfl, rfl, h.ownBad rfl, rfl, h.order rfl, h.rr rfl, h.copies rfl, rfl, h.ctxs rfl, h.psync rfl, h.psnap rfl,
    h.lsync rfl, h.lsnap rfl, h.cores rfl, h.engines rfl, h.stores rfl, h.lanes rfl, h.shadows rfl, h.drt rfl, h.beat rfl,
    h.sched rfl, h.prefetch rfl, h.pageReqs rfl, rfl, h.ue rfl, h.ueSeen rfl, h.scrubPos rfl, h.ports rfl, rfl, h.jtag rfl,
    h.flash rfl, h.fw rfl, h.trc rfl, h.freeze rfl, h.snapQ rfl, h.out rfl, h.fresh rfl, h.drains rfl, h.errs rfl⟩

/-- What is read of none of these parts reads as before. -/
theorem State.view_frameIn {α : Type} (g : State → α) (s : State) (f : List Byte)
    (hg : ∀ p q h m c, g { s with pages := p, queues := q, held := h, mem := m, chain := c } = g s := by exact fun _ _ _ _ _ => rfl) :
    g (s.frameIn true f) = g s := by
  rw [State.frameIn_eq]
  exact hg ..

theorem State.fw_frameIn (s : State) (f : List Byte) : (s.frameIn true f).fw = s.fw := State.view_frameIn State.fw s f

theorem State.hostStaging_frameIn (hok : frameOk f = true) : (s.frameIn true f).hostStaging = s.hostStaging := by
  rw [State.frameIn_good s hok]
  exact State.hostStaging_count ..

theorem State.tslot_frameIn (hok : frameOk f = true) : (s.frameIn true f).tslot = s.tslot := by
  rw [State.frameIn_good s hok]
  exact (State.count_keepsReach s pgSvc 0 1).tslot

end

/-! The operations of FWCTL (R452 to R459). -/

theorem State.fwBegin_accepted {s : State} {n : Nat} (hs : s.staging = false) (ht : s.fw.trial = false) (hh : s.hostStaging = false)
    (h1 : 1 ≤ n) (h2 : n ≤ 4096) : s.fwBegin n = some (s.beginStage n false) := by
  unfold State.fwBegin
  rw [hs, ht, hh, if_neg]
  simp only [Bool.false_or, decide_eq_true_eq]
  omega

theorem State.fwBegin_refused {s : State} {n : Nat}
    (h : s.staging = true ∨ s.fw.trial = true ∨ s.hostStaging = true ∨ n = 0 ∨ 4096 < n) : s.fwBegin n = none := by
  unfold State.fwBegin
  refine if_pos ?_
  simp only [Bool.or_eq_true, decide_eq_true_eq]
  tauto

/-- An activation that may begin (R455, R456). -/
theorem State.activate_begins {s : State} (a : Activation) (h3 : s.fw.sstate = 3) (hok : s.bankOk s.fw.target = true) :
    (s.activate a).fw.trial = true ∧ (s.activate a).fw.activating = some a := by
  unfold State.activate
  dsimp only
  rw [if_neg (not_not.2 h3), if_pos hok]
  exact ⟨rfl, rfl⟩

theorem State.fwActivate_now {s : State} {p : List Byte} (hnow : fld p 16 1 % 2 = 1) :
    s.fwActivate p = if s.fw.staged.toNat = fld p 8 8 then s.fwNow else none := by
  unfold State.fwActivate
  dsimp only
  exact if_pos (by rw [bit, Nat.testBit_zero, decide_eq_true hnow])

theorem State.fwNow_accepted {s : State} (hl : s.liveCtxs = []) (h3 : s.fw.sstate = 3) (hact : s.fw.activating = none) (harm : s.actArmed = false) :
    s.fwNow = some (s.activate { hold := none, fired := none }) :=
  if_pos (by simp [hl, h3, hact, harm])

theorem State.fwNow_refused {s : State} (h : s.liveCtxs ≠ [] ∨ s.fw.sstate ≠ 3) : s.fwNow = none := by
  refine if_neg ?_
  simp only [Bool.and_eq_true, List.isEmpty_iff, decide_eq_true_eq]
  tauto

/-- The schedule entry of an activation that a FWCTL frame arms (R455). -/
def State.actEntry (s : State) (p : List Byte) : SchedEnt :=
  { target := Beat.ofNat (fld p 0 8), anchor := (s.slotBeat s.tslot).step, kind := 4,
    kargs := leBytes 1 (b2n s.fw.target) ++ zeros 3 ++ leBytes 8 (fld p 8 8) ++ zeros 28, q := 0, tag := 0, ctx := 0xFF, fired := false }

theorem State.fwActivate_arms {s : State} {p : List Byte} {idx : Nat} (hnow : fld p 16 1 % 2 = 0) (hidx : s.freeSched s.tslot = some idx) :
    s.fwActivate p = if fld p 7 1 = 0 ∧ targetOk (s.slotBeat s.tslot) (Beat.ofNat (fld p 0 8)) = true
        ∧ s.actOk (Beat.ofNat (fld p 0 8)) (b2n s.fw.target) (fld p 8 8) = true
      then some (s.arm s.tslot idx (s.actEntry p)) else none := by
  unfold State.fwActivate
  dsimp only
  rw [if_neg (by rw [bit, Nat.testBit_zero, decide_eq_true_eq]; omega), hidx]
  rfl

theorem State.arm_activation {s : State} {slot idx : Nat} {e : SchedEnt} (h : e.kind = 4) :
    (s.arm slot idx e).fw.arm = true ∧ (s.arm slot idx e).schedAt slot idx = some e := by
  unfold State.arm
  dsimp only
  rw [if_pos h]
  exact ⟨rfl, SMap.get_put_self s.sched none (schedKey slot idx) (some e)⟩

/-- A trial that is committed ends, and its ARB is blown (R457, R450). -/
theorem State.commitTrial_ends {s : State} (ht : s.fw.trial = true) (ha : s.fw.activating = none) : s.commitTrial.fw.trial = false
    ∧ s.commitTrial.fuses.arb = max s.fuses.arb (imgArb (s.bankRd (decide (s.bootBase.tbank = 1)) 0 256)) := by
  unfold State.commitTrial
  rw [if_pos (by simp [ht, ha])]
  dsimp only
  split
  · rw [(State.fwEvent_changes ..).fw rfl, (State.fwEvent_changes ..).fw rfl, (State.count_changes ..).fw rfl,
      (State.fwEvent_changes ..).fuses rfl, (State.fwEvent_changes ..).fuses rfl, (State.count_changes ..).fuses rfl]
    exact ⟨rfl, rfl⟩
  · rw [(State.fwEvent_changes ..).fw rfl, (State.count_changes ..).fw rfl, (State.fwEvent_changes ..).fuses rfl,
      (State.count_changes ..).fuses rfl]
    exact ⟨rfl, rfl⟩

/-! Flash (R445, R458). -/

theorem get_putFlash_of_outside (b : List Byte) : ∀ (m : SMap Byte) (a j : Nat), j < a ∨ a + b.length ≤ j →
    SMap.get (putFlash m a b) 0xFF j = SMap.get m 0xFF j := by
  induction b with
  | nil => exact fun _ _ _ _ => rfl
  | cons x r ih =>
    intro m a j hj
    rw [List.length_cons] at hj
    rw [putFlash, ih _ _ _ (by omega), SMap.get_put_ne _ _ _ _ _ _ (by omega)]

theorem get_putFlash_of_inside (b : List Byte) : ∀ (m : SMap Byte) (a i : Nat) (h : i < b.length),
    SMap.get (putFlash m a b) 0xFF (a + i) = b[i] := by
  induction b with
  | nil => exact fun _ _ _ h => absurd h (Nat.not_lt_zero _)
  | cons x r ih =>
    intro m a i hi
    cases i with
    | zero =>
      rw [putFlash, get_putFlash_of_outside _ _ _ _ (by omega)]
      exact SMap.get_put_self ..
    | succ i =>
      rw [putFlash, show a + (i + 1) = a + 1 + i by omega, ih _ _ _ (by simpa using hi)]
      rfl

/-- Flash reads what was written, within what was written. -/
theorem State.flashBytes_setFlash_inside (s : State) (a o n : Nat) (b : List Byte) (h : o + n ≤ b.length) :
    (s.setFlash a b).flashBytes (a + o) n = (b.drop o).take n := by
  refine List.ext_getElem (by simp [State.flashBytes]; omega) fun i h1 h2 => ?_
  simp only [State.flashBytes, List.length_map, List.length_range] at h1
  simp only [State.flashBytes, State.setFlash, List.getElem_map, List.getElem_range, List.getElem_take, List.getElem_drop]
  rw [Nat.add_assoc]
  exact get_putFlash_of_inside b s.flash a (o + i) (by omega)

/-- Flash elsewhere reads as before. -/
theorem State.flashBytes_setFlash_outside (s : State) (a c n : Nat) (b : List Byte) (h : c + n ≤ a ∨ a + b.length ≤ c) :
    (s.setFlash a b).flashBytes c n = s.flashBytes c n := by
  refine List.map_congr_left fun i hi => ?_
  have hlt := List.mem_range.1 hi
  exact get_putFlash_of_outside b s.flash a (c + i) (by omega)

theorem BootRec.length_bytes (r : BootRec) : r.bytes.length = 64 := by
  simp [BootRec.bytes, zeros]

/-- A boot record lies below the slots. -/
theorem State.writeBoot_keeps_slots (s : State) (g : BootRec → BootRec) (i o n : Nat) :
    (s.writeBoot g).flashBytes (slotBase i + o) n = s.flashBytes (slotBase i + o) n := by
  unfold State.writeBoot
  dsimp only
  refine State.flashBytes_setFlash_outside s _ _ _ _ (.inr ?_)
  rw [BootRec.length_bytes]
  unfold bootAddr slotBase
  split <;> omega

/-- The last word of a slot's header, which ends in zeros (R458). -/
theorem setFld_header {a : List Byte} (h : a.length = 20) (v : Nat) : setFld (a ++ zeros 44) 60 4 v = a ++ (zeros 40 ++ leBytes 4 v) := by
  have htake : (a ++ zeros 44).take 60 = a ++ zeros 40 := by
    rw [List.take_append, List.take_of_length_le (by omega), h]
    rfl
  have hdrop : (a ++ zeros 44).drop 64 = [] := List.drop_eq_nil_of_le (by simp [zeros, h])
  rw [setFld, htake, hdrop, List.append_nil, List.append_assoc]

/-- A slot's bytes: SGEN in the second word of its header, its records behind the header's 64 bytes (R458). -/
theorem State.writeSlot_bytes (s : State) (i sgen version : Nat) (recs : List SetRec) : ∃ tail : List Byte, tail.length = 56
    ∧ s.writeSlot i sgen version recs
      = s.setFlash (slotBase i) (leBytes 4 0x54535654 ++ (leBytes 4 sgen ++ (tail ++ recs.flatMap SetRec.bytes))) := by
  have hset := setFld_header (a := leBytes 4 0x54535654 ++ leBytes 4 sgen ++ leBytes 8 version ++ leBytes 4 (recs.flatMap SetRec.bytes).length)
    (by simp)
  refine ⟨leBytes 8 version ++ (leBytes 4 (recs.flatMap SetRec.bytes).length ++ (zeros 40 ++ leBytes 4 (slotCrc (leBytes 4 0x54535654
    ++ leBytes 4 sgen ++ leBytes 8 version ++ leBytes 4 (recs.flatMap SetRec.bytes).length ++ zeros 44) (recs.flatMap SetRec.bytes)))),
    by simp [zeros], ?_⟩
  unfold State.writeSlot
  dsimp only
  rw [hset]
  simp only [List.append_assoc]

section

variable (s : State) (i : Nat) {sgen : Nat} (version : Nat) (recs : List SetRec)

theorem State.slotSgen_writeSlot (h : sgen < 2 ^ 32) : (s.writeSlot i sgen version recs).slotSgen i = sgen := by
  obtain ⟨tail, hlen, hbytes⟩ := State.writeSlot_bytes s i sgen version recs
  unfold State.slotSgen State.slotHdr
  have hread := State.flashBytes_setFlash_inside s (slotBase i) 0 64
    (leBytes 4 0x54535654 ++ (leBytes 4 sgen ++ (tail ++ recs.flatMap SetRec.bytes))) (by simp; omega)
  rw [Nat.add_zero, List.drop_zero] at hread
  rw [hbytes, hread, fld, List.drop_take, List.take_take, List.drop_left' (length_leBytes ..), List.take_left' (by simp)]
  exact leVal_leBytes_of_lt h

theorem State.slotBody_writeSlot : (s.writeSlot i sgen version recs).flashBytes (slotBase i + 64) (recs.flatMap SetRec.bytes).length
    = recs.flatMap SetRec.bytes := by
  obtain ⟨tail, hlen, hbytes⟩ := State.writeSlot_bytes s i sgen version recs
  rw [hbytes, State.flashBytes_setFlash_inside _ _ _ _ _ (by simp; omega), ← List.append_assoc, ← List.append_assoc,
    List.drop_left' (by simp [hlen]), List.take_length]

end

/-! Image data (R452, R453). -/

theorem State.takeImg_stages {s : State} {off : Nat} {b : List Byte} (h : off % 1024 = 0) (hne : b ≠ []) (hlen : b.length ≤ 1024)
    (hphase : s.kind.phase ≠ 5) (hstage : s.chainStaging = true) : s.takeImg false off b = s.stagePiece off b := by
  have hno : s.inPhase 5 = false := Bool.eq_false_iff.2 fun hp => hphase (State.phase_of_inPhase hp)
  have hpos := List.length_pos_iff.2 hne
  unfold State.takeImg
  rw [if_neg (by omega), hno, hstage]
  rfl

theorem State.takeImg_boots {s : State} {off : Nat} {b : List Byte} (h : off % 1024 = 0) (hne : b ≠ []) (hlen : b.length ≤ 1024)
    (hphase : s.inPhase 5 = true) (hboot : 2 ≤ s.strapBoot) : s.takeImg true off b = s.bootPiece off b := by
  have hpos := List.length_pos_iff.2 hne
  unfold State.takeImg
  rw [if_neg (by omega), hphase, decide_eq_true hboot]
  rfl

/-- A piece that does not complete its block joins the buffer. -/
theorem State.stagePiece_joins {s : State} {off : Nat} {b : List Byte} (hblk : off / 65536 < s.fw.nblk) (hhave : s.fw.have (off / 65536) = false)
    (hnew : (off / 65536, off) ∉ s.fw.got) (hroom : (∃ x ∈ s.fw.got, x.1 = off / 65536) ∨ s.fw.buffered < 64)
    (hpart : (s.fw.got.filter fun x => x.1 = off / 65536).length < 63) : s.stagePiece off b
      = s.setFw { s.fw with part := SMap.putBytes s.fw.part off b, got := s.fw.got ++ [(off / 65536, off)] } := by
  unfold State.stagePiece
  dsimp only
  rw [if_neg (by simp [hblk, hhave, hnew]), if_neg, if_neg]
  · rfl
  · change ((s.fw.got ++ [(off / 65536, off)]).filter _).length ≠ 64
    rw [List.filter_append, List.length_append]
    have hone : ([(off / 65536, off)].filter fun p : Nat × Nat => decide (p.1 = off / 65536)).length ≤ 1 := List.length_filter_le ..
    omega
  · simp only [Bool.and_eq_true, Bool.not_eq_true', List.any_eq_false, decide_eq_true_eq, not_and, not_le]
    intro hnone
    obtain ⟨x, hx, hxi⟩ | hfree := hroom
    · exact absurd hxi (hnone x hx)
    · exact hfree

/-- A piece that the boot unit waits for joins its image. -/
theorem State.bootPiece_joins {s : State} {off : Nat} {b : List Byte} (hend : s.fw.bootEnd = false) (hk : off / 1024 < 4096 * 64)
    (hnew : off / 1024 ∉ s.fw.bootGot) : (s.bootPiece off b).fw.bootGot = s.fw.bootGot ++ [off / 1024]
      ∧ (s.bootPiece off b).fw.boot = SMap.putBytes s.fw.boot off b ∧ (s.bootPiece off b).out = s.out := by
  unfold State.bootPiece
  dsimp only
  rw [if_neg (by simp [hend, hnew, hk])]
  exact ⟨rfl, rfl, rfl⟩

theorem length_fPayload_le {f : List Byte} (h : frameOk f = true) : (fPayload f).length ≤ 1024 := by
  simp only [frameOk, Bool.and_eq_true, decide_eq_true_eq] at h
  obtain ⟨⟨hlen, -, -⟩, -⟩ := h
  exact (List.length_take_le ..).trans hlen

/-! Resets (R436). -/

/-- A source of COLD or WARM sends nothing (R397). -/
theorem State.out_assertSource_wide (s : State) (c : Nat) {r : Nat} (hr : r < 2) : (s.assertSource (wideSource c r)).out = s.out := by
  have hnote : (s.noteSource (wideSource c r)).out = s.out := (State.noteSource_changes ..).out rfl
  unfold State.assertSource
  split
  · dsimp only
    split
    · exact ((State.holdCold_changes _).out rfl).trans hnote
    · next h0 =>
      split
      · exact hnote
      · have h1 : (wideSource c r).reach = 1 := (by
          have hne : r ≠ 0 := h0
          omega : r = 1)
        rw [if_pos h1]
        exact ((State.holdWarm_changes _).out rfl).trans hnote
  · rfl

end Sys2Proof.Machine

namespace Sys2Proof.Cert

open Sys2Proof.Machine

section

variable {s : State} {f : List Byte}

/-- An assertion where the frame has arrived is one of the package before it. -/
theorem Asserts.of_same {t : State} {x : Source} (h : Asserts t x s) {r : State} (hrst : t.rst = r.rst) (hember : t.ember = r.ember) :
    Asserts r x s := by
  unfold Asserts at h ⊢
  rwa [hrst, hember] at h

theorem exec_chainReset_own (h : forOne s f) (hty : fType f = 6) :
    exec (.chainReset f) s = .next ((s.frameIn true f).assertSource (wideSource 4 (fArg f % 2))) := by
  obtain ⟨⟨hrelay, hok⟩, hheld, a, ha, hdst⟩ := h
  change Host.Outcome.next (s.onFrame f (decide (fType f = 6)) _) = _
  rw [decide_eq_true hty, State.onFrame_own hrelay hheld hok ha hdst]

theorem exec_chainReset_all (h : goodFrame s f) (hheld : pgSvc ∉ s.rst.blocks) (hdst : fDst f = 0xFF) (hty : fType f = 6) :
    exec (.chainReset f) s = .next (((s.frameIn true f).relayOn false f).assertSource (wideSource 4 (fArg f % 2))) := by
  obtain ⟨hrelay, hok⟩ := h
  change Host.Outcome.next (s.onFrame f (decide (fType f = 6)) _) = _
  rw [decide_eq_true hty, State.onFrame_all hrelay hheld hok hdst]

theorem exec_imgFrame_own (h : forOne s f) (hty : fType f = 7) :
    exec (.imgFrame f) s = .next ((s.frameIn true f).takeImg (bit (fArg f) 63) (fArg f % 2 ^ 32) (fPayload f)) := by
  obtain ⟨⟨hrelay, hok⟩, hheld, a, ha, hdst⟩ := h
  change Host.Outcome.next (s.onFrame f (decide (fType f = 7)) _) = _
  rw [decide_eq_true hty, State.onFrame_own hrelay hheld hok ha hdst]

theorem exec_imgFrame_all (h : goodFrame s f) (hheld : pgSvc ∉ s.rst.blocks) (hdst : fDst f = 0xFF) (hty : fType f = 7) :
    exec (.imgFrame f) s = .next (((s.frameIn true f).relayOn false f).takeImg (bit (fArg f) 63) (fArg f % 2 ^ 32) (fPayload f)) := by
  obtain ⟨hrelay, hok⟩ := h
  change Host.Outcome.next (s.onFrame f (decide (fType f = 7)) _) = _
  rw [decide_eq_true hty, State.onFrame_all hrelay hheld hok hdst]

end

theorem resetAndImageFramesAct : ResetAndImageFramesAct := by
  refine ⟨fun s f h hty hv => ?_, fun s f hgood hheld hdst hty hv => ?_, fun s f h hty => exec_imgFrame_own h hty,
    fun s f hgood hheld hdst hty => exec_imgFrame_all hgood hheld hdst hty,
    fun s f off i h hty hbit hoff halign hne hi hphase hstage hblk hhave hnew hroom hpart => ?_,
    fun s f off h hty hbit hoff halign hne hphase hboot hend hk hnew => ?_, fun s boot off b => (State.takeImg_changes ..).chain rfl⟩
  · have hr : fArg f % 2 < 2 := Nat.mod_lt _ (by decide)
    have harrived := State.frameIn_changes s true f
    have hassert := assertSource_asserts (wideSource 4 (fArg f % 2)) (s := s.frameIn true f) (by rw [harrived.supply rfl, hv])
    exact ⟨_, exec_chainReset_own h hty, hassert.of_same (harrived.rst rfl) (harrived.ember rfl),
      (State.out_assertSource_wide _ 4 hr).trans (State.out_frameIn ..)⟩
  · have hr : fArg f % 2 < 2 := Nat.mod_lt _ (by decide)
    have harrived : Changes 0x102100011400 s ((s.frameIn true f).relayOn false f) :=
      (State.frameIn_changes s true f).widen.andThen (State.relayOn_changes ..)
    have hassert := assertSource_asserts (wideSource 4 (fArg f % 2)) (s := (s.frameIn true f).relayOn false f) (by rw [harrived.supply rfl, hv])
    exact ⟨_, exec_chainReset_all hgood hheld hdst hty, hassert.of_same (harrived.rst rfl) (harrived.ember rfl),
      (State.out_assertSource_wide _ 4 hr).trans ((State.out_relayOn ..).trans (congrArg (fun o => o ++ [Out.frame false f]) (State.out_frameIn ..)))⟩
  · subst hoff hi
    obtain ⟨⟨-, hok⟩, -⟩ := id h
    have hfw := State.fw_frameIn s f
    refine ⟨_, exec_imgFrame_own h hty, ?_⟩
    rw [hbit, State.takeImg_stages halign hne (length_fPayload_le hok) (by rwa [State.view_frameIn State.kind])
      (by rwa [State.view_frameIn State.chainStaging]), State.stagePiece_joins (by rwa [hfw]) (by rwa [hfw]) (by rwa [hfw]) (by rwa [hfw])
      (by rwa [hfw]), hfw]
    exact ⟨rfl, rfl, State.out_frameIn ..⟩
  · subst hoff
    obtain ⟨⟨-, hok⟩, -⟩ := id h
    have hfw := State.fw_frameIn s f
    have hjoin := State.bootPiece_joins (s := s.frameIn true f) (b := fPayload f) (by rwa [hfw]) hk (by rwa [hfw])
    refine ⟨_, exec_imgFrame_own h hty, ?_⟩
    rw [hbit, State.takeImg_boots halign hne (length_fPayload_le hok) (by rwa [State.view_frameIn (State.inPhase · 5)])
      (by rwa [State.view_frameIn State.strapBoot])]
    rwa [hfw, State.out_frameIn] at hjoin

section

variable {s : State} {f : List Byte} {op : Nat} {act : State → Option State}

/-- An operation that the firmware performs is answered with 0. -/
theorem fwctl_performed (h : Fwctl s f op) {u : State} (hact : act (s.frameIn true f) = some u) :
    s.fwctl f op act = u.answer f 0 [] := by
  obtain ⟨hnew, hop, hhalt, hphase⟩ := h
  obtain ⟨-, -, hty, -, -⟩ := id hnew
  unfold State.fwctl isFwctl
  rw [decide_eq_true ⟨hty, hop⟩, request_of_new hnew, State.view_frameIn State.kind, State.view_frameIn State.pkgPhase, hhalt,
    decide_eq_false (by omega), hact]
  rfl

/-- One that it refuses is answered with BUS_ERR. -/
theorem fwctl_refused (h : Fwctl s f op) (hact : act (s.frameIn true f) = none) :
    s.fwctl f op act = (s.frameIn true f).answer f eBusErr [] := by
  obtain ⟨hnew, hop, hhalt, hphase⟩ := h
  obtain ⟨-, -, hty, -, -⟩ := id hnew
  unfold State.fwctl isFwctl
  rw [decide_eq_true ⟨hty, hop⟩, request_of_new hnew, State.view_frameIn State.kind, State.view_frameIn State.pkgPhase, hhalt,
    decide_eq_false (by omega), hact]
  rfl

/-- A refused operation changes no firmware state. -/
theorem refused_answers (h : Fwctl s f op) (hact : act (s.frameIn true f) = none) : Answers s (s.fwctl f op act) f eBusErr []
    ∧ (s.fwctl f op act).fw = s.fw := by
  rw [fwctl_refused h hact]
  exact ⟨answers_of_changes h.1 (Changes.refl 0 _) .., ((State.answer_changes ..).fw rfl).trans (State.fw_frameIn s f)⟩

end

end Sys2Proof.Cert
end

section
/-! SUPPORT. FWCTL (R452 to R459): each operation on the package where its frame has arrived, then its answer. -/

namespace Sys2Proof.Machine

/-- The state once block `i` is in the target (R453). -/
def State.blockProgrammed (s : State) (i : Nat) (r : List Nat) : State :=
  let t := s.setFlash (bankBase s.fw.target + 65536 * i) ((List.range 65536).map fun j => SMap.get s.fw.part 0 (65536 * i + j))
  (t.setFw { s.fw with programming := r, present := s.fw.present ++ [i], part := SMap.clearRange s.fw.part (65536 * i) 65536 }).count pgFw 0 1

theorem State.fw_blockProgrammed (s : State) (i : Nat) (r : List Nat) : (s.blockProgrammed i r).fw
    = { s.fw with programming := r, present := s.fw.present ++ [i], part := SMap.clearRange s.fw.part (65536 * i) 65536 } :=
  (State.count_changes ..).fw rfl

/-- FLASH_PROGRAM_DONE of a block that is not the last (R453). -/
theorem exec_flashProgramDone_more {s : State} {i j : Nat} {r : List Nat} (hs : s.staging = true) (hp : s.fw.programming = i :: r)
    (hj : j < s.fw.nblk) (hne : j ≠ i) (hmiss : j ∉ s.fw.present) : exec .flashProgramDone s = .next (s.blockProgrammed i r) := by
  have hmore : ((List.range (s.blockProgrammed i r).fw.nblk).all fun j => decide (j ∈ (s.blockProgrammed i r).fw.present)) ≠ true := by
    rw [State.fw_blockProgrammed]
    intro hall
    have hmem := of_decide_eq_true (List.all_eq_true.1 hall j (List.mem_range.2 hj))
    exact (List.mem_append.1 hmem).elim hmiss fun h => hne (List.mem_singleton.1 h)
  change execFlashProgramDone s = _
  unfold execFlashProgramDone
  rw [hp]
  exact (if_pos hs).trans (if_neg hmore)

/-- The settings that SETWR of `r` leaves, and CSGEN (R459). -/
def State.afterSetwr (s : State) (r : SetRec) : State :=
  let x := Cert.setTarget s r
  let t := (s.writeSlot x.1 x.2.1 s.fw.version.toNat x.2.2).writeBoot fun b => { b with csgen := x.2.1 }
  t.setFw { t.fw with csgen := BitVec.ofNat 32 x.2.1 }

theorem State.fwSetwr_performed {s : State} {p : List Byte} {r : SetRec} (ht : s.fw.trial = false) (hr : setRecOf p = some r) :
    s.fwSetwr p = some (s.afterSetwr r) := by
  unfold State.fwSetwr State.afterSetwr Cert.setTarget
  rw [if_neg (ne_true_of_eq_false ht), hr, Option.map_some]
  cases s.slotInForce <;> rfl

theorem State.fwSetwr_refused {s : State} {p : List Byte} (h : s.fw.trial = true ∨ setRecOf p = none) : s.fwSetwr p = none := by
  unfold State.fwSetwr
  split
  · rfl
  · next ht => rw [h.resolve_left ht, Option.map_none]

theorem Cert.setTarget_sgen_lt (s : State) (r : SetRec) : (Cert.setTarget s r).2.1 < 2 ^ 32 := by
  unfold Cert.setTarget
  dsimp only
  split
  · exact Nat.mod_lt _ (by decide)
  · exact (by decide : 1 < 2 ^ 32)

/-- What a slot reads after SETWR is what the write of the slot left there; the boot record lies below. -/
theorem State.flashBytes_afterSetwr (s : State) (r : SetRec) (i o n : Nat) : (s.afterSetwr r).flashBytes (slotBase i + o) n
    = (s.writeSlot (Cert.setTarget s r).1 (Cert.setTarget s r).2.1 s.fw.version.toNat (Cert.setTarget s r).2.2).flashBytes (slotBase i + o) n := by
  have hflash : (s.afterSetwr r).flash = ((s.writeSlot (Cert.setTarget s r).1 (Cert.setTarget s r).2.1 s.fw.version.toNat
      (Cert.setTarget s r).2.2).writeBoot fun b => { b with csgen := (Cert.setTarget s r).2.1 }).flash := rfl
  refine Eq.trans ?_ (State.writeBoot_keeps_slots _ (fun b => { b with csgen := (Cert.setTarget s r).2.1 }) i o n)
  rw [State.flashBytes, State.flashBytes, hflash]

theorem State.slotSgen_afterSetwr (s : State) (r : SetRec) : (s.afterSetwr r).slotSgen (Cert.setTarget s r).1 = (Cert.setTarget s r).2.1 := by
  have hread := State.flashBytes_afterSetwr s r (Cert.setTarget s r).1 0 64
  have hsgen := State.slotSgen_writeSlot s (Cert.setTarget s r).1 s.fw.version.toNat (Cert.setTarget s r).2.2 (Cert.setTarget_sgen_lt s r)
  rw [Nat.add_zero] at hread
  rwa [State.slotSgen, State.slotHdr, ← hread] at hsgen

theorem State.slotBody_afterSetwr (s : State) (r : SetRec) :
    (s.afterSetwr r).flashBytes (slotBase (Cert.setTarget s r).1 + 64) ((Cert.setTarget s r).2.2.flatMap SetRec.bytes).length
      = (Cert.setTarget s r).2.2.flatMap SetRec.bytes := by
  rw [State.flashBytes_afterSetwr]
  exact State.slotBody_writeSlot ..

theorem State.setTarget_frameIn (s : State) (f : List Byte) (r : SetRec) : Cert.setTarget (s.frameIn true f) r = Cert.setTarget s r := by
  unfold Cert.setTarget
  rw [State.view_frameIn State.slotInForce]
  cases s.slotInForce with
  | none => rfl
  | some i =>
    dsimp only
    rw [State.view_frameIn (State.slotSgen · i), State.view_frameIn (State.slotRecs · i)]

end Sys2Proof.Machine

namespace Sys2Proof.Cert

open Sys2Proof.Machine

section

variable {s : State} {f : List Byte}

/-- Parts that an answer leaves (R434). -/
theorem fw_answer (u : State) (code : BitVec 16) (b : List Byte) : (u.answer f code b).fw = u.fw := (State.answer_changes ..).fw rfl

theorem fwctl_status (h : newRequest s f 8) (hop : fArg f % 256 = 2) :
    exec (.fwctlStatus f) s = .next ((s.frameIn true f).answer f 0 (leBytes 4 s.fwSts ++ leBytes 4 s.fwStg)) := by
  obtain ⟨-, -, hty, -, -⟩ := id h
  change Host.Outcome.next (s.request f (decide (fType f = 8 ∧ fArg f % 256 = 2)) _) = _
  rw [decide_eq_true ⟨hty, hop⟩, request_of_new h, State.view_frameIn State.fwSts, State.view_frameIn State.fwStg]

theorem fwctl_begin {n : Nat} (h : Fwctl s f 1) (hn : n = bits (fArg f) 23 8) : ∃ t : State, exec (.fwctlBegin f) s = .next t
    ∧ (s.staging = false → s.fw.trial = false → s.hostStaging = false → 1 ≤ n → n ≤ 4096 →
        Answers s t f 0 [] ∧ t.fw.sstate = 1 ∧ t.fw.target = !s.cbank ∧ t.fw.nblk = n ∧ t.fw.present = [])
    ∧ (s.staging = true ∨ s.fw.trial = true ∨ s.hostStaging = true ∨ n = 0 ∨ 4096 < n → Answers s t f eBusErr [] ∧ t.fw = s.fw) := by
  subst hn
  obtain ⟨⟨⟨-, hok⟩, -⟩, -⟩ := id h
  have hstaging := State.view_frameIn State.staging s f
  have hfw := State.fw_frameIn s f
  have hhost := State.hostStaging_frameIn (s := s) hok
  refine ⟨_, rfl, fun hs ht hh h1 h2 => ?_, fun hno => ?_⟩
  · rw [fwctl_performed h (State.fwBegin_accepted (by rwa [hstaging]) (by rwa [hfw]) (by rwa [hhost]) h1 h2), fw_answer]
    exact ⟨answers_of_changes h.1 (State.beginStage_changes ..) .., rfl, congrArg (!·) (State.view_frameIn State.cbank s f), rfl, rfl⟩
  · exact refused_answers h (State.fwBegin_refused (by rwa [hstaging, hfw, hhost]))

theorem fwctl_activateNow (h : Fwctl s f 3) (hnow : fld (fPayload f) 16 1 % 2 = 1) : ∃ t : State, exec (.fwctlActivate f) s = .next t
    ∧ (s.fw.staged.toNat = fld (fPayload f) 8 8 → s.liveCtxs = [] → s.fw.sstate = 3 → s.fw.activating = none → s.actArmed = false →
        s.bankOk s.fw.target = true → Answers s t f 0 [] ∧ t.fw.trial = true ∧ t.fw.activating = some { hold := none, fired := none })
    ∧ (s.fw.staged.toNat ≠ fld (fPayload f) 8 8 ∨ s.liveCtxs ≠ [] ∨ s.fw.sstate ≠ 3 → Answers s t f eBusErr [] ∧ t.fw = s.fw) := by
  have hfw := State.fw_frameIn s f
  have hlive := State.view_frameIn State.liveCtxs s f
  refine ⟨_, rfl, fun hv hl h3 hact harm hbank => ?_, fun hno => refused_answers h ?_⟩
  · have hbegin := (State.fwActivate_now (s := s.frameIn true f) hnow).trans ((if_pos (by rwa [hfw])).trans
      (State.fwNow_accepted (by rwa [hlive]) (by rwa [hfw]) (by rwa [hfw]) (by rwa [State.view_frameIn State.actArmed])))
    rw [fwctl_performed h hbegin, fw_answer]
    exact ⟨answers_of_changes h.1 (State.activate_changes ..) .., State.activate_begins _ (by rwa [hfw])
      (by rwa [State.view_frameIn (fun t => t.bankOk t.fw.target)])⟩
  · rw [State.fwActivate_now hnow, hfw]
    split
    · next hv => exact State.fwNow_refused (by rw [hlive, hfw]; exact hno.resolve_left (not_not.2 hv))
    · rfl

theorem fwctl_activateAt {b : Beat} {idx : Nat} (h : Fwctl s f 3) (hnow : fld (fPayload f) 16 1 % 2 = 0)
    (hb : b = Beat.ofNat (fld (fPayload f) 0 8)) (hidx : s.freeSched s.tslot = some idx) : ∃ t : State, exec (.fwctlActivate f) s = .next t
    ∧ (fld (fPayload f) 7 1 = 0 → targetOk (s.slotBeat s.tslot) b = true →
        s.actOk b (b2n s.fw.target) (fld (fPayload f) 8 8) = true →
        Answers s t f 0 [] ∧ t.fw.arm = true ∧ ∃ e, t.schedAt s.tslot idx = some e ∧ e.target = b ∧ e.kind = 4 ∧ e.tag = 0)
    ∧ (fld (fPayload f) 7 1 ≠ 0 ∨ targetOk (s.slotBeat s.tslot) b = false
          ∨ s.actOk b (b2n s.fw.target) (fld (fPayload f) 8 8) = false →
        Answers s t f eBusErr [] ∧ t.fw = s.fw ∧ t.sched = s.sched) := by
  subst hb
  obtain ⟨⟨⟨-, hok⟩, -⟩, -⟩ := id h
  have htslot := State.tslot_frameIn (s := s) hok
  have hfw := State.fw_frameIn s f
  have hbeat := State.view_frameIn (State.slotBeat · s.tslot) s f
  have hact := State.view_frameIn (fun t => t.actOk (Beat.ofNat (fld (fPayload f) 0 8)) (b2n t.fw.target) (fld (fPayload f) 8 8)) s f
  have harm := State.fwActivate_arms (s := s.frameIn true f) (idx := idx) hnow
    (by rw [htslot, State.view_frameIn (State.freeSched · s.tslot), hidx])
  rw [htslot, hbeat, hact] at harm
  refine ⟨_, rfl, fun h7 htarget hok => ?_, fun hno => ?_⟩
  · rw [if_pos ⟨h7, htarget, hok⟩] at harm
    obtain ⟨hfwarm, hsched⟩ := State.arm_activation (s := s.frameIn true f) (slot := s.tslot) (idx := idx)
      (e := (s.frameIn true f).actEntry (fPayload f)) rfl
    rw [fwctl_performed (act := (State.fwActivate · (fPayload f))) h harm, fw_answer]
    refine ⟨answers_of_changes h.1 (State.arm_changes ..) .., hfwarm, (s.frameIn true f).actEntry (fPayload f), ?_, rfl, rfl, rfl⟩
    rw [← hsched, State.schedAt, (State.answer_changes ..).sched rfl]
    rfl
  · have hnot : ¬ (fld (fPayload f) 7 1 = 0 ∧ targetOk (s.slotBeat s.tslot) (Beat.ofNat (fld (fPayload f) 0 8)) = true
        ∧ s.actOk (Beat.ofNat (fld (fPayload f) 0 8)) (b2n s.fw.target) (fld (fPayload f) 8 8) = true) := by
      rintro ⟨h7, ht, ha⟩
      rw [h7, ht, ha] at hno
      simp at hno
    rw [if_neg hnot] at harm
    obtain ⟨hanswers, hsame⟩ := refused_answers (act := (State.fwActivate · (fPayload f))) h harm
    refine ⟨hanswers, hsame, ?_⟩
    rw [fwctl_refused (act := (State.fwActivate · (fPayload f))) h harm, (State.answer_changes ..).sched rfl]
    exact State.view_frameIn State.sched s f

theorem fwctl_abort (h : Fwctl s f 4) : ∃ t : State, exec (.fwctlAbort f) s = .next t
    ∧ (s.staging = true → Answers s t f 0 [] ∧ t.fw.sstate = 0 ∧ t.fw.nblk = 0)
    ∧ (s.staging = false → Answers s t f eBusErr [] ∧ t.fw = s.fw) := by
  have hstaging := State.view_frameIn State.staging s f
  refine ⟨_, rfl, fun hs => ?_, fun hs => refused_answers h (if_neg (ne_true_of_eq_false (by rwa [hstaging])))⟩
  rw [fwctl_performed (act := State.fwAbort) h (if_pos (by rwa [hstaging])), fw_answer]
  exact ⟨answers_of_changes h.1 (State.dropStage_changes _) .., rfl, rfl⟩

theorem fwctl_commit (h : Fwctl s f 5) : ∃ t : State, exec (.fwctlCommit f) s = .next t
    ∧ (s.fw.trial = true → s.fw.activating = none → Answers s t f 0 [] ∧ t.fw.trial = false
        ∧ t.fuses.arb = max s.fuses.arb (imgArb (s.bankRd (decide (s.bootBase.tbank = 1)) 0 256)))
    ∧ (s.fw.trial = false → Answers s t f eBusErr [] ∧ t.fw = s.fw ∧ t.fuses = s.fuses) := by
  have hfw := State.fw_frameIn s f
  have harb := State.view_frameIn (fun t => max t.fuses.arb (imgArb (t.bankRd (decide (t.bootBase.tbank = 1)) 0 256))) s f
  refine ⟨_, rfl, fun ht ha => ?_, fun ht => ?_⟩
  · obtain ⟨htrial, hblown⟩ := State.commitTrial_ends (s := s.frameIn true f) (by rwa [hfw]) (by rwa [hfw])
    rw [fwctl_performed (act := State.fwCommit) h (if_pos (by rwa [hfw])), fw_answer, (State.answer_changes ..).fuses rfl]
    exact ⟨answers_of_changes h.1 (State.commitTrial_changes _) .., htrial, hblown.trans harb⟩
  · have hno : (s.frameIn true f).fwCommit = none := if_neg (ne_true_of_eq_false (by rwa [hfw]))
    obtain ⟨hanswers, hsame⟩ := refused_answers h hno
    refine ⟨hanswers, hsame, ?_⟩
    rw [fwctl_refused h hno, (State.answer_changes ..).fuses rfl]
    exact State.view_frameIn State.fuses s f

theorem fwctl_setwr (h : Fwctl s f 6) : ∃ t : State, exec (.fwctlSetwr f) s = .next t
    ∧ (∀ r, s.fw.trial = false → setRecOf (fPayload f) = some r → Answers s t f 0 []
        ∧ t.fw.csgen = BitVec.ofNat 32 (setTarget s r).2.1 ∧ t.slotSgen (setTarget s r).1 = (setTarget s r).2.1
        ∧ t.flashBytes (slotBase (setTarget s r).1 + 64) ((setTarget s r).2.2.flatMap SetRec.bytes).length
            = (setTarget s r).2.2.flatMap SetRec.bytes)
    ∧ (s.fw.trial = true ∨ setRecOf (fPayload f) = none → Answers s t f eBusErr [] ∧ t.fw = s.fw ∧ t.flash = s.flash) := by
  have hfw := State.fw_frameIn s f
  refine ⟨_, rfl, fun r ht hr => ?_, fun hno => ?_⟩
  · have hperform := State.fwSetwr_performed (s := s.frameIn true f) (by rwa [hfw]) hr
    have hsgen := State.slotSgen_afterSetwr (s.frameIn true f) r
    have hbody := State.slotBody_afterSetwr (s.frameIn true f) r
    have hflash : (((s.frameIn true f).afterSetwr r).answer f 0 []).flash = ((s.frameIn true f).afterSetwr r).flash := (State.answer_changes ..).flash rfl
    have hread : ∀ a n, (((s.frameIn true f).afterSetwr r).answer f 0 []).flashBytes a n = ((s.frameIn true f).afterSetwr r).flashBytes a n :=
      fun a n => by rw [State.flashBytes, hflash]; rfl
    have htarget := State.setTarget_frameIn s f r
    rw [htarget] at hsgen hbody
    rw [fwctl_performed (act := (State.fwSetwr · (fPayload f))) h hperform, fw_answer]
    refine ⟨answers_of_changes (m := 0x18000000000) h.1 ?_ .., ?_, ?_, ?_⟩
    · exact (((State.writeSlot_changes ..).widen).andThen (State.writeBoot_changes ..)).andThen (State.setFw_changes ..)
    · exact congrArg (fun x => BitVec.ofNat 32 x.2.1) htarget
    · rw [← hsgen, State.slotSgen, State.slotHdr, hread]
      rfl
    · rw [hread, hbody]
  · have hrefuse := State.fwSetwr_refused (s := s.frameIn true f) (p := fPayload f) (by rwa [hfw])
    obtain ⟨hanswers, hsame⟩ := refused_answers (act := (State.fwSetwr · (fPayload f))) h hrefuse
    refine ⟨hanswers, hsame, ?_⟩
    rw [fwctl_refused (act := (State.fwSetwr · (fPayload f))) h hrefuse, (State.answer_changes ..).flash rfl]
    exact State.view_frameIn State.flash s f

end

theorem firmwareControlActs : FirmwareControlActs :=
  ⟨fun _ _ h hop => ⟨_, fwctl_status h hop, answers_of_changes h (Changes.refl 0 _) ..⟩, fun _ _ _ h hn => fwctl_begin h hn,
    fun _ _ h hnow => fwctl_activateNow h hnow, fun _ _ _ _ h hnow hb hidx => fwctl_activateAt h hnow hb hidx, fun _ _ h => fwctl_abort h,
    fun _ _ h => fwctl_commit h, fun _ _ h => fwctl_setwr h,
    fun _ _ _ _ hs hp hj hne hmiss => ⟨_, exec_flashProgramDone_more hs hp hj hne hmiss, by
      rw [State.fw_blockProgrammed]
      exact ⟨rfl, rfl, rfl⟩⟩⟩

/-- Settles O57, by its two parts. -/
theorem chainControlsResetAndFirmware : Obligations.ChainControlsResetAndFirmware := ⟨resetAndImageFramesAct, firmwareControlActs⟩

end Sys2Proof.Cert
end

section
/-! SUPPORT. Freeze states (R472 to R478) and trace units (R482, R483): what a freeze or a thaw leaves of its state, and what a write of
their registers does. -/

namespace Sys2Proof.Machine

/-! Freeze states. -/

theorem State.fz_of_freeze {s t : State} (h : t.freeze = s.freeze) (k : Nat) : t.fz k = s.fz k := by
  rw [State.fz, State.fz, h]

theorem State.fz_setFz (s : State) (k : Nat) (f : Freeze) : ({ s with freeze := SMap.put s.freeze Freeze.reset k f } : State).fz k = f :=
  SMap.get_put_self ..

/-- What a freeze leaves of its state: a frozen one takes only MORE (R476). -/
theorem State.fz_fzSet (s : State) (k src : Nat) (err : BitVec 16) (q ctx : Nat) (tag : BitVec 32) (idx : Nat) :
    (s.fzSet k src err q ctx tag idx).fz k = if (s.fz k).v then { s.fz k with more := true }
      else { v := true, more := false, src := BitVec.ofNat 3 src, err := err, beat := s.slotBeat (if k = 24 then s.tslot else k) } := by
  unfold State.fzSet
  dsimp only
  split
  · exact State.fz_setFz ..
  · refine (State.fz_of_freeze ((State.fzEvent_changes ..).freeze rfl) k).trans ?_
    refine (State.fz_of_freeze ((Changes.foldl (m := 0x100011400) _ (Changes.refl _ _) fun t d => State.count_changes ..).freeze rfl) k).trans ?_
    exact State.fz_setFz ..

/-- What a thaw leaves of its state (R476). -/
theorem State.fz_fzThaw (s : State) (k src q ctx : Nat) (tag : BitVec 32) (idx : Nat) :
    (s.fzThaw k src q ctx tag idx).fz k = if (s.fz k).v then { s.fz k with v := false, more := false } else s.fz k := by
  unfold State.fzThaw
  dsimp only
  split
  · refine (State.fz_of_freeze ((State.fzEvent_changes ..).freeze rfl) k).trans ?_
    refine (State.fz_of_freeze ((State.fzTrace_changes ..).freeze rfl) k).trans ?_
    exact State.fz_setFz ..
  · rfl

theorem State.v_fzSet (s : State) (k src : Nat) (err : BitVec 16) (q ctx : Nat) (tag : BitVec 32) (idx : Nat) :
    ((s.fzSet k src err q ctx tag idx).fz k).v = true := by
  rw [State.fz_fzSet]
  split
  · assumption
  · rfl

theorem State.v_fzThaw (s : State) (k src q ctx : Nat) (tag : BitVec 32) (idx : Nat) : ((s.fzThaw k src q ctx tag idx).fz k).v = false := by
  rw [State.fz_fzThaw]
  split
  · rfl
  · next h => exact Bool.eq_false_iff.2 h

/-! Trace keeps every register. -/

theorem State.trace_keepsReach (s : State) (die rtype blk unit ctx hearth : Nat) (b : Beat) (tag : BitVec 32) (data : List Byte) :
    KeepsReach s (s.trace die rtype blk unit ctx hearth b tag data) := by
  unfold State.trace
  split
  · exact (KeepsReach.of_changes (State.takeFree_changes s 6)).trans (State.traceBuf_keepsReach ..)
  · exact .refl s

theorem State.foldl_keepsReach {α : Type} {f : State → α → State} (hf : ∀ t x, KeepsReach t (f t x)) (l : List α) (s : State) :
    KeepsReach s (l.foldl f s) := by
  induction l generalizing s with
  | nil => exact .refl s
  | cons x r ih => exact (hf s x).trans (ih _)

theorem State.fzTrace_keepsReach (s : State) (k action src : Nat) : KeepsReach s (s.fzTrace k action src) := by
  refine State.foldl_keepsReach (fun t d => ?_) _ _
  split
  · dsimp only
    split
    · exact (KeepsReach.of_changes (State.traceFlush_changes ..)).trans (State.trace_keepsReach ..)
    · exact State.trace_keepsReach ..
  · exact .refl t

/-- A freeze leaves every register's word in force. -/
theorem State.cfg_fzSet (s : State) (k src : Nat) (err : BitVec 16) (q ctx : Nat) (tag : BitVec 32) (idx : Nat) (pg off : Nat) (reset : Word) :
    (s.fzSet k src err q ctx tag idx).cfg pg off reset = s.cfg pg off reset := by
  unfold State.fzSet
  dsimp only
  split
  · rfl
  · refine ((State.foldl_keepsReach (fun t d => State.count_keepsReach ..) _ _).trans (.of_changes (State.fzEvent_changes ..))).cfg pg off reset |>.trans ?_
    exact (State.fzTrace_keepsReach s k 0 src).cfg pg off reset

/-! Words under a mask. -/

theorem testBit_maskIn {mask old v i : Nat} (h : mask.testBit i = true) (hi : i < 32) : (maskIn mask old v).testBit i = v.testBit i := by
  have hones : (0xFFFFFFFF : Nat).testBit i = true := by
    rw [show (0xFFFFFFFF : Nat) = 2 ^ 32 - 1 from rfl, Nat.testBit_two_pow_sub_one, decide_eq_true hi]
  simp [maskIn, h, hones]

/-! TRC_FCTL (R473, R476). -/

theorem State.pageInfo_trcMgr (s : State) : s.pageInfo pgTrcMgr = some ⟨99, none, 0x15, 0⟩ := rfl

/-- TRC_FCTL's bits (Table 19.6). -/
def fctlReg : RegDef := rwReg 0xE00001F 0

/-- The state once a write of TRC_FCTL has been stored. -/
def State.withFctl (s : State) (v : Nat) : State := s.putReg pgTrcMgr 0x140 fctlReg v

theorem State.fz_withFctl (s : State) (v k : Nat) : (s.withFctl v).fz k = s.fz k := rfl

section

variable {s : State} {v : Nat}

theorem State.stored_withFctl (s : State) (v : Nat) : (s.withFctl v).stored pgTrcMgr 0x140 fctlReg % 32 = v % 32 := by
  have hword : (s.withFctl v).stored pgTrcMgr 0x140 fctlReg = maskIn 0xE00001F (s.stored pgTrcMgr 0x140 fctlReg) v % 2 ^ 32 := by
    unfold State.stored State.withFctl State.putReg
    rw [State.page_setPage, Page.putWord, SMap.get_put_self]
    exact BitVec.toNat_ofNat ..
  refine Nat.eq_of_testBit_eq fun i => ?_
  rw [hword, show 32 = 2 ^ 5 from rfl, Nat.testBit_mod_two_pow, Nat.testBit_mod_two_pow, Nat.testBit_mod_two_pow]
  by_cases hi : i < 5
  · rw [testBit_maskIn (by interval_cases i <;> decide) (by omega), decide_eq_true (by omega : i < 2 ^ 5), Bool.true_and]
  · rw [decide_eq_false hi, Bool.false_and, Bool.false_and]

theorem State.pout_withFctl (h : (s.page pgTrcMgr).pinj = false) : ((s.withFctl v).cfg pgTrcMgr 0x140 0).getLsbD 26 = v.testBit 26 := by
  have hpage : (s.withFctl v).page pgTrcMgr = (s.page pgTrcMgr).putWord 0x140 0 (maskIn 0xE00001F (s.stored pgTrcMgr 0x140 fctlReg) v) :=
    State.page_setPage ..
  have hgood : 0x140 ∉ ((s.withFctl v).page pgTrcMgr).badPar := by
    rw [hpage]
    simp [Page.putWord, Page.freshPar, Page.mend, h]
  unfold State.cfg
  dsimp only
  rw [if_neg (by simp [hgood]), hpage]
  change (SMap.get (SMap.put _ (0 : Word) 0x140 _) 0 0x140).getLsbD 26 = _
  rw [SMap.get_put_self, BitVec.getLsbD_ofNat, testBit_maskIn (by decide) (by decide)]
  rfl

/-- A write of TRC_FCTL that names a cord of the part, taken apart into its actions. -/
theorem State.writeFctl_of_slot (hk : v % 32 < s.nCords) : s.writeFctl pgTrcMgr fctlReg v
    = (let s1 := s.withFctl v
       let q := s1.fzQueue (v % 32)
       let s2 := if bit v 30 then s1.fzThaw 24 2 0 0xFF 0 0xFFFF else s1
       let s3 := if bit v 31 then s2.fzSet 24 2 0 0 0xFF 0 0xFFFF else s2
       let s4 := if bit v 28 then s3.fzThaw (v % 32) 2 q.1 q.2 0 0xFFFF else s3
       if bit v 29 then s4.fzSet (v % 32) 2 0 q.1 q.2 0 0xFFFF else s4) := by
  have hbits : bits v 4 0 < s.nCords := by
    rwa [bits, Nat.pow_zero, Nat.div_one]
  unfold State.writeFctl
  dsimp only
  rw [if_pos hbits, ← State.stored_withFctl s v]
  rfl

end

/-! Trace units. -/

theorem State.trcUnit_of_trc {s t : State} (h : t.trc = s.trc) (die : Nat) : t.trcUnit die = s.trcUnit die := by
  rw [State.trcUnit, State.trcUnit, h]

/-- A flush leaves whole lines, behind what was buffered (R482). -/
theorem State.traceFlush_completes (s : State) (die : Nat) : ((s.traceFlush die).trcUnit die).buf.length % 2 = 0
    ∧ ((s.traceFlush die).trcUnit die).buf.take (s.trcUnit die).buf.length = (s.trcUnit die).buf := by
  unfold State.traceFlush
  dsimp only
  split
  · next hodd =>
    rw [trcUnit_setTrc]
    exact ⟨by rw [List.length_append, List.length_singleton]; omega, List.take_left' rfl⟩
  · next heven => exact ⟨by omega, List.take_length⟩

/-- A line leaves the buffer with its two records, whether the write succeeds or not (R482, R483). -/
theorem State.trcUnit_traceLine {s : State} {die : Nat} {a b : List Byte} {r : List (List Byte)} (ok : Bool)
    (h : (s.trcUnit die).buf = a :: b :: r) : (s.traceLine die ok).trcUnit die
      = { s.trcUnit die with
          buf := if bit (s.trcCtl die) 30 && decide (2 ^ s.trcLog2 die / 32 ≤ (s.trcUnit die).wptr + 2) then [] else r
          wptr := (s.trcUnit die).wptr + 2
          full := bit (s.trcCtl die) 30 && decide (2 ^ s.trcLog2 die / 32 ≤ (s.trcUnit die).wptr + 2) } := by
  unfold State.traceLine
  dsimp only
  rw [h]
  dsimp only
  rw [State.trcUnit_of_trc ((State.traceStored_changes ..).trc rfl)]
  split
  · rw [State.trcUnit_of_trc ((State.count_changes ..).trc rfl)]
    exact trcUnit_setTrc ..
  · exact trcUnit_setTrc ..

/-- A die's TRC page is a page of that die (Table 15.1). -/
theorem State.pageInfo_pgTrc {s : State} {die : Nat} {i : PageInfo} (h : s.hasTrc die = true) (hi : s.pageInfo (pgTrc die) = some i) :
    i.die = die ∧ i.blk = 0x15 := by
  simp only [State.hasTrc, Bool.and_eq_true, Bool.or_eq_true, decide_eq_true_eq] at h
  obtain ⟨hdie, hrange⟩ := h
  have hle : die ≤ 99 := by
    unfold State.hasDie at hdie
    split at hdie
    · have := of_decide_eq_true hdie
      omega
    · exact of_decide_eq_true hdie
  obtain hlow | hhigh := hrange
  · rw [pgTrc, if_pos hlow, diePage, if_neg (by omega)] at hi
    unfold State.pageInfo at hi
    dsimp only at hi
    rw [show ((die + 1) * 16384 + 9) / 16384 = die + 1 by omega, show ((die + 1) * 16384 + 9) % 16384 = 9 by omega, if_neg (by omega),
      Nat.add_sub_cancel, if_neg (by simp [hdie]; omega), if_pos hlow] at hi
    cases hi
    exact ⟨rfl, rfl⟩
  · interval_cases die
    · have hpage : s.pageInfo (pgTrc 96) = some ⟨96, none, 0x15, 0⟩ := by simp [State.pageInfo, pgTrc, diePage, hdie]
      cases hpage.symm.trans hi
      exact ⟨rfl, rfl⟩
    · have hpage : s.pageInfo (pgTrc 97) = some ⟨97, none, 0x15, 0⟩ := by simp [State.pageInfo, pgTrc, diePage, hdie]
      cases hpage.symm.trans hi
      exact ⟨rfl, rfl⟩
    · have hpage : s.pageInfo (pgTrc 98) = some ⟨98, none, 0x15, 0⟩ := by simp [State.pageInfo, pgTrc, diePage, hdie]
      cases hpage.symm.trans hi
      exact ⟨rfl, rfl⟩
    · cases hi
      exact ⟨rfl, rfl⟩

end Sys2Proof.Machine

namespace Sys2Proof.Cert

open Sys2Proof.Machine

/-- A write that lands on a block's register is what the block does of it. -/
theorem Lands.pageWrite_block {s : State} {prv : Priv} {pg off v : Nat} {i : PageInfo} {d : RegDef} (h : Lands s prv pg off v i)
    (hlo : 0x100 ≤ off) (hhi : off < 0xC00) (hd : s.regDef i off = some d) :
    s.pageWrite prv pg off v = s.writeBlock (decide (prv = .m)) i pg off d (v % 2 ^ 32) := by
  have hw : s.writeReg prv (pageAddr pg + off) 4 v = (s.writeBlock (decide (prv = .m)) i pg off d (v % 2 ^ 32), true) := by
    unfold State.writeReg
    rw [show s.reach prv (pageAddr pg + off) 4 true v = _ from h]
    dsimp only
    rw [if_neg (by omega), if_pos hhi, hd]
  unfold State.pageWrite State.hostWrite
  rw [hw]
  rfl

section

variable {s : State} {prv : Priv} {v : Word} {i : PageInfo}

/-- A write that lands on TRC_FCTL is what the register does of it. -/
theorem Lands.pageWrite_fctl {n : Nat} (h : Lands s prv pgTrcMgr 0x140 n i) : s.pageWrite prv pgTrcMgr 0x140 n = s.writeFctl pgTrcMgr fctlReg (n % 2 ^ 32) := by
  have hi := Lands.pageInfo h (by decide)
  rw [State.pageInfo_trcMgr] at hi
  cases hi
  rw [Lands.pageWrite_block h (d := fctlReg) (by decide) (by decide) rfl]
  rfl

/-- The value `n` of a write of TRC_FCTL beside whose low bits `v` the action bit `k` alone is set (Table 19.6). -/
structure IsAction (v : Word) (k n : Nat) : Prop where
  lt : n < 2 ^ 32
  slot : n % 32 = v.toNat % 32
  pout : n.testBit 26 = v.getLsbD 26
  bits : ∀ j, 28 ≤ j → bit n j = decide (k = j)

theorem isAction_or {k : Nat} (hv : v.toNat < 2 ^ 28) (hk : 28 ≤ k) (hk' : k < 32) : IsAction v k (v.toNat ||| 2 ^ k) where
  lt := Nat.or_lt_two_pow (hv.trans (by decide)) (Nat.pow_lt_pow_right (by decide) hk')
  slot := by
    have hpow : 2 ^ k % 2 ^ 5 = 0 := Nat.mod_eq_zero_of_dvd (Nat.pow_dvd_pow 2 (by omega))
    change (v.toNat ||| 2 ^ k) % 2 ^ 5 = v.toNat % 2 ^ 5
    rw [Nat.or_mod_two_pow, hpow, Nat.or_zero]
  pout := by
    rw [Nat.testBit_or, Nat.testBit_two_pow, decide_eq_false (by omega), Bool.or_false]
    rfl
  bits j hj := by
    rw [bit, Nat.testBit_or, Nat.testBit_two_pow, Nat.testBit_lt_two_pow (hv.trans_le (Nat.pow_le_pow_right (by decide) hj)), Bool.false_or]

end

section

variable {s : State} {prv : Priv} {v : Word} {i : PageInfo} {n : Nat} (h : Lands s prv pgTrcMgr 0x140 n i) (hslot : v.toNat % 32 < s.nCords)
include h hslot

/-- The commands of TRC_FCTL: the action that their bit asks of what the write stored. -/
theorem IsAction.run {k : Nat} (ha : IsAction v k n) : s.pageWrite prv pgTrcMgr 0x140 n
    = (let s1 := s.withFctl n
       let q := s1.fzQueue (v.toNat % 32)
       let s2 := if k = 30 then s1.fzThaw 24 2 0 0xFF 0 0xFFFF else s1
       let s3 := if k = 31 then s2.fzSet 24 2 0 0 0xFF 0 0xFFFF else s2
       let s4 := if k = 28 then s3.fzThaw (v.toNat % 32) 2 q.1 q.2 0 0xFFFF else s3
       if k = 29 then s4.fzSet (v.toNat % 32) 2 0 q.1 q.2 0 0xFFFF else s4) := by
  rw [Lands.pageWrite_fctl h, Nat.mod_eq_of_lt ha.lt, State.writeFctl_of_slot (by rwa [ha.slot])]
  simp only [ha.slot, ha.bits, le_refl, Nat.reduceLeDiff, decide_eq_true_eq]

end

section

variable {s : State} {prv : Priv} {v : Word} {i : PageInfo} (hv : v.toNat < 2 ^ 28) (hslot : v.toNat % 32 < s.nCords)
include hv hslot

theorem freezeGo (h : Lands s prv pgTrcMgr 0x140 (v.toNat ||| 2 ^ 31) i) : ∃ t : State, exec (.trcFctlGo prv v) s = .next t ∧ (t.fz 24).v = true
    ∧ ((s.page pgTrcMgr).pinj = false → t.frznLow = v.getLsbD 26)
    ∧ ((s.fz 24).v = true → (t.fz 24).more = true ∧ (t.fz 24).beat = (s.fz 24).beat)
    ∧ ((s.fz 24).v = false → (t.fz 24).src = 2 ∧ (t.fz 24).more = false) := by
  have ha := isAction_or hv (show 28 ≤ 31 by decide) (by decide)
  have hrun : s.pageWrite prv pgTrcMgr 0x140 (v.toNat ||| 2 ^ 31) = (s.withFctl (v.toNat ||| 2 ^ 31)).fzSet 24 2 0 0 0xFF 0 0xFFFF := ha.run h hslot
  have hfz := State.fz_fzSet (s.withFctl (v.toNat ||| 2 ^ 31)) 24 2 0 0 0xFF 0 0xFFFF
  have hfrozen := State.v_fzSet (s.withFctl (v.toNat ||| 2 ^ 31)) 24 2 0 0 0xFF 0 0xFFFF
  refine ⟨_, congrArg Host.Outcome.next hrun, hfrozen, fun hpinj => ?_, fun h24 => ?_, fun h24 => ?_⟩
  · rw [State.frznLow, hfrozen, Bool.and_true, State.cfg_fzSet, State.pout_withFctl hpinj, ha.pout]
  · rw [hfz, State.fz_withFctl, if_pos h24]
    exact ⟨rfl, rfl⟩
  · rw [hfz, State.fz_withFctl, if_neg (ne_true_of_eq_false h24)]
    exact ⟨rfl, rfl⟩

theorem freezeThaw (h : Lands s prv pgTrcMgr 0x140 (v.toNat ||| 2 ^ 30) i) : ∃ t : State, exec (.trcFctlThaw prv v) s = .next t
    ∧ (t.fz 24).v = false ∧ (t.fz 24).beat = (s.fz 24).beat := by
  have hrun : s.pageWrite prv pgTrcMgr 0x140 (v.toNat ||| 2 ^ 30) = (s.withFctl (v.toNat ||| 2 ^ 30)).fzThaw 24 2 0 0xFF 0 0xFFFF :=
    (isAction_or hv (by decide) (by decide)).run h hslot
  refine ⟨_, congrArg Host.Outcome.next hrun, State.v_fzThaw .., ?_⟩
  rw [State.fz_fzThaw]
  split
  · rfl
  · rfl

theorem freezeSlotGo (h : Lands s prv pgTrcMgr 0x140 (v.toNat ||| 2 ^ 29) i) :
    ∃ t : State, exec (.trcFctlSgo prv v) s = .next t ∧ (t.fz (v.toNat % 32)).v = true :=
  ⟨_, congrArg Host.Outcome.next ((isAction_or hv (by decide) (by decide)).run h hslot), State.v_fzSet ..⟩

theorem freezeSlotThaw (h : Lands s prv pgTrcMgr 0x140 (v.toNat ||| 2 ^ 28) i) :
    ∃ t : State, exec (.trcFctlSthaw prv v) s = .next t ∧ (t.fz (v.toNat % 32)).v = false :=
  ⟨_, congrArg Host.Outcome.next ((isAction_or hv (by decide) (by decide)).run h hslot), State.v_fzThaw ..⟩

end

theorem traceRegisterActs {s : State} {prv : Priv} {die : Nat} {v : Word} {i : PageInfo} (hdie : s.hasTrc die = true)
    (h : Lands s prv (pgTrc die) 0x100 v.toNat i) :
    (v.getLsbD 31 = true → bit (s.trcCtl die) 31 = false → 16 ≤ s.trcLog2 die → s.trcLog2 die ≤ 32 → s.trcRegionOk die = true →
      ∃ t : State, exec (.trcCtlWrite prv die v) s = .next t ∧ t.trcUnit die = { wptr := 0, full := false, buf := [], lost := 0 })
    ∧ (v.getLsbD 31 = false → bit (s.trcCtl die) 31 = true →
      ∃ t : State, exec (.trcCtlWrite prv die v) s = .next t ∧ t.trcUnit die = (s.traceFlush die).trcUnit die) := by
  obtain ⟨hidie, hblk⟩ := State.pageInfo_pgTrc hdie (Lands.pageInfo h (by decide))
  have hdef : s.regDef i 0x100 = some (rwReg 0xE1FF03FE 0x21FF0000) := by
    unfold State.regDef
    rw [hblk]
    rfl
  have hrun : exec (.trcCtlWrite prv die v) s = .next (s.writeTrcCtl die (pgTrc die) (rwReg 0xE1FF03FE 0x21FF0000) v.toNat) := by
    refine congrArg Host.Outcome.next ((if_pos hdie).trans ?_)
    rw [Lands.pageWrite_block h (by decide) (by decide) hdef, word_mod]
    unfold State.writeBlock
    rw [if_neg fun hrwx => hrwx.1 rfl, hblk, hidie]
    rfl
  rw [hrun]
  refine ⟨fun hen hwas hlo hhi hok => ⟨_, rfl, ?_⟩, fun hen hwas => ⟨_, rfl, ?_⟩⟩
  · have hbit : bit v.toNat 31 = true := hen
    unfold State.writeTrcCtl
    simp only [hbit, hwas, hlo, hhi, hok]
    exact State.trcUnit_setTrc ..
  · have hbit : bit v.toNat 31 = false := hen
    unfold State.writeTrcCtl
    simp only [hbit, hwas]
    rfl

/-- Settles O48: each action of TRC_FCTL on what its write stored, an edge of FRZN, and the trace units by their own laws. -/
theorem freezeAndTraceAct : Obligations.FreezeAndTraceAct := by
  refine ⟨fun s prv v i hv hk => ⟨freezeGo hv hk, freezeThaw hv hk, freezeSlotGo hv hk, freezeSlotThaw hv hk⟩, fun s hpin hfz => ?_, fun s prv die v i hdie h => traceRegisterActs hdie h,
    fun s die hdie hopen => ⟨_, congrArg Host.Outcome.next (if_pos (by simp [hdie, hopen])), State.traceFlush_completes s die⟩,
    fun s die ok a b r hdie hopen hbuf => ⟨_, congrArg Host.Outcome.next (if_pos (by simp [hdie, hopen])), ?_⟩⟩
  · refine ⟨_, congrArg Host.Outcome.next (if_pos (by rw [hpin, hfz]; rfl)), ?_⟩
    rw [State.fz_fzSet, if_neg (ne_true_of_eq_false hfz)]
    exact ⟨rfl, rfl, rfl⟩
  · rw [State.trcUnit_traceLine ok hbuf]
    exact ⟨rfl, rfl, by simp⟩

end Sys2Proof.Cert
end
